-- ==== Sys2Proof/Word.lean ====
section
/-! DEFINITION. The word types of the block and their plainest arithmetic. -/

namespace Sys2Proof

/-- One byte of a frame, a memory or a message. -/
abbrev Byte := BitVec 8

/-- One 32-bit word: a control word, a core register. -/
abbrev Word := BitVec 32

end Sys2Proof
end

