-- ==== Sys2Proof/Terms.lean ====
section
/-! DEFINITION. The operand types of the commands: which mailbox a command stands in, which output, group or die
an event is about, and what the outside supplies with an event. -/

namespace Sys2Proof

/-- The mailbox a command frame stands in: a host mailbox MBn, a local mailbox LMBn of F1, the mailbox of the
service UART (R95), or a command relayed in over the cascade link under a job number. -/
inductive MbRef where
  | host (n : Nat)
  | loc (n : Nat)
  | uart
  | relay (id : Nat)
  deriving DecidableEq, Repr

/-- The dies that send heartbeats and adopt outputs: the output dies N and S. -/
inductive Die where
  | n
  | s
  deriving DecidableEq, Repr

/-- A supply group of the module (VBAT_A to VBAT_D). -/
abbrev Group := Nat

/-- What the Planisher books: a load channel, a bridge or leg, a valve, a bank, an FIO output, the LED rows (R163). -/
inductive Source where
  | load (ch : Nat)
  | leg (l : Nat)
  | valve (v : Nat)
  | bank (b : Nat)
  | fio (ch : Nat)
  | rows
  deriving DecidableEq, Repr

/-- An output with a fault state of its own. -/
inductive OutRef where
  | load (ch : Nat)
  | bridge (b : Nat)
  | fio (ch : Nat)
  deriving DecidableEq, Repr

/-- What a start finds outside the logic: the voltages of N1, N2, S1, S2 and VBAT_L, the rail and VHOLD in mV; for the
dies N and S whether each can be read back, has restarted, kept its configuration copy's CRC, how many changes of state
it counts between the reading and the heartbeat, and by how many ns its frames have left MT's; whether the CRCs of the ledger record, the held configuration, the gate record and the adoption mask in retained SRAM hold;
the LED pages whose CRC fails; the load channels whose turn-off drives the output below -3.0 V; the service jumper, the link
strap (0 MEMBER, 1 MASTER, 2 ALT, 3 both lands low) and the seal loop in kOhm; and whether flash reads back as it was written. -/
structure StartData where
  mv : List Nat
  railMv : Nat
  vholdMv : Nat
  readable : List Bool
  restarted : List Bool
  copyOk : List Bool
  moved : List Nat
  skew : List Int
  ledgerOk : Bool
  configOk : Bool
  gateOk : Bool
  maskOk : Bool
  badPages : List Nat
  clamping : List Nat
  jumper : Bool
  strap : Nat
  sealKohm : Nat
  flashOk : Bool
  deriving DecidableEq, Repr

/-- What the module measures at a wake: the junctions of the load channels in 0.1 °C, VHOLD in mV, the seal loop in kOhm. -/
structure WakeData where
  tj : List Int
  vholdMv : Nat
  sealKohm : Nat
  deriving DecidableEq, Repr

/-- What F0 finds of one die when it tries to take it back: whether it can be read, whether its logic has restarted since the
last heartbeat, whether its configuration copy keeps its CRC, how many changes of state it counts between the reading and the
heartbeat, by how many ns its frames have left MT's (R155, R157); and the load channels whose turn-off drives the output below -3.0 V. -/
structure DieRead where
  readable : Bool
  restarted : Bool
  copyOk : Bool
  moved : Nat
  skew : Int
  clamping : List Nat
  deriving DecidableEq, Repr
/-- What the dies and the sensors give the ledger each 1 ms (R175, R181): the four lid sensors in 0.1 °C, the LOGIC
die's estimate and the LED losses in mW, the energies since the last update in uJ: ramps and clamps per channel (48),
and what the dies have integrated for their other stages, and whether PWR-N and PWR-S gave fresh data. -/
structure LedgerData where
  lid : List Int
  logicMw : Nat
  ledMw : Nat
  energyUj : List Nat
  /-- Clamp energies of the valves and the field outputs, in uJ. -/
  dieUj : Nat
  freshN : Bool
  freshS : Bool
  /-- The load channels whose output falls below -3.0 V when a wire trip turns them off (R134). -/
  clamping : List Nat
  deriving DecidableEq, Repr

/-- A transfer over a crossing that has timed out (R19): its kind, the command or entry that it served, and whether the state
read back already shows it. -/
structure TimedOut where
  kind : Nat
  work : Option (MbRef × Nat)
  shown : Bool
  deriving DecidableEq, Repr

/-- What an orphan die integrates over a time in ns (R152): current in 10 mA. -/
structure WireRun where
  ma : Nat
  dtNs : Nat
  deriving DecidableEq, Repr

/-- A die whose orphan time has come to ORPHAN_OFF_S, and its channels whose output falls below -3.0 V when they turn off. -/
structure OrphanOff where
  die : Die
  clamping : List Nat
  deriving DecidableEq, Repr

/-- A probe of a hop (R359): round trip and turnaround in ns. -/
structure RoundTrip where
  wholeNs : Nat
  turnNs : Nat
  deriving DecidableEq, Repr

/-- One of the samples that a die takes every 100 us (R117): current, voltage, junction in 0.1 °C, the fourth quantity of the
source, and whether it lies in an on-phase. -/
structure Readback where
  i : Int
  v : Nat
  tj : Int
  x : Nat
  on : Bool
  deriving DecidableEq, Repr

/-- What PWR-S measures in a line slot (R224, R233, R234): column voltages in mV at steps 2 and 4, whether the row
driver reached its current limit, the row output at step 5 and the row current in mV and mA, the probe's currents in
0.1 uA and column voltages in mV, and the sinks' dissipation in 10 mW. -/
structure SlotData where
  high : List Nat
  low : List Nat
  limit : Bool
  rowMv : Nat
  rowMa : Nat
  probe : List Nat
  probeMv : List Nat
  sink10mw : Nat
  deriving DecidableEq, Repr
/-- A frame that is valid on a channel's bus: its channel, the MT of its start-of-frame edge, the identifier key of R309
(RTR, FDF, IDE and identifier), BRS, ESI, DLC and data, a recessive res bit (R301), and for a transmission of the
controller itself the buffer it came from. -/
structure CanFrame where
  ch : Nat
  sof : Nat
  key : Nat
  brs : Bool
  esi : Bool
  dlc : Nat
  data : List Byte
  res : Bool
  echo : Option Nat
  deriving DecidableEq, Repr
/-- A link cycle as a port receives it: the port (0 LKA, 1 LKB) and its bytes from the comma (R356). -/
structure Sync where
  port : Nat
  bytes : List Byte
  deriving DecidableEq, Repr
/-- A member as the roster lists it: position, serial, role (strap) and the delay of its LKA hop in ns (R353, R379). -/
structure Member where
  pos : Nat
  serial : Nat
  role : Nat
  hopNs : Nat
  deriving DecidableEq, Repr
/-- A message of the link, reassembled from its cells (R358). -/
structure LinkMsg where
  type : Nat
  src : Nat
  dst : Nat
  mseq : Nat
  bytes : List Byte
  deriving DecidableEq, Repr
/-- The exchange of R373 as it came to this module: the other party's position and serial, both challenges, the other
party's CMAC, and whether all of it came within 20 ms. -/
structure AuthData where
  pos : Nat
  serial : Nat
  masterChal : List Byte
  memberChal : List Byte
  mac : List Byte
  inTime : Bool
  deriving DecidableEq, Repr
/-- What the RANGE die takes in one slot of a round (R386, R387): preamble energy, the polarities of the 1280 data pulses
as received, the first path of the preamble and of the 20 bit groups from T_CE in ps, and whether the key store was too
busy to verify it (R397). -/
structure SlotResp where
  slot : Nat
  energy : Bool
  pulses : List Bool
  firstPs : List Int
  unverified : Bool
  deriving DecidableEq, Repr
/-- The prefix bytes of a Dvorgil instruction, in the order they stand (R483, R484). -/
abbrev Prefixes := List Byte

/-- A Dvorgil register K0 to K15. -/
abbrev KReg := Fin 16

/-- Voltages of VBAT_N1, N2, S1, S2 and VBAT_L in mV. -/
abbrev Volts := List Nat

/-- The size of a Dvorgil immediate: 1, 2 or 4 bytes (R485). -/
inductive ImmSize where
  | i1
  | i2
  | i4
  deriving DecidableEq, Repr

/-- The size of a Dvorgil displacement: 0, 1, 2 or 4 bytes (R487). -/
inductive DispSize where
  | d0
  | d1
  | d2
  | d4
  deriving DecidableEq, Repr

/-- The second operand of an ALU operation: a register, or an immediate with its size (R485, R486). -/
inductive AluOperand where
  | reg (b : KReg)
  | imm (size : ImmSize) (v : Word)
  deriving DecidableEq, Repr

/-- The target of JMP: a 4-byte displacement, or a register (R487). -/
inductive JumpTarget where
  | rel (disp : Word)
  | reg (b : KReg)
  deriving DecidableEq, Repr

/-- The target of CALL: a 4-byte or 2-byte displacement, or a register (R487). -/
inductive CallTarget where
  | rel4 (disp : Word)
  | rel2 (disp : BitVec 16)
  | reg (b : KReg)
  deriving DecidableEq, Repr

/-- The port of IN and OUT: an immediate, or a register (R487). -/
inductive PortOperand where
  | imm (port : BitVec 16)
  | reg (b : KReg)
  deriving DecidableEq, Repr

end Sys2Proof
end

