-- ==== Sys2Proof/Syntax.lean ====
section
/-! DEFINITION. The commands of the block: one constructor of `Instr` for each row of
spec/opcode_table.json, with the operands the row takes from outside; the rows with operands stand first. -/

namespace Sys2Proof

/-- One command to the block (a row of spec/opcode_table.json).  A mailbox command takes its operands from the frame
in the mailbox that was rung for it; an event of the hardware or of time carries what the outside supplies. -/
inductive Instr where
  /-- HOST_WRITE (R65). -/
  | hostWrite (instr : BitVec 8) (addr : Nat) (len : Nat) (data : List Byte) (crc : BitVec 32) (whole : Bool)
  /-- INSTRUCTION_BYTE_UNKNOWN (R62). -/
  | instructionByteUnknown (instr : BitVec 8)
  /-- DOORBELL (R77). -/
  | doorbell (value : BitVec 32)
  /-- MB_ACK (R77). -/
  | mbAck (value : BitVec 32)
  /-- EVQ_ACK (R86). -/
  | evqAck (value : BitVec 32)
  /-- RESTARTED_CLEAR (R69). -/
  | restartedClear (value : BitVec 32)
  /-- PRESENCE_BUTTON_PROVEN (R91). -/
  | presenceButtonProven (lowForNs : Nat)
  /-- SEAL_TEST (R92). -/
  | sealTest (kohm : Nat)
  /-- SERVICE_UART_FRAME (R95). -/
  | serviceUartFrame (bytes : List Byte)
  /-- UART_BYTE_GAP (R95). -/
  | uartByteGap (gapNs : Nat)
  /-- POWER_ON (R48). -/
  | powerOn (d : StartData)
  /-- WAKE_SOURCE_FIRE (R50). -/
  | wakeSourceFire (src : Nat) (idx : Nat) (x : WakeData)
  /-- WAKE_VALIDATED (R50). -/
  | wakeValidated (src : Nat) (idx : Nat)
  /-- HWAKE_N_LOW (R49). -/
  | hwakeNLow (x : WakeData)
  /-- LIMP_EXIT (R47). -/
  | limpExit (lowForNs : Nat)
  /-- VBAT_SAMPLE (R37). -/
  | vbatSample (mv : Volts) (railMv : Nat)
  /-- V5_LIMIT_EXPIRY (R40). -/
  | v5LimitExpiry (limitForNs : Nat)
  /-- VLED_LOW (R40). -/
  | vledLow (mv : Nat)
  /-- VLED_RESTORED (R40). -/
  | vledRestored (mv : Nat) (aboveForNs : Nat)
  /-- C_MEAS_DONE (R42). -/
  | cMeasDone (tNs : Nat)
  /-- ENERGY_EVALUATION (R43). -/
  | energyEvaluation (vholdMv : Nat)
  /-- VBAT_L_LOW (R45). -/
  | vbatLLow (mv : Nat)
  /-- VBAT_L_RECOVER (R46). -/
  | vbatLRecover (mv : Nat)
  /-- BROWNOUT (R46). -/
  | brownout (vholdMv : Nat)
  /-- D2D_FLIT_RECEIVED (R17). -/
  | d2dFlitReceived (link : Nat) (dir : Nat) (lane : Nat) (flit : BitVec 64)
  /-- LOGIC_HEARTBEAT (R17). -/
  | logicHeartbeat (die : Die)
  /-- CROSSING_TIMEOUT (R19). -/
  | crossingTimeout (snd : Nat) (rcv : Nat) (num : Nat) (x : TimedOut)
  /-- CROSSING_RETEST (R20). -/
  | crossingRetest (snd : Nat) (rcv : Nat) (num : Nat) (ok : Bool)
  /-- TIMESTAMP_PAIRING (R31). -/
  | timestampPairing (island : Nat) (counter : Nat)
  /-- EDGE_EXECUTE (R103). -/
  | edgeExecute (id : Nat) (clamps : Bool)
  /-- EDGE_RAMP_END (R119). -/
  | edgeRampEnd (ch : Nat)
  /-- PWM_PERIOD_START (R106). -/
  | pwmPeriodStart (src : Source)
  /-- SLEW_END (R109). -/
  | slewEnd (ch : Nat) (vout : Nat)
  /-- SLEW_TIMEOUT (R110). -/
  | slewTimeout (ch : Nat) (clamps : Bool)
  /-- READBACK_SAMPLE (R117): the samples of each quantity, the current with whether it lies in an on-phase. -/
  | readbackSample (src : Source) (i : List (Int × Bool)) (v : List Nat) (tj : List Int) (x : List Nat)
  /-- IMBALANCE_CHECK (R114). -/
  | imbalanceCheck (ch : Nat) (currents : List Int) (forNs : Nat)
  /-- OPEN_ON_QUALIFIED (R115). -/
  | openOnQualified (ch : Nat) (ma : Nat) (forNs : Nat)
  /-- OFF_STATE_TEST (R116). -/
  | offStateTest (out : OutRef) (v0 : Nat) (v1 : Nat)
  /-- CURRENT_LIMIT (R135). -/
  | currentLimit (ch : Nat) (ma : Nat)
  /-- LIMIT_RELEASE (R134). -/
  | limitRelease (ch : Nat) (ma : Nat) (belowForNs : Nat)
  /-- LIMIT_MAX_EXPIRY (R135). -/
  | limitMaxExpiry (ch : Nat) (clamps : Bool)
  /-- FAST_TRIP (R135). -/
  | fastTrip (ch : Nat) (ma : Nat) (clamps : Bool)
  /-- THERMAL_LATCH (R137). -/
  | thermalLatch (ch : Nat) (tj : Int) (clamps : Bool)
  /-- THERMAL_RELEASE (R137). -/
  | thermalRelease (ch : Nat) (tj : Int)
  /-- CLAMP_END (R139). -/
  | clampEnd (ch : Nat) (energyUj : Nat) (condNs : Nat)
  /-- CLAMP_POWER_EXCEEDED (R139). -/
  | clampPowerExceeded (ch : Nat)
  /-- GROUP_UNDERVOLTAGE (R140). -/
  | groupUndervoltage (g : Group) (mv : Nat) (clamping : List Nat)
  /-- UV_RECOVER (R141). -/
  | uvRecover (g : Group) (mv : Nat) (aboveForNs : Nat)
  /-- RETRY_DELAY_EXPIRY (R143). -/
  | retryDelayExpiry (out : OutRef)
  /-- RESTART_REQUEST (R143). -/
  | restartRequest (out : OutRef)
  /-- RESTART_EDGE (R143). -/
  | restartEdge (id : Nat)
  /-- RETRY_REFILL (R145). -/
  | retryRefill (out : OutRef)
  /-- DIR_RAMP_DOWN_END (R124). -/
  | dirRampDownEnd (br : Nat)
  /-- DIR_DONE (R124). -/
  | dirDone (br : Nat) (ma : Nat) (belowForNs : Nat)
  /-- DIR_STALLED (R124). -/
  | dirStalled (br : Nat)
  /-- BRIDGE_LIMIT (R126). -/
  | bridgeLimit (leg : Nat) (ma : Nat) (forNs : Nat)
  /-- BRIDGE_SHORT (R126). -/
  | bridgeShort (leg : Nat) (ma : Nat) (vdsMv : Nat)
  /-- BRIDGE_THERMAL (R126). -/
  | bridgeThermal (leg : Nat) (tj : Int)
  /-- BRIDGE_UV (R126). -/
  | bridgeUv (br : Nat)
  /-- BRIDGE_OPEN_LOAD (R126). -/
  | bridgeOpenLoad (br : Nat) (ma : Nat) (forNs : Nat)
  /-- ORPHAN_ENTRY (R150). -/
  | orphanEntry (die : Die)
  /-- WIRE_BACKSTOP_TRIP (R152). -/
  | wireBackstopTrip (ch : Nat) (x : WireRun) (clamps : Bool)
  /-- ORPHAN_TURN_ON (R153). -/
  | orphanTurnOn (g : Group)
  /-- FIO_SILENCE_EXPIRY (R266). -/
  | fioSilenceExpiry (ch : Nat)
  /-- ORPHAN_OFF_EXPIRY (R517). -/
  | orphanOffExpiry (x : OrphanOff)
  /-- ADOPTION (R155). -/
  | adoption (d : StartData)
  /-- ADOPTION_RETRY (R156). -/
  | adoptionRetry (die : Die) (r : DieRead)
  /-- UNADOPTED_RETRY (R159). -/
  | unadoptedRetry (die : Die) (r : DieRead)
  /-- SPORADIC_EDGE_ARRIVAL (R168). -/
  | sporadicEdgeArrival (id : Nat)
  /-- DELAYED_TURN_ON (R171). -/
  | delayedTurnOn (id : Nat)
  /-- DELAY_MAX_EXPIRY (R171). -/
  | delayMaxExpiry (id : Nat)
  /-- PROTECTION_OFF_REPORT (R164). -/
  | protectionOffReport (src : Source)
  /-- EV_PLAN_BUILD_LATE (R173). -/
  | evPlanBuildLate (build100us : Nat)
  /-- LEDGER_UPDATE (R175). -/
  | ledgerUpdate (d : LedgerData)
  /-- LEDGER_DIE_STALE (R22). -/
  | ledgerDieStale (die : Die)
  /-- BOOKING_EXCEEDED (R185). -/
  | bookingExceeded (src : Source) (ma : Nat) (forNs : Nat)
  /-- OFF_TIME_WAIT_END (R207). -/
  | offTimeWaitEnd (vl : Nat)
  /-- FIRED (R197). -/
  | fired (vl : Nat)
  /-- PEAK_END (R197). -/
  | peakEnd (vl : Nat)
  /-- DROP_END (R197). -/
  | dropEnd (vl : Nat) (ma : Nat)
  /-- HOLD_END (R197). -/
  | holdEnd (vl : Nat)
  /-- DECAY_END (R197). -/
  | decayEnd (vl : Nat) (ma : Nat)
  /-- OFF_TIME_END (R197). -/
  | offTimeEnd (vl : Nat)
  /-- BANK_OFF (R196). -/
  | bankOff (bank : Nat)
  /-- CHOP_PERIOD (R199). -/
  | chopPeriod (vl : Nat) (meanI : Nat) (rise : Nat)
  /-- VALVE_SAMPLE (R201). -/
  | valveSample (vl : Nat) (ma : Nat)
  /-- NO_MOVE (R202). -/
  | noMove (vl : Nat)
  /-- LAND_ENTRY (R203). -/
  | landEntry (vl : Nat)
  /-- LAND_RESCUE (R203). -/
  | landRescue (vl : Nat)
  /-- CLAMP_HOT (R200). -/
  | clampHot (vl : Nat) (meanMw : Nat)
  /-- VALVE_OVERCURRENT (R212). -/
  | valveOvercurrent (vl : Nat) (ma : Nat)
  /-- OPEN_COIL (R212). -/
  | openCoil (vl : Nat) (ma : Nat)
  /-- VALVE_THERMAL (R212). -/
  | valveThermal (vl : Nat) (tj : Int)
  /-- BANK_SHORT (R212). -/
  | bankShort (bank : Nat) (ma : Nat) (vdsMv : Nat)
  /-- BANK_THERMAL (R212). -/
  | bankThermal (bank : Nat) (tj : Int)
  /-- BANK_CONT_EXCEEDED (R212). -/
  | bankContExceeded (bank : Nat) (meanI : Nat) (belowForNs : Nat)
  /-- VALVE_UV (R213). -/
  | valveUv (bank : Nat)
  /-- LINE_SLOT (R224). -/
  | lineSlot (d : SlotData)
  /-- LINE_REFRESH (R227). -/
  | lineRefresh (row : Nat)
  /-- ROW_SHORT_RETRY (R235). -/
  | rowShortRetry (row : Nat) (shorted : Bool)
  /-- SCAN_FRAME (R225). -/
  | scanFrame (vf : List Nat)
  /-- FIO_SAMPLE (R259). -/
  | fioSample (ch : Nat) (raw : Bool)
  /-- WIRE_BREAK_MEASURE (R260). -/
  | wireBreakMeasure (ch : Nat) (i10ua : Nat)
  /-- FIO_OUTPUT_LIMIT (R264). -/
  | fioOutputLimit (ch : Nat) (ma : Nat) (belowForNs : Nat)
  /-- FIO_OVERLOAD (R264). -/
  | fioOverload (ch : Nat) (ma : Nat)
  /-- FIO_THERMAL (R264). -/
  | fioThermal (ch : Nat) (tj : Int)
  /-- FIO_CLAMP (R264). -/
  | fioClamp (ch : Nat) (energyUj : Nat)
  /-- FIO_UV (R264). -/
  | fioUv (ch : Nat)
  /-- FIO_OPEN_ON (R265). -/
  | fioOpenOn (ch : Nat) (ma : Nat) (forNs : Nat)
  /-- WAKE_POLL_PARK (R268). -/
  | wakePollPark (wk : Nat) (mv : Nat)
  /-- WAKE_QUALIFY_POLL (R270). -/
  | wakeQualifyPoll (wk : Nat) (mv : Nat)
  /-- WAKE_POLL_RUN (R272). -/
  | wakePollRun (wk : Nat) (mv : Nat)
  /-- TDM_FRAME (R283). -/
  | tdmFrame (rx : List Int)
  /-- PROGRAMME_START (R286). -/
  | programmeStart (zone : Nat)
  /-- PROGRAMME_END (R286). -/
  | programmeEnd (zone : Nat)
  /-- LINK_AUDIO_LOST (R287). -/
  | linkAudioLost (ch : Nat) (missingNs : Nat)
  /-- PILOT_WINDOW (R290). -/
  | pilotWindow (zone : Nat) (v : Nat) (ma : Nat) (clipped : Bool)
  /-- CALIBRATION_DONE (R290). -/
  | calibrationDone (zone : Nat)
  /-- CAN_FRAME_RECEIVED (R310). -/
  | canFrameReceived (ch : Nat) (f : CanFrame)
  /-- RING_LOCK_READ (R310). -/
  | ringLockRead (ch : Nat) (idx : Nat)
  /-- RING_RELEASE_READ (R310). -/
  | ringReleaseRead (ch : Nat) (idx : Nat)
  /-- RING_ENTRY_FILTER (R312). -/
  | ringEntryFilter (ch : Nat)
  /-- CAN_TX_DONE (R307). -/
  | canTxDone (ch : Nat) (txb : Nat) (sofMt : Nat) (tdcv : Nat)
  /-- CAN_TX_ERROR (R307). -/
  | canTxError (ch : Nat) (txb : Nat) (err : Nat) (tdcv : Nat)
  /-- CAN_TX_DEADLINE (R307). -/
  | canTxDeadline (ch : Nat) (txb : Nat) (underway : Bool)
  /-- ERROR_STATE_CHANGE (R317). -/
  | errorStateChange (ch : Nat) (tec : Nat) (recv : Nat) (busOff : Bool) (recovered : Bool)
  /-- BUSOFF_HOLD_EXPIRY (R317). -/
  | busoffHoldExpiry (ch : Nat)
  /-- BUS_STUCK (R317). -/
  | busStuck (ch : Nat) (dominant : Bool) (forNs : Nat)
  /-- REFERENCE_RECEIVED (R319). -/
  | referenceReceived (f : CanFrame)
  /-- SPEED_FRAME (R321). -/
  | speedFrame (f : CanFrame)
  /-- CAN_ABORT (R326). -/
  | canAbort (underway : Nat)
  /-- RING_MESSAGE_RECEIVED (R334). -/
  | ringMessageReceived (f : CanFrame)
  /-- KEEPER_THRESHOLD (R342). -/
  | keeperThreshold (node : Nat)
  /-- SYNC_RECEIVED (R359). -/
  | syncReceived (d : Sync)
  /-- HOP_PROBE (R359). -/
  | hopProbe (port : Nat) (x : RoundTrip)
  /-- FORMATION (R353). -/
  | formation (members : List Member)
  /-- STRIKE_APPLY (R361). -/
  | strikeApply (clamps : List Nat)
  /-- RELAY_ACK_TIMEOUT (R364). -/
  | relayAckTimeout (mseq : Nat)
  /-- LOSS_OF_LOCK (R368). -/
  | lossOfLock (port : Nat)
  /-- UNWRAP (R369). -/
  | unwrap (port : Nat) (validForNs : Nat)
  /-- PORT_QUIET (R369). -/
  | portQuiet (port : Nat) (quietForNs : Nat)
  /-- MEMBER_SILENT (R370). -/
  | memberSilent (pos : Nat) (clearCycles : Nat) (unreachable : Bool)
  /-- MEMBERSHIP_AUTH (R373). -/
  | membershipAuth (a : AuthData)
  /-- TOKEN_SEARCH (R384). -/
  | tokenSearch (ant : Nat) (hit : Bool) (vswr10 : Nat)
  /-- TOKEN_ROUND (R385). -/
  | tokenRound (ant : Nat) (rs : List SlotResp)
  /-- VERIFY_TIMEOUT (R397). -/
  | verifyTimeout (ant : Nat) (slot : Nat)
  /-- TRACKING_ROUND (R394). -/
  | trackingRound (ant : Nat) (rs : List SlotResp)
  /-- ENTROPY_TEST_FAIL (R419). -/
  | entropyTestFail (kind : Nat) (samples : Nat)
  /-- DRBG_RESTART (R419). -/
  | drbgRestart (samples : Nat)
  /-- PEER_FRAME (R421). -/
  | peerFrame (f : CanFrame)
  /-- PEER_TIMEOUT (R421). -/
  | peerTimeout (peer : Nat)
  /-- BOOT_DECISION (R462). -/
  | bootDecision (d : StartData)
  /-- CLOCK_CHECK (R509). -/
  | clockCheck (island : Nat) (dev : Int)
  /-- LOGIC_RAIL_HIGH (R509). -/
  | logicRailHigh (mv : Nat) (forNs : Nat)
  /-- ISLAND_RESET (R510). -/
  | islandReset (island : Nat) (cause : Nat)
  /-- LOGIC_RESET (R514). -/
  | logicReset (cause : Nat) (sub : Nat) (d : StartData)
  /-- HOURS_INCREMENT (R572). -/
  | hoursIncrement (park : Bool)
  /-- TIMER_FIRE (R501). -/
  | timerFire (n : Nat)
  /-- LMB_DOORBELL (R499). -/
  | lmbDoorbell (value : BitVec 32)
  /-- LMB_ACK (R499). -/
  | lmbAck (value : BitVec 32)
  /-- HEARTBEAT_PORT (R506). -/
  | heartbeatPort (value : BitVec 32)
  /-- IRQ_PEND_CLEAR (R502). -/
  | irqPendClear (value : BitVec 32)
  /-- IRQ_SWI (R499). -/
  | irqSwi (value : BitVec 32)
  /-- TIMN_CTL_WRITE (R501). -/
  | timnCtlWrite (n : Nat) (value : BitVec 32)
  /-- F1_PORT_WRITE (R499). -/
  | f1PortWrite (port : Nat) (value : BitVec 32)
  /-- NOP (R487). -/
  | nop (p : Prefixes)
  /-- WFI (R487). -/
  | wfi (p : Prefixes)
  /-- BRK (R487). -/
  | brk (p : Prefixes)
  /-- RET (R493). -/
  | ret (p : Prefixes)
  /-- RETI (R493). -/
  | reti (p : Prefixes)
  /-- EI (R487). -/
  | ei (p : Prefixes)
  /-- DI (R487). -/
  | di (p : Prefixes)
  /-- FENCE (R487). -/
  | fence (p : Prefixes)
  /-- TRAP (R487). -/
  | trap (p : Prefixes) (n : BitVec 8)
  /-- MOV (R486). -/
  | mov (p : Prefixes) (a : KReg) (b : AluOperand)
  /-- ADD (R486). -/
  | add (p : Prefixes) (a : KReg) (b : AluOperand)
  /-- ADC (R486). -/
  | adc (p : Prefixes) (a : KReg) (b : AluOperand)
  /-- SUB (R486). -/
  | sub (p : Prefixes) (a : KReg) (b : AluOperand)
  /-- SBC (R486). -/
  | sbc (p : Prefixes) (a : KReg) (b : AluOperand)
  /-- CMP (R486). -/
  | cmp (p : Prefixes) (a : KReg) (b : AluOperand)
  /-- AND (R486). -/
  | and (p : Prefixes) (a : KReg) (b : AluOperand)
  /-- OR (R486). -/
  | or (p : Prefixes) (a : KReg) (b : AluOperand)
  /-- XOR (R486). -/
  | xor (p : Prefixes) (a : KReg) (b : AluOperand)
  /-- TST (R486). -/
  | tst (p : Prefixes) (a : KReg) (b : AluOperand)
  /-- SHL (R486). -/
  | shl (p : Prefixes) (a : KReg) (b : AluOperand)
  /-- SHR (R486). -/
  | shr (p : Prefixes) (a : KReg) (b : AluOperand)
  /-- SAR (R486). -/
  | sar (p : Prefixes) (a : KReg) (b : AluOperand)
  /-- ROR (R486). -/
  | ror (p : Prefixes) (a : KReg) (b : AluOperand)
  /-- MUL (R486). -/
  | mul (p : Prefixes) (a : KReg) (b : AluOperand)
  /-- MULH (R486). -/
  | mulh (p : Prefixes) (a : KReg) (b : AluOperand)
  /-- NOT (R487). -/
  | not (p : Prefixes) (a : KReg) (b : KReg)
  /-- NEG (R487). -/
  | neg (p : Prefixes) (a : KReg) (b : KReg)
  /-- INC (R487). -/
  | inc (p : Prefixes) (a : KReg) (b : KReg)
  /-- DEC (R487). -/
  | dec (p : Prefixes) (a : KReg) (b : KReg)
  /-- PAR (R487). -/
  | par (p : Prefixes) (a : KReg) (b : KReg)
  /-- BREV (R487). -/
  | brev (p : Prefixes) (a : KReg) (b : KReg)
  /-- CLZ (R487). -/
  | clz (p : Prefixes) (a : KReg) (b : KReg)
  /-- SEXT (R487). -/
  | sext (p : Prefixes) (a : KReg) (b : KReg)
  /-- ZEXT (R487). -/
  | zext (p : Prefixes) (a : KReg) (b : KReg)
  /-- DIVU (R487). -/
  | divu (p : Prefixes) (a : KReg) (b : KReg)
  /-- DIVS (R487). -/
  | divs (p : Prefixes) (a : KReg) (b : KReg)
  /-- REMU (R487). -/
  | remu (p : Prefixes) (a : KReg) (b : KReg)
  /-- REMS (R487). -/
  | rems (p : Prefixes) (a : KReg) (b : KReg)
  /-- CRCSTEP (R492). -/
  | crcstep (p : Prefixes) (a : KReg) (b : KReg) (imm : BitVec 8)
  /-- MFF (R487). -/
  | mff (p : Prefixes) (a : KReg) (b : KReg)
  /-- MTF (R487). -/
  | mtf (p : Prefixes) (a : KReg) (b : KReg)
  /-- LD (R490). -/
  | ld (p : Prefixes) (a : KReg) (b : KReg) (dsz : DispSize) (disp : BitVec 32)
  /-- ST (R490). -/
  | st (p : Prefixes) (a : KReg) (b : KReg) (dsz : DispSize) (disp : BitVec 32)
  /-- LDS (R487). -/
  | lds (p : Prefixes) (a : KReg) (b : KReg) (dsz : DispSize) (disp : BitVec 32)
  /-- STI (R487). -/
  | sti (p : Prefixes) (b : KReg) (dsz : DispSize) (disp : BitVec 32) (isz : ImmSize) (imm : BitVec 32)
  /-- LEA (R487). -/
  | lea (p : Prefixes) (a : KReg) (b : KReg) (disp : BitVec 32)
  /-- XCHG (R490). -/
  | xchg (p : Prefixes) (a : KReg) (b : KReg)
  /-- COPY (R491). -/
  | copy (p : Prefixes) (a : KReg) (b : KReg)
  /-- PUSH (R495). -/
  | push (p : Prefixes) (a : KReg) (b : KReg)
  /-- POP (R495). -/
  | pop (p : Prefixes) (a : KReg) (b : KReg)
  /-- RSPUSH (R493). -/
  | rspush (p : Prefixes) (a : KReg) (b : KReg)
  /-- RSPOP (R494). -/
  | rspop (p : Prefixes) (a : KReg) (b : KReg)
  /-- RSPEEK (R487). -/
  | rspeek (p : Prefixes) (a : KReg) (b : KReg) (imm : BitVec 8)
  /-- RSPGET (R487). -/
  | rspget (p : Prefixes) (a : KReg) (b : KReg)
  /-- COPYC (R487). -/
  | copyc (p : Prefixes) (a : KReg) (b : KReg)
  /-- LDC (R487). -/
  | ldc (p : Prefixes) (a : KReg) (b : KReg) (dsz : DispSize) (disp : BitVec 32)
  /-- BCC (R480). -/
  | bcc (p : Prefixes) (cc : BitVec 4) (wide : Bool) (disp : BitVec 16)
  /-- JMP (R487). -/
  | jmp (p : Prefixes) (t : JumpTarget)
  /-- CALL (R493). -/
  | call (p : Prefixes) (t : CallTarget) (mask : BitVec 16)
  /-- IN (R487). -/
  | inPort (p : Prefixes) (a : KReg) (port : PortOperand)
  /-- OUT (R487). -/
  | outPort (p : Prefixes) (a : KReg) (port : PortOperand)
  /-- HOST_READ (R67). -/
  | hostRead (instr : BitVec 8) (addr : Nat) (len : Nat) (whole : Bool)
  /-- HOLDOFF_EXPIRY (R71). -/
  | holdoffExpiry
  /-- PRESENCE_TIMEOUT (R91). -/
  | presenceTimeout
  /-- UART_SESSION_CLOSE (R95). -/
  | uartSessionClose
  /-- SYS_PING (R411). -/
  | sysPing
  /-- SYS_TIME (R34). -/
  | sysTime
  /-- SYS_ASSAY (R476). -/
  | sysAssay
  /-- SYS_RESET (R524). -/
  | sysReset
  /-- SYS_RESET_ASSERT (R524). -/
  | sysResetAssert
  /-- SYS_SUPERVISE (R525). -/
  | sysSupervise
  /-- SYS_HEALTH (R526). -/
  | sysHealth
  /-- SYS_IDENTITY (R573). -/
  | sysIdentity
  /-- PWR_STATUS (R37). -/
  | pwrStatus
  /-- PWR_CONFIG (R38). -/
  | pwrConfig
  /-- PWR_PARK (R47). -/
  | pwrPark
  /-- DRAIN_OUTPUTS_OFF (R51). -/
  | drainOutputsOff
  /-- DRAIN_MAX_EXPIRY (R51). -/
  | drainMaxExpiry
  /-- DRAIN_SAVE (R51). -/
  | drainSave
  /-- DRAIN_ARM (R51). -/
  | drainArm
  /-- PARK_ENTRY (R51). -/
  | parkEntry
  /-- WAKE_CHECK_MAX_EXPIRY (R50). -/
  | wakeCheckMaxExpiry
  /-- SAG_START (R54). -/
  | sagStart
  /-- SAG_END (R58). -/
  | sagEnd
  /-- SAG_UNDO_STEP (R58). -/
  | sagUndoStep
  /-- SAG_DEFER_MAX_EXPIRY (R56). -/
  | sagDeferMaxExpiry
  /-- OVERVOLTAGE (R40). -/
  | overvoltage
  /-- OVERVOLTAGE_END (R40). -/
  | overvoltageEnd
  /-- V5_RETRY (R40). -/
  | v5Retry
  /-- MT_SOURCE_LOST (R29). -/
  | mtSourceLost
  /-- LOAD_CONFIG (R99). -/
  | loadConfig
  /-- LOAD_SET (R101). -/
  | loadSet
  /-- LOAD_STATUS (R118). -/
  | loadStatus
  /-- LOAD_CLEAR (R148). -/
  | loadClear
  /-- BRIDGE_CONFIG (R127). -/
  | bridgeConfig
  /-- BRIDGE_DRIVE (R128). -/
  | bridgeDrive
  /-- BRIDGE_STATUS (R129). -/
  | bridgeStatus
  /-- BRIDGE_CLEAR (R130). -/
  | bridgeClear
  /-- PLAN_FRAME (R160). -/
  | planFrame
  /-- GENERATION_SWAP (R173). -/
  | generationSwap
  /-- SHED_LEVEL_ENTRY (R182). -/
  | shedLevelEntry
  /-- SHED_FACTOR_STEP (R182). -/
  | shedFactorStep
  /-- SHED_CHANNEL (R182). -/
  | shedChannel
  /-- SHED_STEP_BACK (R183). -/
  | shedStepBack
  /-- PLAN_CONFIG (R186). -/
  | planConfig
  /-- PLAN_CHANNEL (R187). -/
  | planChannel
  /-- PLAN_STATUS (R188). -/
  | planStatus
  /-- PLAN_DUMP (R189). -/
  | planDump
  /-- LEDGER_WIRE (R190). -/
  | ledgerWire
  /-- LEDGER_CONFIG (R191). -/
  | ledgerConfig
  /-- LEDGER_STATUS (R192). -/
  | ledgerStatus
  /-- VALVE_CONFIG (R215). -/
  | valveConfig
  /-- VALVE_BANK (R217). -/
  | valveBank
  /-- VALVE_FIRE (R218). -/
  | valveFire
  /-- VALVE_RELEASE (R219). -/
  | valveRelease
  /-- VALVE_STATUS (R220). -/
  | valveStatus
  /-- VALVE_CLEAR (R221). -/
  | valveClear
  /-- TABLE_BUILD_DONE (R231). -/
  | tableBuildDone
  /-- MEAS_INTERVAL_EXPIRY (R238). -/
  | measIntervalExpiry
  /-- LED_CONFIG (R248). -/
  | ledConfig
  /-- LED_FRAME (R249). -/
  | ledFrame
  /-- LED_SHOW (R241). -/
  | ledShow
  /-- LED_GAMMA (R251). -/
  | ledGamma
  /-- LED_DOTCOR (R251). -/
  | ledDotcor
  /-- LED_PATINA (R252). -/
  | ledPatina
  /-- LED_STATUS (R253). -/
  | ledStatus
  /-- LED_FAULTS (R253). -/
  | ledFaults
  /-- LED_LAYOUT (R243). -/
  | ledLayout
  /-- LED_LIGHT (R244). -/
  | ledLight
  /-- SPEED_COMPUTE (R261). -/
  | speedCompute
  /-- FIO_CONFIG (R274). -/
  | fioConfig
  /-- FIO_SET (R276). -/
  | fioSet
  /-- FIO_STATUS (R277). -/
  | fioStatus
  /-- FIO_CLEAR (R278). -/
  | fioClear
  /-- FIO_WAKE (R279). -/
  | fioWake
  /-- AUDIO_ZONE (R294). -/
  | audioZone
  /-- AUDIO_PLAY (R295). -/
  | audioPlay
  /-- AUDIO_STOP (R296). -/
  | audioStop
  /-- AUDIO_ROUTE (R296). -/
  | audioRoute
  /-- AUDIO_CALIBRATE (R296). -/
  | audioCalibrate
  /-- AUDIO_STATUS (R297). -/
  | audioStatus
  /-- FILTER_SWAP (R314). -/
  | filterSwap
  /-- REFERENCE_LOAD (R318). -/
  | referenceLoad
  /-- SPEED_TIMEOUT (R321). -/
  | speedTimeout
  /-- CAN_CONFIG (R323). -/
  | canConfig
  /-- CAN_MODE (R324). -/
  | canMode
  /-- CAN_SEND (R325). -/
  | canSend
  /-- CAN_RX (R327). -/
  | canRx
  /-- CAN_FILTER (R328). -/
  | canFilter
  /-- CAN_TIME (R329). -/
  | canTime
  /-- CAN_SPEED (R330). -/
  | canSpeed
  /-- CAN_STATUS (R331). -/
  | canStatus
  /-- RING_SEND (R334). -/
  | ringSend
  /-- RING_MAX_EXPIRY (R334). -/
  | ringMaxExpiry
  /-- ALIVE_TIMEOUT (R335). -/
  | aliveTimeout
  /-- COMMIT_WINDOW_END (R339). -/
  | commitWindowEnd
  /-- NM_CONFIG (R345). -/
  | nmConfig
  /-- NM_REQUEST (R346). -/
  | nmRequest
  /-- NM_STATUS (R347). -/
  | nmStatus
  /-- NM_KEEPERS (R348). -/
  | nmKeepers
  /-- NM_WAKES (R348). -/
  | nmWakes
  /-- CYCLE_ORIGINATE (R356). -/
  | cycleOriginate
  /-- STRIKE_ANNOUNCE (R360). -/
  | strikeAnnounce
  /-- STRIKE_LAND_RELEASE (R566). -/
  | strikeLandRelease
  /-- STAGE_MAX_EXPIRY (R362). -/
  | stageMaxExpiry
  /-- RELAYED_MESSAGE (R364). -/
  | relayedMessage
  /-- LINK_WAKE_TRANSMIT (R369). -/
  | linkWakeTransmit
  /-- MASTER_TAKEOVER (R371). -/
  | masterTakeover
  /-- NOT_CASCADED (R352). -/
  | notCascaded
  /-- AUTH_RETRY (R373). -/
  | authRetry
  /-- LINK_CONFIG (R376). -/
  | linkConfig
  /-- LINK_STATUS (R377). -/
  | linkStatus
  /-- LINK_STRIKE (R378). -/
  | linkStrike
  /-- LINK_MEMBERS (R379). -/
  | linkMembers
  /-- LINK_REFORM (R380). -/
  | linkReform
  /-- LINK_WAKE (R380). -/
  | linkWake
  /-- TOKEN_CONFIG (R398). -/
  | tokenConfig
  /-- TOKEN_ZONES (R399). -/
  | tokenZones
  /-- TOKEN_ENROL (R400). -/
  | tokenEnrol
  /-- TOKEN_REVOKE (R401). -/
  | tokenRevoke
  /-- TOKEN_RANGE (R401). -/
  | tokenRange
  /-- TOKEN_LIST (R402). -/
  | tokenList
  /-- TOKEN_STATUS (R403). -/
  | tokenStatus
  /-- DRBG_RESEED (R419). -/
  | drbgReseed
  /-- CHALLENGE_EXPIRY (R420). -/
  | challengeExpiry
  /-- KEY_STATUS (R424). -/
  | keyStatus
  /-- KEY_SLOT_INFO (R413). -/
  | keySlotInfo
  /-- KEY_GENERATE (R424). -/
  | keyGenerate
  /-- KEY_IMPORT (R424). -/
  | keyImport
  /-- KEY_EXPORT (R416). -/
  | keyExport
  /-- KEY_DELETE (R424). -/
  | keyDelete
  /-- KEY_DERIVE (R417). -/
  | keyDerive
  /-- KEY_CIPHER (R414). -/
  | keyCipher
  /-- KEY_MAC (R424). -/
  | keyMac
  /-- KEY_SIGN (R424). -/
  | keySign
  /-- KEY_HASH (R424). -/
  | keyHash
  /-- KEY_RANDOM (R424). -/
  | keyRandom
  /-- KEY_CHALLENGE (R420). -/
  | keyChallenge
  /-- KEY_PEER (R421). -/
  | keyPeer
  /-- KEY_PEER_AUTH (R421). -/
  | keyPeerAuth
  /-- KEY_HALLMARK (R423). -/
  | keyHallmark
  /-- KEY_CERT (R424). -/
  | keyCert
  /-- KEY_TRANSITION (R408). -/
  | keyTransition
  /-- WRITE_UNIT_ADMITTED (R430). -/
  | writeUnitAdmitted
  /-- ADMISSION_WAIT_EXPIRY (R431). -/
  | admissionWaitExpiry
  /-- RECORD_WRITE_DONE (R434). -/
  | recordWriteDone
  /-- REPAIR_DONE (R435). -/
  | repairDone
  /-- SHADOW_SAVE (R441). -/
  | shadowSave
  /-- PARAM_READ (R435). -/
  | paramRead
  /-- PARAM_WRITE (R434). -/
  | paramWrite
  /-- PARAM_DELETE (R434). -/
  | paramDelete
  /-- PARAM_COUNTER (R438). -/
  | paramCounter
  /-- PARAM_SHADOW (R441). -/
  | paramShadow
  /-- PARAM_STATUS (R447). -/
  | paramStatus
  /-- PARAM_ERASE (R429). -/
  | paramErase
  /-- GATE_RECORD_WRITE (R461). -/
  | gateRecordWrite
  /-- SESSION_IDLE_TIMEOUT (R456). -/
  | sessionIdleTimeout
  /-- RESTART_GATE_CHECK (R473). -/
  | restartGateCheck
  /-- ASSAY_RUN_STEP (R466). -/
  | assayRunStep
  /-- UPD_BEGIN (R471). -/
  | updBegin
  /-- UPD_BLOCK (R472). -/
  | updBlock
  /-- UPD_END (R473). -/
  | updEnd
  /-- UPD_ABORT (R473). -/
  | updAbort
  /-- UPD_CONFIG (R474). -/
  | updConfig
  /-- UPD_STATUS (R475). -/
  | updStatus
  /-- PRIV_TESTMODE (R523). -/
  | privTestmode
  /-- ANVIL_F0_TIMEOUT (R506). -/
  | anvilF0Timeout
  /-- F1_HEARTBEAT_TIMEOUT (R507). -/
  | f1HeartbeatTimeout
  /-- F1_RESTART (R507). -/
  | f1Restart
  /-- ANVIL_TIMEOUT (R508). -/
  | anvilTimeout
  /-- ANVIL_RESET_DONE (R508). -/
  | anvilResetDone
  /-- BACKSTOP_EXPIRY (R506). -/
  | backstopExpiry
  /-- FAILED_RESTART_TIMEOUT (R516). -/
  | failedRestartTimeout
  /-- INTERRUPT_ENTRY (R497). -/
  | interruptEntry
  /-- EVQ_REC0_READ (R499). -/
  | evqRec0Read
  /-- MT_SNAP_LO_READ (R499). -/
  | mtSnapLoRead
  /-- POWER_REMOVED (R511). -/
  | powerRemoved
  /-- ANVIL_DOUBLE_FAULT (R508). -/
  | anvilDoubleFault
  deriving DecidableEq, Repr

end Sys2Proof
end

