-- ==== Sys2Proof/Config.lean ====
section
/-! DEFINITION. What one module's manufacture fixes and what the spec leaves open: constants without a value, so that
nothing proved here rests on one. -/

namespace Sys2Proof

/-- The 8-byte module serial (R572). -/
opaque Config.serial : Nat

/-- The 16-byte ordering code (R573). -/
opaque Config.orderCode : List Byte

/-- The revision of die 0 to 3 (R572). -/
opaque Config.dieRev : Nat → Nat

/-- Year less 2000 and week of manufacture (R573). -/
opaque Config.dateYear : Nat
opaque Config.dateWeek : Nat

/-- Kind, wafer number, X, Y and lot of die 0 to 3, 12 bytes (R422). -/
opaque Config.dieInfo : Nat → List Byte

/-- The 32 bytes of the FOUNDRY ROOT, generated at wafer test (R406). -/
opaque Config.foundryRoot : List Byte

/-- The private scalar of the attestation key, derived from the FOUNDRY ROOT (R407). -/
opaque Config.attestScalar : Nat

/-- The DER certificate of the attestation key (R412). -/
opaque Config.attestCert : List Byte

/-- Challaqua's return key in the boot ROM, X then Y (R409). -/
opaque Config.returnKey : List Byte

/-- Challaqua's image key in the boot ROM, X then Y (R453). -/
opaque Config.imageKeyPub : List Byte

/-- The family image key, and the device image key of this module (R407, R412). -/
opaque Config.familyKey : List Byte
opaque Config.deviceImageKey : List Byte

/-- VERSION and measurement of the foundry image with which the module is supplied (R575). -/
opaque Config.factoryVersion : Nat
opaque Config.factoryMeasure : List Byte

/-- The 32-byte image key of that foundry image (R454). -/
opaque Config.factoryKey : List Byte

/-- Byte n that the on-chip entropy source delivers (R419): a free value. -/
opaque Config.entropy : Nat → Byte

/-- What the 18 kHz low-pass filter of a zone gives for a sample of a frame (R284): the spec bounds its attenuation and
gives no coefficients, so it is a free value. -/
opaque Config.lowpass : Nat → Int → Int

/-- The current shunt of a zone in mOhm, which the integrator chooses (R548). -/
opaque Config.shuntMohm : Nat → Nat

/-- The CRC of a die-to-die flit over its other 48 bits, and which of its 16 types are writes: the spec gives neither
(R17). -/
opaque Config.d2dCrc : Nat → Nat
opaque Config.d2dWrite : Nat → Bool

/-- The on-time in ns of a chopping period in AVERAGE mode, from the set point and the last mean current in mA and the
period in ns (R199): a free value, as the spec gives the aim of the adjustment and no law for it. -/
opaque Config.averageOn : Nat → Nat → Nat → Nat

/-- Whether the output of a load channel falls below -3.0 V when DRAIN_MAX forces it off at an MT (R51, R134): a free value, as the
load decides it and the row carries no operand. -/
opaque Config.forcedClamp : Nat → Nat → Bool

/-- The current budget in 10 mA to which a group's measured voltage in mV limits it, none for no limit: R167 names the reason
and gives no amount, so it is a free value. -/
opaque Config.voltageBudget : Nat → Nat → Option Nat

end Sys2Proof
end

