-- ==== Sys2Proof/Machine/State.lean ====
section
/-! DEFINITION. The state of the module as plain data: what is kept without power (`Kept`), what lives while the
module is powered or held in retained SRAM (`Live`), and the queue of waiting commands. -/

namespace Sys2Proof.Machine

/-- Byte-addressed memory in canonical form: addresses strictly rising, no entry equal to what an unlisted address
reads as. -/
abbrev Memory := List Host.Cell

/-! ### Module architecture and module time (01_module_architecture.md) -/

/-- What disciplines MT (R27; the values are those of SYS.TIME SOURCE). -/
inductive MtSource where
  | link
  | can
  | free
  | holdover
  deriving DecidableEq, Repr

/-- Module time: the 64-bit count of nanoseconds and its discipline (R27 to R31). -/
structure MtState where
  /-- MT in ns, 64 bits. -/
  now : Nat
  source : MtSource
  /-- The source whose loss led to holdover (R29). -/
  lostFrom : MtSource
  /-- Remaining error, source minus MT, in ns, that is being slewed out (R30). -/
  slewErr : Int
  /-- Rate limit of the present slew in ppm: 200 or 1000 (R30). -/
  slewPpm : Nat
  /-- Part of a nanosecond slewed so far, in millionths. -/
  slewAcc : Nat
  /-- A first lock since the logic reset has set MT (R30). -/
  locked : Bool
  /-- Latest pairing of each island's timestamp counter with MT (R31): (island, counter, MT). -/
  pairing : List (Nat × Nat × Nat)
  deriving DecidableEq, Repr

/-- One direction of one die-to-die link (R16, R17). -/
structure D2dLink where
  /-- Lanes retired, lane 0 first. -/
  retired : List Bool
  /-- Consecutive flits with a CRC error per lane. -/
  badRun : List Nat
  /-- Sequence number of the last write flit applied, none before the first. -/
  lastSeq : Option Nat
  /-- The last write flit's payload applied (what the receiver was told). -/
  lastWord : Nat
  /-- Sequence number of the last write flit acknowledged, applied or repeated. -/
  acked : Option Nat
  deriving DecidableEq, Repr

/-- One crossing between islands on which a transfer has timed out (R19, R20). -/
structure Crossing where
  snd : Nat
  rcv : Nat
  num : Nat
  /-- MT of its recent timeouts, newest first. -/
  timeouts : List Nat
  /-- MT of the timeout of a transfer that is being retried once (R19). -/
  retry : Option Nat
  failed : Bool
  /-- Retests that found it still failed (R510). -/
  badRetests : Nat
  lastTest : Nat
  deriving DecidableEq, Repr

/-- State of the islands' links and crossings. -/
structure ArchState where
  /-- Index 2 * link + direction (link 0 PWR-N, 1 PWR-S, 2 RANGE; direction 0 out of LOGIC). -/
  d2d : List D2dLink
  crossings : List Crossing
  deriving DecidableEq, Repr

def MtState.init : MtState :=
  { now := 0, source := .free, lostFrom := .free, slewErr := 0, slewPpm := 200, slewAcc := 0, locked := false,
    pairing := [] }

def D2dLink.init : D2dLink :=
  { retired := List.replicate 4 false, badRun := List.replicate 4 0, lastSeq := none, lastWord := 0,
    acked := none }

def ArchState.init : ArchState :=
  { d2d := List.replicate 6 D2dLink.init, crossings := [] }

/-! ### Supplies, operating modes and sag control (02_supplies_modes_sag.md) -/

/-- Operating modes, with the codes of PWR.STATUS (R47). -/
inductive Mode where
  | park
  | wakeCheck
  | run
  | drain
  | limp
  deriving DecidableEq, Repr

/-- PWR.CONFIG. -/
structure PwrConfig where
  warnMv : Nat
  sagSlope : Nat
  sagDim : Nat
  sagRamp : Nat
  sagUrgent : Nat
  sagDeferMax : Nat
  groupA : List Nat
  groupDidt : List Nat
  wakeCheckMax : Nat
  drainMax : Nat
  dimSigns : Bool
  deriving DecidableEq, Repr

/-- Sag control (R54 to R59). -/
structure SagState where
  /-- The steps of R54 are in force. -/
  active : Bool
  /-- Undo step reached: 0 none, 1 lighting, 2 writes, 3 core steps, 4 deferred released (R58). -/
  undo : Nat
  cause : Nat
  start : Nat
  minMv : Nat
  /-- MT since which VBAT has stayed above VBAT_WARN + 0.3 V, while qualifying. -/
  qualSince : Option Nat
  /-- The lowest CORE row of R55 that the sag has come to, and the row that the undoing has come to. -/
  row : Nat
  /-- MT of the last rise above VBAT_WARN + 0.3 V. -/
  lastRise : Nat
  /-- MT of the last undo step. -/
  undoAt : Nat
  /-- The lighting dim factor in 1/256 (R57, R58) and the plan frames since the undoing began. -/
  factor : Nat
  undoFrames : Nat
  deriving DecidableEq, Repr

/-- The drain sequence (R51). -/
structure DrainState where
  /-- Step reached: 0 none, 1 to 5. -/
  step : Nat
  /-- MT of entry and of the last step. -/
  entry : Nat
  at_ : Nat
  deriving DecidableEq, Repr

/-- What PWR.PARK armed and what has fired (R49, R50, R52). -/
structure WakeState where
  mask : Nat
  canMask : Nat
  wkMask : Nat
  alarmS : Nat
  /-- The FORCE of the accepted PWR.PARK. -/
  force : Bool
  /-- Sources latched since WAKE-CHECK began (bits of R49) and MT of the first. -/
  latched : Nat
  latchMt : Nat
  /-- The input or channel number of the first source. -/
  latchIdx : Nat
  /-- Their indices of R343. -/
  indices : List Nat
  /-- A source fired at or after drain step 4 (R52). -/
  late : Bool
  /-- A valid cycle has come within 10 ms of entry to WAKE-CHECK (R49). -/
  linkOk : Bool
  /-- MT of entry to PARK and to WAKE-CHECK. -/
  parkAt : Nat
  checkAt : Nat
  /-- Duration of the last stay in PARK in ns. -/
  parkedNs : Nat
  deriving DecidableEq, Repr

/-- Supply control. -/
structure PwrState where
  cfg : PwrConfig
  /-- VBAT_L has risen above 6.0 V and the PARK island runs. -/
  powered : Bool
  mode : Mode
  /-- CORE step: 0 300 MHz, 1 150 MHz, 2 75 MHz, 3 37.5 MHz. -/
  coreStep : Nat
  /-- Last samples: VBAT_N1, N2, S1, S2, VBAT_L in mV. -/
  vbat : List Nat
  /-- VBAT of the samples within the last 100 us, newest first: (MT, mV). -/
  history : List (Nat × Nat)
  railMv : Nat
  vholdMv : Nat
  vledMv : Nat
  /-- Groups present since power-on reset (R37). -/
  present : List Bool
  /-- Groups below VBAT_UV and not yet recovered (R140). -/
  uv : List Bool
  overvolt : Bool
  overMax : Nat
  /-- MT since which VBAT has stayed below 35.0 V while an overvoltage lasts. -/
  overBelow : Option Nat
  v5On : Bool
  v5LimitSince : Option Nat
  v5OffUntil : Nat
  rbgOn : Bool
  chargerOn : Bool
  /-- C_MEAS in whole uF, none while no measurement has completed (R42). -/
  cMeas : Option Nat
  /-- e_avail and e_reserve in whole uJ (R43). -/
  eAvail : Nat
  eReserve : Nat
  /-- VBAT_L is low and the logic runs from VHOLD (R45). -/
  holdup : Bool
  /-- MT since which VBAT_L has been above 6.0 V after a low. -/
  vlGoodSince : Option Nat
  sag : SagState
  drain : DrainState
  wake : WakeState
  deriving DecidableEq, Repr

/-- The defaults of PWR.CONFIG. -/
def PwrConfig.default : PwrConfig :=
  { warnMv := 10500, sagSlope := 5, sagDim := 128, sagRamp := 20, sagUrgent := 1, sagDeferMax := 500,
    groupA := List.replicate 4 45, groupDidt := List.replicate 4 20, wakeCheckMax := 500, drainMax := 2000,
    dimSigns := false }

def SagState.init : SagState :=
  { active := false, undo := 0, cause := 0, start := 0, minMv := 0, qualSince := none, row := 0, lastRise := 0, undoAt := 0,
    factor := 256, undoFrames := 0 }

def PwrState.init : PwrState :=
  { cfg := PwrConfig.default, powered := false, mode := .park, coreStep := 3, vbat := List.replicate 5 0,
    history := [], railMv := 0, vholdMv := 0, vledMv := 0, present := List.replicate 4 false, uv := List.replicate 4 false, overvolt := false,
    overMax := 0, overBelow := none, v5On := false, v5LimitSince := none, v5OffUntil := 0, rbgOn := false,
    chargerOn := false, cMeas := none, eAvail := 0, eReserve := 0, holdup := false, vlGoodSince := none,
    sag := SagState.init, drain := { step := 0, entry := 0, at_ := 0 },
    wake := { mask := 0x80, canMask := 0, wkMask := 0, alarmS := 0, force := false, latched := 0, latchMt := 0,
              latchIdx := 0, indices := [], late := false, linkOk := false, parkAt := 0, checkAt := 0,
              parkedNs := 0 } }

/-! ### Host interface, mailboxes and events (03_host_mailboxes_commands.md) -/

/-- An event record of R32 with its origin byte (R84) and the MT at which it entered its queue. -/
structure EventRec where
  mtLo : Nat
  cause : Nat
  sev : Nat
  id : Nat
  payload : List Byte
  origin : Nat
  entered : Nat
  deriving DecidableEq, Repr

inductive MbPhase where
  | free
  | busy
  | done
  deriving DecidableEq, Repr

/-- How far a BUSY mailbox's command has come (R74, R91). -/
inductive CmdStage where
  /-- Not in a command. -/
  | none
  /-- Waits for the presence button since the doorbell. -/
  | presence
  /-- Has passed checks 1 to 5 and may execute. -/
  | admitted
  /-- Has executed its checks and waits for its effect to complete. -/
  | open_
  /-- Travels to another member. -/
  | relayed
  deriving DecidableEq, Repr

/-- A mailbox: its state, its 512 bytes, the doorbell order and the MT of its doorbell (R72, R77, R80). -/
structure Mailbox where
  st : MbPhase
  stage : CmdStage
  bytes : List Byte
  seq : Nat
  rungAt : Nat
  deriving DecidableEq, Repr

/-- A change held for the next Strike (R89). -/
inductive StagedChange where
  | load (ch duty : Nat) (on : Bool)
  | bridge (br action duty ramp : Nat)
  | light (ch target fade : Nat) (flags : Nat)
  | show_ (page : Nat)
  | fio (ch : Nat) (on : Bool)
  deriving DecidableEq, Repr

structure Staged where
  /-- Doorbell order and MT of completion (R89, R362). -/
  seq : Nat
  since : Nat
  change : StagedChange
  /-- What it draws from the Strike reserve of its group (R172): 0.1 A and 0.1 A/us. -/
  group : Nat
  amount : Nat
  rate : Nat
  /-- The announced Strike applies it: it was staged before the announcement (R361). -/
  struck : Bool
  deriving DecidableEq, Repr

/-- Errors of one cause of EV_SYS_HIF_ERROR (R96). -/
structure HifCause where
  count : Nat
  lastRaised : Option Nat
  addr : Nat
  deriving DecidableEq, Repr

/-- The command that waits for the presence button (R91). -/
structure PresenceWait where
  m : MbRef
  opc : Nat
  since : Nat
  deriving DecidableEq, Repr

structure HostState where
  /-- READY_N and EVENT_N are low. -/
  readyLow : Bool
  eventLow : Bool
  mb : List Mailbox
  lmb : List Mailbox
  /-- Local mailboxes whose command was rung before F1 was restarted: FREE when it ends (R507). -/
  lmbFree : List Nat
  uart : Mailbox
  /-- Next doorbell order number. -/
  ringSeq : Nat
  hifErrs : Nat
  restarted : Bool
  minSev : Nat
  relay : Bool
  holdoff : Nat
  evq : List EventRec
  headSeq : Nat
  drops : Nat
  /-- F1's own event queue, its drops and EVQ_CFG (R93, R499). -/
  f1q : List EventRec
  f1Drops : Nat
  f1MinSev : Nat
  f1Relay : Bool
  svcq : List EventRec
  uartOpen : Bool
  uartLast : Nat
  /-- Frames the service UART has sent, oldest first. -/
  uartOut : List (List Byte)
  /-- What the module drove on the SPI data lanes in the last transaction. -/
  spiOut : List Byte
  /-- Causes 0, 1, 2 of EV_SYS_HIF_ERROR. -/
  errs : List HifCause
  jumper : Bool
  sealOpen : Bool
  sealKohm : Nat
  presence : Option PresenceWait
  staged : List Staged
  deriving DecidableEq, Repr

/-- A FREE mailbox with its 512 bytes clear. -/
def Mailbox.empty : Mailbox :=
  { st := .free, stage := .none, bytes := List.replicate 512 0, seq := 0, rungAt := 0 }

def HostState.init : HostState :=
  { readyLow := false, eventLow := false, mb := List.replicate 8 Mailbox.empty, lmb := List.replicate 8 Mailbox.empty, lmbFree := [],
    uart := Mailbox.empty, ringSeq := 0, hifErrs := 0, restarted := true, minSev := 0, relay := true, holdoff := 0,
    evq := [], headSeq := 0, drops := 0, f1q := [], f1Drops := 0, f1MinSev := 0, f1Relay := false, svcq := [], uartOpen := false, uartLast := 0,
    uartOut := [], spiOut := [], errs := List.replicate 3 { count := 0, lastRaised := none, addr := 0 },
    jumper := false, sealOpen := false, sealKohm := 0, presence := none, staged := [] }

/-! ### Load channels and bridges (04_load_channels_bridges.md, 05_load_protection_orphan.md) -/

/-- LOAD.CONFIG of a channel or group (R99). -/
structure LoadCfg where
  role : Nat
  par : Nat
  prio : Nat
  edgeClass : Nat
  freq : Nat
  latUs : Nat
  /-- In 0.1 A. -/
  ilim : Nat
  olMode : Nat
  olOnMs : Nat
  olFineTh : Nat
  offPeriod : Nat
  retries : Nat
  wireRetry : Bool
  freewheel : Bool
  retryMs : Nat
  cLoad : Nat
  rLoad : Nat
  slew : Nat
  lUh : Nat
  ipk : Nat
  clampRate : Nat
  deriving DecidableEq, Repr

/-- CMD (R132). -/
inductive LoadCmd where
  | off
  | on
  | pwm (duty : Nat)
  deriving DecidableEq, Repr

/-- What the switch of a channel does. -/
inductive Switch where
  | off
  | slew
  | on
  /-- Regulated at ILIM; `ramp` when a CAPACITIVE ramp is paused (R136). -/
  | limit (ramp : Bool)
  | clamp
  deriving DecidableEq, Repr

/-- A load channel as its power die keeps it (R118, R132). -/
structure LoadCh where
  cfg : LoadCfg
  /-- Lowest channel of the group it belongs to, itself when single. -/
  lowest : Nat
  cmd : LoadCmd
  sw : Switch
  tlatch : Bool
  uvhold : Bool
  whold : Bool
  fpend : Bool
  latch : Bool
  latchCause : Nat
  /-- End of RDELAY. -/
  rdelay : Option Nat
  retriesLeft : Nat
  /-- Off for undervoltage: restarts under R141. -/
  uvOff : Bool
  openOn : Bool
  openOff : Bool
  shortBat : Bool
  adopted : Bool
  /-- Shed off by the ledger (R184), dropped as a standing source (R167). -/
  shed : Bool
  dropped : Bool
  /-- Effective duty (R107) in force. -/
  duty : Nat
  /-- On-time of the present PWM period in ns, and the pulse-skipping accumulator (R106). -/
  pulse : Nat
  pulseAcc : Nat
  /-- Measurements (R117): 10 mA, mV, 0.1 °C, 0.1 mA; the current over the whole of the last 1 ms (R178). -/
  i : Int
  iMean : Int
  vout : Nat
  tj : Int
  iFine : Nat
  /-- The cause of the turn-off that a clamp belongs to; none for a commanded, shedding or DRAIN turn-off. -/
  clampCause : Option Nat
  /-- TLATCH has set during the clamp (R134). -/
  clampTl : Bool
  /-- What the configuration at its beginning allows a clamp: energy in uJ, FREEWHEEL (R139, R158). -/
  clampMax : Nat
  clampFree : Bool
  /-- End of the envelope ramp of the turn-on, while cause 0 is still to be raised (R119). -/
  rampEnd : Option Nat
  /-- MT of the last cause 5, of the entry to LIMIT, of the start of the ramp; booked duration of the ramp in ns. -/
  limitRaised : Option Nat
  limitAt : Nat
  slewAt : Nat
  slewNs : Nat
  /-- Fault-free on-time so far in ns, and MT at which the present on-time began (R145). -/
  onAcc : Nat
  onAt : Nat
  /-- MT of the last turn-off, and the outcomes of the two last off-state tests (R116). -/
  offAt : Nat
  tests : List Nat
  /-- MT of the last off-state test of this off time. -/
  testAt : Option Nat
  /-- Clamps of the last 60 s: (MT, energy in uJ); cause 12 raised for their sum (R139). -/
  clamps : List (Nat × Nat)
  clampHot : Bool
  /-- MT since which an imbalance that was raised has been clear; raised (R114). -/
  imbalance : Bool
  imbClear : Option Nat
  /-- T_RS (0.1 °C), I_SAFE (0.1 A) and Q_MARGIN (A2s x 1e-6) last received, and the orphan I2 integral in the same
  unit (R137, R152). -/
  trs : Nat
  iSafe : Nat
  qMargin : Int
  i2 : Int
  deriving DecidableEq, Repr

/-- BRIDGE.CONFIG of a pair (R127). -/
structure BridgeCfg where
  half : Bool
  decay : Nat
  orphan : Nat
  pwmHz : Nat
  deadNs : Nat
  ilimA : Nat
  prio : Nat
  rampMs : Nat
  dirBrakeMax : Nat
  latUs : Nat
  edgeClass : Nat
  brakeHigh : Bool
  deriving DecidableEq, Repr

/-- States of R129. -/
inductive BrState where
  | float | brake | forward | reverse | reversing | level | thermalOff | uvWait | latched
  deriving DecidableEq, Repr

/-- A bridge under its lower leg, or a half-bridge leg. -/
structure Bridge where
  st : BrState
  /-- The last command: ACTION, DUTY, ramp in ms. -/
  action : Nat
  target : Nat
  ramp : Nat
  /-- The duty ramp in force: from a duty at an MT. -/
  fromDuty : Nat
  fromMt : Nat
  rampMs : Nat
  toDuty : Nat
  /-- A direction change (R124): step 1 or 2, MT of its start, the direction left. -/
  dirStep : Nat
  dirAt : Nat
  dirFrom : Nat
  limiting : Bool
  limitRaised : Option Nat
  openLoad : Bool
  adopted : Bool
  /-- MT at which a bridge braked by reinitialisation floats (R158). -/
  floatAt : Option Nat
  i : Int
  vA : Nat
  vB : Nat
  tj : Int
  deriving DecidableEq, Repr

/-- An entry of a die's log in orphan mode (R153). -/
structure DieLog where
  at_ : Nat
  id : Nat
  sev : Nat
  cause : Nat
  payload : List Byte
  deriving DecidableEq, Repr

/-- What each power die keeps for all its outputs (R150 to R156). -/
structure DieState where
  orphan : Bool
  orphanAt : Nat
  lastHb : Nat
  /-- State-change counter, and its value read at adoption step 1. -/
  changes : Nat
  readChanges : Nat
  log : List DieLog
  tries : Nat
  lastTry : Nat
  /-- MT of the last turn-on placed in orphan mode, for its two groups. -/
  turnOns : List Nat
  /-- ORPHAN_OFF_S as the last heartbeat has brought it, and R517 has turned the outputs off (R517, R525). -/
  offS : Nat
  offDone : Bool
  /-- MT of the last data for the ledger, and the ledger counts it stale (R22). -/
  fresh : Nat
  stale : Bool
  /-- The reset cause calls for reinitialisation (R512, R513). -/
  mustReinit : Bool
  /-- By how many ns its frames still differ from MT's after an adoption (R157). -/
  skew : Int
  deriving DecidableEq, Repr

/-- The state of all load channels, bridges and of the two dies. -/
structure LoadState where
  ch : List LoadCh
  brCfg : List BridgeCfg
  br : List Bridge
  /-- Configurations that pairs take once their reinitialisation has floated them. -/
  brNew : List (Option BridgeCfg)
  dies : List DieState
  deriving DecidableEq, Repr

/-- Class default of ILIM in 0.1 A for channel n (R97). -/
def LoadCfg.defaultIlim (n : Nat) : Nat := if n % 24 < 4 then 750 else if n % 24 < 16 then 240 else 75

def LoadCfg.default (n : Nat) : LoadCfg :=
  { role := 0, par := 0, prio := 4, edgeClass := if n % 24 < 16 then 1 else 2, freq := 0, latUs := 200,
    ilim := LoadCfg.defaultIlim n, olMode := 4, olOnMs := 10, olFineTh := 20, offPeriod := 1000, retries := 3,
    wireRetry := false, freewheel := false, retryMs := 100, cLoad := 0, rLoad := 0, slew := 0, lUh := 0, ipk := 0,
    clampRate := 0 }

def LoadCh.init (n : Nat) : LoadCh :=
  { cfg := LoadCfg.default n, lowest := n, cmd := .off, sw := .off, tlatch := false, uvhold := false, whold := false,
    fpend := false, latch := false, latchCause := 0, rdelay := none, retriesLeft := 3, uvOff := false, openOn := false,
    openOff := false, shortBat := false, adopted := false, shed := false, dropped := false, duty := 0, pulse := 0,
    pulseAcc := 0, i := 0, iMean := 0, vout := 0, tj := 0, iFine := 0, clampCause := none, clampTl := false, clampMax := 0,
    clampFree := false, rampEnd := none, limitRaised := none, limitAt := 0,
    slewAt := 0, slewNs := 0, onAcc := 0, onAt := 0, offAt := 0, tests := [], testAt := none, clamps := [], clampHot := false,
    imbalance := false, imbClear := none, trs := 1500, iSafe := 0, qMargin := 0, i2 := 0 }

def BridgeCfg.default : BridgeCfg :=
  { half := false, decay := 0, orphan := 1, pwmHz := 20000, deadNs := 500, ilimA := 30, prio := 4, rampMs := 200,
    dirBrakeMax := 200, latUs := 200, edgeClass := 2, brakeHigh := false }

def Bridge.init : Bridge :=
  { st := .float, action := 0, target := 0, ramp := 0, fromDuty := 0, fromMt := 0, rampMs := 0, toDuty := 0,
    dirStep := 0, dirAt := 0, dirFrom := 0, limiting := false, limitRaised := none, openLoad := false,
    adopted := false, floatAt := none, i := 0, vA := 0, vB := 0, tj := 0 }

def DieState.init : DieState :=
  { orphan := false, orphanAt := 0, lastHb := 0, changes := 0, readChanges := 0, log := [], tries := 0, lastTry := 0,
    turnOns := [0, 0], offS := 0, offDone := false, fresh := 0, stale := false, mustReinit := false, skew := 0 }

def LoadState.init : LoadState :=
  { ch := (List.range 48).map LoadCh.init, brCfg := List.replicate 4 BridgeCfg.default,
    br := List.replicate 8 Bridge.init, brNew := List.replicate 4 none, dies := List.replicate 2 DieState.init }

/-! ### The Planisher (06_planisher_thermal_ledger.md) -/

/-- A change of booked current (R162) of a source in a group, from its start tick, counted from MT 0. -/
structure Envelope where
  edge : Nat
  src : Source
  group : Nat
  start : Nat
  ticks : Nat
  /-- In 0.1 A. -/
  delta : Int
  /-- In 0.1 A/us. -/
  rate : Nat
  deriving DecidableEq, Repr

/-- A standing slot (R165): on for `onNs` from `offset` in every period. -/
structure Standing where
  src : Source
  group : Nat
  prio : Nat
  cls : Nat
  i : Nat
  period : Nat
  offset : Nat
  onNs : Nat
  deriving DecidableEq, Repr

/-- What a sporadic edge does when it executes. -/
inductive EdgeWork where
  | load (ch duty : Nat) (on : Bool)
  /-- A fault restart, an undervoltage restart, a restoration after shedding or a dropped slot, a shedding turn-off. -/
  | restart (ch : Nat)
  | uvRestart (ch : Nat)
  | restore (ch : Nat)
  | shedOff (ch : Nat)
  | bridge (br action duty ramp : Nat)
  | fio (ch : Nat) (on : Bool)
  | fioRestart (ch : Nat)
  | valve (vl : Nat)
  deriving DecidableEq, Repr

inductive EdgePhase where
  /-- On its way to the Planisher, or to be tried again. -/
  | arriving
  | placed
  /-- A delayed turn-on with a reserved tick (R170). -/
  | delayed
  /-- Held by sag deferral or by shedding level 2. -/
  | held
  deriving DecidableEq, Repr

/-- A sporadic edge (R168 to R171).  `arrived` is its arrival at the Planisher in ns of MT, `tick` its placed or
reserved tick. -/
structure Edge where
  id : Nat
  work : EdgeWork
  prio : Nat
  latUs : Nat
  arrived : Nat
  phase : EdgePhase
  /-- The tick it has; while it arrives, the tick since which it waits for a generation swap (R170), 0 for none. -/
  tick : Nat
  bySag : Bool
  byShed : Bool
  /-- MT at which its delay (R171) and its deferral by a sag (R56) began. -/
  heldAt : Option Nat
  deferAt : Option Nat
  /-- The mailbox whose command waits, and the entry in it. -/
  owner : Option (MbRef × Nat)
  deriving DecidableEq, Repr

/-- What the response of a command with entries carries: nothing, the status of every entry, or the masks of FIO.SET
for these channels. -/
inductive EntryForm where
  | none
  | statuses
  | fio (chs : List Nat)
  deriving DecidableEq, Repr

/-- A command with entries that complete one by one (R102). -/
structure OpenCmd where
  m : MbRef
  form : EntryForm
  st : List (Option Nat)
  deriving DecidableEq, Repr

/-- A change of a standing slot that the next generation is to accept (R173), or that waits for its period start. -/
structure SlotChange where
  slot : Standing
  cmd : LoadCmd
  /-- Its period must start on its boundary: offset 0 (R104, R165). -/
  onBoundary : Bool
  since : Nat
  admitted : Bool
  owner : Option (MbRef × Nat)
  /-- The BRIDGE.DRIVE that runs once the slot is admitted: ACTION, DUTY, ramp in ms. -/
  drive : Option (Nat × Nat × Nat)
  deriving DecidableEq, Repr

/-- PLAN.CONFIG (R186). -/
structure PlanConfig where
  seed : Nat
  dither : Nat
  delayMax : Nat
  shareA : List Nat
  shareDidt : List Nat
  deriving DecidableEq, Repr

/-- PLAN.CHANNEL (R187); I_BOOK none until it is set. -/
structure BookCfg where
  iBook : Option Nat
  iInrush : Nat
  tInrush : Nat
  deriving DecidableEq, Repr

structure PlanState where
  cfg : PlanConfig
  loadBook : List BookCfg
  legBook : List BookCfg
  gen : Nat
  /-- The standing slots of the active generation and those of the next one. -/
  stand : List Standing
  want : List Standing
  /-- MT of the oldest change that no generation holds yet. -/
  dirty : Option Nat
  changes : List SlotChange
  dropped : List Standing
  /-- Envelopes placed or running, and the settled bookings: source, group, 0.1 A. -/
  envs : List Envelope
  book : List (Source × Nat × Int)
  edges : List Edge
  nextEdge : Nat
  openCmds : List OpenCmd
  /-- Budgets in force per group: 10 mA and 0.1 A/us; supply control has passed budgets since the logic reset. -/
  budgetA : List Nat
  budgetDidt : List Nat
  received : Bool
  refused : Nat
  /-- PEAK of the last frame per group, 0.1 A, and the dither offsets drawn for the present frame (R166, R188). -/
  peak : List Nat
  offsets : List Nat
  frame : Nat
  /-- Sources whose EV_PLAN_BOOKING_EXCEEDED has been raised since their turn-on (R185). -/
  exceeded : List Source
  deriving DecidableEq, Repr

/-- The seed 0 stands for the default seed of R186. -/
def PlanConfig.default : PlanConfig :=
  { seed := 0, dither := 16, delayMax := 2000, shareA := List.replicate 4 45, shareDidt := List.replicate 4 80 }

def BookCfg.unset : BookCfg := { iBook := none, iInrush := 0, tInrush := 0 }

def PlanState.init : PlanState :=
  { cfg := PlanConfig.default, loadBook := List.replicate 48 BookCfg.unset, legBook := List.replicate 8 BookCfg.unset,
    gen := 0, stand := [], want := [], dirty := none, changes := [], dropped := [], envs := [], book := [],
    edges := [], nextEdge := 0, openCmds := [], budgetA := List.replicate 4 1125,
    budgetDidt := List.replicate 4 50, received := false, refused := 0, peak := List.replicate 4 0, offsets := [],
    frame := 0, exceeded := [] }

/-! ### The thermal ledger (06_planisher_thermal_ledger.md) -/

/-- LEDGER.WIRE (R190). -/
structure WireCfg where
  section_ : Nat
  length : Nat
  tIns : Nat
  margin : Nat
  hyst : Nat
  tAmb : Int
  bundle : Nat
  restC : Nat
  off : Bool
  deriving DecidableEq, Repr

/-- A wire: its model, T_W in 1e-9 °C, whether the warning stands, cold-started. -/
structure Wire where
  cfg : WireCfg
  /-- LEDGER.WIRE has been given; otherwise the default wire of R177 applies. -/
  set : Bool
  tw : Int
  warned : Bool
  cold : Bool
  deriving DecidableEq, Repr

structure LedgerConfig where
  protect : Nat
  dimMin : Nat
  signs : Bool
  offWait : Nat
  deriving DecidableEq, Repr

/-- The record in retained SRAM (R180, R580) with the latches of R149. -/
structure LedgerRecord where
  tw : List Int
  mt : Nat
  level : Nat
  factor : Nat
  shed : List Nat
  latches : List (Bool × Nat)
  trs : List Nat
  deriving DecidableEq, Repr

structure LedgerState where
  cfg : LedgerConfig
  wires : List Wire
  /-- P_MOD in mW of the last 1000 updates, newest first. -/
  pmod : List Nat
  /-- The loss of every channel in the last update in mW, ramps and clamps included (R175). -/
  loss : List Nat
  tLid : Int
  lidHot : Bool
  level : Nat
  factor : Nat
  /-- Channels shed off, newest first. -/
  shed : List Nat
  /-- MT of entry to the level, of the last step in it, since which P_1S has been above PD_MAX, and at or below 0.9
  of it. -/
  levelAt : Nat
  stepAt : Nat
  overSince : Option Nat
  underSince : Option Nat
  stepping : Bool
  /-- The ledger holds the level until P_1S has 1 s of data (R580). -/
  holdUntil : Nat
  saved : Option LedgerRecord
  deriving DecidableEq, Repr

def WireCfg.default (code : Nat) : WireCfg :=
  { section_ := code, length := 20, tIns := 105, margin := 10, hyst := 20, tAmb := 70, bundle := 100, restC := 150,
    off := false }

/-- The default wire's code of a channel of this class (0 heavy, 1 medium, 2 light), single or in a group (R177). -/
def defaultSection (cls par : Nat) : Nat :=
  if par = 0 then (if cls = 0 then 7 else if cls = 1 then 3 else 0)
  else (if cls = 0 then 9 else if cls = 1 then 5 else 3)

def Wire.init (n : Nat) : Wire :=
  { cfg := WireCfg.default (defaultSection (if n % 24 < 4 then 0 else if n % 24 < 16 then 1 else 2) 0), set := false,
    tw := 82500000000, warned := false, cold := true }

def LedgerState.init : LedgerState :=
  { cfg := { protect := 2, dimMin := 64, signs := false, offWait := 1000 }, wires := (List.range 48).map Wire.init,
    pmod := [], loss := List.replicate 48 0, tLid := 250, lidHot := false, level := 0, factor := 256, shed := [], levelAt := 0, stepAt := 0,
    overSince := none, underSince := none, stepping := false, holdUntil := 0, saved := none }

/-! ### Audio alert engine (10_audio_alert.md) -/

/-- AUDIO.ZONE (R294). -/
structure ZoneCfg where
  supervise : Bool
  mute : Bool
  gain : Nat
  chimeMin : Nat
  zTol : Nat
  linkDelay : Nat
  deriving DecidableEq, Repr

/-- One programme (R286): KIND 0 clip, 1 TDM input, 2 link channel. -/
structure Programme where
  id : Nat
  kind : Nat
  src : Nat
  prio : Nat
  loop : Bool
  repeats : Nat
  startMt : Nat
  chime : Bool
  deriving DecidableEq, Repr

/-- The programme that occupies a zone. -/
structure Playing where
  prog : Programme
  started : Bool
  /-- Samples of the present pass played, and passes played out. -/
  pos : Nat
  passes : Nat
  /-- The zone was muted at some moment of it (R288). -/
  void : Bool
  /-- MT at which its fade began, and the cause it ends with. -/
  fade : Option (Nat × Nat)
  deriving DecidableEq, Repr

structure Zone where
  cfg : ZoneCfg
  /-- The gain ramp in progress (R284): 2^30 times the factor at its start, and its MT. -/
  ramp : Option (Nat × Nat)
  playing : Option Playing
  /-- The programme that waits for the end of a fade it caused, then the queue (R286). -/
  next : Option Programme
  queue : List Programme
  /-- T_CHIME (R288). -/
  chimeAt : Option Nat
  /-- V_REF in mV and Z_REF in 0.01 Ohm, once calibrated (R290). -/
  vRef : Option Nat
  zRef : Nat
  /-- Z of the last valid window, 0.01 Ohm. -/
  z : Nat
  /-- Causes 8, 5 and 4: consecutive windows that meet it, that do not, and whether it stands (R291). -/
  meets : List Nat
  misses : List Nat
  stands : List Bool
  /-- The windows of a calibration that runs: |V| in mV, |I| in 0.1 mA. -/
  cal : Option (List (Nat × Nat))
  /-- MT of the last frame in which MUTEn_N was low (R290). -/
  mutedAt : Option Nat
  deriving DecidableEq, Repr

/-- An AUDIO.PLAY that waits for its programmes to start. -/
structure OpenPlay where
  m : MbRef
  id : Nat
  zones : List Nat
  waiting : List Nat
  deriving DecidableEq, Repr

structure AudioState where
  zones : List Zone
  nextId : Nat
  opens : List OpenPlay
  /-- AUDIO.ROUTE: the link channel of each TDM_RX slot. -/
  routes : List (Option Nat)
  /-- Clips that failed the check of R285. -/
  bad : List Nat
  /-- Link channels whose loss has been reported, and those whose routing conflict has. -/
  lost : List Bool
  clash : List Nat
  /-- Link audio that has come and awaits its presentation: channel, MT of capture, sample; and what this module's
  routes have captured for the next link cycle. -/
  linkIn : List (Nat × Nat × Int)
  linkOut : List (Nat × Nat × Int)
  /-- The last samples of TDM_TX. -/
  tx : List Int
  deriving DecidableEq, Repr

def ZoneCfg.default : ZoneCfg :=
  { supervise := false, mute := false, gain := 12, chimeMin := 24, zTol := 25, linkDelay := 1000 }

def Zone.init : Zone :=
  { cfg := ZoneCfg.default, ramp := none, playing := none, next := none, queue := [], chimeAt := none,
    vRef := none, zRef := 0, z := 0, meets := [0, 0, 0], misses := [0, 0, 0], stands := [false, false, false],
    cal := none, mutedAt := none }

def AudioState.init : AudioState :=
  { zones := List.replicate 8 Zone.init, nextId := 0, opens := [], routes := List.replicate 8 none, bad := [],
    lost := List.replicate 8 false, clash := [], linkIn := [], linkOut := [], tx := List.replicate 8 0 }

/-! ### Valves and banks (07_valve_drive.md) -/

/-- VALVE.CONFIG (R215). -/
structure ValveCfg where
  landing : Bool
  peakEndMove : Bool
  prio : Nat
  interlock : Nat
  zone : Nat
  chimeValid : Nat
  ipeak : Nat
  ihold : Nat
  tPeak : Nat
  offMin : Nat
  chopHz : Nat
  chopMode : Nat
  decayChop : Nat
  mixPct : Nat
  decayDrop : Nat
  decayRel : Nat
  spread : Nat
  winStart : Nat
  winEnd : Nat
  dipMin : Nat
  tSettle : Nat
  landLead : Nat
  landInit : Nat
  depthTarget : Nat
  lUh : Nat
  holdMax : Nat
  deriving DecidableEq, Repr

/-- Phases of R197 with UV_WAIT and LATCHED; WAIT is a `fire` that waits. -/
inductive ValvePhase where
  | idle | peak | land | drop | hold | decay | offTime | uvWait | latched
  deriving DecidableEq, Repr

/-- A fire that waits for its edge (R205, R207). -/
structure FireWait where
  owner : Option MbRef
  pulse : Option Nat
  /-- MT of its arrival and the latest MT of its fire edge. -/
  arrived : Nat
  deadline : Nat
  /-- Earliest tick, and the tick it has been placed at. -/
  earliest : Nat
  tick : Option Nat
  /-- The edge under which its envelopes are booked. -/
  edge : Nat
  /-- It re-energises a held event after undervoltage (R213). -/
  refire : Bool
  deriving DecidableEq, Repr

/-- The movement detector of R201 and R202 of one stroke.  Currents in mA, times in 2 us units from the fire edge. -/
structure Detector where
  /-- The present and the ten samples before it, newest first, and the number taken. -/
  hist : List Nat
  count : Nat
  top : Int
  onset : Option Nat
  imax : Nat
  /-- The current has fallen by DIP_MIN; the lowest since, and when. -/
  dipped : Bool
  low : Nat
  lowAt : Nat
  /-- Landing found: T_LAND, and by which method (1 free rise, 2 period mean, 3 regulated). -/
  land : Option Nat
  method : Nat
  depth : Nat
  /-- MT at which landing was confirmed. -/
  confirmedAt : Nat
  /-- Regulated rise rates: the first four, and whether the rate has dropped below 0.7 of their mean. -/
  refs : List Nat
  moving : Bool
  regulated : Bool
  /-- Landing control was entered, and rescued (R203). -/
  landed : Bool
  rescued : Bool
  /-- No landing by MOVE_WIN_END has been reported. -/
  missed : Bool
  deriving DecidableEq, Repr

structure Valve where
  cfg : ValveCfg
  phase : ValvePhase
  fire : Option FireWait
  /-- The event in progress: MT of the fire edge, PULSE_MS of a pulse, end by HOLD_MAX. -/
  fireMt : Nat
  stagger : Nat
  pulse : Option Nat
  /-- The event is held: it was started with ENERGISE and has not been released. -/
  held : Bool
  /-- MT at which the present phase began. -/
  phaseAt : Nat
  /-- The decay in progress is FAST whatever was configured (R198). -/
  fast : Bool
  /-- The decay in progress follows a release, so cause 7 ends it. -/
  released : Bool
  /-- End of OFF_TIME (R207). -/
  offUntil : Nat
  /-- After an ending by protection or a cancelled UV_WAIT the coil current still decays. -/
  decaying : Bool
  forcedSlow : Bool
  det : Detector
  tTravel : Nat
  landDuty : Nat
  learned : Nat
  /-- Last stroke, 2 us units and 10 mA. -/
  lastOnset : Option Nat
  lastLand : Option Nat
  lastDepth : Nat
  adopted : Bool
  i : Int
  tj : Int
  pClamp : Nat
  /-- The generator of R199: frame, its word, and the length of the present chopping period in ns. -/
  chopFrame : Nat
  chopX : Word
  chopNs : Nat
  /-- MT at which the present chopping period began, its on-time in ns, and the low-side switch (R197, R199). -/
  chopAt : Nat
  onNs : Nat
  lowOn : Bool
  /-- A configuration that waits for the end of the event after reinitialisation (R214). -/
  newCfg : Option ValveCfg
  deriving DecidableEq, Repr

inductive BankPhase where
  | off | on | uvWait | thermalWait | latched
  deriving DecidableEq, Repr

structure Bank where
  stagger : Nat
  icont : Nat
  st : BankPhase
  /-- MT at which the last active valve's decay ended. -/
  quietAt : Nat
  exceeded : Bool
  adopted : Bool
  i : Int
  tj : Int
  /-- A configuration that waits for the end of the bank's events after reinitialisation (R158): stagger and ICONT. -/
  newCfg : Option (Nat × Nat)
  deriving DecidableEq, Repr

structure ValveState where
  valves : List Valve
  banks : List Bank
  deriving DecidableEq, Repr

def ValveCfg.default : ValveCfg :=
  { landing := false, peakEndMove := false, prio := 1, interlock := 0, zone := 0, chimeValid := 10, ipeak := 20,
    ihold := 5, tPeak := 100, offMin := 10, chopHz := 20000, chopMode := 0, decayChop := 0, mixPct := 25,
    decayDrop := 1, decayRel := 1, spread := 0, winStart := 5, winEnd := 100, dipMin := 5, tSettle := 5,
    landLead := 300, landInit := 160, depthTarget := 8, lUh := 100, holdMax := 0 }

def Detector.init : Detector :=
  { hist := [], count := 0, top := 0, onset := none, imax := 0, dipped := false, low := 0, lowAt := 0, land := none,
    method := 0, depth := 0, confirmedAt := 0, refs := [], moving := false, regulated := false, landed := false,
    rescued := false, missed := false }

def Valve.init : Valve :=
  { cfg := ValveCfg.default, phase := .idle, fire := none, fireMt := 0, stagger := 0, pulse := none, held := false,
    phaseAt := 0, fast := false, released := false, offUntil := 0, decaying := false, forcedSlow := false,
    det := Detector.init, tTravel := 0, landDuty := 160, learned := 0, lastOnset := none, lastLand := none,
    lastDepth := 0, adopted := false, i := 0, tj := 0, pClamp := 0, chopFrame := 0, chopX := 1,
    chopNs := 50000, chopAt := 0, onNs := 0, lowOn := false, newCfg := none }

def Bank.init : Bank :=
  { stagger := 100, icont := 12, st := .off, quietAt := 0, exceeded := false, adopted := false, i := 0, tj := 0,
    newCfg := none }

def ValveState.init : ValveState :=
  { valves := List.replicate 12 Valve.init, banks := List.replicate 4 Bank.init }

/-! ### Field I/O and wake inputs (09_field_io_wake_inputs.md) -/

/-- FIO.CONFIG (R274). -/
structure FioCfg where
  mode : Nat
  type : Nat
  role : Nat
  invert : Bool
  wireBreak : Bool
  safeOn : Bool
  olOn : Bool
  olOff : Bool
  sample : Nat
  filtN : Nat
  par : Nat
  rS : Nat
  silenceMs : Nat
  prio : Nat
  retries : Nat
  retryMs : Nat
  latUs : Nat
  speedPpk : Nat
  deriving DecidableEq, Repr

inductive FioSwitch where
  | off | on | limit
  deriving DecidableEq, Repr

/-- A field channel: an input with its filter, or an output with its holds. -/
structure FioCh where
  cfg : FioCfg
  lowest : Nat
  /-- The filter of R259: the next sample starts it, its counter, its state before INVERT, and the state last
  reported. -/
  fresh : Bool
  count : Nat
  high : Bool
  reported : Bool
  /-- Consecutive measurements that differ from the wire's present condition (R260). -/
  wbRun : Nat
  broken : Bool
  cmd : Bool
  sw : FioSwitch
  thermal : Bool
  uvhold : Bool
  uvOff : Bool
  fpend : Bool
  rdelay : Option Nat
  latch : Bool
  retriesLeft : Nat
  limitAt : Nat
  limitRaised : Option Nat
  onAcc : Nat
  onAt : Nat
  offAt : Nat
  openOn : Bool
  openOff : Bool
  driven : Bool
  /-- The outcomes of the two last off-state tests, and MT of the last one of this off time. -/
  tests : List Nat
  testAt : Option Nat
  adopted : Bool
  /-- The safe value of R266 has been applied in this orphan time. -/
  safe : Bool
  v : Nat
  i : Int
  tj : Int
  deriving DecidableEq, Repr

/-- FIO.WAKE (R279). -/
structure WakeCfg where
  toBat : Bool
  level : Nat
  parkPoll : Nat
  wet : Nat
  filtN : Nat
  clean : Bool
  deriving DecidableEq, Repr

structure WakeInput where
  cfg : WakeCfg
  /-- What takes the place of the configured values at the next entry to PARK. -/
  inForce : WakeCfg
  /-- Last reading, the filter of R272 and the filtered reading. -/
  closed : Bool
  fresh : Bool
  count : Nat
  filtered : Bool
  armed : Bool
  reference : Bool
  /-- Consecutive polls at the other level while it waits to be armed (R271). -/
  otherRun : Nat
  /-- Polls of a candidacy that read the firing level (R270), 0 for none. -/
  cand : Nat
  /-- MT of its last poll in PARK or WAKE-CHECK. -/
  polledAt : Nat
  drivenRaised : Option Nat
  /-- MT at which the cleaning pulse of 2 ms ends (R267, R272). -/
  cleanUntil : Nat
  /-- The filtered reading that the module last reported (R273). -/
  reported : Bool
  mv : Nat
  deriving DecidableEq, Repr

structure FioState where
  ch : List FioCh
  /-- MT of the SPEED input's rising edges since channel start, newest first (R261). -/
  speedEdges : List Nat
  speed : Nat
  motion : Nat
  wk : List WakeInput
  deriving DecidableEq, Repr

def FioCfg.default : FioCfg :=
  { mode := 0, type := 3, role := 0, invert := false, wireBreak := false, safeOn := false, olOn := false,
    olOff := false, sample := 1, filtN := 20, par := 0, rS := 0, silenceMs := 100, prio := 4, retries := 3,
    retryMs := 1000, latUs := 200, speedPpk := 0 }

def FioCh.init (n : Nat) : FioCh :=
  { cfg := FioCfg.default, lowest := n, fresh := true, count := 0, high := false, reported := false, wbRun := 0,
    broken := false, cmd := false, sw := .off, thermal := false, uvhold := false, uvOff := false, fpend := false,
    rdelay := none, latch := false, retriesLeft := 3, limitAt := 0, limitRaised := none, onAcc := 0, onAt := 0,
    offAt := 0, openOn := false, openOff := false, driven := false, tests := [], testAt := none, adopted := false,
    safe := false, v := 0, i := 0, tj := 0 }

def WakeCfg.default : WakeCfg := { toBat := false, level := 0, parkPoll := 2, wet := 0, filtN := 5, clean := false }

def WakeInput.init : WakeInput :=
  { cfg := WakeCfg.default, inForce := WakeCfg.default, closed := false, fresh := true, count := 0, filtered := false,
    armed := false, reference := false, otherRun := 0, cand := 0, polledAt := 0, drivenRaised := none,
    cleanUntil := 0, reported := false, mv := 0 }

def FioState.init : FioState :=
  { ch := (List.range 32).map FioCh.init, speedEdges := [], speed := 0, motion := 0,
    wk := List.replicate 16 WakeInput.init }

/-! ### LED matrix and fades (08_led_matrix_lighting.md) -/

/-- LED.CONFIG (R248). -/
structure LedCfg where
  rows : Nat
  patina : Bool
  faultScan : Nat
  bright : Nat
  /-- Bit c enables LCOLc; two bits per column give its colour. -/
  colEn : Nat
  colColour : Nat
  colMa : List Nat
  vPre : List Nat
  rowDis : Nat
  iRef : Nat
  gain : List Nat
  measInterval : Nat
  deriving DecidableEq, Repr

/-- One table generation (R231): the gamma tables, none for the default of R230, DCOR_BASE and the correction of every
pixel. -/
structure LedTables where
  gamma : List (Option (List Nat))
  base : List Nat
  corr : List Int
  deriving DecidableEq, Repr

/-- A command with COMMIT that waits for its swap, and what it persists then: opcode, object, bytes. -/
structure LedCommit where
  m : MbRef
  keep : Option (Nat × Nat × List Byte)
  deriving DecidableEq, Repr

/-- A build (R231): the tables, whether only a Patina correction asked for it, the command that waits, MT of completion. -/
structure LedBuild where
  tables : LedTables
  patina : Bool
  owner : Option LedCommit
  doneAt : Option Nat
  deriving DecidableEq, Repr

/-- A show that waits for its scan frame (R241). -/
structure LedShow where
  page : Nat
  at_ : Nat
  struck : Bool
  owner : Option MbRef
  deriving DecidableEq, Repr

/-- A fault held: cause code of R255, pixel, column or row, and the scan frame in which it was found (R235). -/
structure LedFault where
  kind : Nat
  idx : Nat
  found : Nat
  deriving DecidableEq, Repr

/-- Consecutive tests that disagree with what is held (R235). -/
structure LedRun where
  kind : Nat
  idx : Nat
  n : Nat
  deriving DecidableEq, Repr

/-- Patina tracking (R237): per pixel D and D0 in 1/16 mV and the correction. -/
structure Patina where
  dev : List (Option Int)
  base : List Int
  corr : List Int
  /-- Measurement frames since PATINA was first set or RESET. -/
  frames : Nat
  baseSet : Bool
  sweeps : Nat
  lastMt : Nat
  /-- Pixels whose headroom event has been raised. -/
  headroom : List Nat
  deriving DecidableEq, Repr

/-- A fade of a light channel (R244) in plan frames; `waits` until a generation admits its booking. -/
structure Fade where
  ch : Nat
  d0 : Nat
  d1 : Nat
  n : Nat
  /-- The plan frame of k = 1. -/
  frame : Nat
  waits : Bool
  deriving DecidableEq, Repr

structure LedState where
  cfg : LedCfg
  xt : Nat
  yt : Nat
  /-- The 128 pages of 1024 bytes (R239). -/
  pages : Memory
  /-- The shown page, 0xFF for none, and the shows that wait. -/
  page : Nat
  shows : List LedShow
  active : LedTables
  pend : LedTables
  /-- The pending copy differs by edits without COMMIT; a Patina correction waits for a build. -/
  edits : Bool
  patinaWants : Bool
  builds : List LedBuild
  gen : Nat
  patina : Patina
  /-- Cumulative time with a page shown since the last measurement frame, in ns, and MT up to which it is counted. -/
  shownNs : Nat
  shownAt : Nat
  /-- MT from which a measurement frame is due; the present scan frame measures, and nothing has spoilt it. -/
  measDue : Option Nat
  measuring : Option Bool
  faults : List LedFault
  runs : List LedRun
  /-- Rows kept off for a short, with the MT of their last retry. -/
  rowOff : List (Nat × Nat)
  /-- Scan frames begun, the number of the last on MT, the number of the last line slot on MT. -/
  frames : Nat
  frame : Nat
  slot : Nat
  /-- Line slots whose refresh has arrived; consecutive missing and consecutive present refreshes. -/
  refreshed : List Nat
  missing : Nat
  present : Nat
  darkVled : Bool
  /-- VLED is back: the matrix resumes at the next scan frame (R40). -/
  resume : Bool
  darkRefresh : Bool
  /-- The dimming of R229 that this scan frame uses. -/
  dim : Nat
  /-- What the present slot drives: the row and the on-ticks of its columns. -/
  lit : Option (Nat × List Nat)
  /-- Outcomes of the probe in this scan frame: rows probed, rows open, pixels open, pixels shorted. -/
  probed : List Nat
  openRows : List Nat
  openPix : List Nat
  shortPix : List Nat
  /-- Highest row current of this scan frame and of the last in mA, sink dissipation in 10 mW. -/
  rowNow : Nat
  rowI : Nat
  pSink : Nat
  adopted : Bool
  fades : List Fade
  deriving DecidableEq, Repr

def LedCfg.default : LedCfg :=
  { rows := 16, patina := false, faultScan := 1, bright := 256, colEn := 0, colColour := 0,
    colMa := List.replicate 4 10, vPre := List.replicate 4 40, rowDis := 10, iRef := 5, gain := List.replicate 4 8,
    measInterval := 3600 }

def LedTables.default : LedTables :=
  { gamma := List.replicate 4 none, base := List.replicate 1024 224, corr := List.replicate 1024 0 }

def Patina.init : Patina :=
  { dev := List.replicate 1024 none, base := List.replicate 1024 0, corr := List.replicate 1024 0, frames := 0,
    baseSet := false, sweeps := 0, lastMt := 0, headroom := [] }

def LedState.init : LedState :=
  { cfg := LedCfg.default, xt := 0, yt := 0, pages := [], page := 0xFF, shows := [], active := LedTables.default,
    pend := LedTables.default, edits := false, patinaWants := false, builds := [], gen := 0, patina := Patina.init,
    shownNs := 0, shownAt := 0, measDue := none, measuring := none, faults := [], runs := [], rowOff := [],
    frames := 0, frame := 0, slot := 0, refreshed := [], missing := 0, present := 0, darkVled := false, resume := false,
    darkRefresh := false, dim := 256, lit := none, probed := [], openRows := [], openPix := [], shortPix := [], rowNow := 0,
    rowI := 0, pSink := 0, adopted := false, fades := [] }

/-! ### CAN (11_can_fd_controllers.md) -/

/-- CAN.CONFIG (R323). -/
structure CanCfg where
  fd : Bool
  brs : Bool
  tdc : Bool
  pex : Bool
  echoOwn : Bool
  autoRecover : Bool
  nbrp : Nat
  ntseg1 : Nat
  ntseg2 : Nat
  nsjw : Nat
  dbrp : Nat
  dtseg1 : Nat
  dtseg2 : Nat
  dsjw : Nat
  tdco : Nat
  tdcf : Nat
  txOrder : Nat
  retxMax : Nat
  busoffHold : Nat
  stbPol : Nat
  deriving DecidableEq, Repr

/-- Whose frame a transmit buffer holds: a CAN.SEND with its TAG, a reference, a ring message, a peer frame. -/
inductive TxOwner where
  | send (tag : Nat)
  | ref
  | ring
  | peer (id : Nat)
  deriving DecidableEq, Repr

/-- A loaded transmit buffer (R305, R307); `freeing` is the cause that frees it should the attempt under way fail. -/
structure TxBuf where
  owner : TxOwner
  key : Nat
  brs : Bool
  dlc : Nat
  data : List Byte
  deadline : Option Nat
  attempts : Nat
  freeing : Option Nat
  deriving DecidableEq, Repr

/-- Drops or overruns counted since their last record, and its MT. -/
structure Throttled where
  count : Nat
  raised : Option Nat
  deriving DecidableEq, Repr

/-- One controller with its receive ring (R308, R310): the entries from T to H, oldest first. -/
structure CanChan where
  cfg : CanCfg
  mode : Nat
  tx : List (Option TxBuf)
  ring : List (List Byte)
  tail : Nat
  locked : Bool
  /-- The locked entry has been filtered. -/
  filtered : Bool
  /-- The word that the last ring read returned. -/
  readWord : Nat
  seq : Nat
  lost : Nat
  overrun : Nat
  overruns : List Throttled
  fwdDrops : List Throttled
  tec : Nat
  rec_ : Nat
  errState : Nat
  lastErr : Nat
  busoffAt : Nat
  tdcv : Nat
  rxFrames : Nat
  txFrames : Nat
  discarded : Nat
  stuck : Bool
  pexCount : Nat
  /-- In WAKE-CHECK, a frame that validates a CAN wake has come (R313). -/
  wakeOk : Bool
  /-- The buffer chosen for the next arbitration, or under way (R305). -/
  cur : Option Nat
  /-- TRX_STBn is high; CANn_TX is driven by the controller, recessive otherwise (R300). -/
  stb : Bool
  txOn : Bool
  deriving DecidableEq, Repr

/-- The time master's role (R318): channel, REF_MS, REF_ID; RSEQ, SOF of the last reference, load period reached, and that
the last reference loaded has not been acknowledged. -/
structure TimeMaster where
  ch : Nat
  refMs : Nat
  refId : Nat
  rseq : Nat
  prev : Option Nat
  period : Nat
  waits : Bool
  deriving DecidableEq, Repr

/-- The time source's role (R319, R320). -/
structure TimeSource where
  ch : Nat
  refMs : Nat
  refId : Nat
  propNs : Int
  lastSeq : Option Nat
  lastSof : Nat
  lastRef : Nat
  offset : Int
  good : Nat
  deriving DecidableEq, Repr

/-- CAN.SPEED (R330) and the last valid value. -/
structure SpeedSignal where
  ch : Nat
  order : Nat
  start : Nat
  bits : Nat
  scale : Nat
  key : Nat
  timeoutMs : Nat
  value : Option Nat
  at_ : Nat
  deriving DecidableEq, Repr

/-- A filter generation that is being built (R314). -/
structure FilterBuild where
  rules : List (Nat × List Byte)
  owner : MbRef
  persist : List Nat
  deriving DecidableEq, Repr

structure CanState where
  chans : List CanChan
  /-- The rules that are not empty: index and 16 bytes, of the active generation and of the pending copy. -/
  active : List (Nat × List Byte)
  pend : List (Nat × List Byte)
  builds : List FilterBuild
  gen : Nat
  /-- SOF of the last forward of a rule with MIN_GAP_MS. -/
  lastFwd : List (Nat × Nat)
  hostQ : List (List Byte)
  f1Q : List (List Byte)
  hostDropped : Nat
  f1Dropped : Nat
  /-- Entries on their way over the link: position and entry. -/
  linkOut : List (Nat × List Byte)
  master : Option TimeMaster
  source : Option TimeSource
  speed : Option SpeedSignal
  deriving DecidableEq, Repr

def CanCfg.default : CanCfg :=
  { fd := true, brs := true, tdc := true, pex := false, echoOwn := false, autoRecover := true, nbrp := 1, ntseg1 := 127,
    ntseg2 := 32, nsjw := 32, dbrp := 1, dtseg1 := 31, dtseg2 := 8, dsjw := 8, tdco := 32, tdcf := 0, txOrder := 0,
    retxMax := 8, busoffHold := 100, stbPol := 0 }

def CanChan.init : CanChan :=
  { cfg := CanCfg.default, mode := 0, tx := [none, none, none], ring := [], tail := 0, locked := false, filtered := false,
    readWord := 0, seq := 0, lost := 0, overrun := 0, overruns := List.replicate 2 { count := 0, raised := none },
    fwdDrops := List.replicate 3 { count := 0, raised := none }, tec := 0, rec_ := 0, errState := 0, lastErr := 0,
    busoffAt := 0, tdcv := 0, rxFrames := 0, txFrames := 0, discarded := 0, stuck := false, pexCount := 0,
    wakeOk := false, cur := none, stb := true, txOn := false }

def CanState.init : CanState :=
  { chans := List.replicate 4 CanChan.init, active := [], pend := [], builds := [], gen := 0, lastFwd := [], hostQ := [],
    f1Q := [], hostDropped := 0, f1Dropped := 0, linkOut := [], master := none, source := none, speed := none }

/-! ### Network sleep (12_network_sleep_wake.md) -/

/-- NM.CONFIG (R345). -/
structure NmCfg where
  ch : Nat
  node : Nat
  throttleN : Nat
  base : Nat
  ringMs : Nat
  ringMax : Nat
  commitMs : Nat
  keeperS : Nat
  /-- PARK_CFG: WAKE_MASK, CAN_MASK, WK_MASK, ALARM_S. -/
  wakeMask : Nat
  canMask : Nat
  wkMask : Nat
  alarmS : Nat
  deriving DecidableEq, Repr

/-- States of R338 with their codes. -/
inductive NmPhase where
  | off | awake | ready | indicating | commit | silent
  deriving DecidableEq, Repr

/-- An entry of the keeper log (R342). -/
structure Keeper where
  node : Nat
  reason : Nat
  start : Nat
  /-- Duration in s once it is closed. -/
  closed : Option Nat
  /-- Time in ns spent in PARK since the start, which does not count. -/
  away : Nat
  deriving DecidableEq, Repr

/-- A node of the present set: its last RING's CONSENT and REASON, and the MT of its first RING without consent. -/
structure NmNode where
  id : Nat
  consent : Bool
  reason : Nat
  since : Option Nat
  /-- The PARK time, in ns, by which `since` has been moved (R342). -/
  away : Nat
  deriving DecidableEq, Repr

/-- A ring message that is not a node's regular RING: an ALIVE, a WAKE with its WAKE_SRC, the SLEEP_ACK. -/
inductive NmMsg where
  | alive
  | wake (src : Nat)
  | ack
  deriving DecidableEq, Repr

structure NmState where
  cfg : NmCfg
  st : NmPhase
  /-- Own consent and reason last set by NM.REQUEST; 0xF1 until then. -/
  consent : Bool
  reason : Nat
  duplicate : Bool
  round : Nat
  nodes : List NmNode
  /-- A RING to send: MT at which it is due. -/
  sendAt : Option Nat
  /-- The DEST of the own RING that has not been answered, and MT of its sending. -/
  waitFor : Option Nat
  sentAt : Nat
  lastRing : Nat
  /-- The module takes part as round master: SLEEP_IND in force for the round, a consent missing, the round void. -/
  ind : Bool
  refused : Bool
  voided : Bool
  /-- Own SLEEP_IND was sent in this round; the own last RING carried CONSENT. -/
  indSent : Bool
  ownSent : Bool
  /-- Messages that wait for TXB0, oldest first. -/
  out : List NmMsg
  /-- The last DEST seen of each sender, for skips (R334). -/
  dests : List (Nat × Nat)
  commitAt : Nat
  lateWakes : Nat
  agreements : Nat
  keepers : List Keeper
  /-- FW_TOTAL, FW_PARK and doublings of the 23 sources (R343, R344). -/
  fwTotal : List Nat
  fwPark : List Nat
  doublings : List Nat
  /-- The sleep commit of R339 led to this drain; a PWR.PARK in COMMIT has replaced PARK_CFG. -/
  byRing : Bool
  /-- The commit window has ended. -/
  windowOver : Bool
  /-- MT of the commit and of a late firing, and its source bit (R340). -/
  committed : Nat
  lateAt : Nat
  lateSrc : Nat
  deriving DecidableEq, Repr

def NmCfg.default : NmCfg :=
  { ch := 0xFF, node := 0, throttleN := 0, base := 0x500, ringMs := 100, ringMax := 250, commitMs := 1000, keeperS := 300,
    wakeMask := 0x82, canMask := 0, wkMask := 0, alarmS := 0 }

def NmState.init : NmState :=
  { cfg := NmCfg.default, st := .off, consent := false, reason := 0xF1, duplicate := false, round := 0, nodes := [],
    sendAt := none, waitFor := none, sentAt := 0, lastRing := 0, ind := false, refused := false, voided := false,
    indSent := false, ownSent := false, out := [], dests := [], commitAt := 0, lateWakes := 0, agreements := 0, keepers := [],
    fwTotal := List.replicate 23 0, fwPark := List.replicate 23 0, doublings := List.replicate 23 0, byRing := false, windowOver := false,
    committed := 0, lateAt := 0, lateSrc := 0 }

/-! ### The Bamsavin cascade link (13_bamsavin_cascade_link.md) -/

/-- A member of the roster (R353, R379). -/
structure RosterEntry where
  pos : Nat
  serial : Nat
  role : Nat
  hopNs : Nat
  alive : Bool
  auth : Bool
  deriving DecidableEq, Repr

/-- A message that has left this module and waits for its acknowledgement or response (R364). -/
structure OutMsg where
  mseq : Nat
  dst : Nat
  /-- The mailbox whose command travels, and whether for a broadcast. -/
  owner : MbRef
  frame : List Byte
  sentCycle : Nat
  resends : Nat
  acked : Bool
  deriving DecidableEq, Repr

/-- A command relayed in from another position, under a job number (R364). -/
structure RelayJob where
  id : Nat
  src : Nat
  mseq : Nat
  box : Mailbox
  /-- The stored response, once the command has completed, and whether it has been given to the link. -/
  reply : Option (List Byte)
  sent : Bool
  deriving DecidableEq, Repr

/-- A broadcast whose answers are being gathered (R88): position and status of each answer. -/
structure Gather where
  owner : MbRef
  waiting : List Nat
  got : List (Nat × Nat)
  deriving DecidableEq, Repr

/-- LINK.CONFIG (R376). -/
structure LinkCfg where
  auth : Bool
  strikeOut : Bool
  keySlot : Nat
  lead : Nat
  stageMax : Nat
  deriving DecidableEq, Repr

/-- STATE of LINK.STATUS (R377). -/
inductive LinkPhase where
  | alone | forming | member | master | guest
  deriving DecidableEq, Repr

/-- A link port: lock, wrapped, sending BREAK cycles, not transmitting, quiet because the neighbour has parked; cell errors
since their last record and its MT. -/
structure LinkPort where
  lock : Bool
  wrapped : Bool
  brk : Bool
  quiet : Bool
  parked : Bool
  errs : Nat
  errsRaised : Option Nat
  deriving DecidableEq, Repr

/-- An announced Strike: its target cycle and STRIKE_SEQ (R360). -/
structure StrikeAnn where
  target : Nat
  seq : Nat
  deriving DecidableEq, Repr

/-- A Strike that has been requested of the acting master: the target and the command that waits. -/
structure StrikeReq where
  target : Nat
  owner : MbRef
  deriving DecidableEq, Repr

/-- Fragments of a message that have come so far. -/
structure LinkFrag where
  type : Nat
  src : Nat
  dst : Nat
  mseq : Nat
  next : Nat
  bytes : List Byte
  deriving DecidableEq, Repr

structure LinkState where
  cfg : LinkCfg
  /-- The strap: 0 MEMBER, 1 MASTER, 2 ALT. -/
  strap : Nat
  st : LinkPhase
  position : Nat
  cascaded : Bool
  master : Nat
  roster : List RosterEntry
  ports : List LinkPort
  /-- Measured delay in ns of the hop on the LKA input and of that on the LKB input (R359). -/
  hopNs : Nat
  hopBNs : Nat
  /-- MT of the last master sync and the last cycle originated. -/
  lastSync : Nat
  cycle : Nat
  /-- MT of entry to RUN (R352). -/
  runAt : Nat
  /-- LINK.REFORM asked for this formation. -/
  reform : Bool
  strike : Option StrikeAnn
  /-- Target of the Strike announced last; its announcement goes out up to that cycle. -/
  strikeT : Nat
  strikeReq : Option StrikeReq
  /-- The last STRIKE_SEQ announced or seen, and the last applied. -/
  strikeSeq : Nat
  struckSeq : Nat
  /-- MT at which the STRIKE land fell, while it is low. -/
  strikeLow : Option Nat
  /-- The events that wait for EVT cells (R367). -/
  evtQueue : List EventRec
  evtDropped : Nat
  evtTotal : Nat
  evtDropRaised : Option Nat
  cellErrors : Nat
  nextMseq : Nat
  nextJob : Nat
  out : List OutMsg
  jobs : List RelayJob
  gathers : List Gather
  /-- Cells that wait to be sent in DOWN or UP, and in BULK. -/
  cells : List (List Byte)
  bulk : List (List Byte)
  ledCells : List (List Byte)
  frags : List LinkFrag
  inbox : List LinkMsg
  /-- AUDIO, EVT and BULK slots that the master carries over: byte offset in the cycle, bytes. -/
  carry : List (Nat × List Byte)
  /-- The last cycle sent on LKB_TX, the primary path, and the last on LKA_TX, the secondary path, which carries idle cycles
  while the ring is whole (R351, R368). -/
  tx : List Byte
  txA : List Byte
  /-- The other acting master whose conflict has been reported (R355). -/
  rival : Option Nat
  /-- Members reported silent. -/
  silent : List Nat
  /-- Authentication: asked for by the ring's master, passed, MT of the next try, session keys by position. -/
  ringAuth : Bool
  authOk : Bool
  authNext : Nat
  sessions : List (Nat × List Byte)
  /-- MT until which cycles go out on quiet ports, and BREAK_PARK on both. -/
  wakeTx : Option Nat
  parkTx : Option Nat
  deriving DecidableEq, Repr

def LinkCfg.default : LinkCfg := { auth := false, strikeOut := false, keySlot := 0, lead := 16, stageMax := 60 }

def LinkPort.init : LinkPort :=
  { lock := false, wrapped := false, brk := false, quiet := false, parked := false, errs := 0, errsRaised := none }

def LinkState.init : LinkState :=
  { cfg := LinkCfg.default, strap := 0, st := .alone, position := 0, cascaded := false, master := 0, roster := [],
    ports := List.replicate 2 LinkPort.init, hopNs := 0, hopBNs := 0, lastSync := 0, cycle := 0, runAt := 0, reform := false, strike := none, strikeT := 0,
    strikeReq := none, strikeSeq := 0, struckSeq := 0, strikeLow := none, evtQueue := [], evtDropped := 0, evtTotal := 0,
    evtDropRaised := none, cellErrors := 0, nextMseq := 0, nextJob := 0, out := [], jobs := [], gathers := [], cells := [],
    bulk := [], ledCells := [], frags := [], inbox := [], carry := [], tx := [], txA := [], rival := none, silent := [], ringAuth := false, authOk := false, authNext := 0,
    sessions := [], wakeTx := none, parkTx := none }
/-! ### Crew tokens (14_token_access.md) -/

/-- TOKEN.CONFIG (R398). -/
structure TokenCfg where
  refuseStationary : Bool
  antEn : Nat
  parkAnt : Nat
  channels : Nat
  keySlot : Nat
  roundMax : Nat
  gapMs : Nat
  fleetTag : Nat
  searchMs : Nat
  parkMs : Nat
  offset : Nat
  trackMs : Nat
  consist : Nat
  deriving DecidableEq, Repr

/-- An enrolled token (R395, R402). -/
structure TokenRec where
  id : Nat
  rights : List Nat
  stationary : Bool
  enrolMt : Nat
  battLow : Bool
  lastCm : Option Nat
  deriving DecidableEq, Repr

/-- What an attempt knows of one token: VALID in the round before with this D_BOUND in cm, why a pair gave no grant, its
last D_BOUND, granted in this attempt. -/
structure TokenSeen where
  rec_ : Nat
  prev : Option Nat
  deny : Nat
  last : Nat
  granted : Bool
  deriving DecidableEq, Repr

/-- An enrolment in progress: the command, its TOKEN_ID and rights. -/
structure EnrolJob where
  owner : MbRef
  id : Nat
  rights : List Nat
  deriving DecidableEq, Repr

/-- An attempt on an antenna (R389, R390): rounds run, ROUND of the next, contended count, last contended slot. -/
structure TokenAttempt where
  rounds : Nat
  contended : Nat
  lastSlot : Nat
  nextAt : Nat
  seen : List TokenSeen
  enrol : Option EnrolJob
  deriving DecidableEq, Repr

/-- A grant that holds (R394): the record, its zone, consecutive rounds missed. -/
structure TokenGrant where
  rec_ : Nat
  zone : Nat
  misses : Nat
  deriving DecidableEq, Repr

/-- A slot that the key store has not verified: slot, record, D_BOUND and SPREAD in cm, end of its round. -/
structure TokenWait where
  slot : Nat
  rec_ : Nat
  cm : Nat
  spread : Nat
  since : Nat
  deriving DecidableEq, Repr

structure TokenAnt where
  /-- ANT_DELAY in 10 ps, and NEAR_CM and FAR_CM of the zones (R399). -/
  delay : Nat
  zones : List (Nat × Nat)
  /-- TOKEN.RANGE has asked for a search; MT of the last search. -/
  asked : Bool
  searched : Nat
  faulted : Bool
  badRun : Nat
  goodRun : Nat
  attempt : Option TokenAttempt
  grants : List TokenGrant
  trackAt : Nat
  waits : List TokenWait
  attempts : Nat
  deriving DecidableEq, Repr

structure TokenState where
  cfg : TokenCfg
  recs : List (Option TokenRec)
  ants : List TokenAnt
  /-- A token has been VALID in a round of this WAKE-CHECK (R396). -/
  wakeOk : Bool
  /-- CHALLENGE, slot map and challenge frame of the last round (R385). -/
  challenge : List Byte
  slotMap : List Nat
  frame : List Byte
  deriving DecidableEq, Repr

def TokenCfg.default : TokenCfg :=
  { refuseStationary := false, antEn := 0, parkAnt := 0, channels := 3, keySlot := 0, roundMax := 6, gapMs := 20,
    fleetTag := 0, searchMs := 1000, parkMs := 1000, offset := 0, trackMs := 500, consist := 30 }

def TokenAnt.init : TokenAnt :=
  { delay := 0, zones := List.replicate 8 (0, 0), asked := false, searched := 0, faulted := false, badRun := 0, goodRun := 0,
    attempt := none, grants := [], trackAt := 0, waits := [], attempts := 0 }

def TokenState.init : TokenState :=
  { cfg := TokenCfg.default, recs := List.replicate 32 none, ants := List.replicate 2 TokenAnt.init, wakeOk := false,
    challenge := [], slotMap := [], frame := [] }
/-! ### The application core F1 (18_dvorgil_instruction_set.md) -/

/-- FLAGS (R479). -/
structure Flags where
  p : Bool
  v : Bool
  n : Bool
  z : Bool
  c : Bool
  deriving DecidableEq, Repr

/-- What F1 is doing (R478, R498, R507). -/
inductive F1Run where
  /-- No application image, or not yet started. -/
  | halted
  | running
  | stopped
  deriving DecidableEq, Repr

/-- A timer (R499, R501). -/
structure F1Timer where
  cmp : Nat
  period : Nat
  missed : Nat
  periodic : Bool
  en : Bool
  deriving DecidableEq, Repr

/-- A CRC slot (R499, R500). -/
structure CrcSlot where
  poly : Nat
  reflect : Bool
  /-- 0 for 8, 1 for 16, 2 for 32 bits. -/
  width : Nat
  deriving DecidableEq, Repr

/-- The application core, its return stack, its ports and its data memory. -/
structure F1State where
  run : F1Run
  /-- WFI waits. -/
  waiting : Bool
  /-- K0 to K15. -/
  k : List Word
  pc : Nat
  /-- The words of the return stack from RSP upwards, each with its tag, true for FRAME (R493).  RSP is
  0x1_0000 less four times their number. -/
  rs : List (Word × Bool)
  flags : Flags
  ie : Bool
  rpl : Nat
  /-- The reservation's granule and the CYCLES at which LOCK LD placed it (R490). -/
  reservation : Option (Nat × Nat)
  /-- CORE cycles since F1 start, and the twentieths of a cycle beyond them. -/
  cycles : Nat
  cyclePart : Nat
  vbar : Nat
  excInfo : Nat
  excAddr : Nat
  dsLo : Nat
  dsHi : Nat
  rsLim : Nat
  mtSnapHi : Nat
  /-- Pending edge lines 9 to 14 (R502). -/
  edgePend : Nat
  irqEn : Nat
  irqPrio : List Nat
  timers : List F1Timer
  crc : List CrcSlot
  /-- The record held for EVQ_REC0 to EVQ_REC3. -/
  evHold : List Byte
  /-- Data space: own memory, shared region, retained application part (R24); unlisted bytes read as zero. -/
  dmem : Memory
  deriving DecidableEq, Repr

def Flags.clear : Flags := { p := false, v := false, n := false, z := false, c := false }

def F1State.init : F1State :=
  { run := .halted, waiting := false, k := List.replicate 16 0, pc := 0, rs := [], flags := Flags.clear, ie := false,
    rpl := 4, reservation := none, cycles := 0, cyclePart := 0, vbar := 0, excInfo := 0, excAddr := 0, dsLo := 0,
    dsHi := 0x00100000, rsLim := 0x100, mtSnapHi := 0, edgePend := 0, irqEn := 0,
    irqPrio := List.replicate 4 0xFFFF,
    timers := List.replicate 4 { cmp := 0, period := 1000, missed := 0, periodic := false, en := false },
    crc := [{ poly := 0x04C11DB7, reflect := true, width := 2 }, { poly := 0x1021, reflect := false, width := 1 },
            { poly := 0x07, reflect := false, width := 0 }, { poly := 0x1EDC6F41, reflect := true, width := 2 }],
    evHold := List.replicate 16 0xFF, dmem := [] }

/-! ### Key store and life cycle (15_key_store_lifecycle.md) -/

/-- A root of R406: whether it exists, whether its integrity tag is good (R412), and its 32 bytes.  The FOUNDRY ROOT's
bytes are Config.foundryRoot and are not held here. -/
structure Root where
  present : Bool
  tagOk : Bool
  material : List Byte
  deriving DecidableEq, Repr

/-- A key slot (R413). -/
structure KeySlot where
  loaded : Bool
  type : Nat
  attr : Nat
  domain : Nat
  /-- The flags byte: HALLMARK_REQ 8, DERIVED 4, IMPORTED 2, EXPORTABLE 1. -/
  flags : Nat
  material : List Byte
  uses : Nat
  tagOk : Bool
  deriving DecidableEq, Repr

/-- The transition journal (R410): the states it leads from and to, and the step reached. -/
structure TransitionJournal where
  old : Nat
  target : Nat
  step : Nat
  deriving DecidableEq, Repr

/-- The secure cells (R412). -/
structure SecureCells where
  lcs : Nat
  foundry : Root
  owner : Root
  service : Root
  /-- The device image key and the family image key exist. -/
  imageKeys : Bool
  slots : List KeySlot
  journal : Option TransitionJournal
  /-- MT of the 32 most recent seal openings, oldest first, and the count of all. -/
  sealLog : List Nat
  sealCount : Nat
  /-- Openings of test modes recorded in the seal log (R523): MT. -/
  testLog : List Nat
  deriving DecidableEq, Repr

/-- A challenge of KEY.CHALLENGE (R420). -/
structure Challenge where
  handle : Nat
  value : List Byte
  issued : Nat
  deriving DecidableEq, Repr

/-- An open KEY.HASH session of a source and the bytes fed so far (R424). -/
structure HashSession where
  /-- 0 host, 1 F1, 2 UART. -/
  source : Nat
  fed : List Byte
  deriving DecidableEq, Repr

/-- KEY.PEER (R421). -/
structure PeerConfig where
  ch : Nat
  ownId : Nat
  slot : Nat
  base : Nat
  tmo : Nat
  deriving DecidableEq, Repr

/-- A peer exchange in progress (R421): 1 challenge sent as A, 2 response sent as B. -/
structure PeerExchange where
  peer : Nat
  initiator : Bool
  ca : List Byte
  cb : List Byte
  lastStep : Nat
  deriving DecidableEq, Repr

/-- A transition that runs for a command (R410). -/
structure KeyState where
  tnonce : List Byte
  challenges : List Challenge
  nextHandle : Nat
  hashes : List HashSession
  drbgKey : List Byte
  drbgV : List Byte
  drbgRunning : Bool
  /-- Requests since the last seeding, MT of it, samples tested since logic start. -/
  drbgRequests : Nat
  drbgSeeded : Nat
  samples : Nat
  /-- Bytes of entropy drawn so far: the model's own counter over Config.entropy. -/
  entropyUsed : Nat
  peer : Option PeerConfig
  exchanges : List PeerExchange
  authenticated : List Nat
  deriving DecidableEq, Repr

def Root.absent : Root := { present := false, tagOk := true, material := [] }

def KeySlot.empty : KeySlot :=
  { loaded := false, type := 0, attr := 0, domain := 0, flags := 0, material := [], uses := 0, tagOk := true }

/-- As shipped: FACTORY, FOUNDRY ROOT live, no owner material (R405). -/
def SecureCells.init : SecureCells :=
  { lcs := 0, foundry := { present := true, tagOk := true, material := [] }, owner := Root.absent,
    service := Root.absent, imageKeys := true, slots := List.replicate 64 KeySlot.empty, journal := none,
    sealLog := [], sealCount := 0, testLog := [] }

def KeyState.init : KeyState :=
  { tnonce := List.replicate 16 0, challenges := [], nextHandle := 0, hashes := [], drbgKey := List.replicate 32 0,
    drbgV := List.replicate 16 0, drbgRunning := false, drbgRequests := 0, drbgSeeded := 0, samples := 0,
    entropyUsed := 0, peer := none, exchanges := [], authenticated := [] }

/-! ### Parameter store controller (16_parameter_store.md); the cells themselves are in `Kept.store` -/

/-- One write unit of R430. -/
inductive UnitKind where
  /-- A record write of two pages (R434): number, TYPE, FMT, CONFIG, payload. -/
  | record (recno type fmt : Nat) (config : Bool) (payload : List Byte)
  /-- A persisted configuration: the command's opcode, the object it is of, and its request fields. -/
  | config (opc obj : Nat) (payload : List Byte)
  | delete (recno : Nat)
  /-- Counter operations (R438); each writes one cell. -/
  | add (cnt d : Nat)
  | clear (cnt : Nat)
  | cell (idx : Nat) (bytes : List Byte)
  /-- Ends a DEFINE or REMOVE: the definition itself (record of counter definitions, R429). -/
  | define (cnt first n : Nat)
  | remove (cnt : Nat)
  | shadow
  /-- Copies the winning copy over the other one (R435); `toA` names the copy written. -/
  | repair (recno : Nat) (toA : Bool)
  /-- Zeroes one 256-byte page at this offset (PARAM.ERASE). -/
  | zero (off : Nat)
  /-- Copies a record's winning copy into a free kept-copy slot and lists it in the ledger (R443). -/
  | keep (recno : Nat)
  /-- Ends a PARAM.ERASE of this SCOPE. -/
  | erased (scope : Nat)
  /-- Ends an Assay that passed: Assay state, epoch of the kind, kept copies, STAGING (R468). -/
  | assayed (kind epoch : Nat)
  deriving DecidableEq, Repr

structure WriteUnit where
  kind : UnitKind
  /-- The command that waits for it, and its response payload. -/
  owner : Option MbRef
  resp : List Byte
  /-- The command completes when this unit is durable. -/
  last : Bool
  /-- Starts whatever the supply does: a save at drain step 4 or at VBAT_L loss (R45, R51). -/
  force : Bool
  since : Nat
  deriving DecidableEq, Repr

structure ParamState where
  /-- Units waiting for admission, oldest first, and the admitted one (R430, R431). -/
  queue : List WriteUnit
  active : Option WriteUnit
  /-- Commands joined to a running shadow save (R441). -/
  joined : List MbRef
  deferrals : Nat
  deferCount : Nat
  deferRaised : Option Nat
  writes : Nat
  repairs : Nat
  /-- MT of the last EV_PARAM_CONFLICT of a record (R436). -/
  conflictRaised : List (Nat × Nat)
  /-- SHADOW_APP in bytes (R440). -/
  shadowApp : Nat
  lastLoad : Nat
  lastSave : Nat
  lastSaveMt : Nat
  deriving DecidableEq, Repr

/-- The definition of a spread counter: number, first cell, number of cells (R437). -/
structure CounterDef where
  cnt : Nat
  first : Nat
  n : Nat
  deriving DecidableEq, Repr

def ParamState.init : ParamState :=
  { queue := [], active := none, joined := [], deferrals := 0, deferCount := 0, deferRaised := none, writes := 0,
    repairs := 0, conflictRaised := [], shadowApp := 0, lastLoad := 0, lastSave := 0, lastSaveMt := 0 }

/-! ### Firmware update (17_update_boot.md) -/

/-- UPD.CONFIG (R474); OWNER_SLOT none for 0xFF. -/
structure UpdCfg where
  vmin : Nat
  ownerLock : Bool
  noMotion : Bool
  ownerSlot : Option Nat
  deriving DecidableEq, Repr

/-- The block that is being gathered (R457): its segments by offset. -/
structure UpdBuf where
  off : Nat
  len : Nat
  crc : Nat
  segs : List (Nat × List Byte)
  deriving DecidableEq, Repr

/-- An open transfer (R456): written blocks as offset, length and CRC; erased sectors; MT of the last accepted segment. -/
structure UpdSession where
  kind : Nat
  total : Nat
  crc : Nat
  written : List (Nat × Nat × Nat)
  erased : List Nat
  buf : Option UpdBuf
  lastBlock : Nat
  deriving DecidableEq, Repr

/-- The gate record in retained SRAM (R461). -/
structure GateRecord where
  moving : Bool
  lock : Bool
  mt : Nat
  deriving DecidableEq, Repr

structure UpdState where
  cfg : UpdCfg
  session : Option UpdSession
  gate : Option GateRecord
  /-- UPD.END with RESTART: MT of it and of the last check. -/
  restart : Option (Nat × Nat)
  /-- LAST of UPD.STATUS. -/
  last : Nat
  rejects : Nat
  rejectRaised : Option Nat
  /-- Time in RUN of the image pending Assay beyond the last counted step, in ns, and MT up to which it is counted. -/
  runPart : Nat
  runAt : Nat
  /-- The run-time window has expired and been reported. -/
  expired : Bool
  /-- F1 is left halted by COMPAT_FW_MIN (R470), and the VERSION that failed (R477). -/
  appHalted : Bool
  failed : Nat
  /-- The image key in the inline decryption engine, none while it is cleared (R454). -/
  engineKey : Option (List Byte)
  deriving DecidableEq, Repr

def UpdCfg.default : UpdCfg := { vmin := 22000, ownerLock := false, noMotion := false, ownerSlot := none }

def UpdState.init : UpdState :=
  { cfg := UpdCfg.default, session := none, gate := none, restart := none, last := 0xFF, rejects := 0, rejectRaised := none,
    runPart := 0, runAt := 0, expired := false, appHalted := false, failed := 0, engineKey := none }
/-! ### Supervision, resets (19_supervision_resets_guarantees.md) and identity (22_identity_ordering_life.md) -/

/-- SYS.SUPERVISE (R525). -/
structure SupConfig where
  adopt : Nat
  f1HbMs : Nat
  f1Restarts : Nat
  orphanOffS : Nat
  deriving DecidableEq, Repr

/-- Where a logic restart stands. -/
inductive StartPhase where
  /-- The logic is unpowered or held in reset. -/
  | off
  /-- The logic reset line has been asserted; the boot ROM has not decided. -/
  | reset
  /-- The boot ROM installs or falls back, by journaled steps (R464, R467). -/
  | boot
  /-- Foundry firmware runs, the dies are to be adopted (R155). -/
  | firmware
  /-- The command layer runs. -/
  | running
  /-- The boot ROM test monitor of PRIV.TESTMODE. -/
  | monitor
  /-- RECOVERY (R463), and the stop of a retired part (R411). -/
  | recovery
  | retired
  deriving DecidableEq, Repr

/-- What SYS.RESET has ordered (R524). -/
structure OrderedReset where
  cause : Nat
  mode : Nat
  at_ : Nat
  deriving DecidableEq, Repr

structure SupState where
  cfg : SupConfig
  phase : StartPhase
  cause : Nat
  subcause : Nat
  /-- MODE of the SYS.RESET that caused the present restart: 0 by ADOPT, 1 adopt, 2 reinitialise. -/
  resetMode : Nat
  resetMt : Nat
  restarts : Nat
  /-- MT of the failed restarts the PARK island keeps, newest first (R516). -/
  failed : List Nat
  limpAt : Nat
  ordered : Option OrderedReset
  /-- Adopted and unadopted dies, PWR-N first (R526); dies reinitialised at this restart. -/
  adopted : List Bool
  unadopted : List Bool
  reinit : List Bool
  /-- The logic reset line is asserted. -/
  resetLine : Bool
  /-- The present restart has been counted as failed, or is one that does not count (R465, R516). -/
  counted : Bool
  hbF0 : Nat
  hbF1 : Nat
  hbAnvil : Nat
  service : Nat
  /-- F1: MT of its restarts, newest first; MT of its stop; stopped for good. -/
  f1RestartMts : List Nat
  f1StopAt : Nat
  f1Held : Bool
  /-- Anvil: 0 running, 1 restarting, 2 held in reset; MT of its resets. -/
  anvil : Nat
  anvilResets : List Nat
  anvilAt : Nat
  /-- Island clock faults now present, by island number of R35. -/
  clockFault : List Nat
  /-- The backstop runs on the internal 32 kHz RC (R509). -/
  parkRc : Bool
  /-- An island reset of R510 runs: (island, MT of its start). -/
  islandReset : List (Nat × Nat)
  /-- MODE of the open test mode, 0 none. -/
  testMode : Nat
  /-- Part-hours in RUN and DRAIN, and in PARK, in ns (R572). -/
  runPart : Nat
  parkPart : Nat
  /-- MT up to which the hours have been counted. -/
  hoursAt : Nat
  deriving DecidableEq, Repr

def SupConfig.default : SupConfig := { adopt := 0x7E, f1HbMs := 0, f1Restarts := 3, orphanOffS := 0 }

def SupState.init : SupState :=
  { cfg := SupConfig.default, phase := .off, cause := 0, subcause := 0, resetMode := 0, resetMt := 0, restarts := 0,
    failed := [], limpAt := 0, ordered := none, adopted := [false, false], unadopted := [false, false],
    reinit := [false, false], resetLine := false, counted := false, hbF0 := 0, hbF1 := 0, hbAnvil := 0, service := 0,
    f1RestartMts := [], f1StopAt := 0, f1Held := false, anvil := 0, anvilResets := [], anvilAt := 0,
    clockFault := [], parkRc := false, islandReset := [], testMode := 0, runPart := 0, parkPart := 0, hoursAt := 0 }

/-! ### The whole module -/

/-- What the module keeps without power: the parameter store, the code flash, the secure cells; the KIND pending installation
(R459), and whether ACTIVE and FALLBACK hold the foundry image of the factory, whose bytes
the spec does not give, and the erase count of each 64 KB sector of the code flash (R573). -/
structure Kept where
  store : Memory
  counters : List CounterDef
  cells : SecureCells
  flash : Memory
  updPending : Option Nat
  factoryFw : Bool
  factoryFb : Bool
  erases : List Nat
  deriving DecidableEq, Repr

/-- What lives while the module is powered, the retained SRAM among it. -/
structure Live where
  mt : MtState
  arch : ArchState
  pwr : PwrState
  host : HostState
  load : LoadState
  plan : PlanState
  ledger : LedgerState
  audio : AudioState
  valve : ValveState
  fio : FioState
  led : LedState
  can : CanState
  nm : NmState
  link : LinkState
  token : TokenState
  key : KeyState
  f1 : F1State
  param : ParamState
  sup : SupState
  fwu : UpdState
  deriving DecidableEq, Repr

/-- The module: its kept cells, its live state and the queue of commands that wait, first in first out. -/
structure State where
  kept : Kept
  live : Live
  pending : List Instr
  deriving DecidableEq, Repr

/-- No meaning of this model ends in a fault: every effect the spec gives is a next state. -/
inductive Fault where
  /-- Raised by no command of this model.  Safe: a fault stops the machine. -/
  | unreachable
  deriving DecidableEq, Repr

/-- Reasons for which a command has no effect in this model. -/
inductive Refusal where
  /-- A command without a meaning yet, by its mnemonic.  Safe: the machine stops. -/
  | notModelled (mnemonic : String)
  deriving DecidableEq, Repr

/-- The kept cells as the factory leaves them. -/
def Kept.init : Kept :=
  { store := [], counters := [], cells := SecureCells.init, flash := [], updPending := none, factoryFw := true, factoryFb := false, erases := List.replicate 256 0 }

/-- The live state of a module without power. -/
def Live.init : Live :=
  { mt := MtState.init, arch := ArchState.init, pwr := PwrState.init, host := HostState.init, load := LoadState.init, plan := PlanState.init, ledger := LedgerState.init, audio := AudioState.init, valve := ValveState.init, fio := FioState.init, led := LedState.init, can := CanState.init, nm := NmState.init, link := LinkState.init, token := TokenState.init, key := KeyState.init, f1 := F1State.init, param := ParamState.init, sup := SupState.init, fwu := UpdState.init }

/-- The module right after reset: unpowered, every field at the value the spec states or the log names. -/
def State.reset : State :=
  { kept := Kept.init, live := Live.init, pending := [] }

end Sys2Proof.Machine
end

