-- ==== Sys2Proof/Machine/Ops.lean ====
section
/-! DEFINITION. The named operations every family uses: bytes and words, memory, CRCs, event records and their
queues, mailboxes and the completion of a command. -/

namespace Sys2Proof.Machine

/-! ### Bytes -/

/-- The k low bytes of n, low byte first. -/
def le (k n : Nat) : List Byte := (List.range k).map fun i => BitVec.ofNat 8 (n / 256 ^ i)

/-- The k low bytes of an integer in two's complement, low byte first. -/
def leInt (k : Nat) (i : Int) : List Byte := le k (i % (256 ^ k : Nat)).toNat

/-- One byte of a list, zero beyond its end. -/
def byteAt (bs : List Byte) (i : Nat) : Nat := (bs.getD i 0).toNat

/-- The little-endian number in k bytes from offset off. -/
def rd (bs : List Byte) (off k : Nat) : Nat :=
  (List.range k).foldl (fun a i => a + byteAt bs (off + i) * 256 ^ i) 0

/-- The same bytes as a signed number. -/
def rdInt (bs : List Byte) (off k : Nat) : Int :=
  let v := rd bs off k
  if v < 256 ^ k / 2 then (v : Int) else (v : Int) - (256 ^ k : Nat)

/-- Zero-extends or cuts a byte list to n bytes. -/
def padTo (n : Nat) (bs : List Byte) : List Byte := bs.take n ++ List.replicate (n - bs.length) 0

/-- Puts bytes at an offset, within the list's length. -/
def splice (bs : List Byte) (off : Nat) (new : List Byte) : List Byte :=
  (bs.take off ++ new ++ bs.drop (off + new.length)).take bs.length

/-- Bit i of a number. -/
def bit (n i : Nat) : Bool := n.testBit i

/-- 1 or 0. -/
def b2n (b : Bool) : Nat := if b then 1 else 0

/-- A number with bit i set where f i holds, for i below k. -/
def maskOf (k : Nat) (f : Nat → Bool) : Nat :=
  (List.range k).foldl (fun a i => if f i then a + 2 ^ i else a) 0

/-- All the bits of the mask below k that are set, lowest first. -/
def bitsOf (k mask : Nat) : List Nat := (List.range k).filter fun i => bit mask i

def allZero (bs : List Byte) : Bool := bs.all (· == 0)

/-- Nanoseconds in a microsecond and a millisecond, in which MT counts. -/
def us (n : Nat) : Nat := n * 1000
def ms (n : Nat) : Nat := n * 1000000

/-- n lies from lo to hi. -/
def inRange (lo hi n : Nat) : Bool := decide (lo ≤ n) && decide (n ≤ hi)

/-! ### Memory in canonical form -/

/-- What address a reads as; d is what an unlisted address reads as. -/
def memRead (d : Byte) : Memory → Nat → Byte
  | [], _ => d
  | (k, v) :: m, a => if a = k then v else memRead d m a

/-- Writes one byte, keeping the addresses rising and no entry equal to d. -/
def memWrite (d : Byte) : Memory → Nat → Byte → Memory
  | [], a, b => if b = d then [] else [(a, b)]
  | (k, v) :: m, a, b =>
    if a < k then (if b = d then (k, v) :: m else (a, b) :: (k, v) :: m)
    else if a = k then (if b = d then m else (k, b) :: m)
    else (k, v) :: memWrite d m a b

/-- Every address of the list lies above a. -/
def memAbove (a : Nat) : Memory → Bool
  | [] => true
  | (k, _) :: _ => decide (a < k)

/-- The canonical form: addresses strictly rising, no entry equal to d. -/
def Memory.wf (d : Byte) : Memory → Bool
  | [] => true
  | (k, v) :: m => decide (v ≠ d) && memAbove k m && Memory.wf d m

/-- n bytes from address a. -/
def memReadN (d : Byte) (m : Memory) (a n : Nat) : List Byte := (List.range n).map fun i => memRead d m (a + i)

/-- Writes a run of bytes at address a. -/
def memWriteN (d : Byte) (m : Memory) (a : Nat) : List Byte → Memory
  | [] => m
  | b :: bs => memWriteN d (memWrite d m a b) (a + 1) bs

/-! ### CRCs (R64, R357) -/

/-- One bit of the reflected CRC-32. -/
def crc32Bit (c : Word) : Word := if c &&& 1 = 1 then (c >>> 1) ^^^ 0xEDB88320 else c >>> 1

/-- n steps of a function. -/
def iter {α : Type} (f : α → α) : Nat → α → α
  | 0, x => x
  | n + 1, x => iter f n (f x)

def crc32Step (c : Word) (b : Byte) : Word := iter crc32Bit 8 (c ^^^ b.setWidth 32)

/-- The CRC-32 of IEEE 802.3 (R64). -/
def crc32 (bs : List Byte) : Word := ~~~ (bs.foldl crc32Step 0xFFFFFFFF)

def crc16Bit (c : BitVec 16) : BitVec 16 := if c.msb then (c <<< 1) ^^^ 0x1021 else c <<< 1

/-- The CRC-16 of the link: polynomial 0x1021, initial value 0xFFFF, high bit first (R357). -/
def crc16 (bs : List Byte) : BitVec 16 :=
  bs.foldl (fun (c : BitVec 16) (b : Byte) => iter crc16Bit 8 (c ^^^ (BitVec.setWidth 16 b <<< (8 : Nat)))) 0xFFFF

/-! ### Status codes (R83) -/

inductive Status where
  | ok | pending | busy | badOpcode | badLength | badParam | state | presenceRequired | locked | keyUsage | budget
  | nvmDeferred | timeout | crc | version | internal | gate | contended
  deriving DecidableEq, Repr

def Status.code : Status → Nat
  | .ok => 0x00 | .pending => 0x01 | .busy => 0x02 | .badOpcode => 0x03 | .badLength => 0x04 | .badParam => 0x05
  | .state => 0x06 | .presenceRequired => 0x07 | .locked => 0x08 | .keyUsage => 0x09 | .budget => 0x0A
  | .nvmDeferred => 0x0B | .timeout => 0x0C | .crc => 0x0D | .version => 0x0E | .internal => 0x0F | .gate => 0x10
  | .contended => 0x11

/-- Severities (R33). -/
abbrev info : Nat := 0
abbrev notice : Nat := 1
abbrev warn : Nat := 2
abbrev sevFault : Nat := 3
abbrev crit : Nat := 4

/-! ### EVENT_N and READY_N (R70, R71) -/

/-- A record that calls for the host: WARN or above, or one that has waited HOLDOFF (R71). -/
def Live.calls (l : Live) (r : EventRec) : Bool :=
  decide (warn ≤ r.sev) || decide (r.entered + us (100 * l.host.holdoff) ≤ l.mt.now)

/-- Whether a condition of R71 holds. -/
def Live.eventDue (l : Live) : Bool :=
  l.host.mb.any (fun b => b.st == .done) || l.host.evq.any l.calls

/-- Drives EVENT_N by R71. -/
def Live.driveEventN (l : Live) : Live := { l with host := { l.host with eventLow := l.eventDue } }

/-! ### Event records and queues (R32, R84, R85, R93, R95, R367) -/

/-- The record of R32 for an event at the present MT. -/
def Live.record (l : Live) (id sev cause : Nat) (payload : List Byte) : EventRec :=
  { mtLo := l.mt.now / 16 % 2 ^ 48, cause := cause, sev := sev, id := id, payload := padTo 8 payload,
    origin := l.link.position, entered := l.mt.now }

/-- The 16 bytes of a record (R32). -/
def EventRec.bytes (r : EventRec) : List Byte :=
  le 8 (r.mtLo * 2 ^ 16 + r.cause % 16 * 2 ^ 12 + r.sev % 8 * 2 ^ 9 + r.id % 512) ++ padTo 8 r.payload

/-- A queue of n records that drops its oldest on overflow. -/
def pushDrop {α : Type} (n : Nat) (q : List α) (x : α) : List α :=
  if q.length < n then q ++ [x] else q.drop 1 ++ [x]

/-- Entry of a record into the host queue (R84, R85). -/
def Live.enterHost (l : Live) (r : EventRec) : Live :=
  let h := l.host
  let l := if h.evq.length < 256 then { l with host := { h with evq := h.evq ++ [r] } }
    else { l with host := { h with evq := h.evq.drop 1 ++ [r], headSeq := (h.headSeq + 1) % 65536,
                                   drops := min 0xFFFF (h.drops + 1) } }
  l.driveEventN

/-- Entry of a record into F1's queue (R93); a drop makes line 9 pending (R502). -/
def Live.enterF1 (l : Live) (r : EventRec) : Live :=
  let h := l.host
  if h.f1q.length < 256 then { l with host := { h with f1q := h.f1q ++ [r] } }
  else { l with
    host := { h with f1q := h.f1q.drop 1 ++ [r], f1Drops := min 0xFFFF (h.f1Drops + 1) },
    f1 := { l.f1 with edgePend := l.f1.edgePend ||| 2 ^ 9 } }

/-- A record of this module enters the host queue, F1's queue, the service queue and the queue for the link, each
under its own filter (R69, R93, R95, R367).  DESIGN CHOICE: records relayed from other members do not enter the service queue, for
which R95 names no relay. -/
def Live.enter (l : Live) (r : EventRec) : Live :=
  let l := if l.host.minSev ≤ r.sev then l.enterHost r else l
  let l := if l.host.f1MinSev ≤ r.sev then l.enterF1 r else l
  if l.host.uartOpen then { l with host := { l.host with svcq := pushDrop 64 l.host.svcq r } } else l

/-- The record joins the link's queue of 64; the oldest is dropped on overflow, reported at most once per 100 ms. -/
def Live.enterLink (l : Live) (r : EventRec) : Live :=
  if !l.link.cascaded then l
  else if l.link.evtQueue.length < 64 then { l with link := { l.link with evtQueue := l.link.evtQueue ++ [r] } }
  else
    let n := l.link.evtDropped + 1
    let l := { l with link := { l.link with evtQueue := l.link.evtQueue.drop 1 ++ [r], evtDropped := n,
                                                evtTotal := min 0xFFFFFFFF (l.link.evtTotal + 1) } }
    match l.link.evtDropRaised with
    | some t => if l.mt.now < t + ms 100 then l else
        { l with link := { l.link with evtDropRaised := some l.mt.now, evtDropped := 0 } }
          |>.enter (l.record 0x15B warn 0 (le 2 n))
    | none =>
        { l with link := { l.link with evtDropRaised := some l.mt.now, evtDropped := 0 } }
          |>.enter (l.record 0x15B warn 0 (le 2 n))

/-- Raises an event: its record enters every queue that takes it. -/
def Live.raise (l : Live) (id sev cause : Nat) (payload : List Byte) : Live :=
  let r := l.record id sev cause payload
  (l.enter r).enterLink r

/-- Raises an event that happened at an earlier MT: one that a die has logged, one of the boot ROM (R156, R462). -/
def Live.raiseAt (l : Live) (at_ id sev cause : Nat) (payload : List Byte) : Live :=
  let r := { l.record id sev cause payload with mtLo := at_ / 16 % 2 ^ 48 }
  (l.enter r).enterLink r

/-! ### Mailboxes -/

def Live.box (l : Live) : MbRef → Option Mailbox
  | .host n => l.host.mb[n]?
  | .loc n => l.host.lmb[n]?
  | .uart => some l.host.uart
  | .relay id => (l.link.jobs.find? (fun j => j.id == id)).map (·.box)

def Live.setBox (l : Live) (m : MbRef) (b : Mailbox) : Live :=
  match m with
  | .host n => { l with host := { l.host with mb := l.host.mb.set n b } }
  | .loc n => { l with host := { l.host with lmb := l.host.lmb.set n b } }
  | .uart => { l with host := { l.host with uart := b } }
  | .relay id => { l with link := { l.link with
      jobs := l.link.jobs.map fun j => if j.id == id then { j with box := b } else j } }

/-- The fields of the command frame (R72, R73). -/
def Mailbox.opc (b : Mailbox) : Nat := rd b.bytes 0 2
def Mailbox.len (b : Mailbox) : Nat := rd b.bytes 4 2
def Mailbox.dev (b : Mailbox) : Nat := byteAt b.bytes 6
def Mailbox.flags (b : Mailbox) : Nat := rd b.bytes 8 2
def Mailbox.staged (b : Mailbox) : Bool := bit b.flags 0
def Mailbox.payload (b : Mailbox) : List Byte := (b.bytes.drop 16).take b.len

/-- The response that overwrites a mailbox (R76); dev is the position that answers, or 0x7F. -/
def respBytes (req : List Byte) (dev : Nat) (st : Status) (detail : Nat) (payload : List Byte) : List Byte :=
  padTo 512 (req.take 4 ++ le 2 payload.length ++ le 1 dev ++ (req.drop 7).take 1
    ++ le 2 (byteAt req 8 % 2 + 0x8000) ++ le 1 st.code ++ le 1 detail ++ le 4 0 ++ payload)

/-- A UART frame of R94. -/
def uartFrame (type : Nat) (body : List Byte) : List Byte :=
  let inner := le 1 type ++ le 2 body.length ++ body
  [0x5C] ++ inner ++ le 4 (crc32 inner).toNat

/-- Puts a finished response into its mailbox: DONE with EVENT_N for the host, DONE for F1, a response frame for the
UART, a stored response for a relayed job (R76, R77, R94, R364). -/
def Live.deliver (l : Live) (m : MbRef) (resp : List Byte) : Live :=
  match l.box m with
  | none => l
  | some b =>
    match m with
    | .host _ => (l.setBox m { b with st := .done, stage := .none, bytes := resp }).driveEventN
    | .loc n =>
      if l.host.lmbFree.contains n then
        { l.setBox m Mailbox.empty with host := { (l.setBox m Mailbox.empty).host with lmbFree := l.host.lmbFree.filter (· != n) } }
      else l.setBox m { b with st := .done, stage := .none, bytes := resp }
    | .uart =>
      let l := l.setBox .uart Mailbox.empty
      { l with host := { l.host with uartOut := l.host.uartOut ++ [uartFrame 2 (resp.take (16 + rd resp 4 2))] } }
    | .relay id =>
      let l := l.setBox m { b with st := .done, stage := .none, bytes := resp }
      { l with link := { l.link with
          jobs := l.link.jobs.map fun j => if j.id == id then { j with reply := some resp } else j } }

/-- The 64-byte payload, the status and the DETAIL of a broadcast from the answers gathered (R88). -/
def gatherReply (got : List (Nat × Nat)) : List Byte :=
  (List.range 64).map fun p =>
    match got.find? (fun g => g.1 == p) with
    | some g => BitVec.ofNat 8 g.2
    | none => 0xFF

/-- The lowest position that did not give OK, with its status. -/
def gatherWorst (got : List (Nat × Nat)) : Option (Nat × Nat) :=
  (List.range 64).findSome? fun p => got.find? (fun g => g.1 == p && g.2 != 0)

def statusOf (n : Nat) : Status :=
  ([Status.ok, .pending, .busy, .badOpcode, .badLength, .badParam, .state, .presenceRequired, .locked, .keyUsage,
    .budget, .nvmDeferred, .timeout, .crc, .version, .internal, .gate, .contended]).getD n .internal

/-- Ends a broadcast whose last answer is in. -/
def Live.endGather (l : Live) (g : Gather) : Live :=
  let l := { l with link := { l.link with gathers := l.link.gathers.filter (fun x => x.owner != g.owner) } }
  match l.box g.owner with
  | none => l
  | some b =>
    match gatherWorst g.got with
    | none => l.deliver g.owner (respBytes b.bytes 0x7F .ok 0 (gatherReply g.got))
    | some (p, st) => l.deliver g.owner (respBytes b.bytes 0x7F (statusOf st) p (gatherReply g.got))

/-- One answer to a broadcast: position p gave status st. -/
def Live.gatherAnswer (l : Live) (m : MbRef) (p st : Nat) : Live :=
  match l.link.gathers.find? (fun g => g.owner == m) with
  | none => l
  | some g =>
    let g := { g with waiting := g.waiting.filter (· != p), got := g.got ++ [(p, st)] }
    if g.waiting.isEmpty then l.endGather g
    else { l with link := { l.link with gathers := l.link.gathers.map fun x => if x.owner == m then g else x } }

/-- A command reaches its final status: a broadcast's own answer is gathered, any other response is delivered. -/
def Live.complete (l : Live) (m : MbRef) (st : Status) (detail : Nat) (payload : List Byte) : Live :=
  match l.box m with
  | none => l
  | some b =>
    if b.st != .busy then l
    else if l.link.gathers.any (fun g => g.owner == m) then l.gatherAnswer m l.link.position st.code
    else
      let dev := if b.dev == 0x7F then 0x7F else l.link.position
      l.deliver m (respBytes b.bytes dev st detail payload)

/-- Leaves a command BUSY after its checks, to be completed by a later event. -/
def Live.hold (l : Live) (m : MbRef) : Live :=
  match l.box m with
  | none => l
  | some b => l.setBox m { b with stage := .open_ }

/-- Every mailbox there is: the host's, F1's, the UART's and the relayed jobs'. -/
def Live.boxes (l : Live) : List (MbRef × Mailbox) :=
  (List.range 8).filterMap (fun n => (l.host.mb[n]?).map fun b => (MbRef.host n, b))
    ++ (List.range 8).filterMap (fun n => (l.host.lmb[n]?).map fun b => (MbRef.loc n, b))
    ++ [(MbRef.uart, l.host.uart)] ++ l.link.jobs.map fun j => (MbRef.relay j.id, j.box)

/-- A mailbox holds a command of this opcode that has passed checks 1 to 5 and has not executed. -/
def Mailbox.ready (b : Mailbox) (opc : Nat) : Bool := b.st == .busy && b.stage == .admitted && b.opc == opc

/-- The objects that a command acts on, as kind and index (R80): load channels, bridge pairs, valves, banks, field channels,
wake inputs, CAN channels; each other group that changes something is one object.  A configuration that may form a group
takes in its neighbours.  What only reads has none. -/
def objectsOf (opc : Nat) (p : List Byte) : List (Nat × Nat) :=
  let mask := fun (kind k m : Nat) => (bitsOf k m).map fun n => (kind, n)
  let near := fun (kind n : Nat) => (List.range 7).map fun i => (kind, n + i)
  match opc with
  | 0x1001 => near 0 (byteAt p 0)
  | 0x1002 => (List.range (byteAt p 0)).map fun i => (0, 3 + byteAt p (4 + 4 * i))
  | 0x1004 => (bitsOf 48 (rd p 0 6)).map fun n => (0, 3 + n)
  | 0x1301 => [(0, 3 + byteAt p 0)]
  | 0x1202 => [if byteAt p 0 = 0 then (0, 3 + byteAt p 1) else (1, byteAt p 1 / 2)]
  | 0x2810 => (List.range (byteAt p 0)).map fun i => (0, 3 + byteAt p (4 + 8 * i))
  | 0x1101 => [(1, byteAt p 0 / 2)]
  | 0x1102 => [(1, byteAt p 0 / 2)]
  | 0x1104 => [(1, byteAt p 0 / 2)]
  | 0x2001 => [(2, byteAt p 0)]
  | 0x2003 => [(2, byteAt p 0)]
  | 0x2004 => [(2, byteAt p 0)]
  | 0x2002 => (3, byteAt p 0) :: (List.range 3).map fun i => (2, 3 * byteAt p 0 + i)
  | 0x2006 => mask 2 12 (rd p 0 2) ++ mask 3 4 (byteAt p 1 / 16)
  | 0x3001 => near 4 (byteAt p 0)
  | 0x3002 => (bitsOf 32 (rd p 0 4)).map fun n => (4, 3 + n)
  | 0x3004 => (bitsOf 32 (rd p 0 4)).map fun n => (4, 3 + n)
  | 0x3005 => [(5, byteAt p 0)]
  | 0x4006 => [(7, 0)]
  | 0x4009 => [(8, 0)]
  | 0x4005 => [(9, 0)]
  | _ =>
    let g := opc / 256
    if [0x0101, 0x0102, 0x0106, 0x0107, 0x0201, 0x1003, 0x1103, 0x1203, 0x1204, 0x1303, 0x2005, 0x2807, 0x2808, 0x3003, 0x3806,
        0x4008, 0x4403, 0x4404, 0x4405, 0x4802, 0x4804, 0x5006, 0x5007, 0x6006, 0x6805].contains opc then []
    else if g = 0x40 then [(6, byteAt p 0)]
    else [(10, g)]

/-- Two commands act on one object. -/
def Mailbox.clashes (b c : Mailbox) : Bool := (objectsOf b.opc b.payload).any fun o => (objectsOf c.opc c.payload).contains o

/-- A request of higher priority waits for the key store, before the commands of group KEY (R23): a token slot still to be
verified, for its 5 ms (R397).  Boot decryption leaves no command layer, and link membership and peer authentication are
served in the row that brings them, so neither can be seen waiting. -/
def Live.keyTaken (l : Live) (opc : Nat) : Bool :=
  opc / 256 == 0x58 && l.token.ants.any fun a => a.waits.any fun w => decide (l.mt.now < w.since + ms 5)

/-- The commands that configure an output; one of them takes effect after an earlier command whose edges still wait (R80). -/
def configures (opc : Nat) : Bool := [0x1001, 0x1101, 0x1202, 0x1301, 0x2001, 0x2002, 0x3001].contains opc

/-- A request that acts on the same object was rung earlier and has not taken effect (R80), or one of higher priority waits for the
key store (R23). -/
def Live.overtakes (l : Live) (b : Mailbox) : Bool :=
  l.keyTaken b.opc || l.boxes.any fun y =>
    y.2.st == .busy && decide (y.2.seq < b.seq) && b.clashes y.2 &&
      (y.2.stage == .admitted || (configures b.opc && l.plan.openCmds.any (·.m == y.1)))

/-- Of the requests of this opcode that may execute, the one rung first. -/
def Live.oldest (l : Live) (opc : Nat) : Option (MbRef × Mailbox) :=
  (l.boxes.filter fun x => x.2.ready opc).foldl (fun best x =>
    match best with
    | none => some x
    | some y => if x.2.seq < y.2.seq then some x else some y) none

/-- The request that executes next under this opcode: the one rung first, unless one on the same object goes before (R80). -/
def Live.request (l : Live) (opc : Nat) : Option (MbRef × Mailbox) := (l.oldest opc).filter fun x => !l.overtakes x.2

/-! ### Links and crossings that have failed (R16, R20) -/

/-- A die-to-die link has failed: in one direction every lane is retired (R16). -/
def Live.linkDead (l : Live) (k : Nat) : Bool :=
  [2 * k, 2 * k + 1].any fun i => ((l.arch.d2d[i]?).map fun d => d.retired.all id).getD false

/-- A crossing between CORE and an island is marked failed (R20). -/
def Live.crossingOut (l : Live) (i : Nat) : Bool :=
  l.arch.crossings.any fun c => c.failed && ((c.snd == 0 && c.rcv == i) || (c.snd == i && c.rcv == 0))

/-- CORE does not reach an island: its crossing, or the die-to-die link to it, has failed. -/
def Live.pathOut (l : Live) (i : Nat) : Bool := l.crossingOut i || (inRange 5 7 i && l.linkDead (i - 5))

/-- The island that the commands of an opcode use as a whole: AUDIO, BUS for CAN, LINK, RANGE for TOKEN.RANGE.  The
commands to outputs ask for their own die instead.  DESIGN CHOICE: the spec gives no list of the crossings of a command. -/
def opcIsland (opc : Nat) : Option Nat :=
  if opc / 256 = 0x38 then some 4
  else if opc / 256 = 0x40 then some 2
  else if opc / 256 = 0x48 then some 3
  else if opc = 0x5005 then some 7
  else none

/-- A command of this opcode is refused at once with INTERNAL, since its island is not reached (R20). -/
def Live.pathLost (l : Live) (opc : Nat) : Bool := (opcIsland opc).elim false l.pathOut

/-- How a command's own checks and work end. -/
inductive Reply where
  /-- The final status, DETAIL and response payload. -/
  | done (st : Status) (detail : Nat) (payload : List Byte)
  /-- The command stays BUSY. -/
  | wait
  deriving DecidableEq, Repr

/-- A refusal with no response payload. -/
def refuse (st : Status) (detail : Nat := 0) : Reply := .done st detail []

def okReply : Reply := .done .ok 0 []

def Live.finish (l : Live) (m : MbRef) : Reply → Live
  | .done st d p => l.complete m st d p
  | .wait => l.hold m

/-- Executes the command of an opcode that touches nothing kept: the body sees its mailbox and its request, and
answers a reply and the state.  With no such request the row does nothing; where the crossing it needs has failed, it is
refused with INTERNAL (R20). -/
def State.command (s : State) (opc : Nat) (body : MbRef → Mailbox → Live → Reply × Live) : State :=
  match s.live.request opc with
  | none => s
  | some (m, b) =>
    if s.live.pathLost opc then { s with live := s.live.complete m .internal 0 [] }
    else let r := body m b s.live; { s with live := r.2.finish m r.1 }

/-- Executes a command whose body may also change what is kept. -/
def State.commandK (s : State) (opc : Nat) (body : MbRef → Mailbox → State → Reply × State) : State :=
  match s.live.request opc with
  | none => s
  | some (m, b) =>
    if s.live.pathLost opc then { s with live := s.live.complete m .internal 0 [] }
    else let r := body m b s; { r.2 with live := r.2.live.finish m r.1 }

/-- Applies a change to the live state. -/
def State.onLive (s : State) (f : Live → Live) : State := { s with live := f s.live }

/-- Applies a change that foundry firmware or a block of the LOGIC die makes: nothing while the logic is away. -/
def State.onLogic (s : State) (f : Live → Live) : State := if s.live.sup.phase == .running then s.onLive f else s

/-- The outcome of every meaning: the state after it. -/
abbrev Result := Host.Outcome State Fault Refusal

/-! ### Field checks of a request (R74 check 6, R75) -/

/-- The DETAIL of BAD_PARAM for a payload offset. -/
def paramDetail (off : Nat) : Nat := if off ≤ 254 then off else 0xFF

/-- The offset of the first check of the list that fails. -/
def firstBad : List (Nat × Bool) → Option Nat
  | [] => none
  | (off, ok) :: cs => if ok then firstBad cs else some off

/-- Refuses with BAD_PARAM at the first failing check, otherwise goes on. -/
def checked {α : Type} (cs : List (Nat × Bool)) (x : α) (bad : Reply → α) : α :=
  match firstBad cs with
  | some off => bad (refuse .badParam (paramDetail off))
  | none => x

/-! ### Modes and lists -/

def Mode.code : Mode → Nat
  | .park => 0 | .wakeCheck => 1 | .run => 2 | .drain => 3 | .limp => 4

/-- The command layer runs (R70). -/
def Live.commandLayer (l : Live) : Bool :=
  l.sup.phase == .running && (l.pwr.mode == .run || l.pwr.mode == .drain || l.pwr.mode == .wakeCheck)

/-- The island is being restarted: its reset began less than 1 ms ago (R510). -/
def Live.islandDown (l : Live) (i : Nat) : Bool :=
  l.sup.islandReset.any fun (x : Nat × Nat) => x.1 == i && decide (l.mt.now < x.2 + ms 1)

/-- Counts the time up to now in the present mode: run and park part-hours (R572) and the Assay run time (R466). -/
def Live.countTime (l : Live) : Live :=
  let now := l.mt.now
  let hours := now - l.sup.hoursAt
  { l with
    sup := { l.sup with
      runPart := l.sup.runPart + (if l.pwr.mode == .run || l.pwr.mode == .drain then hours else 0),
      parkPart := l.sup.parkPart + (if l.pwr.mode == .park && l.pwr.powered then hours else 0), hoursAt := now },
    fwu := { l.fwu with
      runPart := l.fwu.runPart + (if l.pwr.mode == .run then now - l.fwu.runAt else 0), runAt := now } }

/-- The transceiver of a channel is in standby (R300): always, but with the channel not DISABLED in WAKE-CHECK, in RUN and in
DRAIN before its step 5, while the logic runs. -/
def Live.trxStandby (l : Live) (c : CanChan) : Bool :=
  c.mode == 0 || l.sup.phase != .running ||
    !(l.pwr.mode == .wakeCheck || l.pwr.mode == .run || (l.pwr.mode == .drain && decide (l.pwr.drain.step < 5)))

/-- Drives TRX_STBn by STB_POL and CANn_TX by the table of R300 and the modes of R316, on every channel. -/
def Live.driveTrx (l : Live) : Live :=
  { l with can := { l.can with chans := l.can.chans.map fun c => { c with
      stb := (c.cfg.stbPol == 0) == l.trxStandby c, txOn := !l.trxStandby c && (c.mode == 1 || c.mode == 4) } } }

/-- Sets the mode and raises EV_MODE_CHANGE with the old one (R48, R60); the transceivers follow (R300). -/
def Live.setMode (l : Live) (md : Mode) : Live :=
  if l.pwr.mode == md then l.driveTrx
  else
    let old := l.pwr.mode.code
    let l := l.countTime
    (({ l with pwr := { l.pwr with mode := md } }).raise 0x030 notice md.code (le 1 old)).driveTrx

/-- Changes element i of a list, if there is one. -/
def upd {α : Type} (xs : List α) (i : Nat) (f : α → α) : List α := xs.modify i f

end Sys2Proof.Machine
end

