-- ==== Sys2Proof/Machine/Crypto.lean ====
section
/-! DEFINITION. The cryptographic operations of the key store (15_key_store_lifecycle.md, R409 to R424), each from
the public standard that the rule names: SHA-256, HMAC, AES, CMAC, CBC, CTR, GCM, key wrap, the counter-mode KDF,
CTR_DRBG and ECDSA on P-256. -/

namespace Sys2Proof.Machine

/-! ### SHA-256 -/

/-- The round constants of SHA-256. -/
def shaK : List Word :=
  [0x428a2f98, 0x71374491, 0xb5c0fbcf, 0xe9b5dba5, 0x3956c25b, 0x59f111f1, 0x923f82a4, 0xab1c5ed5] ++
  [0xd807aa98, 0x12835b01, 0x243185be, 0x550c7dc3, 0x72be5d74, 0x80deb1fe, 0x9bdc06a7, 0xc19bf174] ++
  [0xe49b69c1, 0xefbe4786, 0x0fc19dc6, 0x240ca1cc, 0x2de92c6f, 0x4a7484aa, 0x5cb0a9dc, 0x76f988da] ++
  [0x983e5152, 0xa831c66d, 0xb00327c8, 0xbf597fc7, 0xc6e00bf3, 0xd5a79147, 0x06ca6351, 0x14292967] ++
  [0x27b70a85, 0x2e1b2138, 0x4d2c6dfc, 0x53380d13, 0x650a7354, 0x766a0abb, 0x81c2c92e, 0x92722c85] ++
  [0xa2bfe8a1, 0xa81a664b, 0xc24b8b70, 0xc76c51a3, 0xd192e819, 0xd6990624, 0xf40e3585, 0x106aa070] ++
  [0x19a4c116, 0x1e376c08, 0x2748774c, 0x34b0bcb5, 0x391c0cb3, 0x4ed8aa4a, 0x5b9cca4f, 0x682e6ff3] ++
  [0x748f82ee, 0x78a5636f, 0x84c87814, 0x8cc70208, 0x90befffa, 0xa4506ceb, 0xbef9a3f7, 0xc67178f2]

/-- The initial hash value of SHA-256. -/
def shaInit : List Word :=
  [0x6a09e667, 0xbb67ae85, 0x3c6ef372, 0xa54ff53a, 0x510e527f, 0x9b05688c, 0x1f83d9ab, 0x5be0cd19]

/-- A big-endian word from four bytes. -/
def be32 (bs : List Byte) : Word := bs.foldl (fun (a : Word) (b : Byte) => (a <<< (8 : Nat)) ||| BitVec.setWidth 32 b) 0

/-- The k bytes of n, high byte first. -/
def be (k n : Nat) : List Byte := (le k n).reverse

/-- A big-endian number. -/
def beNat (bs : List Byte) : Nat := bs.foldl (fun (a : Nat) (b : Byte) => a * 256 + b.toNat) 0

/-- Cuts a list into pieces of n, the last one shorter. -/
def chunks {α : Type} (n : Nat) (xs : List α) : List (List α) :=
  (List.range ((xs.length + (n - 1)) / n)).map fun i => (xs.drop (n * i)).take n

/-- The message schedule, newest word first: one more word. -/
def shaExtend (w : List Word) : List Word :=
  let w1 := w.getD 1 0
  let w14 := w.getD 14 0
  let s1 := w1.rotateRight 17 ^^^ w1.rotateRight 19 ^^^ (w1 >>> (10 : Nat))
  let s0 := w14.rotateRight 7 ^^^ w14.rotateRight 18 ^^^ (w14 >>> (3 : Nat))
  (s1 + w.getD 6 0 + s0 + w.getD 15 0) :: w

/-- One round over the working variables a to h. -/
def shaRound (v : List Word) (kw : Word) : List Word :=
  match v with
  | [a, b, c, d, e, f, g, h] =>
    let t1 := h + (e.rotateRight 6 ^^^ e.rotateRight 11 ^^^ e.rotateRight 25) + ((e &&& f) ^^^ (~~~ e &&& g)) + kw
    let t2 := (a.rotateRight 2 ^^^ a.rotateRight 13 ^^^ a.rotateRight 22) + ((a &&& b) ^^^ (a &&& c) ^^^ (b &&& c))
    [t1 + t2, a, b, c, d + t1, e, f, g]
  | _ => v

def shaBlock (h : List Word) (block : List Byte) : List Word :=
  let w := (iter shaExtend 48 ((chunks 4 block).map be32).reverse).reverse
  let v := (List.zipWith (· + ·) shaK w).foldl shaRound h
  List.zipWith (· + ·) h v

/-- SHA-256. -/
def sha256 (msg : List Byte) : List Byte :=
  let z := (119 - msg.length % 64) % 64
  let padded := msg ++ [0x80] ++ List.replicate z 0 ++ be 8 (8 * msg.length)
  ((chunks 64 padded).foldl shaBlock shaInit).flatMap fun w => be 4 w.toNat

/-- HMAC-SHA-256. -/
def hmac (key msg : List Byte) : List Byte :=
  let k := padTo 64 (if 64 < key.length then sha256 key else key)
  sha256 (k.map (· ^^^ 0x5C) ++ sha256 (k.map (· ^^^ 0x36) ++ msg))

/-! ### AES -/

/-- The S-box of AES. -/
def aesS : List Byte :=
  [0x63, 0x7c, 0x77, 0x7b, 0xf2, 0x6b, 0x6f, 0xc5, 0x30, 0x01, 0x67, 0x2b, 0xfe, 0xd7, 0xab, 0x76] ++
  [0xca, 0x82, 0xc9, 0x7d, 0xfa, 0x59, 0x47, 0xf0, 0xad, 0xd4, 0xa2, 0xaf, 0x9c, 0xa4, 0x72, 0xc0] ++
  [0xb7, 0xfd, 0x93, 0x26, 0x36, 0x3f, 0xf7, 0xcc, 0x34, 0xa5, 0xe5, 0xf1, 0x71, 0xd8, 0x31, 0x15] ++
  [0x04, 0xc7, 0x23, 0xc3, 0x18, 0x96, 0x05, 0x9a, 0x07, 0x12, 0x80, 0xe2, 0xeb, 0x27, 0xb2, 0x75] ++
  [0x09, 0x83, 0x2c, 0x1a, 0x1b, 0x6e, 0x5a, 0xa0, 0x52, 0x3b, 0xd6, 0xb3, 0x29, 0xe3, 0x2f, 0x84] ++
  [0x53, 0xd1, 0x00, 0xed, 0x20, 0xfc, 0xb1, 0x5b, 0x6a, 0xcb, 0xbe, 0x39, 0x4a, 0x4c, 0x58, 0xcf] ++
  [0xd0, 0xef, 0xaa, 0xfb, 0x43, 0x4d, 0x33, 0x85, 0x45, 0xf9, 0x02, 0x7f, 0x50, 0x3c, 0x9f, 0xa8] ++
  [0x51, 0xa3, 0x40, 0x8f, 0x92, 0x9d, 0x38, 0xf5, 0xbc, 0xb6, 0xda, 0x21, 0x10, 0xff, 0xf3, 0xd2] ++
  [0xcd, 0x0c, 0x13, 0xec, 0x5f, 0x97, 0x44, 0x17, 0xc4, 0xa7, 0x7e, 0x3d, 0x64, 0x5d, 0x19, 0x73] ++
  [0x60, 0x81, 0x4f, 0xdc, 0x22, 0x2a, 0x90, 0x88, 0x46, 0xee, 0xb8, 0x14, 0xde, 0x5e, 0x0b, 0xdb] ++
  [0xe0, 0x32, 0x3a, 0x0a, 0x49, 0x06, 0x24, 0x5c, 0xc2, 0xd3, 0xac, 0x62, 0x91, 0x95, 0xe4, 0x79] ++
  [0xe7, 0xc8, 0x37, 0x6d, 0x8d, 0xd5, 0x4e, 0xa9, 0x6c, 0x56, 0xf4, 0xea, 0x65, 0x7a, 0xae, 0x08] ++
  [0xba, 0x78, 0x25, 0x2e, 0x1c, 0xa6, 0xb4, 0xc6, 0xe8, 0xdd, 0x74, 0x1f, 0x4b, 0xbd, 0x8b, 0x8a] ++
  [0x70, 0x3e, 0xb5, 0x66, 0x48, 0x03, 0xf6, 0x0e, 0x61, 0x35, 0x57, 0xb9, 0x86, 0xc1, 0x1d, 0x9e] ++
  [0xe1, 0xf8, 0x98, 0x11, 0x69, 0xd9, 0x8e, 0x94, 0x9b, 0x1e, 0x87, 0xe9, 0xce, 0x55, 0x28, 0xdf] ++
  [0x8c, 0xa1, 0x89, 0x0d, 0xbf, 0xe6, 0x42, 0x68, 0x41, 0x99, 0x2d, 0x0f, 0xb0, 0x54, 0xbb, 0x16]

/-- The inverse S-box of AES. -/
def aesInvS : List Byte :=
  [0x52, 0x09, 0x6a, 0xd5, 0x30, 0x36, 0xa5, 0x38, 0xbf, 0x40, 0xa3, 0x9e, 0x81, 0xf3, 0xd7, 0xfb] ++
  [0x7c, 0xe3, 0x39, 0x82, 0x9b, 0x2f, 0xff, 0x87, 0x34, 0x8e, 0x43, 0x44, 0xc4, 0xde, 0xe9, 0xcb] ++
  [0x54, 0x7b, 0x94, 0x32, 0xa6, 0xc2, 0x23, 0x3d, 0xee, 0x4c, 0x95, 0x0b, 0x42, 0xfa, 0xc3, 0x4e] ++
  [0x08, 0x2e, 0xa1, 0x66, 0x28, 0xd9, 0x24, 0xb2, 0x76, 0x5b, 0xa2, 0x49, 0x6d, 0x8b, 0xd1, 0x25] ++
  [0x72, 0xf8, 0xf6, 0x64, 0x86, 0x68, 0x98, 0x16, 0xd4, 0xa4, 0x5c, 0xcc, 0x5d, 0x65, 0xb6, 0x92] ++
  [0x6c, 0x70, 0x48, 0x50, 0xfd, 0xed, 0xb9, 0xda, 0x5e, 0x15, 0x46, 0x57, 0xa7, 0x8d, 0x9d, 0x84] ++
  [0x90, 0xd8, 0xab, 0x00, 0x8c, 0xbc, 0xd3, 0x0a, 0xf7, 0xe4, 0x58, 0x05, 0xb8, 0xb3, 0x45, 0x06] ++
  [0xd0, 0x2c, 0x1e, 0x8f, 0xca, 0x3f, 0x0f, 0x02, 0xc1, 0xaf, 0xbd, 0x03, 0x01, 0x13, 0x8a, 0x6b] ++
  [0x3a, 0x91, 0x11, 0x41, 0x4f, 0x67, 0xdc, 0xea, 0x97, 0xf2, 0xcf, 0xce, 0xf0, 0xb4, 0xe6, 0x73] ++
  [0x96, 0xac, 0x74, 0x22, 0xe7, 0xad, 0x35, 0x85, 0xe2, 0xf9, 0x37, 0xe8, 0x1c, 0x75, 0xdf, 0x6e] ++
  [0x47, 0xf1, 0x1a, 0x71, 0x1d, 0x29, 0xc5, 0x89, 0x6f, 0xb7, 0x62, 0x0e, 0xaa, 0x18, 0xbe, 0x1b] ++
  [0xfc, 0x56, 0x3e, 0x4b, 0xc6, 0xd2, 0x79, 0x20, 0x9a, 0xdb, 0xc0, 0xfe, 0x78, 0xcd, 0x5a, 0xf4] ++
  [0x1f, 0xdd, 0xa8, 0x33, 0x88, 0x07, 0xc7, 0x31, 0xb1, 0x12, 0x10, 0x59, 0x27, 0x80, 0xec, 0x5f] ++
  [0x60, 0x51, 0x7f, 0xa9, 0x19, 0xb5, 0x4a, 0x0d, 0x2d, 0xe5, 0x7a, 0x9f, 0x93, 0xc9, 0x9c, 0xef] ++
  [0xa0, 0xe0, 0x3b, 0x4d, 0xae, 0x2a, 0xf5, 0xb0, 0xc8, 0xeb, 0xbb, 0x3c, 0x83, 0x53, 0x99, 0x61] ++
  [0x17, 0x2b, 0x04, 0x7e, 0xba, 0x77, 0xd6, 0x26, 0xe1, 0x69, 0x14, 0x63, 0x55, 0x21, 0x0c, 0x7d]

def sub (t : List Byte) (b : Byte) : Byte := t.getD b.toNat 0

/-- Multiplication by x in the field of AES. -/
def xtime (b : Byte) : Byte := if b.msb then (b <<< (1 : Nat)) ^^^ 0x1B else b <<< (1 : Nat)

/-- Multiplication in the field of AES by a small constant. -/
def gmul (k : Nat) (b : Byte) : Byte :=
  let x2 := xtime b
  let x4 := xtime x2
  let x8 := xtime x4
  (if bit k 0 then b else 0) ^^^ (if bit k 1 then x2 else 0) ^^^ (if bit k 2 then x4 else 0) ^^^
    (if bit k 3 then x8 else 0)

def xorBytes (a b : List Byte) : List Byte := List.zipWith (· ^^^ ·) a b

/-- The key schedule, newest word first, for a key of nk words: one more word. -/
def aesKeyStep (nk : Nat) (ws : List (List Byte)) (rcon : Byte) : List (List Byte) × Byte :=
  let i := ws.length
  let t := ws.getD 0 []
  let (t, rcon) :=
    if i % nk = 0 then (xorBytes ((t.drop 1 ++ t.take 1).map (sub aesS)) [rcon, 0, 0, 0], xtime rcon)
    else if 6 < nk && i % nk == 4 then (t.map (sub aesS), rcon) else (t, rcon)
  (xorBytes (ws.getD (nk - 1) []) t :: ws, rcon)

/-- The round keys of a 16-byte or 32-byte key, first round first. -/
def aesKeys (key : List Byte) : List (List Byte) :=
  let nk := key.length / 4
  let total := 4 * (nk + 7)
  let start : List (List Byte) × Byte := ((chunks 4 key).reverse, 1)
  let r := iter (fun (p : List (List Byte) × Byte) => aesKeyStep nk p.1 p.2) (total - nk) start
  (chunks 4 r.1.reverse).map List.flatten

def aesShift (s : List Byte) (dir : Nat) : List Byte :=
  (List.range 16).map fun i => s.getD ((i + 4 * (i % 4) * dir) % 16) 0

def aesMix (ks : List Nat) (s : List Byte) : List Byte :=
  (List.range 16).map fun i =>
    let c := 4 * (i / 4)
    (List.range 4).foldl (fun (a : Byte) j => a ^^^ gmul (ks.getD ((j + 4 - i % 4) % 4) 0) (s.getD (c + j) 0)) 0

def aesRound (s k : List Byte) : List Byte :=
  xorBytes (aesMix [2, 3, 1, 1] (aesShift (s.map (sub aesS)) 1)) k

/-- One block encrypted under round keys. -/
def aesEncBlock (ks : List (List Byte)) (b : List Byte) : List Byte :=
  let s := xorBytes b (ks.getD 0 [])
  let s := ((ks.drop 1).dropLast).foldl aesRound s
  xorBytes (aesShift (s.map (sub aesS)) 1) (ks.getLastD [])

def aesInvRound (s k : List Byte) : List Byte :=
  aesMix [14, 11, 13, 9] (xorBytes ((aesShift s 3).map (sub aesInvS)) k)

/-- One block decrypted under round keys. -/
def aesDecBlock (ks : List (List Byte)) (b : List Byte) : List Byte :=
  let s := xorBytes b (ks.getLastD [])
  let s := ((ks.drop 1).dropLast).reverse.foldl aesInvRound s
  xorBytes ((aesShift s 3).map (sub aesInvS)) (ks.getD 0 [])

def aesEnc (key b : List Byte) : List Byte := aesEncBlock (aesKeys key) b

def aesDec (key b : List Byte) : List Byte := aesDecBlock (aesKeys key) b

/-- Doubling in the field of CMAC. -/
def cmacDouble (b : List Byte) : List Byte :=
  let n := beNat b
  be 16 ((2 * n % 2 ^ 128) ^^^ (if 2 ^ 127 ≤ n then 0x87 else 0))

/-- AES-CMAC. -/
def cmac (key msg : List Byte) : List Byte :=
  let ks := aesKeys key
  let k1 := cmacDouble (aesEncBlock ks (List.replicate 16 0))
  let k2 := cmacDouble k1
  let n := (max msg.length 1 + 15) / 16
  let front := msg.take (16 * (n - 1))
  let last := msg.drop (16 * (n - 1))
  let m := if last.length = 16 then xorBytes last k1 else xorBytes (padTo 16 (last ++ [0x80])) k2
  let x := (chunks 16 front).foldl (fun x b => aesEncBlock ks (xorBytes x b)) (List.replicate 16 0)
  aesEncBlock ks (xorBytes x m)

def cbcEnc (key iv data : List Byte) : List Byte :=
  let ks := aesKeys key
  ((chunks 16 data).foldl (fun (p : List Byte × List Byte) b =>
    let c := aesEncBlock ks (xorBytes p.2 b)
    (p.1 ++ c, c)) ([], iv)).1

def cbcDec (key iv data : List Byte) : List Byte :=
  let ks := aesKeys key
  ((chunks 16 data).foldl (fun (p : List Byte × List Byte) b =>
    (p.1 ++ xorBytes (aesDecBlock ks b) p.2, b)) ([], iv)).1

/-- Counter mode: the counter is the whole 16-byte block, big-endian. -/
def ctrCrypt (key iv data : List Byte) : List Byte :=
  let ks := aesKeys key
  let n0 := beNat iv
  let stream := (List.range ((data.length + 15) / 16)).flatMap fun i => aesEncBlock ks (be 16 ((n0 + i) % 2 ^ 128))
  xorBytes data stream

/-- Multiplication in the field of GCM, bit 0 the most significant. -/
def ghashMul (x y : Nat) : Nat :=
  ((List.range 128).foldl (fun (p : Nat × Nat) i =>
    let z := if x.testBit (127 - i) then p.1 ^^^ p.2 else p.1
    let v := if p.2.testBit 0 then (p.2 / 2) ^^^ (0xE1 * 2 ^ 120) else p.2 / 2
    (z, v)) (0, y)).1

def ghash (h : Nat) (bs : List Byte) : Nat :=
  (chunks 16 bs).foldl (fun y b => ghashMul (y ^^^ beNat (padTo 16 b)) h) 0

/-- The length rounded up to whole blocks. -/
def padBlocks (bs : List Byte) : List Byte := padTo ((bs.length + 15) / 16 * 16) bs

/-- The GCM tag over additional data and ciphertext, for a 12-byte IV. -/
def gcmTag (key iv aad ct : List Byte) : List Byte :=
  let h := beNat (aesEnc key (List.replicate 16 0))
  let s := ghash h (padBlocks aad ++ padBlocks ct ++ be 8 (8 * aad.length) ++ be 8 (8 * ct.length))
  xorBytes (be 16 s) (aesEnc key (iv ++ [0, 0, 0, 1]))

/-- Counter mode of GCM: 32-bit counter from 2. -/
def gcmCrypt (key iv data : List Byte) : List Byte :=
  let ks := aesKeys key
  let stream := (List.range ((data.length + 15) / 16)).flatMap fun i => aesEncBlock ks (iv ++ be 4 ((i + 2) % 2 ^ 32))
  xorBytes data stream

/-! ### Key wrap (NIST SP 800-38F KW) -/

def kwIv : List Byte := List.replicate 8 0xA6

/-- One inner step of the wrap: A, the registers, the step number t and register i. -/
def kwStep (ks : List (List Byte)) (p : List Byte × List (List Byte)) (t i : Nat) : List Byte × List (List Byte) :=
  let b := aesEncBlock ks (p.1 ++ p.2.getD i [])
  (xorBytes (b.take 8) (be 8 t), p.2.set i (b.drop 8))

def kwWrap (key data : List Byte) : List Byte :=
  let ks := aesKeys key
  let r := chunks 8 data
  let n := r.length
  let p := (List.range (6 * n)).foldl (fun p t => kwStep ks p (t + 1) (t % n)) (kwIv, r)
  p.1 ++ p.2.flatten

/-- Unwraps; none when the integrity check fails. -/
def kwUnwrap (key blob : List Byte) : Option (List Byte) :=
  let ks := aesKeys key
  let r := chunks 8 (blob.drop 8)
  let n := r.length
  let p := (List.range (6 * n)).reverse.foldl (fun (p : List Byte × List (List Byte)) t =>
    let b := aesDecBlock ks (xorBytes p.1 (be 8 (t + 1)) ++ p.2.getD (t % n) [])
    (b.take 8, p.2.set (t % n) (b.drop 8))) (blob.take 8, r)
  if p.1 == kwIv then some p.2.flatten else none

/-! ### The counter-mode KDF (R417) -/

/-- Derives the first bits of the KDF of R417; prf is CMAC under an AES parent and HMAC under an HMAC256 parent. -/
def kdf (prf : List Byte → List Byte) (label context : List Byte) (bits : Nat) : List Byte :=
  let blockLen := (prf []).length
  let n := (bits / 8 + blockLen - 1) / blockLen
  ((List.range n).flatMap fun i => prf (be 1 (i + 1) ++ label ++ [0] ++ context ++ be 2 bits)).take (bits / 8)

/-- ASCII characters as bytes. -/
def ascii (s : String) : List Byte := s.toList.map fun c => BitVec.ofNat 8 c.toNat

/-! ### CTR_DRBG with AES-256, without derivation function (R419) -/

/-- Key and V of the DRBG. -/
structure DrbgKeys where
  key : List Byte
  v : List Byte
  deriving DecidableEq, Repr

def incBlock (v : List Byte) : List Byte := be 16 ((beNat v + 1) % 2 ^ 128)

def DrbgKeys.update (d : DrbgKeys) (provided : List Byte) : DrbgKeys :=
  let ks := aesKeys d.key
  let v1 := incBlock d.v
  let v2 := incBlock v1
  let v3 := incBlock v2
  let t := xorBytes (aesEncBlock ks v1 ++ aesEncBlock ks v2 ++ aesEncBlock ks v3) provided
  { key := t.take 32, v := t.drop 32 }

/-- Instantiation from 48 bytes of entropy. -/
def DrbgKeys.seed (entropy : List Byte) : DrbgKeys :=
  ({ key := List.replicate 32 0, v := List.replicate 16 0 } : DrbgKeys).update entropy

/-- n bytes of output and the state after it. -/
def DrbgKeys.generate (d : DrbgKeys) (n : Nat) : List Byte × DrbgKeys :=
  let ks := aesKeys d.key
  let k := (n + 15) / 16
  let out := (List.range k).flatMap fun i => aesEncBlock ks (be 16 ((beNat d.v + 1 + i) % 2 ^ 128))
  let d' : DrbgKeys := { d with v := be 16 ((beNat d.v + k) % 2 ^ 128) }
  (out.take n, d'.update (List.replicate 48 0))

/-! ### ECDSA on P-256 -/

def p256P : Nat := 0xFFFFFFFF00000001000000000000000000000000FFFFFFFFFFFFFFFFFFFFFFFF
def p256N : Nat := 0xFFFFFFFF00000000FFFFFFFFFFFFFFFFBCE6FAADA7179E84F3B9CAC2FC632551
def p256B : Nat := 0x5AC635D8AA3A93E7B3EBBD55769886BC651D06B0CC53B0F63BCE3C3E27D2604B
def p256G : Nat × Nat :=
  (0x6B17D1F2E12C4247F8BCE6E563A440F277037D812DEB33A0F4A13945D898C296,
   0x4FE342E2FE1A7F9B8EE7EB4A7C0F9E162BCE33576B315ECECBB6406837BF51F5)

/-- b ^ e mod m, taking the 256 bits of e from the top. -/
def powMod (b e m : Nat) : Nat :=
  (List.range 256).foldl (fun r i =>
    let r := r * r % m
    if e.testBit (255 - i) then r * b % m else r) 1

/-- The inverse modulo a prime. -/
def invMod (a m : Nat) : Nat := powMod (a % m) (m - 2) m

/-- A point of the curve; none is the point at infinity. -/
abbrev Point := Option (Nat × Nat)

def ecAdd (a b : Point) : Point :=
  match a, b with
  | none, q => q
  | q, none => q
  | some (x1, y1), some (x2, y2) =>
    let p := p256P
    if x1 = x2 ∧ (y1 + y2) % p = 0 then none
    else
      let s := if x1 = x2 ∧ y1 = y2 then (3 * x1 * x1 + (p - 3)) * invMod (2 * y1) p % p
        else (y2 + p - y1) * invMod (x2 + p - x1) p % p
      let x3 := (s * s + 2 * p - x1 - x2) % p
      some (x3, (s * (x1 + p - x3) + p - y1) % p)

def ecMul (k : Nat) (q : Point) : Point :=
  (List.range 256).foldl (fun r i =>
    let r := ecAdd r r
    if k.testBit (255 - i) then ecAdd r q else r) none

/-- The public key of a private scalar, X then Y, big-endian. -/
def ecPub (d : Nat) : List Byte :=
  match ecMul d (some p256G) with
  | none => List.replicate 64 0
  | some (x, y) => be 32 x ++ be 32 y

/-- The point of a 64-byte public key, if it lies on the curve. -/
def ecPoint (pub : List Byte) : Point :=
  let x := beNat (pub.take 32)
  let y := beNat ((pub.drop 32).take 32)
  if x < p256P ∧ y < p256P ∧ y * y % p256P = (x * x * x + (p256P - 3) * x + p256B) % p256P then some (x, y) else none

/-- The ECDSA signature r, s of a 32-byte digest with nonce k. -/
def ecdsaSign (d k : Nat) (digest : List Byte) : List Byte :=
  match ecMul k (some p256G) with
  | none => List.replicate 64 0
  | some (x, _) =>
    let r := x % p256N
    let s := invMod k p256N * (beNat digest + r * d) % p256N
    be 32 r ++ be 32 s

/-- Verifies a signature r, s over a 32-byte digest. -/
def ecdsaVerify (pub sig digest : List Byte) : Bool :=
  let r := beNat (sig.take 32)
  let s := beNat ((sig.drop 32).take 32)
  match ecPoint pub with
  | none => false
  | some q =>
    if r = 0 ∨ s = 0 ∨ p256N ≤ r ∨ p256N ≤ s then false
    else
      let w := invMod s p256N
      match ecAdd (ecMul (beNat digest * w % p256N) (some p256G)) (ecMul (r * w % p256N) (some q)) with
      | none => false
      | some (x, _) => x % p256N == r

end Sys2Proof.Machine
end

