-- ==== Sys2Proof/Machine/Param.lean ====
section
/-! DEFINITION. The parameter store (16_parameter_store.md): record copies and their winner, spread counters, the
shadow, kept copies, write admission, persisted configurations, and the PARAM commands. -/

namespace Sys2Proof.Machine

/-! ### Records (R432 to R436) -/

/-- Copy B of record n, or copy A (R428). -/
def copyAddr (recno : Nat) (copyA : Bool) : Nat := 512 * recno + if copyA then 256 else 0

def recCopy (st : Memory) (recno : Nat) (copyA : Bool) : List Byte := memReadN 0 st (copyAddr recno copyA) 256

/-- A copy is valid: CRC, own RECNO, LEN and reserved bits (R432). -/
def copyValid (recno : Nat) (c : List Byte) : Bool :=
  byteAt c 7 == 0 && byteAt c 5 / 2 == 0 && decide (byteAt c 6 ≤ 240) && rd c 0 2 == recno &&
    rd c 252 4 == (crc32 (c.take 252)).toNat

/-- Serial arithmetic: x is higher than y (R433). -/
def seqHigher (x y : Nat) : Bool := inRange 1 (2 ^ 31 - 1) ((x + 2 ^ 32 - y) % 2 ^ 32)

def copySeq (c : List Byte) : Nat := rd c 8 4

/-- Two copies agree in bytes 0 to 7 and 12 to 251 (R433). -/
def copySame (a b : List Byte) : Bool :=
  a.take 8 == b.take 8 && (a.drop 12).take 240 == (b.drop 12).take 240

inductive RecState where
  | empty | lost | valid | conflict
  deriving DecidableEq, Repr

/-- The state of a record, the copy a read returns and the copy to be repaired (true: A), by the rows of R435. -/
def recState (st : Memory) (recno : Nat) : RecState × List Byte × Option Bool :=
  let b := recCopy st recno false
  let a := recCopy st recno true
  match copyValid recno b, copyValid recno a with
  | false, false => if allZero a && allZero b then (.empty, [], none) else (.lost, [], none)
  | true, false => (.valid, b, some true)
  | false, true => (.valid, a, some false)
  | true, true =>
    if seqHigher (copySeq b) (copySeq a) then (.valid, b, some true)
    else if seqHigher (copySeq a) (copySeq b) then (.valid, a, some false)
    else if copySame a b then (.valid, a, none)
    else (.conflict, a, none)

/-- A copy with its CRC (R432). -/
def mkCopy (recno type fmt : Nat) (config : Bool) (payload : List Byte) (seq : Nat) : List Byte :=
  let body := padTo 252 (le 2 recno ++ le 2 type ++ le 1 fmt ++ le 1 (b2n config) ++ le 1 payload.length ++ [0]
    ++ le 4 seq ++ payload)
  body ++ le 4 (crc32 body).toNat

/-- The sequence number of the next write (R434). -/
def nextSeq (st : Memory) (recno : Nat) : Nat :=
  match recState st recno with
  | (.valid, w, _) => (copySeq w + 1) % 2 ^ 32
  | (.conflict, w, _) => (copySeq w + 1) % 2 ^ 32
  | _ => 1

/-- The ordered write of R434: copy B, then copy A. -/
def recWrite (st : Memory) (recno type fmt : Nat) (config : Bool) (payload : List Byte) : Memory :=
  let c := mkCopy recno type fmt config payload (nextSeq st recno)
  memWriteN 0 (memWriteN 0 st (copyAddr recno false) c) (copyAddr recno true) c

def recDelete (st : Memory) (recno : Nat) : Memory :=
  let z := List.replicate 256 0
  memWriteN 0 (memWriteN 0 st (copyAddr recno false) z) (copyAddr recno true) z

/-- The repair of R435: the winning copy over the other one, keeping its SEQ. -/
def recRepair (st : Memory) (recno : Nat) : Memory :=
  match recState st recno with
  | (.valid, w, some toA) => memWriteN 0 st (copyAddr recno toA) w
  | _ => st

/-- The payload a read returns. -/
def recPayload (st : Memory) (recno : Nat) : Option (List Byte) :=
  match recState st recno with
  | (.valid, w, _) => some ((w.drop 12).take (byteAt w 6))
  | (.conflict, w, _) => some ((w.drop 12).take (byteAt w 6))
  | _ => none

/-! ### Persisted configurations (R429, R431, R445)

The spec gives records 19 to 191 to the persisted configurations and leaves their use to the firmware.  DESIGN CHOICE
(log entry 10): the row of this table with a command's opcode gives the first record, the bytes of one object (a 1
that marks it as written, then the request's fields) and how many objects a record holds. -/

structure PersistRow where
  opc : Nat
  base : Nat
  size : Nat
  per : Nat
  deriving DecidableEq, Repr

def persistTable : List PersistRow :=
  [⟨0x0105, 19, 9, 1⟩, ⟨0x0202, 20, 22, 1⟩, ⟨0x1201, 21, 21, 1⟩, ⟨0x1302, 22, 9, 1⟩, ⟨0x4801, 23, 9, 1⟩,
   ⟨0x4401, 24, 25, 1⟩, ⟨0x6806, 25, 9, 1⟩, ⟨0x5001, 26, 33, 1⟩, ⟨0x5002, 27, 37, 2⟩, ⟨0x2801, 28, 45, 1⟩,
   ⟨0x2809, 29, 5, 1⟩] ++
  [⟨0x3801, 30, 13, 8⟩, ⟨0x3805, 31, 9, 8⟩, ⟨0x4001, 32, 33, 4⟩, ⟨0x4007, 34, 13, 2⟩,
   ⟨0x4009, 35, 17, 1⟩, ⟨0x580E, 36, 9, 1⟩, ⟨0x6005, 37, 9, 1⟩, ⟨0x2002, 38, 9, 4⟩, ⟨0x1101, 39, 25, 4⟩] ++
  [⟨0x1001, 40, 34, 7⟩, ⟨0x1202, 47, 13, 18⟩, ⟨0x1301, 51, 17, 14⟩, ⟨0x2001, 55, 49, 4⟩, ⟨0x3001, 58, 21, 11⟩,
   ⟨0x3005, 61, 13, 16⟩, ⟨0x2804, 62, 209, 1⟩, ⟨0x2805, 70, 65, 3⟩, ⟨0x4006, 80, 225, 1⟩, ⟨0x5003, 154, 49, 4⟩,
   ⟨0x4404, 162, 81, 2⟩] ++
  [⟨0x4405, 166, 47, 3⟩, ⟨0x2806, 174, 240, 1⟩]

/-- The record and the offset in its payload of an object's persisted configuration, and its size. -/
def persistSlot (opc obj : Nat) : Option (Nat × Nat × Nat) :=
  (persistTable.find? (fun r => r.opc == opc)).map fun r => (r.base + obj / r.per, obj % r.per * r.size, r.size)

/-- The highest FMT this firmware supports (R445). -/
def supportedFmt : Nat := 1

/-- The record's winning copy has a format that this firmware does not know (R445). -/
def tooNew (st : Memory) (recno : Nat) : Bool :=
  let r := recState st recno
  (r.1 == .valid || r.1 == .conflict) && decide (supportedFmt < byteAt r.2.1 4)

/-- Writes an object's configuration into its record, leaving the record's other objects but for those of a format that is
too new, which the record gives up for this firmware's own. -/
def configWrite (st : Memory) (opc obj : Nat) (payload : List Byte) : Memory :=
  match persistSlot opc obj with
  | none => st
  | some (recno, off, size) =>
    let old := padTo 240 (if tooNew st recno then [] else (recPayload st recno).getD [])
    recWrite st recno opc supportedFmt true (splice old off (padTo size (1 :: payload)))

/-- The persisted fields of an object; none when nothing is persisted or the format is too new (R445). -/
def configRead (st : Memory) (opc obj : Nat) : Option (List Byte) :=
  match persistSlot opc obj with
  | none => none
  | some (recno, off, size) =>
    match recState st recno with
    | (.empty, _, _) => none
    | (.lost, _, _) => none
    | (_, w, _) =>
      if supportedFmt < byteAt w 4 then none
      else
        let p := ((w.drop 12).drop off).take size
        if byteAt p 0 == 1 then some (p.drop 1) else none

/-! ### Spread counters (R437 to R439) -/

def cellAddr (i : Nat) : Nat := 0x50000 + 16 * i

def cellBytes (value cseq cnt : Nat) : List Byte :=
  let body := le 4 value ++ le 4 cseq ++ le 2 cnt ++ le 2 0
  body ++ le 4 (crc32 body).toNat

def cellValid (cnt : Nat) (c : List Byte) : Bool :=
  rd c 12 4 == (crc32 (c.take 12)).toNat && rd c 8 2 == cnt

/-- Where a counter's cells lie: counters 0 to 15 have 16 cells each from cell 0, the others as defined. -/
def counterDef (defs : List CounterDef) (cnt : Nat) : Option CounterDef :=
  if cnt < 16 then some { cnt := cnt, first := 16 * cnt, n := 16 }
  else defs.find? (fun d => d.cnt == cnt)

/-- The valid cells of a counter as (index in the run, VALUE, CSEQ). -/
def counterCells (st : Memory) (d : CounterDef) : List (Nat × Nat × Nat) :=
  (List.range d.n).filterMap fun i =>
    let c := memReadN 0 st (cellAddr (d.first + i)) 16
    if cellValid d.cnt c then some (i, rd c 0 4, rd c 4 4) else none

/-- The valid cell with the highest CSEQ (R438). -/
def counterTop (st : Memory) (d : CounterDef) : Option (Nat × Nat × Nat) :=
  (counterCells st d).foldl (fun best c =>
    match best with
    | none => some c
    | some b => if seqHigher c.2.2 b.2.2 then some c else some b) none

def counterValue (st : Memory) (d : CounterDef) : Nat := ((counterTop st d).map (·.2.1)).getD 0

/-- Writes the next cell of the run with the value f gives (R438). -/
def counterNext (st : Memory) (d : CounterDef) (f : Nat → Nat) : Memory :=
  let (i, v, s) := (counterTop st d).getD (d.n - 1, 0, 0)
  memWriteN 0 st (cellAddr (d.first + (i + 1) % d.n)) (cellBytes (f v) ((s + 1) % 2 ^ 32) d.cnt)

def counterAdd (st : Memory) (d : CounterDef) (n : Nat) : Memory :=
  counterNext st d fun v => min (v + n) 0xFFFFFFFF

def counterClear (st : Memory) (d : CounterDef) : Memory := counterNext st d fun _ => 0

/-- The first run of n free cells for an application counter, from cell 256 upwards (DESIGN CHOICE, log entry 11). -/
def freeRun (defs : List CounterDef) (n : Nat) : Option Nat :=
  (List.range (4096 - 256 + 1 - n)).findSome? fun i =>
    let first := 256 + i
    if defs.all (fun d => first + n ≤ d.first || d.first + d.n ≤ first) then some first else none

/-! ### The journal header, the shadow and kept copies (R440 to R446) -/

def hdrAddr (copyA : Bool) : Nat := if copyA then 0x78420 else 0x78400

def hdrCopy (st : Memory) (copyA : Bool) : List Byte := memReadN 0 st (hdrAddr copyA) 32

def hdrValid (c : List Byte) : Bool :=
  allZero ((c.drop 11).take 13) && rd c 28 4 == (crc32 (c.take 28)).toNat

/-- The header copy that counts, by the rows of R435. -/
def hdrRead (st : Memory) : Option (List Byte) :=
  let b := hdrCopy st false
  let a := hdrCopy st true
  match hdrValid b && !allZero b, hdrValid a && !allZero a with
  | false, false => none
  | true, false => some b
  | false, true => some a
  | true, true => if seqHigher (rd b 24 4) (rd a 24 4) then some b else some a

/-- The header copy to be repaired. -/
def hdrRepairNeed (st : Memory) : Option Bool :=
  let b := hdrCopy st false
  let a := hdrCopy st true
  match hdrRead st with
  | none => none
  | some w => if a != w then some true else if b != w then some false else none

def hdrEpoch (st : Memory) : Nat := ((hdrRead st).map fun c => rd c 4 4).getD 0
def hdrPages (st : Memory) : Nat := ((hdrRead st).map fun c => rd c 8 2).getD 0
def ledgerOpen (st : Memory) : Bool := ((hdrRead st).map fun c => byteAt c 10 == 1).getD false

def hdrWrite (st : Memory) (epoch pages : Nat) (isOpen : Bool) : Memory :=
  let seq := ((hdrRead st).map fun c => (rd c 24 4 + 1) % 2 ^ 32).getD 1
  let body := padTo 24 (le 4 1 ++ le 4 epoch ++ le 2 pages ++ le 1 (b2n isOpen)) ++ le 4 seq
  let c := body ++ le 4 (crc32 body).toNat
  memWriteN 0 (memWriteN 0 st (hdrAddr false) c) (hdrAddr true) c

/-- The pages of the shadow (R440). -/
def shadowPages (app : Nat) : Nat := (4096 + app + 255) / 256

/-- A complete save (R441): pages, index entries, header. -/
def shadowWrite (st : Memory) (image : List Byte) : Memory :=
  let e := (hdrEpoch st + 1) % 2 ^ 32
  let pages := chunks 256 image
  let st := ((List.range pages.length).zip pages).foldl (fun st (p : Nat × List Byte) =>
    memWriteN 0 (memWriteN 0 st (0x70000 + 256 * p.1) p.2) (0x78000 + 8 * p.1)
      (le 4 e ++ le 4 (crc32 p.2).toNat)) st
  hdrWrite st e pages.length (ledgerOpen st)

/-- Page i of the saved shadow, with whether its CRC is good and its epoch. -/
def shadowPage (st : Memory) (i : Nat) : List Byte × Bool × Nat :=
  let p := memReadN 0 st (0x70000 + 256 * i) 256
  let ix := memReadN 0 st (0x78000 + 8 * i) 8
  (p, rd ix 4 4 == (crc32 p).toNat, rd ix 0 4)

/-- What a load finds (R442): the image with bad pages zeroed, the cause and the pages concerned. -/
def shadowLoad (st : Memory) (app : Nat) : List Byte × Nat × Nat :=
  let want := shadowPages app
  let have_ := min (hdrPages st) want
  let got := (List.range have_).map (shadowPage st)
  let bad := got.countP fun p => !p.2.1
  let mixed := got.any fun p => p.2.2 == (hdrEpoch st + 1) % 2 ^ 32
  let image := padTo (256 * want) (got.flatMap fun p => if p.2.1 then p.1 else List.replicate 256 0)
  if hdrPages st != want then (image, 4, have_)
  else if bad != 0 then (image, 3, bad)
  else if mixed then (image, 2, have_)
  else (image, 1, have_)

def ledgerAddr (i : Nat) : Nat := 0x78800 + 8 * i

/-- The ledger's entries in use as (entry, RECNO, slot, old FMT). -/
def ledgerEntries (st : Memory) : List (Nat × Nat × Nat × Nat) :=
  (List.range 256).filterMap fun i =>
    let e := memReadN 0 st (ledgerAddr i) 8
    if allZero e then none
    else if rd e 4 4 == (crc32 (e.take 4)).toNat then some (i, rd e 0 2, byteAt e 2, byteAt e 3) else none

/-- Copies a record's winning copy into a free slot and lists it (R443). -/
def keepRecord (st : Memory) (recno : Nat) : Memory :=
  let es := ledgerEntries st
  if es.any (fun e => e.2.1 == recno) then st
  else
    match recState st recno, (List.range 256).find? (fun s => es.all fun e => e.2.2.1 != s),
      (List.range 256).find? (fun i => es.all fun e => e.1 != i) with
    | (.valid, w, _), some slot, some i =>
      let ent := le 2 recno ++ le 1 slot ++ le 1 (byteAt w 4)
      memWriteN 0 (memWriteN 0 st (0x60000 + 256 * slot) w) (ledgerAddr i) (ent ++ le 4 (crc32 ent).toNat)
    | (.conflict, w, _), some slot, some i =>
      let ent := le 2 recno ++ le 1 slot ++ le 1 (byteAt w 4)
      memWriteN 0 (memWriteN 0 st (0x60000 + 256 * slot) w) (ledgerAddr i) (ent ++ le 4 (crc32 ent).toNat)
    | _, _, _ => st

/-- Frees every kept slot and closes the ledger (R444). -/
def releaseKept (st : Memory) : Memory :=
  let st := (ledgerEntries st).foldl (fun st e =>
    memWriteN 0 (memWriteN 0 st (0x60000 + 256 * e.2.2.1) (List.replicate 256 0)) (ledgerAddr e.1)
      (List.replicate 8 0)) st
  hdrWrite st (hdrEpoch st) (hdrPages st) false

/-- Writes each listed record back from its kept copy with a new SEQ, then frees the slots (R444). -/
def restoreKept (st : Memory) : Memory :=
  releaseKept ((ledgerEntries st).foldl (fun st e =>
    let w := memReadN 0 st (0x60000 + 256 * e.2.2.1) 256
    recWrite st e.2.1 (rd w 2 2) (byteAt w 4) (bit (byteAt w 5) 0) ((w.drop 12).take (byteAt w 6))) st)

def openLedger (st : Memory) : Memory := hdrWrite st (hdrEpoch st) (hdrPages st) true

/-- CFG_DIGEST (R447). -/
def cfgDigest (st : Memory) : List Byte :=
  sha256 ((List.range 640).flatMap fun n =>
    match recState st n with
    | (.valid, w, _) => if bit (byteAt w 5) 0 then le 2 n ++ (w.drop 4).take 1 ++ (w.drop 6).take 1
        ++ (w.drop 12).take (byteAt w 6) else []
    | (.conflict, w, _) => if bit (byteAt w 5) 0 then le 2 n ++ (w.drop 4).take 1 ++ (w.drop 6).take 1
        ++ (w.drop 12).take (byteAt w 6) else []
    | _ => [])

/-! ### Hold-up energy and write admission (R43, R430, R431) -/

/-- e_avail in uJ from C_MEAS in uF and VHOLD in mV: 0.8 * 0.5 * C * (V^2 - 9^2). -/
def eAvailOf (c mv : Nat) : Nat := if mv ≤ 9000 then 0 else c * (mv * mv - 81000000) * 4 / 10000000

/-- The pages a unit counts in pages_in_progress. -/
def UnitKind.pages (app : Nat) : UnitKind → Nat
  | .record .. => 2 | .config .. => 2 | .delete _ => 2 | .shadow => shadowPages app | .keep _ => 2
  | .assayed .. => 4 | _ => 1

def Live.pagesInProgress (l : Live) : Nat :=
  match l.param.active with
  | none => 0
  | some u => u.kind.pages l.param.shadowApp

/-- e_reserve in uJ with so many pages in progress. -/
def eReserveOf (app pages : Nat) : Nat := 600 + 12 * shadowPages app + 12 * pages + 1000

/-- The capacitance used: C_MEAS, or 50 uF before the first measurement (R42). -/
def Live.cUsed (l : Live) : Nat := l.pwr.cMeas.getD 50

/-- VBAT: the lowest of VBAT_L and of the supply groups present (R37), over a list of five voltages. -/
def vbatOf (present : List Bool) (v : List Nat) : Nat :=
  ((List.range 4).filter (fun g => present.getD g false)).foldl (fun m g => min m (v.getD g 0)) (v.getD 4 0)

def Live.vbat (l : Live) : Nat := vbatOf l.pwr.present l.pwr.vbat

/-- Why a unit of so many pages is not admitted now, as the cause of EV_PARAM_DEFERRED: 3 drain, 1 sag, 2 VBAT_L,
0 energy (R430, R448, R449). -/
def Live.blocked (l : Live) (pages : Nat) : Option Nat :=
  if !l.commandLayer || decide (4 ≤ l.pwr.drain.step) then some 3
  else if l.pwr.sag.active && decide (l.pwr.sag.undo < 2) then some 1
  else if l.pwr.holdup || l.pwr.vlGoodSince.any (fun t => l.mt.now < t + ms 5 || decide (l.pwr.vbat.getD 4 0 ≤ 6000)) then some 2
  else if l.vbat ≤ l.pwr.cfg.warnMv then some 0
  else if l.pwr.eAvail < eReserveOf l.param.shadowApp (l.pagesInProgress + pages) + 12 then some 0
  else none

/-- Puts a unit at the end of the queue. -/
def Live.enqueue (l : Live) (kind : UnitKind) (owner : Option MbRef) (resp : List Byte) (last : Bool) : Live :=
  { l with param := { l.param with queue := l.param.queue ++
      [{ kind := kind, owner := owner, resp := resp, last := last, force := false, since := l.mt.now }] } }

/-- Persists a configuration for a command, which completes with the unit (R431). -/
def Live.persist (l : Live) (m : MbRef) (opc obj : Nat) (payload : List Byte) : Reply × Live :=
  (.wait, l.enqueue (.config opc obj payload) (some m) [] true)

/-- Persists in the module's own interest, with no command waiting. -/
def Live.persistOwn (l : Live) (opc obj : Nat) (payload : List Byte) : Live :=
  l.enqueue (.config opc obj payload) none [] false

/-- Ends a configuration command: persisted when PERSIST is set, otherwise done at once. -/
def Live.endConfig (l : Live) (m : MbRef) (persist : Bool) (opc obj : Nat) (payload : List Byte) : Reply × Live :=
  if persist then l.persist m opc obj payload else (okReply, l)

/-- Counts a deferral and raises EV_PARAM_DEFERRED at most once per second (R431). -/
def Live.deferral (l : Live) (cause : Nat) : Live :=
  let n := l.param.deferCount + 1
  let l := { l with param := { l.param with deferrals := l.param.deferrals + 1, deferCount := n } }
  if l.param.deferRaised.any (fun t => l.mt.now < t + ms 1000) then l
  else ({ l with param := { l.param with deferCount := 0, deferRaised := some l.mt.now } }).raise 0x1B3 warn cause
    (le 2 (min n 0xFFFF))

/-- Starts a shadow save at once (R45, R51), joining one that runs or waits (R441). -/
def Live.forceShadow (l : Live) : Live :=
  let p := l.param
  if p.active.any (fun u => u.kind == .shadow) then l
  else
    let waiting := p.queue.filter (fun u => u.kind == .shadow)
    let others := p.queue.filter (fun u => u.kind != .shadow)
    let u : WriteUnit := waiting.headD
      { kind := .shadow, owner := none, resp := [], last := true, force := true, since := l.mt.now }
    { l with param := { p with queue := { u with force := true } :: others } }

/-- The shadow image: the module window, then the application window (R440). -/
def shadowImage (l : Live) (window : List Byte) (app : Memory) : List Byte :=
  padTo 4096 window ++ memReadN 0 app 0x40018000 l.param.shadowApp

/-- What a unit writes into the store. -/
def UnitKind.apply (image : List Byte) (k : Kept) : UnitKind → Kept
  | .record n t f c p => { k with store := recWrite k.store n t f c p }
  | .config o i p => { k with store := configWrite k.store o i p }
  | .delete n => { k with store := recDelete k.store n }
  | .add c d => match counterDef k.counters c with
    | none => k
    | some cd => { k with store := counterAdd k.store cd d }
  | .clear c => match counterDef k.counters c with
    | none => k
    | some cd => { k with store := counterClear k.store cd }
  | .cell i b => { k with store := memWriteN 0 k.store (cellAddr i) b }
  | .define c first n => { k with counters := k.counters ++ [{ cnt := c, first := first, n := n }] }
  | .remove c => { k with counters := k.counters.filter (fun d => d.cnt != c) }
  | .shadow => { k with store := shadowWrite k.store image }
  | .repair n _ => { k with store := if n == 0xFFFF then
      (match hdrRead k.store with
       | some w => memWriteN 0 (memWriteN 0 k.store (hdrAddr false) w) (hdrAddr true) w
       | none => k.store) else recRepair k.store n }
  | .zero off => { k with store := memWriteN 0 k.store off (List.replicate 256 0) }
  | .keep n => { k with store := keepRecord k.store n }
  | .erased scope => { k with counters := k.counters.filter fun d => !(bit scope 1 && decide (64 ≤ d.cnt)) }
  | .assayed kind epoch =>
    let st := recWrite k.store 17 0 1 false [0, 0]
    let eps := padTo 6 ((recPayload st 18).getD [])
    let st := recWrite st 18 0 1 false (splice eps (2 * kind) (le 2 (max (rd eps (2 * kind) 2) epoch)))
    { k with store := releaseKept st, updPending := none }

/-- Completes the commands that a finished unit belongs to. -/
def Live.unitDone (l : Live) (u : WriteUnit) (resp : List Byte) : Live :=
  let l := match u.owner with
    | some m => if u.last then l.complete m .ok 0 resp else l
    | none => l
  { l with param := { l.param with active := none, writes := l.param.writes + 1 } }

/-- The response of a counter command after its write (PARAM.COUNTER). -/
def counterReply (st : Memory) (d : CounterDef) : List Byte :=
  let top := (counterTop st d).getD (0, 0, 0)
  le 4 top.2.1 ++ le 4 top.2.2 ++ le 1 d.n ++ le 1 (counterCells st d).length ++ le 2 0

/-- The response payload that a finished unit gives its command. -/
def unitReply (k : Kept) (u : WriteUnit) : List Byte :=
  match u.kind with
  | .record n _ _ _ _ => (match recState k.store n with
    | (_, w, _) => le 4 (copySeq w))
  | .add c _ => ((counterDef k.counters c).map (counterReply k.store)).getD []
  | .clear c => ((counterDef k.counters c).map (counterReply k.store)).getD []
  | .define c _ _ => ((counterDef k.counters c).map (counterReply k.store)).getD []
  | .remove _ => List.replicate 12 0
  | _ => u.resp

/-- Counter events of a unit about to be written: an add that saturates (R438). -/
def Live.unitEvents (l : Live) (k : Kept) (u : WriteUnit) : Live :=
  match u.kind with
  | .add c d => (match counterDef k.counters c with
    | none => l
    | some cd => if 0xFFFFFFFF ≤ counterValue k.store cd + d ∧ counterValue k.store cd < 0xFFFFFFFF
        then l.raise 0x1B5 warn 0 (le 1 c) else l)
  | .erased scope => l.raise 0x1B8 notice 0 (le 1 scope)
  | .assayed kind _ =>
    let n := fun c => ((counterDef k.counters c).map (counterValue k.store)).getD 0
    (l.raise 0x1C3 notice 1 (le 1 kind ++ le 1 (n 12) ++ le 2 (n 13))).raise 0x1B6 notice 1
      (le 2 (ledgerEntries k.store).length)
  | _ => l

/-! ### Checks at a start and at a read (R435, R436, R445) -/

/-- Whether a unit that repairs this record already waits. -/
def Live.repairWaits (l : Live) (recno : Nat) : Bool :=
  (l.param.queue ++ l.param.active.toList).any fun u =>
    match u.kind with
    | .repair n _ => n == recno
    | _ => false

/-- EV_PARAM_CONFLICT at most once per second per record (R436). -/
def Live.conflictSeen (l : Live) (recno seq : Nat) : Live :=
  if l.param.conflictRaised.any (fun c => c.1 == recno && decide (l.mt.now < c.2 + ms 1000)) then l
  else ({ l with param := { l.param with conflictRaised :=
      (recno, l.mt.now) :: l.param.conflictRaised.filter (fun c => c.1 != recno) } }).raise 0x1B0 warn 0
      (le 2 recno ++ le 4 seq)

/-- The check of one record: its events, and a repair where a copy is to be repaired. -/
def Live.checkRecord (l : Live) (st : Memory) (recno : Nat) : Live :=
  match recState st recno with
  | (.empty, _, _) => l
  | (.lost, _, _) => l.raise 0x1B2 sevFault 0 (le 2 recno)
  | (.conflict, w, _) => l.conflictSeen recno (copySeq w)
  | (.valid, _, some toA) => if l.repairWaits recno then l else l.enqueue (.repair recno toA) none [] false
  | (.valid, _, none) => l

/-- The check of every record at a logic start (R435); module records of a newer format raise EV_PARAM_FORMAT (R445). -/
def Live.checkStore (l : Live) (st : Memory) : Live :=
  let l := (List.range 640).foldl (fun l n => l.checkRecord st n) l
  let l := ((List.range 173).map (· + 19)).foldl (fun l n =>
    match recState st n with
    | (.valid, w, _) => if supportedFmt < byteAt w 4
        then l.raise 0x1B7 warn 0 (le 2 n ++ le 1 (byteAt w 4) ++ le 1 supportedFmt) else l
    | _ => l) l
  match hdrRepairNeed st with
  | some toA => if l.repairWaits 0xFFFF then l else l.enqueue (.repair 0xFFFF toA) none [] false
  | none => l

/-! ### Rows of time: admission and completion of write units -/

/-- WRITE_UNIT_ADMITTED (R430): the first waiting unit is admitted when nothing blocks it. -/
def admitUnit (l : Live) : Live :=
  match l.param.active, l.param.queue with
  | none, u :: rest =>
    if u.force || (l.blocked (u.kind.pages l.param.shadowApp)).isNone
    then { l with param := { l.param with active := some u, queue := rest } } else l
  | _, _ => l

def execWriteUnitAdmitted (s : State) : Result := .next (s.onLogic admitUnit)

/-- ADMISSION_WAIT_EXPIRY (R431, R448): a command whose unit has waited 40 ms, or meets drain step 4, completes with
NVM_DEFERRED, and its units are dropped. -/
def admissionExpiry (l : Live) : Live :=
  match l.param.queue.find? (fun u => u.owner.isSome && (decide (u.since + ms 40 ≤ l.mt.now) ||
      decide (4 ≤ l.pwr.drain.step)) && !u.force) with
  | none => l
  | some u =>
    let cause := (l.blocked (u.kind.pages l.param.shadowApp)).getD 0
    let l := { l with param := { l.param with
      queue := l.param.queue.filter (fun x => x.owner != u.owner),
      lastSave := if u.kind == UnitKind.shadow then 2 else l.param.lastSave } }
    let l := match u.owner with
      | some m => l.complete m .nvmDeferred 0 []
      | none => l
    l.deferral cause

def execAdmissionWaitExpiry (s : State) : Result := .next (s.onLogic admissionExpiry)

/-- RECORD_WRITE_DONE (R434, R438): the active unit's last page is durable, and its command completes. -/
def recordWriteDone (s : State) : State :=
  match s.live.param.active with
  | none => s
  | some u =>
    match u.kind with
    | .shadow => s
    | .repair _ _ => s
    | kind =>
      let l := s.live.unitEvents s.kept u
      let k := kind.apply [] s.kept
      { s with kept := k, live := l.unitDone u (unitReply k u) }

def execRecordWriteDone (s : State) : Result := .next (recordWriteDone s)

/-- REPAIR_DONE (R435): the repair is durable; EV_PARAM_REPAIRED names the copy. -/
def repairDone (s : State) : State :=
  match s.live.param.active with
  | none => s
  | some u =>
    match u.kind with
    | .repair n toA =>
      let k := u.kind.apply [] s.kept
      let l := s.live.unitDone u []
      let l := { l with param := { l.param with repairs := l.param.repairs + 1 } }
      let seq := if n == 0xFFFF then ((hdrRead k.store).map fun c => rd c 24 4).getD 0
        else (match recState k.store n with | (_, w, _) => copySeq w)
      let l := l.raise 0x1B1 notice (if n == 0xFFFF then 2 else if toA then 0 else 1)
        (le 2 (if n == 0xFFFF then 0 else n) ++ le 4 seq)
      { s with kept := k, live := l }
    | _ => s

def execRepairDone (s : State) : Result := .next (repairDone s)

/-! ### The PARAM commands -/

/-- A request whose bytes from off, n of them, must be reserved zeros (R7). -/
def resv (b : Mailbox) (off n : Nat) : Nat × Bool := (off, allZero ((b.payload.drop off).take n))

/-- PARAM.READ. -/
def paramRead (b : Mailbox) (s : State) : Reply × State :=
  let n := rd b.payload 0 2
  checked [(0, decide (n ≤ 639)), resv b 2 2]
    (let s := s.onLive fun l => l.checkRecord s.kept.store n
     let answer := fun (st d : Nat) (w : List Byte) => Reply.done .ok d (le 1 st ++ (w.drop 4).take 1 ++ (w.drop 6).take 1
        ++ (w.drop 5).take 1 ++ (w.drop 2).take 2 ++ le 2 0 ++ (w.drop 8).take 4 ++ le 4 0
        ++ (w.drop 12).take (byteAt w 6))
     match recState s.kept.store n with
     | (.empty, _, _) => (refuse .state 0x01, s)
     | (.lost, _, _) => (refuse .state 0x02, s)
     | (.valid, w, _) => (answer 0 0 w, s)
     | (.conflict, w, _) => (answer 1 1 w, s))
    fun r => (r, s)

def execParamRead (s : State) : Result := .next (s.commandK 0x6001 fun _ b s => paramRead b s)

/-- PARAM.WRITE (R429, R434, R443): KEEP with the ledger closed gives STATE, a module record LOCKED, no free slot BUSY. -/
def paramWrite (m : MbRef) (b : Mailbox) (s : State) : Reply × State :=
  let p := b.payload
  let n := rd p 0 2
  let keep := bit (byteAt p 6) 1
  checked [(0, decide (n ≤ 639)), (5, decide (byteAt p 5 ≤ 240)), (6, decide (byteAt p 6 < 4)), resv b 7 1]
    (if keep && !ledgerOpen s.kept.store then (refuse .state 0x03, s)
     else if n < 256 then (refuse .locked 0x01, s)
     else if keep && (ledgerEntries s.kept.store).all (fun e => e.2.1 != n)
        && decide (256 ≤ (ledgerEntries s.kept.store).length) then (refuse .busy 0x04, s)
     else
       let l := if keep then s.live.enqueue (.keep n) (some m) [] false else s.live
       (.wait, { s with live := l.enqueue (.record n (rd p 2 2) (byteAt p 4) (bit (byteAt p 6) 0)
         ((p.drop 8).take (byteAt p 5))) (some m) [] true }))
    fun r => (r, s)

def execParamWrite (s : State) : Result := .next (s.commandK 0x6002 fun m b s => paramWrite m b s)

/-- PARAM.DELETE. -/
def paramDelete (m : MbRef) (b : Mailbox) (l : Live) : Reply × Live :=
  let n := rd b.payload 0 2
  checked [(0, decide (n ≤ 639)), resv b 2 2]
    (if n < 256 then (refuse .locked 0x01, l) else (.wait, l.enqueue (.delete n) (some m) [] true))
    fun r => (r, l)

def execParamDelete (s : State) : Result := .next (s.command 0x6003 fun m b l => paramDelete m b l)

/-- The counters defined, with those whose DEFINE still waits. -/
def Live.counterDefs (l : Live) (defs : List CounterDef) : List CounterDef :=
  defs ++ (l.param.queue ++ l.param.active.toList).filterMap fun u =>
    match u.kind with
    | .define c f n => some { cnt := c, first := f, n := n }
    | _ => none

/-- PARAM.COUNTER (R438): the counter's state before LOCKED, under check 6 of R74. -/
def paramCounter (m : MbRef) (b : Mailbox) (s : State) : Reply × State :=
  let p := b.payload
  let op := byteAt p 0
  let c := byteAt p 1
  let n := byteAt p 2
  let d := rd p 4 4
  checked [(0, decide (op ≤ 4)), (2, if op = 3 then inRange 4 64 n else n == 0), resv b 3 1,
      (4, if op = 1 then inRange 1 65535 d else d == 0)]
    (match counterDef (s.live.counterDefs s.kept.counters) c with
     | none =>
       if op ≠ 3 then (refuse .state, s)
       else if c < 64 then (refuse .locked 0x01, s)
       else match freeRun (s.live.counterDefs s.kept.counters) n with
         | none => (refuse .busy, s)
         | some first =>
           let l := (List.range n).foldl (fun l k =>
             l.enqueue (.cell (first + k) (cellBytes 0 k c)) (some m) [] false) s.live
           (.wait, { s with live := l.enqueue (.define c first n) (some m) [] true })
     | some cd =>
       if op = 3 then (refuse .state, s)
       else if op = 0 then
         let s := if (counterCells s.kept.store cd).isEmpty then s.onLive fun l => l.raise 0x1B5 warn 1 (le 1 c) else s
         (.done .ok 0 (counterReply s.kept.store cd), s)
       else if c < 64 then (refuse .locked 0x01, s)
       else
         let kind := if op = 1 then UnitKind.add c d else if op = 2 then .clear c else .remove c
         (.wait, { s with live := s.live.enqueue kind (some m) [] true }))
    fun r => (r, s)

def execParamCounter (s : State) : Result := .next (s.commandK 0x6004 fun m b s => paramCounter m b s)

/-- PARAM.SHADOW (R440, R441). -/
def paramShadow (m : MbRef) (b : Mailbox) (s : State) : Reply × State :=
  let p := b.payload
  let op := byteAt p 0
  let off := rd p 2 2
  let n := rd p 4 2
  let l := s.live
  let app := l.param.shadowApp
  let saving := l.param.active.any fun u => u.kind == .shadow
  let rw := op == 1 || op == 2
  checked [(0, decide (op ≤ 4)), resv b 1 1, (2, !(rw && inRange 1 480 n) || decide (off + n ≤ app)),
      (4, if rw then inRange 1 480 n else op != 4 || decide (n ≤ 112)), resv b 6 2]
    (match op with
     | 0 => (.done .ok 0 (le 4 (hdrEpoch s.kept.store) ++ le 2 (hdrPages s.kept.store) ++ le 1 l.param.lastLoad
         ++ le 1 l.param.lastSave ++ le 4 (l.param.lastSaveMt / 1000)), s)
     | 1 => (.done .ok 0 (memReadN 0 l.f1.dmem (0x40018000 + off) n), s)
     | 2 => (okReply, s.onLive fun l => { l with f1 := { l.f1 with
         dmem := memWriteN 0 l.f1.dmem (0x40018000 + off) ((p.drop 8).take n) } })
     | 3 =>
       if saving then (.wait, s.onLive fun l => { l with param := { l.param with joined := l.param.joined ++ [m] } })
       else (.wait, s.onLive fun l => l.enqueue .shadow (some m) [] true)
     | _ =>
       if saving then (refuse .state, s)
       else
         let l := { l with param := { l.param with shadowApp := 256 * n } }
         let r := l.persist m 0x6005 0 (le 4 (256 * n))
         (r.1, { s with live := r.2 }))
    fun r => (r, s)

def execParamShadow (s : State) : Result := .next (s.commandK 0x6005 fun m b s => paramShadow m b s)

def countRecords (st : Memory) (x : RecState) : Nat := (List.range 640).countP fun n => (recState st n).1 == x

/-- PARAM.STATUS (R447). -/
def paramStatus (s : State) : Reply :=
  let st := s.kept.store
  let defs := s.kept.counters
  let cells := (defs.map (·.n)).foldl (· + ·) 256
  .done .ok 0 (cfgDigest st ++ le 2 (640 - countRecords st .empty) ++ le 2 (countRecords st .conflict)
    ++ le 2 (countRecords st .lost) ++ le 2 (16 + defs.length) ++ le 2 (4096 - cells)
    ++ le 2 (shadowPages s.live.param.shadowApp) ++ le 2 (ledgerEntries st).length ++ le 1 (b2n (ledgerOpen st))
    ++ le 1 0 ++ le 4 s.live.param.writes ++ le 4 s.live.param.deferrals ++ le 4 s.live.param.repairs ++ le 4 0)

def execParamStatus (s : State) : Result := .next (s.commandK 0x6006 fun _ _ s => (paramStatus s, s))

/-- The pages that PARAM.ERASE zeroes for a SCOPE, by offset: application records, application counters, application
shadow pages, module records and counters (R428, R429). -/
def erasePages (scope app : Nat) : List Nat :=
  (if bit scope 0 then (List.range 768).map (fun i => 256 * (512 + i)) else [])
    ++ (if bit scope 1 then (List.range 240).map (fun i => 0x51000 + 256 * i) else [])
    ++ (if bit scope 2 then (List.range (app / 256)).map (fun i => 0x71000 + 256 * i) else [])
    ++ (if bit scope 3 then (List.range 512).map (fun i => 256 * i) ++ (List.range 16).map (fun i => 0x50000 + 256 * i)
        else [])

/-- PARAM.ERASE: one write unit for each page, then the definitions and EV_PARAM_ERASED. -/
def paramErase (m : MbRef) (b : Mailbox) (l : Live) : Reply × Live :=
  let scope := byteAt b.payload 0
  checked [(0, decide (scope < 16)), resv b 1 3]
    (let l := (erasePages scope l.param.shadowApp).foldl (fun l off => l.enqueue (.zero off) (some m) [] false) l
     (.wait, l.enqueue (.erased scope) (some m) [] true))
    fun r => (r, l)

def execParamErase (s : State) : Result := .next (s.command 0x6007 fun m b l => paramErase m b l)

end Sys2Proof.Machine
end

