-- ==== Sys2Proof/Machine/Plan.lean ====
section
/-! DEFINITION. The Planisher (06_planisher_thermal_ledger.md): bookings, envelopes, standing slots and dither, the
placing of sporadic edges, Strike reserve, generations, and the entries of commands that complete one by one. -/

namespace Sys2Proof.Machine

/-! ### Sources (R98, R163, R193, R194, R256) -/

def sourceId : Source → Nat
  | .load c => 0x40 + c
  | .leg l => 0x78 + l
  | .valve v => 0x90 + v
  | .bank b => 0x9C + b
  | .fio c => 0xC0 + c
  | .rows => 0xA0

/-- The supply group of a source: 0 N1, 1 N2, 2 S1, 3 S2. -/
def sourceGroup : Source → Nat
  | .load c => c / 12
  | .leg l => if l < 4 then 0 else if l < 6 then 2 else 3
  | .valve v => if v < 6 then 2 else 3
  | .bank b => if b < 2 then 2 else 3
  | .fio c => if c < 16 then 0 else 1
  | .rows => 2

/-- The power die of a group: 0 PWR-N, 1 PWR-S. -/
def dieOfGroup (g : Nat) : Nat := g / 2

def sourceDie (s : Source) : Nat := dieOfGroup (sourceGroup s)

def outSource : OutRef → Source
  | .load c => .load c
  | .bridge b => .leg b
  | .fio c => .fio c

/-! ### Ticks and envelopes (R160 to R162) -/

def tickNs : Nat := 250
def frameNs : Nat := 1000000

/-- The tick in which an MT lies. -/
def tickOf (mt : Nat) : Nat := mt / tickNs

/-- Rate of an envelope class in 0.1 A/us (R161). -/
def rateOf (cls : Nat) : Nat := [5, 20, 50, 200].getD cls 20

def ceilDiv (a b : Nat) : Nat := (a + b - 1) / b

/-- Ticks that a change of so many 0.1 A occupies at a rate (R162). -/
def rampTicks (delta : Nat) (rate : Nat) : Nat := ceilDiv (4 * delta) rate

/-- The steps of an edge: ticks after its start, change in 0.1 A, rate in 0.1 A/us. -/
abbrev Steps := List (Nat × Int × Nat)

def mkEnvelopes (edge : Nat) (src : Source) (start : Nat) (steps : Steps) : List Envelope :=
  steps.filterMap fun s =>
    if s.2.1 = 0 then none
    else some { edge := edge, src := src, group := sourceGroup src, start := start + s.1,
                ticks := rampTicks s.2.1.natAbs s.2.2, delta := s.2.1, rate := s.2.2 }

/-- What an envelope adds to the booked current on a tick: a rise from its first tick, a fall after its last. -/
def Envelope.at_ (e : Envelope) (u : Nat) : Int :=
  if 0 ≤ e.delta then (if e.start ≤ u then e.delta else 0)
  else if e.start + e.ticks ≤ u then e.delta else 0

def Envelope.occupies (e : Envelope) (u : Nat) : Bool := decide (e.start ≤ u) && decide (u < e.start + e.ticks)

def sumInt (xs : List Int) : Int := xs.foldl (· + ·) 0
def sumNat (xs : List Nat) : Nat := xs.foldl (· + ·) 0

/-- Booked current of a group on a tick, standing slots apart. -/
def Live.envSum (l : Live) (g u : Nat) : Int :=
  sumInt ((l.plan.book.filter fun b => b.2.1 == g).map (·.2.2))
    + sumInt ((l.plan.envs.filter fun e => e.group == g).map (·.at_ u))

/-- What a source has booked in all, once every envelope of it has run. -/
def Live.bookedOf (l : Live) (src : Source) : Int :=
  sumInt ((l.plan.book.filter fun b => b.1 == src).map (·.2.2))
    + sumInt ((l.plan.envs.filter fun e => e.src == src).map (·.delta))

/-- What a source has booked in all, its standing slot included. -/
def Live.bookedNow (l : Live) (src : Source) : Int :=
  l.bookedOf src + sumInt ((l.plan.stand.filter (·.src == src)).map fun s => (s.i : Int))

/-! ### Load channels as the Planisher books them (R97, R105 to R107, R113) -/

/-- 0 heavy, 1 medium, 2 light. -/
def loadClass (n : Nat) : Nat := if n % 24 < 4 then 0 else if n % 24 < 16 then 1 else 2

def parMembers (par : Nat) : Nat := if par = 0 then 1 else if par = 1 then 2 else 4

def LoadCh.members (c : LoadCh) : Nat := parMembers c.cfg.par

/-- Continuous rating in 0.1 A of a channel or group; a heavy quad is bounded by its supply group (R113). -/
def ratingOf (cls par : Nat) : Nat :=
  if cls = 0 then [250, 450, 450].getD par 450 else if cls = 1 then [80, 144].getD par 144 else [25, 45].getD par 45

/-- PWM frequency in Hz of a code (R105). -/
def pwmHz (code : Nat) : Nat := [0, 1, 2, 5, 10, 20, 50, 100, 125, 200, 250, 500, 1000, 2000, 5000].getD code 0

def Live.ch (l : Live) (n : Nat) : LoadCh := l.load.ch.getD n (LoadCh.init n)

def Live.setCh (l : Live) (n : Nat) (f : LoadCh → LoadCh) : Live :=
  { l with load := { l.load with ch := upd l.load.ch n f } }

def LoadCh.lighting (c : LoadCh) : Bool := c.cfg.role == 1 || c.cfg.role == 2

/-- The switch conducts: SLEW, ON or LIMIT. -/
def LoadCh.conducts (c : LoadCh) : Bool :=
  match c.sw with
  | .off => false
  | .clamp => false
  | _ => true

/-- The PWM period in ns; a lighting channel on DC is dimmed at 200 Hz (R107). -/
def LoadCh.period (c : LoadCh) : Nat := 1000000000 / (if c.cfg.freq = 0 then 200 else max 1 (pwmHz c.cfg.freq))

/-- A lighting channel commanded ON that the factors of R107 dim: it runs as PWM. -/
def LoadCh.dimmedOn (c : LoadCh) : Bool := c.lighting && c.cmd == .on && decide (c.duty < 65535)

/-- I_BOOK in 0.1 A. -/
def Live.loadBooked (l : Live) (n : Nat) : Nat :=
  ((l.plan.loadBook.getD n BookCfg.unset).iBook).getD (ratingOf (loadClass n) (l.ch n).cfg.par)

/-- The on-time of a PWM period, to the nearest 25 ns (R106). -/
def onTime (period duty : Nat) : Nat := (2 * (period / 25) * duty + 65535) / 131070 * 25

/-! ### Standing slots and dither (R165, R166) -/

/-- A period shorter than a plan frame that does not divide it is laid from the frame start (R165). -/
def Standing.framed (s : Standing) : Bool := decide (s.period < frameNs) && frameNs % max 1 s.period != 0

/-- The starts in ns of a standing slot's pulses within a frame. -/
def Standing.starts (s : Standing) (frame : Nat) : List Nat :=
  if s.period = 0 then []
  else if s.framed then
    (List.range (ceilDiv (frameNs - s.offset) s.period)).map fun k => frame * frameNs + s.offset + k * s.period
  else
    let k0 := ceilDiv (frame * frameNs - s.offset) s.period
    let k1 := ceilDiv ((frame + 1) * frameNs - s.offset) s.period
    (List.range (k1 - k0)).map fun i => s.offset + (k0 + i) * s.period

/-- The seed in force (R186). -/
def Live.seed (l : Live) : Nat :=
  if l.plan.cfg.seed ≠ 0 then l.plan.cfg.seed
  else
    let d := (Config.serial % 2 ^ 32) ^^^ (Config.serial / 2 ^ 32 % 2 ^ 32)
    if d = 0 then 1 else d

/-- One step of the xorshift generator. -/
def xorshift (x : Word) : Word :=
  let x := x ^^^ (x <<< 13)
  let x := x ^^^ (x >>> 17)
  x ^^^ (x <<< 5)

/-- The first n offsets of a frame. -/
def ditherList (ticks : Nat) : Nat → Word → List Nat
  | 0, _ => []
  | n + 1, x => let y := xorshift x; y.toNat % (ticks + 1) :: ditherList ticks n y

def Live.ditherStart (l : Live) (frame : Nat) : Word :=
  let x := BitVec.ofNat 32 l.seed ^^^ (BitVec.ofNat 32 l.link.position <<< 24) ^^^ BitVec.ofNat 32 frame
  if x = 0 then 1 else x

/-- The sources whose pulses the generator moves: load channels and bridges. -/
def Standing.dithered (s : Standing) : Bool :=
  match s.src with
  | .load _ => true
  | .leg _ => true
  | _ => false

/-- The pulses of a frame in ascending source and period order. -/
def Live.pulses (l : Live) (frame : Nat) : List (Standing × Nat) :=
  (l.plan.stand.filter Standing.dithered).flatMap fun s => (s.starts frame).map fun t => (s, t)

/-- Shortest on-time of a load channel's class in ns (R97). -/
def minOnNs : Source → Nat
  | .load c => if c % 24 < 4 then 100000 else if c % 24 < 16 then 25000 else 5000
  | _ => 0

/-- The offset that fits before the next period (R166). -/
def fitDither (s : Standing) (d : Nat) : Nat := min d ((s.period - s.onNs - minOnNs s.src) / tickNs)

def Live.dithers (l : Live) (frame : Nat) : List Nat :=
  let ps := l.pulses frame
  (ps.zip (ditherList l.plan.cfg.dither ps.length (l.ditherStart frame))).map fun x => fitDither x.1.1 x.2

/-- The dither of the pulse of a slot that starts at an MT. -/
def Live.ditherOf (l : Live) (s : Standing) (t : Nat) : Nat :=
  let frame := t / frameNs
  (((l.pulses frame).zip (l.dithers frame)).find? fun x => x.1.1.src == s.src && x.1.2 == t).elim 0 (·.2)

/-- The ticks by which dither may move a slot's pulses at most. -/
def Standing.reach (dither : Nat) (s : Standing) : Nat := if s.dithered then fitDither s dither else 0

/-- The slot may conduct at an MT, wherever dither moves its pulses. -/
def Standing.onAt (dither : Nat) (s : Standing) (t : Nat) : Bool :=
  let u := if s.framed then t % frameNs else t
  s.period ≠ 0 && s.onNs ≠ 0
    && decide ((u + s.period - s.offset % s.period) % s.period < s.onNs + tickNs * s.reach dither)

/-- The frames after which a set of slots repeats. -/
def slotWindow (ss : List Standing) : Nat :=
  ss.foldl (fun m s => Nat.lcm m (if s.framed then frameNs else max 1 s.period)) frameNs / frameNs

/-- The highest summed booked current of standing slots over their common window, with every reach of dither: taken at every
start. -/
def standPeakOf (dither : Nat) (ss : List Standing) : Nat :=
  let times := (List.range (slotWindow ss)).flatMap fun f => ss.flatMap fun s => s.starts f
  (times.map fun t => sumNat ((ss.filter (·.onAt dither t)).map (·.i))).foldl max 0

def Live.standPeak (l : Live) (g : Nat) : Nat := standPeakOf l.plan.cfg.dither (l.plan.stand.filter (·.group == g))

/-- The edges of a slot in some frames as (first tick, ticks, rate), each over the ticks that dither may move it to; a slot that
conducts throughout its period has none. -/
def slotEdges (dither : Nat) (frames : List Nat) (s : Standing) : List (Nat × Nat × Nat) :=
  if s.onNs = 0 || s.period ≤ s.onNs then []
  else
    let n := rampTicks s.i (rateOf s.cls) + s.reach dither
    (frames.flatMap s.starts).flatMap fun t =>
      [(t / tickNs, n, rateOf s.cls), ((t + s.onNs) / tickNs, n, rateOf s.cls)]

/-- The summed rates of the edges that occupy a tick. -/
def rateOn (es : List (Nat × Nat × Nat)) (u : Nat) : Nat :=
  sumNat ((es.filter fun e => decide (e.1 ≤ u) && decide (u < e.1 + e.2.1)).map (·.2.2))

/-- The ticks from one link cycle boundary to the next, on which a Strike may fall. -/
def cycleTicks : Nat := 500

/-- The di/dt budget holds at every edge of a window, and at every cycle boundary with the Strike reserve on top. -/
def didtHolds (bud reserve : Nat) (es : List (Nat × Nat × Nat)) : Bool :=
  es.all fun e =>
    let b := ceilDiv e.1 cycleTicks * cycleTicks
    decide (rateOn es e.1 ≤ bud) && (decide (e.1 + e.2.1 ≤ b) || decide (rateOn es b + reserve ≤ bud))

/-- The lighting channels commanded ON that run as PWM while they are dimmed (R107): they hold no standing slot, their edges
count. -/
def Live.dimmedSlots (l : Live) (g : Nat) : List Standing :=
  ((List.range 12).map (12 * g + ·)).filterMap fun n =>
    let c := l.ch n
    if c.conducts && c.dimmedOn then
      some { src := .load n, group := g, prio := c.cfg.prio, cls := c.cfg.edgeClass, i := l.loadBooked n,
             period := c.period, offset := 0, onNs := onTime c.period c.duty }
    else none

/-- The on-time of a slot's pulses as its die runs them: a dimmed lighting channel's are shorter than its slot (R107). -/
def Live.actualOn (l : Live) (s : Standing) : Nat :=
  match s.src with
  | .load n => if (l.ch n).lighting && (l.ch n).conducts then min s.onNs (onTime s.period (l.ch n).duty) else s.onNs
  | _ => s.onNs

/-- The dithered standing edges of a group near a tick, as (first tick, ticks, rate); a slot that conducts throughout its
period has none. -/
def Live.standEdges (l : Live) (g u : Nat) : List (Nat × Nat × Nat) :=
  let frame := u * tickNs / frameNs
  let near := [frame - 1, frame].eraseDups
  (l.plan.stand.filter (fun s => s.group == g) ++ l.dimmedSlots g).flatMap fun s =>
    let on := l.actualOn s
    let n := rampTicks s.i (rateOf s.cls)
    let starts := near.flatMap s.starts
    let ends := if s.period ≤ frameNs then starts.map (· + on)
      else near.flatMap { s with offset := (s.offset + on) % max 1 s.period }.starts
    if on = 0 || s.period ≤ on then []
    else starts.map (fun t => ((t + tickNs * l.ditherOf s t) / tickNs, n, rateOf s.cls))
      ++ ends.map fun t => ((t + tickNs * l.ditherOf s (t - on)) / tickNs, n, rateOf s.cls)

/-! ### Budgets, Strike reserve and placing (R162, R168 to R172) -/

/-- The Strike reserve of a group: 0.1 A and 0.1 A/us (R172). -/
def Live.reserveA (l : Live) (g : Nat) : Nat := sumNat ((l.host.staged.filter (·.group == g)).map (·.amount))
def Live.reserveRate (l : Live) (g : Nat) : Nat := sumNat ((l.host.staged.filter (·.group == g)).map (·.rate))

/-- The current budget of a group in 10 mA and its di/dt budget in 0.1 A/us. -/
def Live.budA (l : Live) (g : Nat) : Nat := l.plan.budgetA.getD g 1125
def Live.budDidt (l : Live) (g : Nat) : Nat := l.plan.budgetDidt.getD g 50

/-- The rates of all edges of a group that occupy a tick. -/
def Live.rateSum (l : Live) (g u : Nat) : Nat :=
  sumNat ((l.plan.envs.filter fun e => e.group == g && e.occupies u).map (·.rate))
    + rateOn (l.standEdges g u) u

/-- Within the current budget: on every tick at which the new steps or a placed rise begin. -/
def Live.currentFits (l : Live) (g : Nat) (es : List Envelope) : Bool :=
  if es.all fun e => decide (e.delta ≤ 0) then true
  else
    let first := (es.map (·.start)).foldl min ((es.map (·.start)).headD 0)
    let at_ := es.map (·.start) ++ ((l.plan.envs.filter fun e => e.group == g && decide (first ≤ e.start)).map (·.start))
    at_.all fun u => decide ((l.envSum g u + sumInt (es.map (·.at_ u)) + (l.standPeak g + l.reserveA g : Nat)) * 10
      ≤ (l.budA g : Int))

/-- Within the di/dt budget on every tick of the new steps at which an edge begins. -/
def Live.didtFits (l : Live) (g : Nat) (es : List Envelope) : Bool :=
  es.all fun e =>
    let starts := (l.plan.envs.filter fun x => x.group == g && e.occupies x.start).map (·.start)
      ++ ((l.standEdges g e.start ++ l.standEdges g (e.start + e.ticks)).map (·.1)).filter e.occupies
    (e.start :: starts).all fun u => decide (l.rateSum g u + e.rate + l.reserveRate g ≤ l.budDidt g)

/-- Edges that a die already starts on a tick, planned and standing; at most two may (R162). -/
def Live.startsOn (l : Live) (die u : Nat) : Nat :=
  ((l.plan.envs.filter fun e => dieOfGroup e.group == die && e.start == u).map (·.edge)).eraseDups.length
    + (([2 * die, 2 * die + 1].flatMap fun g => l.standEdges g u).filter (·.1 == u)).length

def Live.fitsAt (l : Live) (src : Source) (steps : Steps) (u : Nat) : Bool :=
  let g := sourceGroup src
  let es := mkEnvelopes 0 src u steps
  (es.isEmpty || decide (l.startsOn (dieOfGroup g) u < 2)) && l.currentFits g es && l.didtFits g es

/-- The ticks after which something placed or standing near a frame leaves room: the tick after a start, and the end. -/
def Live.breakTicks (l : Live) (g frame : Nat) : List Nat :=
  l.plan.envs.flatMap (fun e => [e.start + 1, e.start + e.ticks])
    ++ (l.standEdges g (frame * 4000)).flatMap fun e => [e.1 + 1, e.1 + e.2.1]

/-- The first fitting tick from one on, frame by frame: it is the tick itself, a frame start, or one at which some step of the
edge meets a break. -/
def Live.firstFit (l : Live) (src : Source) (steps : Steps) (last : Nat) : Nat → Nat → Option Nat
  | 0, _ => none
  | fuel + 1, lo =>
    let frame := lo / 4000
    let hi := min last (frame * 4000 + 3999)
    let cands := lo :: (l.breakTicks (sourceGroup src) frame).flatMap fun b => (0 :: steps.map (·.1)).map (b - ·)
    match (cands.filter fun u => decide (lo ≤ u) && decide (u ≤ hi)).eraseDups.filter (l.fitsAt src steps) with
    | u :: us => some (us.foldl min u)
    | [] => if last ≤ hi then none else firstFit l src steps last fuel (hi + 1)

/-- The first fitting tick between two. -/
def Live.fitBetween (l : Live) (src : Source) (steps : Steps) (lo last : Nat) : Option Nat :=
  if last < lo then none else l.firstFit src steps last ((last - lo) / 4000 + 2) lo

/-- Where an edge can go. -/
inductive Place where
  | at_ (tick : Nat)
  | delayed (tick : Nat)
  /-- Refused, with the cause of EV_PLAN_BUDGET. -/
  | none (cause : Nat)
  deriving DecidableEq, Repr

/-- The earliest fitting tick within the latency bound, else within DELAY_MAX when `mayDelay` (R168, R170): at least 10 us after
the arrival and not in the past. -/
def Live.findPlace (l : Live) (src : Source) (steps : Steps) (arrived latUs : Nat) (mayDelay : Bool) : Place :=
  let lo := ceilDiv (max (arrived + us 10) l.mt.now) tickNs
  let hi := (arrived + us latUs) / tickNs
  let last := if mayDelay then max hi ((arrived + ms l.plan.cfg.delayMax) / tickNs) else hi
  match l.fitBetween src steps lo last with
  | some u => if u ≤ hi then .at_ u else .delayed u
  | none => .none (if l.currentFits (sourceGroup src) (mkEnvelopes 0 src hi steps) then 1 else 0)

/-- Books the envelopes of an edge. -/
def Live.bookEdge (l : Live) (edge : Nat) (src : Source) (u : Nat) (steps : Steps) : Live :=
  { l with plan := { l.plan with
    envs := l.plan.envs ++ mkEnvelopes edge src u steps,
    exceeded := if steps.any (fun s => decide (0 < s.2.1)) then l.plan.exceeded.filter (· != src) else l.plan.exceeded } }

/-- Takes an edge's envelopes out again. -/
def Live.unbookEdge (l : Live) (edge : Nat) : Live :=
  { l with plan := { l.plan with envs := l.plan.envs.filter (·.edge != edge) } }

/-- Removes everything a source has booked, without an edge. -/
def Live.unbookSource (l : Live) (src : Source) : Live :=
  { l with plan := { l.plan with
    envs := l.plan.envs.filter (·.src != src), book := l.plan.book.filter (fun b => b.1 != src) } }

/-- Envelopes that have ended settle into the bookings. -/
def Live.settleBook (l : Live) : Live :=
  let now := tickOf l.mt.now
  let done := l.plan.envs.filter fun e => decide (e.start + e.ticks ≤ now)
  let book := done.foldl (fun (b : List (Source × Nat × Int)) e =>
    let old : Int := ((b.find? fun x => x.1 == e.src).map (·.2.2)).getD 0
    let rest := b.filter fun x => x.1 != e.src
    if old + e.delta = 0 then rest else rest ++ [(e.src, e.group, old + e.delta)]) l.plan.book
  { l with plan := { l.plan with envs := l.plan.envs.filter (fun e => decide (now < e.start + e.ticks)), book := book } }

/-- EV_PLAN_BUDGET, and one more refused edge (R170, R188). -/
def Live.planRefused (l : Live) (src : Source) (cause : Nat) : Live :=
  ({ l with plan := { l.plan with refused := (l.plan.refused + 1) % 2 ^ 32 } }).raise 0x081 warn cause
    (le 2 (sourceId src) ++ le 1 (sourceGroup src))

/-! ### Commands whose entries complete one by one (R102, R103) -/

/-- The overall status of finished entries: the first that failed with its index, else PENDING, else OK. -/
def entriesStatus (st : List Nat) : Status × Nat :=
  match (st.zipIdx).find? (fun x => decide (1 < x.1)) with
  | some (s, i) => (statusOf s, i)
  | none => if st.any (· == 1) then (.pending, 0) else (.ok, 0)

/-- The channels whose entries have a status that p holds of, as a mask. -/
def fioMask (chs st : List Nat) (p : Nat → Bool) : Nat :=
  maskOf 32 fun n => (chs.zip st).any fun x => x.1 == n && p x.2

/-- The final status, DETAIL and payload of finished entries. -/
def entriesReply (form : EntryForm) (st : List Nat) : Status × Nat × List Byte :=
  let r := entriesStatus st
  match form with
  | .none => (r.1, r.2, [])
  | .statuses => (r.1, r.2, st.map (BitVec.ofNat 8))
  | .fio chs => (r.1, if r.1 == .ok || r.1 == .pending then 0 else chs.getD r.2 0,
      le 4 (fioMask chs st (· == 0)) ++ le 4 (fioMask chs st (· == 1)) ++ le 4 (fioMask chs st fun c => decide (1 < c)))

/-- Completes an open command once every entry has its status. -/
def Live.closeCmd (l : Live) (c : OpenCmd) : Live :=
  if c.st.any Option.isNone then
    { l with plan := { l.plan with openCmds := c :: l.plan.openCmds.filter (·.m != c.m) } }
  else
    let r := entriesReply c.form (c.st.map (·.getD 0))
    ({ l with plan := { l.plan with openCmds := l.plan.openCmds.filter (·.m != c.m) } }).complete c.m r.1 r.2.1 r.2.2

/-- An entry of an open command gets its status. -/
def Live.entryDone (l : Live) (owner : Option (MbRef × Nat)) (st : Status) : Live :=
  match owner with
  | none => l
  | some (m, i) =>
    match l.plan.openCmds.find? (fun c => c.m == m) with
    | none => l
    | some c =>
      if (c.st.getD i none).isSome then l else l.closeCmd { c with st := c.st.set i (some st.code) }

/-- Ends the body of a command with entries: the statuses known already, none for those that wait. -/
def Live.openEntries (l : Live) (m : MbRef) (form : EntryForm) (st : List (Option Status)) : Reply × Live :=
  let codes := st.map fun s => s.map Status.code
  if codes.any Option.isNone then
    (.wait, { l with plan := { l.plan with
      openCmds := { m := m, form := form, st := codes } :: l.plan.openCmds.filter (·.m != m) } })
  else
    let r := entriesReply form (codes.map (·.getD 0))
    (.done r.1 r.2.1 r.2.2, l)

/-! ### Edges -/

/-- The source that an edge changes. -/
def EdgeWork.src : EdgeWork → Source
  | .load c _ _ => .load c
  | .restart c => .load c
  | .uvRestart c => .load c
  | .restore c => .load c
  | .shedOff c => .load c
  | .bridge b _ _ _ => .leg b
  | .fio c _ => .fio c
  | .fioRestart c => .fio c
  | .valve v => .valve v

/-- A turn-on. -/
def EdgeWork.rises : EdgeWork → Bool
  | .load _ _ on => on
  | .restart _ => true
  | .uvRestart _ => true
  | .restore _ => true
  | .shedOff _ => false
  | .bridge _ a _ _ => decide (2 ≤ a)
  | .fio _ on => on
  | .fioRestart _ => true
  | .valve _ => true

/-- A restart is requested again each frame and never refused (R170). -/
def EdgeWork.restarts : EdgeWork → Bool
  | .restart _ => true
  | .uvRestart _ => true
  | .restore _ => true
  | .fioRestart _ => true
  | _ => false

/-- Rank class among waiting edges (R168): undervoltage restarts first. -/
def EdgeWork.rank : EdgeWork → Nat
  | .uvRestart _ => 0
  | _ => 1

/-- An edge ranked ahead of another (R168): undervoltage restarts, then by class, then by arrival.  DESIGN CHOICE: of turn-ons
that had been delayed and are released at once, those of HEATER channels come last (R100). -/
def Live.ahead (l : Live) (a b : Edge) : Bool :=
  let heats := fun (e : Edge) => e.heldAt.isSome && (match e.work.src with
    | .load n => (l.ch n).cfg.role == 3
    | _ => false)
  if a.work.rank ≠ b.work.rank then decide (a.work.rank < b.work.rank)
  else if a.prio ≠ b.prio then decide (a.prio < b.prio)
  else if a.arrived ≠ b.arrived then decide (a.arrived < b.arrived)
  else if heats a != heats b then heats b
  else decide (a.id < b.id)

/-- Inserts an edge by rank. -/
def Live.insertEdge (l : Live) (e : Edge) : List Edge → List Edge
  | [] => [e]
  | x :: xs => if l.ahead e x then e :: x :: xs else x :: insertEdge l e xs

/-- Sends an edge to the Planisher. -/
def Live.sendEdge (l : Live) (work : EdgeWork) (prio latUs : Nat) (owner : Option (MbRef × Nat)) : Live :=
  { l with plan := { l.plan with
    nextEdge := l.plan.nextEdge + 1,
    edges := l.plan.edges ++ [Edge.mk (l.plan.nextEdge + 1) work prio latUs l.mt.now .arriving 0 false false none none owner] } }

def Live.edge (l : Live) (id : Nat) : Option Edge := l.plan.edges.find? (·.id == id)

def Live.setEdge (l : Live) (e : Edge) : Live :=
  { l with plan := { l.plan with edges := l.plan.edges.map fun x => if x.id == e.id then e else x } }

def Live.removeEdge (l : Live) (id : Nat) : Live :=
  { l with plan := { l.plan with edges := l.plan.edges.filter (·.id != id) } }

/-- Takes out the edges of a source that p holds of: their entries complete with OK. -/
def Live.dropEdges (l : Live) (src : Source) (p : EdgeWork → Bool) : Live :=
  (l.plan.edges.filter fun e => e.work.src == src && p e.work).foldl
    (fun l e => (((l.unbookEdge e.id).removeEdge e.id)).entryDone e.owner .ok) l

/-- Takes out the slot changes that wait for a source: their entries complete with OK. -/
def Live.dropChanges (l : Live) (src : Source) : Live :=
  let cs := l.plan.changes.filter fun c => c.slot.src == src
  cs.foldl (fun l c => l.entryDone c.owner .ok)
    { l with plan := { l.plan with changes := l.plan.changes.filter fun c => c.slot.src != src } }

/-- An edge that a command has asked for, none of protection or shedding. -/
def EdgeWork.commanded : EdgeWork → Bool
  | .load _ _ _ => true
  | .bridge _ _ _ _ => true
  | .fio _ _ => true
  | _ => false

/-- Withdraws what earlier commands still wait for on a source, edges and slot changes (R104).  DESIGN CHOICE: an edge that has
its tick but has not executed is withdrawn too. -/
def Live.withdraw (l : Live) (src : Source) : Live := (l.dropEdges src EdgeWork.commanded).dropChanges src

/-- Everything that waits for a source is withdrawn. -/
def Live.withdrawAll (l : Live) (src : Source) : Live := (l.dropEdges src fun _ => true).dropChanges src

/-- An edge of this work waits already. -/
def Live.edgeWaits (l : Live) (work : EdgeWork) : Bool := l.plan.edges.any (·.work == work)

/-- A turn-on below SAG_URGENT (R56). -/
def Live.urgent (l : Live) (prio : Nat) : Bool := decide (prio ≤ l.pwr.cfg.sagUrgent)

/-- Deferral of turn-ons is in force: from the sag start until the last undo step (R54, R58). -/
def Live.sagDefers (l : Live) : Bool := l.pwr.sag.active

/-- Shedding level 2 or more delays turn-ons (R182). -/
def Live.shedDelays (l : Live) : Bool := decide (2 ≤ l.ledger.level)

def Live.die (l : Live) (d : Nat) : DieState := l.load.dies.getD d DieState.init

def Live.setDie (l : Live) (d : Nat) (f : DieState → DieState) : Live :=
  { l with load := { l.load with dies := upd l.load.dies d f } }

/-- The die has not been adopted (R159). -/
def Live.dieUnadopted (l : Live) (d : Nat) : Bool := l.sup.unadopted.getD d false

/-- The LOGIC die does not reach a power die: its link or its crossing has failed (R16, R20). -/
def Live.dieCut (l : Live) (d : Nat) : Bool := l.pathOut (5 + d)

/-- A command to an output of a die that has not been adopted, or is not reached, completes with INTERNAL (R20, R159). -/
def Live.dieLost (l : Live) (d : Nat) : Bool := l.dieUnadopted d || l.dieCut d

/-- The mode in which output commands are refused with STATE (R51). -/
def Live.draining (l : Live) : Bool := l.pwr.mode == .drain

/-- Marks the standing set or a booking as changed (R173). -/
def Live.planDirty (l : Live) : Live :=
  { l with plan := { l.plan with dirty := some (l.plan.dirty.getD l.mt.now) } }

/-- Takes a source's standing slot out of the next generation, with a change that no command waits for. -/
def Live.dropSlot (l : Live) (src : Source) : Live :=
  let gone := fun (c : SlotChange) => c.slot.src == src && c.owner.isNone
  if l.plan.want.any (·.src == src) || l.plan.changes.any gone then
    ({ l with plan := { l.plan with
      want := l.plan.want.filter (·.src != src), changes := l.plan.changes.filter fun c => !gone c } }).planDirty
  else l

/-- A source's standing slot ends at once: what it books then falls like any booking. -/
def Live.endSlot (l : Live) (src : Source) : Live :=
  let mine := l.plan.stand.filter (·.src == src)
  let l := l.dropSlot src
  { l with plan := { l.plan with
    stand := l.plan.stand.filter (·.src != src), book := l.plan.book ++ mine.map fun s => (src, s.group, (s.i : Int)) } }

/-- A source dropped for want of budget is not to be restored any more (R184). -/
def Live.forgetDropped (l : Live) (src : Source) : Live :=
  { l with plan := { l.plan with dropped := l.plan.dropped.filter fun (s : Standing) => s.src != src } }

/-- The source has been dropped for want of budget and waits to be restored (R167). -/
def Live.isDropped (l : Live) (src : Source) : Bool := l.plan.dropped.any fun s => s.src == src

/-- Asks for a new or changed standing slot, and for a drive that runs once it is admitted (R173). -/
def Live.askDrive (l : Live) (slot : Standing) (cmd : LoadCmd) (onBoundary : Bool) (owner : Option (MbRef × Nat))
    (drive : Option (Nat × Nat × Nat)) : Live :=
  ({ l with plan := { l.plan with
    changes := l.plan.changes.filter (fun (c : SlotChange) => c.slot.src != slot.src) ++
      [SlotChange.mk slot cmd onBoundary l.mt.now false owner drive] } }).planDirty

/-- Asks for a new or changed standing slot. -/
def Live.askSlot (l : Live) (slot : Standing) (cmd : LoadCmd) (onBoundary : Bool) (owner : Option (MbRef × Nat)) :
    Live :=
  l.askDrive slot cmd onBoundary owner none

/-! ### Generations (R165, R167, R173, R174) -/

/-- The standing slots in order of source. -/
def insertSlot (s : Standing) : List Standing → List Standing
  | [] => [s]
  | x :: xs => if sourceId s.src < sourceId x.src then s :: x :: xs
    else if sourceId s.src = sourceId x.src then s :: xs else x :: insertSlot s xs

/-- No edge of a slot falls on a tick on which its die already starts two standing edges (R162). -/
def ticksFree (others : List Standing) (s : Standing) : Bool :=
  let frames := List.range (slotWindow (s :: others))
  let taken := (others.filter fun o => sourceDie o.src == sourceDie s.src).flatMap (slotEdges 0 frames)
  (slotEdges 0 frames s).all fun e => decide ((taken.filter (·.1 == e.1)).length < 2)

/-- The di/dt budget of a slot's group holds with it beside the others. -/
def Live.slotRates (l : Live) (others : List Standing) (s : Standing) : Bool :=
  let same := s :: others.filter (·.group == s.group)
  didtHolds (l.budDidt s.group) (l.reserveRate s.group)
    (same.flatMap (slotEdges l.plan.cfg.dither (List.range (slotWindow same))))

/-- The offset that keeps the group's highest sum lowest, the others given (R165): the sum is lowest for a start at the end of
some other pulse or at 0; of these, an offset whose edges fit the dies and the di/dt budget is taken first. -/
def Live.bestOffset (l : Live) (others : List Standing) (s : Standing) : Nat :=
  let same := others.filter (·.group == s.group)
  let k := l.plan.cfg.dither
  let up := fun (t : Nat) => ceilDiv t tickNs * tickNs % max 1 s.period
  let ends := (List.range (slotWindow (s :: same))).flatMap fun f => same.flatMap fun o =>
    (o.starts f).map fun t => up (t + o.onNs + tickNs * o.reach k)
  let cands := (0 :: ends).eraseDups
  let good := cands.filter fun c => ticksFree others { s with offset := c } && l.slotRates others { s with offset := c }
  let peak := fun (c : Nat) => standPeakOf k ({ s with offset := c } :: same)
  match (if good.isEmpty then cands else good).map (fun c => (c, peak c)) with
  | [] => 0
  | c :: cs => (cs.foldl (fun (best : Nat × Nat) x => if x.2 < best.2 then x else best) c).1

/-- The pulses of a slot in a plan frame; one for a slot whose period is longer. -/
def Standing.count (s : Standing) : Nat :=
  if s.framed then ceilDiv (frameNs - s.offset) s.period else max 1 (frameNs / max 1 s.period)

/-- Standing edges per plan frame: two for each pulse (R188). -/
def standCount (ss : List Standing) : Nat := sumNat (ss.map fun s => 2 * s.count)

/-- What a group has booked from now on at most, standing slots and one source apart. -/
def Live.envPeak (l : Live) (g : Nat) (src : Source) : Nat :=
  let l := l.unbookSource src
  let now := tickOf l.mt.now
  let ticks := now :: ((l.plan.envs.filter fun e => e.group == g && decide (now < e.start)).map (·.start))
  (ticks.map fun u => (l.envSum g u).toNat).foldl max 0

/-- The edges of a slot fit the di/dt budget beside every envelope placed or running (R173). -/
def Live.slotBesideEnvs (l : Live) (others : List Standing) (s : Standing) : Bool :=
  let same := s :: others.filter (·.group == s.group)
  (l.plan.envs.filter fun e => e.group == s.group && decide (tickOf l.mt.now < e.start + e.ticks)).all fun e =>
    let f := e.start / 4000
    let frames := [f - 1, f, f + 1].eraseDups
    let es := same.flatMap (slotEdges l.plan.cfg.dither frames)
    let mine := ((slotEdges l.plan.cfg.dither frames s).map (·.1)).filter e.occupies
    let at_ := if (slotEdges l.plan.cfg.dither frames s).any fun x => decide (x.1 ≤ e.start) && decide (e.start < x.1 + x.2.1)
      then e.start :: mine else mine
    at_.all fun u => decide (sumNat ((l.plan.envs.filter fun x => x.group == s.group && x.occupies u).map (·.rate)) + rateOn es u
      ≤ l.budDidt s.group)

/-- A slot fits beside those already admitted, what is placed and the Strike reserve, its own sporadic booking apart: within the
current budget, the di/dt budget and the capacity of a generation. -/
def Live.slotFits (l : Live) (budA : List Nat) (others : List Standing) (s : Standing) : Bool :=
  let g := s.group
  let same := others.filter (·.group == g)
  decide ((standPeakOf l.plan.cfg.dither (s :: same) + l.envPeak g s.src + l.reserveA g) * 10 ≤ budA.getD g 1125)
    && decide (standCount (s :: others) ≤ 4096) && (s.onNs = 0 || s.period ≤ s.onNs || (l.slotRates others s && l.slotBesideEnvs others s))

/-- The budgets that supply control gives now (R22, R38), the current budget lowered where the group's measured voltage lowers it
(R167: by a free value). -/
def Live.wantedA (l : Live) (g : Nat) : Nat :=
  let cap := 100 * min (l.pwr.cfg.groupA.getD g 45) (l.plan.cfg.shareA.getD g 45)
  let cap := match Config.voltageBudget g (l.pwr.vbat.getD g 0) with
    | some v => min v cap
    | none => cap
  if l.plan.received then cap else min 1125 cap

def Live.wantedDidt (l : Live) (g : Nat) : Nat :=
  let cap := 10 * min (l.pwr.cfg.groupDidt.getD g 20) (l.plan.cfg.shareDidt.getD g 80)
  if l.plan.received then cap else min 50 cap

/-- Order of admission: priority class, then source. -/
def insertPrio (s : Standing) : List Standing → List Standing
  | [] => [s]
  | x :: xs => if s.prio < x.prio || (s.prio == x.prio && decide (sourceId s.src ≤ sourceId x.src)) then s :: x :: xs
    else x :: insertPrio s xs

/-- Splits slots into those that fit under these budgets beside the fixed ones and those that do not (R167). -/
def Live.admitSlots (l : Live) (budA : List Nat) (fixed ss : List Standing) : List Standing × List Standing :=
  (ss.foldr insertPrio []).foldl (fun (r : List Standing × List Standing) s =>
    if l.slotFits budA r.1 s then (s :: r.1, r.2) else (r.1, r.2 ++ [s])) (fixed, [])

/-- EV_PLAN_BUDGET_CHANGED for every group whose budget in force changes. -/
def Live.newBudgets (l : Live) : Live :=
  (List.range 4).foldl (fun l g =>
    let a := l.wantedA g
    let d := l.wantedDidt g
    if a = l.budA g && d = l.budDidt g then l
    else ({ l with plan := { l.plan with budgetA := l.plan.budgetA.set g a, budgetDidt := l.plan.budgetDidt.set g d } })
      |>.raise 0x086 notice g (le 2 (a / 10) ++ le 1 (d / 10))) l

/-- A source leaves or enters the standing set for want of budget: EV_PLAN_STANDING_DROPPED (R167). -/
def Live.standingEvent (l : Live) (cause : Nat) (s : Standing) : Live :=
  l.raise 0x083 sevFault cause (le 2 (sourceId s.src) ++ le 1 s.group)

/-- The new slots of this generation: kept slots first, then each change with its offset, in order of priority. -/
def Live.buildSlots (l : Live) (kept : List Standing) (cs : List SlotChange) : List Standing × List SlotChange :=
  cs.foldl (fun (r : List Standing × List SlotChange) c =>
    let others := r.1.filter (·.src != c.slot.src)
    let old := r.1.find? (·.src == c.slot.src)
    let slot := match old with
      | some o => { c.slot with offset := if o.period = c.slot.period then o.offset else c.slot.offset }
      | none => if c.onBoundary then c.slot
      else { c.slot with offset := l.bestOffset others c.slot }
    if l.slotFits l.plan.budgetA others slot
    then (insertSlot slot others, r.2 ++ [{ c with slot := slot, admitted := true }])
    else (r.1, r.2 ++ [{ c with slot := slot }])) (kept, [])

end Sys2Proof.Machine
end

