-- ==== Sys2Proof/Machine/Load.lean ====
section
/-! DEFINITION. Load channels (04_load_channels_bridges.md): classes, the reported state, turn-on and turn-off, PWM,
readback, open-load detection, paralleling and the LOAD commands. -/

namespace Sys2Proof.Machine

/-! ### Classes (R97, R105, R108, R113, R135, R138) -/

/-- Ramp energy, clamp energy and mean clamp power of a class in uJ and uW. -/
def rampEnergy (cls : Nat) : Nat := [2000000, 600000, 150000].getD cls 0
def clampEnergy (cls : Nat) : Nat := [400000, 120000, 40000].getD cls 0
def clampPower (cls : Nat) : Nat := [2000000, 800000, 300000].getD cls 0

/-- LIMIT_MAX in ms. -/
def limitMax (cls : Nat) : Nat := [20, 10, 5].getD cls 0

/-! ### Channels -/

/-- One more change of state on the die of a source (R155). -/
def Live.changed (l : Live) (src : Source) : Live :=
  l.setDie (sourceDie src) fun d => { d with changes := d.changes + 1 }

/-- The reported state (R118, R133). -/
def LoadCh.state (c : LoadCh) : Nat :=
  match c.sw with
  | .clamp => 4
  | .limit _ => 3
  | .slew => 1
  | .on => 2
  | .off =>
    if c.latch then 8
    else if c.cmd == .off || c.shed || c.dropped then 0
    else if c.tlatch then 6
    else if c.uvhold then 7
    else 5

/-- A turn-on of this channel is deferred or delayed, or it is shed (R56, R171, R184). -/
def Live.deferredOn (l : Live) (n : Nat) : Bool :=
  (l.ch n).shed || (l.ch n).dropped ||
    l.plan.edges.any fun e => e.work.src == .load n && e.work.rises && (e.phase == .delayed || e.phase == .held)

def Live.stagedOn (l : Live) (p : StagedChange → Bool) : Bool := l.host.staged.any fun s => p s.change

/-- DIAG of R118.  DESIGN CHOICE: DIAG[0] to DIAG[2] of a member of a group are its own, as its measurements are. -/
def Live.loadDiag (l : Live) (n : Nat) : Nat :=
  let c := l.ch n
  let low := l.ch c.lowest
  maskOf 7 fun b => [c.openOn, c.openOff, c.shortBat, l.deferredOn c.lowest,
    l.stagedOn (fun s => match s with | .load k _ _ => k == c.lowest | _ => false),
    low.cfg.par != 0, low.adopted].getD b false

/-- DUTY_EFF. -/
def LoadCh.dutyEff (c : LoadCh) : Nat := if c.conducts then c.duty else 0

/-- Payload of a channel's events (R119). -/
def Live.loadPayload (l : Live) (n : Nat) : List Byte :=
  let c := l.ch n
  le 1 c.state ++ le 1 (l.loadDiag n) ++ leInt 2 c.i ++ le 2 c.vout ++ le 1 c.retriesLeft

/-- An event of a die's own protection at an MT: raised, or kept in the die's log of 32 while it is in orphan mode (R153). -/
def Live.dieRaiseAt (l : Live) (at_ d id sev cause : Nat) (payload : List Byte) : Live :=
  if (l.die d).orphan || l.sup.phase != .running then
    l.setDie d fun x => { x with log := pushDrop 32 x.log (DieLog.mk at_ id sev cause payload) }
  else l.raiseAt at_ id sev cause payload

def Live.dieRaise (l : Live) (d id sev cause : Nat) (payload : List Byte) : Live :=
  l.dieRaiseAt l.mt.now d id sev cause payload

/-- Severities of the causes of R119. -/
def loadSev (cause : Nat) : Nat :=
  [info, info, warn, warn, warn, warn, sevFault, sevFault, notice, sevFault, sevFault, notice, warn, sevFault, notice,
   warn].getD cause info

/-- An event of a load channel; in orphan mode an edge raises no cause 0 or 1 (R150). -/
def Live.loadEvent (l : Live) (n cause : Nat) : Live :=
  if (l.die (sourceDie (.load n))).orphan && decide (cause ≤ 1) then l
  else l.dieRaise (sourceDie (.load n)) (0x40 + n) (loadSev cause) cause (l.loadPayload n)

/-- The channels of the group whose lowest channel is n. -/
def Live.groupOf (l : Live) (n : Nat) : List Nat := (List.range (l.ch n).members).map (n + ·)

/-- Voltage of a supply group in mV. -/
def Live.groupMv (l : Live) (g : Nat) : Nat := l.pwr.vbat.getD g 0

/-! ### Effective duty (R57, R107) -/

/-- The sag factor times the shedding factor on a duty, rounded down. -/
def Live.dimmed (l : Live) (duty : Nat) : Nat := duty * l.pwr.sag.factor * l.ledger.factor / 65536

/-- The commanded duty: 65 535 for ON. -/
def LoadCmd.duty : LoadCmd → Nat
  | .off => 0
  | .on => 65535
  | .pwm d => d

/-- The effective duty of a channel under a command. -/
def Live.effDuty (l : Live) (n : Nat) (cmd : LoadCmd) : Nat :=
  if (l.ch n).lighting then l.dimmed cmd.duty else cmd.duty

/-! ### Bookings (R109, R163) -/

/-- The ramp of a CAPACITIVE channel: booked current in 0.1 A and duration in ns (R109).  DESIGN CHOICE: the sum is rounded up
to the 0.1 A in which bookings are held. -/
def Live.slewPlan (l : Live) (n : Nat) : Nat × Nat :=
  let c := l.ch n
  let mv := l.groupMv (n / 12)
  let i := if c.cfg.rLoad = 0 then ceilDiv (c.cfg.cLoad * c.cfg.slew) 1000
    else ceilDiv (c.cfg.cLoad * c.cfg.slew * c.cfg.rLoad + 100 * mv) (1000 * c.cfg.rLoad)
  (i, (mv - c.vout) * 10000 / max 1 c.cfg.slew)

/-- The duration of a ramp as it is booked, against which R110 times it. -/
def Live.bookSlew (l : Live) (n : Nat) : Live :=
  let ns := (l.slewPlan n).2
  l.setCh n fun c => if c.cfg.role = 5 then { c with slewNs := ns } else c

/-- Envelope class of a channel: class 0 for the turn-off of a freewheeling one (R139). -/
def LoadCh.offClass (c : LoadCh) : Nat := if c.cfg.freewheel then 0 else c.cfg.edgeClass

/-- What a turn-on to a command books (R163); PWM knows no inrush. -/
def Live.loadOnSteps (l : Live) (n : Nat) (cmd : LoadCmd) : Steps :=
  let c := l.ch n
  let rate := rateOf c.cfg.edgeClass
  let i := l.loadBooked n
  if c.cfg.role = 5 then
    let r := l.slewPlan n
    [(0, (r.1 : Int), rate), (r.2 / tickNs, (i : Int) - r.1, rate)]
  else
    let b := l.plan.loadBook.getD n BookCfg.unset
    if b.iInrush = 0 || cmd != .on then [(0, (i : Int), rate)]
    else [(0, (b.iInrush : Int), rate), (ms b.tInrush / tickNs, (i : Int) - b.iInrush, rate)]

/-- What a turn-off gives back. -/
def Live.loadOffSteps (l : Live) (n : Nat) : Steps :=
  [(0, - l.bookedNow (.load n), rateOf (l.ch n).offClass)]

/-- The standing slot of a channel at a duty: its pulses as R106 lengthens them. -/
def Live.loadSlot (l : Live) (n duty : Nat) : Standing :=
  let c := l.ch n
  let period := 1000000000 / max 1 (pwmHz c.cfg.freq)
  let on := onTime period duty
  { src := .load n, group := n / 12, prio := c.cfg.prio, cls := c.cfg.edgeClass, i := l.loadBooked n,
    period := period, offset := 0,
    onNs := if on < minOnNs (.load n) then minOnNs (.load n) else if period - on < minOnNs (.load n) then period else on }

/-! ### Turn-on and turn-off on the die -/

/-- The switch turns on: as a ramp when CAPACITIVE (R108), else hard, cause 0 following its envelope. -/
def Live.loadOn (l : Live) (n : Nat) (cmd : LoadCmd) : Live :=
  let c := l.ch n
  let now := l.mt.now
  let d := l.effDuty n cmd
  let l := l.changed (.load n)
  if c.cfg.role = 5 then
    l.setCh n fun c => { c with
      cmd := cmd, sw := .slew, duty := d, slewAt := now, onAt := now, uvOff := false, shed := false, dropped := false,
      tests := [], testAt := none }
  else
    let step := ((l.loadOnSteps n cmd).headD (0, 0, 1)).2
    l.setCh n fun c => { c with
      cmd := cmd, sw := .on, duty := d, onAt := now, rampEnd := some (now + rampTicks step.1.natAbs step.2 * tickNs),
      uvOff := false, shed := false, dropped := false, tests := [], testAt := none }

/-- The switch turns off, through CLAMP when the output falls below -3.0 V (R134); the clamp is judged by the configuration it
begins under (R139, R158).  A raised imbalance is clear while the group is off (R114). -/
def Live.loadOff (l : Live) (n : Nat) (clamps : Bool) (cause : Option Nat) : Live :=
  let now := l.mt.now
  (l.changed (.load n)).setCh n fun c => { c with
    sw := if clamps then .clamp else .off, clampCause := cause, clampTl := false,
    clampMax := clampEnergy (loadClass n) * c.members, clampFree := c.cfg.freewheel, rampEnd := none,
    onAcc := c.onAcc + (now - c.onAt), offAt := now, tests := [], testAt := none, duty := 0, pulse := 0, pulseAcc := 0,
    imbClear := if c.imbalance then some (c.imbClear.getD now) else c.imbClear }

/-- A commanded turn-off executes: cause 1 at once, or at the end of the clamp. -/
def Live.loadOffCommanded (l : Live) (n : Nat) (clamps : Bool) : Live :=
  let l := (l.loadOff n clamps none).dropSlot (.load n)
  if clamps then l else l.loadEvent n 1

/-! ### LOAD.CONFIG (R99, R100, R108, R111, R138) -/

/-- The 36 bytes of the request as a configuration. -/
def LoadCfg.ofBytes (p : List Byte) : LoadCfg :=
  { role := byteAt p 1, par := byteAt p 2, prio := byteAt p 3, edgeClass := byteAt p 4, freq := byteAt p 5,
    latUs := rd p 6 2, ilim := rd p 8 2, olMode := byteAt p 10, olOnMs := byteAt p 11, olFineTh := rd p 12 2,
    offPeriod := rd p 14 2, retries := byteAt p 16, wireRetry := bit (byteAt p 17) 0,
    freewheel := bit (byteAt p 17) 1, retryMs := rd p 18 2, cLoad := rd p 20 4, rLoad := rd p 24 2,
    slew := rd p 26 2, lUh := rd p 28 4, ipk := rd p 32 2, clampRate := rd p 34 2 }

/-- The 33 bytes kept of a request: without CH and the high bytes of C_LOAD_UF and L_UH, which are 0. -/
def loadKeep (p : List Byte) : List Byte := (p.drop 1).take 22 ++ (p.drop 24).take 7 ++ (p.drop 32).take 4

/-- The request that a kept configuration stands for. -/
def loadUnkeep (n : Nat) (k : List Byte) : List Byte :=
  le 1 n ++ k.take 22 ++ [0] ++ (k.drop 22).take 7 ++ [0] ++ (k.drop 29).take 4

/-- The conditions of R108 on a CAPACITIVE configuration, at 36 V: ramp time, current, ramp energy. -/
def slewOk (c : LoadCfg) (cls : Nat) : Bool × Bool × Bool :=
  let m := parMembers c.par
  (decide (36 ≤ 5 * c.slew),
   if c.rLoad = 0 then decide (c.cLoad * c.slew ≤ 800 * c.ilim)
   else decide (c.cLoad * c.slew * c.rLoad + 3600000 ≤ 800 * c.ilim * c.rLoad),
   if c.rLoad = 0 then decide (648 * c.cLoad ≤ rampEnergy cls * m)
   else decide (648 * c.cLoad * c.rLoad * c.slew + 777600000 ≤ rampEnergy cls * m * c.rLoad * c.slew))

/-- clamp_ok of R138. -/
def clampOk (c : LoadCfg) (cls : Nat) : Bool :=
  let m := parMembers c.par
  let e := c.lUh * c.ipk * c.ipk * 58
  let rate := max c.clampRate (pwmHz c.freq * 60)
  decide (e ≤ clampEnergy cls * m * 4400) && decide (e * rate ≤ clampPower cls * m * 4400 * 60)

/-- PAR names a group that R111 allows. -/
def parOk (n par : Nat) : Bool :=
  match par with
  | 0 => true
  | 1 => n % 2 == 0 && loadClass n == loadClass (n + 1)
  | 2 => n == 0 || n == 24
  | _ => false

/-- ILIM range of a class in 0.1 A. -/
def ilimOk (cls members i : Nat) : Bool :=
  match cls with
  | 0 => inRange (300 * members) (900 * members) i
  | 1 => inRange (100 * members) (300 * members) i
  | _ => inRange (30 * members) (100 * members) i

/-- The ranges of R99, then the combinations of R108 and R138. -/
def loadCfgChecks (p : List Byte) : List (Nat × Bool) :=
  let n := byteAt p 0
  let c := LoadCfg.ofBytes p
  let cls := loadClass n
  let cap := c.role == 5
  let ind := c.role == 4
  [(0, decide (n ≤ 47)), (1, decide (c.role ≤ 5) && (c.role != 2 || cls == 2)), (2, parOk n c.par),
   (3, decide (c.prio ≤ 7)), (4, decide (c.edgeClass ≤ 3)),
   (5, decide (c.freq ≤ 14) && (decide (c.freq < 13) || cls == 2)), (6, inRange 20 200 c.latUs),
   (8, ilimOk cls (parMembers c.par) c.ilim),
   (10, decide (c.olMode < 16) && c.olMode % 4 != 3 && (!bit c.olMode 3 || cls == 2)),
   (11, decide (1 ≤ c.olOnMs)), (12, inRange 5 200 c.olFineTh), (14, inRange 100 10000 c.offPeriod),
   (16, decide (c.retries ≤ 15)), (17, decide (byteAt p 17 < 8)), (18, inRange 10 60000 c.retryMs),
   (20, if cap then inRange 1 100000 c.cLoad else c.cLoad == 0),
   (26, if cap then inRange 1 1000 c.slew else c.slew == 0),
   (28, if ind then inRange 1 1000000 c.lUh else c.lUh == 0), (32, if ind then decide (1 ≤ c.ipk) else c.ipk == 0)] ++
  [(8, !cap || (slewOk c cls).2.1), (17, !ind || c.freewheel || clampOk c cls),
   (26, !cap || ((slewOk c cls).1 && (slewOk c cls).2.2)), (32, !ind || decide (c.ipk ≤ c.ilim))]

/-- OFF or LATCHED, as R100 asks. -/
def LoadCh.idle (c : LoadCh) : Bool := c.state == 0 || c.state == 8

/-- Gives a channel its configuration, forming or dissolving its group (R112, R145).  DESIGN CHOICE: a deferred turn-on of a channel
that becomes another's member is withdrawn. -/
def Live.applyLoadCfg (l : Live) (n : Nat) (cfg : LoadCfg) : Live :=
  let l := (List.range (parMembers cfg.par)).foldl (fun l i => if i = 0 then l else l.withdraw (.load (n + i))) l
  let old := (l.ch n).members
  let fresh := fun k => l.load.ch.getD k (LoadCh.init k)
  let l := (List.range old).foldl (fun l i =>
    if i = 0 then l
    else l.setCh (n + i) fun c => { LoadCh.init (n + i) with
      tlatch := c.tlatch, uvhold := c.uvhold, i := c.i, vout := c.vout, tj := c.tj, trs := (fresh (n + i)).trs }) l
  let l := (List.range (parMembers cfg.par)).foldl (fun l i => l.setCh (n + i) fun c => { c with lowest := n }) l
  l.setCh n fun c => { c with
    cfg := cfg, retriesLeft := cfg.retries, openOn := c.openOn && bit cfg.olMode 2 }

/-- Channel k belongs to another group than that of channel n (R111). -/
def Live.otherGroup (l : Live) (n k : Nat) : Bool :=
  let low := (l.ch k).lowest
  low != n && (low != k || (l.ch k).cfg.par != 0)

/-- LOAD.CONFIG. -/
def loadConfig (m : MbRef) (b : Mailbox) (l : Live) : Reply × Live :=
  let p := b.payload
  let n := byteAt p 0
  let cfg := LoadCfg.ofBytes p
  let after := (List.range (parMembers cfg.par)).map (n + ·)
  let touched := after ++ l.groupOf n
  checked (loadCfgChecks p)
    (if l.dieLost (sourceDie (.load n)) then (refuse .internal, l)
     else if l.draining then (refuse .state, l)
     else match (if cfg.par = 0 then none else after.find? (l.otherGroup n)) with
       | some k => (refuse .state (l.ch k).lowest, l)
       | none =>
         if (l.ch n).lowest != n || touched.any (fun k => !(l.ch (l.ch k).lowest).idle) then (refuse .state, l)
         else (l.applyLoadCfg n cfg).endConfig m (bit (byteAt p 17) 2) 0x1001 n (loadKeep p))
    fun r => (r, l)

def execLoadConfig (s : State) : Result := .next (s.command 0x1001 fun m b l => loadConfig m b l)

/-! ### LOAD.SET (R101 to R104) -/

/-- 60 s at the mean clamp rating of a channel or group, and the clamp energy of its last 60 s, in uJ (R139). -/
def LoadCh.clampLimit (c : LoadCh) (n : Nat) : Nat := 60 * clampPower (loadClass n) * c.members
def LoadCh.clampSum (c : LoadCh) (now : Nat) : Nat :=
  sumNat ((c.clamps.filter fun x => decide (now < x.1 + ms 60000)).map (·.2))

/-- A new turn-on is refused: overvoltage (R40), clamp power until the sum falls below 80 % (R139), no die data (R22). -/
def Live.turnOnRefused (l : Live) (n : Nat) : Option Status :=
  let c := l.ch n
  if l.pwr.overvolt then some .state
  else if c.clampHot && decide (c.clampLimit n * 8 ≤ c.clampSum l.mt.now * 10) then some .budget
  else if (l.die (sourceDie (.load n))).stale then some .budget
  else none

/-- The command an entry gives. -/
def cmdOf (action duty : Nat) : LoadCmd := if action = 0 then .off else if action = 1 then .on else .pwm duty

/-- Ends a channel's wait, for a restart or for the end of shedding: CMD OFF, FPEND clear, its edges gone (R134, R184). -/
def Live.cancelHeld (l : Live) (n : Nat) : Live :=
  let l := ((l.dropEdges (.load n) fun w => !w.commanded).dropSlot (.load n)).setCh n fun c => { c with
    cmd := .off, fpend := false, uvOff := false, shed := false, dropped := false }
  { l with ledger := { l.ledger with shed := l.ledger.shed.filter (· != n) } }.forgetDropped (.load n)

/-! ### Fades of light channels (R244, R246) -/

/-- The commanded duty in the k-th plan frame of a fade. -/
def Fade.duty (f : Fade) (k : Nat) : Nat :=
  (((f.d0 : Int) + (((f.d1 : Int) - f.d0) * (min k f.n : Nat)).tdiv f.n)).toNat

/-- The duty of a fade in a plan frame; before its first frame, the duty it starts from. -/
def Fade.at_ (f : Fade) (frame : Nat) : Nat := f.duty (frame + 1 - f.frame)

def Live.fade (l : Live) (n : Nat) : Option Fade := l.led.fades.find? fun (f : Fade) => f.ch == n

/-- Ends a channel's fade: EV_LED_FADE_DONE with the duty in force. -/
def Live.endFade (l : Live) (n cause : Nat) : Live :=
  match l.fade n with
  | none => l
  | some _ =>
    let l := { l with led := { l.led with fades := l.led.fades.filter fun (x : Fade) => x.ch != n } }
    let l := (l.plan.changes.filter fun (c : SlotChange) => c.slot.src == Source.load n).foldl
      (fun l (c : SlotChange) => l.entryDone c.owner .pending) l
    l.dieRaise (sourceDie (.load n)) 0x0B0 info cause (le 1 n ++ le 2 (l.ch n).cmd.duty)

/-- A turn-on that a held channel waits to be restarted from: after its clamp it leads to a wait state (R134). -/
def LoadCh.clampHeld (c : LoadCh) : Bool := c.sw == .clamp && (c.fpend || c.uvOff || c.whold)

/-- A turn-on by command of a channel that is OFF or ends a commanded clamp (R40, R104, R173). -/
def Live.commandOn (l : Live) (owner : MbRef × Nat) (n : Nat) (cmd : LoadCmd) : Option Status × Live :=
  let c := l.ch n
  match l.turnOnRefused n with
  | some st => (some st, l)
  | none =>
    if c.tlatch || c.uvhold then (some .pending, l.setCh n fun c => { c with cmd := cmd })
    else if cmd != .on && !((l.sagDefers || l.shedDelays) && !l.urgent c.cfg.prio)
    then (none, l.askSlot (l.loadSlot n cmd.duty) cmd false (some owner))
    else (none, l.sendEdge (.load n cmd.duty true) c.cfg.prio c.cfg.latUs (some owner))

/-- One unstaged entry by the rows of R104 and R184; no status while its edge or its slot waits. -/
def Live.loadEntry (l : Live) (owner : MbRef × Nat) (n action duty : Nat) : Option Status × Live :=
  let c := l.ch n
  if l.dieLost (sourceDie (.load n)) then (some .internal, l)
  else if l.draining || c.lowest != n then (some .state, l)
  else
    let l := (l.endFade n 1).withdraw (.load n)
    let cmd := cmdOf action duty
    let off := action == 0
    let held := c.shed || c.dropped || c.state == 5 || c.state == 6 || c.state == 7 || c.clampHeld
    let turnOff := fun (l : Live) => ((none : Option Status), l.sendEdge (.load n 0 false) c.cfg.prio c.cfg.latUs (some owner))
    if c.latch then (if off then (some .ok, l.setCh n fun c => { c with cmd := .off }) else (some .state, l))
    else if held then
      if !off then (some .pending, l.setCh n fun c => { c with cmd := cmd })
      else if c.conducts then turnOff (l.cancelHeld n)
      else (some .ok, l.cancelHeld n)
    else match c.sw with
      | .off => if off then (some .ok, l.cancelHeld n) else l.commandOn owner n cmd
      | .clamp => if off then (some .ok, l.setCh n fun c => { c with cmd := .off }) else l.commandOn owner n cmd
      | .slew => if off then turnOff l else (some .ok, l)
      | _ =>
        if off then turnOff l
        else if c.cmd == cmd then (some .ok, l)
        else (none, l.askSlot (l.loadSlot n cmd.duty) cmd (c.cmd == .on) (some owner))

/-- What a staged command draws from the Strike reserve (R172): its highest step in 0.1 A and 0.1 A/us. -/
def Live.loadReserve (l : Live) (n : Nat) (cmd : LoadCmd) : Nat × Nat :=
  let c := l.ch n
  if cmd = .off then (if c.conducts then (0, rateOf c.offClass) else (0, 0))
  else if c.conducts then (0, 0)
  else
    let steps := l.loadOnSteps n cmd
    let sums := steps.foldl (fun (r : Int × Int) s => (r.1 + s.2.1, max r.2 (r.1 + s.2.1))) ((0 : Int), (0 : Int))
    (sums.2.toNat, (steps.map (·.2.2)).foldl max 0)

/-- The reserve with a further staged edge fits the headroom of a group (R172): the current beside the standing slots and
whatever is placed, the rates on every link cycle boundary, beside the standing edges and those placed. -/
def Live.reserveFits (l : Live) (src : Source) (amount rate : Nat) : Bool :=
  let g := sourceGroup src
  let now := tickOf l.mt.now
  let stand := l.plan.stand.filter (·.group == g)
  let edges := stand.flatMap (slotEdges l.plan.cfg.dither (List.range (slotWindow stand)))
  let bounds := (l.plan.envs.filter fun e => e.group == g && decide (now < e.start + e.ticks)).flatMap fun e =>
    ((List.range (e.ticks / cycleTicks + 1)).map fun k => (ceilDiv e.start cycleTicks + k) * cycleTicks).filter e.occupies
  (amount == 0 || decide ((l.standPeak g + l.envPeak g src + l.reserveA g + amount) * 10 ≤ l.budA g)) &&
    (rate == 0 || (decide (l.reserveRate g + rate ≤ l.budDidt g) && didtHolds (l.budDidt g) (l.reserveRate g + rate) edges &&
      bounds.all fun u => decide (l.rateSum g u + l.reserveRate g + rate ≤ l.budDidt g)))

/-- Holds a change for the next Strike (R89). -/
def Live.stage (l : Live) (seq : Nat) (change : StagedChange) (g amount rate : Nat) : Live :=
  { l with host := { l.host with staged := l.host.staged ++ [Staged.mk seq l.mt.now change g amount rate false] } }

/-- A duty that a running channel is to take fits beside the standing slots (R173). -/
def Live.dutyFits (l : Live) (n : Nat) (cmd : LoadCmd) : Bool :=
  let c := l.ch n
  !c.conducts || c.sw == .slew || cmd == .off || c.cmd == cmd ||
    l.slotFits l.plan.budgetA (l.plan.want.filter fun (s : Standing) => s.src != .load n) (l.loadSlot n cmd.duty)

/-- One staged entry: refused as an unstaged one would be, otherwise staged. -/
def Live.loadStage (l : Live) (seq n : Nat) (cmd : LoadCmd) (change : StagedChange) : Status × Live :=
  let c := l.ch n
  let r := l.loadReserve n cmd
  let starts := cmd != .off && (c.sw == .off || c.sw == .clamp) && !c.clampHeld && (c.state == 0 || c.state == 4)
    && !c.shed && !c.dropped
  if l.dieLost (sourceDie (.load n)) then (.internal, l)
  else if l.draining || c.lowest != n then (.state, l)
  else if c.latch && cmd != .off then (.state, l)
  else if starts && (l.turnOnRefused n).isSome then ((l.turnOnRefused n).getD .state, l)
  else if !l.reserveFits (.load n) r.1 r.2 || !l.dutyFits n cmd then (.budget, l)
  else (.ok, l.stage seq change (n / 12) r.1 r.2)

/-- The entries of a LOAD.SET request: CH, ACTION, DUTY. -/
def loadEntries (p : List Byte) : List (Nat × Nat × Nat) :=
  (List.range (byteAt p 0)).map fun i => (byteAt p (4 + 4 * i), byteAt p (5 + 4 * i), rd p (6 + 4 * i) 2)

/-- The field checks of R102.  DESIGN CHOICE: for a member of a group other than the lowest they look at its own, suspended
configuration. -/
def Live.loadSetChecks (l : Live) (p : List Byte) : List (Nat × Bool) :=
  let es := loadEntries p
  [(0, inRange 1 48 (byteAt p 0)), (1, allZero ((p.drop 1).take 3))] ++
    (es.zipIdx).flatMap fun x =>
      let (n, a, d) := x.1
      let off := 4 + 4 * x.2
      [(off, decide (n ≤ 47) && ((es.take x.2).all fun e => e.1 != n)),
       (off + 1, decide (a ≤ 2) && (a != 2 || ((l.ch n).cfg.freq != 0 && (l.ch n).cfg.role != 5))),
       (off + 2, a != 2 || d != 0)]

/-- LOAD.SET. -/
def loadSet (m : MbRef) (b : Mailbox) (l : Live) : Reply × Live :=
  let p := b.payload
  let es := loadEntries p
  checked (l.loadSetChecks p)
    (if b.staged then
       if 256 < l.host.staged.length + es.length
       then (.done .busy 1 (es.map fun _ => BitVec.ofNat 8 Status.busy.code), l)
       else
         let r := es.foldl (fun (r : List Status × Live) e =>
           let cmd := cmdOf e.2.1 e.2.2
           let x := r.2.loadStage b.seq e.1 cmd (.load e.1 cmd.duty (e.2.1 != 0))
           (r.1 ++ [x.1], x.2)) ([], l)
         r.2.openEntries m .statuses (r.1.map some)
     else
       let r := (es.zipIdx).foldl (fun (r : List (Option Status) × Live) x =>
         let y := r.2.loadEntry (m, x.2) x.1.1 x.1.2.1 x.1.2.2
         (r.1 ++ [y.1], y.2)) ([], l)
       r.2.openEntries m .statuses r.1)
    fun r => (r, l)

def execLoadSet (s : State) : Result := .next (s.command 0x1002 fun m b l => loadSet m b l)

/-! ### LOAD.STATUS and LOAD.CLEAR (R118, R147, R148) -/

def Live.loadRecord (l : Live) (n : Nat) : List Byte :=
  let c := l.ch n
  let g := l.ch c.lowest
  le 1 n ++ le 1 g.state ++ le 1 (l.loadDiag n) ++ le 1 g.retriesLeft ++ le 2 g.dutyEff ++ leInt 2 c.i ++ le 2 c.vout
    ++ leInt 2 c.tj ++ le 2 (if bit g.cfg.olMode 3 then c.iFine else 0xFFFF) ++ le 2 0

def execLoadStatus (s : State) : Result := .next (s.command 0x1003 fun _ b l =>
  let first := byteAt b.payload 0
  let n := byteAt b.payload 1
  checked [(0, decide (first ≤ 47)), (1, inRange 1 31 n && decide (first + n ≤ 48))]
    (.done .ok 0 ((List.range n).flatMap fun i => l.loadRecord (first + i)), l) fun r => (r, l))

/-- LOAD.CLEAR on one selected channel: whether it was LATCHED, and the state after it.  DESIGN CHOICE: a fade that still runs on a
LATCHED channel ends, as CMD becomes OFF. -/
def Live.clearChannel (l : Live) (n : Nat) : Bool × Live :=
  let c := l.ch n
  if c.state = 8 then
    (true, ((l.endFade n 1).setCh n fun c => { c with
      latch := false, latchCause := 0, fpend := false, uvOff := false, cmd := .off, rdelay := none,
      retriesLeft := c.cfg.retries }).changed (.load n))
  else (false, l.setCh n fun c => { c with retriesLeft := c.cfg.retries })

/-- LOAD.CLEAR. -/
def loadClear (b : Mailbox) (l : Live) : Reply × Live :=
  let sel := bitsOf 48 (rd b.payload 0 6)
  checked [resv b 6 2]
    (match sel.find? (fun n => l.dieLost (sourceDie (.load n))) with
     | some _ => (refuse .internal, l)
     | none => match sel.find? (fun n => (l.ch n).lowest != n) with
       | some n => (refuse .state n, l)
       | none =>
         let r := sel.foldl (fun (r : Nat × Live) n =>
           let x := r.2.clearChannel n
           (if x.1 then r.1 + 2 ^ n else r.1, x.2)) (0, l)
         (.done .ok 0 (le 6 r.1), r.2))
    fun r => (r, l)

def execLoadClear (s : State) : Result := .next (s.command 0x1004 fun _ b l => loadClear b l)

/-! ### Rows of the die: ramps, PWM, measurements, detection -/

/-- EDGE_RAMP_END (R119): the envelope of a turn-on has ended, cause 0. -/
def edgeRampEnd (n : Nat) (l : Live) : Live :=
  let c := l.ch n
  if c.sw == .on && c.rampEnd.any (fun t => decide (t ≤ l.mt.now))
  then (l.setCh n fun c => { c with rampEnd := none }).loadEvent n 0 else l

def execEdgeRampEnd (ch : Nat) (s : State) : Result := .next (s.onLive (edgeRampEnd ch))

/-- The channel runs in PWM: commanded so, or ON and dimmed (R107). -/
def LoadCh.pulsed (c : LoadCh) : Bool := c.conducts && (c.dimmedOn || (match c.cmd with
  | .pwm _ => true
  | _ => false))

/-- The pulse of a period (R106): skipped pulses of the minimum on-time, or on throughout. -/
def pulseOf (period duty minOn acc : Nat) : Nat × Nat :=
  let on := onTime period duty
  if on < minOn then
    let a := acc + on * 16 / minOn
    if 16 ≤ a then (minOn, a - 16) else (0, a)
  else if period - on < minOn then (period, 0)
  else (on, 0)

/-- A slot change takes effect at the start of its source's period: the entry completes (R103, R104).  While the channel still
clamps it waits. -/
def Live.slotStarts (l : Live) (n : Nat) : Live :=
  match l.plan.changes.find? (fun (c : SlotChange) => c.slot.src == .load n && c.admitted && (l.ch n).sw != .clamp) with
  | none => l
  | some c =>
    let l := { l with plan := { l.plan with changes := l.plan.changes.filter fun (x : SlotChange) => x.slot.src != Source.load n } }
    let ch := l.ch n
    let fade := l.fade n
    let st := if fade.isSome then Status.pending else .ok
    let l := { l with led := { l.led with
      fades := l.led.fades.map fun (f : Fade) => if f.ch == n then { f with waits := false } else f } }
    let c := match fade with
      | some f => { c with cmd := .pwm (f.at_ (l.mt.now / frameNs)) }
      | none => c
    if ch.latch then (l.dropSlot (.load n)).entryDone c.owner .state
    else if !ch.conducts && (ch.tlatch || ch.uvhold || ch.fpend || ch.whold)
    then ((l.dropSlot (.load n)).setCh n fun x => { x with cmd := c.cmd, dropped := false }).entryDone c.owner .pending
    else
      let l := if ch.conducts then l.setCh n fun x => { x with cmd := c.cmd, duty := l.effDuty n c.cmd }
        else l.loadOn n c.cmd
      let l := if c.cmd == .on then
          (l.dropSlot (.load n)).bookEdge 0 (.load n) (tickOf l.mt.now) [(0, (c.slot.i : Int), rateOf c.slot.cls)]
        else l.unbookSource (.load n)
      l.entryDone c.owner st

/-- PWM_PERIOD_START. -/
def pwmPeriodStart (src : Source) (l : Live) : Live :=
  match src with
  | .load n =>
    let l := l.slotStarts n
    let c := l.ch n
    let r := pulseOf c.period c.duty (minOnNs src) c.pulseAcc
    if c.pulsed then l.setCh n fun c => { c with pulse := r.1, pulseAcc := r.2 } else l
  | .leg b => { l with load := { l.load with br := upd l.load.br b fun x => { x with limiting := false } } }
  | _ => l

def execPwmPeriodStart (src : Source) (s : State) : Result := .next (s.onLive (pwmPeriodStart src))

/-- SLEW_END (R109): V_OUT has reached the group voltage less 0.5 V. -/
def slewEnd (n vout : Nat) (l : Live) : Live :=
  if (l.ch n).sw == .slew && decide (l.groupMv (n / 12) ≤ vout + 500) then
    ((l.changed (.load n)).setCh n fun c => { c with sw := .on, vout := vout }).loadEvent n 0
  else l

def execSlewEnd (ch vout : Nat) (s : State) : Result := .next (s.onLive (slewEnd ch vout))

/-- The samples of 1 ms from those of each quantity, the current with whether it lies in an on-phase. -/
def readbacks (i : List (Int × Bool)) (v : List Nat) (tj : List Int) (x : List Nat) : List Readback :=
  (i.zip (v.zip (tj.zip x))).map fun s => { i := s.1.1, v := s.2.1, tj := s.2.2.1, x := s.2.2.2, on := s.1.2 }

/-- The mean of a quantity over samples, toward 0; 0 over none. -/
def meanOf (f : Readback → Int) (xs : List Readback) : Int := (sumInt (xs.map f)).tdiv xs.length

/-- A measurement within its range.  DESIGN CHOICE: beyond its range (R117) it stays at the end of it. -/
def clip (lo hi x : Int) : Int := max lo (min hi x)

/-- The range of the current of a class in 10 mA. -/
def clipLoad (cls : Nat) (i : Int) : Int :=
  match cls with
  | 0 => clip (-1000) 10000 i
  | 1 => clip (-500) 3500 i
  | _ => clip (-200) 1200 i

/-- READBACK_SAMPLE of a load channel (R117): current in 10 mA, output voltage in mV, junction in 0.1 °C, fine current in 0.1 mA, each
the mean over the samples of 1 ms; the current of a channel in PWM over those in an on-phase.  The mean over all of them is kept
for the wire model (R178). -/
def loadReadback (n : Nat) (xs : List Readback) (l : Live) : Live :=
  let on := if (l.ch (l.ch n).lowest).pulsed then xs.filter (·.on) else xs
  l.setCh n fun c => { c with
    i := clipLoad (loadClass n) (meanOf (·.i) on), iMean := clipLoad (loadClass n) (meanOf (·.i) xs),
    vout := (clip 0 40000 (meanOf (fun x => (x.v : Int)) xs)).toNat, tj := clip (-500) 2000 (meanOf (·.tj) xs),
    iFine := (clip 0 250 (meanOf (fun x => (x.x : Int)) xs)).toNat }

/-- On-state threshold in 0.1 mA (R97, R115). -/
def LoadCh.openThreshold (c : LoadCh) (n : Nat) : Nat :=
  c.members * (if bit c.cfg.olMode 3 then c.cfg.olFineTh else [2000, 500, 100].getD (loadClass n) 0)

/-- IMBALANCE_CHECK (R114): the members' currents in 10 mA, and for how long they have differed.  The condition is a member off
the mean with the group current above the open-load threshold; it is raised once, and again after it has been clear for 1 s. -/
def imbalanceCheck (n : Nat) (currents : List Int) (forNs : Nat) (l : Live) : Live :=
  let c := l.ch n
  let k := (currents.length : Int)
  let sum := sumInt currents
  let differs := currents.any (fun i => decide (sum.natAbs < 4 * (k * i - sum).natAbs)) && decide ((c.openThreshold n : Int) < 100 * sum)
  if c.cfg.par = 0 || c.sw != .on || c.lowest != n then l
  else
    let was := c.imbalance && !c.imbClear.any fun t => decide (t + ms 1000 ≤ l.mt.now)
    if !differs then l.setCh n fun c => { c with imbalance := was, imbClear := some (c.imbClear.getD l.mt.now) }
    else
      let due := !was && decide (ms 10 ≤ forNs)
      let l := l.setCh n fun c => { c with imbalance := was || due, imbClear := none }
      if due then l.loadEvent n 15 else l

def execImbalanceCheck (ch : Nat) (currents : List Int) (forNs : Nat) (s : State) : Result :=
  .next (s.onLive (imbalanceCheck ch currents forNs))

/-- OPEN_ON_QUALIFIED (R115): the current of a channel or group in 0.1 mA has stayed on one side of the threshold for an evaluated
on-time; exactly at the threshold it is on neither side. -/
def openOnQualified (n i forNs : Nat) (l : Live) : Live :=
  let c := l.ch n
  let isOpen := decide (i < c.openThreshold n) && !(bit c.cfg.olMode 3 && decide (250 ≤ i))
  let isClosed := decide (c.openThreshold n < i) || (bit c.cfg.olMode 3 && decide (250 ≤ i))
  if !bit c.cfg.olMode 2 || c.sw != .on || c.lowest != n || decide (forNs < ms c.cfg.olOnMs) || !(if c.openOn then isClosed else isOpen) then l
  else (l.setCh n fun c => { c with openOn := isOpen }).loadEvent n 2

def execOpenOnQualified (ch i forNs : Nat) (s : State) : Result := .next (s.onLive (openOnQualified ch i forNs))

/-- The outcome of an off-state test: cause 4, cause 3 or 0 for a load present (R116). -/
def offOutcome (v0 v1 : Nat) : Nat := if 3000 ≤ v0 then 4 else if 3000 ≤ v1 then 3 else 0

/-- A condition after two outcomes: found by two alike, cleared by two others. -/
def afterTests (was : Bool) (cause a b : Nat) : Bool :=
  if a = cause && b = cause then true else if a ≠ cause && b ≠ cause then false else was

/-- MT at which the next off-state test is due (R116): 5 ms after the turn-off, then every 10 ms in continuous mode, every
OFF_PERIOD_MS in pulsed mode. -/
def LoadCh.testDue (c : LoadCh) : Nat :=
  match c.testAt with
  | none => c.offAt + ms 5
  | some t => t + ms (if c.cfg.olMode % 4 = 2 then 10 else c.cfg.offPeriod)

/-- The 75 uA source of a channel that is OFF is on (R116): continuous, but for the 1 ms before V0 is taken; pulsed, for the 2 ms of
a test. -/
def LoadCh.pullUp (c : LoadCh) (now : Nat) : Bool :=
  c.state == 0 && c.sw == .off && (match c.cfg.olMode % 4 with
    | 1 => c.testAt.any fun t => decide (now < t + ms 2)
    | 2 => !c.testAt.any fun t => decide (now < t + ms 1)
    | _ => false)

/-- A condition of an off-state test is found or cleared: cause 3 or 4. -/
def Live.offCondition (l : Live) (n cause : Nat) (v : Bool) : Live :=
  (l.setCh n fun c => if cause = 3 then { c with openOff := v } else { c with shortBat := v }).loadEvent n cause

/-- An off-state test of a load channel, or of a group as one. -/
def loadOffTest (n v0 v1 : Nat) (l : Live) : Live :=
  let c := l.ch n
  let inMode := l.pwr.mode == .run || l.pwr.mode == .wakeCheck
  if c.sw != .off || c.state != 0 || c.lowest != n || c.cfg.olMode % 4 = 0 || !inMode || decide (l.mt.now < c.testDue) then l
  else
    let o := offOutcome v0 v1
    let l := l.setCh n fun c => { c with tests := (o :: c.tests).take 2, testAt := some l.mt.now, vout := v0 }
    match c.tests with
    | [] => l
    | prev :: _ =>
      let open' := afterTests c.openOff 3 o prev
      let short' := afterTests c.shortBat 4 o prev
      let l := if c.openOff && !open' then l.offCondition n 3 false else l
      let l := if c.shortBat && !short' then l.offCondition n 4 false else l
      let l := if !c.openOff && open' then l.offCondition n 3 true else l
      if !c.shortBat && short' then l.offCondition n 4 true else l

end Sys2Proof.Machine
end

