-- ==== Sys2Proof/Machine/Protect.lean ====
section
/-! DEFINITION. Load channel protection (05_load_protection_orphan.md): current limit, thermal latch, clamps,
undervoltage, fault turn-off and restart, and what a die does on its own in orphan mode. -/

namespace Sys2Proof.Machine

/-! ### Fault turn-off (R134, R142 to R146) -/

/-- Latches a channel with its cause; cause 9 is raised. -/
def Live.latchCh (l : Live) (n cause : Nat) : Live :=
  ((l.changed (.load n)).setCh n fun c => { c with
    latch := true, latchCause := cause, fpend := false, rdelay := none, uvOff := false }).loadEvent n 9

/-- A commanded turn-off of the channel that the Planisher has placed in the present plan frame (R146). -/
def Live.offThisFrame (l : Live) (n : Nat) : Option Edge :=
  l.plan.edges.find? fun e => e.work == .load n 0 false && e.phase == .placed
    && e.tick * tickNs / frameNs == l.mt.now / frameNs

/-- What follows a fault turn-off that allows restart (R143): latched with no retry left, else FPEND and RDELAY. -/
def Live.faultPend (l : Live) (n cause : Nat) : Live :=
  let c := l.ch n
  if c.retriesLeft = 0 then l.latchCh n cause
  else l.setCh n fun c => { c with fpend := true, rdelay := some (l.mt.now + ms c.cfg.retryMs) }

/-- A fault turn-off with its cause.  A commanded OFF of the same plan frame leaves the channel OFF. -/
def Live.faultOff (l : Live) (n cause : Nat) (clamps : Bool) : Live :=
  let was := (l.ch n).conducts
  let l := if was then l.loadOff n clamps (some cause) else l
  let l := (l.setCh n fun c => { c with onAcc := 0 }).loadEvent n cause
  match l.offThisFrame n with
  | some e => ((((l.unbookEdge e.id).removeEdge e.id).entryDone e.owner .ok).setCh n fun c => { c with
      cmd := .off, fpend := false })
  | none => if (l.ch n).cmd == .off then l else l.faultPend n cause

/-! ### Current limit and short circuit (R135, R136) -/

/-- The current of a member of a group stands for its share of the group's (R112, R135): times the number of members. -/
def Live.shareOf (l : Live) (n i : Nat) : Nat := i * (l.ch (l.ch n).lowest).members

/-- CURRENT_LIMIT: the current i in 10 mA of a channel, or of a member of a group, has reached its part of ILIM. -/
def currentLimit (k i : Nat) (l : Live) : Live :=
  let n := (l.ch k).lowest
  let c := l.ch n
  let ramp := c.sw == .slew
  if (ramp || c.sw == .on) && decide (10 * c.cfg.ilim ≤ l.shareOf k i) then
    let due := !c.limitRaised.any fun t => decide (l.mt.now < t + ms 1000)
    let l := ((l.changed (.load n)).setCh k fun c => { c with i := i }).setCh n fun c => { c with
      sw := .limit ramp, limitAt := l.mt.now, limitRaised := if due then some l.mt.now else c.limitRaised }
    if due then l.loadEvent n 5 else l
  else l

def execCurrentLimit (ch i : Nat) (s : State) : Result := .next (s.onLive (currentLimit ch i))

/-- LIMIT_RELEASE: current below 0.9 x ILIM for 100 us; a paused ramp resumes. -/
def limitRelease (k i belowForNs : Nat) (l : Live) : Live :=
  let n := (l.ch k).lowest
  match (l.ch n).sw with
  | .limit ramp =>
    if decide (l.shareOf k i < 9 * (l.ch n).cfg.ilim) && decide (us 100 ≤ belowForNs)
    then ((l.changed (.load n)).setCh k fun c => { c with i := i }).setCh n fun c => { c with sw := if ramp then .slew else .on }
    else l
  | _ => l

def execLimitRelease (ch i belowForNs : Nat) (s : State) : Result := .next (s.onLive (limitRelease ch i belowForNs))

/-- LIMIT_MAX_EXPIRY: cause 6. -/
def limitMaxExpiry (k : Nat) (clamps : Bool) (l : Live) : Live :=
  let n := (l.ch k).lowest
  match (l.ch n).sw with
  | .limit _ => if (l.ch n).limitAt + ms (limitMax (loadClass n)) ≤ l.mt.now then l.faultOff n 6 clamps else l
  | _ => l

def execLimitMaxExpiry (ch : Nat) (clamps : Bool) (s : State) : Result := .next (s.onLive (limitMaxExpiry ch clamps))

/-- FAST_TRIP: the current i in 10 mA of a channel, or of a member of a group, above 1.5 x its part of ILIM for 1 us, cause 6. -/
def fastTrip (k i : Nat) (clamps : Bool) (l : Live) : Live :=
  let n := (l.ch k).lowest
  if (l.ch n).conducts && decide (15 * (l.ch n).cfg.ilim < l.shareOf k i) then l.faultOff n 6 clamps else l

def execFastTrip (ch i : Nat) (clamps : Bool) (s : State) : Result := .next (s.onLive (fastTrip ch i clamps))

/-- SLEW_TIMEOUT (R110): 1.5 times the booked duration plus 2 ms, pauses included, cause 13. -/
def slewTimeout (k : Nat) (clamps : Bool) (l : Live) : Live :=
  let n := (l.ch k).lowest
  let c := l.ch n
  if (c.sw == .slew || c.sw == .limit true) && decide (c.slewAt + c.slewNs * 3 / 2 + ms 2 ≤ l.mt.now)
  then l.faultOff n 13 clamps else l

def execSlewTimeout (ch : Nat) (clamps : Bool) (s : State) : Result := .next (s.onLive (slewTimeout ch clamps))

/-! ### Thermal latch (R137) -/

/-- THERMAL_LATCH: a junction at 175 °C within 5 °C sets TLATCH, for a group that of any member; a conducting switch is a fault
turn-off with cause 7.  Beside a wire trip of the last 1 ms cause 7 is raised too (R146). -/
def thermalLatch (k : Nat) (tj : Int) (clamps : Bool) (l : Live) : Live :=
  let n := (l.ch k).lowest
  if (l.ch n).tlatch || decide (tj < 1700) then l
  else
    let l := ((l.changed (.load n)).setCh k fun c => { c with tj := tj }).setCh n fun c => { c with
      tlatch := true, clampTl := c.sw == .clamp }
    let c := l.ch n
    if c.conducts then l.faultOff n 7 clamps
    else if c.latch && c.latchCause == 10 && decide (l.mt.now ≤ c.offAt + ms 1) then l.loadEvent n 7 else l

def execThermalLatch (ch : Nat) (tj : Int) (clamps : Bool) (s : State) : Result :=
  .next (s.onLive (thermalLatch ch tj clamps))

/-- THERMAL_RELEASE: below T_REL, the lower of 150 °C and the last restart threshold; for a group, with every member below it. -/
def thermalRelease (k : Nat) (tj : Int) (l : Live) : Live :=
  let n := (l.ch k).lowest
  let rel : Int := (min 1500 (l.ch n).trs : Nat)
  if (l.ch n).tlatch && decide (tj < rel) then
    let l := l.setCh k fun c => { c with tj := tj }
    if (l.groupOf n).all fun j => decide ((l.ch j).tj < rel)
    then (l.changed (.load n)).setCh n fun c => { c with tlatch := false } else l
  else l

def execThermalRelease (ch : Nat) (tj : Int) (s : State) : Result := .next (s.onLive (thermalRelease ch tj))

/-! ### Clamps (R138, R139) -/

/-- CLAMP_END: the energy of the clamp in uJ, of all members of a group, and for how long it conducted; a PWM channel's off-phase
clamps are measured in the same way. -/
def clampEnd (k energyUj condNs : Nat) (l : Live) : Live :=
  let n := (l.ch k).lowest
  let c := l.ch n
  let pwm := c.sw == .on && c.pulsed
  if c.sw != .clamp && !pwm then l
  else
    let limit := if pwm then clampEnergy (loadClass n) * c.members else c.clampMax
    let tooMuch := decide (limit < energyUj) || ((if pwm then c.cfg.freewheel else c.clampFree) && decide (us 10 < condNs))
    let l := l.setCh n fun c => { c with
      clamps := (c.clamps.filter fun x => decide (l.mt.now < x.1 + ms 60000)) ++ [(l.mt.now, energyUj)],
      clampHot := c.clampHot && decide (c.clampLimit n * 8 ≤ c.clampSum l.mt.now * 10) }
    if tooMuch then
      let l := (l.changed (.load n)).setCh n fun c => { c with
        sw := .off, clampCause := none, clampTl := false, offAt := l.mt.now, duty := 0, latch := true, latchCause := 12,
        fpend := false, rdelay := none, uvOff := false, rampEnd := none }
      (l.loadEvent n 12).loadEvent n 9
    else if pwm then l
    else
      let l := (l.changed (.load n)).setCh n fun c => { c with sw := .off, clampCause := none, offAt := l.mt.now }
      let l := if c.clampCause.isNone then l.loadEvent n 1 else l
      if c.clampTl then (l.setCh n fun c => { c with clampTl := false }).faultOff n 7 false else l

def execClampEnd (ch energyUj condNs : Nat) (s : State) : Result := .next (s.onLive (clampEnd ch energyUj condNs))

/-- CLAMP_POWER_EXCEEDED: the clamp energy of the last 60 s above the mean rating; cause 12 once until the sum has fallen below
80 %, turn-ons refused until then. -/
def clampPowerExceeded (k : Nat) (l : Live) : Live :=
  let n := (l.ch k).lowest
  let c := l.ch n
  if c.clampSum l.mt.now ≤ c.clampLimit n || c.clampHot then l
  else (l.setCh n fun c => { c with clampHot := true }).loadEvent n 12

def execClampPowerExceeded (ch : Nat) (s : State) : Result := .next (s.onLive (clampPowerExceeded ch))

/-! ### Undervoltage (R140, R141) -/

/-- One channel of a group that has fallen below VBAT_UV. -/
def Live.uvChannel (l : Live) (n : Nat) (clamps : Bool) : Live :=
  let on := (l.ch n).conducts
  let l := l.setCh n fun c => { c with uvhold := true }
  if !on then l
  else ((l.loadOff n clamps (some 11)).setCh n fun c => { c with uvOff := true }).loadEvent n 11

/-- The lowest channels of a group's channels and groups of channels. -/
def Live.lowestOf (l : Live) (g : Nat) : List Nat :=
  ((List.range 12).map (12 * g + ·)).filter fun n => (l.ch n).lowest == n

/-- GROUP_UNDERVOLTAGE: the group's voltage in mV and the channels whose output falls below -3.0 V. -/
def groupUndervoltage (g mv : Nat) (clamping : List Nat) (l : Live) : Live :=
  if 7000 ≤ mv || l.pwr.uv.getD g true then l
  else
    let l := { l with pwr := { l.pwr with uv := l.pwr.uv.set g true, vbat := l.pwr.vbat.set g mv } }
    let l := (l.dieRaise (dieOfGroup g) 0x022 warn g (le 2 mv))
    (l.lowestOf g).foldl (fun l n => l.uvChannel n (clamping.contains n)) l

def execGroupUndervoltage (g : Group) (mv : Nat) (clamping : List Nat) (s : State) : Result :=
  .next (s.onLive (groupUndervoltage g mv clamping))

/-- An undervoltage restart is due: no other hold of R133 remains. -/
def LoadCh.uvRestartDue (c : LoadCh) : Bool :=
  c.uvOff && c.cmd != .off && c.sw == .off && !c.latch && !c.tlatch && !c.uvhold && !c.fpend && !c.whold
    && c.rdelay.isNone

/-- UVHOLD of a channel clears.  A channel that is to be on and has no fault, one commanded on while UVHOLD held too, restarts
under R141. -/
def LoadCh.uvCleared (c : LoadCh) : LoadCh :=
  { c with
    uvhold := false,
    uvOff := c.uvOff || (c.uvhold && c.cmd != .off && c.sw == .off && !c.latch && !c.fpend && !c.shed && !c.dropped) }

/-- UV_RECOVER: above 7.5 V for 2 ms UVHOLD clears, and the restarts are requested as urgent edges. -/
def uvRecover (g mv aboveForNs : Nat) (l : Live) : Live :=
  if mv ≤ 7500 || aboveForNs < ms 2 || !l.pwr.uv.getD g false then l
  else
    let l := { l with pwr := { l.pwr with
      uv := l.pwr.uv.set g false, vbat := l.pwr.vbat.set g mv, present := l.pwr.present.set g true } }
    (l.lowestOf g).foldl (fun l n =>
      let l := l.setCh n LoadCh.uvCleared
      let c := l.ch n
      if c.uvRestartDue && !(l.die (dieOfGroup g)).orphan && !l.edgeWaits (.uvRestart n)
      then l.sendEdge (.uvRestart n) c.cfg.prio c.cfg.latUs none else l) l

def execUvRecover (g : Group) (mv aboveForNs : Nat) (s : State) : Result := .next (s.onLive (uvRecover g mv aboveForNs))

/-! ### Restarts (R143 to R145) -/

/-- RDELAY of a load channel ends. -/
def loadRetryDelay (n : Nat) (l : Live) : Live :=
  if (l.ch n).rdelay.any (fun t => decide (t ≤ l.mt.now)) then l.setCh n fun c => { c with rdelay := none } else l

/-- A held channel with no hold left: it waits only for an edge. -/
def LoadCh.restartDue (c : LoadCh) : Bool :=
  c.cmd != .off && c.sw == .off && !c.latch && !c.shed && !c.dropped && !c.tlatch && !c.uvhold && c.rdelay.isNone
    && !c.whold

/-- The edge that ends the wait (R133, R141, R143). -/
def LoadCh.restartWork (c : LoadCh) (n : Nat) : EdgeWork :=
  if c.fpend then .restart n else if c.uvOff then .uvRestart n else .load n c.cmd.duty true

/-- RESTART_REQUEST of a load channel.  Sag deferral and shedding level 2 hold the restarts of non-urgent channels, but
never an undervoltage restart. -/
def loadRestartRequest (n : Nat) (l : Live) : Live :=
  let c := l.ch n
  let w := c.restartWork n
  let held := (l.sagDefers || l.shedDelays) && !l.urgent c.cfg.prio && w != .uvRestart n
  let d := sourceDie (.load n)
  if !c.restartDue || held || (l.die d).orphan || l.dieLost d || ((l.die d).stale && w != .uvRestart n) || c.lowest != n
      || l.plan.edges.any (fun e => e.work.src == .load n)
  then l else l.sendEdge w c.cfg.prio c.cfg.latUs none

/-- The restart edge of a load channel executes: a retry is consumed, cause 8; or an undervoltage restart, cause 11. -/
def Live.loadRestarts (l : Live) (n : Nat) (fault : Bool) : Live :=
  let c := l.ch n
  if !c.restartDue then l
  else
    let l := if fault then (l.setCh n fun c => { c with
        retriesLeft := c.retriesLeft - 1, fpend := false, uvOff := false }).loadEvent n 8
      else (l.setCh n fun c => { c with uvOff := false }).loadEvent n 11
    l.loadOn n c.cmd

/-- RETRY_REFILL of a load channel: the greater of 10 s and 10 x RETRY_MS of on-time without a fault turn-off. -/
def loadRetryRefill (n : Nat) (l : Live) : Live :=
  let c := l.ch n
  let on := c.onAcc + if c.conducts then l.mt.now - c.onAt else 0
  if max (ms 10000) (10 * ms c.cfg.retryMs) ≤ on then l.setCh n fun c => { c with retriesLeft := c.cfg.retries } else l

/-! ### Orphan mode (R150 to R153, R517) -/

/-- A turn-on that the die itself may place for a channel: a fault restart or an undervoltage restart. -/
def LoadCh.orphanDue (c : LoadCh) : Bool := c.restartDue && (c.fpend || c.uvOff)

/-- ORPHAN_TURN_ON for load channels: the first in channel order, one per group per 1 ms. -/
def loadOrphanTurnOn (g : Nat) (l : Live) : Option Live :=
  match (l.lowestOf g).find? (fun n => (l.ch n).orphanDue) with
  | none => none
  | some n => some ((l.bookSlew n).loadRestarts n (l.ch n).fpend)

/-- The die may place another turn-on in this group now. -/
def Live.orphanSlot (l : Live) (g : Nat) : Bool :=
  let d := l.die (dieOfGroup g)
  d.orphan && decide (d.turnOns.getD (g % 2) 0 + ms 1 ≤ l.mt.now)

/-- WIRE_BACKSTOP_TRIP: current i in 10 mA over dtNs in orphan mode.  Q_MARGIN only falls, and at 0 the channel turns off and
latches whatever WIRE_RETRY says, with cause 9; the integral of I2 counts on for adoption.  A channel with MODEL_OFF (I_SAFE 0xFFFF)
has no wire trip (R190).  DESIGN CHOICE: the latching cause it keeps is 10. -/
def wireBackstop (k i dtNs : Nat) (clamps : Bool) (l : Live) : Live :=
  let n := (l.ch k).lowest
  let c := l.ch n
  if !(l.die (sourceDie (.load n))).orphan then l
  else
    let i2 : Int := (i : Int) * i * dtNs / 10000000
    let safe2 : Int := (100 * c.iSafe * c.iSafe : Nat) * (dtNs : Int) / 10000000
    let q := if c.conducts && decide (10 * c.iSafe < i) then c.qMargin - (i2 - safe2) else c.qMargin
    let l := l.setCh n fun c => { c with qMargin := q, i2 := c.i2 + i2, i := i }
    if c.conducts && c.iSafe != 0xFFFF && decide (q ≤ 0) then (l.loadOff n clamps (some 10)).latchCh n 10 else l

def execWireBackstopTrip (ch : Nat) (x : WireRun) (clamps : Bool) (s : State) : Result :=
  .next (s.onLive (wireBackstop ch x.ma x.dtNs clamps))

/-- Entry of one die to orphan mode (R150): edges not yet sent are dropped without an event, placed ones stay; while the
command layer runs, the entries that waited for a dropped edge end with INTERNAL (R159). -/
def Live.orphanDie (l : Live) (d : Nat) : Live :=
  if (l.die d).orphan then l
  else
    let l := l.setDie d fun x => { x with orphan := true, orphanAt := l.mt.now, turnOns := [0, 0], offDone := false, tries := 0, mustReinit := false }
    let gone := fun (e : Edge) => sourceDie e.work.src == d && e.phase != .placed
    let late := fun (c : SlotChange) => sourceDie c.slot.src == d && !c.admitted
    let owners := (l.plan.edges.filter gone).map (fun (e : Edge) => e.owner) ++
      (l.plan.changes.filter late).map (fun (c : SlotChange) => c.owner)
    let l := { l with plan := { l.plan with
      edges := l.plan.edges.filter (fun e => !gone e), changes := l.plan.changes.filter fun c => !late c } }
    owners.foldl (fun l o => l.entryDone o .internal) l

end Sys2Proof.Machine
end

