-- ==== Sys2Proof/Machine/Bridge.lean ====
section
/-! DEFINITION. Motor bridge legs (04_load_channels_bridges.md): the BRIDGE commands, direction change and protection. -/

namespace Sys2Proof.Machine

/-! ### Bridges and their reported state (R120, R129, R131) -/

def Live.brc (l : Live) (k : Nat) : BridgeCfg := l.load.brCfg.getD (k / 2) BridgeCfg.default

def Live.bridge (l : Live) (k : Nat) : Bridge := l.load.br.getD k Bridge.init

def Live.setBr (l : Live) (k : Nat) (f : Bridge → Bridge) : Live :=
  { l with load := { l.load with br := upd l.load.br k f } }

/-- The bridge or half-bridge leg that a leg belongs to. -/
def Live.bridgeOfLeg (l : Live) (leg : Nat) : Nat := if (l.brc leg).half then leg else leg - leg % 2

def BrState.code : BrState → Nat
  | .float => 0 | .brake => 1 | .forward => 2 | .reverse => 3 | .reversing => 4 | .level => 5 | .thermalOff => 6
  | .uvWait => 7 | .latched => 8

/-- The present duty along its ramp. -/
def Bridge.dutyAt (b : Bridge) (now : Nat) : Nat :=
  let moved := if b.rampMs = 0 then 65535 else 65535 * (now - b.fromMt) / (b.rampMs * 1000000)
  if b.fromDuty ≤ b.toDuty then min b.toDuty (b.fromDuty + moved) else max b.toDuty (b.fromDuty - moved)

/-- Drives in some direction or level. -/
def Bridge.runs (b : Bridge) : Bool :=
  match b.st with
  | .forward => true
  | .reverse => true
  | .reversing => true
  | .level => true
  | _ => false

/-- BR as a bridge or leg that can be addressed. -/
def Live.brOk (l : Live) (k : Nat) : Bool := decide (k ≤ 7) && ((l.brc k).half || k % 2 == 0)

/-- The junction of the hotter leg (R129). -/
def Live.bridgeTj (l : Live) (k : Nat) : Int :=
  if (l.brc k).half then (l.bridge k).tj else max (l.bridge k).tj (l.bridge (k + 1)).tj

/-- A motor current with the sign of R129: positive in FORWARD; while a direction is left, that one counts. -/
def Bridge.motor (b : Bridge) (i : Nat) : Int :=
  if (if b.dirStep = 0 then b.action else b.dirFrom) = 3 then -(i : Int) else i

/-- FLAGS of R129. -/
def Live.bridgeFlags (l : Live) (k : Nat) : Nat :=
  let b := l.bridge k
  maskOf 4 fun i => [b.limiting, b.openLoad,
    l.stagedOn (fun s => match s with | .bridge j _ _ _ => j == k | _ => false), b.adopted].getD i false

def Live.bridgePayload (l : Live) (k : Nat) : List Byte :=
  let b := l.bridge k
  le 1 b.st.code ++ le 1 (l.bridgeFlags k) ++ leInt 2 b.i ++ le 2 (b.dutyAt l.mt.now) ++ leInt 2 (l.bridgeTj k)

def bridgeSev (cause : Nat) : Nat :=
  [info, warn, warn, sevFault, sevFault, notice, notice, warn, notice].getD cause info

def Live.bridgeEvent (l : Live) (k cause : Nat) : Live :=
  l.dieRaise (sourceDie (.leg k)) (0x78 + k) (bridgeSev cause) cause (l.bridgePayload k)

/-! ### What a bridge books (R163) -/

def Live.bridgeBooked (l : Live) (k : Nat) : Nat := ((l.plan.legBook.getD k BookCfg.unset).iBook).getD 150

/-- The steps of a drive: a struck start books I_BOOK until its slot is in force, a stop gives it back, a change of duty or
direction nothing. -/
def Live.bridgeSteps (l : Live) (k action : Nat) : Steps :=
  let rate := rateOf (l.brc k).edgeClass
  if action < 2 then [(0, - l.bookedNow (.leg k), rate)]
  else if (l.bridge k).runs then [] else [(0, (l.bridgeBooked k : Int), rate)]

/-- The PWM period: 40 MHz divided by the nearest whole number (R122). -/
def bridgePeriod (hz : Nat) : Nat := 25 * ((80000000 + hz) / (2 * max 1 hz))

/-- The on-phase of a period: omitted when shorter than DEAD_NS + 100 ns, the whole period when the off-phase is shorter
than 2 x DEAD_NS + 100 ns (R122). -/
def bridgeOn (period duty dead : Nat) : Nat :=
  let on := onTime period duty
  if on < dead + 100 then 0 else if period - on < 2 * dead + 100 then period else on

def Live.bridgeSlot (l : Live) (k duty : Nat) : Standing :=
  let c := l.brc k
  let period := bridgePeriod c.pwmHz
  { src := .leg k, group := sourceGroup (.leg k), prio := c.prio, cls := c.edgeClass, i := l.bridgeBooked k,
    period := period, offset := 0, onNs := bridgeOn period duty c.deadNs }

/-- The standing slot of a drive to a duty: while the duty ramps down from a higher one, that of the higher. -/
def Live.driveSlot (l : Live) (k duty : Nat) : Standing :=
  l.bridgeSlot k (if (l.bridge k).runs then max duty ((l.bridge k).dutyAt l.mt.now) else duty)

/-! ### The switches of the legs (R121 to R124, R128) -/

/-- What the two switches of a leg do. -/
inductive LegDrive where
  | off
  | high
  | low
  deriving DecidableEq, Repr

/-- Time in ns since the start of the present pulse of a bridge, its on-time at the present duty, and its period: as its
standing slot lays the pulses, from MT 0 while it has none. -/
def Live.legPulse (l : Live) (k : Nat) : Nat × Nat × Nat :=
  let c := l.brc k
  let s := (l.plan.stand.find? fun s => s.src == .leg k).getD (l.bridgeSlot k 0)
  let now := l.mt.now
  let base := if s.framed then now / frameNs * frameNs else 0
  let u := (now - base + s.period - s.offset % max 1 s.period) % max 1 s.period
  let d := tickNs * l.ditherOf s (now - u)
  let on := bridgeOn s.period ((l.bridge k).dutyAt now) c.deadNs
  ((u + s.period - d % max 1 s.period) % max 1 s.period, if (l.bridge k).limiting then min on u else on, s.period)

/-- The switches that a leg has on in the on-phase and in the off-phase: `lower` tells the lower leg from the upper. -/
def BridgeCfg.phases (c : BridgeCfg) (b : Bridge) (lower : Bool) : LegDrive × LegDrive :=
  let brake : LegDrive := if c.brakeHigh && !c.half then .high else .low
  let dir := fun (forward : Bool) =>
    if lower == forward then
      (LegDrive.high, if c.decay = 1 then LegDrive.high else .low)
    else (LegDrive.low, if c.decay = 0 then LegDrive.low else .high)
  match b.st with
  | .brake => (brake, brake)
  | .forward => dir true
  | .reverse => dir false
  | .reversing => if b.dirStep = 2 then (brake, brake) else dir (b.dirFrom == 2)
  | .level => (.high, .low)
  | _ => (.off, .off)

/-- What a leg's switches do now.  In FORWARD the upper leg holds its low-side and the lower one switches; DECAY chooses the
recirculation path.  At every change of a leg both its switches are off for DEAD_NS, and so they are before a new direction
starts. -/
def Live.legDrive (l : Live) (leg : Nat) : LegDrive :=
  let k := l.bridgeOfLeg leg
  let c := l.brc k
  let b := l.bridge k
  let p := c.phases b (leg = k)
  let u := l.legPulse k
  if l.mt.now < b.fromMt then .off
  else if p.1 == p.2 || u.2.2 ≤ u.2.1 then p.1
  else if u.2.1 = 0 then p.2
  else if u.1 < c.deadNs || (decide (u.2.1 ≤ u.1) && decide (u.1 < u.2.1 + c.deadNs)) then .off
  else if u.1 < u.2.1 then p.1 else p.2

/-! ### BRIDGE.CONFIG (R127) -/

def BridgeCfg.ofBytes (p : List Byte) : BridgeCfg :=
  { half := byteAt p 1 == 1, decay := byteAt p 2, orphan := byteAt p 3, pwmHz := rd p 4 2, deadNs := rd p 6 2,
    ilimA := byteAt p 8, prio := byteAt p 9, rampMs := rd p 10 2, dirBrakeMax := rd p 12 2, latUs := rd p 14 2,
    edgeClass := byteAt p 16, brakeHigh := bit (byteAt p 17) 1 }

/-- FLOAT, BRAKE or LATCHED. -/
def Bridge.idle (b : Bridge) : Bool := b.st == .float || b.st == .brake || b.st == .latched

/-- A pair takes its configuration.  DESIGN CHOICE: where MODE changes, both half-bridges take the state of the bridge, and a bridge
is LATCHED when a leg was. -/
def Live.applyBridgeCfg (l : Live) (k : Nat) (c : BridgeCfg) : Live :=
  let was := (l.brc k).half
  let a := (l.bridge k).st
  let b := (l.bridge (k + 1)).st
  let l := { l with load := { l.load with brCfg := l.load.brCfg.set (k / 2) c } }
  if was == c.half then l
  else if c.half then l.setBr (k + 1) fun x => { x with st := a, action := (l.bridge k).action }
  else (l.setBr k fun x => { x with st := if b == .latched then .latched else a }).setBr (k + 1) fun x => { x with
    st := .float, action := 0 }

/-- BRIDGE.CONFIG. -/
def bridgeConfig (m : MbRef) (b : Mailbox) (l : Live) : Reply × Live :=
  let p := b.payload
  let k := byteAt p 0
  let c := BridgeCfg.ofBytes p
  checked [(0, decide (k ≤ 6) && k % 2 == 0), (1, decide (byteAt p 1 ≤ 1)), (2, decide (c.decay ≤ 2)),
      (3, decide (c.orphan ≤ 2)), (4, inRange 1000 25000 c.pwmHz), (6, inRange 250 3000 c.deadNs && c.deadNs % 25 == 0),
      (8, inRange 5 40 c.ilimA), (9, decide (c.prio ≤ 7)), (10, decide (c.rampMs ≤ 5000)),
      (12, inRange 10 2000 c.dirBrakeMax), (14, inRange 20 200 c.latUs), (16, decide (c.edgeClass ≤ 3)),
      (17, decide (byteAt p 17 < 4)), resv b 18 2]
    (if l.dieLost (sourceDie (.leg k)) then (refuse .internal, l)
     else if l.draining || !(l.bridge k).idle || !(l.bridge (k + 1)).idle then (refuse .state, l)
     else (l.applyBridgeCfg k c).endConfig m (bit (byteAt p 17) 0) 0x1101 (k / 2) ((p.drop 1).take 17))
    fun r => (r, l)

def execBridgeConfig (s : State) : Result := .next (s.command 0x1101 fun m b l => bridgeConfig m b l)

/-! ### BRIDGE.DRIVE (R124, R125, R128) -/

/-- Starts a duty ramp from the present duty. -/
def Bridge.rampTo (b : Bridge) (now from_ to_ ms_ : Nat) : Bridge :=
  { b with fromDuty := from_, fromMt := now, rampMs := ms_, toDuty := to_ }

/-- The state that an action leads to. -/
def actionState (action : Nat) : BrState :=
  match action with
  | 0 => .float | 1 => .brake | 2 => .forward | 3 => .reverse | _ => .level

/-- A drive reaches the bridge: the status it ends with, and the bridge after it. -/
def Bridge.drive (b : Bridge) (now action duty ramp : Nat) : Status × Bridge :=
  let present := b.dutyAt now
  let b' := { b with action := action, target := duty, ramp := ramp }
  match b.st with
  | .latched => (.state, b)
  | .thermalOff => (.state, b)
  | .uvWait => (.pending, b')
  | .reversing =>
    if action < 2 then (.ok, ({ b' with st := actionState action, dirStep := 0 }).rampTo now 0 0 0)
    else if action = b.dirFrom then
      (.ok, ({ b' with st := actionState action, dirStep := 0 }).rampTo now present duty ramp)
    else (.pending, b')
  | _ =>
    if action < 2 then (.ok, ({ b' with st := actionState action, dirStep := 0 }).rampTo now 0 0 0)
    else if b.runs && b.st != actionState action && action < 4 then
      (.pending, ({ b' with st := .reversing, dirStep := 1, dirAt := now, dirFrom := b.action }).rampTo now present 0 ramp)
    else (.ok, ({ b' with st := actionState action, dirStep := 0 }).rampTo now (if b.runs then present else 0) duty ramp)

/-- A drive reaches its die. -/
def Live.driveBridge (l : Live) (k action duty ramp : Nat) : Status × Live :=
  let r := (l.bridge k).drive l.mt.now action duty ramp
  let l := (l.changed (.leg k)).setBr k fun _ => r.2
  (r.1, if (l.bridge k).runs then l else l.dropSlot (.leg k))

/-- The ramp that a command uses (R128). -/
def Live.rampOf (l : Live) (k ovr : Nat) : Nat := if ovr = 0xFFFF then (l.brc k).rampMs else ovr

/-- What a staged drive draws from the Strike reserve. -/
def Live.bridgeReserve (l : Live) (k action : Nat) : Nat × Nat :=
  let b := l.bridge k
  if action < 2 then (if b.runs then (0, rateOf (l.brc k).edgeClass) else (0, 0))
  else if b.runs then (0, 0) else (l.bridgeBooked k, rateOf (l.brc k).edgeClass)

/-- The duty of a drive of a running bridge fits beside the standing slots (R173). -/
def Live.driveFits (l : Live) (k action duty : Nat) : Bool :=
  decide (action < 2) || !(l.bridge k).runs ||
    l.slotFits l.plan.budgetA (l.plan.want.filter fun (s : Standing) => s.src != .leg k) (l.driveSlot k duty)

/-- BRIDGE.DRIVE: a drive that runs the motor goes to the generation build (R173), FLOAT and BRAKE are edges of their own.  A bridge
dropped for want of budget takes its new command and waits, as a shed channel does (R167, R184). -/
def bridgeDrive (m : MbRef) (b : Mailbox) (l : Live) : Reply × Live :=
  let p := b.payload
  let k := byteAt p 0
  let a := byteAt p 1
  let d := rd p 2 2
  let ovr := rd p 4 2
  let half := (l.brc k).half
  let g := sourceGroup (.leg k)
  let starts := decide (2 ≤ a) && !(l.bridge k).runs
  checked [(0, decide (k ≤ 7) && (half || k % 2 == 0)),
      (1, decide (a ≤ 4) && !(half && (a == 2 || a == 3)) && !(!half && a == 4)),
      (4, decide (ovr ≤ 5000) || ovr == 0xFFFF), resv b 6 2]
    (if l.dieLost (sourceDie (.leg k)) then (refuse .internal, l)
     else if l.draining || (l.bridge k).st == .latched || (l.bridge k).st == .thermalOff then (refuse .state, l)
     else if starts && l.pwr.overvolt then (refuse .state, l)
     else if starts && (l.die (sourceDie (.leg k))).stale then (refuse .budget, l)
     else if b.staged then
       let r := l.bridgeReserve k a
       if 256 ≤ l.host.staged.length then (refuse .busy 1, l)
       else if !l.reserveFits (.leg k) r.1 r.2 || !l.driveFits k a d then (refuse .budget, l)
       else (okReply, l.stage b.seq (.bridge k a d (l.rampOf k ovr)) g r.1 r.2)
     else if (l.bridge k).st == .uvWait || (decide (2 ≤ a) && l.isDropped (.leg k)) then
       (refuse .pending, l.setBr k fun x => { x with action := a, target := d, ramp := l.rampOf k ovr })
     else
       (((l.withdraw (.leg k)).forgetDropped (.leg k)).sendEdge (.bridge k a d (l.rampOf k ovr)) (l.brc k).prio (l.brc k).latUs (some (m, 0))
         ).openEntries m .none [none])
    fun r => (r, l)

def execBridgeDrive (s : State) : Result := .next (s.command 0x1102 fun m b l => bridgeDrive m b l)

/-! ### BRIDGE.STATUS and BRIDGE.CLEAR (R129, R130) -/

def execBridgeStatus (s : State) : Result := .next (s.command 0x1103 fun _ mb l =>
  let k := byteAt mb.payload 0
  let b := l.bridge k
  checked [(0, l.brOk k)]
    (.done .ok 0 (le 1 k ++ le 1 b.st.code ++ le 1 (l.bridgeFlags k) ++ le 1 0 ++ le 2 (b.dutyAt l.mt.now) ++ leInt 2 b.i
      ++ le 2 b.vA ++ le 2 (if (l.brc k).half then 0 else b.vB) ++ leInt 2 (l.bridgeTj k) ++ le 2 0), l)
    fun r => (r, l))

/-- BRIDGE.CLEAR. -/
def bridgeClear (mb : Mailbox) (l : Live) : Reply × Live :=
  let k := byteAt mb.payload 0
  checked [(0, l.brOk k)]
    (if l.dieLost (sourceDie (.leg k)) then (refuse .internal, l)
     else if (l.bridge k).st != .latched then (refuse .state, l)
     else (okReply, (l.changed (.leg k)).setBr k fun b => { b with st := .float, action := 0 }))
    fun r => (r, l)

def execBridgeClear (s : State) : Result := .next (s.command 0x1104 fun _ b l => bridgeClear b l)

/-! ### Direction change (R124) -/

/-- DIR_RAMP_DOWN_END: the duty has reached 0 and the bridge brakes. -/
def dirRampDownEnd (k : Nat) (l : Live) : Live :=
  let b := l.bridge k
  if b.dirStep == 1 && b.dutyAt l.mt.now == 0
  then (l.changed (.leg k)).setBr k fun b => { b with dirStep := 2 }.rampTo l.mt.now 0 0 0 else l

def execDirRampDownEnd (br : Nat) (s : State) : Result := .next (s.onLive (dirRampDownEnd br))

/-- DIR_DONE: motor current i in 10 mA below 0.5 A for 1 ms, no later than DIR_BRAKE_MAX; after one dead time the new direction starts
at duty 0, cause 0. -/
def dirDone (k i belowForNs : Nat) (l : Live) : Live :=
  let b := l.bridge k
  if b.dirStep == 2 && decide (i < 50) && decide (ms 1 ≤ belowForNs) && decide (l.mt.now ≤ b.dirAt + ms (l.brc k).dirBrakeMax) then
    ((l.changed (.leg k)).setBr k fun b => ({ b with st := actionState b.action, dirStep := 0, i := b.motor i }).rampTo
      (l.mt.now + (l.brc k).deadNs) 0 b.target b.ramp).bridgeEvent k 0
  else l

def execDirDone (br i belowForNs : Nat) (s : State) : Result := .next (s.onLive (dirDone br i belowForNs))

/-- DIR_STALLED: DIR_BRAKE_MAX after the command's edge the bridge stays braked, cause 1. -/
def dirStalled (k : Nat) (l : Live) : Live :=
  let b := l.bridge k
  if b.dirStep == 2 && decide (b.dirAt + ms (l.brc k).dirBrakeMax ≤ l.mt.now) then
    ((l.changed (.leg k)).setBr k fun b => { b with st := .brake, action := 1, dirStep := 0 }).bridgeEvent k 1
  else l

def execDirStalled (br : Nat) (s : State) : Result := .next (s.onLive (dirStalled br))

/-! ### Protection (R126) -/

/-- BRIDGE_LIMIT: leg current i in 10 mA above ILIM, limiting for forNs; the on-phase ends (Live.legPulse). -/
def bridgeLimit (leg i forNs : Nat) (l : Live) : Live :=
  let k := l.bridgeOfLeg leg
  let b := l.bridge k
  if !b.runs || i ≤ 100 * (l.brc k).ilimA then l
  else
    let due := decide (ms 100 ≤ forNs) && !b.limitRaised.any fun t => decide (l.mt.now < t + ms 1000)
    let l := l.setBr k fun b => { b with
      limiting := true, i := b.motor i, limitRaised := if due then some l.mt.now else b.limitRaised }
    if due then l.bridgeEvent k 2 else l

def execBridgeLimit (leg i forNs : Nat) (s : State) : Result := .next (s.onLive (bridgeLimit leg i forNs))

/-- The bridge stops for protection: its slot leaves the plan, its duty is 0. -/
def Live.bridgeStops (l : Live) (k : Nat) (st : BrState) : Live :=
  ((l.changed (.leg k)).dropSlot (.leg k)).setBr k fun b => ({ b with st := st, dirStep := 0 }).rampTo l.mt.now 0 0 0

/-- Bridges that reinitialisation has braked float after 100 ms, and then take their persisted configuration (R158). -/
def Live.reinitFloats (l : Live) : Live :=
  let due := (List.range 8).filter fun k => (l.bridge k).floatAt.any fun t => decide (t ≤ l.mt.now)
  let l := due.foldl (fun l k =>
    let l := l.setBr k fun b => { b with floatAt := none }
    if (l.bridge k).st == .brake then l.bridgeStops k .float else l) l
  (List.range 4).foldl (fun l p => match l.load.brNew.getD p none with
    | some c =>
      if (l.bridge (2 * p)).floatAt.isSome || (l.bridge (2 * p + 1)).floatAt.isSome then l
      else { l with load := { l.load with brCfg := l.load.brCfg.set p c, brNew := l.load.brNew.set p none } }
    | none => l) l

/-- A switch of the bridge may be on. -/
def Bridge.conducts (b : Bridge) : Bool := b.runs || b.st == .brake

/-- BRIDGE_SHORT: leg current above 60 A, or more than 3 V for 1 us across a switch that is on. -/
def bridgeShort (leg i vdsMv : Nat) (l : Live) : Live :=
  let k := l.bridgeOfLeg leg
  let b := l.bridge k
  if b.st == .latched || (i ≤ 6000 && (vdsMv ≤ 3000 || !b.conducts)) then l
  else (l.bridgeStops k .latched).bridgeEvent k 3

def execBridgeShort (leg i vdsMv : Nat) (s : State) : Result := .next (s.onLive (bridgeShort leg i vdsMv))

/-- The legs of a bridge or half-bridge. -/
def Live.legsOf (l : Live) (k : Nat) : List Nat := if (l.brc k).half then [k] else [k, k + 1]

/-- BRIDGE_THERMAL: 175 °C within 5 °C of a leg floats the bridge, with every leg below 150 °C it returns to FLOAT. -/
def bridgeThermal (leg : Nat) (tj : Int) (l : Live) : Live :=
  let k := l.bridgeOfLeg leg
  let l := l.setBr leg fun b => { b with tj := tj }
  let st := (l.bridge k).st
  if st == .thermalOff then
    if (l.legsOf k).all fun j => decide ((l.bridge j).tj < 1500)
    then ((l.changed (.leg k)).setBr k fun b => { b with st := .float, action := 0 }).bridgeEvent k 5 else l
  else if st == .latched || tj < 1700 then l
  else (l.bridgeStops k .thermalOff).bridgeEvent k 4

def execBridgeThermal (leg : Nat) (tj : Int) (s : State) : Result := .next (s.onLive (bridgeThermal leg tj))

/-- BRIDGE_UV: the group below VBAT_UV floats the bridge; once it has recovered the last command is reapplied with its duty ramped
from 0. -/
def bridgeUv (k : Nat) (l : Live) : Live :=
  let b := l.bridge k
  let low := l.pwr.uv.getD (sourceGroup (.leg k)) false
  if !l.brOk k then l
  else if low then
    if b.st == .latched || b.st == .thermalOff || b.st == .uvWait then l
    else (l.bridgeStops k .uvWait).bridgeEvent k 6
  else if b.st == .uvWait then
    let l := (l.changed (.leg k)).setBr k fun b => ({ b with st := actionState b.action }).rampTo l.mt.now 0
      (if 2 ≤ b.action then b.target else 0) b.ramp
    (if (l.bridge k).runs then l.askSlot (l.bridgeSlot k b.target) .on false none else l).bridgeEvent k 6
  else l

def execBridgeUv (br : Nat) (s : State) : Result := .next (s.onLive (bridgeUv br))

/-- BRIDGE_OPEN_LOAD: motor current i in 10 mA below 0.2 A for 100 ms at a duty of at least 25 %, or above it again. -/
def bridgeOpenLoad (k i forNs : Nat) (l : Live) : Live :=
  let b := l.bridge k
  if forNs < ms 100 then l
  else if !b.openLoad && b.runs && decide (i < 20) && decide (16384 ≤ b.dutyAt l.mt.now) then
    (l.setBr k fun b => { b with openLoad := true, i := b.motor i }).bridgeEvent k 7
  else if b.openLoad && decide (20 < i) then (l.setBr k fun b => { b with openLoad := false, i := b.motor i }).bridgeEvent k 7
  else l

def execBridgeOpenLoad (br i forNs : Nat) (s : State) : Result := .next (s.onLive (bridgeOpenLoad br i forNs))

/-- The ORPHAN action of a bridge (R151): a direction change in progress ends in BRAKE whatever the action; what BRAKE or FLOAT leaves
is the state that a recovery returns to, and that adoption finds (R157). -/
def Live.bridgeOrphan (l : Live) (k : Nat) : Live :=
  let b := l.bridge k
  let c := l.brc k
  let ends := fun (st : BrState) (a : Nat) => (if b.runs then l.bridgeStops k st else l).setBr k fun b => { b with action := a, target := 0 }
  if b.dirStep != 0 then ends .brake 1
  else if !(b.runs || (b.st == .uvWait && decide (2 ≤ b.action))) then l
  else if c.orphan = 1 then ends .brake 1
  else if c.orphan = 2 then ends .float 0
  else l

/-- A bridge in a plan frame: once its ramp has ended, its slot is that of its duty. -/
def Live.bridgeFrame (l : Live) (k : Nat) : Live :=
  let b := l.bridge k
  let s := l.bridgeSlot k b.toDuty
  if b.runs && b.dirStep == 0 && b.dutyAt l.mt.now == b.toDuty
      && l.plan.want.any (fun x => x.src == .leg k && x.onNs != s.onNs)
      && !(l.plan.changes.any fun c => c.slot.src == .leg k)
  then l.askSlot s .on false none else l

/-- READBACK_SAMPLE of a leg (R117, R129): motor current in 10 mA, the leg's output in mV, its junction. -/
def legReadback (leg : Nat) (xs : List Readback) (l : Live) : Live :=
  let k := l.bridgeOfLeg leg
  let v := (clip 0 40000 (meanOf (fun x => (x.v : Int)) xs)).toNat
  let l := l.setBr leg fun b => { b with tj := clip (-500) 2000 (meanOf (·.tj) xs) }
  if leg = k then l.setBr k fun b => { b with i := meanOf (·.i) xs, vA := v } else l.setBr k fun b => { b with vB := v }

end Sys2Proof.Machine
end

