-- ==== Sys2Proof/Machine/Audio.lean ====
section
/-! DEFINITION. The audio alert engine (10_audio_alert.md): zones, clips, programmes, the door-closing chime, pilot
supervision and the AUDIO commands. -/

namespace Sys2Proof.Machine

/-! ### Zones and their lines (R292, R297, R298) -/

def Live.zone (l : Live) (n : Nat) : Zone := l.audio.zones.getD n Zone.init

def Live.setZone (l : Live) (n : Nat) (f : Zone → Zone) : Live :=
  { l with audio := { l.audio with zones := upd l.audio.zones n f } }

/-- A reason other than idleness that holds MUTEn_N low. -/
def Live.zoneMuted (l : Live) (n : Nat) : Bool :=
  !(l.pwr.mode == .run || (l.pwr.mode == .drain && decide (l.pwr.drain.step < 2))) || (l.load.dies.getD 1 DieState.init).orphan
    || l.sup.phase != .running || (l.zone n).cfg.mute

/-- MUTEn_N is low (R292). -/
def Live.muteLow (l : Live) (n : Nat) : Bool :=
  let z := l.zone n
  l.zoneMuted n || l.islandDown 4 || !(z.cfg.supervise || z.playing.any (·.started))

/-- STATE of R297. -/
def Live.zoneState (l : Live) (n : Nat) : Nat :=
  match (l.zone n).playing with
  | some p => if p.fade.isSome then 3 else if l.zoneMuted n then 2 else if p.started then 1 else 0
  | none => if l.zoneMuted n then 2 else 0

/-- FAULT of R297. -/
def Zone.fault (z : Zone) : Nat :=
  maskOf 4 fun i => [z.stands.getD 2 false, z.stands.getD 1 false, z.stands.getD 0 false, z.vRef.isNone].getD i false

def zoneSev (cause : Nat) : Nat :=
  [info, info, notice, notice, sevFault, sevFault, warn, notice, sevFault].getD cause info

/-- An event of a zone, with the programme it is about. -/
def Live.zoneEvent (l : Live) (n cause : Nat) (prog : Option Programme) (found : Bool) : Live :=
  let z := l.zone n
  l.raise (0x0F0 + n) (zoneSev cause) cause (le 1 (l.zoneState n) ++ le 1 z.fault ++
    le 2 ((prog.map (·.id)).getD 0xFFFF) ++ le 2 z.z ++ le 1 ((prog.map (·.prio)).getD 0) ++ le 1 (b2n found))

/-! ### Clips (R285) -/

/-- An entry of the clip directory. -/
structure Clip where
  id : Nat
  format : Nat
  chime : Bool
  offset : Nat
  samples : Nat
  crc : Nat
  deriving DecidableEq, Repr

/-- ASSET in code flash (R26). -/
def assetBase : Nat := 0xC00000

/-- The directory at the start of ASSET, up to the entry 0xFFFF. -/
def clipDir (flash : Memory) : Nat → Nat → List Clip
  | 0, _ => []
  | fuel + 1, a =>
    let e := memReadN 0xFF flash a 16
    if rd e 0 2 = 0xFFFF then []
    else { id := rd e 0 2, format := byteAt e 2, chime := bit (byteAt e 3) 0, offset := rd e 4 4, samples := rd e 8 4,
           crc := rd e 12 4 } :: clipDir flash fuel (a + 16)

/-- At most 1024 clips. -/
def clips (flash : Memory) : List Clip := clipDir flash 1024 assetBase

def Clip.width (c : Clip) : Nat := if c.format = 0 then 2 else 3

/-- Why a clip fails its check: 0 CRC, 1 format (a field outside the range of R285). -/
def Clip.fails (c : Clip) (flash : Memory) : Option Nat :=
  if 1 < c.format || 1023 < c.id || c.samples = 0 || 2880000 < c.samples then some 1
  else if (crc32 (memReadN 0xFF flash (assetBase + c.offset) (c.samples * c.width))).toNat = c.crc then none else some 0

/-- The check of every clip at a start and after an installation. -/
def Live.checkClips (l : Live) (flash : Memory) : Live :=
  (clips flash).foldl (fun l c =>
    match c.fails flash with
    | none => l
    | some cause => ({ l with audio := { l.audio with bad := l.audio.bad ++ [c.id] } }).raise 0x0F8 sevFault cause
        (le 2 c.id)) { l with audio := { l.audio with bad := [] } }

/-- Sample k of a clip as a 24-bit number. -/
def Clip.sample (c : Clip) (flash : Memory) (k : Nat) : Int :=
  let b := memReadN 0xFF flash (assetBase + c.offset + c.width * k) c.width
  if c.format = 0 then rdInt b 0 2 * 256 else rdInt b 0 3

/-! ### Programmes (R286 to R289) -/

/-- The present programme's fade begins, to end with a cause; one that has not started ends at once. -/
def Live.fadeOut (l : Live) (n cause : Nat) : Live :=
  l.setZone n fun z => { z with playing := z.playing.map fun p => if p.fade.isSome then p
    else { p with fade := some (if p.started then l.mt.now else l.mt.now - ms 10, cause), void := true } }

/-- Insertion in order of priority, then of arrival. -/
def queueInsert (p : Programme) : List Programme → List Programme
  | [] => [p]
  | q :: qs => if p.prio < q.prio then p :: q :: qs else q :: queueInsert p qs

def startPlaying (p : Programme) : Playing := { prog := p, started := false, pos := 0, passes := 0, void := false, fade := none }

/-- What becomes of a request on one zone. -/
inductive PlayResult where
  | starts | queued | refused
  deriving DecidableEq, Repr

/-- A programme requested on a zone (R286).  One that waited for the fade to end goes to the queue when a higher one comes. -/
def Live.requestPlay (l : Live) (n : Nat) (p : Programme) (queue : Bool) : PlayResult × Live :=
  let z := l.zone n
  let room := decide (z.queue.length < 4)
  let enqueue := (PlayResult.queued, l.setZone n fun z => { z with queue := queueInsert p z.queue })
  match z.playing with
  | none => (.starts, l.setZone n fun z => { z with playing := some (startPlaying p) })
  | some q =>
    let rank := match z.next with
      | some x => min x.prio q.prog.prio
      | none => q.prog.prio
    if p.prio < rank && !(q.prog.chime && decide (1 ≤ p.prio)) then
      (.queued, (l.fadeOut n 2).setZone n fun z => { z with
        next := some p, queue := z.next.toList.foldl (fun q x => queueInsert x q) z.queue })
    else if p.prio < rank then (if room then enqueue else (.refused, l))
    else if queue && room then enqueue
    else (.refused, l)

/-- A zone whose AUDIO.PLAY waits has started or will not start. -/
def Live.playSettled (l : Live) (n id : Nat) : Live :=
  match l.audio.opens.find? (fun (o : OpenPlay) => o.id == id) with
  | none => l
  | some o =>
    let o' := { o with waiting := o.waiting.filter (· != n) }
    let rest := l.audio.opens.filter fun (x : OpenPlay) => x.id != id
    if o'.waiting.isEmpty then
      ({ l with audio := { l.audio with opens := rest } }).complete o.m .ok 0 (le 2 id ++ List.replicate 6 0)
    else { l with audio := { l.audio with opens := o' :: rest } }

/-- PROGRAMME_START: the zone's programme reaches its START_MT; cause 0. -/
def programmeStart (n : Nat) (l : Live) : Live :=
  match (l.zone n).playing with
  | some p =>
    if p.started || p.fade.isSome || decide (l.mt.now < p.prog.startMt) then l
    else
      let l := l.setZone n fun z => { z with playing := some { p with started := true } }
      let l := l.setZone n fun z => { z with playing := some { p with started := true, void := l.muteLow n } }
      (l.zoneEvent n 0 (some p.prog) false).playSettled n p.prog.id
  | none => l

def execProgrammeStart (zone : Nat) (s : State) : Result := .next (s.onLogic (programmeStart zone))

/-- Ends the zone's programme with a cause; the next one takes the zone. -/
def Live.endProgramme (l : Live) (n cause : Nat) : Live :=
  let z := l.zone n
  match z.playing with
  | none => l
  | some p =>
    let sounded := cause == 1 && p.prog.chime && !p.void && p.started
    let l := l.setZone n fun z => match z.next, z.queue with
      | some x, q => { z with playing := some (startPlaying x), next := none, queue := q }
      | none, x :: q => { z with playing := some (startPlaying x), queue := q }
      | none, [] => { z with playing := none }
    let l := if sounded then (l.setZone n fun z => { z with chimeAt := some l.mt.now }).zoneEvent n 3 (some p.prog) false
      else l
    (l.zoneEvent n cause (some p.prog) false).playSettled n p.prog.id

/-- A door chime has played to its end, all its passes, neither muted nor stopped nor pre-empted (R288). -/
def Playing.sounded (p : Playing) : Bool :=
  p.prog.chime && p.started && !p.void && p.fade.isNone && !p.prog.loop && decide (p.prog.repeats < p.passes)

/-- The programme's last sample, after all its passes, has left TDM_TX. -/
def Playing.finished (p : Playing) (flash : Memory) : Bool :=
  p.prog.kind == 0 && !p.prog.loop && decide (p.prog.repeats < p.passes) && (clips flash).any fun c => c.id == p.prog.src

/-- PROGRAMME_END: played out with cause 1, or at the end of a fade of 10 ms with the fade's cause. -/
def programmeEnd (n : Nat) (s : State) : State :=
  match (s.live.zone n).playing with
  | none => s
  | some p =>
    match p.fade with
    | some f => if f.1 + ms 10 ≤ s.live.mt.now then s.onLive fun l => l.endProgramme n f.2 else s
    | none => if p.finished s.kept.flash then s.onLive fun l => l.endProgramme n 1 else s

def execProgrammeEnd (zone : Nat) (s : State) : Result := .next (programmeEnd zone s)

/-! ### The zone mix (R283, R284) -/

/-- The frame of MT in which an MT lies, and its start: frame k of a millisecond starts at round(k * 10^6 / 48) ns. -/
def frameStart (k : Nat) : Nat := k / 48 * 1000000 + (2 * (k % 48) * 1000000 + 48) / 96

def frameOf (mt : Nat) : Nat :=
  let k := mt / 1000000 * 48 + mt % 1000000 * 48 / 1000000
  if frameStart (k + 1) ≤ mt then k + 1 else k

/-- 2^30 times the factor of an attenuation of g half decibels. -/
def gainFactor : Nat → Nat
  | 0 => 1073741824
  | g + 1 => gainFactor g * 1013677672 / 1073741824

/-- The 21 kHz pilot at -30 dBFS in frame k, from phase 0 at each millisecond. -/
def pilotSample (k : Nat) : Int :=
  [0, 101515, 187575, 245079, 265271, 245079, 187575, 101515, 0, -101515, -187575, -245079, -265271, -245079, -187575,
   -101515].getD (7 * (k % 48) % 16) 0

def saturate24 (x : Int) : Int := max (-8388608) (min 8388607 x)

/-- 2^30 times the factor of a zone's GAIN now: a change ramps over 10 ms. -/
def Zone.factor (z : Zone) (now : Nat) : Nat :=
  let b := gainFactor z.cfg.gain
  match z.ramp with
  | none => b
  | some (a, at_) =>
    let t := min (ms 10) (now - at_)
    (a * (ms 10 - t) + b * t) / ms 10

/-- The factor in force; a door chime plays at no less than CHIME_MIN. -/
def Live.zoneGain (l : Live) (n : Nat) (chime : Bool) : Nat :=
  let z := l.zone n
  if chime then max (z.factor l.mt.now) (gainFactor z.cfg.chimeMin) else z.factor l.mt.now

/-- The fade factor of a programme in millionths of 10 ms. -/
def Playing.fadeGain (p : Playing) (now : Nat) : Nat :=
  match p.fade with
  | none => ms 10
  | some f => ms 10 - min (ms 10) (now - f.1)

/-- The source sample of a zone's programme in a frame; a link sample that is missing plays as zero. -/
def State.sourceSample (s : State) (n : Nat) (p : Playing) (rx : List Int) : Int :=
  match p.prog.kind with
  | 0 => match (clips s.kept.flash).find? (fun c => c.id == p.prog.src) with
    | some c => if p.pos < c.samples then c.sample s.kept.flash p.pos else 0
    | none => 0
  | 1 => rx.getD p.prog.src 0
  | _ =>
    let delay := us (s.live.zone n).cfg.linkDelay
    let k := frameOf s.live.mt.now
    ((s.live.audio.linkIn.find? fun x => x.1 == p.prog.src && decide (frameStart k ≤ x.2.1 + delay) &&
      decide (x.2.1 + delay < frameStart (k + 1))).map (·.2.2)).getD 0

/-- The output sample of a zone. -/
def State.zoneSample (s : State) (n : Nat) (rx : List Int) : Int :=
  let l := s.live
  let k := frameOf l.mt.now
  let prog := match (l.zone n).playing with
    | some p => if p.started then
        Config.lowpass k (s.sourceSample n p rx) * (l.zoneGain n p.prog.chime) / 1073741824
          * (p.fadeGain l.mt.now) / ms 10 else 0
    | none => 0
  saturate24 (prog + if (l.zone n).cfg.supervise then pilotSample k else 0)

/-- Moves a programme on by one sample, and marks a chime that is muted. -/
def Playing.advance (p : Playing) (flash : Memory) (low : Bool) : Playing :=
  if !p.started then p
  else
    let p := { p with void := p.void || low }
    if p.prog.kind != 0 then p
    else match (clips flash).find? (fun c => c.id == p.prog.src) with
      | none => p
      | some c => if p.pos + 1 < c.samples then { p with pos := p.pos + 1 }
        else if p.prog.loop || decide (p.passes < p.prog.repeats) then { p with pos := 0, passes := p.passes + 1 }
        else { p with pos := c.samples, passes := p.prog.repeats + 1 }

/-- TDM_FRAME: the mix of every zone, the inputs' samples onto their link channels, and every programme one sample on. -/
def tdmFrame (rx : List Int) (s : State) : State :=
  let l := s.live
  let quiet := (l.load.dies.getD 1 DieState.init).orphan || l.sup.phase != .running || l.islandDown 4
  let tx := (List.range 8).map fun n => if quiet then 0 else s.zoneSample n rx
  let routed := (l.audio.routes.zipIdx).filterMap fun x => x.1.map fun c => (c, l.mt.now, rx.getD x.2 0)
  s.onLive fun l =>
    { l with audio := { l.audio with
      tx := tx, linkOut := (l.audio.linkOut ++ routed).drop ((l.audio.linkOut ++ routed).length - 64),
      zones := (l.audio.zones.zipIdx).map fun x =>
        { x.1 with
          playing := x.1.playing.map fun p => p.advance s.kept.flash (l.muteLow x.2),
          mutedAt := if l.muteLow x.2 then some l.mt.now else x.1.mutedAt } } }

def execTdmFrame (rx : List Int) (s : State) : Result := .next (tdmFrame rx s)

/-- A zone plays the live programme of a link channel. -/
def Live.playsLink (l : Live) (c : Nat) : Bool :=
  l.audio.zones.any fun z => z.playing.any fun p => p.started && p.prog.kind == 2 && p.prog.src == c

/-- LINK_AUDIO_LOST (R287): 10 ms of missing samples end the live programmes of a channel; missing no longer restores. -/
def linkAudioLost (c missingNs : Nat) (l : Live) : Live :=
  if ms 10 ≤ missingNs then
    let l := if l.audio.lost.getD c false || !l.playsLink c then l
      else ({ l with audio := { l.audio with lost := l.audio.lost.set c true } }).raise 0x0F9 warn 0 (le 1 c)
    (List.range 8).foldl (fun l n =>
      match (l.zone n).playing with
      | some p => if p.started && p.prog.kind == 2 && p.prog.src == c then l.endProgramme n 6 else l
      | none => l) l
  else if missingNs = 0 && l.audio.lost.getD c false then
    ({ l with audio := { l.audio with lost := l.audio.lost.set c false } }).raise 0x0F9 warn 1 (le 1 c)
  else l

def execLinkAudioLost (ch missingNs : Nat) (s : State) : Result := .next (s.onLogic (linkAudioLost ch missingNs))

/-! ### Pilot supervision (R290, R291) -/

/-- Whether a window meets the criteria of R291, in their order: causes 8, 5 and 4. -/
def Zone.criteria (z : Zone) (v zed : Nat) : List Bool :=
  match z.vRef with
  | none => [false, false, false]
  | some r => [decide (2 * v < r), decide (zed * 100 < z.zRef * (100 - z.cfg.zTol)),
      decide (z.zRef * (100 + z.cfg.zTol) < zed * 100)]

/-- One fault's counts after a window that meets it or not: raised after 3, unless an earlier row of R291 holds, cleared after 10. -/
def Live.countFault (l : Live) (n k cause : Nat) (hit earlier : Bool) : Live :=
  let z := l.zone n
  let meets := if hit then z.meets.getD k 0 + 1 else 0
  let misses := if hit then 0 else z.misses.getD k 0 + 1
  let stands := z.stands.getD k false
  let now := if !stands && decide (3 ≤ meets) && !earlier then true
    else if stands && decide (10 ≤ misses) then false else stands
  let l := l.setZone n fun z => { z with
    meets := z.meets.set k meets, misses := z.misses.set k misses, stands := z.stands.set k now }
  if now == stands then l else l.zoneEvent n cause (z.playing.map (·.prog)) now

/-- The zone was muted at some moment of the last 100 ms. -/
def Live.mutedLately (l : Live) (n : Nat) : Bool :=
  l.muteLow n || (l.zone n).mutedAt.any fun t => decide (l.mt.now < t + ms 100)

/-- PILOT_WINDOW: |V| in mV and |I| in 0.1 mA on the line over 100 ms; a window with a sample at -1 dBFS or muted is
discarded. -/
def pilotWindow (n v i : Nat) (clipped : Bool) (l : Live) : Live :=
  if clipped || !(l.zone n).cfg.supervise || l.mutedLately n then l
  else
    let zed := if i = 0 then 0xFFFF else min 0xFFFF (1000 * v / i)
    let l := l.setZone n fun z => { z with z := zed, cal := z.cal.map fun (c : List (Nat × Nat)) => c ++ [(v, i)] }
    let hit := fun k => ((l.zone n).criteria v zed).getD k false
    ((l.countFault n 0 8 (hit 0) false).countFault n 1 5 (hit 1) (hit 0)).countFault n 2 4 (hit 2) (hit 0)

def execPilotWindow (zone v i : Nat) (clipped : Bool) (s : State) : Result :=
  .next (s.onLogic (pilotWindow zone v i clipped))

/-- CALIBRATION_DONE: after 10 windows V_REF and Z_REF are stored and persisted, or refused below 1 % of the input
range of ±1.0 V (R548). -/
def calibrationDone (n : Nat) (l : Live) : Live :=
  match (l.zone n).cal with
  | none => l
  | some ws =>
    if ws.length < 10 then l
    else
      let ws := ws.take 10
      let v := sumNatList (ws.map (·.1)) / 10
      let i := sumNatList (ws.map (·.2)) / 10
      let zed := sumNatList (ws.map fun w => if w.2 = 0 then 0xFFFF else 1000 * w.1 / w.2) / 10
      let prog := (l.zone n).playing.map (·.prog)
      if i * Config.shuntMohm n < 100000 then (l.setZone n fun z => { z with cal := none }).zoneEvent n 7 prog false
      else ((l.setZone n fun z => { z with
          cal := none, vRef := some v, zRef := zed, meets := [0, 0, 0], misses := [0, 0, 0] }).persistOwn 0x3805 n (le 4 v ++ le 4 zed)).zoneEvent n 7 prog true
where sumNatList (xs : List Nat) : Nat := xs.foldl (· + ·) 0

def execCalibrationDone (zone : Nat) (s : State) : Result := .next (s.onLogic (calibrationDone zone))

/-! ### The AUDIO commands (R294 to R297) -/

def ZoneCfg.ofBytes (p : List Byte) : ZoneCfg :=
  { supervise := bit (byteAt p 1) 1, mute := bit (byteAt p 1) 2, gain := byteAt p 2, chimeMin := byteAt p 3,
    zTol := byteAt p 4, linkDelay := rd p 5 2 }

/-- A zone takes its configuration: GAIN ramps, supervision restarts its window count (R293). -/
def Live.applyZoneCfg (l : Live) (n : Nat) (p : List Byte) : Live :=
  l.setZone n fun z =>
    let c := ZoneCfg.ofBytes p
    let z := if c.gain = z.cfg.gain then z else { z with ramp := some (z.factor l.mt.now, l.mt.now) }
    let z := if c.supervise == z.cfg.supervise && c.gain = (l.zone n).cfg.gain then z
      else { z with meets := [0, 0, 0], misses := [0, 0, 0] }
    { z with cfg := c, playing := z.playing.map fun q => { q with void := q.void || (c.mute && q.started) } }

/-- AUDIO.ZONE. -/
def audioZone (m : MbRef) (b : Mailbox) (l : Live) : Reply × Live :=
  let p := b.payload
  let n := byteAt p 0
  checked [(0, decide (n ≤ 7)), (1, decide (byteAt p 1 < 8)), (2, decide (byteAt p 2 ≤ 127)),
      (3, decide (byteAt p 3 ≤ 127)), (4, inRange 5 50 (byteAt p 4)), (5, inRange 500 5000 (rd p 5 2)), resv b 7 1]
    ((l.applyZoneCfg n p).endConfig m (bit (byteAt p 1) 0) 0x3801 n p)
    fun r => (r, l)

def execAudioZone (s : State) : Result := .next (s.command 0x3801 fun m b l => audioZone m b l)

/-- The per-zone status bytes of AUDIO.PLAY for zones 0 to 5. -/
def playStatuses (rs : List (Nat × PlayResult)) : List Byte :=
  (List.range 6).map fun n =>
    match rs.find? (fun r => r.1 == n) with
    | some (_, .queued) => 1
    | some (_, .refused) => 2
    | _ => 0

/-- AUDIO.PLAY. -/
def audioPlay (m : MbRef) (b : Mailbox) (flash : Memory) (l : Live) : Reply × Live :=
  let p := b.payload
  let kind := byteAt p 1
  let src := rd p 2 2
  let clip := (clips flash).find? fun c => c.id == src
  checked [(0, byteAt p 0 != 0), (1, decide (kind ≤ 2)),
      (2, if kind = 0 then clip.isSome else decide (src ≤ 7)), (4, decide (byteAt p 4 ≤ 7)), (5, decide (byteAt p 5 < 4)),
      resv b 7 1]
    (if l.pwr.mode == .drain then (refuse .state, l)
     else if kind = 0 && l.audio.bad.contains src then (refuse .crc, l)
     else
       let chime := kind == 0 && clip.any (·.chime)
       let prog : Programme :=
         { id := l.audio.nextId, kind := kind, src := src, prio := if chime then 1 else byteAt p 4,
           loop := kind == 0 && bit (byteAt p 5) 1, repeats := byteAt p 6,
           startMt := if rd p 8 8 = 0 then l.mt.now else rd p 8 8, chime := chime }
       let zones := bitsOf 8 (byteAt p 0)
       let l := { l with audio := { l.audio with nextId := (l.audio.nextId + 1) % 0xFFFF } }
       let r := zones.foldl (fun (r : List (Nat × PlayResult) × Live) n =>
         let x := r.2.requestPlay n prog (bit (byteAt p 5) 0)
         (r.1 ++ [(n, x.1)], x.2)) ([], l)
       let payload := le 2 prog.id ++ playStatuses r.1
       match r.1.find? (fun x => x.2 == .refused) with
       | some (n, _) => (.done .busy n payload, r.2)
       | none =>
         if r.1.any (fun x => x.2 == .queued) || decide (l.mt.now + ms 5 < prog.startMt)
         then (.done .pending 0 payload, r.2)
         else (.wait, { r.2 with audio := { r.2.audio with
           opens := r.2.audio.opens ++ [OpenPlay.mk m prog.id zones zones] } }))
    fun r => (r, l)

def execAudioPlay (s : State) : Result := .next (s.command 0x3802 fun m b l => audioPlay m b s.kept.flash l)

/-- AUDIO.STOP. -/
def audioStop (b : Mailbox) (l : Live) : Reply × Live :=
  let p := b.payload
  checked [(0, byteAt p 0 != 0), (1, decide (byteAt p 1 ≤ 1)), resv b 2 2]
    (okReply, (bitsOf 8 (byteAt p 0)).foldl (fun l n =>
      let l := if byteAt p 1 = 1 then l.setZone n fun z => { z with queue := [], next := none } else l
      l.fadeOut n 1) l)
    fun r => (r, l)

def execAudioStop (s : State) : Result := .next (s.command 0x3803 fun _ b l => audioStop b l)

/-- AUDIO.ROUTE. -/
def audioRoute (b : Mailbox) (l : Live) : Reply × Live :=
  let p := b.payload
  checked [(0, decide (byteAt p 0 ≤ 7)), (1, decide (byteAt p 1 ≤ 7) || byteAt p 1 == 0xFF), resv b 2 2]
    (if !l.link.cascaded then (refuse .state, l)
     else (okReply, { l with audio := { l.audio with
       routes := l.audio.routes.set (byteAt p 0) (if byteAt p 1 = 0xFF then none else some (byteAt p 1)) } }))
    fun r => (r, l)

def execAudioRoute (s : State) : Result := .next (s.command 0x3804 fun _ b l => audioRoute b l)

/-- AUDIO.CALIBRATE. -/
def audioCalibrate (b : Mailbox) (l : Live) : Reply × Live :=
  let n := byteAt b.payload 0
  checked [(0, decide (n ≤ 7)), resv b 1 3]
    (if !(l.zone n).cfg.supervise || l.muteLow n then (refuse .state, l)
     else (refuse .pending, l.setZone n fun z => { z with cal := some [] }))
    fun r => (r, l)

def execAudioCalibrate (s : State) : Result := .next (s.command 0x3805 fun _ b l => audioCalibrate b l)

/-- Seconds since T_CHIME. -/
def Live.chimeAge (l : Live) (n : Nat) : Nat :=
  match (l.zone n).chimeAt with
  | none => 0xFFFF
  | some t => min 0xFFFE ((l.mt.now - t) / 1000000000)

def execAudioStatus (s : State) : Result := .next (s.command 0x3806 fun _ _ l =>
  (.done .ok 0 ((List.range 8).flatMap fun n =>
    let z := l.zone n
    le 1 (l.zoneState n) ++ le 1 z.fault ++ le 2 ((z.playing.map (·.prog.id)).getD 0xFFFF) ++ le 2 z.z ++
      le 2 (l.chimeAge n)), l))

/-- Drain step 2: every programme fades out and ends with cause 1 (R292). -/
def Live.audioDrain (l : Live) : Live :=
  (List.range 8).foldl (fun l n => (l.setZone n fun z => { z with queue := [], next := none }).fadeOut n 1) l

end Sys2Proof.Machine
end

