-- ==== Sys2Proof/Machine/Fio.lean ====
section
/-! DEFINITION. Field I/O (09_field_io_wake_inputs.md): input filters, wire breaks, speed and motion, outputs with their
protection, and the FIO commands. -/

namespace Sys2Proof.Machine

/-! ### Channels (R256, R263, R277, R280) -/

def Live.fioCh (l : Live) (n : Nat) : FioCh := l.fio.ch.getD n (FioCh.init n)

def Live.setFio (l : Live) (n : Nat) (f : FioCh → FioCh) : Live :=
  { l with fio := { l.fio with ch := upd l.fio.ch n f } }

def FioCh.members (c : FioCh) : Nat := parMembers c.cfg.par

/-- The filtered state after INVERT. -/
def FioCh.input (c : FioCh) : Bool := c.high != c.cfg.invert

/-- STATE of R277. -/
def FioCh.state (c : FioCh) : Nat :=
  match c.cfg.mode with
  | 0 => 0
  | 1 => if c.input then 2 else 1
  | _ => match c.sw with
    | .on => 4
    | .limit => 5
    | .off => if c.latch then 8 else if !c.cmd then 3 else if c.uvhold then 7 else 6

def FioCh.conducts (c : FioCh) : Bool := c.sw != .off

def Live.fioDeferred (l : Live) (n : Nat) : Bool :=
  l.plan.edges.any fun e => e.work.src == .fio n && e.work.rises && (e.phase == .delayed || e.phase == .held)

/-- DIAG of R277. -/
def Live.fioDiag (l : Live) (n : Nat) : Nat :=
  let c := l.fioCh n
  let low := l.fioCh c.lowest
  maskOf 8 fun b => [c.broken, c.openOn, c.openOff, c.driven, l.fioDeferred c.lowest,
    l.stagedOn (fun s => match s with | .fio k _ => k == c.lowest | _ => false), low.cfg.par != 0, low.adopted].getD b false

def fioSev (cause : Nat) : Nat :=
  [info, warn, info, info, warn, sevFault, sevFault, notice, sevFault, warn, warn, warn, notice, notice, notice,
   sevFault].getD cause info

/-- An event of a field channel; found is byte 15. -/
def Live.fioEvent (l : Live) (n cause found : Nat) : Live :=
  let c := l.fioCh n
  l.dieRaise 0 (0x0C0 + n) (fioSev cause) cause (le 1 c.state ++ le 1 (l.fioDiag n) ++ le 2 c.v ++ leInt 2 c.i ++
    le 1 c.retriesLeft ++ le 1 found)

/-! ### Inputs (R258 to R262) -/

/-- R_IN typical and maximum in 10 Ohm, and the lowest falling threshold in V, of a type. -/
def rinTyp (t : Nat) : Nat := [0, 620, 150, 470].getD t 470
def rinMax (t : Nat) : Nat := [0, 680, 165, 520].getD t 520
def fallMin (t : Nat) : Nat := [0, 6, 6, 8].getD t 8

/-- accept of R260. -/
def FioCfg.wireOk (c : FioCfg) : Bool :=
  decide (36 * rinMax c.type ≤ (fallMin c.type - 1) * (10 * c.rS + rinMax c.type)) && decide (10 * c.rS + rinTyp c.type ≤ 6000)

/-- The channel whose role is this one. -/
def Live.roleInput (l : Live) (role : Nat) : Option Nat :=
  (List.range 32).find? fun n => (l.fioCh n).cfg.mode == 1 && (l.fioCh n).cfg.role == role

/-- MOTION of R262. -/
def Live.motionNow (l : Live) : Nat :=
  let sp := l.roleInput 1
  let mv := l.roleInput 2
  let faulty := fun (n : Option Nat) => n.any fun k => (l.fioCh k).broken || (l.die 0).stale
  if sp.isNone && mv.isNone then 0
  else if faulty sp || faulty mv then 3
  else if (sp.isSome && decide (30 < l.fio.speed)) || mv.any (fun k => (l.fioCh k).input) then 2
  else 1

/-- The speed that is reported: 0xFFFF when MOTION is FAULT or there is no SPEED input. -/
def Live.speedShown (l : Live) : Nat := if l.fio.motion = 3 || (l.roleInput 1).isNone then 0xFFFF else min 0xFFFE l.fio.speed

/-- MOTION is evaluated anew by input n; a change raises cause 13 on it. -/
def Live.evalMotion (l : Live) (n : Nat) : Live :=
  let m := l.motionNow
  if m = l.fio.motion then l
  else
    let l := { l with fio := { l.fio with motion := m } }
    let c := l.fioCh n
    l.dieRaise 0 (0x0C0 + n) notice 13 (le 1 c.state ++ le 1 (l.fioDiag n) ++ le 2 c.v ++ le 2 l.speedShown ++
      le 1 c.retriesLeft ++ le 1 m)

/-- The earlier edges that the speed may still need beside one at `last`: the one before it, and those within 250 ms (R261). -/
def recentEdges (last : Nat) (edges : List Nat) : List Nat :=
  edges.take 1 ++ (edges.drop 1).filter fun t => decide (last ≤ t + ms 250)

/-- The filter's edge has been decided: reported, counted for the speed, or kept from the host in orphan mode. -/
def Live.inputEdge (l : Live) (n : Nat) : Live :=
  let c := l.fioCh n
  match c.cfg.role with
  | 1 => if c.input then { l with fio := { l.fio with speedEdges := l.mt.now :: recentEdges l.mt.now l.fio.speedEdges } } else l
  | _ =>
    let l := if (l.die 0).orphan then l
      else (l.setFio n fun c => { c with reported := c.input }).fioEvent n 0 (b2n c.input)
    if c.cfg.role = 2 then l.evalMotion n else l

/-- The field channels are powered: in every mode but PARK (R256, R257). -/
def Live.fioPowered (l : Live) : Bool := l.pwr.powered && l.pwr.mode != .park

/-- FIO_SAMPLE (R259): one sample of the comparator. -/
def fioSample (n : Nat) (raw : Bool) (l : Live) : Live :=
  let c := l.fioCh n
  if c.cfg.mode != 1 || !l.fioPowered then l
  else if c.fresh then
    l.setFio n fun c => { c with
      fresh := false, count := if raw then c.cfg.filtN else 0, high := raw, reported := raw != c.cfg.invert }
  else
    let k := if raw then min (c.count + 1) c.cfg.filtN else c.count - 1
    let high := if k = c.cfg.filtN then true else if k = 0 then false else c.high
    let l := l.setFio n fun c => { c with count := k, high := high }
    if high == c.high then l else l.inputEdge n

def execFioSample (ch : Nat) (raw : Bool) (s : State) : Result := .next (s.onLive (fioSample ch raw))

/-- WIRE_BREAK_MEASURE (R260): the input current in 10 uA, every 10 ms while the filtered state is OFF. -/
def wireBreakMeasure (n i10ua : Nat) (l : Live) : Live :=
  let c := l.fioCh n
  if c.cfg.mode != 1 || !c.cfg.wireBreak || c.high || !l.fioPowered then l
  else
    let low := decide (2 * i10ua * (10 * c.cfg.rS + rinTyp c.cfg.type) < 10 * l.groupMv 4)
    let l := l.setFio n fun c => { c with i := i10ua }
    if low == c.broken then l.setFio n fun c => { c with wbRun := 0 }
    else if c.wbRun + 1 < 5 then l.setFio n fun c => { c with wbRun := c.wbRun + 1 }
    else
      let l := (l.setFio n fun c => { c with wbRun := 0, broken := low }).fioEvent n 1 (b2n low)
      if c.cfg.role = 0 then l else l.evalMotion n

def execWireBreakMeasure (ch i10ua : Nat) (s : State) : Result := .next (s.onLive (wireBreakMeasure ch i10ua))

/-- The speed of R261 in 0.1 km/h, rounded down. -/
def speedOf (ppk now : Nat) (edges : List Nat) : Nat :=
  match edges with
  | last :: prev :: rest =>
    let near := (prev :: rest).filter fun t => decide (last ≤ t + ms 250)
    let k := max 1 near.length
    let first := near.getLastD prev
    let byEdges := k * 36000000000000 / (ppk * max 1 (last - first))
    if now = last then byEdges else min byEdges (36000000000000 / (ppk * (now - last)))
  | _ => 0

/-- SPEED_COMPUTE: every 10 ms. -/
def speedCompute (l : Live) : Live :=
  if !l.fioPowered then l else
  match l.roleInput 1 with
  | none =>
    let l := { l with fio := { l.fio with speed := 0 } }
    match l.roleInput 2 with
    | some n => l.evalMotion n
    | none => { l with fio := { l.fio with motion := 0 } }
  | some n =>
    ({ l with fio := { l.fio with
      speed := speedOf (max 1 (l.fioCh n).cfg.speedPpk) l.mt.now l.fio.speedEdges } }).evalMotion n

def execSpeedCompute (s : State) : Result := .next (s.onLive speedCompute)

/-! ### Outputs: edges, faults, restarts (R263 to R266) -/

/-- What an output books: 0.5 A per member at class 2. -/
def Live.fioOnSteps (l : Live) (n : Nat) : Steps := [(0, (5 * (l.fioCh n).members : Nat), rateOf 2)]
def Live.fioOffSteps (l : Live) (n : Nat) : Steps := [(0, - l.bookedOf (.fio n), rateOf 2)]

/-- The output turns on, without an event. -/
def Live.fioOn (l : Live) (n : Nat) : Live :=
  (l.changed (.fio n)).setFio n fun c => { c with cmd := true, sw := .on, onAt := l.mt.now, tests := [], testAt := none }

/-- The output turns off, without an event. -/
def Live.fioOff (l : Live) (n : Nat) : Live :=
  (l.changed (.fio n)).setFio n fun c => { c with
    sw := .off, offAt := l.mt.now, onAcc := if c.conducts then c.onAcc + (l.mt.now - c.onAt) else c.onAcc, tests := [],
    testAt := none }

/-- A commanded edge executes: cause 2 or 3. -/
def Live.fioEdge (l : Live) (n : Nat) (on : Bool) : Live :=
  if on then (l.fioOn n).fioEvent n 2 1
  else ((l.fioOff n).setFio n fun c => { c with cmd := false, fpend := false, uvOff := false }).fioEvent n 3 0

def Live.fioLatch (l : Live) (n : Nat) : Live :=
  ((l.changed (.fio n)).setFio n fun c => { c with latch := true, fpend := false, rdelay := none, uvOff := false
    }).fioEvent n 8 1

/-- A fault off with its cause, decided as R143 decides it; a commanded OFF of the same frame leaves it OFF (R273). -/
def Live.fioFault (l : Live) (n cause : Nat) : Live :=
  let l := ((l.fioOff n).setFio n fun c => { c with onAcc := 0 }).fioEvent n cause 1
  match l.plan.edges.find? (fun e => e.work == .fio n false && e.phase == .placed
      && e.tick * tickNs / frameNs == l.mt.now / frameNs) with
  | some e => (((l.unbookEdge e.id).removeEdge e.id).entryDone e.owner .ok).setFio n fun c => { c with
      cmd := false, fpend := false }
  | none =>
    let c := l.fioCh n
    if !c.cmd then l
    else if c.retriesLeft = 0 then l.fioLatch n
    else l.setFio n fun c => { c with fpend := true, rdelay := some (l.mt.now + ms c.cfg.retryMs) }

/-- FIO_OUTPUT_LIMIT: the current i in mA of an output, or of a member of a group, at ILIM (0.8 A) enters LIMIT, below 0.9 of it for
100 us leaves it. -/
def fioOutputLimit (k i belowForNs : Nat) (l : Live) : Live :=
  let n := (l.fioCh k).lowest
  let l' := (l.changed (.fio n)).setFio k fun c => { c with i := i }
  match (l.fioCh n).sw with
  | .on =>
    if 800 ≤ i then
      let due := !(l.fioCh n).limitRaised.any fun t => decide (l.mt.now < t + ms 1000)
      let l := l'.setFio n fun c => { c with
        sw := .limit, limitAt := l.mt.now, limitRaised := if due then some l.mt.now else c.limitRaised }
      if due then l.fioEvent n 4 1 else l
    else l
  | .limit => if decide (i < 720) && decide (us 100 ≤ belowForNs) then l'.setFio n fun c => { c with sw := .on } else l
  | .off => l

def execFioOutputLimit (ch i belowForNs : Nat) (s : State) : Result := .next (s.onLive (fioOutputLimit ch i belowForNs))

/-- FIO_OVERLOAD: LIMIT for 5 ms, or the current i in mA of an output, or of a member of a group, above 1.5 x ILIM for 1 us; cause
5. -/
def fioOverload (k i : Nat) (l : Live) : Live :=
  let n := (l.fioCh k).lowest
  let c := l.fioCh n
  if (c.sw == .limit && decide (c.limitAt + ms 5 ≤ l.mt.now)) || (c.conducts && decide (1200 < i))
  then (l.setFio k fun c => { c with i := i }).fioFault n 5 else l

def execFioOverload (ch i : Nat) (s : State) : Result := .next (s.onLive (fioOverload ch i))

/-- The members of the group of an output. -/
def Live.fioGroup (l : Live) (n : Nat) : List Nat := (List.range (l.fioCh n).members).map (n + ·)

/-- FIO_THERMAL: 175 °C within 5 °C of a member holds the output off until every member is below 150 °C; cause 6. -/
def fioThermal (k : Nat) (tj : Int) (l : Live) : Live :=
  let n := (l.fioCh k).lowest
  let c := l.fioCh n
  let l := l.setFio k fun c => { c with tj := tj }
  if c.cfg.mode != 2 then l
  else if c.thermal then
    if (l.fioGroup n).all fun j => decide ((l.fioCh j).tj < 1500)
    then (l.changed (.fio n)).setFio n fun c => { c with thermal := false } else l
  else if tj < 1700 then l
  else
    let l := l.setFio n fun c => { c with thermal := true }
    if c.conducts then l.fioFault n 6 else l

def execFioThermal (ch : Nat) (tj : Int) (s : State) : Result := .next (s.onLive (fioThermal ch tj))

/-- FIO_CLAMP: a clamp above 15 mJ per member latches the output at its end; causes 15, then 8. -/
def fioClamp (k energyUj : Nat) (l : Live) : Live :=
  let n := (l.fioCh k).lowest
  let c := l.fioCh n
  if c.cfg.mode = 2 && l.fioPowered && decide (15000 * c.members < energyUj) then ((l.fioOff n).fioEvent n 15 1).fioLatch n else l

def execFioClamp (ch energyUj : Nat) (s : State) : Result := .next (s.onLive (fioClamp ch energyUj))

/-- FIO_UV: the group below VBAT_UV turns the output off into UV_WAIT; once recovered the hold clears. -/
def fioUv (n : Nat) (l : Live) : Live :=
  let c := l.fioCh n
  let low := l.pwr.uv.getD (sourceGroup (.fio n)) false
  if c.cfg.mode != 2 || c.lowest != n then l
  else if low && !c.uvhold then
    let l := l.setFio n fun c => { c with uvhold := true }
    if c.conducts then ((l.fioOff n).setFio n fun c => { c with uvOff := true }).fioEvent n 12 1 else l
  else if !low && c.uvhold then (l.changed (.fio n)).setFio n fun c => { c with
    uvhold := false, uvOff := c.uvOff || (c.cmd && !c.conducts && !c.latch && !c.fpend) }
  else l

def execFioUv (ch : Nat) (s : State) : Result := .next (s.onLive (fioUv ch))

/-- FIO_OPEN_ON: current i in mA of an output or group against 5 mA per member for 10 ms; cause 9. -/
def fioOpenOn (n i forNs : Nat) (l : Live) : Live :=
  let c := l.fioCh n
  let isOpen := decide (i < 5 * c.members)
  if !c.cfg.olOn || c.sw != .on || c.lowest != n || forNs < ms 10 || isOpen == c.openOn then l
  else (l.setFio n fun c => { c with openOn := isOpen, i := i }).fioEvent n 9 (b2n isOpen)

def execFioOpenOn (ch i forNs : Nat) (s : State) : Result := .next (s.onLive (fioOpenOn ch i forNs))

/-- MT at which the next off-state test of an output is due: 5 ms after the turn-off, then every 1000 ms (R265). -/
def FioCh.testDue (c : FioCh) : Nat := c.testAt.elim (c.offAt + ms 5) (· + ms 1000)

/-- An off-state test of an output (R265). -/
def fioOffTest (n v0 v1 : Nat) (l : Live) : Live :=
  let c := l.fioCh n
  let inMode := l.pwr.mode == .run || l.pwr.mode == .wakeCheck
  if !c.cfg.olOff || c.state != 3 || c.lowest != n || !inMode || decide (l.mt.now < c.testDue) then l
  else
    let o := offOutcome v0 v1
    let l := l.setFio n fun c => { c with tests := (o :: c.tests).take 2, testAt := some l.mt.now, v := v0 }
    match c.tests with
    | [] => l
    | prev :: _ =>
      let open' := afterTests c.openOff 3 o prev
      let driven' := afterTests c.driven 4 o prev
      let l := if open' == c.openOff then l else (l.setFio n fun c => { c with openOff := open' }).fioEvent n 10 (b2n open')
      if driven' == c.driven then l else (l.setFio n fun c => { c with driven := driven' }).fioEvent n 11 (b2n driven')

/-- RDELAY of an output ends. -/
def fioRetryDelay (n : Nat) (l : Live) : Live :=
  if (l.fioCh n).rdelay.any (fun t => decide (t ≤ l.mt.now)) then l.setFio n fun c => { c with rdelay := none } else l

/-- An output that is commanded on and waits only for an edge. -/
def FioCh.restartDue (c : FioCh) : Bool :=
  c.cfg.mode == 2 && c.cmd && c.sw == .off && !c.latch && !c.thermal && !c.uvhold && c.rdelay.isNone

/-- RESTART_REQUEST of an output; one after undervoltage is urgent whatever its class (R59). -/
def fioRestartRequest (n : Nat) (l : Live) : Live :=
  let c := l.fioCh n
  let uv := c.uvOff && !c.fpend
  let held := (l.sagDefers || l.shedDelays) && !l.urgent c.cfg.prio && !uv
  if !c.restartDue || held || (l.die 0).orphan || l.dieLost 0 || ((l.die 0).stale && !uv) || c.lowest != n
      || l.plan.edges.any (fun e => e.work.src == .fio n)
  then l else l.sendEdge (.fioRestart n) (if uv then 0 else c.cfg.prio) c.cfg.latUs none

/-- The restart edge of an output executes: a retry is consumed with cause 7 after a fault, none after undervoltage. -/
def Live.fioRestarts (l : Live) (n : Nat) : Live :=
  let c := l.fioCh n
  if !c.restartDue then l
  else if c.fpend then
    ((l.setFio n fun c => { c with retriesLeft := c.retriesLeft - 1, fpend := false, uvOff := false }).fioEvent n 7 1).fioOn n
  else if c.uvOff then ((l.setFio n fun c => { c with uvOff := false }).fioOn n).fioEvent n 12 0
  else (l.fioOn n).fioEvent n 2 1

/-- RETRY_REFILL of an output: 10 s of on-time without a fault off. -/
def fioRetryRefill (n : Nat) (l : Live) : Live :=
  let c := l.fioCh n
  if ms 10000 ≤ c.onAcc + (if c.conducts then l.mt.now - c.onAt else 0)
  then l.setFio n fun c => { c with retriesLeft := c.cfg.retries } else l

/-- FIO_SILENCE_EXPIRY (R266): in orphan mode, SILENCE_MS after the last heartbeat, the output goes to its safe value; a
safe ON waits for the die's own turn-on. -/
def fioSilence (n : Nat) (l : Live) : Live :=
  let c := l.fioCh n
  if c.cfg.mode != 2 || c.lowest != n || !(l.die 0).orphan || c.safe
      || decide (l.mt.now < (l.die 0).lastHb + ms c.cfg.silenceMs) then l
  else
    let l := l.setFio n fun c => { c with safe := true }
    if c.cfg.safeOn then l.setFio n fun c => { c with cmd := if c.latch then c.cmd else true }
    else if c.conducts then ((l.fioOff n).setFio n fun c => { c with cmd := false, fpend := false, uvOff := false
      }).fioEvent n 3 0
    else l.setFio n fun c => { c with cmd := false, fpend := false, uvOff := false }

def execFioSilenceExpiry (ch : Nat) (s : State) : Result := .next (s.onLive (fioSilence ch))

/-- A turn-on that PWR-N itself may place in orphan mode for an output. -/
def FioCh.orphanDue (c : FioCh) : Bool := c.restartDue && (c.fpend || c.uvOff || c.safe)

/-- The lowest channels of the outputs of a group. -/
def Live.fioLowest (l : Live) (g : Nat) : List Nat :=
  ((List.range 16).map (16 * g + ·)).filter fun n => (l.fioCh n).lowest == n && (l.fioCh n).cfg.mode == 2

/-! ### FIO.CONFIG (R274, R275) -/

def FioCfg.ofBytes (p : List Byte) : FioCfg :=
  let f := byteAt p 4
  { mode := byteAt p 1, type := byteAt p 2, role := byteAt p 3, invert := bit f 1, wireBreak := bit f 2, safeOn := bit f 3,
    olOn := bit f 4, olOff := bit f 5, sample := byteAt p 5, filtN := byteAt p 6, par := byteAt p 7, rS := rd p 8 2,
    silenceMs := rd p 10 2, prio := byteAt p 12, retries := byteAt p 13, retryMs := rd p 14 2, latUs := rd p 16 2,
    speedPpk := rd p 18 2 }

/-- PAR of R263; a group does not cross FIO15/FIO16 because its alignment keeps it within. -/
def fioParOk (n par : Nat) : Bool :=
  match par with
  | 0 => true
  | 1 => n % 2 == 0
  | 2 => n % 4 == 0
  | _ => false

/-- The checks of R274 and R275. -/
def Live.fioCfgChecks (l : Live) (b : Mailbox) : List (Nat × Bool) :=
  let p := b.payload
  let n := byteAt p 0
  let c := FioCfg.ofBytes p
  let inp := c.mode != 2
  let out := c.mode != 1
  let other := fun (role : Nat) => (l.roleInput role).any (· != n)
  [(0, decide (n ≤ 31)), (1, decide (c.mode ≤ 2)), (2, !inp || inRange 1 3 c.type), (3, !inp || decide (c.role ≤ 2)),
   (4, decide (byteAt p 4 < 64)), (5, !inp || decide (c.sample ≤ 3)), (6, !inp || decide (1 ≤ c.filtN)),
   (7, !out || fioParOk n c.par), (8, !inp || (if c.wireBreak then inRange 10 1000 c.rS else c.rS == 0)),
   (10, !out || inRange 1 1000 c.silenceMs), (12, !out || decide (c.prio ≤ 7)), (13, !out || decide (c.retries ≤ 15)),
   (14, !out || inRange 10 60000 c.retryMs), (16, !out || inRange 20 200 c.latUs),
   (18, !inp || (if c.role = 1 then decide (100 ≤ c.speedPpk) else c.speedPpk == 0)), resv b 20 4,
   (3, c.mode != 1 || c.role == 0 || !other c.role), (8, c.mode != 1 || !c.wireBreak || c.wireOk)]

/-- DISABLED, an input, an OFF output or LATCHED. -/
def FioCh.idle (c : FioCh) : Bool := decide (c.state ≤ 3) || c.state == 8

/-- A channel takes its configuration, forming or dissolving its group; an input starts its filter.  DESIGN CHOICE: a deferred
turn-on of a channel that becomes no output of its own is withdrawn. -/
def Live.applyFioCfg (l : Live) (n : Nat) (p : List Byte) : Live :=
  let cfg := FioCfg.ofBytes p
  let gone := if cfg.mode = 2 then ((List.range (parMembers cfg.par)).drop 1).map (n + ·) else [n]
  let l := gone.foldl (fun l k => l.withdraw (.fio k)) l
  let old := (l.fioCh n).members
  let l := (List.range old).foldl (fun l i => if i = 0 then l else l.setFio (n + i) fun _ => FioCh.init (n + i)) l
  let members := if cfg.mode = 2 then parMembers cfg.par else 1
  let l := (List.range members).foldl (fun l i => if i = 0 then l
    else l.setFio (n + i) fun c => { FioCh.init (n + i) with lowest := n, v := c.v, i := c.i, tj := c.tj }) l
  let l := l.setFio n fun c => { FioCh.init n with
    cfg := { cfg with par := if cfg.mode = 2 then cfg.par else 0 }, retriesLeft := cfg.retries, thermal := c.thermal,
    uvhold := l.pwr.uv.getD (sourceGroup (.fio n)) false && cfg.mode == 2, v := c.v, i := c.i, tj := c.tj }
  if cfg.mode = 1 && cfg.role = 1 then { l with fio := { l.fio with speedEdges := [] } } else l

/-- FIO.CONFIG. -/
def fioConfig (m : MbRef) (b : Mailbox) (l : Live) : Reply × Live :=
  let p := b.payload
  let n := byteAt p 0
  let cfg := FioCfg.ofBytes p
  let after := (List.range (if cfg.mode = 2 then parMembers cfg.par else 1)).map (n + ·)
  let touched := after ++ (List.range (l.fioCh n).members).map (n + ·)
  checked (l.fioCfgChecks b)
    (if l.dieLost 0 then (refuse .internal, l)
     else if l.draining || (l.fioCh n).lowest != n then (refuse .state, l)
     else if touched.any (fun k => !(l.fioCh (l.fioCh k).lowest).idle) then (refuse .state, l)
     else if cfg.mode = 2 && after.any (fun k => (l.fioCh k).cfg.mode == 1 && (l.fioCh k).cfg.role != 0)
     then (refuse .state, l)
     else match after.find? (fun k => k != n && (l.fioCh k).lowest != n &&
         ((l.fioCh k).lowest != k || (l.fioCh k).cfg.par != 0)) with
       | some k => (refuse .state (l.fioCh k).lowest, l)
       | none => (l.applyFioCfg n p).endConfig m (bit (byteAt p 4) 0) 0x3001 n (p.take 20))
    fun r => (r, l)

def execFioConfig (s : State) : Result := .next (s.command 0x3001 fun m b l => fioConfig m b l)

/-! ### FIO.SET, FIO.STATUS and FIO.CLEAR (R276 to R278) -/

/-- One unstaged entry by the rows of R104, on and off only. -/
def Live.fioEntry (l : Live) (owner : MbRef × Nat) (n : Nat) (on : Bool) : Option Status × Live :=
  let c := l.fioCh n
  let send := fun (l : Live) => (none, l.sendEdge (.fio n on) c.cfg.prio c.cfg.latUs (some owner))
  if l.dieLost 0 then (some .internal, l)
  else if l.draining then (some .state, l)
  else
    let l := l.withdraw (.fio n)
    let cancel := fun (l : Live) => (l.dropEdges (.fio n) fun w => !w.commanded).setFio n fun c => { c with
      cmd := false, fpend := false, uvOff := false }
    match c.state with
    | 8 => if on then (some .state, l) else (some .ok, l.setFio n fun c => { c with cmd := false })
    | 6 => if on then (some .pending, l) else (some .ok, cancel l)
    | 7 => if on then (some .pending, l) else (some .ok, cancel l)
    | 3 =>
      if !on then (some .ok, l)
      else if l.pwr.overvolt then (some .state, l)
      else if (l.die 0).stale then (some .budget, l)
      else if c.thermal || c.uvhold then (some .pending, l.setFio n fun c => { c with cmd := true })
      else send l
    | _ => if on then (some .ok, l) else send l

/-- One staged entry. -/
def Live.fioStage (l : Live) (seq n : Nat) (on : Bool) : Status × Live :=
  let c := l.fioCh n
  let g := sourceGroup (.fio n)
  let r := if on then (if c.conducts then (0, 0) else (5 * c.members, rateOf 2))
    else if c.conducts then (0, rateOf 2) else (0, 0)
  let starts := on && c.state == 3
  if l.dieLost 0 then (.internal, l)
  else if l.draining || (c.latch && on) || (starts && l.pwr.overvolt) then (.state, l)
  else if (starts && (l.die 0).stale) || !l.reserveFits (.fio n) r.1 r.2 then (.budget, l)
  else (.ok, l.stage seq (.fio n on) g r.1 r.2)

/-- FIO.SET. -/
def fioSet (m : MbRef) (b : Mailbox) (l : Live) : Reply × Live :=
  let p := b.payload
  let sel := bitsOf 32 (rd p 0 4)
  let val := rd p 4 4
  match (List.range 32).find? (fun n => (l.fioCh (l.fioCh n).lowest).cfg.mode != 2 && bit (rd p 0 4) n) with
  | some n => (refuse .badParam n, l)
  | none => match (List.range 32).find? (fun n => (l.fioCh n).lowest != n && bit (rd p 0 4) n) with
    | some n => (refuse .state n, l)
    | none =>
      if b.staged then
        if 256 < l.host.staged.length + sel.length then (refuse .busy 1, l)
        else
          let r := sel.foldl (fun (r : List Status × Live) n =>
            let x := r.2.fioStage b.seq n (bit val n)
            (r.1 ++ [x.1], x.2)) ([], l)
          r.2.openEntries m (.fio sel) (r.1.map some)
      else
        let r := (sel.zipIdx).foldl (fun (r : List (Option Status) × Live) x =>
          let y := r.2.fioEntry (m, x.2) x.1 (bit val x.1)
          (r.1 ++ [y.1], y.2)) ([], l)
        r.2.openEntries m (.fio sel) r.1

def execFioSet (s : State) : Result := .next (s.command 0x3002 fun m b l => fioSet m b l)

def Live.fioRecord (l : Live) (n : Nat) : List Byte :=
  let c := l.fioCh n
  let g := l.fioCh c.lowest
  le 1 n ++ le 1 g.state ++ le 1 (l.fioDiag n) ++ le 1 (if g.cfg.mode = 2 then g.retriesLeft else 0) ++ le 2 c.v ++ leInt 2 c.i

def Live.fioStatus (l : Live) : List Byte :=
  le 4 (maskOf 32 fun n => (l.fioCh n).cfg.mode == 1 && (l.fioCh n).input) ++
    le 4 (maskOf 32 fun n => (l.fioCh (l.fioCh n).lowest).conducts) ++
    le 4 (maskOf 32 fun n => l.fioDiag n % 16 != 0 || (l.fioCh (l.fioCh n).lowest).latch) ++ le 2 l.speedShown ++
    le 1 l.fio.motion ++ le 1 0 ++ le 2 (maskOf 16 fun k => (l.fio.wk.getD k WakeInput.init).closed) ++ le 2 0 ++
    (List.range 32).flatMap l.fioRecord

def execFioStatus (s : State) : Result := .next (s.command 0x3003 fun _ _ l => (.done .ok 0 l.fioStatus, l))

/-- FIO.CLEAR. -/
def fioClear (b : Mailbox) (l : Live) : Reply × Live :=
  let sel := (bitsOf 32 (rd b.payload 0 4)).filter fun n => (l.fioCh n).cfg.mode == 2
  let cleared := maskOf 32 fun n => sel.contains n && (l.fioCh n).latch
  if l.dieLost 0 && !sel.isEmpty then (refuse .internal, l)
  else (.done .ok 0 (le 4 cleared), sel.foldl (fun l n =>
    if (l.fioCh n).latch then (l.changed (.fio n)).setFio n fun c => { c with
      latch := false, cmd := false, fpend := false, uvOff := false, rdelay := none, retriesLeft := c.cfg.retries }
    else l.setFio n fun c => { c with retriesLeft := c.cfg.retries }) l)

def execFioClear (s : State) : Result := .next (s.command 0x3004 fun _ b l => fioClear b l)

/-- READBACK_SAMPLE of a field channel (R117, R277): current in the unit of R277, land voltage in mV, junction. -/
def fioReadback (n : Nat) (xs : List Readback) (l : Live) : Live :=
  l.setFio n fun c => { c with
    i := meanOf (·.i) xs, v := (clip 0 40000 (meanOf (fun x => (x.v : Int)) xs)).toNat, tj := clip (-500) 2000 (meanOf (·.tj) xs) }

/-! ### FIO.WAKE (R279) -/

def Live.wk (l : Live) (n : Nat) : WakeInput := l.fio.wk.getD n WakeInput.init

def Live.setWk (l : Live) (n : Nat) (f : WakeInput → WakeInput) : Live :=
  { l with fio := { l.fio with wk := upd l.fio.wk n f } }

def WakeCfg.ofBytes (p : List Byte) : WakeCfg :=
  { toBat := byteAt p 1 == 1, level := byteAt p 2, parkPoll := byteAt p 3, wet := byteAt p 4, filtN := byteAt p 5,
    clean := bit (byteAt p 6) 1 }

/-- A wake input takes its configuration, and its filter starts anew (R259, R272). -/
def Live.applyWake (l : Live) (p : List Byte) : Live :=
  l.setWk (byteAt p 0) fun w => { w with cfg := WakeCfg.ofBytes p, fresh := true }

/-- FIO.WAKE: PARK values at the next entry to PARK, RUN values from the next poll. -/
def fioWake (m : MbRef) (b : Mailbox) (l : Live) : Reply × Live :=
  let p := b.payload
  checked [(0, decide (byteAt p 0 ≤ 15)), (1, decide (byteAt p 1 ≤ 1)), (2, decide (byteAt p 2 ≤ 2)),
      (3, decide (byteAt p 3 ≤ 5)), (4, decide (byteAt p 4 ≤ 3)), (5, decide (1 ≤ byteAt p 5)),
      (6, decide (byteAt p 6 < 4)), resv b 7 1]
    ((l.applyWake p).endConfig m (bit (byteAt p 6) 0) 0x3005 (byteAt p 0) p)
    fun r => (r, l)

def execFioWake (s : State) : Result := .next (s.command 0x3005 fun m b l => fioWake m b l)

/-- Drain step 2 and reinitialisation: outputs off, safe values included. -/
def Live.fioAllOff (l : Live) : Live :=
  (List.range 32).foldl (fun l n =>
    let c := l.fioCh n
    if c.cfg.mode = 2 && c.conducts then (l.fioEdge n false).unbookSource (.fio n)
    else if c.cfg.mode = 2 then l.setFio n fun c => { c with cmd := false, fpend := false, uvOff := false } else l) l

end Sys2Proof.Machine
end

