-- ==== Sys2Proof/Machine/Valve.lean ====
section
/-! DEFINITION. Valves and banks (07_valve_drive.md): the valve event, movement detection, landing control, the placing of
fire edges, the chime interlock, protection and the VALVE commands.  Currents of the rows are in mA. -/

namespace Sys2Proof.Machine

/-! ### Valves, banks and their state (R194, R196, R220, R222, R223) -/

def Live.valve' (l : Live) (v : Nat) : Valve := l.valve.valves.getD v Valve.init

def Live.setValve (l : Live) (v : Nat) (f : Valve → Valve) : Live :=
  { l with valve := { l.valve with valves := upd l.valve.valves v f } }

def Live.bank (l : Live) (b : Nat) : Bank := l.valve.banks.getD b Bank.init

def Live.setBank (l : Live) (b : Nat) (f : Bank → Bank) : Live :=
  { l with valve := { l.valve with banks := upd l.valve.banks b f } }

/-- The valves of a bank. -/
def bankValves (b : Nat) : List Nat := (List.range 3).map (3 * b + ·)

/-- In an event: from the fire edge to the end of DECAY. -/
def Valve.inEvent (v : Valve) : Bool :=
  match v.phase with
  | .peak => true | .land => true | .drop => true | .hold => true | .decay => true
  | _ => false

/-- The event is driven: it has not been released. -/
def Valve.driven (v : Valve) : Bool := v.inEvent && v.phase != .decay

/-- Active: from the fire edge until the decay of its current ends (R196). -/
def Valve.active (v : Valve) : Bool := v.inEvent || v.decaying

def ValvePhase.code : ValvePhase → Nat
  | .idle => 0 | .peak => 2 | .land => 3 | .drop => 4 | .hold => 5 | .decay => 6 | .offTime => 7 | .uvWait => 8
  | .latched => 9

/-- STATE: a fire that waits reports WAIT, a re-energising valve stays in UV_WAIT. -/
def Valve.state (v : Valve) : Nat := if v.fire.any (fun f => !f.refire) then 1 else v.phase.code

/-- The gate of R209 allows the gated action: the audio engine answers (R210), the chime ended on ZONE within CHIME_VALID and none
plays there now.  A chime that ends in this frame has ended before the gate is checked (R293). -/
def Live.chimeOk (l : Live) (v : Nat) : Bool :=
  let c := (l.valve' v).cfg
  let z := l.zone c.zone
  !l.pathOut 4 && !l.islandDown 4 && (z.playing.any Playing.sounded ||
    z.chimeAt.any (fun t => decide (l.mt.now ≤ t + ms (1000 * c.chimeValid))) &&
      !(z.playing.any fun p => p.started && p.prog.chime))

def Live.valveFlags (l : Live) (v : Nat) : Nat :=
  let x := l.valve' v
  maskOf 4 fun i => [decide (4 ≤ x.learned), x.cfg.interlock != 0 && !l.chimeOk v, x.adopted, x.forcedSlow].getD i false

def valveSev (cause : Nat) : Nat :=
  [info, info, warn, warn, sevFault, sevFault, warn, info, warn, warn, notice, notice, sevFault, warn].getD cause info

/-- An event of a valve with its bytes 10 to 15. -/
def Live.valveEvent (l : Live) (v cause : Nat) (bytes : List Byte) : Live :=
  l.dieRaise 1 (0x90 + v) (valveSev cause) cause (le 1 (l.valve' v).state ++ le 1 (l.valveFlags v) ++ bytes)

def BankPhase.code : BankPhase → Nat
  | .off => 0 | .on => 1 | .uvWait => 2 | .thermalWait => 3 | .latched => 4

def bankSev (cause : Nat) : Nat := [info, info, sevFault, sevFault, notice, notice, warn, notice].getD cause info

/-- A bank is on, or turns on now: 2 us before the placed fire edge of a valve that finds it off (R196). -/
def Live.bankOn (l : Live) (b : Nat) : Bool :=
  (l.bank b).st == .on || ((l.bank b).st == .off && (bankValves b).any fun v =>
    (l.valve' v).fire.any fun f => f.tick.any fun u => decide (u * tickNs ≤ l.mt.now + us 2))

/-- BANK_STATE. -/
def Live.bankCode (l : Live) (b : Nat) : Nat := if l.bankOn b then 1 else (l.bank b).st.code

def Live.bankEventAt (l : Live) (at_ b cause : Nat) : Live :=
  let x := l.bank b
  l.dieRaiseAt at_ 1 (0x9C + b) (bankSev cause) cause (le 1 (l.bankCode b) ++ le 1 0 ++ leInt 2 x.i ++ leInt 2 x.tj ++
    le 2 (maskOf 3 fun i => (l.valve' (3 * b + i)).active))

def Live.bankEvent (l : Live) (b cause : Nat) : Live := l.bankEventAt l.mt.now b cause

/-- A time from the fire edge in 2 us units, 0xFFFF for none. -/
def units (t : Option Nat) : Nat := min 0xFFFF (t.getD 0xFFFF)

/-! ### Bookings (R163, R197, R199) -/

/-- T_PEAK in ticks. -/
def ValveCfg.peakTicks (c : ValveCfg) : Nat := 400 * c.tPeak

/-- The whole booked future of an event: IPEAK until T_PEAK, then IHOLD. -/
def ValveCfg.steps (c : ValveCfg) : Steps :=
  [(0, (c.ipeak : Int), rateOf 2), (c.peakTicks, (c.ihold : Int) - c.ipeak, rateOf 2)]

/-- From a tick on, a valve books this current: what was booked after that tick is cut. -/
def Live.rebook (l : Live) (v tick : Nat) (amount : Int) : Live :=
  let l := { l with plan := { l.plan with
    envs := l.plan.envs.filter fun (e : Envelope) => e.src != Source.valve v || decide (e.start < tick) } }
  l.bookEdge 0 (.valve v) tick [(0, amount - l.bookedOf (.valve v), rateOf 2)]

/-- The standing slot of the HOLD chopping, offset by a third of the period per index in the bank. -/
def Live.holdSlot (l : Live) (v : Nat) : Standing :=
  let c := (l.valve' v).cfg
  let period := 1000000000 / max 1 c.chopHz
  { src := .valve v, group := sourceGroup (.valve v), prio := c.prio, cls := 2, i := c.ihold, period := period,
    offset := period * (v % 3) / 3, onNs := period }

/-! ### Chopping and the decay paths (R197 to R200) -/

/-- The set point of regulation in mA. -/
def Valve.setPoint (x : Valve) : Nat := 100 * (if x.phase == .hold then x.cfg.ihold else x.cfg.ipeak)

/-- The on-time that a chopping period is given: LAND_DUTY of it in LAND, in AVERAGE mode a free value that makes the mean the set
point; in PEAK_CURRENT mode the current ends it. -/
def Valve.periodOn (x : Valve) (meanI : Nat) : Nat :=
  if x.phase == .land then x.chopNs * x.landDuty / 256
  else if x.cfg.chopMode = 1 then min x.chopNs (Config.averageOn x.setPoint meanI x.chopNs)
  else x.chopNs

/-- A chopping period starts: the low-side turns on. -/
def Valve.startPeriod (x : Valve) (now meanI : Nat) : Valve :=
  { x with chopAt := now, lowOn := true, onNs := x.periodOn meanI }

/-- The phases in which the low-side chops. -/
def Valve.chops (x : Valve) : Bool := x.phase == .hold || x.phase == .land || (x.phase == .peak && x.det.regulated)

/-- The low-side at a sample of the current: off at the end of its on-time, in PEAK_CURRENT mode at the set point after 1 us. -/
def Valve.regulate (x : Valve) (now i : Nat) : Valve :=
  let byTime := decide (x.chopAt + x.onNs ≤ now)
  let byCurrent := x.phase != .land && x.cfg.chopMode == 0 && decide (x.setPoint ≤ i) && decide (x.chopAt + us 1 ≤ now)
  if !x.chops || !x.lowOn || !(byTime || byCurrent) then x else { x with lowOn := false, onNs := now - x.chopAt }

/-- The decay path of the phase (0 SLOW, 1 FAST, 2 MIXED); whatever protection has ended is FAST (R198, R200). -/
def Valve.decayPath (x : Valve) : Nat :=
  match x.phase with
  | .land => 0
  | .drop => x.cfg.decayDrop
  | .decay => if x.fast then 1 else 0
  | .peak => if x.forcedSlow then 0 else x.cfg.decayChop
  | .hold => if x.forcedSlow then 0 else x.cfg.decayChop
  | _ => 1

/-- The coil current flows into the 48 V clamp: FAST, or MIX_PCT of a MIXED off-phase. -/
def Valve.clamps (x : Valve) (now : Nat) : Bool :=
  x.active && !x.lowOn && (x.decayPath == 1 || (x.decayPath == 2 &&
    decide (100 * (now - x.chopAt - x.onNs) < (x.chopNs - x.onNs) * x.cfg.mixPct)))

/-- The recirculation switch connects the valve to its bank. -/
def Valve.recirculates (x : Valve) (now : Nat) : Bool := x.active && !x.lowOn && !x.clamps now

/-! ### What waiting edges book (R168) -/

/-- The steps an edge books. -/
def Live.edgeSteps (l : Live) (w : EdgeWork) : Steps :=
  match w with
  | .load n d on => if on then l.loadOnSteps n (if d = 65535 then .on else .pwm d) else l.loadOffSteps n
  | .restart n => l.loadOnSteps n (l.ch n).cmd
  | .uvRestart n => l.loadOnSteps n (l.ch n).cmd
  | .restore n => l.loadOnSteps n (l.ch n).cmd
  | .shedOff n => l.loadOffSteps n
  | .bridge k a _ _ => l.bridgeSteps k a
  | .fio n on => if on then l.fioOnSteps n else l.fioOffSteps n
  | .fioRestart n => l.fioOnSteps n
  | .valve v => (l.valve' v).cfg.steps

/-- An edge turns its output on: a drive of a bridge that already runs does not. -/
def Live.turnsOn (l : Live) (w : EdgeWork) : Bool :=
  w.rises && (match w with
    | .bridge k _ _ _ => !(l.bridge k).runs
    | _ => true)

/-- A turn-on is held by sag deferral or shedding level 2 (R56, R182). -/
def Live.holds (l : Live) (e : Edge) : Bool :=
  l.turnsOn e.work && !l.urgent e.prio && e.work.rank != 0 && (l.sagDefers || l.shedDelays)

/-- The standing slot that an edge asks for in place of a tick: a PWM turn-on, a drive that runs a bridge (R173). -/
def Live.asksSlot (l : Live) (w : EdgeWork) : Bool :=
  match w with
  | .load n d true => d != 65535 && (l.ch n).cfg.freq != 0 && !(l.ch n).conducts
  | .bridge _ a _ _ => decide (2 ≤ a)
  | _ => false

/-! ### Placing a fire edge (R205, R206) -/

/-- What the valves of a bank have booked on a tick, their standing hold slots included. -/
def Live.bankBooked (l : Live) (b u : Nat) : Int :=
  let mine := fun (s : Source) => match s with
    | .valve v => v / 3 == b
    | _ => false
  sumInt ((l.plan.book.filter fun x => mine x.1).map (·.2.2)) + sumInt ((l.plan.envs.filter fun e => mine e.src).map (·.at_ u))
    + sumInt ((l.plan.stand.filter fun s => mine s.src).map fun s => (s.i : Int))

/-- The bank peak limit of 30 A, with these envelopes added. -/
def Live.bankPeakFits (l : Live) (b : Nat) (es : List Envelope) : Bool :=
  let first := (es.map (·.start)).headD 0
  let at_ := es.map (·.start) ++ (l.plan.envs.filter fun (e : Envelope) => decide (first ≤ e.start)).map (·.start)
  at_.all fun u => decide (l.bankBooked b u + sumInt (es.map (·.at_ u)) ≤ 300)

/-- The bank continuous limit: IHOLD of the active and placed valves and of this one. -/
def Live.bankContFits (l : Live) (v : Nat) : Bool :=
  let b := v / 3
  let others := (bankValves b).filter fun w => w != v && ((l.valve' w).active || (l.valve' w).fire.any (·.tick.isSome))
  decide (sumNat (others.map fun w => (l.valve' w).cfg.ihold) + (l.valve' v).cfg.ihold ≤ 10 * (l.bank b).icont)

/-- How the placing of a fire ends. -/
inductive FirePlace where
  | at_ (tick : Nat)
  | refused (st : Status) (detail : Nat) (needed : Nat)
  deriving DecidableEq, Repr

/-- Places a fire whose earliest tick is known. -/
def Live.placeFire (l : Live) (v earliest deadline : Nat) : FirePlace :=
  let c := (l.valve' v).cfg
  let b := v / 3
  let src := Source.valve v
  let last := earliest + us (l.bank b).stagger / tickNs
  let window := (List.range (last + 1 - earliest)).map (earliest + ·)
  let peakOk := fun u => l.bankPeakFits b (mkEnvelopes 0 src u c.steps)
  let ok := fun u => peakOk u && l.fitsAt src c.steps u
  let later := [last / 4000, last / 4000 + 1].flatMap (l.breakTicks (sourceGroup src))
  let needed := match later.filter fun u => decide (last < u) && ok u with
    | [] => 0xFFFFFFFF
    | u :: us => min 0xFFFFFFFF ((us.foldl min u - earliest) * tickNs)
  match (l.bank b).st with
  | .uvWait => .refused .state 4 0xFFFFFFFF
  | .thermalWait => .refused .state 4 0xFFFFFFFF
  | .latched => .refused .state 4 0xFFFFFFFF
  | _ =>
    if !window.any peakOk then .refused .budget 1 needed
    else if !l.bankContFits v then .refused .budget 2 0xFFFFFFFF
    else match window.find? ok with
      | none => .refused .budget 3 needed
      | some u => if deadline < u * tickNs then .refused .state 2 ((u - earliest) * tickNs) else .at_ u

/-- The earliest tick of a fire: 10 us after its arrival, and not before the end of OFF_TIME. -/
def Valve.fireFrom (x : Valve) (f : FireWait) (now : Nat) : Nat :=
  ceilDiv (max (if f.refire then now + us 10 else f.arrived + us 10) x.offUntil) tickNs

/-- A waiting fire as an edge among the others. -/
def Live.fireEdge (l : Live) (v : Nat) (f : FireWait) : Edge :=
  Edge.mk (l.plan.nextEdge + 1 + v) (.valve v) (l.valve' v).cfg.prio 0 f.arrived .arriving 0 false false none none none

/-- Every edge that waits for a tick: sporadic edges that nothing holds, and fires. -/
def Live.unplaced (l : Live) : List Edge :=
  (l.plan.edges.filter fun e => e.phase == .arriving && decide (e.arrived ≤ l.mt.now) && !l.holds e && !l.asksSlot e.work) ++
    (List.range 12).filterMap fun v => match (l.valve' v).fire with
      | some f => if f.tick.isNone && !(l.valve' v).inEvent && !(l.valve' v).decaying then some (l.fireEdge v f) else none
      | none => none

/-- The plan with every waiting edge of the same group that ranks ahead of an edge on the tick it will get (R168): no lower edge is
placed over it. -/
def Live.foreseen (l : Live) (e : Edge) : Live :=
  let better := l.unplaced.filter fun x => x.id != e.id && x.work != e.work && sourceGroup x.work.src == sourceGroup e.work.src
    && l.ahead x e
  (better.foldl (fun q x => l.insertEdge x q) []).foldl (fun l x =>
    let u := match x.work with
      | .valve v => match (l.valve' v).fire with
        | some f => match l.placeFire v ((l.valve' v).fireFrom f l.mt.now) f.deadline with
          | .at_ u => some u
          | .refused _ _ _ => none
        | none => none
      | w => match l.findPlace w.src (l.edgeSteps w) x.arrived x.latUs (!w.rises || (!l.urgent x.prio && !w.restarts)) with
        | .at_ u => some u
        | .delayed u => some u
        | .none _ => none
    match u with
    | some u => l.bookEdge x.id x.work.src u (l.edgeSteps x.work)
    | none => l) l

/-- Refuses a waiting fire: EV_VALVE_REFUSED, and its command completes. -/
def Live.refuseFire (l : Live) (v : Nat) (st : Status) (detail needed : Nat) : Live :=
  match (l.valve' v).fire with
  | none => l
  | some f =>
    let l := l.setValve v fun x => { x with fire := none }
    let l := l.valveEvent v 8 (le 1 detail ++ [0] ++ le 4 needed)
    match f.owner with
    | some m => l.complete m st detail []
    | none => l

/-- Tries to place the fire that waits; a refire is never refused and stays. -/
def Live.tryFire (l : Live) (v : Nat) : Live :=
  let x := l.valve' v
  match x.fire with
  | none => l
  | some f =>
    let earliest := x.fireFrom f l.mt.now
    match (l.foreseen (l.fireEdge v f)).placeFire v earliest f.deadline with
    | .at_ u =>
      let id := l.plan.nextEdge + 1
      let l := { l with plan := { l.plan with nextEdge := id } }
      (l.bookEdge id (.valve v) u x.cfg.steps).setValve v fun x => { x with
        fire := some { f with earliest := earliest, tick := some u, edge := id } }
    | .refused st d n => if f.refire then l else l.refuseFire v st d n

/-- Takes a placed or waiting fire out again. -/
def Live.dropFire (l : Live) (v : Nat) : Live :=
  match (l.valve' v).fire with
  | none => l
  | some f => (if f.edge = 0 then l else l.unbookEdge f.edge).setValve v fun x => { x with fire := none }

/-! ### Phases of an event (R197, R198) -/

def Live.enterPhase (l : Live) (v : Nat) (ph : ValvePhase) : Live :=
  (l.changed (.valve v)).setValve v fun x => { x with phase := ph, phaseAt := l.mt.now }

/-- The learning of a stroke that ends (R204), in 2 us units and 1/256. -/
def Valve.learn (x : Valve) : Valve :=
  let d := x.det
  let measured : Option Int := match d.land, d.onset with
    | some a, some o => some ((a : Int) - o)
    | _, _ => none
  let travel := match measured with
    | none => x.tTravel
    | some m => if x.tTravel = 0 then m.toNat else (x.tTravel + Int.tdiv (m - x.tTravel) 8).toNat
  let duty := if d.rescued then min 255 (x.landDuty + 8)
    else if d.land.isSome && (d.method == 1 || d.method == 2) then
      if 10 * x.cfg.depthTarget < d.depth then max 16 (x.landDuty - 4)
      else if 2 * d.depth < 10 * x.cfg.depthTarget then min 255 (x.landDuty + 4) else x.landDuty
    else x.landDuty
  { x with tTravel := travel, landDuty := duty,
           learned := if d.land.isSome && d.method == 1 then min 4 (x.learned + 1) else x.learned }

/-- PEAK or LAND ends: the last stroke is kept, and learnt from unless the die is in orphan mode (R214). -/
def Live.endStroke (l : Live) (v : Nat) : Live :=
  l.setValve v fun x =>
    let x := { x with lastOnset := x.det.onset, lastLand := x.det.land, lastDepth := x.det.depth / 10 }
    if (l.die 1).orphan then x else x.learn

/-- A bank takes the configuration that waited for the end of its events (R158). -/
def Bank.takeNew (x : Bank) : Bank :=
  match x.newCfg with
  | none => x
  | some c => { x with stagger := c.1, icont := c.2, newCfg := none }

/-- The bank has no active valve left since now. -/
def Live.bankQuiet (l : Live) (b : Nat) : Live :=
  if (bankValves b).any fun w => (l.valve' w).active then l
  else l.setBank b fun x => { x.takeNew with quietAt := l.mt.now }

/-- The event leaves its drive for DECAY (or, its current still decaying, for another phase): booking, standing slot and stroke
end. -/
def Live.endDrive (l : Live) (v : Nat) (ph : ValvePhase) (released fast : Bool) : Live :=
  let x := l.valve' v
  let inPeak := x.phase == .peak || x.phase == .land
  let l := if inPeak then l.endStroke v else l
  let now := tickOf l.mt.now
  let at_ := if inPeak then max now (x.fireMt / tickNs + x.cfg.peakTicks) else now
  let l := (l.endSlot (.valve v)).rebook v at_ 0
  ((l.enterPhase v ph).setValve v fun x => { x with
    held := false, released := released, fast := fast, lowOn := false, decaying := ph != .decay }).bankQuiet (v / 3)

/-- A release from the present current. -/
def Live.releaseValve (l : Live) (v : Nat) : Live :=
  l.endDrive v .decay true ((l.valve' v).cfg.decayRel == 1)

/-- An ending by protection in FAST decay. -/
def Live.abortValve (l : Live) (v : Nat) : Live := l.endDrive v .decay false true

/-- FIRED: the fire edge executes at its tick, cause 0 (cause 10 when fired again); a bank that is off has turned on 2 us before. -/
def fired (v : Nat) (l : Live) : Live :=
  let x := l.valve' v
  let b := v / 3
  match x.fire with
  | none => l
  | some f =>
    match f.tick with
    | none => l
    | some u =>
      let st := (l.bank b).st
      if decide (l.mt.now < u * tickNs) || x.active || x.phase == .latched || !(st == .off || st == .on) then l
      else
        let stagger := (u - f.earliest) * tickNs
        let l := if st == .off then (l.setBank b fun y => { y with st := .on }).bankEventAt (u * tickNs - us 2) b 0 else l
        let l := (l.changed (.valve v)).setValve v fun x => { x with
          phase := .peak, fire := none, fireMt := u * tickNs, phaseAt := u * tickNs, stagger := stagger, pulse := f.pulse,
          held := f.pulse.isNone, fast := false, released := false, decaying := false, forcedSlow := false, lowOn := true,
          chopAt := u * tickNs, onNs := 0, det := Detector.init }
        let l := if f.refire then l.valveEvent v 10 (le 1 1) else l.valveEvent v 0 (le 4 stagger)
        match f.owner with
        | some m => l.complete m .ok 0 (le 8 (u * tickNs) ++ le 4 stagger)
        | none => l

def execFired (vl : Nat) (s : State) : Result := .next (s.onLive (fired vl))

/-- PEAK_END: T_PEAK after the fire edge, or T_SETTLE after a confirmed landing; the booking falls to IHOLD. -/
def peakEnd (v : Nat) (l : Live) : Live :=
  let x := l.valve' v
  let full := decide (x.fireMt + x.cfg.tPeak * 100000 ≤ l.mt.now)
  let settled := x.phase == .peak && x.cfg.peakEndMove && x.det.land.isSome
    && decide (x.det.confirmedAt + x.cfg.tSettle * 100000 ≤ l.mt.now)
  if !(x.phase == .peak || x.phase == .land) || !(full || settled) then l
  else ((l.endStroke v).rebook v (tickOf l.mt.now) x.cfg.ihold).enterPhase v .drop
    |>.setValve v fun x => { x with lowOn := false }

def execPeakEnd (vl : Nat) (s : State) : Result := .next (s.onLive (peakEnd vl))

/-- DROP_END: the current has fallen to IHOLD; HOLD asks for its standing slot. -/
def dropEnd (v i : Nat) (l : Live) : Live :=
  let x := l.valve' v
  if x.phase == .drop && decide (i ≤ 100 * x.cfg.ihold) then
    let l := (l.enterPhase v .hold).setValve v fun x => { x.startPeriod l.mt.now i with i := i / 10 }
    l.askSlot (l.holdSlot v) .on true none
  else l

def execDropEnd (vl i : Nat) (s : State) : Result := .next (s.onLive (dropEnd vl i))

/-- HOLD_END: PULSE_MS after the fire edge, or HOLD_MAX after entry to HOLD, releases the valve. -/
def holdEnd (v : Nat) (l : Live) : Live :=
  let x := l.valve' v
  let byPulse := x.pulse.any fun p => decide (x.fireMt + p * 100000 ≤ l.mt.now)
  let byMax := x.phase == .hold && x.pulse.isNone && x.cfg.holdMax != 0
    && decide (x.phaseAt + x.cfg.holdMax * 100000000 ≤ l.mt.now)
  if x.driven && (byPulse || byMax) then l.releaseValve v else l

def execHoldEnd (vl : Nat) (s : State) : Result := .next (s.onLive (holdEnd vl))

/-- DECAY_END: the current is below 50 mA; cause 7 after a release, and OFF_TIME begins.  The end of the event ends a forced SLOW
chopping (R200). -/
def decayEnd (v i : Nat) (l : Live) : Live :=
  let x := l.valve' v
  let ends := fun (l : Live) => l.setValve v fun y => { y with
    decaying := false, forcedSlow := false, offUntil := l.mt.now + y.cfg.offMin * 100000, i := i / 10 }
  if 50 ≤ i then l
  else if x.phase == .decay then
    let l := ends (l.enterPhase v .offTime)
    let l := if x.released then l.valveEvent v 7 (le 4 ((l.mt.now - x.phaseAt) / 1000)) else l
    l.bankQuiet (v / 3)
  else if x.decaying then (ends l).bankQuiet (v / 3)
  else l

def execDecayEnd (vl i : Nat) (s : State) : Result := .next (s.onLive (decayEnd vl i))

/-- A valve takes a stored configuration: its learning goes on, and starts from LAND_INIT where nothing has been learned (R204). -/
def Valve.reconfigure (x : Valve) (c : ValveCfg) : Valve :=
  { x with cfg := c, landDuty := if x.tTravel = 0 && x.learned = 0 then c.landInit else x.landDuty }

/-- A configuration that waited for the end of an event takes effect (R214). -/
def Valve.takeNew (x : Valve) : Valve :=
  match x.newCfg with
  | none => x
  | some c => { x.reconfigure c with newCfg := none }

/-- OFF_TIME_END. -/
def offTimeEnd (v : Nat) (l : Live) : Live :=
  let x := l.valve' v
  if x.phase == .offTime && !x.decaying && decide (x.offUntil ≤ l.mt.now)
  then (l.enterPhase v .idle).setValve v Valve.takeNew else l

def execOffTimeEnd (vl : Nat) (s : State) : Result := .next (s.onLive (offTimeEnd vl))

/-- OFF_TIME_WAIT_END (R207): the fire that waited for the end of OFF_TIME is placed or refused. -/
def offTimeWaitEnd (v : Nat) (l : Live) : Live :=
  let x := l.valve' v
  if x.fire.any (fun f => f.tick.isNone) && !x.active && decide (x.offUntil ≤ l.mt.now)
  then (offTimeEnd v l).tryFire v else l

def execOffTimeWaitEnd (vl : Nat) (s : State) : Result := .next (s.onLive (offTimeWaitEnd vl))

/-- BANK_OFF (R196): 20 us after the last active valve's decay. -/
def bankOff (b : Nat) (l : Live) : Live :=
  if (l.bank b).st == .on && !((bankValves b).any fun w => (l.valve' w).active)
      && decide ((l.bank b).quietAt + us 20 ≤ l.mt.now)
  then (l.setBank b fun x => { x with st := .off }).bankEvent b 1 else l

def execBankOff (bank : Nat) (s : State) : Result := .next (s.onLive (bankOff bank))

/-! ### Movement detection and landing control (R201 to R203) -/

/-- Time since the fire edge in 2 us units. -/
def Live.sinceFire (l : Live) (v : Nat) : Nat := (l.mt.now - (l.valve' v).fireMt) / 2000

/-- A landing at t, confirmed now by a method: cause 1, the stroke is counted, cause 3 when late; PEAK regulation goes on for
T_SETTLE.  A landing that is not found within the movement window does not count. -/
def Live.landFound (l : Live) (v t method depth : Nat) : Live :=
  let x := l.valve' v
  if x.det.land.isSome || x.det.missed || t < 50 * x.cfg.winStart || 50 * x.cfg.winEnd < l.sinceFire v then l
  else
    let l := l.setValve v fun x => { x with
      phase := .peak, det := { x.det with
        land := some t, method := method, depth := depth, confirmedAt := l.mt.now, regulated := true } }
    let l := if x.phase == .land then l.setValve v fun x => x.startPeriod l.mt.now (10 * x.i.natAbs) else l
    let l := l.valveEvent v 1 (le 2 (units x.det.onset) ++ le 2 t ++ le 2 (depth / 10))
    let l := l.enqueue (.add v 1) none [] false
    match x.det.onset with
    | some o => if decide (4 ≤ x.learned) && decide (5 * x.tTravel < 4 * (t - o))
        then l.valveEvent v 3 (le 2 o ++ le 2 t) else l
    | none => l

/-- One current of the detector of R201: a sample or the mean of a period, standing for time t. -/
def Detector.step (d : Detector) (dip t i : Nat) : Detector :=
  let imax := max d.imax i
  if !d.dipped then
    if i + dip ≤ imax then { d with imax := imax, dipped := true, low := i, lowAt := t } else { d with imax := imax }
  else if i < d.low then { d with low := i, lowAt := t }
  else d

/-- The current has risen by DIP_MIN above the lowest: landing is confirmed. -/
def Detector.confirms (d : Detector) (dip i : Nat) : Bool := d.dipped && decide (d.low + dip ≤ i)

/-- The onset of R201: the slope over ten samples falls below 0.6 of the highest so far, after 100 us. -/
def Detector.sample (d : Detector) (i : Nat) : Detector :=
  let k := d.count
  let slope : Int := (i : Int) - (d.hist.getD 9 0 : Nat)
  let onset := match d.onset with
    | some o => some o
    | none => if decide (50 < k) && decide (10 * slope < 6 * d.top) then some k else none
  { d with hist := (i :: d.hist).take 10, count := k + 1, onset := onset,
           top := if 10 ≤ k then max d.top slope else d.top }

/-- VALVE_SAMPLE: one sample of 2 us; while the low-side chops it may end the on-phase, during the free rise the detector advances,
and regulation begins when IPEAK is reached. -/
def valveSample (v i : Nat) (l : Live) : Live :=
  let x := l.valve' v
  let l := l.setValve v fun x => { x.regulate l.mt.now i with i := i / 10 }
  if x.phase != .peak || x.det.regulated || x.det.land.isSome then l
  else
    let dip := 10 * x.cfg.dipMin
    let t := x.det.count
    let d0 := x.det.sample i
    let found := d0.confirms dip i
    let d := d0.step dip t i
    let l := l.setValve v fun x =>
      let x := { x with det := { d with regulated := decide (100 * x.cfg.ipeak ≤ i) } }
      if x.det.regulated then (x.startPeriod l.mt.now i).regulate (l.mt.now + us 1) i else x
    if found then l.landFound v d.lowAt 1 (d.imax - d.low) else l

def execValveSample (vl i : Nat) (s : State) : Result := .next (s.onLive (valveSample vl i))

/-- The next chopping period (R199): the nominal length times a factor from the generator of R166. -/
def Live.nextChop (l : Live) (v : Nat) : Nat × Word × Nat :=
  let x := l.valve' v
  let frame := l.mt.now / frameNs
  let x0 := BitVec.ofNat 32 l.seed ^^^ (BitVec.ofNat 32 v <<< 24) ^^^ BitVec.ofNat 32 frame
  let w := xorshift (if x.chopFrame = frame then x.chopX else if x0 = 0 then 1 else x0)
  let nominal := 1000000000 / max 1 x.cfg.chopHz
  let span := 200 * x.cfg.spread + 1
  (frame, w, nominal * (10000 - 100 * x.cfg.spread + w.toNat % span) / 10000)

/-- CHOP_PERIOD: a period ends with its mean current and the rise rate of its on-phase, and the next one starts.  In LAND the means, and in
regulated PEAK the rise rates, are what landing is found from. -/
def chopPeriod (v meanI rise : Nat) (l : Live) : Live :=
  let x := l.valve' v
  let began := l.sinceFire v - x.chopNs / 2000
  let nx := l.nextChop v
  let l := l.setValve v fun x => { x with chopFrame := nx.1, chopX := nx.2.1, chopNs := nx.2.2, i := meanI / 10 }
  let l := if x.chops then l.setValve v fun x => x.startPeriod l.mt.now meanI else l
  match x.phase with
  | .land =>
    let dip := 10 * x.cfg.dipMin
    let found := x.det.confirms dip meanI
    let d := x.det.step dip began meanI
    let l := l.setValve v fun x => { x with det := d }
    if found then l.landFound v d.lowAt 2 (d.imax - d.low) else l
  | .peak =>
    if x.det.land.isSome then l
    else if x.det.refs.length < 4 then
      l.setValve v fun x => { x with det := { x.det with regulated := true, refs := x.det.refs ++ [rise] } }
    else
      let ref4 := sumNat x.det.refs
      if x.det.moving && decide (9 * ref4 < 40 * rise) && decide (l.sinceFire v ≤ 50 * x.cfg.winEnd)
      then l.landFound v began 3 0
      else if 40 * rise < 7 * ref4 then l.setValve v fun x => { x with det := { x.det with moving := true } }
      else l
  | _ => l

def execChopPeriod (vl meanI rise : Nat) (s : State) : Result := .next (s.onLive (chopPeriod vl meanI rise))

/-- NO_MOVE: no landing by MOVE_WIN_END, cause 2. -/
def noMove (v : Nat) (l : Live) : Live :=
  let x := l.valve' v
  if (x.phase == .peak || x.phase == .land) && x.det.land.isNone && !x.det.missed
      && decide (x.fireMt + x.cfg.winEnd * 100000 ≤ l.mt.now)
  then (l.setValve v fun x => { x with det := { x.det with missed := true } }).valveEvent v 2 (le 2 (x.det.imax / 10))
  else l

def execNoMove (vl : Nat) (s : State) : Result := .next (s.onLive (noMove vl))

/-- t_pred in ns of MT. -/
def Valve.predicted (x : Valve) : Option Nat := x.det.onset.map fun o => x.fireMt + (o + x.tTravel) * 2000

/-- LAND_ENTRY: LAND_LEAD before the predicted landing a learned valve enters LAND, and detection starts anew on the means; not when
the onset was found only after that time. -/
def landEntry (v : Nat) (l : Live) : Live :=
  let x := l.valve' v
  if x.cfg.landing && decide (4 ≤ x.learned) && x.phase == .peak && x.det.land.isNone && !x.det.landed
      && decide (us x.cfg.landLead < 2000 * x.tTravel) && x.predicted.any (fun t => decide (t ≤ l.mt.now + us x.cfg.landLead))
  then (l.enterPhase v .land).setValve v fun x =>
    ({ x with det := { x.det with landed := true, imax := 0, dipped := false, low := 0, lowAt := 0 } }).startPeriod l.mt.now 0
  else l

def execLandEntry (vl : Nat) (s : State) : Result := .next (s.onLive (landEntry vl))

/-- LAND_RESCUE: PEAK regulation resumes, cause 6 with the duty that the stroke's update will store. -/
def landRescue (v : Nat) (l : Live) : Live :=
  let x := l.valve' v
  if x.phase == .land && x.predicted.any (fun t => decide (t + us x.cfg.landLead ≤ l.mt.now)) then
    ((l.enterPhase v .peak).setValve v fun x => ({ x with
      det := { x.det with rescued := true, regulated := true } }).startPeriod l.mt.now (10 * x.i.natAbs)).valveEvent v 6 (le 1 (min 255 (x.landDuty + 8)))
  else l

def execLandRescue (vl : Nat) (s : State) : Result := .next (s.onLive (landRescue vl))

/-! ### Protection (R200, R212, R213) -/

/-- CLAMP_HOT: mean clamp power in mW over 1 s above 1.5 W forces SLOW chopping, cause 9. -/
def clampHot (v meanMw : Nat) (l : Live) : Live :=
  let x := l.valve' v
  let l := l.setValve v fun x => { x with pClamp := meanMw }
  if x.inEvent && decide (1500 < meanMw) && !x.forcedSlow
  then (l.setValve v fun x => { x with forcedSlow := true }).valveEvent v 9 (le 2 meanMw) else l

def execClampHot (vl meanMw : Nat) (s : State) : Result := .next (s.onLive (clampHot vl meanMw))

/-- The valve latches at once, in FAST decay; a fire that waits is refused. -/
def Live.latchValve (l : Live) (v : Nat) : Live :=
  (l.endDrive v .latched false true).refuseFire v .state 4 0xFFFFFFFF

/-- VALVE_OVERCURRENT: above 1.5 x IPEAK for 2 us, cause 5. -/
def valveOvercurrent (v i : Nat) (l : Live) : Live :=
  let x := l.valve' v
  if x.inEvent && decide (150 * x.cfg.ipeak < i)
  then ((l.latchValve v).setValve v fun x => { x with i := i / 10 }).valveEvent v 5 (le 2 (i / 10)) else l

def execValveOvercurrent (vl i : Nat) (s : State) : Result := .next (s.onLive (valveOvercurrent vl i))

/-- OPEN_COIL: below 0.1 x IPEAK at T_PEAK / 2, cause 4. -/
def openCoil (v i : Nat) (l : Live) : Live :=
  let x := l.valve' v
  if (x.phase == .peak || x.phase == .land) && decide (x.fireMt + x.cfg.tPeak * 50000 ≤ l.mt.now)
      && decide (i < 10 * x.cfg.ipeak)
  then ((l.endDrive v .decay false (x.cfg.decayRel == 1)).setValve v fun x => { x with i := i / 10 }).valveEvent v 4
    (le 2 (i / 10)) else l

def execOpenCoil (vl i : Nat) (s : State) : Result := .next (s.onLive (openCoil vl i))

/-- VALVE_THERMAL: the low-side junction at 175 °C within 5 °C; LATCHED, cause 12 with reason 3. -/
def valveThermal (v : Nat) (tj : Int) (l : Live) : Live :=
  let x := l.valve' v
  let l := l.setValve v fun x => { x with tj := tj }
  if x.inEvent && decide (1700 ≤ tj) then (l.latchValve v).valveEvent v 12 (le 1 3) else l

def execValveThermal (vl : Nat) (tj : Int) (s : State) : Result := .next (s.onLive (valveThermal vl tj))

/-- The bank leaves ON for a fault: its placed fires are refused and its active valves end in FAST decay, cause 12. -/
def Live.bankFault (l : Live) (b : Nat) (st : BankPhase) (reason : Nat) : Live :=
  let l := l.setBank b fun x => { x with st := st }
  (bankValves b).foldl (fun l v =>
    let was := (l.valve' v).inEvent
    let l := if (l.valve' v).fire.any (·.tick.isSome) then
        let refire := (l.valve' v).fire.any (·.refire)
        if refire then l.setValve v fun x => { x with fire := x.fire.map fun f => { f with tick := none } }
        else (l.unbookEdge (((l.valve' v).fire.map (·.edge)).getD 0)).refuseFire v .state 4 0xFFFFFFFF
      else l
    if was then (l.abortValve v).valveEvent v 12 (le 1 reason) else l) l

/-- BANK_SHORT: above 36 A for 2 us, or above 3 V across the switch for 1 us; the bank latches, cause 2. -/
def bankShort (b i vdsMv : Nat) (l : Live) : Live :=
  if l.bankOn b && (decide (36000 < i) || decide (3000 < vdsMv))
  then ((l.bankFault b .latched 1).setBank b fun x => { x with i := i / 10 }).bankEvent b 2 else l

def execBankShort (bank i vdsMv : Nat) (s : State) : Result := .next (s.onLive (bankShort bank i vdsMv))

/-- BANK_THERMAL: 175 °C within 5 °C turns the bank off, cause 3; below 150 °C it is OFF again, cause 4. -/
def bankThermal (b : Nat) (tj : Int) (l : Live) : Live :=
  let x := l.bank b
  let l := l.setBank b fun x => { x with tj := tj }
  if x.st == .thermalWait then
    if tj < 1500 then (l.setBank b fun x => { x with st := .off }).bankEvent b 4 else l
  else if (x.st == .on || x.st == .off) && decide (1700 ≤ tj) then (l.bankFault b .thermalWait 2).bankEvent b 3
  else l

def execBankThermal (bank : Nat) (tj : Int) (s : State) : Result := .next (s.onLive (bankThermal bank tj))

/-- BANK_CONT_EXCEEDED: mean current over 1 s above 1.1 x ICONT, cause 6; again only after 10 s below ICONT. -/
def bankContExceeded (b meanI belowForNs : Nat) (l : Live) : Live :=
  let x := l.bank b
  if x.exceeded && decide (ms 10000 ≤ belowForNs) then l.setBank b fun x => { x with exceeded := false }
  else if !x.exceeded && x.st == .on && decide (1100 * x.icont < meanI)
  then (l.setBank b fun x => { x with exceeded := true, i := meanI / 10 }).bankEvent b 6 else l

def execBankContExceeded (bank meanI belowForNs : Nat) (s : State) : Result :=
  .next (s.onLive (bankContExceeded bank meanI belowForNs))

/-- A fire that no command waits for and nothing refuses. -/
def FireWait.again (now : Nat) : FireWait :=
  { owner := none, pulse := none, arrived := now, deadline := 2 ^ 64, earliest := 0, tick := none, edge := 0, refire := true }

/-- A held event that undervoltage has ended is to fire again, once its bank has left UV_WAIT (R213). -/
def Live.fireAgain (l : Live) (v : Nat) : Live :=
  let x := l.valve' v
  if x.phase == .uvWait && x.fire.isNone && (l.bank (v / 3)).st != .uvWait && !(l.die 1).orphan
  then l.setValve v fun x => { x with fire := some (FireWait.again l.mt.now) } else l

/-- At every plan frame the valves that are to fire again, and have passed OFF_MIN, are tried (R213). -/
def Live.refireFrame (l : Live) : Live :=
  (List.range 12).foldl (fun l v =>
    let l := l.fireAgain v
    let x := l.valve' v
    if x.fire.any (fun f => f.refire && f.tick.isNone) && !x.active && decide (x.offUntil ≤ l.mt.now) then l.tryFire v else l) l

/-- VALVE_UV (R213): the bank's group below VBAT_UV ends its events; once it has recovered, held events fire again. -/
def valveUv (b : Nat) (l : Live) : Live :=
  let low := l.pwr.uv.getD (sourceGroup (.bank b)) false
  let st := (l.bank b).st
  if low && (st == .on || st == .off) then
    let l := (l.setBank b fun x => { x with st := .uvWait }).bankEvent b 5
    (bankValves b).foldl (fun l v =>
      let x := l.valve' v
      let l := if x.fire.any (fun f => f.tick.isSome && !f.refire) then
          (l.unbookEdge ((x.fire.map (·.edge)).getD 0)).refuseFire v .state 4 0xFFFFFFFF else l
      if !x.inEvent then l
      else if x.held && x.driven then ((l.endDrive v .uvWait false true).setValve v fun x => { x with
          held := true }).valveEvent v 10 (le 1 0)
      else (l.abortValve v).valveEvent v 10 (le 1 0)) l
  else if !low && st == .uvWait then
    let l := (l.setBank b fun x => { x with st := .off }).bankEvent b 5
    (bankValves b).foldl Live.fireAgain l
  else l

def execValveUv (bank : Nat) (s : State) : Result := .next (s.onLive (valveUv bank))

/-! ### VALVE.CONFIG, VALVE.BANK (R215 to R217) -/

def ValveCfg.ofBytes (p : List Byte) : ValveCfg :=
  { landing := bit (byteAt p 1) 1, peakEndMove := bit (byteAt p 1) 2, prio := byteAt p 2, interlock := byteAt p 3,
    zone := byteAt p 4, chimeValid := byteAt p 5, ipeak := rd p 6 2, ihold := rd p 8 2, tPeak := rd p 10 2,
    offMin := rd p 12 2, chopHz := rd p 14 2, chopMode := byteAt p 16, decayChop := byteAt p 17, mixPct := byteAt p 18,
    decayDrop := byteAt p 19, decayRel := byteAt p 20, spread := byteAt p 21, winStart := rd p 22 2, winEnd := rd p 24 2,
    dipMin := rd p 26 2, tSettle := rd p 28 2, landLead := rd p 30 2, landInit := byteAt p 32, depthTarget := rd p 34 2,
    lUh := rd p 36 4, holdMax := rd p 40 2 }

/-- accept of R200: 0.5 * L * IPEAK^2 * 48 / (48 - 36) <= 0.250 J. -/
def ValveCfg.energyOk (c : ValveCfg) : Bool := decide (c.lUh * c.ipeak * c.ipeak ≤ 12500000)

/-- The ranges of R215, then the combinations of R216. -/
def valveCfgChecks (b : Mailbox) : List (Nat × Bool) :=
  let p := b.payload
  let c := ValveCfg.ofBytes p
  [(0, decide (byteAt p 0 ≤ 11)), (1, decide (byteAt p 1 < 8)), (2, decide (c.prio ≤ 7)), (3, decide (c.interlock ≤ 2)),
   (4, decide (c.zone ≤ 7)), (5, inRange 1 60 c.chimeValid), (6, inRange 5 150 c.ipeak),
   (8, inRange 2 50 c.ihold && decide (c.ihold ≤ c.ipeak)), (10, inRange 1 1000 c.tPeak), (12, inRange 2 500 c.offMin),
   (14, inRange 10000 40000 c.chopHz), (16, decide (c.chopMode ≤ 1)), (17, decide (c.decayChop ≤ 2)),
   (18, inRange 10 90 c.mixPct), (19, decide (c.decayDrop ≤ 1)), (20, decide (c.decayRel ≤ 1)),
   (21, decide (c.spread ≤ 10)), (22, decide (c.winStart ≤ 999)), (24, inRange (c.winStart + 1) c.tPeak c.winEnd),
   (26, inRange 1 200 c.dipMin), (28, decide (c.tSettle ≤ 100)), (30, inRange 50 2000 c.landLead),
   (32, inRange 16 255 c.landInit), resv b 33 1, (34, inRange 1 200 c.depthTarget), (36, inRange 100 2000000 c.lUh),
   resv b 42 2] ++
  [(1, !c.landing || c.peakEndMove), (6, c.energyOk), (17, c.chopMode == 0 || c.decayChop == 0),
   (40, c.interlock != 1 || c.holdMax == 0)]

/-- A valve takes its configuration: learning restarts from LAND_INIT (R204). -/
def Valve.configure (x : Valve) (c : ValveCfg) : Valve :=
  { x with cfg := c, tTravel := 0, learned := 0, landDuty := c.landInit }

/-- IDLE or LATCHED. -/
def Valve.idle (x : Valve) : Bool := x.state == 0 || x.state == 9

/-- VALVE.CONFIG. -/
def valveConfig (m : MbRef) (b : Mailbox) (l : Live) : Reply × Live :=
  let p := b.payload
  let v := byteAt p 0
  checked (valveCfgChecks b)
    (if l.dieLost 1 then (refuse .internal, l)
     else if l.draining || !(l.valve' v).idle then (refuse .state, l)
     else (l.setValve v fun x => x.configure (ValveCfg.ofBytes p)).endConfig m (bit (byteAt p 1) 0) 0x2001 v p)
    fun r => (r, l)

def execValveConfig (s : State) : Result := .next (s.command 0x2001 fun m b l => valveConfig m b l)

/-- A bank takes its configuration. -/
def Live.applyBank (l : Live) (p : List Byte) : Live :=
  l.setBank (byteAt p 0) fun x => { x with stagger := rd p 2 2, icont := byteAt p 4, newCfg := none }

/-- VALVE.BANK. -/
def valveBank (m : MbRef) (b : Mailbox) (l : Live) : Reply × Live :=
  let p := b.payload
  let k := byteAt p 0
  checked [(0, decide (k ≤ 3)), (1, decide (byteAt p 1 < 2)), (2, decide (rd p 2 2 ≤ 1000)), (4, inRange 1 12 (byteAt p 4)),
      resv b 5 3]
    (if l.dieLost 1 then (refuse .internal, l)
     else if l.draining || (bankValves k).any (fun v => !(l.valve' v).idle) then (refuse .state, l)
     else (l.applyBank p).endConfig m (bit (byteAt p 1) 0) 0x2002 k p)
    fun r => (r, l)

def execValveBank (s : State) : Result := .next (s.command 0x2002 fun m b l => valveBank m b l)

/-! ### VALVE.FIRE and VALVE.RELEASE (R207 to R209, R218, R219) -/

/-- A refusal by the chime interlock: GATE and cause 13. -/
def Live.gated (l : Live) (v : Nat) : Reply × Live :=
  let z := (l.valve' v).cfg.zone
  (refuse .gate, l.valveEvent v 13 (le 1 z ++ le 2 (l.chimeAge z)))

/-- VALVE.FIRE. -/
def valveFire (m : MbRef) (b : Mailbox) (l : Live) : Reply × Live :=
  let p := b.payload
  let v := byteAt p 0
  let x := l.valve' v
  let pulse := byteAt p 1 == 1
  let deadline := l.mt.now + us (if rd p 4 4 = 0 then 55000 else rd p 4 4)
  checked [(0, decide (v ≤ 11)), (1, decide (byteAt p 1 ≤ 1) && !(pulse && x.cfg.interlock == 1)),
      (2, if pulse then rd p 2 2 != 0 else rd p 2 2 == 0), (4, decide (rd p 4 4 ≤ 55000))]
    (if l.dieLost 1 then (refuse .internal, l)
     else if l.draining || l.pwr.overvolt then (refuse .state, l)
     else if (l.die 1).stale then (refuse .budget, l)
     else if x.phase == .latched then (refuse .state 4, l)
     else if x.fire.isSome || !(x.phase == .idle || x.phase == .decay || x.phase == .offTime) then (refuse .state 1, l)
     else if x.cfg.interlock == 2 && !l.chimeOk v then l.gated v
     else
       let l := l.setValve v fun x => { x with
         fire := some { owner := some m, pulse := if pulse then some (rd p 2 2) else none, arrived := l.mt.now,
                        deadline := deadline, earliest := 0, tick := none, edge := 0, refire := false } }
       let l := (l.hold m).forgetDropped (.valve v)
       if x.phase == .idle && !x.decaying then (.wait, l.tryFire v)
       else if x.phase == .offTime && decide (deadline < x.offUntil) then (.wait, l.refuseFire v .state 2 0xFFFFFFFF)
       else (.wait, l))
    fun r => (r, l)

/-- VALVE.FIRE holds its mailbox itself, for its placing may complete it. -/
def execValveFire (s : State) : Result := .next (
  match s.live.request 0x2003 with
  | none => s
  | some (m, b) => s.onLive fun l =>
    match valveFire m b l with
    | (.wait, l') => l'
    | (.done st d p, l') => l'.complete m st d p)

/-- VALVE.RELEASE. -/
def valveRelease (b : Mailbox) (l : Live) : Reply × Live :=
  let v := byteAt b.payload 0
  let x := l.valve' v
  let gates := x.cfg.interlock == 1 && !l.chimeOk v
  checked [(0, decide (v ≤ 11))]
    (if l.dieLost 1 then (refuse .internal, l)
     else if x.fire.any (fun f => !f.refire) then
       let owner := x.fire.bind (·.owner)
       let l := l.dropFire v
       (okReply, match owner with
         | some m => l.complete m .state 3 []
         | none => l)
     else if l.isDropped (.valve v) then (okReply, l.forgetDropped (.valve v))
     else match x.phase with
       | .latched => (refuse .state 4, l)
       | .uvWait => if gates then l.gated v
         else (okReply, ((l.dropFire v).enterPhase v .idle).setValve v fun x => { x with held := false })
       | .idle => (refuse .state 1, l)
       | .decay => (refuse .state 1, l)
       | .offTime => (refuse .state 1, l)
       | _ => if gates then l.gated v else (okReply, l.releaseValve v))
    fun r => (r, l)

def execValveRelease (s : State) : Result := .next (s.command 0x2004 fun _ b l => valveRelease b l)

/-! ### VALVE.STATUS and VALVE.CLEAR (R220, R221) -/

/-- Strokes of a valve: the value of its spread counter (R214). -/
def strokes (st : Memory) (v : Nat) : Nat := counterValue st { cnt := v, first := 16 * v, n := 16 }

def execValveStatus (s : State) : Result := .next (s.commandK 0x2005 fun _ b s =>
  let l := s.live
  let v := byteAt b.payload 0
  let x := l.valve' v
  let k := l.bank (v / 3)
  checked [(0, decide (v ≤ 11))]
    (.done .ok 0 (le 1 v ++ le 1 x.state ++ le 1 (l.valveFlags v) ++ le 1 x.landDuty ++ leInt 2 x.i ++
      le 2 (units x.lastOnset) ++ le 2 (units x.lastLand) ++ le 2 x.lastDepth ++
      le 2 (if x.tTravel = 0 then 0xFFFF else x.tTravel) ++ leInt 2 x.tj ++ le 4 (strokes s.kept.store v) ++
      le 2 (min 0xFFFF x.pClamp) ++ le 1 (l.bankCode (v / 3)) ++ le 1 0 ++ leInt 2 k.i ++ leInt 2 k.tj ++ le 4 0), s)
    fun r => (r, s))

/-- VALVE.CLEAR. -/
def valveClear (b : Mailbox) (l : Live) : Reply × Live :=
  let mask := rd b.payload 0 4
  let sel := bitsOf 12 mask
  let banks := (List.range 4).filter fun k => bit mask (12 + k)
  checked [(0, decide (mask < 2 ^ 17))]
    (if l.dieLost 1 then (refuse .internal, l) else
     let cleared := maskOf 16 fun i => bit mask i && (if i < 12 then (l.valve' i).phase == .latched
        else (l.bank (i - 12)).st == .latched)
     let l := sel.foldl (fun l v =>
       let l := if (l.valve' v).phase == .latched then l.enterPhase v .idle else l
       if bit mask 16 then l.setValve v fun x => x.configure x.cfg else l) l
     let l := banks.foldl (fun l k =>
       if (l.bank k).st == .latched then (l.changed (.bank k)).setBank k fun x => { x with st := .off } else l) l
     (.done .ok 0 (le 4 cleared), l))
    fun r => (r, l)

def execValveClear (s : State) : Result := .next (s.command 0x2006 fun _ b l => valveClear b l)

/-! ### Drain and orphan mode (R211, R214) -/

/-- An ON_RELEASE valve that keeps the module out of DRAIN. -/
def Live.doorHeld (l : Live) : Bool :=
  l.valve.valves.any fun v => v.cfg.interlock == 1 && (v.fire.isSome || v.phase == .peak || v.phase == .land ||
    v.phase == .drop || v.phase == .hold || v.phase == .uvWait)

/-- Drain step 2: ENERGISE events without a programmed end are released, one in UV_WAIT too. -/
def Live.valvesDrain (l : Live) : Live :=
  (List.range 12).foldl (fun l v =>
    let x := l.valve' v
    if x.held && x.driven && x.cfg.holdMax = 0 then l.releaseValve v
    else if x.phase == .uvWait then ((l.dropFire v).enterPhase v .idle).setValve v fun x => { x with held := false }
    else l) l

/-- DRAIN_MAX: an event that still runs ends in DECAY, cause 12 with reason 4. -/
def Live.valvesForced (l : Live) : Live :=
  (List.range 12).foldl (fun l v =>
    let x := l.valve' v
    if x.driven then
      (l.endDrive v .decay false (x.cfg.decayRel == 1)).valveEvent v 12 (le 1 4) else l) l

/-- READBACK_SAMPLE of a valve or a bank (R117): current in 10 mA and junction. -/
def valveReadback (v : Nat) (xs : List Readback) (l : Live) : Live :=
  l.setValve v fun x => { x with i := meanOf (·.i) xs, tj := clip (-500) 2000 (meanOf (·.tj) xs) }

def bankReadback (b : Nat) (xs : List Readback) (l : Live) : Live :=
  l.setBank b fun x => { x with i := meanOf (·.i) xs, tj := clip (-500) 2000 (meanOf (·.tj) xs) }

/-- Orphan entry of PWR-S: a waiting fire is discarded, and its command, if it still waits, ends with INTERNAL (R159). -/
def Live.valvesOrphan (l : Live) : Live := (List.range 12).foldl (fun l v =>
  let owner := (l.valve' v).fire.bind (·.owner)
  let l := l.dropFire v
  match owner with
  | some m => l.complete m .internal 0 []
  | none => l) l

end Sys2Proof.Machine
end

