-- ==== Sys2Proof/Machine/PlanCmd.lean ====
section
/-! DEFINITION. The PLAN commands (06_planisher_thermal_ledger.md): configuration, bookings, status and the dump of the
standing edges. -/

namespace Sys2Proof.Machine

/-! ### PLAN.CONFIG (R186) -/

def PlanConfig.ofBytes (p : List Byte) : PlanConfig :=
  { seed := rd p 0 4, dither := byteAt p 4, delayMax := rd p 6 2, shareA := (List.range 4).map fun g => byteAt p (8 + g),
    shareDidt := (List.range 4).map fun g => byteAt p (12 + g) }

/-- Gives the Planisher its configuration; changed shares take effect at the next swap (R174). -/
def Live.applyPlanCfg (l : Live) (p : List Byte) : Live :=
  ({ l with plan := { l.plan with cfg := PlanConfig.ofBytes p } }).planDirty

/-- PLAN.CONFIG. -/
def planConfig (m : MbRef) (b : Mailbox) (l : Live) : Reply × Live :=
  let p := b.payload
  checked ([(4, decide (byteAt p 4 ≤ 40)), (5, decide (byteAt p 5 < 2)), (6, inRange 10 10000 (rd p 6 2))] ++
      (List.range 4).map (fun g => (8 + g, inRange 1 45 (byteAt p (8 + g)))) ++
      (List.range 4).map (fun g => (12 + g, inRange 1 80 (byteAt p (12 + g)))) ++ [resv b 16 4])
    ((l.applyPlanCfg p).endConfig m (bit (byteAt p 5) 0) 0x1201 0 (p.take 20))
    fun r => (r, l)

def execPlanConfig (s : State) : Result := .next (s.command 0x1201 fun m b l => planConfig m b l)

/-! ### PLAN.CHANNEL (R187) -/

/-- Sets the booking of load channel k, or of leg k - 48. -/
def Live.applyBook (l : Live) (k : Nat) (p : List Byte) : Live :=
  let b : BookCfg := { iBook := some (rd p 2 2), iInrush := rd p 4 2, tInrush := rd p 6 2 }
  (if k < 48 then { l with plan := { l.plan with loadBook := l.plan.loadBook.set k b } }
   else { l with plan := { l.plan with legBook := l.plan.legBook.set (k - 48) b } }).planDirty

/-- PLAN.CHANNEL. -/
def planChannel (m : MbRef) (b : Mailbox) (l : Live) : Reply × Live :=
  let p := b.payload
  let obj := byteAt p 0
  let k := byteAt p 1
  let ilim := if obj = 0 then (l.ch k).cfg.ilim else 10 * (l.brc k).ilimA
  let i := rd p 2 2
  let inr := rd p 4 2
  checked [(0, decide (obj ≤ 1)), (1, if obj = 0 then decide (k ≤ 47) else l.brOk k), (2, inRange 1 ilim i),
      (4, inr == 0 || inRange i ilim inr), (6, if inr = 0 then rd p 6 2 == 0 else decide (rd p 6 2 ≤ 5000)),
      (8, decide (byteAt p 8 < 2)), resv b 9 3]
    (let accepts := if obj = 0 then (l.ch k).lowest == k && (l.ch k).idle
       else (l.bridge k).idle && (l.bridge (k / 2 * 2)).idle && (l.bridge (k / 2 * 2 + 1)).idle
     if l.draining || !accepts then (refuse .state, l)
     else
       let n := if obj = 0 then k else 48 + k
       (l.applyBook n p).endConfig m (bit (byteAt p 8) 0) 0x1202 n p)
    fun r => (r, l)

def execPlanChannel (s : State) : Result := .next (s.command 0x1202 fun m b l => planChannel m b l)

/-! ### PLAN.STATUS and PLAN.DUMP (R188, R189) -/

/-- The sporadic edges that have no tick yet, fires included. -/
def Live.waitingEdges (l : Live) : Nat :=
  (l.plan.edges.filter (fun (e : Edge) => e.phase == EdgePhase.arriving)).length
    + (l.valve.valves.filter fun v => v.fire.any fun f => f.tick.isNone).length
def Live.delayedEdges (l : Live) : Nat :=
  (l.plan.edges.filter (fun (e : Edge) => e.phase == EdgePhase.delayed || e.phase == EdgePhase.held)).length

def Live.planRecord (l : Live) : List Byte :=
  le 4 l.plan.gen ++ le 2 (standCount l.plan.stand) ++ le 1 l.waitingEdges ++ le 1 l.delayedEdges ++
    (List.range 4).flatMap (fun g => le 2 (l.budA g / 10) ++ le 1 (l.budDidt g / 10) ++ le 1 0 ++
      le 2 (l.plan.peak.getD g 0) ++ le 2 (l.reserveA g)) ++ le 4 l.plan.refused

def execPlanStatus (s : State) : Result := .next (s.command 0x1203 fun _ _ l => (.done .ok 0 l.planRecord, l))

/-- The standing edges of a slot as (tick before dither, change in 0.1 A): one of each period that starts in a frame,
the one pair of a period of 1 ms or longer. -/
def Standing.edges (s : Standing) : List (Nat × Int) :=
  (List.range s.count).flatMap fun k =>
    let t := s.offset + k * s.period
    [(t / tickNs % 4000, (s.i : Int)), ((t + s.onNs) / tickNs % 4000, -(s.i : Int))]

/-- The standing edges of the active generation. -/
def Live.standList (l : Live) : List (Standing × Nat × Int) :=
  l.plan.stand.flatMap fun s => s.edges.map fun e => (s, e.1, e.2)

def execPlanDump (s : State) : Result := .next (s.command 0x1204 fun _ b l =>
  let first := rd b.payload 0 2
  let n := byteAt b.payload 2
  let es := l.standList
  checked [(0, decide (first < es.length)), (2, inRange 1 60 n), resv b 3 1]
    (.done .ok 0 (le 4 l.plan.gen ++ le 2 es.length ++ le 2 0 ++
      ((es.drop first).take n).flatMap fun e => le 2 (sourceId e.1.src) ++ le 2 e.2.1 ++ le 1 e.1.cls ++
        le 1 e.1.group ++ leInt 2 e.2.2), l)
    fun r => (r, l))

/-- EV_PLAN_BUILD_LATE (R173): a build has taken longer than 5 ms; the previous generation stays in force and the build starts
anew. -/
def planBuildLate (build100us : Nat) (l : Live) : Live :=
  if l.plan.dirty.isSome && decide (50 < build100us) then
    ({ l with plan := { l.plan with
      dirty := some l.mt.now,
      changes := l.plan.changes.map fun (c : SlotChange) => if c.admitted then c else { c with since := l.mt.now } } }).raise 0x085 warn 0
      (le 4 (l.plan.gen + 1) ++ le 2 (min build100us 0xFFFF))
  else l

def execEvPlanBuildLate (build100us : Nat) (s : State) : Result := .next (s.onLogic (planBuildLate build100us))

end Sys2Proof.Machine
end

