-- ==== Sys2Proof/Machine/Key.lean ====
section
/-! DEFINITION. The key store and the life cycle (15_key_store_lifecycle.md): the DRBG, slots, the KEY commands but for
peer authentication and the Hallmark, and transitions. -/

namespace Sys2Proof.Machine

/-! ### The DRBG (R419) -/

/-- n bytes of entropy from the source. -/
def Live.entropy (l : Live) (n : Nat) : List Byte := (List.range n).map fun i => Config.entropy (l.key.entropyUsed + i)

/-- Seeds the DRBG afresh at a logic start or a restart of it. -/
def Live.seedDrbg (l : Live) : Live :=
  let d := DrbgKeys.seed (l.entropy 48)
  { l with key := { l.key with
    drbgKey := d.key, drbgV := d.v, drbgRunning := true, drbgRequests := 0, drbgSeeded := l.mt.now,
    entropyUsed := l.key.entropyUsed + 48 } }

/-- n bytes of the DRBG; none while it is stopped. -/
def Live.random (l : Live) (n : Nat) : Option (List Byte) × Live :=
  if !l.key.drbgRunning then (none, l)
  else
    let r := (DrbgKeys.mk l.key.drbgKey l.key.drbgV).generate n
    (some r.1, { l with key := { l.key with
      drbgKey := r.2.key, drbgV := r.2.v, drbgRequests := l.key.drbgRequests + 1 } })

/-- ENTROPY_TEST_FAIL: a failed health test stops the DRBG; kind 0 repetition, 1 proportion. -/
def entropyTestFail (kind samples : Nat) (l : Live) : Live :=
  ({ l with key := { l.key with drbgRunning := false, samples := samples } }).raise 0x1A3 crit (kind % 2) (le 4 samples)

def execEntropyTestFail (kind samples : Nat) (s : State) : Result := .next (s.onLogic (entropyTestFail kind samples))

/-- DRBG_RESTART: after 1024 good samples a stopped DRBG restarts. -/
def drbgRestart (samples : Nat) (l : Live) : Live :=
  if l.key.drbgRunning || decide (samples < l.key.samples + 1024) then l
  else ({ l with key := { l.key with samples := samples } }).seedDrbg.raise 0x1A3 notice 2 (le 4 samples)

def execDrbgRestart (samples : Nat) (s : State) : Result := .next (s.onLogic (drbgRestart samples))

/-- DRBG_RESEED: after 1024 requests or 10 s. -/
def drbgReseed (l : Live) : Live :=
  if !l.key.drbgRunning || (decide (l.key.drbgRequests < 1024) && decide (l.mt.now < l.key.drbgSeeded + ms 10000)) then l
  else
    let d := (DrbgKeys.mk l.key.drbgKey l.key.drbgV).update (l.entropy 48)
    { l with key := { l.key with
      drbgKey := d.key, drbgV := d.v, drbgRequests := 0, drbgSeeded := l.mt.now,
      entropyUsed := l.key.entropyUsed + 48 } }

def execDrbgReseed (s : State) : Result := .next (s.onLogic drbgReseed)

/-! ### Roots and slots (R405, R412 to R415) -/

/-- The secret bytes of a root, the FOUNDRY ROOT's from Config. -/
def SecureCells.rootBytes (c : SecureCells) (domain : Nat) : List Byte :=
  if domain = 1 then c.owner.material else if domain = 2 then c.service.material else Config.foundryRoot

def SecureCells.slot (c : SecureCells) (i : Nat) : KeySlot := c.slots.getD i KeySlot.empty

/-- The domain of the root live for slots (R405): OWNER in OWNED, SERVICE in SERVICE, else none. -/
def SecureCells.liveDomain (c : SecureCells) : Nat := if c.lcs = 1 then 1 else if c.lcs = 2 then 2 else 0

def SecureCells.rootOk (c : SecureCells) (domain : Nat) : Bool :=
  if domain = 1 then c.owner.present && c.owner.tagOk
  else if domain = 2 then c.service.present && c.service.tagOk else c.foundry.present && c.foundry.tagOk

/-- A slot holds a key whose cells are good (R412). -/
def KeySlot.filled (k : KeySlot) : Bool := k.loaded && k.tagOk

/-- STATE of the descriptor: 0 EMPTY, 1 LOADED, 2 UNUSABLE in the present life-cycle state (R413, R415). -/
def SecureCells.slotState (c : SecureCells) (i : Nat) : Nat :=
  let k := c.slot i
  if !k.filled then 0
  else if !c.rootOk k.domain || (c.lcs == 1 && k.domain == 2) || c.liveDomain == 0 then 2 else 1

/-- The public key of an ECC slot. -/
def KeySlot.pub (k : KeySlot) : List Byte :=
  if k.type = 3 then ecPub (beNat k.material) else if k.type = 4 then k.material else []

/-- The key check value (R413). -/
def KeySlot.kcv (k : KeySlot) : List Byte :=
  let z := List.replicate 16 0
  (if k.type ≤ 1 then cmac k.material z else if k.type = 2 then hmac k.material z else sha256 k.pub).take 4

/-- The 16-byte descriptor (R413). -/
def SecureCells.descriptor (c : SecureCells) (i : Nat) : List Byte :=
  let k := c.slot i
  if !k.filled then le 1 i ++ List.replicate 15 0
  else le 1 i ++ le 1 (c.slotState i) ++ le 1 k.type ++ le 1 k.attr ++ le 1 k.domain ++ le 1 k.flags ++ le 2 0
    ++ k.kcv ++ le 4 k.uses

/-- Material bytes of a type (R416). -/
def materialLen (type : Nat) : Nat := if type = 0 then 16 else if type = 4 then 64 else 32

def State.setSlot (s : State) (i : Nat) (k : KeySlot) : State :=
  { s with kept := { s.kept with cells := { s.kept.cells with slots := s.kept.cells.slots.set i k } } }

/-- One more use of a slot, saturating (R413). -/
def State.useSlot (s : State) (i : Nat) : State :=
  let k := s.kept.cells.slot i
  s.setSlot i { k with uses := min (k.uses + 1) 0xFFFFFFFF }

/-- The source code of a mailbox: 0 host, 1 F1, 2 UART; a relayed command counts as the host's of another module. -/
def MbRef_source (m : MbRef) : Nat :=
  match m with
  | .host _ => 0 | .loc _ => 1 | .uart => 2 | .relay _ => 0

/-- EV_KEY_USAGE (R414, R415, R426). -/
def State.usageEvent (s : State) (cause slot opc source : Nat) : State :=
  s.onLive fun l => l.raise 0x1A2 warn cause (le 1 slot ++ le 2 opc ++ le 1 source)

def State.slotEvent (s : State) (cause i : Nat) : State :=
  let k := s.kept.cells.slot i
  s.onLive fun l => l.raise 0x1A1 info cause (le 1 i ++ le 1 k.type ++ le 1 k.attr ++ le 1 k.domain)

/-- A slot named by TOKEN.CONFIG, LINK.CONFIG or KEY.PEER (R424). -/
def Live.slotNamed (l : Live) (i : Nat) : Bool :=
  l.token.cfg.keySlot == i || l.link.cfg.keySlot == i || l.key.peer.any (fun p => p.slot == i)

/-- The checks of R424 for an operation that uses a slot: life-cycle state, domain and usability, TYPE, attribute, the
slot's own state. -/
def State.useCheck (s : State) (m : MbRef) (opc i off : Nat) (types : List Nat) (attr : Nat) : Option (Reply × State) :=
  let c := s.kept.cells
  let k := c.slot i
  if c.liveDomain = 0 then some (refuse .locked, s)
  else if c.slotState i = 2 then some (refuse .locked, s.usageEvent 1 i opc (MbRef_source m))
  else if k.filled && !types.contains k.type then some (refuse .badParam off, s)
  else if k.filled && k.attr != attr then some (refuse .keyUsage, s.usageEvent 0 i opc (MbRef_source m))
  else if !k.filled then some (refuse .state, s)
  else none

/-- The checks of R424 for filling a slot: life-cycle state, domain, a naming service, EMPTY. -/
def State.fillCheck (s : State) (i : Nat) (named : Bool) : Option Reply :=
  let c := s.kept.cells
  let k := c.slot i
  if c.liveDomain = 0 then some (refuse .locked)
  else if k.filled && k.domain != c.liveDomain then some (refuse .locked)
  else if !c.rootOk c.liveDomain then some (refuse .locked)
  else if named && s.live.slotNamed i then some (refuse .state 0x01)
  else if k.filled then some (refuse .state)
  else none

/-- A slot of another domain than the live root's, which the present state may not manage (R415). -/
def State.barred (s : State) (i : Nat) : Bool :=
  (s.kept.cells.slot i).filled && (s.kept.cells.slot i).domain != s.kept.cells.liveDomain

/-- A command that names two slots, `u` that it uses and others that it manages, passes the domain check for every one of them
before it comes to TYPE and attribute (R424). -/
def State.manageBarred (s : State) (u : Nat) (managed : List Nat) : Bool :=
  s.kept.cells.liveDomain != 0 && s.kept.cells.slotState u != 2 && managed.any s.barred

/-- Parameter store writes are blocked in a sag, and no secure-cell write starts (R425). -/
def Live.secureHeld (l : Live) : Bool := l.pwr.sag.active && decide (l.pwr.sag.undo < 2)

/-- Fields of a fill: TYPE up to `maxType`, ATTR, FLAGS; HALLMARK_REQ only on AES with ENC_ONLY (R413). -/
def fillChecks (tOff type attr flags maxType : Nat) : List (Nat × Bool) :=
  [(tOff, decide (type ≤ maxType)), (tOff + 1, decide (attr ≤ 3)),
   (tOff + 2, flags &&& 0xF6 == 0 && (!bit flags 3 || (decide (type ≤ 1) && attr == 0)))]

def newSlot (c : SecureCells) (type attr flags : Nat) (material : List Byte) : KeySlot :=
  { loaded := true, type := type, attr := attr, domain := c.liveDomain, flags := flags, material := material,
    uses := 0, tagOk := true }

/-! ### Slot commands (R424) -/

def execKeySlotInfo (s : State) : Result := .next (s.commandK 0x5802 fun _ b s =>
  let i := byteAt b.payload 0
  checked [(0, decide (i ≤ 63))]
    (.done .ok 0 (s.kept.cells.descriptor i ++ (if (s.kept.cells.slot i).filled then (s.kept.cells.slot i).pub else [])), s)
    fun r => (r, s))

/-- A private scalar from 40 random bytes, reduced to 1 up to the order less one. -/
def scalarOf (bs : List Byte) : Nat := beNat bs % (p256N - 1) + 1

/-- KEY.GENERATE. -/
def keyGenerate (b : Mailbox) (s : State) : Reply × State :=
  let p := b.payload
  let i := byteAt p 0
  let type := byteAt p 1
  checked ((0, decide (i ≤ 63)) :: fillChecks 1 type (byteAt p 2) (byteAt p 3) 3)
    (match s.fillCheck i true with
     | some r => (r, s)
     | none =>
       match s.live.random (if type = 3 then 40 else materialLen type) with
       | (none, _) => (refuse .internal, s)
       | (some bs, l) =>
         let material := if type = 3 then be 32 (scalarOf bs) else bs
         let s := ({ s with live := l }).setSlot i (newSlot s.kept.cells type (byteAt p 2) (byteAt p 3) material)
         let s := s.slotEvent 0 i
         (.done .ok 0 (s.kept.cells.descriptor i ++ (if type = 3 then (s.kept.cells.slot i).pub else [])), s))
    fun r => (r, s)

def execKeyGenerate (s : State) : Result :=
  .next (if s.live.secureHeld then s else s.commandK 0x5803 fun _ b s => keyGenerate b s)

/-- KEY.IMPORT of a wrapped blob: H then the material (R416). -/
def importBlob (s : State) (i : Nat) (blob : List Byte) (wrapKey : List Byte) : Reply × State :=
  match kwUnwrap wrapKey blob with
  | none => (refuse .crc, s)
  | some pt =>
    let type := byteAt pt 0
    let attr := byteAt pt 1
    let domain := byteAt pt 2
    let flags := byteAt pt 3
    if 4 < type || materialLen type + 8 != pt.length || 3 < attr then (refuse .crc, s)
    else if domain != s.kept.cells.liveDomain then (refuse .locked, s)
    else
      let s := s.setSlot i (newSlot s.kept.cells type attr ((flags &&& 9) ||| 2) (pt.drop 8))
      let s := s.slotEvent 1 i
      (.done .ok 0 (s.kept.cells.descriptor i), s)

/-- KEY.IMPORT. -/
def keyImport (m : MbRef) (b : Mailbox) (s : State) : Reply × State :=
  let p := b.payload
  let i := byteAt p 0
  let form := byteAt p 1
  let w := byteAt p 2
  if form = 0 then
    checked ((0, decide (i ≤ 63)) :: fillChecks 3 (byteAt p 3) (byteAt p 4) (byteAt p 5) 4 ++ [resv b 6 2])
      (match s.fillCheck i false with
       | some r => (r, s)
       | none =>
         let s := s.setSlot i (newSlot s.kept.cells (byteAt p 3) (byteAt p 4) (byteAt p 5 ||| 2) (p.drop 8))
         let s := s.slotEvent 1 i
         (.done .ok 0 (s.kept.cells.descriptor i), s))
      fun r => (r, s)
  else
    checked [(0, decide (i ≤ 63)), (1, form == 1), (2, decide (w ≤ 63)), resv b 3 5]
      (if s.manageBarred w [w, i] then (refuse .locked, s)
       else match s.useCheck m 0x5804 w 2 [0, 1] 2 with
         | some r => r
         | none => match s.fillCheck i false with
           | some r => (r, s)
           | none => importBlob (s.useSlot w) i (p.drop 8) (s.kept.cells.slot w).material)
      fun r => (r, s)

def execKeyImport (s : State) : Result :=
  .next (if s.live.secureHeld then s else s.commandK 0x5804 fun m b s => keyImport m b s)

/-- KEY.EXPORT: only a slot with EXPORTABLE, under a WRAP_ONLY slot of the same domain (R416). -/
def keyExport (m : MbRef) (b : Mailbox) (s : State) : Reply × State :=
  let i := byteAt b.payload 0
  let w := byteAt b.payload 1
  checked [(0, decide (i ≤ 63)), (1, decide (w ≤ 63))]
    (if s.manageBarred w [w, i] then (refuse .locked, s)
     else match s.useCheck m 0x5805 w 1 [0, 1] 2 with
       | some r => r
       | none =>
         let c := s.kept.cells
         let k := c.slot i
         if !k.filled || !bit k.flags 0 then (refuse .state, s)
         else
           let h := le 1 k.type ++ le 1 k.attr ++ le 1 k.domain ++ le 1 k.flags ++ le 4 0
           let s := (s.useSlot w).slotEvent 3 i
           (.done .ok 0 (kwWrap (c.slot w).material (h ++ k.material)), s))
    fun r => (r, s)

def execKeyExport (s : State) : Result := .next (s.commandK 0x5805 fun m b s => keyExport m b s)

/-- KEY.DELETE: managed by the live domain only; a slot that a service names gives STATE with DETAIL 1. -/
def keyDelete (b : Mailbox) (s : State) : Reply × State :=
  let i := byteAt b.payload 0
  checked [(0, decide (i ≤ 63))]
    (let c := s.kept.cells
     let k := c.slot i
     if c.liveDomain = 0 then (refuse .locked, s)
     else if k.filled && k.domain != c.liveDomain then (refuse .locked, s)
     else if s.live.slotNamed i then (refuse .state 0x01, s)
     else if !k.filled then (refuse .state, s)
     else
       let s := s.slotEvent 4 i
       (okReply, s.setSlot i KeySlot.empty))
    fun r => (r, s)

def execKeyDelete (s : State) : Result :=
  .next (if s.live.secureHeld then s else s.commandK 0x5806 fun _ b s => keyDelete b s)

/-- The PRF of a parent key (R417). -/
def prfOf (k : KeySlot) : List Byte → List Byte := if k.type = 2 then hmac k.material else cmac k.material

/-- KEY.DERIVE. -/
def keyDerive (m : MbRef) (b : Mailbox) (s : State) : Reply × State :=
  let p := b.payload
  let par := byteAt p 0
  let i := byteAt p 1
  let type := byteAt p 2
  let ll := byteAt p 5
  checked ([(0, decide (par ≤ 63)), (1, decide (i ≤ 63))] ++ fillChecks 2 type (byteAt p 3) (byteAt p 4) 2 ++ [resv b 7 1])
    (if s.manageBarred par [i] then (refuse .locked, s)
     else if s.kept.cells.liveDomain != 0 && !(s.kept.cells.slot par).filled && s.live.slotNamed i then (refuse .state 0x01, s)
     else match s.useCheck m 0x5807 par 0 [0, 1, 2] 3 with
     | some r => r
     | none => match s.fillCheck i true with
       | some r => (r, s)
       | none =>
         let out := kdf (prfOf (s.kept.cells.slot par)) ((p.drop 8).take ll) ((p.drop (8 + ll)).take (byteAt p 6))
           (8 * materialLen type)
         let s := (s.useSlot par).setSlot i (newSlot s.kept.cells type (byteAt p 3) (byteAt p 4 ||| 4) out)
         let s := s.slotEvent 2 i
         (.done .ok 0 (s.kept.cells.descriptor i), s))
    fun r => (r, s)

def execKeyDerive (s : State) : Result :=
  .next (if s.live.secureHeld then s else s.commandK 0x5807 fun m b s => keyDerive m b s)

/-! ### Operations (R414) -/

/-- KEY.CIPHER. -/
def keyCipher (m : MbRef) (b : Mailbox) (s : State) : Reply × State :=
  let p := b.payload
  let i := byteAt p 0
  let mode := byteAt p 1
  let dec := byteAt p 2 == 1
  let n := rd p 4 2
  checked [(0, decide (i ≤ 63)), (1, decide (mode ≤ 2)), (2, decide (byteAt p 2 ≤ 1)), (3, decide (byteAt p 3 ≤ 64)),
      (4, mode != 0 || n % 16 == 0), resv b 6 2]
    (match s.useCheck m 0x5808 i 0 [0, 1] (if dec then 1 else 0) with
     | some r => r
     | none =>
       let key := (s.kept.cells.slot i).material
       let iv := (p.drop 8).take 16
       let aad := (p.drop 24).take (byteAt p 3)
       let data := (p.drop (24 + byteAt p 3)).take n
       let s := s.useSlot i
       match mode with
       | 0 => (.done .ok 0 (if dec then cbcDec key iv data else cbcEnc key iv data), s)
       | 1 => (.done .ok 0 (ctrCrypt key iv data), s)
       | _ =>
         let out := gcmCrypt key (iv.take 12) data
         if dec then
           if gcmTag key (iv.take 12) aad data == (p.drop (24 + byteAt p 3 + n)).take 16 then (.done .ok 0 out, s)
           else (refuse .crc, s)
         else (.done .ok 0 (out ++ gcmTag key (iv.take 12) aad out), s))
    fun r => (r, s)

def execKeyCipher (s : State) : Result := .next (s.commandK 0x5808 fun m b s => keyCipher m b s)

/-- A challenge that is held and not older than 60 s (R420). -/
def Live.challenge (l : Live) (h : Nat) : Bool :=
  l.key.challenges.any fun c => c.handle == h && decide (l.mt.now < c.issued + ms 60000)

def Live.dropChallenge (l : Live) (h : Nat) : Live :=
  { l with key := { l.key with challenges := l.key.challenges.filter fun c => c.handle != h } }

/-- The 16-byte tag of a MAC slot. -/
def KeySlot.mac (k : KeySlot) (data : List Byte) : List Byte :=
  (if k.type = 2 then hmac k.material data else cmac k.material data).take 16

/-- KEY.MAC: a verification that names a handle consumes it, whether the check passes or fails (R420). -/
def keyMac (m : MbRef) (b : Mailbox) (s : State) : Reply × State :=
  let p := b.payload
  let i := byteAt p 0
  let verify := byteAt p 1 == 1
  let h := byteAt p 2
  let data := (p.drop 24).take (rd p 4 2)
  checked [(0, decide (i ≤ 63)), (1, decide (byteAt p 1 ≤ 1)), resv b 3 1, (4, decide (rd p 4 2 ≤ 448)), resv b 6 2]
    (match s.useCheck m 0x5809 i 0 [0, 1, 2] 0 with
     | some r => r
     | none =>
       let tag := (s.kept.cells.slot i).mac data
       if !verify then (.done .ok 0 tag, s.useSlot i)
       else if h != 0xFF && !s.live.challenge h then (refuse .state, s.onLive fun l => l.dropChallenge h)
       else
         let s := (s.useSlot i).onLive fun l => l.dropChallenge h
         if tag == (p.drop 8).take 16 then (okReply, s) else (refuse .crc, s))
    fun r => (r, s)

def execKeyMac (s : State) : Result := .next (s.commandK 0x5809 fun m b s => keyMac m b s)

/-- KEY.SIGN. -/
def keySign (m : MbRef) (b : Mailbox) (s : State) : Reply × State :=
  let p := b.payload
  let i := byteAt p 0
  let verify := byteAt p 1 == 1
  let digest := (p.drop 4).take 32
  checked [(0, decide (i ≤ 63)), (1, decide (byteAt p 1 ≤ 1)), resv b 2 2]
    (match s.useCheck m 0x580A i 0 (if verify then [3, 4] else [3]) (if verify then 1 else 0) with
     | some r => r
     | none =>
       let k := s.kept.cells.slot i
       if verify then
         if ecdsaVerify k.pub ((p.drop 36).take 64) digest then (okReply, s.useSlot i) else (refuse .crc, s.useSlot i)
       else match s.live.random 40 with
         | (none, _) => (refuse .internal, s)
         | (some bs, l) => (.done .ok 0 (ecdsaSign (beNat k.material) (scalarOf bs) digest), ({ s with live := l }).useSlot i))
    fun r => (r, s)

def execKeySign (s : State) : Result := .next (s.commandK 0x580A fun m b s => keySign m b s)

/-- The source of a hash session: each host, F1, the UART and each relayed origin has one of its own. -/
def hashSource (m : MbRef) : Nat :=
  match m with
  | .host _ => 0 | .loc _ => 1 | .uart => 2 | .relay _ => 3

/-- KEY.HASH. -/
def keyHash (m : MbRef) (b : Mailbox) (l : Live) : Reply × Live :=
  let p := b.payload
  let f := byteAt p 0
  let src := hashSource m
  checked [(0, decide (f ≤ 3)), resv b 1 3]
    (let sess := l.key.hashes.find? fun h => h.source == src
     let rest := l.key.hashes.filter fun h => h.source != src
     if !bit f 0 && sess.isNone then (refuse .state, l)
     else
       let fed := (if bit f 0 then [] else (sess.map (·.fed)).getD []) ++ p.drop 4
       if bit f 1 then (.done .ok 0 (sha256 fed), { l with key := { l.key with hashes := rest } })
       else (okReply, { l with key := { l.key with hashes := { source := src, fed := fed } :: rest } }))
    fun r => (r, l)

def execKeyHash (s : State) : Result := .next (s.command 0x580B fun m b l => keyHash m b l)

/-- KEY.RANDOM. -/
def keyRandom (b : Mailbox) (l : Live) : Reply × Live :=
  let n := byteAt b.payload 0
  checked [(0, decide (1 ≤ n))]
    (match l.random n with
     | (none, _) => (refuse .internal, l)
     | (some bs, l) => (.done .ok 0 bs, l))
    fun r => (r, l)

def execKeyRandom (s : State) : Result := .next (s.command 0x580C fun _ b l => keyRandom b l)

/-- KEY.CHALLENGE: 16 are held; the oldest is dropped for a seventeenth (R420). -/
def keyChallenge (l : Live) : Reply × Live :=
  match l.random 16 with
  | (none, _) => (refuse .internal, l)
  | (some bs, l) =>
    let h := l.key.nextHandle
    (.done .ok 0 (le 1 h ++ bs), { l with key := { l.key with
      challenges := pushDrop 16 l.key.challenges { handle := h, value := bs, issued := l.mt.now },
      nextHandle := (h + 1) % 255 } })

def execKeyChallenge (s : State) : Result := .next (s.command 0x580D fun _ _ l => keyChallenge l)

/-- CHALLENGE_EXPIRY: challenges of 60 s expire. -/
def challengeExpiry (l : Live) : Live :=
  { l with key := { l.key with challenges := l.key.challenges.filter fun c => decide (l.mt.now < c.issued + ms 60000) } }

def execChallengeExpiry (s : State) : Result := .next (s.onLogic challengeExpiry)

/-- KEY.CERT: TOTAL, then up to 480 bytes from OFFSET. -/
def execKeyCert (s : State) : Result := .next (s.command 0x5811 fun _ b l =>
  let off := rd b.payload 0 2
  let total := Config.attestCert.length
  checked [(0, decide (off ≤ total))]
    (.done .ok 0 (le 2 total ++ (Config.attestCert.drop off).take 480), l) fun r => (r, l))

/-- KEY.STATUS. -/
def keyStatus (s : State) : Reply :=
  let c := s.kept.cells
  let k := s.live.key
  .done .ok 0 (le 1 c.lcs ++ le 1 (b2n (decide (c.lcs ≤ 2) && s.live.host.sealOpen))
    ++ le 1 (c.slots.countP KeySlot.filled) ++ le 1 k.challenges.length ++ le 1 (b2n (!k.drbgRunning))
    ++ le 2 c.sealCount ++ le 1 0 ++ k.tnonce ++ le 8 0)

def execKeyStatus (s : State) : Result := .next (s.commandK 0x5801 fun _ _ s => (keyStatus s, s))

/-! ### Life-cycle transitions (R408 to R410) -/

/-- The permitted transitions (R408). -/
def transitionOk (old target : Nat) : Bool :=
  match old, target with
  | 0, 1 => true | 1, 2 => true | 2, 1 => true
  | 0, 3 => true | 1, 3 => true | 2, 3 => true
  | 0, 4 => true | 1, 4 => true | 2, 4 => true | 3, 4 => true
  | _, _ => false

/-- The cells after a transition, with the two roots generated for FACTORY to OWNED; the journal is clear. -/
def transitionCells (c : SecureCells) (old target : Nat) (rootA rootB : List Byte) : SecureCells :=
  let c := { c with lcs := target, journal := none }
  if old = 0 && target = 1 then
    { c with owner := { present := true, tagOk := true, material := rootA },
             service := { present := true, tagOk := true, material := rootB },
             slots := List.replicate 64 KeySlot.empty }
  else if target = 3 then
    { c with owner := Root.absent, service := Root.absent, slots := List.replicate 64 KeySlot.empty }
  else if target = 4 then
    { c with foundry := Root.absent, owner := Root.absent, service := Root.absent, imageKeys := false,
             slots := List.replicate 64 KeySlot.empty }
  else c

/-- Draws TNONCE afresh (R409); it stays while the DRBG is stopped. -/
def Live.newTnonce (l : Live) : Live :=
  match l.random 16 with
  | (none, l) => l
  | (some bs, l) => { l with key := { l.key with tnonce := bs } }

/-- Whether a transition draws from the DRBG: to generate roots or to destroy cells. -/
def transitionDraws (old target : Nat) : Bool := decide (3 ≤ target) || old == 0

/-- What a Challaqua authorisation signs (R409, R523). -/
def authDigest (label : String) (tnonce extra : List Byte) : List Byte :=
  sha256 (ascii label ++ le 8 Config.serial ++ tnonce ++ extra)

/-- The transition itself, once permitted: journaled steps taken whole, the event with its cause. -/
def State.transition (s : State) (old target cause : Nat) : State :=
  let ra := s.live.random 32
  let rb := ra.2.random 32
  let l := if transitionDraws old target then rb.2 else s.live
  let k := { s.kept with cells := transitionCells s.kept.cells old target (ra.1.getD []) (rb.1.getD []) }
  { s with kept := k, live := l.raise 0x1A0 notice cause (le 1 old ++ le 1 target) }

/-- KEY.TRANSITION; TNONCE is drawn afresh whether or not the request succeeds. -/
def keyTransition (b : Mailbox) (s : State) : Reply × State :=
  let p := b.payload
  let target := byteAt p 0
  let auth := (p.drop 4).take 64
  let old := s.kept.cells.lcs
  let fresh := fun (r : Reply × State) => (r.1, r.2.onLive Live.newTnonce)
  fresh (checked [(0, decide (target ≤ 4)), resv b 1 3, (4, target == 3 || allZero auth)]
    (if !transitionOk old target then (refuse .state, s)
     else if target == 3 && !ecdsaVerify Config.returnKey auth (authDigest "ZZ-RETURN" s.live.key.tnonce [])
       then (refuse .crc, s)
     else if transitionDraws old target && !s.live.key.drbgRunning then (refuse .internal, s)
     else (okReply, s.transition old target 0))
    fun r => (r, s))

def execKeyTransition (s : State) : Result :=
  .next (if s.live.secureHeld then s else s.commandK 0x5812 fun _ b s => keyTransition b s)

/-- A transition that the journal holds open is completed before READY_N falls (R410). -/
def State.resumeTransition (s : State) : State :=
  match s.kept.cells.journal with
  | none => s
  | some j => s.transition j.old j.target 1

/-- The check of every integrity tag at a start (R412). -/
def Live.checkCells (l : Live) (c : SecureCells) : Live :=
  let l := (List.range 64).foldl (fun l i =>
    if (c.slot i).loaded && !(c.slot i).tagOk then l.raise 0x1A6 crit 0 (le 1 i) else l) l
  ([(0, c.foundry), (1, c.owner), (2, c.service)] : List (Nat × Root)).foldl (fun l r =>
    if r.2.present && !r.2.tagOk then l.raise 0x1A6 crit 1 (le 1 r.1) else l) l

/-- An opening of the seal: the 32 most recent with their MT, and the count (R412). -/
def SecureCells.sealOpened (c : SecureCells) (mt : Nat) : SecureCells :=
  { c with sealLog := pushDrop 32 c.sealLog mt, sealCount := min 0xFFFF (c.sealCount + 1) }

/-- A module service's derivation from a parent slot: it must be usable and DERIVE_ONLY (R22, R418). -/
def State.serviceKdf (s : State) (slot : Nat) (label : String) (context : List Byte) : Option (List Byte) :=
  let k := s.kept.cells.slot slot
  if s.kept.cells.slotState slot == 1 && k.attr == 3 && decide (k.type ≤ 2)
  then some (kdf (prfOf k) (ascii label) context 128) else none

/-- A service whose parent slot is unusable or not DERIVE_ONLY raises EV_KEY_USAGE as source 3 (R414, R415, R418, R426).
DESIGN CHOICE: OPC is that of the command which names the slot for the service. -/
def State.serviceRefused (s : State) (slot opc : Nat) : State :=
  let k := s.kept.cells.slot slot
  if !k.filled then s
  else if s.kept.cells.slotState slot = 2 then s.usageEvent 1 slot opc 3
  else if k.attr != 3 then s.usageEvent 0 slot opc 3 else s

end Sys2Proof.Machine
end

