-- ==== Sys2Proof/Machine/Ledger.lean ====
section
/-! DEFINITION. The thermal ledger (06_planisher_thermal_ledger.md): the junction and wire models, the module model,
shedding, and the LEDGER commands.  Wire temperatures are held in 1e-9 °C and rounded down. -/

namespace Sys2Proof.Machine

/-! ### The wire model (R177 to R179) -/

/-- Copper resistance at 20 °C in 0.01 mOhm/m, thermal resistance in 0.1 K*m/W and time constant in s by section. -/
def wireTable (code : Nat) : Nat × Nat × Nat :=
  [(5100, 160, 25), (3570, 150, 32), (2380, 135, 45), (1790, 125, 58), (1190, 105, 80), (714, 90, 115), (447, 75, 160),
   (298, 65, 215), (179, 52, 320), (112, 42, 460)].getD code (5100, 160, 25)

/-- The wire of a channel: the one given, or the default wire of its class and group. -/
def Live.wireCfg (l : Live) (n : Nat) : WireCfg :=
  let w := l.ledger.wires.getD n (Wire.init n)
  if w.set then w.cfg else { w.cfg with section_ := defaultSection (loadClass n) (l.ch n).cfg.par }

def WireCfg.tTrip (c : WireCfg) : Int := (c.tIns : Int) - c.margin

/-- Twenty times f_len. -/
def WireCfg.fLen20 (c : WireCfg) : Nat := min 20 (10 + c.length)

/-- k in 1e-9 K per A^2. -/
def WireCfg.k9 (c : WireCfg) : Nat :=
  let t := wireTable c.section_
  t.1 * (100000 + 393 * (c.tTrip - 20)).toNat * t.2.1 * c.bundle * c.fLen20 / 200000

/-- tau in us. -/
def WireCfg.tauUs (c : WireCfg) : Nat := (wireTable c.section_).2.2 * 1000000 * c.bundle * c.fLen20 / 2000

def nano : Int := 1000000000

/-- One step of 1 ms of a wire at current i in 10 mA. -/
def WireCfg.step (c : WireCfg) (tw : Int) (i : Nat) : Int :=
  let tss : Int := c.tAmb * nano + (i * i * c.k9 / 10000 : Nat)
  tw + (tss - tw) * 1000 / (max 1 c.tauUs : Nat)

/-- The greatest natural number whose square is at most n, by halving the interval. -/
def isqrtGo (n : Nat) : Nat → Nat → Nat → Nat
  | 0, lo, _ => lo
  | fuel + 1, lo, hi =>
    let mid := (lo + hi + 1) / 2
    if mid * mid ≤ n then isqrtGo n fuel mid hi else isqrtGo n fuel lo (mid - 1)

def isqrt (n : Nat) : Nat := isqrtGo n 64 0 (2 ^ 32)

/-- I_SAFE in 0.1 A; 0xFFFF with MODEL_OFF. -/
def Live.iSafeOf (l : Live) (n : Nat) : Nat :=
  let c := l.wireCfg n
  if c.off then 0xFFFF
  else min 0xFFFE (isqrt ((c.tTrip - c.tAmb).toNat * 100000000000 / max 1 c.k9))

/-- Q_MARGIN in A^2 s x 1e-6. -/
def Live.qMarginOf (l : Live) (n : Nat) : Int :=
  let c := l.wireCfg n
  let tw := (l.ledger.wires.getD n (Wire.init n)).tw
  (c.tTrip * nano - tw) * c.tauUs / (max 1 c.k9 : Nat)

/-! ### Restart thresholds and losses (R175, R176, R579) -/

/-- T_RS in 0.1 °C. -/
def Live.trsOf (l : Live) (n : Nat) : Nat :=
  let c := l.ch n
  let zth := [195, 900, 3500].getD (loadClass n) 195
  let num : Int := (l.groupMv (n / 12) * c.cfg.ilim * zth : Nat)
  let den : Int := (100000000 * c.members : Nat)
  let t := (350 * den - 2 * num + den) / (2 * den)
  10 * (max 90 (min t (min (l.wireCfg n).restC 150 : Nat))).toNat

/-- A resistance in uOhm at a junction temperature in 0.1 °C between its 25 °C and 150 °C values in mOhm. -/
def rdsAt (r25 r150 : Nat) (tj : Int) : Nat := 1000 * r25 + (r150 - r25) * ((max tj 250 - 250).toNat * 1000) / 1250

/-- I^2 * R in mW of a current in 10 mA and a resistance in uOhm. -/
def lossMw (i : Int) (r : Nat) : Nat := i.natAbs * i.natAbs * r / 10000000

/-- Conduction loss of a member of a load channel in mW: PWM, and a lighting channel that is dimmed, by its duty; a die without fresh
data counts at rated current. -/
def Live.loadLoss (l : Live) (n : Nat) : Nat :=
  let c := l.ch n
  let low := l.ch c.lowest
  let cls := loadClass n
  let r := rdsAt ([4, 16, 60].getD cls 60) ([7, 28, 105].getD cls 105) c.tj
  if (l.die (sourceDie (.load n))).stale then lossMw (10 * ratingOf cls 0) r
  else if !low.conducts then 0
  else if low.pulsed then lossMw c.i r * low.duty / 65535
  else lossMw c.i r

/-- The loss of a channel or group in the last update (R175). -/
def Live.groupLoss (l : Live) (n : Nat) : Nat := sumNat ((l.groupOf n).map fun k => l.ledger.loss.getD k 0)

/-- The loss of a bridge leg in mW: its resistance while a switch conducts, its body diode at 0.85 V during the two dead times of a
period in which it changes over (R557, R579). -/
def Live.legLoss (l : Live) (leg : Nat) : Nat :=
  let k := l.bridgeOfLeg leg
  let c := l.brc k
  let b := l.bridge k
  let p := c.phases b (leg = k)
  let u := l.legPulse k
  let r := rdsAt 12 21 (l.bridge leg).tj
  let dead := if p.1 == p.2 || u.2.1 = 0 || u.2.2 ≤ u.2.1 then 0 else min u.2.2 (2 * c.deadNs)
  if (l.die (sourceDie (.leg leg))).stale then lossMw 1500 r
  else if p.1 == .off then 0
  else (lossMw b.i r * (u.2.2 - dead) + 85 * b.i.natAbs / 10 * dead) / max 1 u.2.2

/-- The loss of a valve's low-side in mW while it is on, and of its recirculation path at 1.0 V in the part of an off-phase that
decays SLOW (R558, R579); what goes into the clamp is measured apart. -/
def Live.valveLoss (l : Live) (v : Nat) : Nat :=
  let x := l.valve' v
  let r := rdsAt 40 70 x.tj
  let on := if x.chops then min x.onNs x.chopNs else if x.phase == .peak then 1 else 0
  let len := if x.chops then max 1 x.chopNs else 1
  let slow := if x.decayPath = 0 then 100 else if x.decayPath = 2 then 100 - x.cfg.mixPct else 0
  if (l.die 1).stale then lossMw 400 r
  else if !x.active then 0
  else (lossMw x.i r * on + 10 * x.i.natAbs * (len - on) * slow / 100) / len

/-- Losses of the bridges, the valves with their banks, and the field channels (R579), in mW.  DESIGN CHOICE: while the data of a die
are stale (R22) a leg counts at 15 A, a valve at a third of its bank's 12 A, a bank at 12 A and a field output at 0.5 A. -/
def Live.stageLoss (l : Live) : Nat :=
  let br := sumNat ((List.range 8).map l.legLoss)
  let vl := sumNat ((List.range 12).map l.valveLoss)
  let bk := sumNat ((List.range 4).map fun k =>
    let r := rdsAt 8 15 (l.bank k).tj
    if (l.die 1).stale then lossMw 1200 r else if l.bankOn k then lossMw (l.bank k).i r else 0)
  let ohm := fun (tj : Int) => 500000 + 400 * (max tj 250 - 250).toNat * 1000 / 1250
  let io := sumNat (l.fio.ch.map fun c =>
    let low := l.fioCh c.lowest
    if c.cfg.mode = 1 then c.v * c.i.natAbs / 100000
    else if low.cfg.mode = 2 && (l.die 0).stale then 250000 * ohm c.tj / 1000000000
    else if low.conducts then c.i.natAbs * c.i.natAbs * ohm c.tj / 1000000000
    else 0)
  br + vl + bk + io

/-- P_MOD in mW; the LOGIC die's estimate stays within its maximum of R570. -/
def Live.pModNow (l : Live) (d : LedgerData) : Nat :=
  sumNat l.ledger.loss + d.dieUj + l.stageLoss + d.ledMw + min 3200 d.logicMw

/-! ### The module model (R181) -/

/-- P_1S in mW. -/
def Live.p1s (l : Live) : Nat := sumNat l.ledger.pmod / max 1 l.ledger.pmod.length

/-- PD_MAX in mW. -/
def Live.pdMax (l : Live) : Nat :=
  if l.ledger.tLid ≤ 700 then 28000 else if l.ledger.tLid < 1400 then (28000 * (1400 - l.ledger.tLid)).toNat / 700 else 0

/-- The shedding level may move: every die's data are fresh, and P_1S has its data after a restart. -/
def Live.shedFree (l : Live) : Bool := !(l.die 0).stale && !(l.die 1).stale && decide (l.ledger.holdUntil ≤ l.mt.now)

def Live.setLedger (l : Live) (f : LedgerState → LedgerState) : Live := { l with ledger := f l.ledger }

/-! ### LEDGER_UPDATE (R178 to R181, R580) -/

/-- T_W in 0.1 °C. -/
def tw01 (tw : Int) : Int := tw / 100000000

def Live.setWire (l : Live) (n : Nat) (f : Wire → Wire) : Live :=
  l.setLedger fun g => { g with wires := upd g.wires n f }

/-- The mean current of a channel or group over the last 1 ms in 10 mA: the sum over its members, or the rating while the data are
stale. -/
def Live.wireCurrent (l : Live) (n : Nat) : Nat :=
  let c := l.ch n
  if (l.die (sourceDie (.load n))).stale then 10 * ratingOf (loadClass n) c.cfg.par
  else (sumInt ((l.groupOf n).map fun k => (l.ch k).iMean)).natAbs

/-- The wire trip of R179: cause 10, LATCHED, or RETRY_WAIT with WHOLD; a channel that its thermal latch has just turned off latches
too (R146). -/
def Live.wireTrip (l : Live) (n : Nat) (clamps : Bool) : Live :=
  if !(l.ch n).conducts then (l.loadEvent n 10).latchCh n 10
  else if (l.ch n).cfg.wireRetry then (l.faultOff n 10 clamps).setCh n fun c => { c with whold := true }
  else if (l.offThisFrame n).isSome then l.faultOff n 10 clamps
  else ((l.loadOff n clamps (some 10)).loadEvent n 10).latchCh n 10

/-- A wire at its trip temperature trips its channel: it conducts, or, without WIRE_RETRY, its thermal latch has turned it off within
the same 1 ms (R146). -/
def Live.wireTrips (l : Live) (n : Nat) : Bool :=
  let c := l.ch n
  c.conducts || (c.tlatch && c.fpend && !c.latch && !c.cfg.wireRetry && decide (l.mt.now ≤ c.offAt + ms 1))

/-- One wire over one update. -/
def Live.wireUpdate (clamping : List Nat) (l : Live) (n : Nat) : Live :=
  if (l.ch n).lowest != n then l
  else
    let c := l.wireCfg n
    let w := l.ledger.wires.getD n (Wire.init n)
    let tw := c.step w.tw (l.wireCurrent n)
    let thr := (c.tTrip - 5) * nano
    let l := l.setWire n fun w => { w with tw := tw }
    let l := if !w.warned && decide (thr ≤ tw) then
        (l.setWire n fun w => { w with warned := true }).raise 0x08A warn 0 (le 1 n ++ leInt 2 (tw01 tw))
      else if w.warned && decide (tw < thr - c.hyst * nano) then
        (l.setWire n fun w => { w with warned := false }).raise 0x08A warn 1 (le 1 n ++ leInt 2 (tw01 tw))
      else l
    let l := if !c.off && decide (c.tTrip * nano ≤ tw) && l.wireTrips n then l.wireTrip n (clamping.contains n) else l
    if (l.ch n).whold && decide (tw < (c.tTrip - c.hyst) * nano) then l.setCh n fun x => { x with whold := false } else l

/-- The record in retained SRAM (R180, R580) with the latches of R149. -/
def Live.ledgerRecord (l : Live) : LedgerRecord :=
  { tw := l.ledger.wires.map (·.tw), mt := l.mt.now, level := l.ledger.level, factor := l.ledger.factor,
    shed := l.ledger.shed ++ (List.range 48).filter fun n => (l.ch n).dropped && !l.ledger.shed.contains n,
    latches := l.load.ch.map fun c => (c.latch, c.latchCause), trs := l.load.ch.map (·.trs) }

def Live.saveLedger (l : Live) : Live := l.setLedger fun g => { g with saved := some l.ledgerRecord }

/-- Fresh data of a die end its staleness: EV_LEDGER_DIE_STALE cause 1. -/
def Live.dieFresh (l : Live) (d : Nat) : Live :=
  let was := (l.die d).stale
  let l := l.setDie d fun x => { x with fresh := l.mt.now, stale := false }
  if was then l.raise 0x08D sevFault 1 (le 1 d) else l

/-- The lid sensors: T_LID, and EV_LEDGER_LID_HOT above 120 °C and again below 115 °C. -/
def Live.lidUpdate (l : Live) (lid : List Int) : Live :=
  let t := lid.foldl max (lid.headD 250)
  let hot := l.ledger.lidHot
  let l := l.setLedger fun g => { g with tLid := t }
  if !hot && decide (1200 < t) then (l.setLedger fun g => { g with lidHot := true }).raise 0x08E warn 0 (leInt 2 t)
  else if hot && decide (t < 1150) then (l.setLedger fun g => { g with lidHot := false }).raise 0x08E warn 1 (leInt 2 t)
  else l

/-- How long P_1S has stood above PD_MAX, and at or below 0.9 of it. -/
def Live.powerTimes (l : Live) : Live :=
  let above := decide (l.pdMax < l.p1s)
  let under := decide (10 * l.p1s ≤ 9 * l.pdMax)
  l.setLedger fun g => { g with
    overSince := if above then some (g.overSince.getD l.mt.now) else none,
    underSince := if under then some (g.underSince.getD l.mt.now) else none }

/-- LEDGER_UPDATE. -/
def ledgerUpdate (d : LedgerData) (l : Live) : Live :=
  let l := if d.freshN then l.dieFresh 0 else l
  let l := if d.freshS then l.dieFresh 1 else l
  let l := l.lidUpdate d.lid
  let l := l.setLedger fun g => { g with loss := (List.range 48).map fun n => l.loadLoss n + d.energyUj.getD n 0 }
  let p := l.pModNow d
  let l := l.setLedger fun g => { g with pmod := (p :: g.pmod).take 1000 }
  let l := (List.range 48).foldl (Live.wireUpdate d.clamping) l
  l.powerTimes.saveLedger

def execLedgerUpdate (d : LedgerData) (s : State) : Result := .next (s.onLogic (ledgerUpdate d))

/-- LEDGER_DIE_STALE (R22): 5 ms without fresh data. -/
def ledgerDieStale (d : Nat) (l : Live) : Live :=
  if (l.die d).stale || decide (l.mt.now < (l.die d).fresh + ms 5) then l
  else (l.setDie d fun x => { x with stale := true }).raise 0x08D sevFault 0 (le 1 d)

def dieIndex : Die → Nat
  | .n => 0
  | .s => 1

def execLedgerDieStale (die : Die) (s : State) : Result := .next (s.onLogic (ledgerDieStale (dieIndex die)))

/-! ### Shedding (R182 to R184) -/

/-- EV_LEDGER_SHED_LEVEL with the new level. -/
def Live.setLevel (l : Live) (level : Nat) : Live :=
  (l.setLedger fun g => { g with level := level, levelAt := l.mt.now, stepAt := l.mt.now }).raise 0x088
    (if level < 2 then notice else warn) level (le 2 (l.p1s / 100) ++ le 2 (l.pdMax / 100) ++ leInt 2 l.ledger.tLid)

/-- The shedding factor falls by 16, no lower than SHED_DIM_MIN. -/
def Live.factorFalls (l : Live) : Live :=
  l.setLedger fun g => { g with factor := max g.cfg.dimMin (g.factor - 16), stepAt := l.mt.now }

/-- The channels that may be shed: ON or PWM, or waiting as a delayed turn-on, above SHED_PROTECT. -/
def Live.shedCandidates (l : Live) : List Nat :=
  (List.range 48).filter fun n =>
    let c := l.ch n
    c.lowest == n && decide (l.ledger.cfg.protect < c.cfg.prio) && !c.shed && (c.conducts ||
      l.plan.edges.any fun (e : Edge) => e.work.src == Source.load n && e.work.rises &&
        (e.phase == EdgePhase.delayed || (e.phase == EdgePhase.held && e.byShed)))

/-- The one with the highest class number, then the highest loss, then the lowest channel. -/
def Live.shedChoice (l : Live) : Option Nat :=
  l.shedCandidates.foldl (fun (best : Option Nat) n =>
    match best with
    | none => some n
    | some b =>
      let p := (l.ch n).cfg.prio
      let q := (l.ch b).cfg.prio
      if q < p || (q == p && decide (l.groupLoss b < l.groupLoss n)) then some n else some b) none

/-- Sheds one channel off by a planned edge, or drops its delayed turn-on (R185). -/
def Live.shedOne (l : Live) : Live :=
  match l.shedChoice with
  | none => l
  | some n =>
    let c := l.ch n
    let l := l.setLedger fun g => { g with stepAt := l.mt.now }
    if !c.conducts then
      (l.plan.edges.filter fun e => e.work.src == .load n && e.work.rises).foldl (fun l e =>
        (((l.unbookEdge e.id).removeEdge e.id).setCh n fun c => { c with cmd := .off }).raise 0x084 warn 0
          (le 2 (sourceId (.load n)))) l
    else
      let l := (l.setCh n fun c => { c with shed := true }).setLedger fun g => { g with shed := n :: g.shed }
      (l.sendEdge (.shedOff n) c.cfg.prio c.cfg.latUs none).raise 0x089 warn 0 (le 1 n ++ le 1 c.cfg.prio)

/-- SHED_LEVEL_ENTRY: the next level, or, when P_1S rises during the stepping back, the present level anew. -/
def shedLevelEntry (l : Live) : Live :=
  let g := l.ledger
  let above := fun (t : Nat) => g.overSince.any fun s => decide (s + t ≤ l.mt.now)
  if !l.shedFree || !(above 0) then l
  else if g.stepping && decide (1 ≤ g.level) then
    let l := l.setLedger fun g => { g with stepping := false, levelAt := l.mt.now, stepAt := l.mt.now }
    if g.level = 1 then l.factorFalls else if g.level = 3 then l.shedOne else l
  else match g.level with
    | 0 => (l.factorFalls).setLevel 1
    | 1 => if g.factor ≤ g.cfg.dimMin && above (ms 500) then l.setLevel 2 else l
    | 2 => if g.levelAt + ms g.cfg.offWait ≤ l.mt.now && above (ms g.cfg.offWait) then (l.setLevel 3).shedOne else l
    | _ => l

def execShedLevelEntry (s : State) : Result := .next (s.onLogic shedLevelEntry)

/-- SHED_FACTOR_STEP: every 100 ms at level 1. -/
def shedFactorStep (l : Live) : Live :=
  let g := l.ledger
  if l.shedFree && g.level == 1 && !g.stepping && decide (g.stepAt + ms 100 ≤ l.mt.now) then l.factorFalls else l

def execShedFactorStep (s : State) : Result := .next (s.onLogic shedFactorStep)

/-- SHED_CHANNEL: every 500 ms at level 3. -/
def shedChannel (l : Live) : Live :=
  let g := l.ledger
  if l.shedFree && g.level == 3 && !g.stepping && decide (g.stepAt + ms 500 ≤ l.mt.now) then l.shedOne else l

def execShedChannel (s : State) : Result := .next (s.onLogic shedChannel)

/-- The restoration of the channel shed last (R184). -/
def Live.restoreOne (l : Live) : Live :=
  match l.ledger.shed with
  | [] => l
  | n :: rest =>
    let c := l.ch n
    let l := l.setLedger fun g => { g with shed := rest, stepAt := l.mt.now }
    (l.sendEdge (.restore n) c.cfg.prio c.cfg.latUs none).raise 0x089 warn 1 (le 1 n ++ le 1 c.cfg.prio)

/-- Turn-ons that shedding level 2 has held are released in order of arrival; those a sag also holds wait on. -/
def Live.releaseShed (l : Live) : Live :=
  { l with plan := { l.plan with edges := l.plan.edges.map fun (e : Edge) =>
      if e.byShed then { e with
        byShed := false, phase := if e.bySag then EdgePhase.held else EdgePhase.arriving, arrived := l.mt.now }
      else e } }

/-- SHED_STEP_BACK: after 5 s at or below 0.9 of PD_MAX, then on as long as P_1S stays at or below PD_MAX. -/
def shedStepBack (l : Live) : Live :=
  let g := l.ledger
  let starts := !g.stepping && g.underSince.any fun t => decide (t + ms 5000 ≤ l.mt.now)
  let goes := g.stepping && decide (l.p1s ≤ l.pdMax)
  if g.level = 0 then
    -- Channels that an adopted die holds off after the record was lost are restored one every 500 ms (R580).
    (if g.shed.isEmpty || !l.shedFree || decide (l.mt.now < g.stepAt + ms 500) then l else l.restoreOne)
  else if !l.shedFree || !(starts || goes) then l
  else
    let l := l.setLedger fun g => { g with stepping := true }
    match g.level with
    | 3 =>
      if starts || g.shed.isEmpty || decide (g.stepAt + ms 500 ≤ l.mt.now) then
        let l := l.restoreOne
        if l.ledger.shed.isEmpty then l.setLevel 2 else l
      else l
    | 2 => l.releaseShed.setLevel 1
    | _ =>
      if starts || g.levelAt = g.stepAt || decide (g.stepAt + ms 100 ≤ l.mt.now) then
        let l := l.setLedger fun g => { g with factor := min 256 (g.factor + 16), stepAt := l.mt.now + 1 }
        if l.ledger.factor = 256 then (l.setLedger fun g => { g with stepping := false }).setLevel 0 else l
      else l

def execShedStepBack (s : State) : Result := .next (s.onLogic shedStepBack)

/-! ### BOOKING_EXCEEDED (R185) -/

/-- The booking in force of a source in 0.1 A. -/
def Live.bookingInForce (l : Live) (src : Source) : Nat :=
  match src with
  | .load n =>
    let b := l.plan.loadBook.getD n BookCfg.unset
    if b.iInrush != 0 && (l.ch n).cmd == .on && decide (l.mt.now < (l.ch n).onAt + ms b.tInrush) then b.iInrush else l.loadBooked n
  | .leg k => l.bridgeBooked k
  | .fio n => 5 * (l.fioCh n).members
  | s => (l.bookedOf s).toNat + sumNat ((l.plan.stand.filter fun x => x.src == s).map (·.i))

/-- A source conducts. -/
def Live.sourceOn (l : Live) (src : Source) : Bool :=
  match src with
  | .load n => (l.ch n).sw == .on
  | .leg k => (l.bridge k).runs
  | .valve v => (l.valve' v).inEvent
  | .fio n => (l.fioCh n).conducts
  | _ => false

/-- BOOKING_EXCEEDED: on-state current i in 10 mA above the booking in force by 10 % for 10 ms, once per turn-on. -/
def bookingExceeded (src : Source) (i forNs : Nat) (l : Live) : Live :=
  let b := l.bookingInForce src
  if !l.sourceOn src || forNs < ms 10 || i ≤ 11 * b || l.plan.exceeded.contains src then l
  else ({ l with plan := { l.plan with exceeded := src :: l.plan.exceeded } }).raise 0x082 warn 0
    (le 2 (sourceId src) ++ le 2 (i / 10) ++ le 2 b)

def execBookingExceeded (src : Source) (i forNs : Nat) (s : State) : Result :=
  .next (s.onLogic (bookingExceeded src i forNs))

/-! ### The LEDGER commands (R190 to R192) -/

def WireCfg.ofBytes (p : List Byte) : WireCfg :=
  { section_ := byteAt p 1, length := rd p 2 2, tIns := byteAt p 4, margin := byteAt p 5, hyst := byteAt p 6,
    tAmb := rdInt p 7 1, bundle := rd p 8 2, restC := byteAt p 10, off := bit (byteAt p 11) 1 }

/-- The modelled T_W carries over to the new configuration. -/
def Live.applyWire (l : Live) (p : List Byte) : Live :=
  l.setWire (byteAt p 0) fun w => { w with cfg := WireCfg.ofBytes p, set := true }

/-- LEDGER.WIRE. -/
def ledgerWire (m : MbRef) (b : Mailbox) (l : Live) : Reply × Live :=
  let p := b.payload
  let n := byteAt p 0
  let c := WireCfg.ofBytes p
  checked [(0, decide (n ≤ 47)), (1, decide (c.section_ ≤ 9)), (2, inRange 1 1000 c.length), (4, inRange 70 250 c.tIns),
      (5, inRange 5 30 c.margin), (6, inRange 5 50 c.hyst), (7, decide (-40 ≤ c.tAmb) && decide (c.tAmb ≤ 125)),
      (8, inRange 100 300 c.bundle), (10, inRange 90 150 c.restC), (11, decide (byteAt p 11 < 4)), resv b 12 4,
      (6, decide (c.tAmb < c.tTrip - c.hyst))]
    (if (l.ch n).lowest != n || !(l.ch n).idle then (refuse .state, l)
     else (l.applyWire p).endConfig m (bit (byteAt p 11) 0) 0x1301 n p)
    fun r => (r, l)

def execLedgerWire (s : State) : Result := .next (s.command 0x1301 fun m b l => ledgerWire m b l)

def Live.applyLedgerCfg (l : Live) (p : List Byte) : Live :=
  l.setLedger fun g => { g with
    cfg := { protect := byteAt p 0, dimMin := byteAt p 1, signs := bit (byteAt p 2) 0, offWait := rd p 4 2 } }

/-- LEDGER.CONFIG. -/
def ledgerConfig (m : MbRef) (b : Mailbox) (l : Live) : Reply × Live :=
  let p := b.payload
  checked [(0, decide (byteAt p 0 ≤ 7)), (2, decide (byteAt p 2 < 4)), resv b 3 1, (4, inRange 100 10000 (rd p 4 2)),
      resv b 6 2]
    ((l.applyLedgerCfg p).endConfig m (bit (byteAt p 2) 1) 0x1302 0 p)
    fun r => (r, l)

def execLedgerConfig (s : State) : Result := .next (s.command 0x1302 fun m b l => ledgerConfig m b l)

def Live.wireRecord (l : Live) (n : Nat) : List Byte :=
  let w := l.ledger.wires.getD n (Wire.init n)
  le 1 n ++ le 1 (maskOf 4 fun i => [(l.wireCfg n).off, (l.ch n).whold, (l.ch n).shed, w.cold].getD i false) ++
    leInt 2 (tw01 w.tw) ++ le 2 (l.iSafeOf n) ++ le 2 (l.trsOf n)

def execLedgerStatus (s : State) : Result := .next (s.command 0x1303 fun _ b l =>
  let first := byteAt b.payload 0
  let n := byteAt b.payload 1
  checked [(0, decide (first ≤ 47)), (1, inRange 1 48 n && decide (first + n ≤ 48))]
    (.done .ok 0 (le 2 (l.p1s / 100) ++ le 2 (l.pdMax / 100) ++ leInt 2 l.ledger.tLid ++ le 1 l.ledger.level ++ le 1 0 ++
      le 2 l.ledger.factor ++ le 1 l.ledger.shed.length ++ le 5 0 ++
      (List.range n).flatMap fun i => l.wireRecord (first + i)), l)
    fun r => (r, l))

/-! ### Cooling, cold start and adoption (R180, R580) -/

/-- 1e12 times e^-x for x = num / den: the whole part by repeated factors e^-1, the rest by its series. -/
def expNeg (num den : Nat) : Nat :=
  let n := num / den
  let f := num % den
  let series := (List.range 16).foldl (fun (r : Int × Int) k =>
    (r.1 + r.2, - r.2 * f / ((k + 1) * den : Nat))) ((0 : Int), (1000000000000 : Int))
  if 40 < n then 0 else iter (fun x => x * 367879441171 / 1000000000000) n series.1.toNat

/-- Park cooling of one wire over a time in ns. -/
def WireCfg.cool (c : WireCfg) (tw : Int) (ns : Nat) : Int :=
  c.tAmb * nano + (tw - c.tAmb * nano) * (expNeg ns (1000 * max 1 c.tauUs) : Nat) / 1000000000000

/-- Wake step 3: every wire cools by the time since the record, EV_LEDGER_PARK_COOLED with the hottest channel. -/
def Live.parkCooled (l : Live) : Live :=
  let r := l.ledger.saved.getD l.ledgerRecord
  let ns := l.mt.now - r.mt
  let l := (List.range 48).foldl (fun l n =>
    l.setWire n fun w => { w with tw := (l.wireCfg n).cool (r.tw.getD n w.tw) ns }) l
  let hot := (List.range 48).foldl (fun (best : Nat) n =>
    if (l.ledger.wires.getD best (Wire.init best)).tw < (l.ledger.wires.getD n (Wire.init n)).tw then n else best) 0
  l.raise 0x08B notice 0 (le 4 (ns / 1000000000) ++ le 1 hot ++ leInt 2 (tw01 (l.ledger.wires.getD hot (Wire.init hot)).tw))

/-- Power-on reset (cause 0) or an invalid record (cause 1): every wire halfway between ambient and its trip. -/
def Live.ledgerCold (l : Live) (cause : Nat) : Live :=
  let l := (List.range 48).foldl (fun l n =>
    let c := l.wireCfg n
    l.setWire n fun w => { w with tw := (c.tAmb * nano + c.tTrip * nano) / 2, cold := true, warned := false }) l
  (l.setLedger fun g => { g with
    level := 0, factor := 256, shed := (List.range 48).filter fun n => (l.ch n).shed || (l.ch n).dropped, stepping := false, pmod := [], overSince := none, underSince := none
    }).raise 0x08C warn cause []

/-- Adoption step 3: T_W from the record; shedding resumes at the saved level and holds it until P_1S has its data. -/
def Live.ledgerAdopt (l : Live) : Live :=
  match l.ledger.saved with
  | none => l.ledgerCold 1
  | some r =>
    let l := (List.range 48).foldl (fun l n => l.setWire n fun w => { w with tw := r.tw.getD n w.tw, cold := false }) l
    l.setLedger fun g => { g with
      level := r.level, factor := r.factor, shed := r.shed, stepping := false, pmod := [], overSince := none,
      underSince := some l.mt.now, holdUntil := l.mt.now + ms 1000, levelAt := l.mt.now, stepAt := l.mt.now }

/-- The heat of the orphan interval of die d, from the I2 integrals it has read back, capped at T_TRIP; a wire that started
cold takes none. -/
def Live.ledgerHeat (l : Live) (d : Nat) : Live :=
  ((List.range 24).map (24 * d + ·)).foldl (fun l n =>
    let c := l.wireCfg n
    let heat : Int := (l.ch n).i2 * (c.k9 : Int) / (max 1 c.tauUs : Nat)
    (l.setWire n fun w => if w.cold then w else { w with tw := min (c.tTrip * nano) (w.tw + heat) }).setCh n
      fun x => { x with i2 := 0 }) l

end Sys2Proof.Machine
end

