-- ==== Sys2Proof/Machine/Edges.lean ====
section
/-! DEFINITION. Sporadic edges: their arrival and placing (R168 to R171), their execution on the dies (R103), restarts
(R143), and the rows that several kinds of output share. -/

namespace Sys2Proof.Machine

/-! ### Arrival and placing -/

/-- Refuses an edge: EV_PLAN_BUDGET and the status of its entry. -/
def Live.refuseEdge (l : Live) (e : Edge) (cause : Nat) (st : Status) : Live :=
  ((l.removeEdge e.id).planRefused e.work.src cause).entryDone e.owner st

/-- Holds a turn-on for sag deferral or shedding level 2: its entry completes with PENDING.  A delay or deferral that has begun runs
on (R56, R171). -/
def Live.holdEdge (l : Live) (e : Edge) (bySag byShed : Bool) : Live :=
  let since := fun (by_ : Bool) (t : Option Nat) => if by_ then some (t.getD l.mt.now) else t
  ((l.unbookEdge e.id).setEdge { e with
    phase := .held, bySag := bySag, byShed := byShed, heldAt := since byShed e.heldAt, deferAt := since bySag e.deferAt,
    owner := none }).entryDone e.owner .pending

/-- Books the envelopes of an edge at a tick, with the duration of a ramp (R109). -/
def Live.bookWork (l : Live) (id u : Nat) (w : EdgeWork) : Live :=
  let l := l.bookEdge id w.src u (l.edgeSteps w)
  match w.src with
  | .load n => if w.rises then l.bookSlew n else l
  | _ => l

/-- An edge that asks for a standing slot leaves the queue for the generation build (R173). -/
def Live.slotEdge (l : Live) (e : Edge) : Live :=
  let l := l.removeEdge e.id
  match e.work with
  | .load n d _ => l.askSlot (l.loadSlot n d) (.pwm d) (l.fade n).isSome e.owner
  | .bridge k a d r => l.askDrive (l.driveSlot k d) .on false e.owner (some (a, d, r))
  | _ => l

/-- A pending generation may still accept an edge: the next swap lies within its latency bound. -/
def Live.awaitsSwap (l : Live) (e : Edge) : Bool :=
  l.plan.dirty.isSome && decide ((l.mt.now / frameNs + 1) * frameNs ≤ e.arrived + us e.latUs)

/-- Places an edge that nothing holds, by the rows of R170: around every waiting edge that ranks ahead of it. -/
def Live.placeEdge (l : Live) (e : Edge) : Live :=
  let rises := e.work.rises
  let book := fun (u : Nat) (e : Edge) => (l.bookWork e.id u e.work).setEdge { e with tick := u }
  match (l.foreseen e).findPlace e.work.src (l.edgeSteps e.work) e.arrived e.latUs
      (!rises || (!l.urgent e.prio && !e.work.restarts)) with
  | .at_ u => book u { e with phase := .placed }
  | .delayed u =>
    if !rises then book u { e with phase := .placed }
    else (book u { e with
      phase := .delayed, heldAt := some (e.heldAt.getD l.mt.now), owner := none }).entryDone e.owner .pending
  | .none cause =>
    if e.work.restarts || !rises then l.setEdge { e with arrived := l.mt.now }
    else if l.awaitsSwap e then l.setEdge { e with tick := tickOf l.mt.now }
    else l.refuseEdge e cause .budget

/-- The Planisher has not looked at a command's edge within its latency bound (R22). -/
def Live.unanswered (l : Live) (e : Edge) : Bool :=
  e.owner.isSome && e.tick == 0 && decide (e.arrived + us e.latUs < l.mt.now)

/-- SPORADIC_EDGE_ARRIVAL: the edge is placed, delayed, held or refused.  One that no Planisher has answered within its latency bound
ends with BUDGET (R22), one whose die is not reached with INTERNAL (R20). -/
def edgeArrival (id : Nat) (l : Live) : Live :=
  match l.edge id with
  | none => l
  | some e =>
    let others := (l.plan.edges.filter fun (x : Edge) => x.id != e.id && x.phase != EdgePhase.placed).length
    if e.phase != .arriving then l
    else if e.work.commanded && l.dieCut (sourceDie e.work.src) then (l.removeEdge id).entryDone e.owner .internal
    else if l.unanswered e then (l.removeEdge id).entryDone e.owner .budget
    else if 128 ≤ others && e.work.commanded then l.refuseEdge e 2 .busy
    else if l.holds e then l.holdEdge e l.sagDefers l.shedDelays
    else if l.asksSlot e.work then l.slotEdge e
    else l.placeEdge e

def execSporadicEdgeArrival (id : Nat) (s : State) : Result := .next (s.onLogic (edgeArrival id))

/-! ### Delayed and deferred turn-ons (R56, R171) -/

/-- DELAYED_TURN_ON: the reserved tick has come, or nothing holds the turn-on any longer. -/
def delayedTurnOn (id : Nat) (l : Live) : Live :=
  match l.edge id with
  | none => l
  | some e =>
    let blocked := (l.sagDefers || l.shedDelays) && !l.urgent e.prio
    match e.phase with
    | .delayed =>
      if l.mt.now < e.tick * tickNs then l
      else if blocked then l.holdEdge e l.sagDefers l.shedDelays
      else l.setEdge { e with phase := .placed }
    | .held => if blocked || e.bySag || e.byShed then l
      else l.setEdge { e with phase := .arriving, arrived := l.mt.now, tick := 0 }
    | _ => l

def execDelayedTurnOn (id : Nat) (s : State) : Result := .next (s.onLogic (delayedTurnOn id))

/-- The command of a source whose turn-on is dropped becomes OFF. -/
def Live.dropCommand (l : Live) (src : Source) : Live :=
  match src with
  | .load n => l.setCh n fun c => { c with cmd := .off }
  | .fio n => l.setFio n fun c => { c with cmd := false }
  | _ => l

/-- DELAY_MAX_EXPIRY: a delayed turn-on is dropped, EV_PLAN_DELAY_EXPIRED cause 0.  A restart waits on (R144). -/
def delayMaxExpiry (id : Nat) (l : Live) : Live :=
  match l.edge id with
  | none => l
  | some e =>
    let delayed := e.phase == .delayed || (e.phase == .held && e.byShed)
    if !delayed || e.work.restarts || !e.heldAt.any (fun t => decide (t + ms l.plan.cfg.delayMax ≤ l.mt.now)) then l
    else (((l.unbookEdge id).removeEdge id).dropCommand e.work.src).raise 0x084 warn 0 (le 2 (sourceId e.work.src))

def execDelayMaxExpiry (id : Nat) (s : State) : Result := .next (s.onLogic (delayMaxExpiry id))

/-- SAG_DEFER_MAX_EXPIRY: turn-ons deferred for SAG_DEFER_MAX are dropped, EV_SUPPLY_DEFER_EXPIRED for each. -/
def sagDeferExpiry (l : Live) : Live :=
  (l.plan.edges.filter fun (e : Edge) => e.phase == EdgePhase.held && e.bySag && !e.work.restarts
      && e.deferAt.any fun t => decide (t + ms l.pwr.cfg.sagDeferMax ≤ l.mt.now)).foldl (fun l e =>
    (((l.unbookEdge e.id).removeEdge e.id).dropCommand e.work.src).raise 0x029 warn 0
      (le 1 (sourceId e.work.src) ++ le 1 e.prio)) l

def execSagDeferMaxExpiry (s : State) : Result := .next (s.onLogic sagDeferExpiry)

/-- Turn-ons that a sag has deferred are released in order of arrival; those shedding also holds wait on (R185). -/
def Live.releaseSag (l : Live) : Live :=
  { l with plan := { l.plan with edges := l.plan.edges.map fun (e : Edge) =>
      if e.bySag then { e with
        bySag := false, phase := if e.byShed then EdgePhase.held else EdgePhase.arriving, arrived := l.mt.now }
      else e } }

/-! ### Execution on the dies (R103, R104) -/

/-- The standing slot of a PWM channel that has restarted. -/
def Live.pwmRestarted (l : Live) (n : Nat) : Live :=
  match (l.ch n).cmd with
  | .pwm d => if (l.ch n).conducts && !(l.plan.want.any fun s => s.src == .load n)
      then l.askSlot (l.loadSlot n d) (.pwm d) false none else l
  | _ => l

/-- A turn-on edge of a load channel executes. -/
def Live.executeOn (l : Live) (n duty : Nat) : Status × Live :=
  let c := l.ch n
  let cmd := if duty = 65535 then LoadCmd.on else .pwm duty
  if c.latch then (.state, l)
  else if c.conducts then (.ok, l.setCh n fun c => { c with cmd := cmd })
  else if c.tlatch || c.uvhold || c.fpend || c.whold then (.pending, l.setCh n fun c => { c with cmd := cmd })
  else (.ok, (l.loadOn n cmd).pwmRestarted n)

/-- A turn-off edge of a load channel executes. -/
def Live.executeOff (l : Live) (n : Nat) (clamps : Bool) : Live :=
  let l := l.setCh n fun c => { c with cmd := .off, fpend := false, uvOff := false }
  if (l.ch n).conducts then (l.endSlot (.load n)).loadOffCommanded n clamps else l

/-- What a commanded edge does when it executes: the status of its entry. -/
def Live.executeWork (l : Live) (w : EdgeWork) (clamps : Bool) : Status × Live :=
  match w with
  | .load n d on => if on then l.executeOn n d else (.ok, l.executeOff n clamps)
  | .shedOff n =>
    if (l.ch n).conducts then
      let l := (l.endSlot (.load n)).loadOff n clamps none
      (.ok, if clamps then l else l.loadEvent n 1)
    else (.ok, l)
  | .bridge k a d r => (if a < 2 then l.endSlot (.leg k) else l).driveBridge k a d r
  | .fio n on =>
    let c := l.fioCh n
    if !on then (.ok, l.fioEdge n false)
    else if c.latch then (.state, l)
    else if c.conducts then (.ok, l)
    else if c.thermal || c.uvhold || c.rdelay.isSome then (.pending, l.setFio n fun c => { c with cmd := true })
    else (.ok, l.fioEdge n true)
  | _ => (.ok, l)

/-- The source still clamps, so its next edge waits for the end of the clamp. -/
def Live.clamping (l : Live) (src : Source) : Bool :=
  match src with
  | .load n => (l.ch n).sw == .clamp
  | _ => false

/-- EDGE_EXECUTE: a placed edge at its tick; clamps tells whether a turn-off drives the output below -3.0 V. -/
def edgeExecute (id : Nat) (clamps : Bool) (l : Live) : Live :=
  match l.edge id with
  | none => l
  | some e =>
    if e.phase != .placed || decide (l.mt.now < e.tick * tickNs) || e.work.restarts || l.clamping e.work.src then l
    else
      let r := l.executeWork e.work clamps
      let l := r.2.removeEdge id
      let l := if e.work.rises && r.1 != .ok then l.unbookEdge id else l
      l.entryDone e.owner r.1

def execEdgeExecute (id : Nat) (clamps : Bool) (s : State) : Result := .next (s.onLive (edgeExecute id clamps))

/-- What a restart edge does. -/
def Live.restartWork' (l : Live) (w : EdgeWork) : Live :=
  match w with
  | .restart n => (l.loadRestarts n true).pwmRestarted n
  | .uvRestart n => (l.loadRestarts n false).pwmRestarted n
  | .restore n =>
    let l := l.setCh n fun c => { c with shed := false, dropped := false }
    if (l.ch n).restartDue then (l.loadOn n (l.ch n).cmd).pwmRestarted n else l
  | .fioRestart n => l.fioRestarts n
  | _ => l

/-- The source conducts after a restart edge. -/
def Live.conductsNow (l : Live) (src : Source) : Bool :=
  match src with
  | .load n => (l.ch n).conducts
  | .fio n => (l.fioCh n).conducts
  | _ => false

/-- RESTART_EDGE: a placed restart at its tick. -/
def restartEdge (id : Nat) (l : Live) : Live :=
  match l.edge id with
  | none => l
  | some e =>
    if e.phase != .placed || decide (l.mt.now < e.tick * tickNs) || !e.work.restarts || l.clamping e.work.src then l
    else
      let l := (l.restartWork' e.work).removeEdge id
      if l.conductsNow e.work.src then l else l.unbookEdge id

def execRestartEdge (id : Nat) (s : State) : Result := .next (s.onLive (restartEdge id))

/-! ### Rows shared by load channels and field outputs -/

/-- RETRY_DELAY_EXPIRY. -/
def retryDelayExpiry (o : OutRef) (l : Live) : Live :=
  match o with
  | .load n => loadRetryDelay n l
  | .fio n => fioRetryDelay n l
  | .bridge _ => l

def execRetryDelayExpiry (out : OutRef) (s : State) : Result := .next (s.onLive (retryDelayExpiry out))

/-- RESTART_REQUEST: every 1 ms of a held output. -/
def restartRequest (o : OutRef) (l : Live) : Live :=
  match o with
  | .load n => loadRestartRequest n l
  | .fio n => fioRestartRequest n l
  | .bridge _ => l

def execRestartRequest (out : OutRef) (s : State) : Result := .next (s.onLive (restartRequest out))

/-- RETRY_REFILL. -/
def retryRefill (o : OutRef) (l : Live) : Live :=
  match o with
  | .load n => loadRetryRefill n l
  | .fio n => fioRetryRefill n l
  | .bridge _ => l

def execRetryRefill (out : OutRef) (s : State) : Result := .next (s.onLive (retryRefill out))

/-- OFF_STATE_TEST (R116, R265): V0 and V1 in mV. -/
def offStateTest (o : OutRef) (v0 v1 : Nat) (l : Live) : Live :=
  match o with
  | .load n => loadOffTest n v0 v1 l
  | .fio n => fioOffTest n v0 v1 l
  | .bridge _ => l

def execOffStateTest (out : OutRef) (v0 v1 : Nat) (s : State) : Result := .next (s.onLive (offStateTest out v0 v1))

/-- READBACK_SAMPLE (R117): the samples of 1 ms.  A load channel: 10 mA, mV, 0.1 °C, fine current in 0.1 mA.  A leg: 10 mA, mV,
0.1 °C.  A valve or bank: 10 mA, 0.1 °C.  A field channel: its unit of R277, mV, 0.1 °C. -/
def readbackSample (src : Source) (xs : List Readback) (l : Live) : Live :=
  if xs.isEmpty then l
  else
    let l := match src with
      | .load n => loadReadback n xs l
      | .leg k => legReadback k xs l
      | .valve v => valveReadback v xs l
      | .bank b => bankReadback b xs l
      | .fio n => fioReadback n xs l
      | .rows => l
    l.setDie (sourceDie src) fun d => { d with fresh := l.mt.now }

def execReadbackSample (src : Source) (i : List (Int × Bool)) (v : List Nat) (tj : List Int) (x : List Nat) (s : State) : Result :=
  .next (s.onLive (readbackSample src (readbacks i v tj x)))

/-- Envelope class of a source's protective turn-off. -/
def Live.offClassOf (l : Live) (src : Source) : Nat :=
  match src with
  | .load n => (l.ch n).offClass
  | .leg k => (l.brc k).edgeClass
  | _ => 2

/-- A turn-on of the source has its tick, so what is booked for it stands. -/
def Live.hasPlaced (l : Live) (src : Source) : Bool :=
  l.plan.edges.any (fun e => e.work.src == src && e.phase == .placed) || (match src with
    | .valve v => (l.valve' v).fire.any fun f => f.tick.isSome
    | _ => false)

/-- A source that has gone off gives what it has booked back along its envelope. -/
def Live.giveBack (l : Live) (src : Source) : Live :=
  if l.hasPlaced src || decide (l.bookedOf src ≤ 0) then l
  else l.bookEdge 0 src (tickOf l.mt.now) [(0, - l.bookedOf src, rateOf (l.offClassOf src))]

/-- PROTECTION_OFF_REPORT (R164): the booking of a source that protection has turned off, a standing one in its on-phase too, falls
along its envelope, whose rate counts in the di/dt sum until its end. -/
def protectionOffReport (src : Source) (l : Live) : Live :=
  if l.sourceOn src || l.conductsNow src then l
  else
    let inPhase := l.plan.stand.any fun s => s.src == src && s.onAt l.plan.cfg.dither l.mt.now
    let l := if inPhase then l.endSlot src
      else { l.dropSlot src with plan := { (l.dropSlot src).plan with stand := l.plan.stand.filter (·.src != src) } }
    l.giveBack src

def execProtectionOffReport (src : Source) (s : State) : Result := .next (s.onLogic (protectionOffReport src))

/-! ### Orphan mode: what the dies place and end on their own (R153, R517) -/

/-- ORPHAN_TURN_ON: one turn-on of a group, the load channels first, in channel order; at most one per 1 ms. -/
def orphanTurnOn (g : Nat) (l : Live) : Live :=
  if !l.orphanSlot g then l
  else
    let mark := fun (l : Live) => l.setDie (dieOfGroup g) fun d => { d with turnOns := d.turnOns.set (g % 2) l.mt.now }
    match loadOrphanTurnOn g l with
    | some l' => mark l'
    | none => match (if g < 2 then (l.fioLowest g).find? (fun n => (l.fioCh n).orphanDue) else none) with
      | some n => mark (l.fioRestarts n)
      | none => l

def execOrphanTurnOn (g : Group) (s : State) : Result := .next (s.onLive (orphanTurnOn g))

/-- ORPHAN_OFF_EXPIRY, with the channels whose output falls below -3.0 V: ORPHAN_OFF_S of continuous orphan time turn off the die's
load channels and field outputs and brake its bridges, which float 100 ms later; running valve events run on. -/
def orphanOffExpiry (d : Nat) (clamping : List Nat) (l : Live) : Live :=
  let x := l.die d
  let due := x.orphanAt + ms (1000 * x.offS)
  if !x.orphan || x.offS = 0 || l.mt.now < due then l
  else if x.offDone then
    if l.mt.now < due + ms 100 then l
    else (List.range 8).foldl (fun l k => if sourceDie (.leg k) = d && (l.bridge k).st == .brake
      then (l.bridgeStops k .float).setBr k fun b => { b with action := 0 } else l) l
  else
    let l := l.setDie d fun x => { x with offDone := true }
    let l := (List.range 24).foldl (fun l i =>
      let n := 24 * d + i
      if (l.ch n).lowest != n then l
      else if (l.ch n).conducts then (l.setCh n fun c => { c with cmd := .off }).loadOffCommanded n (clamping.contains n)
      else l.cancelHeld n) l
    let l := (List.range 8).foldl (fun l k => if sourceDie (.leg k) = d && (l.bridge k).runs
      then (l.bridgeStops k .brake).setBr k fun b => { b with action := 1 } else l) l
    if d = 0 then l.fioAllOff else l

def execOrphanOffExpiry (x : OrphanOff) (s : State) : Result :=
  .next (s.onLive (orphanOffExpiry (dieIndex x.die) x.clamping))

end Sys2Proof.Machine
end

