-- ==== Sys2Proof/Machine/Led.lean ====
section
/-! DEFINITION. The LED matrix, its tables, faults and Patina tracking, pages, and the fades of the saloon lighting
(08_led_matrix_lighting.md). -/

namespace Sys2Proof.Machine

/-! ### Pixels and brightness (R229, R230) -/

/-- x is at or above n - 1/2 for x = 4096 (i / 255)^2.2, in whole numbers. -/
def gammaReaches (i n : Nat) : Bool := decide (255 ^ 11 * (2 * n - 1) ^ 5 ≤ (2 * 4096) ^ 5 * i ^ 11)

/-- The largest n of 13 bits with `gammaReaches`, found bit by bit. -/
def gammaFind (i : Nat) : Nat → Nat → Nat
  | 0, n => n
  | b + 1, n => gammaFind i b (if gammaReaches i (n + 2 ^ b) then n + 2 ^ b else n)

/-- Entry i of the gamma table of R230. -/
def defaultGamma (i : Nat) : Nat := if i = 0 then 0 else gammaFind i 13 0

/-- Entry i of a colour's table. -/
def LedTables.gammaAt (t : LedTables) (colour i : Nat) : Nat :=
  match t.gamma.getD colour none with
  | none => defaultGamma i
  | some g => g.getD i 0

/-- dcor_eff of R237. -/
def LedTables.dcor (t : LedTables) (pixel : Nat) : Nat :=
  (min 255 (max 0 ((t.base.getD pixel 224 : Int) + t.corr.getD pixel 0))).toNat

def LedCfg.enabled (c : LedCfg) (col : Nat) : Bool := bit c.colEn col
def LedCfg.colour (c : LedCfg) (col : Nat) : Nat := c.colColour / 4 ^ col % 4
def LedCfg.columns (c : LedCfg) : List Nat := (List.range 64).filter c.enabled

/-- The on-ticks of a pixel (R229). -/
def ledTicks (g dcor bright dim : Nat) : Nat := g * (dcor + 1) / 256 * (bright * dim / 256) / 256

/-- The dimming that reaches the matrix (R57, R182). -/
def Live.ledDim (l : Live) : Nat :=
  (if l.pwr.cfg.dimSigns then l.pwr.sag.factor else 256) * (if l.ledger.cfg.signs then l.ledger.factor else 256) / 256

/-- The code of a pixel of the shown page. -/
def LedState.code (s : LedState) (pixel : Nat) : Nat := (memRead 0 s.pages (1024 * s.page + pixel)).toNat

/-- The on-ticks of the 64 columns of a row. -/
def LedState.lineTicks (s : LedState) (row : Nat) : List Nat :=
  (List.range 64).map fun c =>
    let px := 64 * row + c
    if s.cfg.enabled c then ledTicks (s.active.gammaAt (s.cfg.colour c) (s.code px)) (s.active.dcor px) s.cfg.bright s.dim
    else 0

def Live.setLed (l : Live) (f : LedState → LedState) : Live := { l with led := f l.led }

def LedState.shown (s : LedState) : Bool := s.page != 0xFF
def LedState.dark (s : LedState) : Bool := s.darkVled || s.darkRefresh

/-! ### Timing (R224, R225, R226) -/

def slotNs : Nat := 125000

def LedState.period (s : LedState) : Nat := max 1 s.cfg.rows * slotNs

/-- The edges of the scanned rows: 12 us to 125 us of every slot, with no current (R226). -/
def rowSlot : Standing :=
  { src := .rows, group := 2, prio := 0, cls := 0, i := 0, period := slotNs, offset := 12000, onNs := slotNs - 12000 }

/-- The rows enter or leave the standing set with the shown page. -/
def Live.rowsStand (l : Live) : Live :=
  if l.led.shown then
    if l.plan.want.any (·.src == Source.rows) then l
    else ({ l with plan := { l.plan with want := insertSlot rowSlot l.plan.want } }).planDirty
  else l.dropSlot .rows

/-! ### Dark and resumed (R227, R247) -/

def Live.ledDarkEvent (l : Live) (cause : Nat) : Live := l.dieRaise 1 0x0A4 warn cause (le 2 l.pwr.vledMv)

/-- VLED is too low: the matrix is blanked. -/
def Live.ledVledLow (l : Live) : Live :=
  if l.led.darkVled then l
  else (l.setLed fun s => { s with darkVled := true, resume := false, lit := none, measuring := s.measuring.map fun _ => false }).ledDarkEvent 0

/-- The first scan frame after VLED is back. -/
def Live.ledVledBack (l : Live) : Live :=
  if !l.led.darkVled || !l.led.resume then l
  else
    let l := l.setLed fun s => { s with darkVled := false, resume := false }
    if l.led.darkRefresh then l else l.ledDarkEvent 2

/-! ### Faults (R233 to R235) -/

def LedState.holds (s : LedState) (kind idx : Nat) : Bool := s.faults.any fun (f : LedFault) => f.kind == kind && f.idx == idx

def ledFaultEvent (kind : Nat) : Nat × Nat :=
  if kind < 2 then (0x0A0, warn) else if kind < 5 then (0x0A1, sevFault) else (0x0A2, sevFault)

/-- One test of a pixel, column or row: three in a row that differ from what is held raise or clear the fault. -/
def Live.ledTest (l : Live) (kind idx : Nat) (bad : Bool) : Live :=
  let s := l.led
  let rest := s.runs.filter fun (r : LedRun) => !(r.kind == kind && r.idx == idx)
  if s.holds kind idx == bad then l.setLed fun s => { s with runs := rest }
  else
    let n := ((s.runs.find? fun (r : LedRun) => r.kind == kind && r.idx == idx).map (·.n)).getD 0 + 1
    if n < 3 then l.setLed fun s => { s with runs := LedRun.mk kind idx n :: rest }
    else
      let others := s.faults.filter fun (f : LedFault) => !(f.kind == kind && f.idx == idx)
      let l := l.setLed fun s => { s with
        runs := rest, faults := if bad then s.faults ++ [LedFault.mk kind idx s.frames] else others,
        rowOff := if kind != 6 then s.rowOff
          else if bad then s.rowOff ++ [(idx, l.mt.now)] else s.rowOff.filter fun x => x.1 != idx }
      let ev := ledFaultEvent kind
      l.raise ev.1 ev.2 kind (le 2 idx ++ le 1 (b2n bad))

/-- The probe runs in this scan frame (R232). -/
def LedState.probes (s : LedState) : Bool :=
  s.measuring.isNone && (s.cfg.faultScan == 1 || (s.cfg.faultScan == 2 && s.frames % 16 == 0))

/-- The tests of R234 in a lit slot, then the probe of R233, whose outcomes are judged at the end of the scan frame. -/
def Live.slotTests (l : Live) (d : SlotData) (row : Nat) : Live :=
  let v := l.pwr.vledMv
  let cfg := l.led.cfg
  let pre := fun c => 50 * cfg.vPre.getD (cfg.colour c) 40
  let l := cfg.columns.foldl (fun l c => l.ledTest 3 c (decide (2000 < d.high.getD c 0))) l
  let l := cfg.columns.foldl (fun l c => l.ledTest 4 c (decide (d.low.getD c 0 + pre c + 300 < v))) l
  let rowOpen := decide (d.rowMv + 300 < v)
  let l := l.ledTest 5 row rowOpen
  let l := l.ledTest 6 row d.limit
  let l := l.setLed fun s => { s with openRows := if rowOpen then s.openRows ++ [row] else s.openRows }
  if d.limit || !l.led.probes then l
  else
    let outcome := fun p => cfg.columns.filterMap fun c =>
      if p (d.probe.getD c 0) (d.probeMv.getD c 0) then some (64 * row + c) else none
    l.setLed fun s => { s with
      probed := s.probed ++ [row],
      openPix := s.openPix ++ outcome fun i _ => decide (i < 5),
      shortPix := s.shortPix ++ outcome fun i mv => decide (1000 ≤ i) && decide (v < mv + 500) }

/-- The judgement of the probe's outcomes: a column that tests open in all its rows, then the single pixels. -/
def Live.judgeProbe (l : Live) : Live :=
  let s := l.led
  let rows := List.range s.cfg.rows
  let isOpen := fun r c => s.openPix.contains (64 * r + c)
  let whole := rows.all fun r => s.probed.contains r
  let colOpen := fun c => whole && rows.any (fun r => !s.openRows.contains r) && rows.all fun r => isOpen r c
  let l := if whole then s.cfg.columns.foldl (fun l c => l.ledTest 2 c (colOpen c)) l else l
  (s.probed.filter fun r => !s.openRows.contains r).foldl (fun l r =>
    (s.cfg.columns.filter fun c => !colOpen c).foldl (fun l c =>
      (l.ledTest 0 (64 * r + c) (isOpen r c)).ledTest 1 (64 * r + c) (s.shortPix.contains (64 * r + c))) l) l

/-! ### Line slots (R224, R227) -/

/-- LINE_REFRESH: the line data of a row, at least 20 us before its next slot. -/
def lineRefresh (row : Nat) (l : Live) : Live :=
  let rows := max 1 l.led.cfg.rows
  let first := l.mt.now / slotNs + 1
  let slot := first + (row + rows - first % rows) % rows
  if (l.die 1).orphan || l.sup.phase != .running || decide (rows ≤ row) || decide (slot * slotNs < l.mt.now + us 20) then l
  else l.setLed fun s => { s with refreshed := s.refreshed.filter (· != slot) ++ [slot] }

def execLineRefresh (row : Nat) (s : State) : Result := .next (s.onLive (lineRefresh row))

/-- LINE_SLOT: a row is lit, tested and probed, or left dark for want of its refresh. -/
def lineSlot (d : SlotData) (l : Live) : Live :=
  let slot := l.mt.now / slotNs
  let row := slot % max 1 l.led.cfg.rows
  let here := l.led.refreshed.contains slot
  if slot ≤ l.led.slot then l
  else
    let l := l.setLed fun s => { s with
      slot := slot, refreshed := s.refreshed.filter fun x => decide (slot < x), lit := none }
    if !l.led.shown then l
    else if !here then
      let l := l.setLed fun s => { s with missing := s.missing + 1, present := 0, measuring := s.measuring.map fun _ => false }
      if 2 ≤ l.led.missing && !l.led.darkRefresh
      then (l.setLed fun s => { s with darkRefresh := true }).ledDarkEvent 1 else l
    else
      let l := l.setLed fun s => { s with missing := 0, present := s.present + 1 }
      if l.led.dark || l.led.rowOff.any (fun x => x.1 == row) then l
      else
        let l := l.setLed fun s => { s with
          lit := if d.limit then none else some (row, s.lineTicks row), rowNow := max s.rowNow d.rowMa, pSink := d.sink10mw }
        l.slotTests d row

def execLineSlot (d : SlotData) (s : State) : Result := .next (s.onLive (lineSlot d))

/-- ROW_SHORT_RETRY: a row kept off is tried in one slot every 1 s. -/
def rowShortRetry (row : Nat) (shorted : Bool) (l : Live) : Live :=
  match l.led.rowOff.find? fun x => x.1 == row with
  | none => l
  | some x =>
    if l.mt.now < x.2 + ms 1000 || l.led.dark then l
    else (l.setLed fun s => { s with rowOff := s.rowOff.map fun y => if y.1 == row then (row, l.mt.now) else y }).ledTest 6 row
      shorted

def execRowShortRetry (row : Nat) (shorted : Bool) (s : State) : Result := .next (s.onLive (rowShortRetry row shorted))

/-! ### Table generations (R231) -/

/-- Starts a build of these tables. -/
def Live.startBuild (l : Live) (t : LedTables) (patina : Bool) (owner : Option LedCommit) : Live :=
  l.setLed fun s => { s with
    builds := s.builds ++ [LedBuild.mk { t with corr := s.patina.corr } patina owner none], patinaWants := false }

/-- A Patina correction builds by itself only when no edit is pending and no build runs. -/
def Live.buildPatina (l : Live) : Live :=
  if l.led.patinaWants && !l.led.edits && l.led.builds.isEmpty then l.startBuild l.led.pend true none else l

/-- TABLE_BUILD_DONE: the build that runs is complete. -/
def tableBuildDone (l : Live) : Live :=
  match l.led.builds with
  | b :: bs => if b.doneAt.isSome then l else l.setLed fun s => { s with builds := { b with doneAt := some l.mt.now } :: bs }
  | [] => l

def execTableBuildDone (s : State) : Result := .next (s.onLogic tableBuildDone)

/-- The waiting command ends at the swap: with OK, or once its record is durable. -/
def Live.commitDone (l : Live) (c : LedCommit) : Live :=
  match c.keep with
  | none => l.complete c.m .ok 0 []
  | some (opc, obj, bs) => l.enqueue (.config opc obj bs) (some c.m) [] true

/-- Swaps in a build that completed at least 1 ms before the boundary. -/
def Live.swapTables (l : Live) (boundary : Nat) : Live :=
  match l.led.builds with
  | b :: bs =>
    if b.doneAt.any (fun t => decide (t + ms 1 ≤ boundary)) then
      let l := l.setLed fun s => { s with builds := bs, active := b.tables, gen := (s.gen + 1) % 2 ^ 32 }
      let l := l.raise 0x0A5 info (b2n b.patina) (le 4 l.led.gen)
      let l := match b.owner with
        | some c => l.commitDone c
        | none => l
      l.buildPatina
    else l
  | [] => l

/-! ### Patina (R236 to R238) -/

/-- Inserts into a rising list. -/
def insertNat (x : Nat) : List Nat → List Nat
  | [] => [x]
  | y :: ys => if x ≤ y then x :: y :: ys else y :: insertNat x ys

/-- Twice the median: the middle value, or the mean of the two middle ones. -/
def median2 (xs : List Nat) : Nat :=
  let s := xs.foldr insertNat []
  let n := s.length
  s.getD ((n - 1) / 2) 0 + s.getD (n / 2) 0

/-- A pixel holds a fault, its own or its row's or column's. -/
def LedState.faulty (s : LedState) (pixel : Nat) : Bool :=
  s.faults.any fun (f : LedFault) => if f.kind < 2 then f.idx == pixel else if f.kind < 5 then f.idx == pixel % 64
    else f.idx == pixel / 64

/-- The pixels of the enabled columns. -/
def LedState.pixels (s : LedState) : List Nat :=
  (List.range s.cfg.rows).flatMap fun r => s.cfg.columns.map fun c => 64 * r + c

/-- a of R237 in 1/16 mV. -/
def Patina.ageing (p : Patina) (pixel : Nat) : Int :=
  if p.baseSet then (p.dev.getD pixel none).getD 0 - p.base.getD pixel 0 else 0

/-- The deviations after a measurement frame: medians per colour, then the filter. -/
def LedState.newDevs (s : LedState) (vf : List Nat) : List (Option Int) :=
  let px := s.pixels.filter fun p => !s.faulty p
  let med := (List.range 4).map fun k => median2 ((px.filter fun p => s.cfg.colour (p % 64) == k).map fun p => vf.getD p 0)
  (List.range 1024).map fun p =>
    let old := s.patina.dev.getD p none
    if px.contains p then
      let m := 16 * (vf.getD p 0 : Int) - 8 * (med.getD (s.cfg.colour (p % 64)) 0 : Int)
      match old with
      | none => some m
      | some d => some (d + (m - d).tdiv 16)
    else old

/-- The corrections for a state of the deviations; a pixel that holds a fault keeps its own. -/
def LedState.newCorrs (s : LedState) (p : Patina) : List Int :=
  (List.range 1024).map fun k =>
    if s.faulty k then p.corr.getD k 0
    else (p.ageing k * (s.cfg.gain.getD (s.cfg.colour (k % 64)) 8 : Int)).tdiv 256

/-- The pixel of the largest ageing, the lowest of equals, and that ageing in mV. -/
def Patina.worst (p : Patina) : Nat × Int :=
  let r := (List.range 1024).foldl (fun (b : Nat × Int) k =>
    if b.2.natAbs < (p.ageing k).natAbs then (k, p.ageing k) else b) (0, 0)
  (r.1, r.2.tdiv 16)

/-- The bytes of D and D0 of the pixels of record k, then what counts the sweeps. -/
def Patina.record (p : Patina) (k : Nat) : List Byte :=
  let clip := fun (i : Int) => max (-32767) (min 32767 i)
  ((List.range (min 59 (1024 - 59 * k))).flatMap fun j =>
      leInt 2 (((p.dev.getD (59 * k + j) none).map clip).getD (-32768)) ++ leInt 2 (clip (p.base.getD (59 * k + j) 0)))
    ++ if k = 17 then le 1 (b2n p.baseSet) ++ le 1 (min 255 p.frames) ++ le 4 p.sweeps ++ le 6 (p.lastMt / 16) else []

/-- Writes the Patina state into the store, with the command that waits. -/
def Live.keepPatina (l : Live) (owner : Option MbRef) (resp : List Byte) : Live :=
  (List.range 18).foldl (fun l k =>
    if k = 17 then l.enqueue (.config 0x2806 k (l.led.patina.record k)) owner resp owner.isSome
    else l.persistOwn 0x2806 k (l.led.patina.record k)) l

/-- Reads record k of the Patina state back. -/
def Live.applyPatina (l : Live) (k : Nat) (bs : List Byte) : Live :=
  let n := min 59 (1024 - 59 * k)
  let l := (List.range n).foldl (fun l j =>
    let d := rdInt bs (4 * j) 2
    l.setLed fun s => { s with patina := { s.patina with
      dev := s.patina.dev.set (59 * k + j) (if d = -32768 then none else some d),
      base := s.patina.base.set (59 * k + j) (rdInt bs (4 * j + 2) 2) } }) l
  if k ≠ 17 then l
  else
    let at_ := 4 * n
    let l := l.setLed fun s => { s with patina := { s.patina with
      baseSet := byteAt bs at_ == 1, frames := byteAt bs (at_ + 1), sweeps := rd bs (at_ + 2) 4,
      lastMt := 16 * rd bs (at_ + 6) 6 } }
    let l := l.setLed fun s => { s with patina := { s.patina with corr := s.newCorrs s.patina } }
    l.setLed fun s => { s with active := { s.active with corr := s.patina.corr } }

/-- EV_LED_PATINA_HEADROOM for every pixel that has come to 0 or 255, once for each. -/
def Live.headroom (l : Live) : Live :=
  l.led.pixels.foldl (fun l k =>
    let t : LedTables := { l.led.pend with corr := l.led.patina.corr }
    let e := t.dcor k
    if l.led.patina.headroom.contains k || t.corr.getD k 0 = 0 || (e ≠ 0 && e ≠ 255) then l
    else (l.setLed fun s => { s with patina := { s.patina with headroom := s.patina.headroom ++ [k] } }).raise 0x0A7 warn
      (b2n (e == 0)) (le 2 k ++ leInt 2 ((l.led.patina.ageing k).tdiv 16))) l

/-- The end of a measurement frame: its values update D, D0 and the corrections, or it is discarded and repeated. -/
def Live.endMeasure (l : Live) (vf : List Nat) : Live :=
  match l.led.measuring with
  | none => l
  | some ok =>
    let l := l.setLed fun s => { s with measuring := none }
    let sweep := fun (l : Live) cause =>
      let w := l.led.patina.worst
      l.raise 0x0A6 notice cause (le 2 w.1 ++ leInt 2 w.2)
    if !ok || !l.led.cfg.patina then
      sweep (l.setLed fun s => { s with measDue := if s.cfg.patina then some l.mt.now else none }) 1
    else
      let l := l.setLed fun s =>
        let p : Patina := { s.patina with
          dev := s.newDevs vf, frames := s.patina.frames + 1, sweeps := (s.patina.sweeps + 1) % 2 ^ 32, lastMt := l.mt.now }
        let p : Patina := if p.frames = 16 then { p with baseSet := true, base := p.dev.map (·.getD 0) } else p
        { s with patina := p }
      let old := l.led.patina.corr
      let l := l.setLed fun s => { s with patina := { s.patina with corr := s.newCorrs s.patina } }
      let l := l.setLed fun s => { s with patinaWants := s.patinaWants || s.patina.corr != old }
      (sweep (l.headroom.keepPatina none []) 0).buildPatina

/-- Counts the time with a page shown. -/
def Live.countShown (l : Live) : Live :=
  l.setLed fun s => { s with
    shownNs := if s.shown then s.shownNs + (l.mt.now - s.shownAt) else s.shownNs, shownAt := l.mt.now }

/-- MEAS_INTERVAL_EXPIRY. -/
def measIntervalExpiry (l : Live) : Live :=
  let l' := l.countShown
  if l.led.cfg.patina && decide (l.led.cfg.measInterval * 1000000000 ≤ l'.led.shownNs)
  then l'.setLed fun s => { s with shownNs := 0, measDue := some (s.measDue.getD l.mt.now) } else l

def execMeasIntervalExpiry (s : State) : Result := .next (s.onLogic measIntervalExpiry)

/-! ### Scan frames (R225, R241) -/

/-- A show takes effect. -/
def Live.applyShow (l : Live) (w : LedShow) : Live :=
  let was := l.led.page
  let l := l.countShown.setLed fun s => { s with
    page := w.page, lit := if w.page = 0xFF then none else s.lit, missing := if was = 0xFF then 0 else s.missing,
    darkRefresh := s.darkRefresh && w.page != 0xFF }
  let l := l.rowsStand
  let l := if was = w.page then l else l.raise 0x0A3 info (b2n w.struck) (le 1 w.page ++ le 4 l.led.gen)
  match w.owner with
  | some m => l.complete m .ok 0 []
  | none => l

/-- SCAN_FRAME: vf are the forward voltages of the 1024 pixels in mV measured in the scan frame that ends, when it was a
measurement frame. -/
def scanFrame (vf : List Nat) (l : Live) : Live :=
  let f := l.mt.now / l.led.period
  let boundary := f * l.led.period
  if f ≤ l.led.frame || l.sup.phase != .running then l
  else
    let l := l.judgeProbe
    let l := l.setLed fun s => { s with
      frame := f, frames := s.frames + 1, rowI := s.rowNow, rowNow := 0, probed := [], openRows := [], openPix := [],
      shortPix := [] }
    let l := (l.endMeasure vf).swapTables boundary
    let due := l.led.shows.filter fun (w : LedShow) => decide (w.at_ ≤ boundary)
    let l := l.setLed fun s => { s with shows := s.shows.filter fun (w : LedShow) => decide (boundary < w.at_) }
    let l := due.foldl (fun l w => l.applyShow w) l
    let l := l.ledVledBack
    let l := if l.led.darkRefresh && decide (l.led.cfg.rows ≤ l.led.present) then
        let l := l.setLed fun s => { s with darkRefresh := false }
        if l.led.darkVled then l else l.ledDarkEvent 2
      else l
    let measures := l.led.measDue.any (fun t => decide (t ≤ boundary)) && l.led.cfg.patina && l.led.shown && !l.led.dark
      && !(l.die 1).orphan
    l.countShown.setLed fun s => { s with
      dim := l.ledDim, measuring := if measures then some true else none,
      measDue := if measures then none else s.measDue }

def execScanFrame (vf : List Nat) (s : State) : Result := .next (s.onLive (scanFrame vf))

/-! ### LED.CONFIG and LED.LAYOUT (R228, R243, R248) -/

def LedCfg.ofBytes (p : List Byte) : LedCfg :=
  let four := fun off => (List.range 4).map fun k => byteAt p (off + k)
  { rows := byteAt p 0, patina := bit (byteAt p 1) 1, faultScan := byteAt p 1 / 4 % 4, bright := rd p 2 2,
    colEn := rd p 4 8, colColour := rd p 12 16, colMa := four 28, vPre := four 32, rowDis := byteAt p 36,
    iRef := byteAt p 37, gain := four 38, measInterval := rd p 42 2 }

def ledCfgChecks (p : List Byte) : List (Nat × Bool) :=
  let c := LedCfg.ofBytes p
  [(0, [1, 2, 4, 8, 16].contains c.rows), (1, decide (byteAt p 1 < 16) && decide (c.faultScan ≤ 2)),
   (2, decide (c.bright ≤ 256))] ++
  (c.colMa.zipIdx).map (fun x => (28 + x.2, inRange 1 40 x.1)) ++
  (c.vPre.zipIdx).map (fun x => (32 + x.2, inRange 20 80 x.1)) ++
  [(36, decide (c.rowDis ≤ 30)), (37, inRange 1 10 c.iRef), (42, decide (60 ≤ c.measInterval)),
   (44, allZero ((p.drop 44).take 4)),
   (28, decide (sumNat (c.columns.map fun k => c.colMa.getD (c.colour k) 0) ≤ 1000)),
   (37, decide (c.iRef * c.columns.length ≤ 1000))]

/-- Gives the matrix its configuration; the count of scan frames follows the new length. -/
def Live.applyLedCfg (l : Live) (p : List Byte) : Live :=
  l.setLed fun s =>
    let s := { s with cfg := LedCfg.ofBytes p, runs := [] }
    { s with frame := l.mt.now / s.period }

/-- LED.CONFIG.  Like LED.SHOW and the measurement of LED.PATINA it acts on outputs of PWR-S (R159); pages, tables and layout are
kept by the LOGIC die. -/
def ledConfig (m : MbRef) (b : Mailbox) (l : Live) : Reply × Live :=
  let p := b.payload
  checked (ledCfgChecks p)
    (if l.dieLost 1 then (refuse .internal, l)
     else if l.led.shown then (refuse .state, l)
     else (l.applyLedCfg p).endConfig m (bit (byteAt p 1) 0) 0x2801 0 (p.take 44))
    fun r => (r, l)

def execLedConfig (s : State) : Result := .next (s.command 0x2801 fun m b l => ledConfig m b l)

def Live.applyLayout (l : Live) (p : List Byte) : Live := l.setLed fun s => { s with xt := rd p 0 2, yt := byteAt p 2 }

def ledLayout (m : MbRef) (b : Mailbox) (l : Live) : Reply × Live :=
  let p := b.payload
  checked [(3, decide (byteAt p 3 < 2))]
    (if l.led.shown then (refuse .state, l) else (l.applyLayout p).endConfig m (bit (byteAt p 3) 0) 0x2809 0 (p.take 4))
    fun r => (r, l)

def execLedLayout (s : State) : Result := .next (s.command 0x2809 fun m b l => ledLayout m b l)

/-! ### LED.FRAME and LED.SHOW (R239 to R241, R243, R249, R250) -/

/-- The part of a virtual rectangle that falls in this module's tile: offsets in the page and codes. -/
def LedState.tilePart (s : LedState) (x0 y0 w : Nat) (data : List Byte) : List (Nat × Byte) :=
  (data.zipIdx).filterMap fun d =>
    let x := x0 + d.2 % max 1 w
    let y := y0 + d.2 / max 1 w
    if s.xt ≤ x && x < s.xt + 64 && s.yt ≤ y && y < s.yt + s.cfg.rows
    then some (64 * (y - s.yt) + (x - s.xt), d.1) else none

def ledFrameChecks (p : List Byte) : List (Nat × Bool) :=
  let v := bit (byteAt p 1) 0
  [(0, decide (byteAt p 0 ≤ 127)), (1, decide (byteAt p 1 < 2))] ++
  (if v then [(5, decide (1 ≤ byteAt p 5)), (6, decide (1 ≤ byteAt p 6) && decide (byteAt p 5 * byteAt p 6 ≤ 480))]
   else [(2, decide (rd p 2 2 ≤ 1023)), (4, inRange 1 480 (rd p 4 2)), (6, byteAt p 6 == 0),
         (4, decide (rd p 2 2 + rd p 4 2 ≤ 1024))]) ++ [(7, byteAt p 7 == 0)]

def Live.stagedPage (l : Live) (page : Nat) : Bool :=
  l.stagedOn (fun s => match s with | .show_ p => p == page | _ => false)
    || l.led.shows.any fun (w : LedShow) => w.struck && w.page == page

def ledFrame (b : Mailbox) (l : Live) : Reply × Live :=
  let p := b.payload
  let page := byteAt p 0
  let data := p.drop 8
  checked (ledFrameChecks p)
    (if l.led.page = page then (refuse .state 1, l)
     else if l.stagedPage page then (refuse .state 2, l)
     else
       let pages := if bit (byteAt p 1) 0 then
           (l.led.tilePart (rd p 2 2) (byteAt p 4) (byteAt p 5) data).foldl
             (fun m (x : Nat × Byte) => memWrite 0 m (1024 * page + x.1) x.2) l.led.pages
         else memWriteN 0 l.led.pages (1024 * page + rd p 2 2) data
       (okReply, l.setLed fun s => { s with pages := pages }))
    fun r => (r, l)

def execLedFrame (s : State) : Result := .next (s.command 0x2802 fun _ b l => ledFrame b l)

def ledShow (m : MbRef) (b : Mailbox) (l : Live) : Reply × Live :=
  let page := byteAt b.payload 0
  checked [(0, decide (page ≤ 127) || page == 0xFF), resv b 1 3]
    (if l.dieLost 1 then (refuse .internal, l)
     else if l.draining then (refuse .state, l)
     else if b.staged then
       if 256 ≤ l.host.staged.length then (refuse .busy 1, l) else (okReply, l.stage b.seq (.show_ page) 2 0 0)
     else (.wait, l.setLed fun s => { s with shows := s.shows ++ [LedShow.mk page (l.mt.now + us 200) false (some m)] }))
    fun r => (r, l)

def execLedShow (s : State) : Result := .next (s.command 0x2803 fun m b l => ledShow m b l)

/-! ### LED.GAMMA and LED.DOTCOR (R251) -/

/-- The 128 entries of a half table packed at 13 bits. -/
def packHalf (es : List Nat) : List Byte := le 208 (es.foldr (fun e a => a * 8192 + e) 0)
def unpackHalf (bs : List Byte) : List Nat := let v := rd bs 0 208; (List.range 128).map fun i => v / 8192 ^ i % 8192

def LedTables.setHalf (t : LedTables) (colour half : Nat) (es : List Nat) : LedTables :=
  let old := (t.gamma.getD colour none).getD ((List.range 256).map defaultGamma)
  { t with gamma := t.gamma.set colour (some (if half = 0 then es ++ old.drop 128 else old.take 128 ++ es)) }

def LedTables.setRow (t : LedTables) (row : Nat) (ds : List Nat) : LedTables :=
  { t with base := t.base.take (64 * row) ++ ds ++ t.base.drop (64 * row + 64) }

/-- An edit of the pending copy ends: committed as a build, persisted, or done. -/
def Live.endEdit (l : Live) (m : MbRef) (flags opc obj : Nat) (keep : List Byte) : Reply × Live :=
  if bit flags 0 then
    let l := l.startBuild l.led.pend false (some { m := m, keep := if bit flags 1 then some (opc, obj, keep) else none })
    (.wait, l.setLed fun s => { s with edits := false })
  else (l.setLed fun s => { s with edits := true }).endConfig m (bit flags 1) opc obj keep

def ledGamma (m : MbRef) (b : Mailbox) (l : Live) : Reply × Live :=
  let p := b.payload
  let es := (List.range 128).map fun i => rd p (4 + 2 * i) 2
  checked ([(0, decide (byteAt p 0 ≤ 3)), (1, decide (byteAt p 1 ≤ 1)), (2, decide (byteAt p 2 < 4)), resv b 3 1] ++
      (es.zipIdx).map fun x => (4 + 2 * x.2, decide (x.1 ≤ 4096)))
    ((l.setLed fun s => { s with pend := s.pend.setHalf (byteAt p 0) (byteAt p 1) es }).endEdit m (byteAt p 2) 0x2804
      (2 * byteAt p 0 + byteAt p 1) (packHalf es))
    fun r => (r, l)

def execLedGamma (s : State) : Result := .next (s.command 0x2804 fun m b l => ledGamma m b l)

def ledDotcor (m : MbRef) (b : Mailbox) (l : Live) : Reply × Live :=
  let p := b.payload
  let ds := (List.range 64).map fun c => byteAt p (4 + c)
  checked [(0, decide (byteAt p 0 ≤ 15)), (1, decide (byteAt p 1 < 4)), resv b 2 2]
    ((l.setLed fun s => { s with pend := s.pend.setRow (byteAt p 0) ds }).endEdit m (byteAt p 1) 0x2805 (byteAt p 0)
      ((p.drop 4).take 64))
    fun r => (r, l)

def execLedDotcor (s : State) : Result := .next (s.command 0x2805 fun m b l => ledDotcor m b l)

/-! ### LED.PATINA, LED.STATUS, LED.FAULTS (R252, R253) -/

def Live.patinaRecord (l : Live) : List Byte :=
  let p := l.led.patina
  let w := p.worst
  let t : LedTables := l.led.active
  le 4 p.sweeps ++ le 2 w.1 ++ leInt 2 w.2 ++
    le 2 (l.led.pixels.filter fun k => t.dcor k == 0 || t.dcor k == 255).length ++ le 6 (p.lastMt / 16)

/-- The Patina state after BASELINE or RESET; the corrections follow at the next build. -/
def Live.patinaReset (l : Live) (all : Bool) : Live :=
  (l.setLed fun s => { s with
    patina := if all then { Patina.init with sweeps := s.patina.sweeps, lastMt := s.patina.lastMt, headroom := [] }
      else { s.patina with base := s.patina.dev.map (·.getD 0), baseSet := true, corr := List.replicate 1024 0 },
    patinaWants := true }).buildPatina

def ledPatina (m : MbRef) (b : Mailbox) (l : Live) : Reply × Live :=
  let a := byteAt b.payload 0
  checked [(0, decide (a ≤ 3)), resv b 1 3]
    (match a with
     | 0 => (.done .ok 0 l.patinaRecord, l)
     | 1 =>
       if l.dieLost 1 then (refuse .internal, l)
       else if !l.led.shown || !l.led.cfg.patina then (refuse .state, l)
       else (.done .pending 0 l.patinaRecord, l.setLed fun s => { s with
         measDue := some (min (s.measDue.getD (l.mt.now + ms 1)) (l.mt.now + ms 1)) })
     | _ =>
       let l := l.patinaReset (a == 3)
       (.wait, l.keepPatina (some m) l.patinaRecord))
    fun r => (r, l)

def execLedPatina (s : State) : Result := .next (s.command 0x2806 fun m b l => ledPatina m b l)

/-- The page of the latest staged show. -/
def Live.stagedShow (l : Live) : Nat :=
  l.host.staged.foldl (fun p s => match s.change with | .show_ q => q | _ => p) 0xFF

def Live.ledRecord (l : Live) : List Byte :=
  let s := l.led
  le 1 (if !s.shown then 0 else if s.darkVled then 2 else if s.darkRefresh then 3 else 1) ++ le 1 s.page ++
    le 1 l.stagedShow ++ le 1 (b2n s.edits + 2 * b2n (!s.builds.isEmpty) + 4 * b2n s.adopted) ++ le 4 s.gen ++
    le 2 s.faults.length ++ le 2 l.pwr.vledMv ++ le 2 s.rowI ++ le 2 s.pSink

def execLedStatus (s : State) : Result := .next (s.command 0x2807 fun _ _ l => (.done .ok 0 l.ledRecord, l))

def execLedFaults (s : State) : Result := .next (s.command 0x2808 fun _ b l =>
  let first := rd b.payload 0 2
  let fs := l.led.faults
  checked [(0, decide (first < fs.length))]
    (.done .ok 0 (le 2 fs.length ++ ((fs.drop first).take 60).flatMap fun (f : LedFault) =>
      le 2 f.idx ++ le 1 f.kind ++ le 1 (min 255 (l.led.frames - f.found))), l)
    fun r => (r, l))

/-! ### LED.LIGHT (R244, R245, R254) -/

/-- Adds a fade to run from a plan frame on. -/
def Live.addFade (l : Live) (n d1 fadeMs frame : Nat) (waits : Bool) : Live :=
  l.setLed fun s => { s with
    fades := s.fades.filter (fun (f : Fade) => f.ch != n) ++ [Fade.mk n (l.ch n).cmd.duty d1 fadeMs frame waits] }

/-- A fade that is to start in a plan frame, by the rows of R104: its booking is asked for where the present one does not cover it. -/
def Live.startFade (l : Live) (owner : Option (MbRef × Nat)) (n d1 fadeMs frame : Nat) : Option Status × Live :=
  let c := l.ch n
  let l := (l.endFade n 1).withdraw (.load n)
  let d0 := c.cmd.duty
  let held := c.shed || c.dropped || c.state == 5 || c.state == 6 || c.state == 7 || c.clampHeld
  let runs := (some Status.pending, l.addFade n d1 fadeMs frame false)
  let ask := ((none : Option Status), (l.askSlot (l.loadSlot n (max d0 d1)) (.pwm d1) true owner).addFade n d1 fadeMs frame true)
  if c.latch then (some .state, l)
  else if held then runs
  else if c.conducts then (if d1 ≤ d0 && c.cmd != .on then runs else ask)
  else if d1 = 0 then runs
  else match l.turnOnRefused n with
    | some st => (some st, l)
    | none =>
      if c.tlatch || c.uvhold then runs
      else if (l.sagDefers || l.shedDelays) && !l.urgent c.cfg.prio then
        (none, (l.sendEdge (.load n d1 true) c.cfg.prio c.cfg.latUs owner).addFade n d1 fadeMs frame true)
      else ask

/-- One unstaged entry. -/
def Live.lightEntry (l : Live) (owner : MbRef × Nat) (n d1 fadeMs : Nat) : Option Status × Live :=
  if fadeMs = 0 then l.loadEntry owner n (if d1 = 0 then 0 else 2) d1
  else if l.dieLost (sourceDie (.load n)) then (some .internal, l)
  else if l.draining then (some .state, l)
  else l.startFade (some owner) n d1 fadeMs (l.mt.now / frameNs + 1)

/-- One staged entry.  A fade to 0 turns nothing off at the Strike. -/
def Live.lightStage (l : Live) (seq n d1 fadeMs : Nat) : Status × Live :=
  let change := StagedChange.light n d1 fadeMs 0
  if fadeMs = 0 then l.loadStage seq n (if d1 = 0 then .off else .pwm d1) change
  else if d1 != 0 then l.loadStage seq n (.pwm (max (l.ch n).cmd.duty d1)) change
  else if l.dieLost (sourceDie (.load n)) then (.internal, l)
  else if l.draining || (l.ch n).latch then (.state, l)
  else (.ok, l.stage seq change (n / 12) 0 0)

/-- The entries of a request: CH, D1, FADE_MS. -/
def lightEntries (p : List Byte) : List (Nat × Nat × Nat) :=
  (List.range (byteAt p 0)).map fun i => (byteAt p (4 + 8 * i), rd p (6 + 8 * i) 2, rd p (8 + 8 * i) 2)

def Live.lightChecks (l : Live) (p : List Byte) : List (Nat × Bool) :=
  let es := lightEntries p
  [(0, inRange 1 16 (byteAt p 0)), (1, allZero ((p.drop 1).take 3))] ++
    (es.zipIdx).flatMap fun x =>
      let (n, _, f) := x.1
      let off := 4 + 8 * x.2
      [(off, decide (n ≤ 47) && loadClass n == 2 && (l.ch n).lowest == n && (l.ch n).lighting && (l.ch n).cfg.freq != 0
          && (es.take x.2).all fun e => e.1 != n),
       (off + 1, byteAt p (off + 1) == 0), (off + 4, decide (f ≤ 60000)), (off + 6, rd p (off + 6) 2 == 0)]

def ledLight (m : MbRef) (b : Mailbox) (l : Live) : Reply × Live :=
  let p := b.payload
  let es := lightEntries p
  checked (l.lightChecks p)
    (if b.staged then
       if 256 < l.host.staged.length + es.length
       then (.done .busy 1 (es.map fun _ => BitVec.ofNat 8 Status.busy.code), l)
       else
         let r := es.foldl (fun (r : List Status × Live) e =>
           let x := r.2.lightStage b.seq e.1 e.2.1 e.2.2
           (r.1 ++ [x.1], x.2)) ([], l)
         r.2.openEntries m .statuses (r.1.map some)
     else
       let r := (es.zipIdx).foldl (fun (r : List (Option Status) × Live) x =>
         let y := r.2.lightEntry (m, x.2) x.1.1 x.1.2.1 x.1.2.2
         (r.1 ++ [y.1], y.2)) ([], l)
       r.2.openEntries m .statuses r.1)
    fun r => (r, l)

def execLedLight (s : State) : Result := .next (s.command 0x2810 fun m b l => ledLight m b l)

/-! ### Fades in the plan frame, drain, orphan mode (R244, R246, R247) -/

/-- One fade's step in a plan frame. -/
def Live.fadeStep (l : Live) (frame : Nat) (f : Fade) : Live :=
  if frame < f.frame || f.waits then l
  else
    let n := f.ch
    let d := f.at_ frame
    let l := l.setCh n fun c => { c with cmd := if d = 0 && !c.conducts then .off else .pwm d }
    let l := if (l.ch n).conducts then l.setCh n fun c => { c with duty := l.effDuty n c.cmd } else l
    if frame + 1 < f.frame + f.n then l
    else
      let l := if f.d1 = 0 && (l.ch n).conducts
        then l.sendEdge (.load n 0 false) (l.ch n).cfg.prio (l.ch n).cfg.latUs none
        else if f.d1 = 0 then l.setCh n fun c => { c with cmd := .off } else l
      l.endFade n 0

/-- The fades' steps at the start of a plan frame. -/
def Live.fadeFrame (l : Live) (frame : Nat) : Live := l.led.fades.foldl (fun l f => l.fadeStep frame f) l

/-- Entry to DRAIN: fades end (R246). -/
def Live.fadesDrain (l : Live) : Live := l.led.fades.foldl (fun l (f : Fade) => l.endFade f.ch 1) l

/-- Orphan mode of a die: its fades are abandoned. -/
def Live.fadesOrphan (l : Live) (die : Nat) : Live :=
  (l.led.fades.filter fun (f : Fade) => sourceDie (.load f.ch) == die).foldl (fun l (f : Fade) => l.endFade f.ch 2) l

/-- Pending edits are lost, at a logic restart and at entry to DRAIN (R231). -/
def Live.dropEdits (l : Live) : Live := l.setLed fun s => { s with pend := s.active, edits := false }

/-- The matrix is blanked at drain step 2: nothing is shown any longer. -/
def Live.ledBlank (l : Live) : Live :=
  if l.led.shown then l.applyShow { page := 0xFF, at_ := 0, struck := false, owner := none } else l

/-- The pages after a logic restart (R242): those that fail their CRC are cleared.  `kept` tells that the frame buffers
and the shown page survive. -/
def Live.ledPages (l : Live) (bad : List Nat) : Live :=
  bad.foldl (fun l p =>
    (l.setLed fun s => { s with
      pages := memWriteN 0 s.pages (1024 * p) (List.replicate 1024 0), page := if s.page = p then 0xFF else s.page }).raise
      0x0A8 warn 0 (le 1 p)) l

end Sys2Proof.Machine
end

