-- ==== Sys2Proof/Machine/Frame.lean ====
section
/-! DEFINITION. Plan frames and generations (06_planisher_thermal_ledger.md, R54, R57, R58, R244), and the entry of a
power die into orphan mode (R150, R151). -/

namespace Sys2Proof.Machine

/-! ### The peak of a frame (R188) -/

/-- The pulses of a group's standing slots with their dither around a frame: start and end in ns, and current. -/
def Live.pulseSpans (l : Live) (g frame : Nat) : List (Nat × Nat × Nat) :=
  (l.plan.stand.filter (·.group == g)).flatMap fun s =>
    if s.period ≤ s.onNs then [(0, (frame + 2) * frameNs, s.i)]
    else
      let before := if s.framed then [] else [s.offset + (frame * frameNs - s.offset) / max 1 s.period * s.period]
      (before ++ [frame - 1, frame].flatMap s.starts).eraseDups.map fun t =>
      let t' := t + tickNs * l.ditherOf s t
      (t', t' + s.onNs, s.i)

/-- The highest booked current of a group in a frame, in 0.1 A. -/
def Live.framePeak (l : Live) (g frame : Nat) : Nat :=
  let spans := l.pulseSpans g frame
  let lo := frame * frameNs
  let hi := lo + frameNs
  let times := lo :: ((spans.map (·.1)) ++ ((l.plan.envs.filter (·.group == g)).map fun e => e.start * tickNs)).filter
    fun t => decide (lo ≤ t) && decide (t < hi)
  (times.map fun t => (l.envSum g (tickOf t)).toNat
    + sumNat ((spans.filter fun x => decide (x.1 ≤ t) && decide (t < x.2.1)).map (·.2.2))).foldl max 0

/-! ### Dimming in a frame (R54 step 4, R57, R58) -/

/-- The SAG_DIM factor of a plan frame that starts now. -/
def Live.sagFactor (l : Live) : Live :=
  let s := l.pwr.sag
  let dim := l.pwr.cfg.sagDim
  let n := l.pwr.cfg.sagRamp
  let set := fun (s : SagState) => { l with pwr := { l.pwr with sag := s } }
  if 1 ≤ s.undo then
    let k := s.undoFrames + 1
    set { s with undoFrames := k, factor := if k < n then dim + (256 - dim) * k / n else 256 }
  else if s.active then set { s with factor := dim }
  else l

/-- The effective duty of every lighting channel that is on follows the factors (R57, R107); on a die in orphan mode it stays
(R151). -/
def Live.dimLighting (l : Live) : Live :=
  (List.range 48).foldl (fun l n =>
    let c := l.ch n
    if c.lighting && c.conducts && c.lowest == n && !(l.die (sourceDie (.load n))).orphan then l.setCh n fun c => { c with duty := l.effDuty n c.cmd } else l) l

/-! ### PLAN_FRAME (R160, R166) -/

/-- Budgets of supply control that differ from those in force ask for a generation (R38, R173). -/
def Live.askBudgets (l : Live) : Live :=
  let l := { l with plan := { l.plan with received := true } }
  if (List.range 4).any fun g => l.wantedA g != l.budA g || l.wantedDidt g != l.budDidt g then l.planDirty else l

/-- The frames of an adopted die come back into phase by at most 250 ns in a frame (R157). -/
def Live.rephase (l : Live) : Live :=
  { l with load := { l.load with dies := l.load.dies.map fun d => { d with skew := d.skew - max (-250) (min 250 d.skew) } } }

/-- PLAN_FRAME: the peak of the frame that ends, the dither of the one that starts, dimming and fades, the slots of bridges whose
ramps have ended, and the restarts that are asked for anew in every frame. -/
def planFrame (l : Live) : Live :=
  let f := l.mt.now / frameNs
  if f ≤ l.plan.frame || l.sup.phase != .running then l
  else
    let peak := (List.range 4).map fun g => l.framePeak g (f - 1)
    let l := l.settleBook
    let l := { l with plan := { l.plan with frame := f, peak := peak, offsets := l.dithers f } }
    let l := (l.askBudgets.sagFactor.fadeFrame f).dimLighting.reinitFloats.rephase
    ((List.range 8).foldl Live.bridgeFrame l).refireFrame

def execPlanFrame (s : State) : Result := .next (s.onLive planFrame)

/-! ### GENERATION_SWAP (R167, R173, R174) -/

/-- A source whose standing slot no longer fits is turned off as a shed one, EV_PLAN_STANDING_DROPPED cause 0. -/
def Live.dropStanding (l : Live) (s : Standing) : Live :=
  let l := l.standingEvent 0 s
  let l := { l with plan := { l.plan with dropped := l.plan.dropped ++ [s] } }
  match s.src with
  | .load n =>
    let c := l.ch n
    ((l.endSlot (.load n)).setCh n fun c => { c with dropped := true }).sendEdge (.shedOff n) c.cfg.prio c.cfg.latUs none
  | .leg k => ((l.endSlot (.leg k)).bridgeStops k .float).giveBack (.leg k)
  | .valve v => l.releaseValve v
  | _ => l

/-- A dropped source fits again: it enters the generation and turns on, EV_PLAN_STANDING_DROPPED cause 1; a valve fires again and
holds its slot once it is in HOLD. -/
def Live.restoreStanding (l : Live) (s : Standing) : Live :=
  let l := (l.standingEvent 1 s).forgetDropped s.src
  let l' := { l with plan := { l.plan with want := insertSlot s l.plan.want } }
  match s.src with
  | .load n => { l' with plan := { l'.plan with
      changes := l'.plan.changes ++ [SlotChange.mk s (l.ch n).cmd false l.mt.now true none none] } }
  | .leg k => (l'.driveBridge k (l.bridge k).action (l.bridge k).target (l.bridge k).ramp).2
  | .valve v =>
    if (l.valve' v).fire.isSome then l
    else
      let l := l.setValve v fun x => { x with fire := some { FireWait.again l.mt.now with refire := false } }
      if (l.valve' v).phase == .idle && !(l.valve' v).decaying then l.tryFire v else l
  | _ => l

/-- A slot that no budget takes out: the rows of the matrix, which book nothing, and an ON_RELEASE valve, which only the reasons of
R212 and R213 release without its chime (R209). -/
def Live.slotStays (l : Live) (s : Standing) : Bool :=
  match s.src with
  | .rows => true
  | .valve v => (l.valve' v).cfg.interlock == 1
  | _ => false

/-- The kept slots under the budgets now in force: those that fit stay, the others are dropped, dropped ones that fit
again return.  On a die in orphan mode nothing changes (R153). -/
def Live.readmit (l : Live) : Live :=
  let free := fun (s : Standing) => !(l.die (sourceDie s.src)).orphan
  let stays := fun (s : Standing) => l.slotStays s || !free s
  let r := l.admitSlots l.plan.budgetA (l.plan.want.filter stays) (l.plan.want.filter fun s => !stays s)
  let l := { l with plan := { l.plan with want := r.1.foldl (fun ss s => insertSlot s ss) [] } }
  let back := l.plan.dropped.filter free
  let l := r.2.foldl (fun l s => l.dropStanding s) l
  (back.foldr insertPrio []).foldl (fun l s =>
    if l.slotFits l.plan.budgetA l.plan.want s then l.restoreStanding s else l) l

/-- Order of the changes of one build: priority class, then source. -/
def insertChange (c : SlotChange) : List SlotChange → List SlotChange
  | [] => [c]
  | x :: xs => if c.slot.prio < x.slot.prio || (c.slot.prio == x.slot.prio && decide (sourceId c.slot.src ≤ sourceId x.slot.src))
    then c :: x :: xs else x :: insertChange c xs

/-- Why a build does not accept a slot: 3 the standing capacity is full, 1 its rates do not fit, 0 its current does not. -/
def Live.refusal (l : Live) (s : Standing) : Nat :=
  let others := l.plan.want.filter fun (x : Standing) => x.src != s.src
  if 4096 < standCount (s :: others) then 3
  else if (standPeakOf l.plan.cfg.dither (s :: others.filter (·.group == s.group)) + l.envPeak s.group s.src + l.reserveA s.group) * 10
      ≤ l.budA s.group then 1
  else 0

/-- A change that the build could not accept: BUDGET and EV_PLAN_BUDGET.  A bridge that runs on without a slot is dropped (R167); a
valve's hold current stays booked as it is, and its slot is asked for again. -/
def Live.refuseChange (l : Live) (c : SlotChange) : Live :=
  let why := l.refusal c.slot
  let rest := l.plan.changes.filter fun (x : SlotChange) => x.slot.src != c.slot.src
  let l := { l with
    plan := { l.plan with changes := rest },
    led := { l.led with fades := l.led.fades.filter fun (f : Fade) => Source.load f.ch != c.slot.src || !f.waits } }
  let refused := (l.planRefused c.slot.src why).entryDone c.owner .budget
  match c.slot.src with
  | .valve _ => { l with plan := { l.plan with changes := rest ++ [{ c with since := l.mt.now }] } }
  | .leg k =>
    if (l.bridge k).runs && !(l.plan.want.any fun s => s.src == .leg k) && c.drive.isNone
    then (l.dropStanding c.slot).entryDone c.owner .budget else refused
  | _ => refused

/-- An admitted change of a bridge or a valve is in force at the swap, and the bridge takes its drive; one of a load channel is in
force at its period start. -/
def Live.admitChange (l : Live) (c : SlotChange) : Live :=
  let rest := l.plan.changes.filter fun (x : SlotChange) => x.slot.src != c.slot.src
  let inForce := ({ l with plan := { l.plan with changes := rest } }).unbookSource c.slot.src
  match c.slot.src with
  | .load _ => { l with plan := { l.plan with changes := rest ++ [c] } }
  | .leg k => match c.drive with
    | some (a, d, r) =>
      let x := inForce.driveBridge k a d r
      x.2.entryDone c.owner x.1
    | none => inForce.entryDone c.owner .ok
  | _ => inForce.entryDone c.owner .ok

/-- GENERATION_SWAP: the changes that came more than 200 us before this frame boundary. -/
def generationSwap (l : Live) : Live :=
  let boundary := l.mt.now / frameNs * frameNs
  let timely := fun (t : Nat) => decide (t + us 200 < boundary)
  if !l.plan.dirty.any timely || l.sup.phase != .running then l
  else
    let l := l.newBudgets.readmit
    let mine := l.plan.changes.filter fun (c : SlotChange) => !c.admitted && timely c.since
    let late := l.plan.changes.filter fun (c : SlotChange) => !c.admitted && !timely c.since
    let r := l.buildSlots l.plan.want (mine.foldr insertChange [])
    let l := { l with plan := { l.plan with want := r.1 } }
    let l := r.2.foldl (fun l c => if c.admitted then l.admitChange c else l.refuseChange c) l
    let l := { l with plan := { l.plan with
      stand := l.plan.want, gen := (l.plan.gen + 1) % 2 ^ 32,
      dirty := ((late ++ l.plan.changes.filter fun (c : SlotChange) => !c.admitted && decide (c.since = l.mt.now)).map fun (c : SlotChange) => c.since).foldl (fun (m : Option Nat) t => some (min t (m.getD t))) none } }
    l.raise 0x080 info 0 (le 4 l.plan.gen ++ le 2 (standCount l.plan.stand))

def execGenerationSwap (s : State) : Result := .next (s.onLive generationSwap)

/-! ### ORPHAN_ENTRY (R150, R151) -/

/-- One die enters orphan mode, with what its bridges, valves and fades do. -/
def Live.orphan (l : Live) (d : Nat) : Live :=
  if (l.die d).orphan then l
  else
    let l := (l.orphanDie d).fadesOrphan d
    let l := (List.range 8).foldl (fun l k => if sourceDie (.leg k) = d then l.bridgeOrphan k else l) l
    if d = 1 then l.valvesOrphan else l

/-- ORPHAN_ENTRY: 5 ms without a heartbeat, or the logic reset line is asserted. -/
def orphanEntry (d : Nat) (l : Live) : Live :=
  if l.pwr.mode == .park then l
  else if l.sup.resetLine || decide ((l.die d).lastHb + ms 5 ≤ l.mt.now) then l.orphan d else l

def execOrphanEntry (die : Die) (s : State) : Result := .next (s.onLive (orphanEntry (dieIndex die)))

end Sys2Proof.Machine
end

