-- ==== Sys2Proof/Machine/Supply.lean ====
section
/-! DEFINITION. Supplies, hold-up energy and sag control (02_supplies_modes_sag.md), with PWR.STATUS and PWR.CONFIG. -/

namespace Sys2Proof.Machine

def Live.setPwr (l : Live) (f : PwrState → PwrState) : Live := { l with pwr := f l.pwr }
def Live.setSag (l : Live) (f : SagState → SagState) : Live := l.setPwr fun p => { p with sag := f p.sag }

/-! ### Sag conditions (R54, R55) -/

/-- The cause for which a sag starts now: 0 level, 1 slope over at most 100 us, 2 logic rail. -/
def Live.sagCause (l : Live) : Option Nat :=
  let v := l.vbat
  let warn := l.pwr.cfg.warnMv
  if v < warn then some 0
  else if v < warn + 3000 && l.pwr.history.any (fun x => decide (v + 100 * l.pwr.cfg.sagSlope < x.2)) then some 1
  else if l.pwr.railMv < 930 then some 2
  else none

/-- The CORE step that R55 calls for. -/
def Live.coreRow (l : Live) : Nat :=
  let v := l.vbat
  if l.pwr.railMv < 930 then 3
  else if l.pwr.cfg.warnMv ≤ v + 1000 then 1
  else if 8000 ≤ v then 2
  else 3

/-- CORE steps down at once to a lower row while a sag lasts; the lowest row stays in force until the undoing. -/
def Live.coreDown (l : Live) : Live := l.setPwr fun p => { p with
  coreStep := max p.coreStep l.coreRow, sag := { p.sag with row := max p.sag.row l.coreRow } }

/-- The CORE step that sag control allows now: 37.5 MHz before foundry firmware runs, in WAKE-CHECK and on VHOLD, the row that
the sag or its undoing has come to, else 300 MHz (R45, R48, R50, R55). -/
def Live.coreAllowed (l : Live) : Nat :=
  if !(l.sup.phase == .running || l.sup.phase == .firmware) || l.pwr.mode == .wakeCheck || l.pwr.holdup then 3
  else if l.pwr.sag.active then l.pwr.sag.row else 0

/-- The CORE step at a start of foundry firmware, before a sag has been found (R48). -/
def Live.coreAtStart (l : Live) : Nat := if l.pwr.holdup then 3 else if l.sagCause.isSome then l.coreRow else 0

/-- VBAT is above VBAT_WARN + 0.3 V. -/
def Live.aboveWarn (l : Live) : Bool := decide (l.pwr.cfg.warnMv + 300 < l.vbat)

/-! ### VBAT_SAMPLE (R37, R58) -/

/-- The end condition of a sag follows VBAT and VBAT_WARN: the last rise above VBAT_WARN + 0.3 V, and since when the sag
qualifies to end; `was` tells whether VBAT was above before. -/
def Live.sagQualify (l : Live) (was : Bool) : Live :=
  l.setSag fun s => { s with
    lastRise := if l.aboveWarn && !was && s.undo == 0 then l.mt.now else s.lastRise,
    qualSince := if l.aboveWarn && l.sagCause.isNone then some (s.qualSince.getD l.mt.now) else none }

/-- What a sample does to a sag that lasts: minimum, qualification, CORE. -/
def Live.sagSample (l : Live) (was : Bool) : Live :=
  if !l.pwr.sag.active then l
  else
    let l := (l.setSag fun s => { s with minMv := min s.minMv l.vbat }).sagQualify was
    if l.pwr.sag.undo = 0 then l.coreDown else l

/-- Since when VBAT_L counts as good again after a low (R45): a dip to 6.0 V or less within the 5 ms starts them again,
and once they have run there is nothing left to wait for. -/
def vlGoodAfter (p : PwrState) (now mv : Nat) : Option Nat :=
  match p.vlGoodSince with
  | none => none
  | some t =>
    if mv ≤ 6000 && (decide (now < t + ms 5) || decide (p.vbat.getD 4 0 ≤ 6000)) then some now
    else if p.vbat.getD 4 0 ≤ 6000 then some now
    else if now < t + ms 5 then some t
    else none

/-- VBAT_SAMPLE: the five voltages and the logic rail, in mV. -/
def vbatSample (mv : Volts) (railMv : Nat) (l : Live) : Live :=
  if !l.pwr.powered then l
  else
    let now := l.mt.now
    let was := l.aboveWarn
    let present := (List.range 4).map fun g => l.pwr.present.getD g false || decide (7500 < mv.getD g 0)
    let v := vbatOf present mv
    let l := l.setPwr fun p => { p with
      vbat := mv, railMv := railMv, present := present, vlGoodSince := vlGoodAfter p now (mv.getD 4 0),
      history := (now, v) :: p.history.filter fun x => decide (now ≤ x.1 + us 100),
      overMax := if p.overvolt then max p.overMax v else p.overMax,
      overBelow := if p.overvolt && decide (v < 35000) then some (p.overBelow.getD now) else none }
    l.sagSample was

def execVbatSample (mv : Volts) (railMv : Nat) (s : State) : Result := .next (s.onLive (vbatSample mv railMv))

/-! ### SAG_START, SAG_END, SAG_UNDO_STEP (R54, R58, R59) -/

/-- SAG_START: a sag starts, or starts again during the undoing, when the first one's start and minimum carry on. -/
def sagStart (l : Live) : Live :=
  let s := l.pwr.sag
  match l.sagCause with
  | none => l
  | some cause =>
    if l.sup.phase != .running || (s.active && s.undo == 0) then l
    else
      let v := l.vbat
      let l := l.setSag fun s => { s with
        active := true, undo := 0, cause := cause, start := if s.active then s.start else l.mt.now,
        minMv := if s.active then min s.minMv v else v, qualSince := none,
        row := if s.active then s.row else 0, lastRise := if s.active then s.lastRise else l.mt.now, undoFrames := 0 }
      l.coreDown.raise 0x020 notice cause (le 2 v)

def execSagStart (s : State) : Result := .next (s.onLive sagStart)

/-- SAG_END: VBAT has stayed above VBAT_WARN + 0.3 V for 5 ms and the logic rail is above 0.95 V. -/
def sagEnd (l : Live) : Live :=
  let s := l.pwr.sag
  if s.active && s.undo == 0 && s.qualSince.any (fun t => decide (t + ms 5 ≤ l.mt.now)) && decide (950 < l.pwr.railMv) then
    (l.setSag fun s => { s with undo := 1, undoAt := l.mt.now, undoFrames := 0 }).raise 0x021 notice 0
      (le 2 s.minMv ++ le 4 ((s.lastRise - s.start) / 1000))
  else l

def execSagEnd (s : State) : Result := .next (s.onLogic sagEnd)

/-- SAG_UNDO_STEP: 100 us apart, writes, one CORE row at a time, deferred turn-ons; in WAKE-CHECK CORE stays at 37.5 MHz.
DESIGN CHOICE: the undoing ends with the release of the deferred turn-ons, so that a condition of R54 during what is left of the
SAG_RAMP ramp starts a sag of its own. -/
def sagUndoStep (l : Live) : Live :=
  let s := l.pwr.sag
  if !s.active || s.undo = 0 || decide (l.mt.now < s.undoAt + us 100) then l
  else if s.undo = 1 then l.setSag fun s => { s with undo := 2, undoAt := l.mt.now }
  else if s.row ≠ 0 then
    let l := l.setSag fun s => { s with undo := 3, undoAt := l.mt.now, row := s.row - 1 }
    l.setPwr fun p => { p with coreStep := l.coreAllowed }
  else (l.setSag fun s => { s with undo := 4, active := false, undoAt := l.mt.now }).releaseSag

def execSagUndoStep (s : State) : Result := .next (s.onLogic sagUndoStep)

/-! ### Overvoltage, V5_OUT and VLED (R40) -/

/-- OVERVOLTAGE. -/
def overvoltage (l : Live) : Live :=
  let v := l.vbat
  if l.pwr.overvolt || decide (v ≤ 37000) then l
  else (l.setPwr fun p => { p with overvolt := true, overMax := v, overBelow := none }).raise 0x023 warn 0 (le 2 v)

def execOvervoltage (s : State) : Result := .next (s.onLive overvoltage)

/-- OVERVOLTAGE_END. -/
def overvoltageEnd (l : Live) : Live :=
  if l.pwr.overvolt && l.pwr.overBelow.any (fun t => decide (t + ms 5 ≤ l.mt.now)) then
    (l.setPwr fun p => { p with overvolt := false, overBelow := none }).raise 0x023 warn 1 (le 2 l.pwr.overMax)
  else l

def execOvervoltageEnd (s : State) : Result := .next (s.onLive overvoltageEnd)

/-- V5_LIMIT_EXPIRY: V5_OUT has limited for longer than 10 ms. -/
def v5LimitExpiry (limitForNs : Nat) (l : Live) : Live :=
  if !l.pwr.v5On || decide (limitForNs ≤ ms 10) then l
  else (l.setPwr fun p => { p with v5On := false, v5OffUntil := l.mt.now + ms 100 }).raise 0x027 sevFault 0 []

def execV5LimitExpiry (limitForNs : Nat) (s : State) : Result := .next (s.onLive (v5LimitExpiry limitForNs))

/-- V5_RETRY: 100 ms after the switch-off, while the mode has V5_OUT on. -/
def v5Retry (l : Live) : Live :=
  if l.pwr.v5On || l.pwr.v5OffUntil = 0 || decide (l.mt.now < l.pwr.v5OffUntil) then l
  else (l.setPwr fun p => { p with v5On := true, v5OffUntil := 0 }).raise 0x027 sevFault 1 []

def execV5Retry (s : State) : Result := .next (s.onLive v5Retry)

/-- VLED_LOW: below 4.5 V the matrix is blanked. -/
def vledLow (mv : Nat) (l : Live) : Live :=
  if 4500 ≤ mv then l
  else
    let was := l.led.darkVled
    let l := l.setPwr fun p => { p with vledMv := mv }
    if was then l.setLed fun s => { s with resume := false }
    else (l.dieRaise 1 0x028 sevFault 0 (le 2 mv)).ledVledLow

def execVledLow (mv : Nat) (s : State) : Result := .next (s.onLive (vledLow mv))

/-- VLED_RESTORED: above 4.8 V for 5 ms; before a fall below 4.5 V it only gives the level of VLED. -/
def vledRestored (mv aboveForNs : Nat) (l : Live) : Live :=
  if mv ≤ 4800 || decide (aboveForNs < ms 5) then l
  else
    let l := l.setPwr fun p => { p with vledMv := mv }
    if l.led.darkVled && !l.led.resume
    then (l.dieRaise 1 0x028 sevFault 1 (le 2 mv)).setLed fun s => { s with resume := true } else l

def execVledRestored (mv aboveForNs : Nat) (s : State) : Result := .next (s.onLive (vledRestored mv aboveForNs))

/-! ### Hold-up energy (R41 to R46) -/

/-- C_MEAS_DONE: the charge from 10 V to 20 V at 50 mA took tNs.  DESIGN CHOICE: C_MEAS is kept in whole uF and e_avail in whole
uJ, rounded down. -/
def cMeasDone (tNs : Nat) (l : Live) : Live :=
  if !l.pwr.chargerOn then l
  else
    let c := tNs / 200000
    let l := l.setPwr fun p => { p with cMeas := some c }
    if c < 100 then l.raise 0x026 (if c < 50 then sevFault else warn) 0 (le 2 c) else l

def execCMeasDone (tNs : Nat) (s : State) : Result := .next (s.onLive (cMeasDone tNs))

/-- ENERGY_EVALUATION: every 100 us, from the measured VHOLD in mV. -/
def energyEvaluation (vholdMv : Nat) (l : Live) : Live :=
  l.setPwr fun p => { p with
    vholdMv := vholdMv, eAvail := eAvailOf l.cUsed vholdMv,
    eReserve := eReserveOf l.param.shadowApp l.pagesInProgress }

def execEnergyEvaluation (vholdMv : Nat) (s : State) : Result := .next (s.onLive (energyEvaluation vholdMv))

/-- VBAT_L_LOW: below 5.5 V the logic runs from VHOLD at 37.5 MHz and the shadow save starts, at a start of the logic as in
service; in PARK and LIMP the logic has no supply. -/
def vbatLLow (mv : Nat) (l : Live) : Live :=
  if 5500 ≤ mv || l.pwr.holdup || l.sup.phase == .off then l
  else
    let l := l.setPwr fun p => { p with holdup := true, vlGoodSince := none, coreStep := 3, vbat := p.vbat.set 4 mv }
    l.forceShadow.raise 0x024 warn 0 (le 2 l.pwr.vholdMv)

def execVbatLLow (mv : Nat) (s : State) : Result := .next (s.onLive (vbatLLow mv))

/-- VBAT_L_RECOVER: above 6.0 V before VHOLD has fallen to 9.0 V; a drain or a wake check goes on. -/
def vbatLRecover (mv : Nat) (l : Live) : Live :=
  if mv ≤ 6000 || !l.pwr.holdup || decide (l.pwr.vholdMv ≤ 9000) then l
  else
    let l := l.setPwr fun p => { p with holdup := false, vlGoodSince := some l.mt.now, vbat := p.vbat.set 4 mv }
    let l := l.setPwr fun p => { p with coreStep := l.coreAllowed }
    l.raise 0x024 warn 1 (le 2 l.pwr.vholdMv)

def execVbatLRecover (mv : Nat) (s : State) : Result := .next (s.onLive (vbatLRecover mv))

/-! ### PWR.STATUS and PWR.CONFIG -/

/-- Turn-ons that a sag defers. -/
def Live.deferredCount (l : Live) : Nat :=
  (l.plan.edges.filter fun (e : Edge) => e.phase == EdgePhase.held && e.bySag).length

def Live.pwrRecord (l : Live) : List Byte :=
  let p := l.pwr
  le 1 p.mode.code ++ le 1 p.coreStep ++ le 1 (b2n (p.sag.active && p.sag.undo == 0)) ++ le 1 l.deferredCount ++
    ((List.range 5).flatMap fun g => le 2 (p.vbat.getD g 0)) ++ le 2 p.vholdMv ++ le 2 (p.cMeas.getD 0) ++ le 4 p.eAvail ++
    le 4 p.eReserve

def execPwrStatus (s : State) : Result := .next (s.command 0x0201 fun _ _ l => (.done .ok 0 l.pwrRecord, l))

def PwrConfig.ofBytes (p : List Byte) : PwrConfig :=
  { warnMv := rd p 0 2, sagSlope := byteAt p 2, sagDim := byteAt p 3, sagRamp := byteAt p 4, sagUrgent := byteAt p 5,
    sagDeferMax := rd p 6 2, groupA := (List.range 4).map fun g => byteAt p (8 + g),
    groupDidt := (List.range 4).map fun g => byteAt p (12 + g), wakeCheckMax := rd p 16 2, drainMax := rd p 18 2,
    dimSigns := bit (byteAt p 20) 0 }

/-- Puts a configuration in force; a new VBAT_WARN applies to the end condition of a sag at once (R59). -/
def Live.applyPwrCfg (l : Live) (p : List Byte) : Live :=
  let was := l.aboveWarn
  let l := l.setPwr fun x => { x with cfg := PwrConfig.ofBytes p }
  if l.pwr.sag.active then l.sagQualify was else l

def pwrConfig (m : MbRef) (b : Mailbox) (l : Live) : Reply × Live :=
  let p := b.payload
  checked ([(0, inRange 9000 16000 (rd p 0 2) && rd p 0 2 % 100 == 0), (2, inRange 1 20 (byteAt p 2)),
      (4, decide (byteAt p 4 ≤ 200)), (5, decide (byteAt p 5 ≤ 7)), (6, inRange 10 5000 (rd p 6 2))] ++
      (List.range 4).map (fun g => (8 + g, inRange 1 45 (byteAt p (8 + g)))) ++
      (List.range 4).map (fun g => (12 + g, inRange 1 80 (byteAt p (12 + g)))) ++
      [(16, inRange 50 5000 (rd p 16 2)), (18, inRange 100 10000 (rd p 18 2)), (20, decide (byteAt p 20 < 4))])
    ((l.applyPwrCfg p).endConfig m (bit (byteAt p 20) 1) 0x0202 0 (p.take 21))
    fun r => (r, l)

def execPwrConfig (s : State) : Result := .next (s.command 0x0202 fun m b l => pwrConfig m b l)

end Sys2Proof.Machine
end

