-- ==== Sys2Proof/Machine/Arch.lean ====
section
/-! DEFINITION. Module time, die-to-die links and crossings (01_module_architecture.md), and the heartbeat of the power
dies (R17, R152). -/

namespace Sys2Proof.Machine

/-! ### Module time (R27 to R31, R34) -/

/-- The two's complement of an integer in 64 bits as 8 bytes. -/
def le8Int (i : Int) : List Byte := leInt 8 i

/-- What the sources of MT and the time master count on MT moves with a step of it (R18, R29, R318). -/
def Live.rebaseSync (l : Live) (old now : Nat) : Live :=
  let mv := fun t => t + now - old
  { l with
    can := { l.can with
      source := l.can.source.map fun (t : TimeSource) => { t with lastRef := mv t.lastRef, lastSof := mv t.lastSof }
      master := l.can.master.map fun (t : TimeMaster) => { t with period := now / ms (max 1 t.refMs), prev := t.prev.map mv } }
    link := { l.link with lastSync := mv l.link.lastSync } }

/-- Sets MT anew; what counts frames and slots on MT follows. -/
def Live.setMt (l : Live) (now : Nat) : Live :=
  let l := l.countTime
  let now := now % 2 ^ 64
  let l := l.rebaseSync l.mt.now now
  let l := { l with
    mt := { l.mt with now := now }, sup := { l.sup with hoursAt := now }, fwu := { l.fwu with runAt := now } }
  let l := { l with plan := { l.plan with frame := l.mt.now / frameNs } }
  l.setLed fun s => { s with frame := l.mt.now / s.period, slot := l.mt.now / slotNs }

/-- Corrects MT by source minus MT (R30); cause 0 link, 1 CAN. -/
def Live.correctMt (l : Live) (cause : Nat) (err : Int) : Live :=
  let src := if cause = 0 then MtSource.link else .can
  let set := fun (l : Live) (e : Int) (ppm : Nat) => { l with mt := { l.mt with source := src, slewErr := e, slewPpm := ppm } }
  let target := ((l.mt.now : Int) + err).toNat
  if !l.mt.locked then
    let l := (l.raise 0x008 notice cause (le 8 target)).setMt target
    set { l with mt := { l.mt with locked := true } } 0 200
  else if err.natAbs < 1000000 then set l err 200
  else if 0 < err then (set (l.setMt target) 0 200).raise 0x009 notice cause (le 8 err.natAbs)
  else
    let long := l.mt.slewPpm == 1000 && l.mt.slewErr != 0
    let l := set l err 1000
    if long then l else l.raise 0x00A notice cause (le 8 err.natAbs)

/-- The source is lost: holdover from the last correction. -/
def Live.loseMt (l : Live) (cause ch : Nat) : Live :=
  ({ l with mt := { l.mt with lostFrom := l.mt.source, source := .holdover, slewErr := 0 } }).raise 0x00B warn cause (le 1 ch)

/-- A source that no longer applies under R27: an MT that it disciplined, or that holds over from it, runs free. -/
def Live.runFree (l : Live) (src : MtSource) : Live :=
  if l.mt.source == src || (l.mt.source == .holdover && l.mt.lostFrom == src)
  then { l with mt := { l.mt with source := .free, slewErr := 0 } } else l

/-- The MT nearest below now of which the low 2^k units are given (R34). -/
def extendMt (now unit k low : Nat) : Nat :=
  let n := now / unit
  let t := n - n % 2 ^ k + low
  (if n < t then t - 2 ^ k else t) * unit

/-- One step of 4 ns of MT with the slew in force (R30). -/
def MtState.tick (m : MtState) : MtState :=
  let acc := m.slewAcc + 4 * m.slewPpm
  if m.slewErr = 0 then { m with now := (m.now + 4) % 2 ^ 64 }
  else if acc < 1000000 then { m with now := (m.now + 4) % 2 ^ 64, slewAcc := acc }
  else
    let d : Int := if 0 < m.slewErr then 1 else -1
    let err := m.slewErr - d
    { m with
      now := (((m.now + 4 : Nat) : Int) + d).toNat % 2 ^ 64, slewErr := err, slewAcc := acc - 1000000,
      slewPpm := if err.natAbs < 1000000 then 200 else m.slewPpm }

/-- TIMESTAMP_PAIRING: an island's counter paired with MT. -/
def timestampPairing (island counter : Nat) (l : Live) : Live :=
  { l with mt := { l.mt with
    pairing := l.mt.pairing.filter (fun x => x.1 != island) ++ [(island, counter, l.mt.now)] } }

def execTimestampPairing (island counter : Nat) (s : State) : Result := .next (s.onLive (timestampPairing island counter))

/-- SYS.TIME: MT, its source and the position. -/
def MtSource.code : MtSource → Nat
  | .link => 0 | .can => 1 | .free => 2 | .holdover => 3

/-! ### Die-to-die links (R16, R17) -/

def Live.setD2d (l : Live) (i : Nat) (f : D2dLink → D2dLink) : Live :=
  { l with arch := { l.arch with d2d := upd l.arch.d2d i f } }

/-- The fields of a flit, the header in its highest bits: sequence number, type, payload, CRC. -/
def flitSeq (f : BitVec 64) : Nat := f.toNat / 2 ^ 52
def flitType (f : BitVec 64) : Nat := f.toNat / 2 ^ 48 % 16
def flitWord (f : BitVec 64) : Nat := f.toNat / 2 ^ 16 % 2 ^ 32
def flitOk (f : BitVec 64) : Bool := f.toNat % 2 ^ 16 == Config.d2dCrc (f.toNat / 2 ^ 16) % 2 ^ 16

/-- A write flit of sequence number q is new: it lies ahead of the last one applied, within half of the 4096 numbers.  DEDUCED: a
number at or behind the last one applied is a repeated number (R17). -/
def D2dLink.isNew (d : D2dLink) (q : Nat) : Bool :=
  match d.lastSeq with
  | none => true
  | some p => inRange 1 2047 ((q + 4096 - p % 4096) % 4096)

/-- D2D_FLIT_RECEIVED: a good write flit is applied once, a repeated one is only acknowledged; three bad flits in a row retire
the lane. -/
def d2dFlit (link dir lane : Nat) (flit : BitVec 64) (l : Live) : Live :=
  let i := 2 * link + dir
  match l.arch.d2d[i]? with
  | none => l
  | some d =>
    if d.retired.getD lane true || decide (1 < dir) then l
    else if flitOk flit then
      let l := l.setD2d i fun d => { d with badRun := d.badRun.set lane 0 }
      let q := flitSeq flit
      if !Config.d2dWrite (flitType flit) then l
      else if d.isNew q then l.setD2d i fun d => { d with lastSeq := some q, lastWord := flitWord flit, acked := some q }
      else l.setD2d i fun d => { d with acked := some q }
    else
      let n := d.badRun.getD lane 0 + 1
      let l := l.setD2d i fun d => { d with badRun := d.badRun.set lane n }
      if n < 3 then l
      else
        let l := l.setD2d i fun d => { d with retired := d.retired.set lane true }
        l.raise 0x006 warn lane (le 1 link ++ le 1 dir ++ le 1 ((d.retired.set lane true).filter (!·)).length)

def execD2dFlitReceived (link dir lane : Nat) (flit : BitVec 64) (s : State) : Result :=
  .next (s.onLive (d2dFlit link dir lane flit))

/-- LOGIC_HEARTBEAT: every 1 ms; it brings the die the I_SAFE, Q_MARGIN and T_RS of its channels and ORPHAN_OFF_S.  While the
ledger has no data of the die, T_RS stays at the last value (R137).  A heartbeat that resumes on its own does not end orphan mode,
and none comes over a link or a crossing that has failed. -/
def logicHeartbeat (d : Nat) (l : Live) : Live :=
  if (l.die d).orphan || l.dieCut d || l.sup.phase != .running || decide (l.mt.now < (l.die d).lastHb + ms 1) then l
  else
    let l := (List.range 24).foldl (fun l i =>
      let n := 24 * d + i
      let a := l.iSafeOf n
      let q := l.qMarginOf n
      let t := if (l.die d).stale then (l.ch n).trs else l.trsOf n
      l.setCh n fun c => { c with iSafe := a, qMargin := q, trs := t, i2 := 0 }) l
    l.setDie d fun x => { x with lastHb := l.mt.now, offS := l.sup.cfg.orphanOffS }

def execLogicHeartbeat (die : Die) (s : State) : Result := .next (s.onLive (logicHeartbeat (dieIndex die)))

/-! ### Crossings (R18 to R20) -/

def Crossing.init (snd rcv num : Nat) : Crossing :=
  { snd := snd, rcv := rcv, num := num, timeouts := [], retry := none, failed := false, badRetests := 0, lastTest := 0 }

def Crossing.same (c d : Crossing) : Bool := c.snd == d.snd && c.rcv == d.rcv && c.num == d.num

def Live.crossing (l : Live) (snd rcv num : Nat) : Crossing :=
  (l.arch.crossings.find? fun c => c.same (Crossing.init snd rcv num)).getD (Crossing.init snd rcv num)

def Live.setCrossing (l : Live) (c : Crossing) : Live :=
  { l with arch := { l.arch with crossings := l.arch.crossings.filter (fun x => !x.same c) ++ [c] } }

def Crossing.bytes (c : Crossing) : List Byte := le 1 c.snd ++ le 1 c.rcv ++ le 2 c.num

/-- The wait bound in ns of a transfer to a receiving island (R18). -/
def waitBound (rcv : Nat) : Nat := [1710, 1410, 800, 260, 2610, 1650, 1650, 420, 1960000].getD rcv 0

/-- Takes a mailbox out of everything that would still complete its command. -/
def Live.disown (l : Live) (m : MbRef) : Live :=
  let free := fun (u : WriteUnit) => if u.owner == some m then { u with owner := none } else u
  let quit := fun (t : TokenAttempt) => if t.enrol.any (fun e => e.owner == m) then { t with enrol := none } else t
  { l with
    audio := { l.audio with opens := l.audio.opens.filter (·.m != m) }
    valve := { l.valve with valves := l.valve.valves.map fun v =>
      { v with fire := v.fire.map fun f => if f.owner == some m then { f with owner := none } else f } }
    led := { l.led with
      shows := l.led.shows.map fun x => if x.owner == some m then { x with owner := none } else x
      builds := l.led.builds.map fun x => if x.owner.any (fun o => o.m == m) then { x with owner := none } else x }
    can := { l.can with builds := l.can.builds.filter (·.owner != m) }
    param := { l.param with
      queue := l.param.queue.map free, active := l.param.active.map free, joined := l.param.joined.filter (· != m) }
    token := { l.token with ants := l.token.ants.map fun a => { a with attempt := a.attempt.map quit } }
    link := { l.link with strikeReq := l.link.strikeReq.filter (·.owner != m) } }

/-- A transfer has failed to its requester (R19): the command, or that entry of it, completes with INTERNAL. -/
def Live.failWork (l : Live) (work : Option (MbRef × Nat)) : Live :=
  match work with
  | none => l
  | some (m, i) =>
    if l.plan.openCmds.any (·.m == m) then
      let l := (l.plan.edges.filter fun e => e.owner == some (m, i)).foldl
        (fun l e => (l.unbookEdge e.id).removeEdge e.id) l
      { l with plan := { l.plan with changes := l.plan.changes.filter fun c => c.owner != some (m, i) } }
        |>.entryDone (some (m, i)) .internal
    else (l.disown m).complete m .internal 0 []

/-- The transfer is tried once more: a read, or a write of R17, into a power die or RANGE, unless this timeout is that of
the retry, which comes within two wait bounds. -/
def Live.retries (l : Live) (c : Crossing) (kind : Nat) : Bool :=
  (kind = 0 || (inRange 5 7 c.rcv && inRange 1 2 kind)) &&
    !(c.retry.any fun t => decide (l.mt.now ≤ t + 2 * waitBound c.rcv))

/-- CROSSING_TIMEOUT: a read or a write of R17 is retried once, such a write to a power die only if the state read back does
not show it; any other transfer fails to its requester.  The third timeout within 1 ms marks the crossing failed; a
failed one is refused without waiting. -/
def crossingTimeout (snd rcv num kind : Nat) (work : Option (MbRef × Nat)) (shown : Bool) (l : Live) : Live :=
  let c := l.crossing snd rcv num
  if c.failed || decide (2 < kind) then l
  else
    let ts := l.mt.now :: c.timeouts.filter fun t => decide (l.mt.now ≤ t + ms 1)
    let fails := decide (3 ≤ ts.length)
    let there := shown && inRange 5 6 rcv && inRange 1 2 kind
    let again := !there && !fails && l.retries c kind
    let c := { c with
      timeouts := ts, retry := if again then some l.mt.now else none, failed := fails, badRetests := 0, lastTest := l.mt.now }
    let l := (l.setCrossing c).raise 0x004 warn kind c.bytes
    let l := if fails then l.raise 0x005 sevFault 0 c.bytes else l
    if there || again then l else l.failWork work

def execCrossingTimeout (snd rcv num : Nat) (x : TimedOut) (s : State) : Result :=
  .next (s.onLive (crossingTimeout snd rcv num x.kind x.work x.shown))

/-- CROSSING_RETEST: every 100 ms of a failed crossing. -/
def crossingRetest (snd rcv num : Nat) (ok : Bool) (l : Live) : Live :=
  let c := l.crossing snd rcv num
  if !c.failed || decide (l.mt.now < c.lastTest + ms 100) then l
  else if ok then (l.setCrossing { c with failed := false, timeouts := [], badRetests := 0, lastTest := l.mt.now }).raise 0x005
    sevFault 1 c.bytes
  else l.setCrossing { c with badRetests := c.badRetests + 1, lastTest := l.mt.now }

def execCrossingRetest (snd rcv num : Nat) (ok : Bool) (s : State) : Result :=
  .next (s.onLive (crossingRetest snd rcv num ok))

end Sys2Proof.Machine
end

