-- ==== Sys2Proof/Machine/Can.lean ====
section
/-! DEFINITION. The CAN FD controllers, their rings and filters, network time and the speed signal
(11_can_fd_controllers.md). -/

namespace Sys2Proof.Machine

def Live.chan (l : Live) (n : Nat) : CanChan := l.can.chans.getD n CanChan.init

def Live.setCan (l : Live) (f : CanState → CanState) : Live := { l with can := f l.can }

def Live.setChan (l : Live) (n : Nat) (f : CanChan → CanChan) : Live := l.setCan fun c => { c with chans := upd c.chans n f }

def rateLimit : Nat := ms 100

/-- An event of channel n (R332): bytes 8 to 11, then the event's own. -/
def Live.canEvent (l : Live) (n k sev cause buf : Nat) (bytes : List Byte) : Live :=
  let c := l.chan n
  l.raise (0x100 + 16 * n + k) sev cause (le 1 c.errState ++ le 1 c.tec ++ le 1 c.rec_ ++ le 1 buf ++ bytes)

/-- The identifier key's parts (R309). -/
def keyRtr (k : Nat) : Bool := bit k 31
def keyFdf (k : Nat) : Bool := bit k 30
def keyIde (k : Nat) : Bool := bit k 29
def keyId (k : Nat) : Nat := k % 2 ^ 29

/-- The data length of a DLC. -/
def dlcLen (fdf : Bool) (dlc : Nat) : Nat :=
  if dlc ≤ 8 then dlc else if fdf then [12, 16, 20, 24, 32, 48, 64].getD (dlc - 9) 64 else 8

/-! ### Receive rings (R308 to R310) -/

/-- The 80 bytes of an entry. -/
def ringEntry (n seq : Nat) (f : CanFrame) : List Byte :=
  let w0 := seq % 65536 * 65536 + 32768 + b2n f.echo.isSome * 8192 + f.dlc % 16 * 256 + b2n (keyFdf f.key) * 128
    + b2n f.brs * 64 + b2n f.esi * 32 + b2n (keyIde f.key) * 16 + b2n (keyRtr f.key) * 8 + f.echo.getD 0 % 8
  le 4 w0 ++ le 4 (n * 2 ^ 30 + keyId f.key) ++ le 8 f.sof ++ padTo 64 (f.data.take (dlcLen (keyFdf f.key) f.dlc))

def entrySeq (e : List Byte) : Nat := rd e 2 2

/-- The identifier key of an entry. -/
def entryKey (e : List Byte) : Nat :=
  let w := rd e 0 4
  b2n (bit w 3) * 2 ^ 31 + b2n (bit w 7) * 2 ^ 30 + b2n (bit w 4) * 2 ^ 29 + rd e 4 4 % 2 ^ 29

/-- Counts into a record that is raised at most once per 100 ms; the count to report when it is due. -/
def Throttled.hit (t : Throttled) (now : Nat) : Option Nat × Throttled :=
  if t.raised.any (fun x => decide (now < x + rateLimit)) then (none, { t with count := t.count + 1 })
  else (some (t.count + 1), { count := 0, raised := some now })

/-- EV_CAN_RX_OVERRUN: cause 0 dropped, 1 lost. -/
def Live.ringLoss (l : Live) (n cause : Nat) : Live :=
  let c := l.chan n
  let r := (c.overruns.getD cause { count := 0, raised := none }).hit l.mt.now
  let l := l.setChan n fun c => { c with overruns := c.overruns.set cause r.2 }
  match r.1 with
  | none => l
  | some k => l.canEvent n 3 warn cause 0xFF (le 2 (min k 0xFFFF) ++ le 2 (entrySeq (c.ring.getLastD [])))

/-- A valid frame goes into the ring by the rows of R310. -/
def Live.ringWrite (l : Live) (n : Nat) (f : CanFrame) : Live :=
  let c := l.chan n
  let e := ringEntry n c.seq f
  let l := l.setChan n fun c => { c with seq := (c.seq + 1) % 65536, rxFrames := min (2 ^ 32 - 1) (c.rxFrames + 1) }
  if c.ring.length < 256 then l.setChan n fun c => { c with ring := c.ring ++ [e] }
  else if c.locked then (l.setChan n fun c => { c with overrun := min 0xFFFF (c.overrun + 1) }).ringLoss n 0
  else (l.setChan n fun c => { c with
    ring := c.ring.drop 1 ++ [e], tail := (c.tail + 1) % 256, lost := min 0xFFFF (c.lost + 1) }).ringLoss n 1

/-- The controller receives from the bus in this mode. -/
def CanChan.listens (c : CanChan) : Bool :=
  (c.mode == 1 || c.mode == 2 || c.mode == 4) && c.errState != 3 && c.errState != 4

/-- CAN_FRAME_RECEIVED: a frame of another node on the bus. -/
def canFrameReceived (n : Nat) (f : CanFrame) (l : Live) : Live :=
  let c := l.chan n
  if !c.listens || decide (3 < n) || f.echo.isSome then l
  else if keyFdf f.key && !c.cfg.fd then l.setChan n fun c => { c with lastErr := 2 }
  else if f.res then
    if c.cfg.pex then
      let l := l.setChan n fun c => { c with pexCount := min (2 ^ 32 - 1) (c.pexCount + 1) }
      l.canEvent n 7 notice 0 0xFF (le 4 (l.chan n).pexCount)
    else l.setChan n fun c => { c with lastErr := 2 }
  else l.ringWrite n f

def execCanFrameReceived (ch : Nat) (f : CanFrame) (s : State) : Result := .next (s.onLogic (canFrameReceived ch f))

/-- RING_LOCK_READ: word 0 of entry idx is read; the word returned carries LOCK when this reader holds it. -/
def ringLockRead (n idx : Nat) (l : Live) : Live :=
  let c := l.chan n
  let k := (idx + 256 - c.tail) % 256
  let w := rd (c.ring.getD k []) 0 4
  if decide (3 < n) || decide (255 < idx) then l
  else if k = 0 && !c.ring.isEmpty then l.setChan n fun c => { c with
    locked := true, filtered := c.locked && c.filtered, readWord := w + 16384 }
  else l.setChan n fun c => { c with readWord := w }

def execRingLockRead (ch idx : Nat) (s : State) : Result := .next (s.onLogic (ringLockRead ch idx))

/-- RING_RELEASE_READ: word 19 of entry idx is read; for the locked entry it is freed and T advances. -/
def ringReleaseRead (n idx : Nat) (l : Live) : Live :=
  let c := l.chan n
  let k := (idx + 256 - c.tail) % 256
  let w := rd (c.ring.getD k []) 76 4
  if decide (3 < n) || decide (255 < idx) then l
  else if k = 0 && c.locked then l.setChan n fun c => { c with
    ring := c.ring.drop 1, tail := (c.tail + 1) % 256, locked := false, filtered := false, readWord := w }
  else l.setChan n fun c => { c with readWord := w }

def execRingReleaseRead (ch idx : Nat) (s : State) : Result := .next (s.onLogic (ringReleaseRead ch idx))

/-! ### Filter rules and forwarding (R312 to R315) -/

def ruleMatches (r : List Byte) (n key : Nat) : Bool := bit (byteAt r 8) n && ((key ^^^ rd r 0 4) &&& rd r 4 4) == 0

/-- The rules that a frame matches, up to the first with STOP. -/
def matching (n key : Nat) : List (Nat × List Byte) → List (Nat × List Byte)
  | [] => []
  | r :: rs => if ruleMatches r.2 n key then (if bit (byteAt r.2 9) 3 then [r] else r :: matching n key rs) else matching n key rs

/-- MIN_GAP_MS holds a rule's forward back. -/
def Live.gapHolds (l : Live) (r : Nat × List Byte) (sof : Nat) : Bool :=
  rd r.2 12 2 != 0 && l.can.lastFwd.any fun x => x.1 == r.1 && decide (sof < x.2 + ms (rd r.2 12 2))

/-- A copy that could not be forwarded: EV_CAN_FWD_DROPPED, cause 0 host, 1 F1, 2 link. -/
def Live.fwdDropped (l : Live) (n cause : Nat) : Live :=
  let r := ((l.chan n).fwdDrops.getD cause { count := 0, raised := none }).hit l.mt.now
  let l := l.setChan n fun c => { c with fwdDrops := c.fwdDrops.set cause r.2 }
  let l := l.setCan fun c => { c with
    hostDropped := if cause = 0 then min (2 ^ 32 - 1) (c.hostDropped + 1) else c.hostDropped,
    f1Dropped := if cause = 1 then min (2 ^ 32 - 1) (c.f1Dropped + 1) else c.f1Dropped }
  match r.1 with
  | none => l
  | some k => l.canEvent n 5 warn cause 0xFF (le 2 (min k 0xFFFF))

/-- A copy into the host's or F1's forward queue. -/
def Live.toQueue (l : Live) (n : Nat) (f1 : Bool) (e : List Byte) : Live :=
  let q := if f1 then l.can.f1Q else l.can.hostQ
  if 256 ≤ q.length then l.fwdDropped n (b2n f1)
  else
    let l := l.setCan fun c => if f1 then { c with f1Q := q ++ [e] } else { c with hostQ := q ++ [e] }
    if q.isEmpty then l.canEvent n 4 info (b2n f1) 0xFF (le 2 1) else l

/-- This module originates the cycles (R355). -/
def Live.acting (l : Live) : Bool :=
  l.link.st == .master || (l.link.st == .forming && l.link.master == l.link.position)

def Live.isMember (l : Live) (pos : Nat) : Bool := l.link.roster.any fun (r : RosterEntry) => r.pos == pos

/-- A copy over the link to a member's host queue. -/
def Live.toLink (l : Live) (n pos : Nat) (e : List Byte) : Live :=
  if pos == l.link.position then l.toQueue n false e
  else if !l.link.cascaded || !l.isMember pos then l.fwdDropped n 2
  else l.setCan fun c => { c with linkOut := c.linkOut ++ [(pos, e)] }

/-- Evaluates an entry under the active generation. -/
def Live.filterEntry (l : Live) (n : Nat) (e : List Byte) : Live :=
  let key := entryKey e
  let sof := rd e 8 8
  let ms_ := matching n key l.can.active
  let wakes := l.can.active.any fun r => bit (byteAt r.2 9) 4
  let l := if l.pwr.mode == .wakeCheck && (!wakes || l.can.active.any fun r => bit (byteAt r.2 9) 4 && ruleMatches r.2 n key)
    then l.setChan n fun c => { c with wakeOk := true } else l
  let go := ms_.filter fun r => !l.gapHolds r sof
  let act := fun b => go.any fun r => bit (byteAt r.2 9) b
  let l := if ms_.isEmpty then l.setChan n fun c => { c with discarded := min 0xFFFF (c.discarded + 1) } else l
  let l := l.setCan fun c => { c with
    lastFwd := (c.lastFwd.filter fun x => !(go.any fun r => r.1 == x.1)) ++
      ((go.filter fun r => rd r.2 12 2 != 0).map fun r => (r.1, sof)) }
  let l := if act 0 then l.toQueue n false e else l
  let l := if act 1 then l.toQueue n true e else l
  ((go.filter fun r => bit (byteAt r.2 9) 2).map fun r => byteAt r.2 10).eraseDups.foldl (fun l pos => l.toLink n pos e) l

/-- RING_ENTRY_FILTER: the locked entry is evaluated, once. -/
def ringEntryFilter (n : Nat) (l : Live) : Live :=
  let c := l.chan n
  match c.ring with
  | [] => l
  | e :: _ => if !c.locked || c.filtered || l.sup.phase != .running then l
    else (l.filterEntry n e).setChan n fun c => { c with filtered := true }

def execRingEntryFilter (ch : Nat) (s : State) : Result := .next (s.onLive (ringEntryFilter ch))

/-- The records that hold a rule, 14 to a record. -/
def ruleRecord (rules : List (Nat × List Byte)) (k : Nat) : List Byte :=
  (List.range 14).flatMap fun i => ((rules.find? fun r => r.1 == 14 * k + i).map (·.2)).getD (List.replicate 16 0)

/-- Writes records of rules into the store, the command waiting for the last. -/
def Live.keepRules (l : Live) (m : MbRef) (rules : List (Nat × List Byte)) (ks : List Nat) : Live :=
  (ks.zipIdx).foldl (fun l x => l.enqueue (.config 0x4006 x.1 (ruleRecord rules x.1))
    (if x.2 + 1 = ks.length then some m else none) [] (x.2 + 1 == ks.length)) l

/-- The first SEQ that F0 evaluates next on a channel. -/
def CanChan.nextSeq (c : CanChan) : Nat :=
  match (if c.filtered then c.ring.drop 1 else c.ring) with
  | [] => c.seq
  | e :: _ => entrySeq e

/-- FILTER_SWAP: the generation that was built is swapped in between two entries. -/
def filterSwap (l : Live) : Live :=
  match l.can.builds with
  | [] => l
  | b :: bs =>
    let l := l.setCan fun c => { c with active := b.rules, builds := bs, gen := (c.gen + 1) % 2 ^ 32, lastFwd := [] }
    let l := (List.range 4).foldl (fun l n => l.canEvent n 6 info 0 0xFF (le 2 (l.chan n).nextSeq ++ le 2 l.can.gen)) l
    if b.persist.isEmpty then l.complete b.owner .ok 0 [] else l.keepRules b.owner b.rules b.persist

def execFilterSwap (s : State) : Result := .next (s.onLogic filterSwap)

/-- Puts a rule at an index; a rule without channels is empty. -/
def setRule (rules : List (Nat × List Byte)) (i : Nat) (r : List Byte) : List (Nat × List Byte) :=
  let before := rules.filter fun x => decide (x.1 < i)
  let after := rules.filter fun x => decide (i < x.1)
  if byteAt r 8 % 16 = 0 then before ++ after else before ++ [(i, r)] ++ after

/-- CAN.FILTER (R328). -/
def canFilter (m : MbRef) (b : Mailbox) (l : Live) : Reply × Live :=
  let p := b.payload
  let first := rd p 0 2
  let n := byteAt p 2
  let flags := byteAt p 3
  let rule := fun i => (p.drop (4 + 16 * i)).take 16
  checked ([(0, decide (first ≤ 1023)), (2, decide (n ≤ 30) && decide (first + n ≤ 1024)), (3, decide (flags < 8))] ++
      (List.range n).flatMap fun i =>
        [(12 + 16 * i, decide (byteAt (rule i) 8 < 16)), (13 + 16 * i, decide (byteAt (rule i) 9 < 32)),
         (14 + 16 * i, decide (byteAt (rule i) 10 ≤ 63)), (15 + 16 * i, byteAt (rule i) 11 == 0),
         (16 + 16 * i, decide (rd (rule i) 12 2 ≤ 60000)), (18 + 16 * i, rd (rule i) 14 2 == 0)])
    (let pend := (List.range n).foldl (fun rs i => setRule rs (first + i) (rule i)) (if bit flags 2 then [] else l.can.pend)
     let ks := if !bit flags 1 then [] else if bit flags 2 then List.range 74
       else ((List.range n).map fun i => (first + i) / 14).eraseDups
     let l := l.setCan fun c => { c with pend := pend }
     if bit flags 0 then (.wait, l.setCan fun c => { c with builds := c.builds ++ [FilterBuild.mk pend m ks] })
     else if ks.isEmpty then (okReply, l)
     else (.wait, l.keepRules m pend ks))
    fun r => (r, l)

def execCanFilter (s : State) : Result := .next (s.command 0x4006 fun m b l => canFilter m b l)

/-! ### Transmit buffers (R305 to R307) -/

/-- TXB0 belongs to the module's own frames. -/
def Live.txb0Reserved (l : Live) (n : Nat) : Bool :=
  l.can.master.any (fun (t : TimeMaster) => t.ch == n) || l.nm.cfg.ch == n

/-- The value of a frame in arbitration, lower first (R305, R309): the base identifier, RTR or SRR, IDE, the extension, RTR. -/
def arbitration (key : Nat) : Nat :=
  let ide := keyIde key
  (keyId key / 2 ^ 18) * 2 ^ 21 + b2n (ide || keyRtr key) * 2 ^ 20 + b2n ide * 2 ^ 19 +
    (if ide then keyId key % 2 ^ 18 * 2 + b2n (keyRtr key) else 0)

/-- The loaded buffer that TX_ORDER chooses (R305). -/
def CanChan.choice (c : CanChan) : Option Nat :=
  let loaded := [0, 1, 2].filter fun k => (c.tx.getD k none).isSome
  if c.cfg.txOrder = 1 then loaded.head?
  else loaded.foldl (fun best k =>
    let v := fun k => ((c.tx.getD k none).map fun b => arbitration b.key).getD 0
    if best.any fun j => decide (v j ≤ v k) then best else some k) none

/-- The buffer may be in arbitration or under way: the one chosen last, or the one that a lost arbitration chooses now. -/
def CanChan.mayRun (c : CanChan) (k : Nat) : Bool := c.cur == some k || c.choice == some k

/-- A buffer is loaded, changed or freed; with nothing chosen, or the chosen one freed, the choice is made again. -/
def Live.setTx (l : Live) (n k : Nat) (b : Option TxBuf) : Live :=
  l.setChan n fun c =>
    let c := { c with tx := c.tx.set k b }
    if c.cur.any fun j => (c.tx.getD j none).isSome then c else { c with cur := c.choice }

/-- The choice is made again, after a completed frame or an error frame (R305). -/
def Live.chooseTx (l : Live) (n : Nat) : Live := l.setChan n fun c => { c with cur := c.choice }

def Live.txBuf (l : Live) (n k : Nat) : Option TxBuf := (l.chan n).tx.getD k none

/-- A buffer is freed without its frame: EV_CAN_TX_ABANDONED for a CAN.SEND. -/
def Live.abandon (l : Live) (n k cause : Nat) : Live :=
  match l.txBuf n k with
  | none => l
  | some b =>
    let l := l.setTx n k none
    match b.owner with
    | .send tag => l.canEvent n 1 warn cause k (le 2 tag)
    | _ => l

/-- All buffers of a channel are freed (mode change, drain). -/
def Live.abandonAll (l : Live) (n cause : Nat) : Live := [0, 1, 2].foldl (fun l k => l.abandon n k cause) l

/-- The delay measured in the data phase; an edge earlier than TDCF is ignored (R304). -/
def Live.tdcMeasured (l : Live) (n k tdcv : Nat) (b : TxBuf) : Live :=
  if !(b.brs && (l.chan n).cfg.tdc) || decide (tdcv < (l.chan n).cfg.tdcf) then l
  else
    let v := min 127 tdcv
    let l := l.setChan n fun c => { c with tdcv := v }
    if v = 127 then l.canEvent n 9 warn 0 k (le 1 v) else l

/-- The controller puts frames on its transmit stream. -/
def CanChan.sends (c : CanChan) : Bool := !(c.mode == 0 || c.mode == 2 || c.errState == 3 || c.errState == 4)

/-- CAN_TX_DONE: the frame has ended without error, its start-of-frame edge at sofMt. -/
def canTxDone (n k sofMt tdcv : Nat) (l : Live) : Live :=
  match l.txBuf n k with
  | none => l
  | some b =>
    let c := l.chan n
    if !c.sends || !c.mayRun k then l
    else
      let l := ((l.setTx n k none).chooseTx n).setChan n fun c => { c with txFrames := min (2 ^ 32 - 1) (c.txFrames + 1) }
      let l := l.tdcMeasured n k tdcv b
      let f : CanFrame := { ch := n, sof := sofMt, key := b.key, brs := b.brs, esi := c.errState == 2, dlc := b.dlc,
                            data := b.data, res := false, echo := some k }
      let l := if c.cfg.echoOwn || c.mode == 3 || c.mode == 4 then l.ringWrite n f else l
      match b.owner with
      | .send tag => l.canEvent n 0 info 0 k (le 2 tag ++ le 2 (b.attempts + 1))
      | .ref => l.setCan fun s => { s with master := s.master.map fun (t : TimeMaster) => { t with prev := some sofMt, waits := false } }
      | _ => l

/-- CAN_TX_ERROR: an attempt has ended in an error frame of this kind; RETX_MAX holds for the module's own frames too, which
raise no event. -/
def canTxError (n k err tdcv : Nat) (l : Live) : Live :=
  match l.txBuf n k with
  | none => l
  | some b =>
    if !(l.chan n).sends || !(l.chan n).mayRun k then l
    else
      let l := l.setChan n fun c => { c with lastErr := err }
      let l := l.tdcMeasured n k tdcv b
      let b := { b with attempts := b.attempts + 1 }
      let l := match b.freeing with
        | some cause => l.abandon n k cause
        | none => if (l.chan n).cfg.retxMax < b.attempts then l.abandon n k 0 else l.setTx n k (some b)
      l.chooseTx n

/-- CAN_TX_DEADLINE: DEADLINE_MS has passed; an attempt under way completes first. -/
def canTxDeadline (n k : Nat) (underway : Bool) (l : Live) : Live :=
  match l.txBuf n k with
  | none => l
  | some b =>
    if !b.deadline.any (fun t => decide (t ≤ l.mt.now)) then l
    else if underway && (l.chan n).mayRun k then l.setTx n k (some { b with freeing := some (b.freeing.getD 1) })
    else l.abandon n k 1

/-- CAN.SEND (R325). -/
def canSend (b : Mailbox) (l : Live) : Reply × Live :=
  let p := b.payload
  let n := byteAt p 0
  let t := byteAt p 1
  let key := rd p 2 4
  let dlc := byteAt p 6
  let brs := bit (byteAt p 7) 0
  let c := l.chan n
  let len := if keyRtr key then 0 else dlcLen (keyFdf key) dlc
  if decide (n ≤ 3) && b.len != 12 + len then (refuse .badLength, l)
  else checked [(0, decide (n ≤ 3)), (1, decide (t ≤ 2) || t == 0xFF),
      (2, !(keyRtr key && keyFdf key) && (keyIde key || key % 2 ^ 18 == 0) && (!keyFdf key || c.cfg.fd)),
      (6, decide (dlc ≤ 15)), (7, decide (byteAt p 7 < 2) && (!brs || (keyFdf key && c.cfg.brs))), (10, rd p 10 2 == 0)]
    (let reserved := l.txb0Reserved n
     let free := (if reserved then [1, 2] else [0, 1, 2]).filter fun k => (l.txBuf n k).isNone
     if c.mode = 0 || c.mode = 2 || (t = 0 && reserved) then (refuse .state, l)
     else match (if t = 0xFF then free.head? else if free.contains t then some t else none) with
       | none => (refuse .busy, l)
       | some k =>
         let dl := rd p 8 2
         (.done .pending 0 (le 1 k), l.setTx n k (some {
           owner := .send (rd b.bytes 2 2), key := key, brs := brs, dlc := dlc, data := (p.drop 12).take len,
           deadline := if dl = 0 then none else some (l.mt.now + ms dl), attempts := 0, freeing := none })))
    fun r => (r, l)

def execCanSend (s : State) : Result := .next (s.command 0x4003 fun _ b l => canSend b l)

/-- CAN.ABORT (R326); underway is the mask of buffers with an attempt under way. -/
def canAbort (underway : Nat) (b : Mailbox) (l : Live) : Reply × Live :=
  let n := byteAt b.payload 0
  let mask := byteAt b.payload 1
  checked [(0, decide (n ≤ 3)), (1, decide (mask < 8))]
    (let sel := (bitsOf 3 mask).filter fun k => (l.txBuf n k).any fun (x : TxBuf) => match x.owner with
        | .send _ => true
        | _ => false
     let runs := fun k => bit underway k && (l.chan n).mayRun k
     let freed := sel.filter fun k => !runs k
     let l := sel.foldl (fun l k => if runs k then
         l.setTx n k ((l.txBuf n k).map fun x => { x with freeing := some (x.freeing.getD 2) })
       else l.abandon n k 2) l
     (.done .ok 0 (le 1 (maskOf 3 fun k => freed.contains k)), l))
    fun r => (r, l)

/-! ### Configuration, mode, errors (R302, R303, R316, R317, R323, R324) -/

def CanCfg.ofBytes (p : List Byte) : CanCfg :=
  let f := byteAt p 1
  { fd := bit f 1, brs := bit f 2, tdc := bit f 3, pex := bit f 4, echoOwn := bit f 5, autoRecover := bit f 6,
    nbrp := rd p 2 2, ntseg1 := rd p 4 2, ntseg2 := byteAt p 6, nsjw := byteAt p 7, dbrp := byteAt p 8,
    dtseg1 := byteAt p 9, dtseg2 := byteAt p 10, dsjw := byteAt p 11, tdco := byteAt p 12, tdcf := byteAt p 13,
    txOrder := byteAt p 14, retxMax := byteAt p 15, busoffHold := rd p 16 2, stbPol := byteAt p 18 }

/-- Bit times of the two phases in mtq. -/
def CanCfg.nominal (c : CanCfg) : Nat := c.nbrp * (1 + c.ntseg1 + c.ntseg2)
def CanCfg.dataTime (c : CanCfg) : Nat := c.dbrp * (1 + c.dtseg1 + c.dtseg2)

def canCfgChecks (p : List Byte) : List (Nat × Bool) :=
  let c := CanCfg.ofBytes p
  [(0, decide (byteAt p 0 ≤ 3)), (1, decide (byteAt p 1 < 128)), (2, inRange 1 512 c.nbrp), (4, inRange 2 256 c.ntseg1),
   (6, inRange 2 128 c.ntseg2), (7, inRange 1 128 c.nsjw), (8, inRange 1 32 c.dbrp), (9, inRange 1 32 c.dtseg1),
   (10, inRange 1 16 c.dtseg2), (11, inRange 1 16 c.dsjw), (12, decide (c.tdco ≤ 127)), (13, decide (c.tdcf ≤ 127)),
   (14, decide (c.txOrder ≤ 1)), (15, decide (c.retxMax ≤ 15)), (16, decide (c.busoffHold ≤ 10000)),
   (18, decide (c.stbPol ≤ 1)), (19, byteAt p 19 == 0),
   (2, inRange 80 8000 c.nominal), (8, !c.fd || inRange 10 c.nominal c.dataTime),
   (4, decide (8 ≤ 1 + c.ntseg1 + c.ntseg2)), (9, decide (5 ≤ 1 + c.dtseg1 + c.dtseg2)),
   (7, decide (c.nsjw ≤ c.ntseg2)), (11, decide (c.dsjw ≤ c.dtseg2)),
   (12, !(c.tdc && decide (2 < c.dbrp)) && !(c.fd && !c.tdc && decide (c.dataTime < 40)))]

/-- A configuration takes effect, on TRX_STBn too. -/
def Live.applyCanCfg (l : Live) (p : List Byte) : Live :=
  (l.setChan (byteAt p 0) fun c => { c with cfg := CanCfg.ofBytes p }).driveTrx

def canConfig (m : MbRef) (b : Mailbox) (l : Live) : Reply × Live :=
  let p := b.payload
  checked (canCfgChecks p)
    (if (l.chan (byteAt p 0)).mode ≠ 0 then (refuse .state, l)
     else (l.applyCanCfg p).endConfig m (bit (byteAt p 1) 0) 0x4001 (byteAt p 0) p)
    fun r => (r, l)

def execCanConfig (s : State) : Result := .next (s.command 0x4001 fun m b l => canConfig m b l)

/-- A channel's error state changes: EV_CAN_ERROR_STATE. -/
def Live.errorState (l : Live) (n st cause : Nat) : Live :=
  let l := l.setChan n fun c => { c with errState := st, busoffAt := if st = 3 then l.mt.now else c.busoffAt }
  l.canEvent n 2 (if cause = 3 then sevFault else if cause = 0 || cause = 4 then notice else warn) cause 0xFF
    (le 1 (l.chan n).lastErr)

/-- Puts a mode in force; a channel that was disabled starts error-active with clear counters. -/
def Live.applyMode (l : Live) (n mode : Nat) : Live :=
  let c := l.chan n
  let l := if mode = 0 || mode = 2 then l.abandonAll n 3 else l
  let l := l.setChan n fun x => if c.mode = 0 || mode = 0 then { x with mode := mode, tec := 0, rec_ := 0, errState := 0 }
    else { x with mode := mode }
  let l := l.driveTrx
  if mode = 1 && c.mode != 0 && c.errState = 3 && !c.cfg.autoRecover then l.errorState n 4 4 else l

def canMode (b : Mailbox) (l : Live) : Reply × Live :=
  let p := b.payload
  checked [(0, decide (byteAt p 0 ≤ 3)), (1, decide (byteAt p 1 ≤ 4)), resv b 2 2]
    (okReply, l.applyMode (byteAt p 0) (byteAt p 1))
    fun r => (r, l)


/-- ERROR_STATE_CHANGE: new values of TEC and REC, an entry to bus-off, or the end of its recovery. -/
def errorStateChange (n tec rec_ : Nat) (busOff recovered : Bool) (l : Live) : Live :=
  let c := l.chan n
  if c.mode = 0 || decide (3 < n) then l
  else
    let held := c.errState == 3 || c.errState == 4
    let worst := max tec rec_
    let st := if busOff then 3 else if held && !recovered then c.errState
      else if 128 ≤ worst then 2 else if 96 ≤ worst then 1 else 0
    let l := l.setChan n fun c => { c with tec := min 255 tec, rec_ := min 255 rec_ }
    if st = c.errState then l
    else l.errorState n st (if 2 ≤ st then st else if 2 ≤ c.errState then 0 else st)


/-- BUSOFF_HOLD_EXPIRY. -/
def busoffHoldExpiry (n : Nat) (l : Live) : Live :=
  let c := l.chan n
  if c.errState = 3 && c.cfg.autoRecover && decide (c.busoffAt + ms c.cfg.busoffHold ≤ l.mt.now)
  then l.errorState n 4 4 else l

def execBusoffHoldExpiry (ch : Nat) (s : State) : Result := .next (s.onLogic (busoffHoldExpiry ch))

/-- BUS_STUCK: CANn_RX dominant for 10 ms, or recessive again for 1 ms. -/
def busStuck (n : Nat) (dominant : Bool) (forNs : Nat) (l : Live) : Live :=
  let c := l.chan n
  if c.mode = 0 || decide (3 < n) || c.stuck == dominant || decide (forNs < (if dominant then ms 10 else ms 1)) then l
  else (l.setChan n fun c => { c with stuck := dominant }).canEvent n 10 sevFault (b2n (!dominant)) 0xFF []

def execBusStuck (ch : Nat) (dominant : Bool) (forNs : Nat) (s : State) : Result :=
  .next (s.onLogic (busStuck ch dominant forNs))

/-! ### CAN.RX and CAN.STATUS (R327, R331) -/

/-- F1's own mailboxes. -/
def fromF1 : MbRef → Bool
  | .loc _ => true
  | _ => false

def execCanRx (s : State) : Result := .next (s.command 0x4005 fun m b l =>
  let n := byteAt b.payload 0
  let f1 := fromF1 m
  let q := if f1 then l.can.f1Q else l.can.hostQ
  checked [(0, inRange 1 6 n)]
    (.done .ok 0 (le 1 (min n q.length) ++ le 1 0 ++ le 2 (q.length - n) ++
        le 4 (if f1 then l.can.f1Dropped else l.can.hostDropped) ++ (q.take n).flatMap id),
     l.setCan fun c => if f1 then { c with f1Q := q.drop n } else { c with hostQ := q.drop n })
    fun r => (r, l))

/-- The speed signal has a valid value that is not too old. -/
def Live.speedValue (l : Live) : Option Nat :=
  match l.can.speed with
  | none => none
  | some s => if (l.chan s.ch).errState = 3 || (l.chan s.ch).errState = 4 || decide (s.at_ + ms s.timeoutMs < l.mt.now) then none
    else s.value

def Live.canRecord (l : Live) (n : Nat) : List Byte :=
  let c := l.chan n
  let master := l.can.master.any fun (t : TimeMaster) => t.ch == n
  let source := l.can.source.filter fun (t : TimeSource) => t.ch == n
  le 1 c.mode ++ le 1 c.errState ++ le 1 c.tec ++ le 1 c.rec_ ++
    le 1 ((maskOf 3 fun k => (l.txBuf n k).isSome) + 8 * b2n (l.txb0Reserved n)) ++
    le 1 (b2n master + 2 * b2n source.isSome + 4 * b2n (source.any fun (t : TimeSource) => decide (8 ≤ t.good))) ++
    le 1 c.tdcv ++ le 1 c.lastErr ++ le 4 c.rxFrames ++ le 4 c.txFrames ++ le 2 c.lost ++ le 2 c.overrun ++
    le 2 c.discarded ++ le 2 (l.speedValue.getD 0xFFFF) ++ le 4 l.can.gen ++
    leInt 4 ((source.map (·.offset)).getD 0)

def execCanStatus (s : State) : Result := .next (s.command 0x4008 fun _ b l =>
  checked [(0, decide (byteAt b.payload 0 ≤ 3))] (.done .ok 0 (l.canRecord (byteAt b.payload 0)), l) fun r => (r, l))

/-! ### Network time (R318 to R320, R329) -/

/-- The payload of a reference message. -/
def Live.refPayload (l : Live) (t : TimeMaster) : List Byte :=
  let synced := l.mt.source == .link || l.mt.source == .can
  le 1 (t.rseq % 16 + 16 * b2n t.prev.isSome + 32 * b2n synced) ++ le 7 (t.prev.getD 0)

/-- REFERENCE_LOAD: at every multiple of REF_MS of MT. -/
def referenceLoad (l : Live) : Live :=
  match l.can.master with
  | none => l
  | some t =>
    let k := l.mt.now / ms (max 1 t.refMs)
    let c := l.chan t.ch
    let set := fun (l : Live) (t : TimeMaster) => l.setCan fun s => { s with master := some t }
    if k ≤ t.period || c.mode != 1 || l.sup.phase != .running then l
    else if c.errState = 3 || c.errState = 4 then
      (set l { t with period := k, prev := none }).canEvent t.ch 8 warn 3 0 (leInt 4 0)
    else
      let mine := (l.txBuf t.ch 0).any fun (b : TxBuf) => b.owner == .ref
      let l := if t.waits then l.canEvent t.ch 8 warn 3 0 (leInt 4 0) else l
      let t := { t with prev := if t.waits then none else t.prev }
      if !mine && (l.txBuf t.ch 0).isSome then set l { t with period := k, prev := none, waits := false }
      else
        let b : TxBuf := { owner := .ref, key := t.refId, brs := false, dlc := 8, data := l.refPayload t, deadline := none,
                           attempts := 0, freeing := none }
        (set l { t with period := k, rseq := (t.rseq + 1) % 16, prev := none, waits := true }).setTx t.ch 0 (some b)

def execReferenceLoad (s : State) : Result := .next (s.onLive referenceLoad)

/-- CAN references discipline MT only at position 0 or without a cascade (R27). -/
def Live.canDisciplines (l : Live) : Bool := !l.link.cascaded || l.acting

/-- An offset of R319: lock after eight of less than 1 us, then R30. -/
def Live.applyOffset (l : Live) (t : TimeSource) (offset : Int) : Live :=
  let good := if offset.natAbs < 1000 then t.good + 1 else 0
  let l := l.setCan fun s => { s with source := some { t with offset := offset, good := good } }
  let l := if 1000000 ≤ offset.natAbs then l.canEvent t.ch 8 warn 2 0xFF (leInt 4 offset) else l
  let l := if good = 8 then l.canEvent t.ch 8 notice 0 0xFF (leInt 4 offset) else l
  if l.canDisciplines then l.correctMt 1 offset else l

/-- REFERENCE_RECEIVED.  DESIGN CHOICE: any frame at REF_ID with DLC 8 is a valid reference message and restarts the three
periods of R29, also one with PREV_VALID 0 or after a gap in RSEQ, from which no offset is computed. -/
def referenceReceived (f : CanFrame) (l : Live) : Live :=
  match l.can.source with
  | none => l
  | some t =>
    if t.ch != f.ch || f.key != t.refId || f.dlc != 8 || !(l.chan f.ch).listens || l.sup.phase != .running then l
    else
      let b0 := byteAt f.data 0
      let n := b0 % 16
      let follows := t.lastSeq == some ((n + 15) % 16)
      let gap := t.lastSeq.isSome && !follows
      let sk := t.lastSof
      let t := { t with lastSeq := some n, lastSof := f.sof, lastRef := l.mt.now }
      let l := l.setCan fun s => { s with source := some t }
      let l := if gap then l.canEvent t.ch 8 warn 1 0xFF (leInt 4 t.offset) else l
      if follows && bit b0 4 then
        let m := extendMt l.mt.now 1 56 (rd f.data 1 7)
        l.applyOffset t ((m : Int) + t.propNs - sk)
      else l

def execReferenceReceived (f : CanFrame) (s : State) : Result := .next (s.onLive (referenceReceived f))

/-- Without a CAN source MT runs free (R27). -/
def Live.canSourceGone (l : Live) : Live := if l.can.source.isSome then l else l.runFree .can

/-- The two roles of CAN.TIME from a request. -/
def Live.applyTime (l : Live) (p : List Byte) : Live :=
  let ch := byteAt p 1
  Live.canSourceGone <| l.setCan fun s =>
    match byteAt p 0 with
    | 1 => { s with master := some { ch := ch, refMs := rd p 2 2, refId := rd p 4 4, rseq := 0, prev := none, waits := false,
                                     period := l.mt.now / ms (max 1 (rd p 2 2)) } }
    | 2 => { s with source := some { ch := ch, refMs := rd p 2 2, refId := rd p 4 4, propNs := rdInt p 8 2,
                                     lastSeq := none, lastSof := 0, lastRef := l.mt.now, offset := 0, good := 0 } }
    | _ => { s with master := s.master.filter fun (t : TimeMaster) => t.ch != ch,
                    source := s.source.filter fun (t : TimeSource) => t.ch != ch }

/-- CAN.TIME (R329). -/
def canTime (m : MbRef) (b : Mailbox) (l : Live) : Reply × Live :=
  let p := b.payload
  let role := byteAt p 0
  let ch := byteAt p 1
  let id := rd p 4 4
  let heldMaster := l.can.master.any fun (t : TimeMaster) => t.ch == ch
  let heldSource := l.can.source.any fun (t : TimeSource) => t.ch == ch
  let sent := (l.txBuf ch 0).isSome && !l.txb0Reserved ch
  checked [(0, decide (role ≤ 2)), (1, decide (ch ≤ 3)), (2, inRange 10 500 (rd p 2 2)),
      (4, !keyRtr id && !keyFdf id && (keyIde id || id % 2 ^ 18 == 0)),
      (8, decide (-1000 ≤ rdInt p 8 2) && decide (rdInt p 8 2 ≤ 1000)), (10, decide (byteAt p 10 < 2)), (11, byteAt p 11 == 0)]
    (if role != 0 && (heldMaster || heldSource) then (refuse .state, l)
     else if role = 1 && (l.can.master.isSome || sent) then (refuse .state, l)
     else if role = 2 && l.can.source.isSome then (refuse .state, l)
     else (l.applyTime p).endConfig m (bit (byteAt p 10) 0) 0x4007
       (if role = 1 || (role = 0 && heldMaster) then 0 else 1) p)
    fun r => (r, l)

def execCanTime (s : State) : Result := .next (s.command 0x4007 fun m b l => canTime m b l)

/-! ### Vehicle speed (R321, R330) -/

/-- The raw value of the signal. -/
def SpeedSignal.raw (s : SpeedSignal) (data : List Byte) : Nat :=
  if s.order = 0 then rd data 0 64 / 2 ^ s.start % 2 ^ s.bits
  else (List.range (s.bits / 8)).foldl (fun a i => a * 256 + byteAt data (s.start / 8 + i)) 0

/-- SPEED_FRAME: a valid value is kept with its MT; a raw value of all ones is invalid and the speed is missing. -/
def speedFrame (f : CanFrame) (l : Live) : Live :=
  match l.can.speed with
  | none => l
  | some s =>
    if s.ch != f.ch || s.key != f.key || !(l.chan f.ch).listens || l.sup.phase != .running then l
    else
      let raw := s.raw f.data
      l.setCan fun c => { c with speed := some (if raw = 2 ^ s.bits - 1 then { s with value := none }
        else { s with value := some (raw * s.scale / 1000), at_ := l.mt.now }) }

def execSpeedFrame (f : CanFrame) (s : State) : Result := .next (s.onLive (speedFrame f))

/-- SPEED_TIMEOUT. -/
def speedTimeout (l : Live) : Live :=
  match l.can.speed with
  | none => l
  | some s => if s.at_ + ms s.timeoutMs < l.mt.now then l.setCan fun c => { c with speed := some { s with value := none } } else l

def execSpeedTimeout (s : State) : Result := .next (s.onLogic speedTimeout)

def Live.applySpeed (l : Live) (p : List Byte) : Live :=
  l.setCan fun c => { c with speed := if byteAt p 0 = 0xFF then none else some {
    ch := byteAt p 0, order := byteAt p 1, start := rd p 2 2, bits := byteAt p 4, scale := rd p 6 2, key := rd p 8 4,
    timeoutMs := rd p 12 2, value := none, at_ := l.mt.now } }

/-- CAN.SPEED (R330). -/
def canSpeed (m : MbRef) (b : Mailbox) (l : Live) : Reply × Live :=
  let p := b.payload
  let start := rd p 2 2
  let n := byteAt p 4
  checked [(0, decide (byteAt p 0 ≤ 3) || byteAt p 0 == 0xFF), (1, decide (byteAt p 1 ≤ 1)), (2, decide (start ≤ 511)),
      (4, inRange 1 16 n), (5, decide (byteAt p 5 < 2)), (6, decide (1 ≤ rd p 6 2)), (12, inRange 20 5000 (rd p 12 2)),
      (14, rd p 14 2 == 0),
      (2, decide (start + n ≤ 512) && (byteAt p 1 != 1 || (start % 8 == 0 && n % 8 == 0)))]
    ((l.applySpeed p).endConfig m (bit (byteAt p 5) 0) 0x4009 0 p)
    fun r => (r, l)

def execCanSpeed (s : State) : Result := .next (s.command 0x4009 fun m b l => canSpeed m b l)

end Sys2Proof.Machine
end

