-- ==== Sys2Proof/Machine/Drain.lean ====
section
/-! DEFINITION. The drain sequence on the outputs (R51, R52, R185), and what a wake restores (R145, R149). -/

namespace Sys2Proof.Machine

/-- READY_N is low while the command layer runs in RUN or DRAIN (R70). -/
def Live.driveReady (l : Live) : Live :=
  { l with host := { l.host with readyLow := l.sup.phase == .running && (l.pwr.mode == .run || l.pwr.mode == .drain) } }

def Live.setDrain (l : Live) (step : Nat) : Live :=
  l.setPwr fun p => { p with drain := { p.drain with step := step, at_ := l.mt.now } }

/-- The time in ns since the last drain step. -/
def Live.sinceStep (l : Live) : Nat := l.mt.now - l.pwr.drain.at_

/-! ### What entry to DRAIN and a logic restart end -/

/-- What entry to DRAIN or a logic restart ends in the key store (R420, R424, R425). -/
def Live.endKeySessions (l : Live) : Live :=
  { l with key := { l.key with challenges := [], hashes := [], exchanges := [], authenticated := [] } }

def Live.setToken (l : Live) (f : TokenState → TokenState) : Live := { l with token := f l.token }

/-- An enrolment ends without a pair. -/
def Live.endEnrol (l : Live) (at_ : TokenAttempt) (st : Status) : Live :=
  match at_.enrol with
  | none => l
  | some j => l.complete j.owner st 0 []

/-- Entry to DRAIN or a logic restart: attempts, tracking and grants end (R394, R397). -/
def Live.tokensEnd (l : Live) : Live :=
  let l := l.token.ants.foldl (fun l (x : TokenAnt) => match x.attempt with
    | some at_ => l.endEnrol at_ .timeout
    | none => l) l
  l.setToken fun t => { t with
    ants := t.ants.map fun (x : TokenAnt) => { x with attempt := none, grants := [], waits := [], asked := false }, wakeOk := false }

/-- Bytes of an update session's image written so far. -/
def UpdSession.bytes (u : UpdSession) : Nat := u.written.foldl (fun a w => a + w.2.1) 0

def Live.setFwu (l : Live) (f : UpdState → UpdState) : Live := { l with fwu := f l.fwu }

/-- An open update session ends with EV_UPD_SESSION (R456). -/
def Live.endUpdate (l : Live) (cause : Nat) : Live :=
  match l.fwu.session with
  | none => l
  | some u => (l.setFwu fun f => { f with session := none }).raise 0x1C0 notice cause (le 1 u.kind ++ le 4 u.bytes)

/-! ### Entry and step 2 -/

/-- A turn-on that entry to DRAIN drops: delayed, held, or a restoration (R185). -/
def Edge.drainDrops (e : Edge) : Bool :=
  e.phase == .delayed || e.phase == .held || (match e.work with
    | .restore _ => true
    | _ => false)

def Live.dropWaiting (l : Live) : Live :=
  let l := (l.plan.edges.filter Edge.drainDrops).foldl (fun l (e : Edge) =>
    ((l.unbookEdge e.id).removeEdge e.id).dropCommand e.work.src) l
  { l with plan := { l.plan with dropped := [] } }

/-- Staged changes not yet struck are discarded; the event gives their count, 0 included. -/
def Live.discardStaged (l : Live) : Live :=
  ({ l with host := { l.host with staged := [] } }).raise 0x035 notice 0 (le 2 (min l.host.staged.length 0xFFFF))

/-- Drain step 1. -/
def Live.drainEntry (l : Live) : Live :=
  let l := (l.setMode .drain).setPwr fun p => { p with
    drain := { step := 1, entry := l.mt.now, at_ := l.mt.now }, wake := { p.wake with late := false } }
  let l := { l with fio := { l.fio with wk := l.fio.wk.map fun (w : WakeInput) => { w with cand := 0 } } }
  let l := (l.endUpdate 4).endKeySessions.tokensEnd
  (l.discardStaged.dropWaiting.fadesDrain.dropEdits).driveReady

/-- A turn-on of this channel is on its way to the Planisher or placed. -/
def Live.turningOn (l : Live) (n : Nat) : Bool :=
  l.plan.edges.any fun (e : Edge) => e.work.src == Source.load n && e.work.rises

/-- A channel's turn-off in drain step 2; `rank` orders it among the others.  A held channel becomes OFF with cause 1 (R134). -/
def Live.drainChannel (l : Live) (n rank : Nat) : Live :=
  let s := (l.ch n).state
  if (l.ch n).conducts || l.turningOn n then l.sendEdge (.load n 0 false) rank (l.ch n).cfg.latUs none
  else if s == 5 || s == 6 || s == 7 then (l.cancelHeld n).loadEvent n 1
  else l.cancelHeld n

/-- Drain step 2: lighting first, then the other channels, those of the lowest priority first. -/
def Live.drainLoads (l : Live) : Live :=
  let lows := (List.range 48).filter fun n => (l.ch n).lowest == n
  let light := lows.filter fun n => (l.ch n).lighting
  let others := lows.filter fun n => !(l.ch n).lighting
  let ranked := light.map (fun n => (n, 0)) ++ others.map fun n => (n, 8 - min 7 (l.ch n).cfg.prio)
  (List.range 9).foldl (fun l k => (ranked.filter (·.2 == k)).foldl (fun l x => l.drainChannel x.1 x.2) l) l

/-- Shedding ends (R185). -/
def Live.shedEnds (l : Live) : Live :=
  let l := l.setLedger fun g => { g with factor := 256, shed := [], stepping := false, overSince := none }
  if l.ledger.level = 0 then l else l.setLevel 0

def Live.bridgesBrake (l : Live) : Live :=
  (List.range 8).foldl (fun l k => if (l.bridge k).runs
    then ((l.endSlot (.leg k)).bridgeStops k .brake).giveBack (.leg k) else l) l

/-- Everything that drain step 2 takes down. -/
def Live.outputsOff (l : Live) : Live :=
  l.drainLoads.fioAllOff.bridgesBrake.valvesDrain.audioDrain.ledBlank.shedEnds

/-- DRAIN_OUTPUTS_OFF. -/
def drainOutputsOff (l : Live) : Live :=
  if l.pwr.mode != .drain || l.pwr.drain.step ≠ 1 || decide (l.sinceStep < ms 1) then l
  else l.outputsOff.setDrain 2

def execDrainOutputsOff (s : State) : Result := .next (s.onLogic drainOutputsOff)

/-! ### Step 3 -/

/-- All outputs are off: no load, field output, valve or programme runs. -/
def Live.allOff (l : Live) : Bool :=
  l.load.ch.all (fun (c : LoadCh) => !c.conducts && c.sw == Switch.off) && l.fio.ch.all (fun (c : FioCh) => !c.conducts)
    && l.valve.valves.all (fun (v : Valve) => !v.active && v.fire.isNone) && l.audio.zones.all (fun (z : Zone) => z.playing.isNone)

/-- Outputs still on are forced off, EV_MODE_DRAIN_FORCED with their mask.  DESIGN CHOICE: where none of them is an OUT channel, the
mask would be empty and no event is raised. -/
def Live.forceOff (l : Live) : Live :=
  let on := (List.range 48).filter fun n => (l.ch n).lowest == n && (l.ch n).conducts
  let mask := maskOf 48 fun n => (l.ch (l.ch n).lowest).conducts
  let l := on.foldl (fun l n => ((l.withdrawAll (.load n)).executeOff n (Config.forcedClamp l.mt.now n)).giveBack (.load n)) l
  let l := l.valvesForced
  if mask = 0 then l else l.raise 0x033 warn 0 (le 6 mask)

/-- DRAIN_MAX_EXPIRY: drain step 3, at DRAIN_MAX or as soon as all outputs are off.  FW_TOTAL is persisted (R343). -/
def drainMaxExpiry (l : Live) : Live :=
  let due := decide (l.pwr.drain.entry + ms l.pwr.cfg.drainMax ≤ l.mt.now) || l.allOff
  if l.pwr.mode != .drain || l.pwr.drain.step ≠ 2 || !due then l
  else (l.forceOff.setDrain 3).persistOwn 0x4405 0 (l.nm.fwTotal.flatMap (le 2))

def execDrainMaxExpiry (s : State) : Result := .next (s.onLogic drainMaxExpiry)

/-! ### Abort (R52) -/

/-- DRAIN is aborted: RUN with all outputs off, EV_MODE_DRAIN_ABORTED. -/
def Live.drainAbort (l : Live) (cause : Nat) : Live :=
  let l := if l.pwr.drain.step < 2 then l.outputsOff else l
  ((l.setDrain 0).setMode .run).driveReady.raise 0x034 notice cause []

/-- The drain may still be aborted: drain step 4 has not begun. -/
def Live.mayAbort (l : Live) : Bool := l.pwr.mode == .drain && decide (l.pwr.drain.step < 4)

/-! ### PARK and wake -/

/-- In PARK every output is off, bridges float, and nothing is planned; bridges, valves and banks that are LATCHED stay so. -/
def Live.unpowerOutputs (l : Live) : Live :=
  { l with
    load := { l.load with
      ch := l.load.ch.map fun (c : LoadCh) => { c with
        cmd := .off, sw := .off, tlatch := false, uvhold := false, whold := false, fpend := false, rdelay := none,
        uvOff := false, shed := false, dropped := false, clampCause := none, clampTl := false, rampEnd := none, onAcc := 0,
        tests := [], testAt := none, duty := 0, pulse := 0, pulseAcc := 0, clamps := [], clampHot := false },
      br := l.load.br.map fun (b : Bridge) => { b with
        st := if b.st == .latched then .latched else .float, dirStep := 0, action := 0, target := 0 } },
    fio := { l.fio with ch := l.fio.ch.map fun (c : FioCh) => { c with
      cmd := false, sw := .off, thermal := false, uvhold := false, uvOff := false, fpend := false, rdelay := none, onAcc := 0,
      tests := [], testAt := none, safe := false } },
    valve := { l.valve with
      valves := l.valve.valves.map fun (v : Valve) => { v with
        phase := if v.phase == .latched then .latched else .idle, fire := none, held := false, decaying := false, forcedSlow := false, lowOn := false },
      banks := l.valve.banks.map fun (b : Bank) => { b with st := if b.st == .latched then .latched else .off } },
    plan := { l.plan with
      edges := [], envs := [], book := [], changes := [], want := [], stand := [], dropped := [], dirty := none } }

/-- What a wake restores of the load channels: LATCH from the record, TLATCH from the junction measured (in 0.1 °C) and
T_RS of the record, for a group from its hottest member, RETRIES (R145, R149). -/
def Live.wakeLoads (l : Live) (tj : List Int) : Live :=
  match l.ledger.saved with
  | none => l
  | some r => (List.range 48).foldl (fun l n =>
      let la := r.latches.getD n (false, 0)
      l.setCh n fun c => { c with
        latch := la.1, latchCause := la.2, retriesLeft := c.cfg.retries, tj := tj.getD n c.tj,
        tlatch := (l.groupOf n).any fun k => decide (((min 1500 (r.trs.getD n 1500) : Nat) : Int) ≤ tj.getD k 0) }) l

/-- What a wake does to the field channels: RETRIES, and the inputs start their filters (R259, R264). -/
def Live.wakeFio (l : Live) : Live :=
  { l with fio := { l.fio with
    ch := l.fio.ch.map fun (c : FioCh) => { c with fresh := true, retriesLeft := c.cfg.retries },
    wk := l.fio.wk.map fun (w : WakeInput) => { w with fresh := true } } }

end Sys2Proof.Machine
end

