-- ==== Sys2Proof/Machine/Nm.lean ====
section
/-! DEFINITION. Network sleep: the ring of consent on CAN, agreement and commit, and keepers
(12_network_sleep_wake.md). -/

namespace Sys2Proof.Machine

def Live.setNm (l : Live) (f : NmState → NmState) : Live := { l with nm := f l.nm }

/-! ### State (R338) -/

def NmPhase.code : NmPhase → Nat
  | .off => 0 | .awake => 1 | .ready => 2 | .indicating => 3 | .commit => 4 | .silent => 5

/-- The ring is configured. -/
def NmCfg.on (c : NmCfg) : Bool := decide (c.ch ≤ 3)

/-- CH is not in NORMAL, bus-off, or the module is not in RUN or DRAIN. -/
def Live.nmSilent (l : Live) : Bool :=
  let c := l.chan l.nm.cfg.ch
  c.mode != 1 || c.errState == 3 || c.errState == 4 || !(l.pwr.mode == .run || l.pwr.mode == .drain) || l.sup.phase != .running

/-- Own consent as it stands, 0 while consenting, else the reason for staying awake (R336). -/
def Live.nmReason (l : Live) : Nat :=
  if l.fwu.session.isSome then 0xF0
  else if l.nm.duplicate then 0xF2
  else if l.doorHeld then 0xF3
  else if l.nm.consent then 0 else l.nm.reason

def Live.consents (l : Live) : Bool := l.nmReason == 0

/-- The state that the conditions of R338 give. -/
def Live.nmPhase (l : Live) : NmPhase :=
  if !l.nm.cfg.on then .off
  else if l.nm.byRing then .commit
  else if l.nmSilent then .silent
  else if l.nm.indSent then .indicating
  else if l.consents then .ready else .awake

/-- Follows the state and raises EV_NM_STATE for a change. -/
def Live.nmFollow (l : Live) : Live :=
  let st := l.nmPhase
  if st == l.nm.st then l
  else (l.setNm fun n => { n with st := st }).raise 0x140 notice st.code (le 1 l.nm.st.code ++ le 1 l.nm.round)

/-! ### Keepers (R342) -/

/-- The time in s for which an entry has run; PARK does not count. -/
def Keeper.duration (k : Keeper) (now : Nat) : Nat := (now - k.start - k.away) / 1000000000

/-- Ends the timing of a node, closing its open entry: EV_NM_KEEPER cause 1. -/
def Live.keeperEnds (l : Live) (node : Nat) : Live :=
  let l := l.setNm fun n => { n with nodes := n.nodes.map fun (x : NmNode) => if x.id == node then { x with since := none } else x }
  match l.nm.keepers.find? (fun (k : Keeper) => k.node == node && k.closed.isNone) with
  | none => l
  | some k =>
    let dur := k.duration l.mt.now
    (l.setNm fun n => { n with keepers := n.keepers.map fun (x : Keeper) =>
      if x.node == node && x.closed.isNone then { x with closed := some dur } else x }).raise 0x144 warn 1
      (le 1 node ++ le 1 k.reason ++ le 4 dur)

/-- The module's own consent is withdrawn: every timing ends. -/
def Live.keepersEnd (l : Live) : Live :=
  if l.consents then l else (l.nm.nodes.map fun (x : NmNode) => x.id).foldl (fun l id => l.keeperEnds id) l

/-- KEEPER_THRESHOLD: a node has withheld consent for KEEPER_S while this module consents. -/
def keeperThreshold (node : Nat) (l : Live) : Live :=
  match l.nm.nodes.find? (fun (x : NmNode) => x.id == node) with
  | none => l
  | some x =>
    let isOpen := l.nm.keepers.any fun (k : Keeper) => k.node == node && k.closed.isNone
    match x.since with
    | none => l
    | some t =>
      if isOpen || !l.consents || decide (l.mt.now < t + ms (1000 * l.nm.cfg.keeperS)) then l
      else (l.setNm fun n => { n with keepers := (Keeper.mk node x.reason (t - x.away) none x.away :: n.keepers).take 16 }).raise 0x144 warn 0
        (le 1 node ++ le 1 x.reason ++ le 4 ((l.mt.now - t) / 1000000000))

def execKeeperThreshold (node : Nat) (s : State) : Result := .next (s.onLogic (keeperThreshold node))

/-! ### The present set (R334) -/

/-- Node IDs present, this module's among them, in ascending order. -/
def Live.present (l : Live) : List Nat :=
  (List.range 64).filter fun i => i == l.nm.cfg.node || l.nm.nodes.any fun (x : NmNode) => x.id == i

/-- The next higher present ID, wrapping round to the lowest. -/
def Live.successor (l : Live) : Nat :=
  match l.present.find? (fun i => decide (l.nm.cfg.node < i)) with
  | some i => i
  | none => l.present.headD l.nm.cfg.node

/-- This module is round master: the lowest present ID. -/
def Live.isMaster (l : Live) : Bool := l.present.headD l.nm.cfg.node == l.nm.cfg.node

/-- A node joins with its first message: EV_NM_NODE cause 0; the round is void. -/
def Live.nodeJoins (l : Live) (node : Nat) : Live :=
  if node == l.nm.cfg.node || l.nm.nodes.any (fun (x : NmNode) => x.id == node) then l
  else (l.setNm fun n => { n with nodes := n.nodes ++ [NmNode.mk node false 0 none 0], voided := true }).raise 0x145 notice 0
    (le 1 node ++ le 1 l.nm.round)

/-- A silent node is skipped: EV_NM_NODE cause 1; the round is void. -/
def Live.nodeSkipped (l : Live) (node : Nat) : Live :=
  if !(l.nm.nodes.any fun (x : NmNode) => x.id == node) then l
  else ((l.keeperEnds node).setNm fun n => { n with
    nodes := n.nodes.filter fun (x : NmNode) => x.id != node, voided := true }).raise 0x145 notice 1
      (le 1 node ++ le 1 l.nm.round)

/-! ### Sending (R333, R335, R337) -/

/-- The payload of a ring message. -/
def ringPayload (dest type flags reason round src : Nat) : List Byte :=
  le 1 dest ++ le 1 type ++ le 1 flags ++ le 1 reason ++ le 1 round ++ le 1 src ++ le 2 0

/-- Loads a ring message into TXB0. -/
def Live.loadRing (l : Live) (data : List Byte) : Live :=
  l.setTx l.nm.cfg.ch 0 (some { owner := .ring, key := (l.nm.cfg.base + l.nm.cfg.node) * 2 ^ 18, brs := false, dlc := 8,
                                data := data, deadline := none, attempts := 0, freeing := none })

/-- The bytes of a message as they stand at the moment of loading. -/
def Live.nmBytes (l : Live) : NmMsg → List Byte
  | .alive => ringPayload 0xFF 1 (b2n l.consents) l.nmReason l.nm.round 0xFF
  | .wake src => ringPayload 0xFF 2 (b2n l.consents) l.nmReason l.nm.round src
  | .ack => ringPayload 0xFF 0 7 0 l.nm.round 0xFF

/-- Messages are sent in RUN only, as TXB0 becomes free.  A SLEEP_ACK needs the own consent still; without it the round master goes
on with a consent round. -/
def Live.nmPump (l : Live) : Live :=
  match l.nm.out with
  | [] => l
  | m :: rest =>
    if l.nmSilent || l.pwr.mode != .run || !l.nm.cfg.on then l.setNm fun n => { n with out := [] }
    else if (l.txBuf l.nm.cfg.ch 0).isSome then l
    else
      let l := l.setNm fun n => { n with out := rest }
      if m == NmMsg.ack && !l.consents then l.setNm fun n => { n with sendAt := some (l.mt.now + ms n.cfg.ringMs) }
      else l.loadRing (l.nmBytes m)

def Live.nmSend (l : Live) (m : NmMsg) : Live := (l.setNm fun n => { n with out := n.out ++ [m] }).nmPump

/-- After an ALIVE the round master starts round 0, RING_MS later, as a consent round. -/
def Live.restartRounds (l : Live) : Live :=
  if l.isMaster then l.setNm fun n => { n with
    sendAt := some (l.mt.now + ms n.cfg.ringMs), round := 255, ind := false, voided := true }
  else l

/-- Sends an ALIVE (R335). -/
def Live.sendAlive (l : Live) : Live :=
  if !l.nm.cfg.on || l.nmSilent || l.pwr.mode != .run then l
  else ((l.nmSend .alive).setNm fun n => { n with lastRing := l.mt.now }).restartRounds

/-- The present set is cleared and an ALIVE is sent: the ring restarts after a WAKE (R340). -/
def Live.ringRestarts (l : Live) : Live :=
  let l := (l.nm.nodes.map fun (x : NmNode) => x.id).foldl (fun l id => l.keeperEnds id) l
  (l.setNm fun n => { n with nodes := [], dests := [], waitFor := none, sendAt := none, indSent := false, ind := false }).sendAlive

/-- Every present node's last RING carried CONSENT, and this module consents. -/
def Live.allConsent (l : Live) : Bool := l.consents && l.nm.nodes.all fun (x : NmNode) => x.consent

/-- Loads the own RING for the successor, with SLEEP_IND or without. -/
def Live.loadOwnRing (l : Live) (ind : Bool) : Live :=
  let ind := ind && l.consents
  let d := l.successor
  let l := l.loadRing (ringPayload d 0 (b2n l.consents + 2 * b2n ind) l.nmReason l.nm.round 0xFF)
  (l.setNm fun n => { n with
    sendAt := none, sentAt := l.mt.now, waitFor := if d = n.cfg.node then none else some d, indSent := ind,
    ownSent := l.consents, lastRing := l.mt.now }).nmFollow

/-- RING_SEND: RING_MS after the ring has come, the own RING goes to the successor.  The round master counts ROUND, and sets
SLEEP_IND when the round before was a consent round in which every node consented. -/
def ringSend (l : Live) : Live :=
  let n := l.nm
  if !n.sendAt.any (fun t => decide (t ≤ l.mt.now)) || l.pwr.mode != .run || l.nmSilent || !n.cfg.on
      || (l.txBuf n.cfg.ch 0).isSome then l
  else if l.isMaster then
    let ind := !n.voided && !n.refused && !n.ind && l.allConsent
    let l := l.setNm fun n => { n with
      round := (n.round + 1) % 256, ind := ind, refused := !l.consents, voided := false, dests := [] }
    l.loadOwnRing ind
  else l.loadOwnRing n.ind

def execRingSend (s : State) : Result := .next (s.onLogic ringSend)

/-- RING_MAX_EXPIRY: the node addressed has not been seen; it is skipped and the RING sent again to the next. -/
def ringMaxExpiry (l : Live) : Live :=
  match l.nm.waitFor with
  | none => l
  | some d =>
    if decide (l.mt.now < l.nm.sentAt + ms l.nm.cfg.ringMax) || l.pwr.mode != .run || l.nmSilent
        || (l.txBuf l.nm.cfg.ch 0).isSome then l
    else
      let ind := l.nm.indSent
      (l.nodeSkipped d).loadOwnRing ind

def execRingMaxExpiry (s : State) : Result := .next (s.onLogic ringMaxExpiry)

/-- ALIVE_TIMEOUT: no RING for three times RING_MAX. -/
def aliveTimeout (l : Live) : Live :=
  if decide (l.mt.now < l.nm.lastRing + 3 * ms l.nm.cfg.ringMax) then l else l.sendAlive

def execAliveTimeout (s : State) : Result := .next (s.onLogic aliveTimeout)

/-! ### Commit and abort (R339, R340) -/

/-- Entry to COMMIT, which is entry to DRAIN: the wake sources are those of PARK_CFG, with CAN wake on CH. -/
def Live.enterCommit (l : Live) : Live :=
  let c := l.nm.cfg
  let l := l.setNm fun n => { n with
    byRing := true, windowOver := false, commitAt := l.mt.now + ms c.commitMs, committed := 0, agreements := n.agreements + 1,
    waitFor := none, sendAt := none, out := [], indSent := false }
  let l := (l.nmFollow).raise 0x141 notice 0 (le 8 (maskOf 64 fun i => l.present.contains i))
  let l := l.setPwr fun p => { p with wake := { p.wake with
    mask := c.wakeMask ||| 0x80, canMask := c.canMask ||| 2 ^ c.ch, wkMask := c.wkMask, alarmS := c.alarmS, force := false } }
  l.drainEntry

/-- The drain of a sleep commit is aborted: EV_NM_ABORTED, and the message that the ring gets. -/
def Live.commitAbort (l : Live) (modeCause cause node src : Nat) (m : NmMsg) : Live :=
  let l := l.drainAbort modeCause
  let l := (l.setNm fun n => { n with byRing := false, windowOver := false }).nmFollow
  let l := l.raise 0x142 notice cause (le 1 node ++ le 1 src)
  if m == NmMsg.alive then l.sendAlive else (l.nmSend m).ringRestarts

/-- COMMIT_WINDOW_END: drain step 4 may start. -/
def commitWindowEnd (l : Live) : Live :=
  if l.nm.byRing && decide (l.nm.commitAt ≤ l.mt.now) then l.setNm fun n => { n with windowOver := true } else l

def execCommitWindowEnd (s : State) : Result := .next (s.onLogic commitWindowEnd)

/-! ### Receiving (R333 to R337, R340) -/

/-- The sender of a ring message on CH; none for any other frame or one to be ignored. -/
def Live.ringSender (l : Live) (f : CanFrame) : Option Nat :=
  let c := l.nm.cfg
  let id := f.key / 2 ^ 18
  if c.on && f.ch == c.ch && f.key % 2 ^ 18 == 0 && decide (f.key < 2 ^ 29) && decide (c.base ≤ id) && decide (id ≤ c.base + 63)
      && f.dlc == 8 && decide (byteAt f.data 1 ≤ 2) && decide (byteAt f.data 2 < 8) && rd f.data 6 2 == 0 && f.echo.isNone
  then some (id - c.base) else none

/-- What a RING says of its sender: consent, reason, keeper timing. -/
def Live.ringConsent (l : Live) (node flags reason : Nat) : Live :=
  let yes := bit flags 0
  let l := if yes then l.keeperEnds node else l
  let timed := !yes && l.consents
  l.setNm fun n => { n with
    refused := n.refused || !yes,
    nodes := n.nodes.map fun (x : NmNode) => if x.id == node then
      { x with consent := yes, reason := reason, since := if timed then some (x.since.getD l.mt.now) else none,
               away := if timed && x.since.isSome then x.away else 0 } else x,
    keepers := n.keepers.map fun (k : Keeper) => if k.node == node && k.closed.isNone then { k with reason := reason } else k }

/-- The ring comes to this module: it passes it on RING_MS later, and as round master may acknowledge the agreement. -/
def Live.ringComes (l : Live) (ind : Bool) : Live :=
  if l.isMaster && l.nm.ind && ind && l.consents && !l.nm.voided && !l.nm.refused then
    (l.setNm fun n => { n with sendAt := none }).nmSend .ack
  else l.setNm fun n => { n with
    sendAt := some (l.mt.now + ms n.cfg.ringMs),
    ind := if l.isMaster then n.ind else ind }

/-- A RING with a DEST, or the SLEEP_ACK. -/
def Live.ringMessage (l : Live) (node : Nat) (d : List Byte) : Live :=
  let dest := byteAt d 0
  let flags := byteAt d 2
  let round := byteAt d 4
  let newRound := round != l.nm.round
  let before := l.nm.dests.find? fun x => x.1 == node
  let l := l.setNm fun n => { n with
    lastRing := l.mt.now, round := if l.isMaster then n.round else round,
    indSent := n.indSent && !newRound, ind := n.ind && (l.isMaster || !newRound),
    dests := (if newRound then [] else n.dests.filter fun x => x.1 != node) ++ [(node, dest)] }
  if bit flags 2 then
    if l.nm.indSent && !l.doorHeld then l.enterCommit else l.sendAlive
  else
    let l := l.ringConsent node flags (byteAt d 3)
    let l := match before with
      | some x => if !newRound && x.2 != dest && x.2 != l.nm.cfg.node then l.nodeSkipped x.2 else l
      | none => l
    if dest == l.nm.cfg.node then l.ringComes (bit flags 1)
    else if node < l.nm.cfg.node then l.setNm fun n => { n with sendAt := none } else l

/-- A ring message that meets this module in RUN. -/
def Live.ringInRun (l : Live) (node : Nat) (d : List Byte) : Live :=
  let l := l.setNm fun n => { n with waitFor := if n.waitFor == some node then none else n.waitFor }
  let l := match byteAt d 1 with
    | 0 => (l.nodeJoins node).ringMessage node d
    | 1 => (l.nodeJoins node).restartRounds
    | _ => l.ringRestarts.nodeJoins node
  l.nmFollow

/-- RING_MESSAGE_RECEIVED. -/
def ringMessageReceived (f : CanFrame) (l : Live) : Live :=
  match l.ringSender f with
  | none => l
  | some node =>
    let src := byteAt f.data 5
    let ack := byteAt f.data 1 == 0 && bit (byteAt f.data 2) 2
    if !(l.chan f.ch).listens then l
    else if l.pwr.mode == .wakeCheck then l.setChan f.ch fun c => { c with wakeOk := true }
    else if l.sup.phase != .running then l
    else if node == l.nm.cfg.node then
      ((l.setNm fun n => { n with duplicate := true }).raise 0x147 sevFault 0 (le 1 node)).keepersEnd.nmFollow
    else if l.pwr.mode == .run then l.ringInRun node f.data
    else if !l.nm.byRing || ack then l
    else if l.mayAbort then (l.commitAbort 1 1 node src .alive).ringInRun node f.data
    else if l.pwr.wake.late then l
    else (l.setPwr fun p => { p with wake := { p.wake with late := true } }).setNm fun n => { n with
      lateAt := l.mt.now, lateSrc := 1 }

def execRingMessageReceived (f : CanFrame) (s : State) : Result := .next (s.onLive (ringMessageReceived f))

/-! ### Rows of CAN that the ring follows (R335, R337, R341) -/

/-- The own ring message has been sent: a SLEEP_ACK enters COMMIT, unless a door is held open by now (R211); a RING to oneself, of a node alone, comes at once. -/
def Live.ringSent (l : Live) (d : List Byte) : Live :=
  let flags := byteAt d 2
  let l := if byteAt d 1 = 0 && bit flags 2 then (if l.doorHeld then l.sendAlive else l.enterCommit)
    else if byteAt d 1 = 0 && byteAt d 0 = l.nm.cfg.node then l.ringComes (bit flags 1)
    else l.setNm fun n => { n with sentAt := l.mt.now }
  l.nmPump.nmFollow

/-- CAN_TX_DONE with the ring's part. -/
def canTxDoneNm (n k sofMt tdcv : Nat) (l : Live) : Live :=
  let b := l.txBuf n k
  let l' := canTxDone n k sofMt tdcv l
  match b with
  | some x => if x.owner == .ring && (l'.txBuf n k).isNone then l'.ringSent x.data else l'.nmPump
  | none => l'

/-- CAN_TX_ERROR, CAN_TX_DEADLINE and CAN.ABORT; a message of the ring that waits takes TXB0 when it has become free. -/
def execCanTxError (ch txb err tdcv : Nat) (s : State) : Result :=
  .next (s.onLogic fun l => (canTxError ch txb err tdcv l).nmPump)

def execCanTxDeadline (ch txb : Nat) (underway : Bool) (s : State) : Result :=
  .next (s.onLogic fun l => (canTxDeadline ch txb underway l).nmPump)

def execCanAbort (underway : Nat) (s : State) : Result := .next (s.command 0x4004 fun _ b l =>
  let r := canAbort underway b l
  (r.1, r.2.nmPump))

def execCanTxDone (ch txb sofMt tdcv : Nat) (s : State) : Result := .next (s.onLogic (canTxDoneNm ch txb sofMt tdcv))

/-- The state follows the channel; when it is no longer silent, the module rejoins with an ALIVE. -/
def Live.nmChannel (l : Live) : Live :=
  let was := l.nm.st
  let l := l.nmFollow
  if was == .silent && l.nm.st != .silent then l.sendAlive else l

def execErrorStateChange (ch tec recv : Nat) (busOff recovered : Bool) (s : State) : Result :=
  .next (s.onLogic fun l => (errorStateChange ch tec recv busOff recovered l).nmChannel)

def execCanMode (s : State) : Result := .next (s.command 0x4002 fun _ b l =>
  let r := canMode b l
  (r.1, r.2.nmChannel))

/-! ### NM.CONFIG, NM.REQUEST, NM.STATUS, NM.KEEPERS (R345 to R348) -/

def NmCfg.ofBytes (p : List Byte) : NmCfg :=
  { ch := byteAt p 0, node := byteAt p 1, throttleN := byteAt p 3, base := rd p 4 2, ringMs := rd p 6 2,
    ringMax := rd p 8 2, commitMs := rd p 10 2, keeperS := rd p 12 2, wakeMask := byteAt p 16, canMask := byteAt p 17,
    wkMask := rd p 18 2, alarmS := rd p 20 4 }

/-- Puts a configuration in force: the ring starts or restarts with an ALIVE, and every node leaves the present set. -/
def Live.applyNmCfg (l : Live) (p : List Byte) : Live :=
  let l := (l.nm.nodes.map fun (x : NmNode) => x.id).foldl (fun l id => l.keeperEnds id) l
  (l.setNm fun n => { n with
    cfg := NmCfg.ofBytes p, nodes := [], dests := [], waitFor := none, sendAt := none, out := [], indSent := false,
    ind := false, lastRing := l.mt.now }).nmFollow.sendAlive

def nmConfig (m : MbRef) (b : Mailbox) (l : Live) : Reply × Live :=
  let p := b.payload
  checked [(0, decide (byteAt p 0 ≤ 3) || byteAt p 0 == 0xFF), (1, decide (byteAt p 1 ≤ 63)), (2, decide (byteAt p 2 < 2)),
      (4, decide (rd p 4 2 ≤ 0x7C0) && rd p 4 2 % 64 == 0), (6, inRange 20 1000 (rd p 6 2)),
      (8, inRange 50 5000 (rd p 8 2) && decide (2 * rd p 6 2 ≤ rd p 8 2)), (10, inRange 100 10000 (rd p 10 2)),
      (12, decide (10 ≤ rd p 12 2)), resv b 14 2, (16, byteAt p 16 % 128 != 0), (17, decide (byteAt p 17 < 16))]
    (if l.nm.st == .indicating || l.nm.st == .commit then (refuse .state, l)
     else (l.applyNmCfg p).endConfig m (bit (byteAt p 2) 0) 0x4401 0 p)
    fun r => (r, l)

def execNmConfig (s : State) : Result := .next (s.command 0x4401 fun m b l => nmConfig m b l)

def nmRequest (b : Mailbox) (l : Live) : Reply × Live :=
  let p := b.payload
  let c := byteAt p 0
  let reason := byteAt p 1
  checked [(0, decide (c ≤ 1)), (1, if c = 1 then reason == 0 else inRange 1 239 reason), resv b 2 2]
    (if l.nm.st == .off then (refuse .state, l)
     else
       let l := (l.setNm fun n => { n with consent := c == 1, reason := reason }).keepersEnd
       (okReply, if c = 0 && l.nm.byRing && l.mayAbort then l.commitAbort 5 2 0xFF 0xFF (.wake 0xFF) else l.nmFollow))
    fun r => (r, l)

def execNmRequest (s : State) : Result := .next (s.command 0x4402 fun _ b l => nmRequest b l)

def Live.nmRecord (l : Live) : List Byte :=
  let n := l.nm
  let live := n.cfg.on && n.st != .silent
  le 1 n.st.code ++ le 1 n.cfg.node ++ le 1 n.round ++ le 1 l.nmReason ++
    le 8 (if live then maskOf 64 fun i => l.present.contains i else 0) ++
    le 8 (maskOf 64 fun i => (live && i == n.cfg.node && n.ownSent) || n.nodes.any fun (x : NmNode) => x.id == i && x.consent) ++
    le 2 (if n.st == .commit then (n.commitAt - l.mt.now) / 1000000 else 0) ++
    le 1 (if live then l.present.headD 0xFF else 0xFF) ++ le 1 0 ++ le 4 n.lateWakes ++ le 4 n.agreements

def execNmStatus (s : State) : Result := .next (s.command 0x4403 fun _ _ l => (.done .ok 0 l.nmRecord, l))

/-- The 16 bytes of a keeper log entry. -/
def Live.keeperBytes (l : Live) (k : Keeper) : List Byte :=
  le 1 k.node ++ le 1 k.reason ++ le 1 (b2n k.closed.isNone) ++ le 1 0 ++
    le 4 (k.closed.getD (k.duration l.mt.now)) ++ le 8 k.start

def Keeper.ofBytes (p : List Byte) : Keeper :=
  { node := byteAt p 0, reason := byteAt p 1, start := rd p 8 8,
    closed := if bit (byteAt p 2) 0 then none else some (rd p 4 4), away := 0 }

/-- The keeper log goes into the store, five entries to an object; it is written at drain step 4 whatever the supply does. -/
def Live.keepKeepers (l : Live) : Live :=
  let bytes := l.nm.keepers.flatMap l.keeperBytes
  let us := (List.range 4).map fun i => WriteUnit.mk (.config 0x4404 i ((bytes.drop (80 * i)).take 80)) none [] false true l.mt.now
  { l with param := { l.param with queue := l.param.queue ++ us } }

def nmKeepers (b : Mailbox) (l : Live) : Reply × Live :=
  let f := byteAt b.payload 0
  checked [(0, decide (f < 2))]
    (.done .ok 0 (le 1 l.nm.keepers.length ++ le 3 0 ++ l.nm.keepers.flatMap l.keeperBytes),
      if bit f 0 then l.setNm fun n => { n with keepers := [] } else l)
    fun r => (r, l)

def execNmKeepers (s : State) : Result := .next (s.command 0x4404 fun _ b l => nmKeepers b l)

end Sys2Proof.Machine
end

