-- ==== Sys2Proof/Machine/Strike.lean ====
section
/-! DEFINITION. Strike (13_bamsavin_cascade_link.md, R89, R172): the staged changes at the boundary, their expiry, and
the STRIKE land. -/

namespace Sys2Proof.Machine

def Live.setLink (l : Live) (f : LinkState → LinkState) : Live := { l with link := f l.link }

/-- Length of a link cycle in ns (R355). -/
def cycleNs : Nat := 125000

/-- The present cycle number. -/
def Live.cycleNo (l : Live) : Nat := l.mt.now / cycleNs

/-- The output a staged change is for. -/
def StagedChange.source : StagedChange → Option Source
  | .load n _ _ => some (.load n)
  | .light n _ _ _ => some (.load n)
  | .bridge k _ _ _ => some (.leg k)
  | .fio n _ => some (.fio n)
  | .show_ _ => none

/-- Two staged changes on one object; the matrix page is one object. -/
def StagedChange.sameObject (a b : StagedChange) : Bool := a.source == b.source

/-- Of the changes on one object only the last is applied (R89). -/
def finalChanges : List Staged → List Staged
  | [] => []
  | s :: rest => if rest.any (fun x => x.change.sameObject s.change) then finalChanges rest else s :: finalChanges rest

/-- Inserts a staged change by doorbell order. -/
def insertStaged (s : Staged) : List Staged → List Staged
  | [] => [s]
  | x :: xs => if s.seq < x.seq then s :: x :: xs else x :: insertStaged s xs

/-- An edge that starts on the boundary tick: booked there and executed at once, or at the end of the clamp of its output
(R172). -/
def Live.strikeEdge (l : Live) (tick : Nat) (w : EdgeWork) (prio latUs : Nat) (clamps : Bool) : Live :=
  let id := l.plan.nextEdge + 1
  let l := { l with plan := { l.plan with nextEdge := id } }
  let booked := l.bookWork id tick w
  if l.clamping w.src then
    { booked with plan := { booked.plan with
      edges := booked.plan.edges ++ [Edge.mk id w prio latUs l.mt.now .placed tick false false none none none] } }
  else
    let r := booked.executeWork w clamps
    if w.rises && r.1 != .ok then r.2.unbookEdge id else r.2

/-- A struck slot change is admitted by the generation build and in force from the next period start of its source (R172); the drive
of a bridge that runs is in force at once. -/
def Live.admitNow (l : Live) (src : Source) : Live :=
  match l.plan.changes.find? (fun (c : SlotChange) => c.slot.src == src) with
  | none => l
  | some c =>
    let others := l.plan.want.filter fun (x : Standing) => x.src != src
    let slot := match l.plan.want.find? (fun (x : Standing) => x.src == src) with
      | some o => { c.slot with offset := if o.period = c.slot.period then o.offset else c.slot.offset }
      | none => c.slot
    let rest := l.plan.changes.filter fun (x : SlotChange) => x.slot.src != src
    if !l.slotFits l.plan.budgetA others slot then l.refuseChange c
    else
      let l := ({ l with plan := { l.plan with want := insertSlot slot others, changes := rest } }).planDirty
      match src, c.drive with
      | .leg k, some (a, d, r) => (l.driveBridge k a d r).2
      | _, _ => { l with plan := { l.plan with changes := rest ++ [{ c with slot := slot, admitted := true }] } }

/-- A struck command of a load channel, by the rows of R104; a held channel takes its new CMD. -/
def Live.strikeLoad (l : Live) (tick n duty : Nat) (on clamps : Bool) : Live :=
  let l := (l.endFade n 1).withdraw (.load n)
  let c := l.ch n
  let cmd := if !on then LoadCmd.off else if duty = 65535 then .on else .pwm duty
  let edge := fun (l : Live) => l.strikeEdge tick (.load n duty on) c.cfg.prio c.cfg.latUs clamps
  let held := c.shed || c.dropped || c.state == 5 || c.state == 6 || c.state == 7 || c.clampHeld
  if c.latch then (if on then l else l.setCh n fun c => { c with cmd := .off })
  else if held then
    if on then l.setCh n fun c => { c with cmd := cmd }
    else if c.conducts then edge (l.cancelHeld n) else l.cancelHeld n
  else if !on then
    if c.conducts then edge l else if c.sw == .clamp then l.setCh n fun c => { c with cmd := .off } else l.cancelHeld n
  else if c.sw == .slew || (c.conducts && c.cmd == cmd) then l
  else if c.conducts then (l.askSlot (l.loadSlot n duty) cmd (c.cmd == .on) none).admitNow (.load n)
  else edge l

/-- A struck drive: of a bridge that runs, a change of its slot; a start is booked on the boundary tick and asks for its slot. -/
def Live.strikeBridge (l : Live) (tick k a d r : Nat) : Live :=
  let l := l.withdraw (.leg k)
  let edge := fun (l : Live) => l.strikeEdge tick (.bridge k a d r) (l.brc k).prio (l.brc k).latUs false
  if a < 2 then edge (l.forgetDropped (.leg k))
  else if l.isDropped (.leg k) then l.setBr k fun b => { b with action := a, target := d, ramp := r }
  else if (l.bridge k).runs then (l.askDrive (l.driveSlot k d) .on false none (some (a, d, r))).admitNow (.leg k)
  else
    let l := edge l
    if (l.bridge k).runs then l.askSlot (l.bridgeSlot k d) .on false none else l

/-- A struck change takes effect (R89, R172, R241, R246). -/
def Live.strikeChange (l : Live) (boundary : Nat) (clamps : List Nat) (s : Staged) : Live :=
  let tick := boundary / tickNs
  match s.change with
  | .load n duty on => l.strikeLoad tick n duty on (clamps.contains n)
  | .light n target fade _ =>
    if fade = 0 then l.strikeLoad tick n target (target != 0) (clamps.contains n)
    else ((l.startFade none n target fade ((boundary + frameNs - 1) / frameNs)).2).admitNow (.load n)
  | .bridge k a d r => l.strikeBridge tick k a d r
  | .show_ page => l.setLed fun (x : LedState) => { x with shows := x.shows ++ [LedShow.mk page boundary true none] }
  | .fio n on =>
    let l := l.withdraw (.fio n)
    let c := l.fioCh n
    if on || c.conducts then l.strikeEdge tick (.fio n on) c.cfg.prio c.cfg.latUs false
    else l.setFio n fun (x : FioCh) => { x with cmd := false, fpend := false, uvOff := false }

/-- Announces a Strike on this module: what is staged now is what it applies (R361). -/
def Live.announce (l : Live) (target seq : Nat) : Live :=
  ({ l with host := { l.host with staged := l.host.staged.map fun (x : Staged) => { x with struck := true } } }).setLink
    fun k => { k with strike := some { target := target, seq := seq }, strikeT := target, strikeSeq := seq }

/-- Applies the announced Strike at its boundary, which has come. -/
def Live.applyStrike (l : Live) (clamps : List Nat) (a : StrikeAnn) : Live :=
  let batch := (l.host.staged.filter (·.struck)).foldl (fun q s => insertStaged s q) []
  let boundary := a.target * cycleNs
  let l := { l with host := { l.host with staged := l.host.staged.filter fun (x : Staged) => !x.struck } }
  let l := l.setLink fun k => { k with strike := none, struckSeq := a.seq }
  let l := (finalChanges batch).foldl (fun l s => l.strikeChange boundary clamps s) l
  let l := if l.link.cfg.strikeOut then l.setLink fun k => { k with strikeLow := some boundary } else l
  l.raise 0x155 info 0 (le 4 a.target ++ le 2 a.seq ++ le 2 (min batch.length 0xFFFF))

/-- STRIKE_APPLY; `clamps` are the load channels whose output falls below -3.0 V when they turn off. -/
def strikeApply (clamps : List Nat) (l : Live) : Live :=
  match l.link.strike with
  | none => l
  | some a => if l.mt.now < a.target * cycleNs || !l.commandLayer then l else l.applyStrike clamps a

def execStrikeApply (clamps : List Nat) (s : State) : Result := .next (s.onLive (strikeApply clamps))

/-- STRIKE_LAND_RELEASE: the land rises 2 us after the boundary. -/
def strikeLandRelease (l : Live) : Live :=
  match l.link.strikeLow with
  | none => l
  | some t => if l.mt.now < t + us 2 then l else l.setLink fun k => { k with strikeLow := none }

def execStrikeLandRelease (s : State) : Result := .next (s.onLogic strikeLandRelease)

/-- Discards the staged changes as old as STAGE_MAX or older (R362). -/
def stageMaxExpiry (l : Live) : Live :=
  let old := fun (x : Staged) => decide (x.since + ms (1000 * l.link.cfg.stageMax) ≤ l.mt.now)
  let n := (l.host.staged.filter old).length
  if n = 0 then l
  else ({ l with host := { l.host with staged := l.host.staged.filter fun (x : Staged) => !old x } }).raise 0x156 warn 0 (le 2 n)

def execStageMaxExpiry (s : State) : Result := .next (s.onLogic stageMaxExpiry)

end Sys2Proof.Machine
end

