-- ==== Sys2Proof/Machine/Link.lean ====
section
/-! DEFINITION. The Bamsavin cascade link (13_bamsavin_cascade_link.md): cells and messages, the cycle as originated and
as received, positions and the acting master, breaks, membership authentication, and the LINK commands. -/

namespace Sys2Proof.Machine

/-! ### Cells and messages (R356, R358, R364) -/

/-- A slot of the cycle: its first byte and its cells. -/
def downAt : Nat := 224
def upAt : Nat := 1248
def evtAt : Nat := 2272
def ledAt : Nat := 2528
def bulkAt : Nat := 2912

def cycleLen : Nat := 3125

/-- A cell of one fragment. -/
def mkCell (type src dst mseq frag : Nat) (data : List Byte) : List Byte :=
  let head := le 1 type ++ le 1 src ++ le 1 dst ++ le 1 mseq ++ le 1 frag ++ le 1 data.length
  let body := padTo 56 data
  head ++ le 2 (crc16 (head ++ body)).toNat ++ body

def emptyCell : List Byte := List.replicate 64 0

def cellType (c : List Byte) : Nat := byteAt c 0
def cellSrc (c : List Byte) : Nat := byteAt c 1
def cellDst (c : List Byte) : Nat := byteAt c 2

def cellOk (c : List Byte) : Bool := rd c 6 2 == (crc16 (c.take 6 ++ c.drop 8)).toNat

/-- Data bytes of a cell that are used. -/
def cellData (c : List Byte) : List Byte := (c.drop 8).take (min 56 (byteAt c 5))

/-- A message as cells, in fragment order. -/
def messageCells (type src dst mseq : Nat) (bytes : List Byte) : List (List Byte) :=
  let parts := chunks 56 bytes
  (parts.zipIdx).map fun x => mkCell type src dst mseq (x.2 + if x.2 + 1 = parts.length then 128 else 0) x.1

/-- Adds a cell's data to the message it belongs to; the message when that was its last fragment. -/
def Live.takeFragment (l : Live) (c : List Byte) : Option LinkMsg × Live :=
  let key := fun (f : LinkFrag) => f.type == cellType c && f.src == cellSrc c && f.mseq == byteAt c 3
  let idx := byteAt c 4 % 128
  let old := l.link.frags.find? key
  let rest := l.link.frags.filter fun f => !key f
  let ok := if idx = 0 then true else old.any fun f => f.next == idx
  let bytes := (if idx = 0 then [] else (old.map (·.bytes)).getD []) ++ cellData c
  if !ok then (none, l.setLink fun k => { k with frags := rest })
  else if bit (byteAt c 4) 7 then
    (some { type := cellType c, src := cellSrc c, dst := cellDst c, mseq := byteAt c 3, bytes := bytes },
      l.setLink fun k => { k with frags := rest })
  else (none, l.setLink fun k => { k with frags := rest ++
    [{ type := cellType c, src := cellSrc c, dst := cellDst c, mseq := byteAt c 3, next := idx + 1, bytes := bytes }] })

/-- A cell for this module: its message, once whole, waits in the inbox. -/
def Live.readMessage (l : Live) (c : List Byte) : Live :=
  let r := l.takeFragment c
  match r.1 with
  | none => r.2
  | some m => r.2.setLink fun k => { k with inbox := k.inbox ++ [m] }

/-- Puts a message into the cells that this module sends in DOWN or UP. -/
def Live.sendMessage (l : Live) (type dst mseq : Nat) (bytes : List Byte) : Live :=
  l.setLink fun k => { k with cells := k.cells ++ messageCells type k.position dst mseq bytes }

/-- The 8-byte tag of a REQUEST or RESPONSE to or from a position under AUTH (R374). -/
def Live.messageTag (l : Live) (pos : Nat) (frame : List Byte) : Option (List Byte) :=
  (l.link.sessions.find? fun s => s.1 == pos).map fun s => (cmac s.2 frame).take 8

/-- AUTH is in force on the ring. -/
def Live.linkAuth (l : Live) : Bool := if l.acting then l.link.cfg.auth else l.link.authOk

/-- The frame with its tag where AUTH asks for one. -/
def Live.tagged (l : Live) (pos : Nat) (frame : List Byte) : List Byte :=
  if l.linkAuth then frame ++ (l.messageTag pos frame).getD (List.replicate 8 0) else frame

/-- The cells of a request that leaves, or leaves again: those of the master's broadcast `LED.FRAME` go in LED, untagged. -/
def Live.queueRequest (l : Live) (o : OutMsg) : Live :=
  if o.dst = 0x7F && rd o.frame 0 2 = 0x2802 && l.acting
  then l.setLink fun k => { k with ledCells := k.ledCells ++ messageCells 5 k.position 0x7F o.mseq o.frame }
  else l.sendMessage 1 o.dst o.mseq (l.tagged o.dst o.frame)

/-- Sends the command in a mailbox to another position, or to every member. -/
def Live.sendRequest (l : Live) (m : MbRef) (dst : Nat) (frame : List Byte) : Live :=
  let mseq := l.link.nextMseq
  let out := { mseq := mseq, dst := dst, owner := m, frame := frame, sentCycle := l.cycleNo, resends := 0, acked := false }
  (l.setLink fun k => { k with nextMseq := (mseq + 1) % 256, out := k.out ++ [out] }).queueRequest out

/-- The responses of relayed commands that have completed are given to the link. -/
def Live.sendReplies (l : Live) : Live :=
  (l.link.jobs.filter fun (j : RelayJob) => !j.sent && j.reply.isSome).foldl (fun l j =>
    let resp := j.reply.getD []
    let l := l.sendMessage 2 j.src j.mseq (l.tagged j.src (resp.take (16 + rd resp 4 2)))
    l.setLink fun k => { k with jobs := k.jobs.map fun (x : RelayJob) => if x.id == j.id then { x with sent := true } else x }) l

/-- Members other than the acting master, in position order. -/
def Live.others (l : Live) : List Nat :=
  (List.range 64).filter fun p => p != l.link.master && l.isMember p

/-- Cycles that n cells of one member take in UP (R366). -/
def Live.upCycles (l : Live) (n : Nat) : Nat := (n * l.others.length + 15) / 16

/-- A relayed command can cross the link, with the largest response, within the 1 ms of R78 (R365). -/
def Live.relayFits (l : Live) (reqLen respLen dst : Nat) : Bool :=
  let tag := if l.linkAuth then 8 else 0
  let nq := (reqLen + tag + 55) / 56
  let nr := (respLen + tag + 55) / 56
  let ahead := l.link.cells.length + nq
  let go := if l.acting then (ahead + 15) / 16 else l.upCycles ahead + (if dst = l.link.master then 0 else (nq + 15) / 16)
  let back := if l.acting then l.upCycles nr
    else (if dst = l.link.master then 0 else l.upCycles nr) + (nr + 15) / 16
  decide (go + back ≤ 8)

/-- A command that travels completes with TIMEOUT, a broadcast at each position that still owes its answer (R365, R375). -/
def Live.relayTimeout (l : Live) (o : OutMsg) : Live :=
  let l := l.setLink fun k => { k with out := k.out.filter fun (x : OutMsg) => x.mseq != o.mseq }
  if o.dst = 0x7F then
    (((l.link.gathers.find? fun (g : Gather) => g.owner == o.owner).map (·.waiting)).getD []).filter (· != l.link.position)
      |>.foldl (fun l p => l.gatherAnswer o.owner p Status.timeout.code) l
  else l.complete o.owner .timeout 0 []

def Live.timeoutAll (l : Live) : Live := l.link.out.foldl (fun l o => l.relayTimeout o) l

/-- What this master has under way to a member that has become silent completes with TIMEOUT (R365). -/
def Live.timeoutFor (l : Live) (pos : Nat) : Live :=
  let l := (l.link.out.filter fun (o : OutMsg) => o.dst == pos).foldl (fun l o => l.relayTimeout o) l
  (l.link.gathers.filter fun (g : Gather) => g.waiting.contains pos && pos != l.link.position).foldl (fun l g =>
    l.gatherAnswer g.owner pos Status.timeout.code) l

/-- A request of another member that passes the master on its way to a silent one is answered with TIMEOUT in its name (R365). -/
def Live.answerFor (l : Live) (c : List Byte) : Live :=
  let r := l.takeFragment c
  match r.1 with
  | some m =>
    if m.type = 1 then r.2.setLink fun k => { k with
      cells := k.cells ++ messageCells 2 m.dst m.src m.mseq ((respBytes m.bytes m.dst .timeout 0 []).take 16) } else r.2
  | none => r.2

/-! ### Positions and neighbours (R351, R353, R354) -/

/-- The position at the other end of a port, in the order of the roster. -/
def Live.beyond (l : Live) (port : Nat) : Nat :=
  let ps := (List.range 64).filter l.isMember
  let me := l.link.position
  if port = 0 then ((ps.filter (· < me)).getLast?).getD (ps.getLast?.getD 0)
  else ((ps.filter fun p => decide (me < p)).head?).getD (ps.head?.getD 0)

def Live.setPort (l : Live) (p : Nat) (f : LinkPort → LinkPort) : Live :=
  l.setLink fun k => { k with ports := k.ports.modify p f }

def Live.port (l : Live) (p : Nat) : LinkPort := l.link.ports.getD p LinkPort.init

/-- The port at which the primary stream comes in: LKA, or LKB while LKA is wrapped (R368). -/
def Live.primaryPort (l : Live) : Nat := if (l.port 0).wrapped then 1 else 0

/-- A module that may not take its position stays a guest. -/
def Live.becomeGuest (l : Live) (id sev : Nat) (bytes : List Byte) : Live :=
  if l.link.st == .guest then l
  else (l.raise id sev 0 bytes).setLink fun k => { k with st := .guest, position := 0xFF }

/-- The position of a module that a cycle with this HOP reaches: its old one when the roster holds it, else the next. -/
def Live.takePosition (l : Live) (hop : Nat) (forming : Bool) : Live :=
  let own := if forming then none else l.link.roster.find? fun (r : RosterEntry) => r.serial == Config.serial
  match own with
  | some r => if l.link.st == .guest then l else l.setLink fun k => { k with position := r.pos }
  | none =>
    if 63 < hop + 1 then l.becomeGuest 0x159 sevFault (le 1 hop)
    else if !forming && l.link.roster.any (fun (r : RosterEntry) => r.pos == hop + 1) then
      l.becomeGuest 0x158 warn (le 1 (hop + 1) ++ le 7 Config.serial)
    else if l.link.st == .guest && !forming then l
    else l.setLink fun k => { k with position := hop + 1, st := .forming }

/-! ### What a module reads and writes in a cycle -/

/-- Bit p of ALIVE for this module: F0 runs. -/
def Live.aliveBit (l : Live) : Nat := if l.commandLayer && l.link.position < 64 then 2 ^ l.link.position else 0

/-- A bad cell: counted, and reported at most once per 100 ms and port. -/
def Live.cellError (l : Live) (p : Nat) : Live :=
  let l := l.setLink fun k => { k with cellErrors := min 0xFFFFFFFF (k.cellErrors + 1) }
  let n := (l.port p).errs + 1
  let due := match (l.port p).errsRaised with
    | some t => decide (t + ms 100 ≤ l.mt.now)
    | none => true
  if due then (l.setPort p fun x => { x with errs := 0, errsRaised := some l.mt.now }).raise 0x15C warn p (le 4 n)
  else l.setPort p fun x => { x with errs := n }

/-- One 20-byte audio channel of a cycle whose samples were captured in cycle `cap`. -/
def Live.readAudio (l : Live) (c cap : Nat) (bs : List Byte) : Live :=
  if byteAt bs 0 = 0xFF || byteAt bs 0 = l.link.position || !bit (byteAt bs 1) 0 then l
  else
    let keep := l.audio.linkIn.filter fun x => decide (l.mt.now ≤ x.2.1 + ms 100)
    let got := (List.range 6).map fun i => (c, cap * cycleNs + (2 * i * cycleNs + 6) / 12, rdInt bs (2 + 3 * i) 3)
    { l with audio := { l.audio with linkIn := keep ++ got } }

/-- Another position carries a channel that this module has routed as well: said once (R287). -/
def Live.routeClash (l : Live) (c owner : Nat) : Live :=
  if l.audio.clash.contains c then l
  else ({ l with audio := { l.audio with clash := l.audio.clash ++ [c] } }).raise 0x0FA warn 0 (le 1 c ++ le 1 owner)

/-- The audio channel as this module sends it: its own samples, unless a lower position carries the channel; cleared when
it is no longer its own (R287, R363). -/
def Live.writeAudio (l : Live) (c cycle : Nat) (bs : List Byte) : List Byte × Live :=
  if l.audio.routes.contains (some c) && decide (byteAt bs 0 < l.link.position) then (bs, l.routeClash c (byteAt bs 0))
  else
    let l := { l with audio := { l.audio with clash := l.audio.clash.filter (· != c) } }
    if l.audio.routes.contains (some c) then
      let s := (l.audio.linkOut.filter fun x => x.1 == c && x.2.1 / cycleNs + 1 == cycle).map (·.2.2)
      (le 1 l.link.position ++ le 1 (b2n (!s.isEmpty)) ++ (List.range 6).flatMap fun i => leInt 3 (s.getD i 0), l)
    else if byteAt bs 0 = l.link.position then ([0xFF] ++ List.replicate 19 0, l)
    else (bs, l)

/-- A record of another module from its 16 bytes. -/
def EventRec.ofBytes (bs : List Byte) (origin now : Nat) : EventRec :=
  let w := rd bs 0 8
  { mtLo := w / 2 ^ 16, cause := w / 2 ^ 12 % 16, sev := w / 2 ^ 9 % 8, id := w % 512, payload := (bs.drop 8).take 8,
    origin := origin, entered := now }

/-- A relayed record enters the queues whose RELAY is set (R69, R93). -/
def Live.enterRelayed (l : Live) (r : EventRec) : Live :=
  let l := if l.host.relay && decide (l.host.minSev ≤ r.sev) then l.enterHost r else l
  if l.host.f1Relay && decide (l.host.f1MinSev ≤ r.sev) then l.enterF1 r else l

def Live.readEvents (l : Live) (c : List Byte) : Live :=
  if !l.commandLayer then l else (chunks 16 (cellData c)).foldl (fun l bs => l.enterRelayed (EventRec.ofBytes bs (cellSrc c) l.mt.now)) l

/-- A cell that this module may fill with its event records. -/
def Live.fillEvents (l : Live) : List Byte × Live :=
  let recs := l.link.evtQueue.take 3
  (mkCell 4 l.link.position 0x7F 0 0x80 (recs.flatMap EventRec.bytes),
    l.setLink fun k => { k with evtQueue := k.evtQueue.drop 3 })

/-- CAN entries for other positions become BULK cells, at most 64 waiting; a drop is reported by R315. -/
def Live.bulkCells (l : Live) : Live :=
  let l := l.can.linkOut.foldl (fun l x =>
    if 62 < l.link.bulk.length then l.fwdDropped (byteAt x.2 7 / 64) 2
    else
      let mseq := l.link.nextMseq
      l.setLink fun k => { k with
        nextMseq := (mseq + 1) % 256, bulk := k.bulk ++ messageCells 6 k.position x.1 mseq x.2 }) l
  l.setCan fun c => { c with linkOut := [] }

/-- A cell of EVT or BULK that is EMPTY takes what waits, when `may` still allows it; the cell, and whether one may still
be filled. -/
def Live.fillCell (l : Live) (bulk may : Bool) : List Byte × Bool × Live :=
  if !may || l.link.position == 0xFF then (emptyCell, may, l)
  else if bulk then
    match l.link.bulk with
    | x :: xs => (x, false, l.setLink fun k => { k with bulk := xs })
    | [] => (emptyCell, may, l)
  else if l.link.evtQueue.isEmpty then (emptyCell, may, l)
  else let r := l.fillEvents; (r.1, false, r.2)

/-- One EVT or BULK cell that has come: read, emptied by its origin (BULK by its destination), or filled. -/
def Live.passCell (l : Live) (port : Nat) (bulk may : Bool) (c : List Byte) : List Byte × Bool × Live :=
  let me := l.link.position
  let bad := cellType c != 0 && !cellOk c
  let l := if bad then l.cellError port else l
  if cellType c == 0 || bad then l.fillCell bulk may
  else if bulk && cellDst c == me then
    let r := l.takeFragment c
    (emptyCell, may, match r.1 with
      | some m => if m.type = 6 then r.2.toQueue (byteAt m.bytes 7 / 64) false m.bytes else r.2
      | none => r.2)
  else if cellSrc c == me then (emptyCell, may, l)
  else (c, may, if !bulk && cellType c == 4 then l.readEvents c else l)

/-- The cells of a slot, one after another. -/
def Live.overSlot (l : Live) (may : Bool) (cells : List (List Byte))
    (f : Live → Bool → List Byte → List Byte × Bool × Live) : List Byte × Live :=
  let r := cells.foldl (fun (a : List Byte × Bool × Live) c =>
    let x := f a.2.2 a.2.1 c
    (a.1 ++ x.1, x.2.1, x.2.2)) ([], may, l)
  (r.1, r.2.2)

/-- The EVT or BULK slot of a cycle that has come. -/
def Live.passSlot (l : Live) (port : Nat) (bulk may : Bool) (cells : List (List Byte)) : List Byte × Live :=
  l.overSlot may cells fun l may c => l.passCell port bulk may c

/-- The EVT or BULK slot that the master carries over: it fills an EMPTY cell, the others have been read. -/
def Live.fillSlot (l : Live) (bulk : Bool) (cells : List (List Byte)) : List Byte × Live :=
  l.overSlot true cells fun l may c => if cellType c = 0 then l.fillCell bulk may else (c, may, l)

def slotCells (bs : List Byte) (at_ n : Nat) : List (List Byte) := chunks 64 ((bs.drop at_).take (64 * n))

/-- A cell of DOWN, UP or LED read by a module it is for. -/
def Live.readCell (l : Live) (port : Nat) (c : List Byte) : Live :=
  if cellType c = 0 then l
  else if !cellOk c then l.cellError port
  else if (cellDst c == l.link.position || cellDst c == 0x7F) && cellSrc c != l.link.position &&
      (cellType c == 1 || cellType c == 2 || cellType c == 3 || cellType c == 5) then l.readMessage c
  else l

/-- The member that owns UP cell i of a cycle (R366). -/
def Live.upOwner (l : Live) (cycle i : Nat) : Nat :=
  let ps := l.others
  if ps.isEmpty then 0xFF else ps.getD ((16 * cycle + i) % ps.length) 0xFF

/-- The place of a position on the primary path, counted from the acting master. -/
def Live.pathIdx (l : Live) (p : Nat) : Nat := (p + 64 - l.link.master) % 64

/-- UP cell i as a member passes it on: its own, or an empty one of an owner upstream, takes the next cell that waits. -/
def Live.passUp (l : Live) (cycle i : Nat) (c : List Byte) : List Byte × Live :=
  let o := l.upOwner cycle i
  let mine := o == l.link.position || decide (l.pathIdx o < l.pathIdx l.link.position)
  match l.link.cells with
  | x :: xs => if mine && cellType c = 0 && l.isMember l.link.position
      then (x, l.setLink fun k => { k with cells := xs }) else (c, l)
  | [] => (c, l)

/-- Channel c of the AUDIO slot of a cycle. -/
def audioCell (bs : List Byte) (c : Nat) : List Byte := (bs.drop (64 + 20 * c)).take 20

/-- The AUDIO slot of a cycle as this module reads it.  Samples of an owner upstream were captured in the cycle before, those
carried over from downstream in the one before that. -/
def Live.hearAudio (l : Live) (cycle : Nat) (bs : List Byte) : Live :=
  (List.range 8).foldl (fun l c =>
    let x := audioCell bs c
    let fresh := decide (l.pathIdx (byteAt x 0) < l.pathIdx l.link.position) || l.acting
    l.readAudio c (if fresh then cycle - 1 else cycle - 2) x) l

/-- The AUDIO slot as this module sends it on. -/
def Live.fillAudio (l : Live) (cycle : Nat) (bs : List Byte) : List Byte × Live :=
  (List.range 8).foldl (fun (a : List Byte × Live) c =>
    let x := a.2.writeAudio c cycle (audioCell bs c)
    (a.1 ++ x.1, x.2)) ([], l)

/-- SYNC with its CRC (R357). -/
def syncBytes (kind master hop cycle mtTx acc alive strikeT strikeSeq sflags : Nat) : List Byte :=
  let b := le 1 kind ++ le 1 master ++ le 1 hop ++ le 4 cycle ++ le 8 mtTx ++ le 4 acc ++ le 8 alive ++ le 4 strikeT ++
    le 2 strikeSeq ++ le 1 sflags ++ List.replicate 27 0
  [0xBC] ++ b ++ le 2 (crc16 b).toNat

/-- A whole cycle from its slots; the trailer is idle. -/
def cycleBytes (sync audio down up evt led bulk : List Byte) : List Byte :=
  padTo cycleLen (sync ++ audio ++ down ++ up ++ evt ++ led ++ bulk)

/-- A cycle goes out on LKB_TX, and on LKA_TX as well where the hop beyond LKB is wrapped (R368). -/
def Live.sendCycle (l : Live) (bs : List Byte) : Live :=
  l.setLink fun k => { k with tx := bs, txA := if (k.ports.getD 1 LinkPort.init).wrapped then bs else k.txA }

/-! ### CYCLE_ORIGINATE (R355, R356) -/

/-- The next n cells of a queue, EMPTY ones after them. -/
def nextCells (n : Nat) (q : List (List Byte)) : List Byte :=
  (List.range n).flatMap fun i => q.getD i emptyCell

def Live.carried (l : Live) (at_ len : Nat) : List Byte :=
  ((l.link.carry.find? fun x => x.1 == at_).map (·.2)).getD
    (if at_ = 64 then (List.range 8).flatMap fun _ => [0xFF] ++ List.replicate 19 0 else List.replicate len 0)

/-- The modes in which the link runs. -/
def Live.linkRuns (l : Live) : Bool :=
  l.link.parkTx.isNone && (l.pwr.mode == .run || l.pwr.mode == .drain || l.pwr.mode == .wakeCheck)

/-- A module strapped MASTER that has just started listens for four cycles before it forms a ring.  DESIGN CHOICE: R372 has it find
an acting master, and gives no time for that. -/
def Live.listening (l : Live) : Bool :=
  l.link.st == .forming && !l.link.reform && decide (l.mt.now < l.link.runAt + 4 * cycleNs)

/-- CYCLE_ORIGINATE. -/
def cycleOriginate (l : Live) : Live :=
  let cycle := l.cycleNo
  if !l.acting || !l.linkRuns || l.listening || decide (cycle ≤ l.link.cycle) then l
  else
    let l := (l.sendReplies.bulkCells).setLink fun k => { k with cycle := cycle }
    let k := l.link
    let a := l.fillAudio cycle (List.replicate 64 0 ++ l.carried 64 160)
    let e := a.2.fillSlot false (chunks 64 (l.carried evtAt 256))
    let b := e.2.fillSlot true (chunks 64 (l.carried bulkAt 192))
    let valid := k.strikeT != 0 && decide (cycle ≤ k.strikeT)
    let wrapped := k.ports.any (·.wrapped)
    let sflags := b2n valid + 2 * b2n wrapped + 4 * b2n (k.st == .forming) + 8 * b2n k.cfg.auth
    let sync := syncBytes 0 k.position (if k.st == .forming then 0 else k.position) (cycle % 2 ^ 32) (cycle * cycleNs) 0
      l.aliveBit (k.strikeT % 2 ^ 32) k.strikeSeq sflags
    (b.2.setLink fun x => { x with cells := x.cells.drop 16, ledCells := x.ledCells.drop 6, carry := [] }).sendCycle
      (cycleBytes sync a.1 (nextCells 16 k.cells) (List.replicate 1024 0) e.1 (nextCells 6 k.ledCells) b.1)

def execCycleOriginate (s : State) : Result := .next (s.onLive cycleOriginate)

/-! ### SYNC_RECEIVED (R353 to R371) -/

/-- Extends the 32 low bits of a cycle number near the present one. -/
def Live.fullCycle (l : Live) (low : Nat) : Nat :=
  let n := l.cycleNo
  let t := n - n % 2 ^ 32 + low
  if t + 2 ^ 31 < n then t + 2 ^ 32 else if n + 2 ^ 31 < t then t - 2 ^ 32 else t

/-- STRIKE_T and STRIKE_SEQ of a SYNC: an announcement is taken before its target, a later sequence that was never seen
announced is missed (R361). -/
def Live.readStrike (l : Live) (low seq : Nat) (valid : Bool) : Live :=
  let d := (seq + 65536 - l.link.strikeSeq) % 65536
  let target := l.fullCycle low
  if d = 0 || 32768 ≤ d then l
  else if valid && decide (l.cycleNo < target) then l.announce target seq
  else (l.setLink fun k => { k with strikeSeq := seq, strikeT := target }).raise 0x155 warn 1
    (le 4 target ++ le 2 seq ++ le 2 0)

/-- Another module originates cycles as well: the MASTER-strapped one keeps the ring, between two ALTs the lower position
(R355). -/
def Live.masterConflict (l : Live) (other : Nat) : Live :=
  let role := fun p => ((l.link.roster.find? fun (r : RosterEntry) => r.pos == p).map (·.role)).getD (if p = 0 then 1 else 2)
  let keeps := if l.link.strap = 1 then true else if role other = 1 then false else decide (l.link.position < other)
  if keeps then
    if l.link.rival == some other then l
    else (l.setLink fun k => { k with rival := some other }).raise 0x154 warn 1 (le 1 other)
  else (l.raise 0x154 warn 0 (le 1 other)).setLink fun k => { k with st := .member, master := other, rival := none }

/-- The wrapped state of a port, with its event. -/
def Live.wrapPort (l : Live) (p cause sev : Nat) (parked : Bool) : Live :=
  let was := (l.port p).wrapped && (!parked || (l.port p).parked)
  let l := l.setPort p fun x => { x with
    lock := false, wrapped := true, brk := !parked, quiet := x.quiet || parked, parked := x.parked || parked }
  if was then l else l.raise 0x151 sev cause (le 1 p ++ le 1 (l.beyond p))

/-- What the acting master reads of its own cycle when it has come round: UP for it is read, UP for others goes down, and
AUDIO, EVT and BULK are carried over; DOWN and LED are emptied. -/
def Live.cycleReturns (l : Live) (port cycle : Nat) (bs : List Byte) : Live :=
  let up := slotCells bs upAt 16
  let l := up.foldl (fun l c => l.readCell port c) l
  let on := up.filter fun c => cellType c != 0 && cellOk c && cellDst c != l.link.position
  let lost := fun c => l.link.silent.contains (cellDst c)
  let l := l.setLink fun k => { k with cells := k.cells ++ on.filter fun c => !lost c }
  let l := (on.filter lost).foldl (fun l c => l.answerFor c) l
  let l := l.hearAudio cycle bs
  let e := l.passSlot port false false (slotCells bs evtAt 4)
  let b := e.2.passSlot port true false (slotCells bs bulkAt 3)
  b.2.setLink fun k => { k with
    carry := [(64, (bs.drop 64).take 160), (evtAt, e.1), (bulkAt, b.1)], lastSync := l.mt.now, rival := none,
    roster := k.roster.map fun (r : RosterEntry) => { r with alive := bit (rd bs 20 8) r.pos } }

/-- The measured delay of the hop that delivers on a port (R359). -/
def Live.hopOf (l : Live) (port : Nat) : Nat := if port = 0 then l.link.hopNs else l.link.hopBNs

/-- SYNC as this module forwards it: the delay so far grows by that of the hop and by 400 ns; on the primary pass the HOP
counts, and ALIVE and WRAPPED are updated (R357, R359, R368). -/
def Live.forwardSync (l : Live) (port : Nat) (primary : Bool) (bs : List Byte) : List Byte :=
  syncBytes 0 (byteAt bs 2) (byteAt bs 3 + b2n primary) (rd bs 4 4) (rd bs 8 8) (rd bs 16 4 + l.hopOf port + 400)
    (rd bs 20 8 ||| if primary then l.aliveBit else 0) (rd bs 28 4) (rd bs 32 2)
    (byteAt bs 34 ||| 2 * b2n (l.link.ports.any (·.wrapped)))

/-- What a member reads of a cycle that passes, and the cycle as it goes on.  A guest forwards only (R353). -/
def Live.cyclePasses (l : Live) (port cycle : Nat) (bs : List Byte) : Live :=
  if l.link.st == .guest then l.sendCycle (l.forwardSync port true bs ++ bs.drop 64)
  else
    let l := (l.sendReplies).bulkCells
    let l := (slotCells bs downAt 16 ++ slotCells bs ledAt 6).foldl (fun l c => l.readCell port c) l
    let a := (l.hearAudio cycle bs).fillAudio cycle bs
    let u := ((slotCells bs upAt 16).zipIdx).foldl (fun (r : List Byte × Live) x =>
      let y := r.2.passUp cycle x.2 x.1
      (r.1 ++ y.1, y.2)) ([], a.2)
    let e := u.2.passSlot port false true (slotCells bs evtAt 4)
    let b := e.2.passSlot port true true (slotCells bs bulkAt 3)
    b.2.sendCycle (cycleBytes (l.forwardSync port true bs) a.1 ((bs.drop downAt).take 1024) u.1 e.1 ((bs.drop ledAt).take 384) b.1)

/-- A formation under way is seen for the first time: messages in transit complete with TIMEOUT, and where the ring asks for it
the exchange of R373 is run anew (R375). -/
def Live.formsAnew (l : Live) : Live :=
  l.timeoutAll.setLink fun k => { k with
    reform := !k.roster.isEmpty, roster := [], cells := [], frags := [], inbox := [], authOk := false, sessions := [] }

/-- This module, with AUTH set, has refused the master, which it does not follow (R373). -/
def Live.refusesMaster (l : Live) : Bool := l.link.cfg.auth && l.link.authNext != 0

/-- A cycle of a master that this module follows. -/
def Live.followCycle (l : Live) (port : Nat) (bs : List Byte) : Live :=
  let forming := bit (byteAt bs 34) 2
  let l := if forming && l.link.st != .forming then l.formsAnew else l
  let l := l.setLink fun k => { k with
    cascaded := true, master := byteAt bs 2, ringAuth := bit (byteAt bs 34) 3,
    roster := k.roster.map fun (r : RosterEntry) => { r with alive := bit (rd bs 20 8) r.pos } }
  let l := l.takePosition (byteAt bs 3) forming
  let l := if l.commandLayer && !l.refusesMaster then
      (l.correctMt 0 ((rd bs 8 8 + rd bs 16 4 + l.hopOf port : Nat) - (l.mt.now : Int))).readStrike (rd bs 28 4) (rd bs 32 2)
        (bit (byteAt bs 34) 0)
    else l
  let l := l.setLink fun k => { k with lastSync := l.mt.now }
  l.cyclePasses port (rd bs 8 8 / cycleNs) bs

/-- A cycle at the port of the primary stream.  A module strapped MASTER that is only starting to form a ring, and finds an
acting master, joins it (R372). -/
def Live.primaryCycle (l : Live) (port : Nat) (bs : List Byte) : Live :=
  if !l.acting || (byteAt bs 2 != l.link.position && l.link.st == .forming && !l.link.reform) then l.followCycle port bs
  else if byteAt bs 2 = l.link.position then
    (l.setLink fun k => { k with cascaded := true }).cycleReturns port (rd bs 8 8 / cycleNs) bs
  else
    let l := l.masterConflict (byteAt bs 2)
    if l.acting then l else l.followCycle port bs

/-- A cycle on its secondary pass is forwarded unread on LKA_TX (R368). -/
def Live.secondaryCycle (l : Live) (bs : List Byte) : Live :=
  l.setLink fun k => { k with txA := l.forwardSync 1 false bs ++ bs.drop 64 }

/-- SYNC_RECEIVED: a cycle, an idle cycle, BREAK or BREAK_PARK at a port. -/
def syncReceived (d : Sync) (l : Live) : Live :=
  let bs := d.bytes
  let p := d.port % 2
  if !l.linkRuns || bs.length != cycleLen || rd bs 62 2 != (crc16 ((bs.drop 1).take 61)).toNat then l
  else
    let lock := fun (l : Live) => l.setPort p fun x => { x with lock := true, brk := false, parked := false, quiet := false }
    let l := if l.pwr.mode == .wakeCheck && byteAt bs 1 == 0 && decide (l.mt.now ≤ l.pwr.wake.checkAt + ms 10)
      then l.setPwr fun x => { x with wake := { x.wake with linkOk := true } } else l
    match byteAt bs 1 with
    | 0 =>
      let l := lock l
      if p = l.primaryPort then l.primaryCycle p bs else if p = 1 then l.secondaryCycle bs else l
    | 1 => lock l
    | 2 => l.wrapPort p 0 warn false
    | 3 => l.wrapPort p 2 notice true
    | _ => l

def execSyncReceived (d : Sync) (s : State) : Result := .next (s.onLive (syncReceived d))

/-! ### Hop delay, formation, silence (R353, R359, R370) -/

/-- HOP_PROBE: half the round trip less the turnaround, at 4 ns; LKB's input hop is on the path of a wrapped ring. -/
def hopProbe (port roundTripNs turnaroundNs : Nat) (l : Live) : Live :=
  let d := (roundTripNs - turnaroundNs) / 2 / 4 * 4
  l.setLink fun k => if port % 2 = 0 then { k with hopNs := d } else { k with hopBNs := d }

def execHopProbe (port : Nat) (x : RoundTrip) (s : State) : Result := .next (s.onLive (hopProbe port x.wholeNs x.turnNs))

def Live.rosterEntry (l : Live) (m : Member) : RosterEntry :=
  let old := l.link.roster.find? fun (r : RosterEntry) => r.pos == m.pos && r.serial == m.serial
  { pos := m.pos, serial := m.serial, role := m.role, hopNs := m.hopNs, alive := (old.map (·.alive)).getD true,
    auth := (old.map (·.auth)).getD false }

/-- FORMATION: the master's cycle has come back with these members on it, or a ROSTER message has brought them. -/
def formation (members : List Member) (l : Live) : Live :=
  let fresh := members.map l.rosterEntry
  let done := fun (l : Live) => (l.raise 0x150 notice (b2n l.link.reform)
    (le 1 l.link.roster.length ++ le 1 l.link.position)).setLink fun k => { k with reform := false }
  if l.acting then
    if l.link.st == .forming then
      let self : RosterEntry := { pos := l.link.position, serial := Config.serial, role := l.link.strap, hopNs := l.link.hopNs,
                                  alive := l.commandLayer, auth := true }
      done ((l.setLink fun k => { k with
        st := .master, roster := self :: fresh.filter fun r => r.pos != k.position && decide (r.pos < 64) }).runFree .link)
    else
      let free := fun (r : RosterEntry) =>
        decide (r.pos < 64) && l.link.roster.all fun (x : RosterEntry) => x.pos != r.pos && x.serial != r.serial
      l.setLink fun k => { k with roster := k.roster ++ fresh.filter free }
  else if !l.link.cascaded then l
  else
    let was := l.link.st
    let l := l.setLink fun k => { k with roster := fresh }
    match fresh.find? fun r => r.serial == Config.serial with
    | some r =>
      let out := l.link.ringAuth && !l.link.authOk
      let l := l.setLink fun k => { k with st := if out then .guest else .member, position := if out then 0xFF else r.pos }
      if was == .forming then done l else l
    | none =>
      match fresh.find? fun r => r.pos == l.link.position with
      | some r => l.becomeGuest 0x158 warn (le 1 r.pos ++ le 7 Config.serial)
      | none => l

def execFormation (members : List Member) (s : State) : Result := .next (s.onLogic (formation members))

/-- The position lies beyond a wrapped hop of this module. -/
def Live.beyondBreak (l : Live) (pos : Nat) : Bool :=
  [0, 1].any fun p => (l.port p).wrapped && l.beyond p == pos

/-- Marks a member silent or heard. -/
def Live.markSilent (l : Live) (pos : Nat) (silent : Bool) : Live :=
  l.setLink fun k => { k with
    silent := if silent then k.silent ++ [pos] else k.silent.filter (· != pos),
    roster := k.roster.map fun (r : RosterEntry) => if r.pos == pos then { r with alive := !silent } else r }

/-- MEMBER_SILENT: a member's ALIVE bit has been clear for so many cycles; unreachable when it lies beyond a wrap.  The acting
master completes what it relays to that member (R365). -/
def memberSilent (pos clearCycles : Nat) (unreachable : Bool) (l : Live) : Live :=
  let known := l.link.silent.contains pos
  let bytes := le 1 pos ++ le 1 l.link.position
  let may := if unreachable then l.beyondBreak pos else l.acting
  if !l.isMember pos then l
  else if 8 ≤ clearCycles && !known && may then
    let l := (l.markSilent pos true).raise 0x152 sevFault (b2n unreachable) bytes
    if l.acting then l.timeoutFor pos else l
  else if clearCycles = 0 && known then (l.markSilent pos false).raise 0x152 notice 2 bytes
  else l

def execMemberSilent (pos clearCycles : Nat) (unreachable : Bool) (s : State) : Result :=
  .next (s.onLogic (memberSilent pos clearCycles unreachable))

/-! ### Breaks (R368, R369) -/

/-- LOSS_OF_LOCK: the port has lost its input; BREAK goes out on it and both sides wrap. -/
def lossOfLock (port : Nat) (l : Live) : Live :=
  if !(l.port (port % 2)).lock then l else l.wrapPort (port % 2) 0 warn false

def execLossOfLock (port : Nat) (s : State) : Result := .next (s.onLive (lossOfLock port))

/-- UNWRAP: a hop valid for 100 ms, at a boundary of a cycle whose number is a multiple of 64. -/
def unwrap (port validForNs : Nat) (l : Live) : Live :=
  let p := port % 2
  if !(l.port p).wrapped || decide (validForNs < ms 100) || l.cycleNo % 64 != 0 then l
  else (l.setPort p fun x => { x with wrapped := false, lock := true, brk := false, quiet := false, parked := false }).raise 0x151 warn 1
    (le 1 p ++ le 1 (l.beyond p))

def execUnwrap (port validForNs : Nat) (s : State) : Result := .next (s.onLive (unwrap port validForNs))

/-- PORT_QUIET: a port without partner for 10 ms stops transmitting. -/
def portQuiet (port quietForNs : Nat) (l : Live) : Live :=
  if (l.port (port % 2)).lock || decide (quietForNs < ms 10) || l.link.wakeTx.isSome then l
  else l.setPort (port % 2) fun x => { x with quiet := true, brk := false }

def execPortQuiet (port quietForNs : Nat) (s : State) : Result := .next (s.onLive (portQuiet port quietForNs))

/-- Asks for the link wake: cycles for 20 ms on every quiet port. -/
def Live.linkWake (l : Live) : Live := l.setLink fun k => { k with wakeTx := some (l.mt.now + ms 20) }

/-- LINK_WAKE_TRANSMIT: the ports transmit, and those still without a partner after 20 ms are quiet again. -/
def linkWakeTransmit (l : Live) : Live :=
  match l.link.wakeTx with
  | none => l
  | some t =>
    if l.mt.now < t then l.setLink fun k => { k with ports := k.ports.map fun (x : LinkPort) => { x with quiet := false } }
    else l.setLink fun k => { k with
      wakeTx := none, ports := k.ports.map fun (x : LinkPort) => { x with quiet := !x.lock } }

def execLinkWakeTransmit (s : State) : Result := .next (s.onLive linkWakeTransmit)

/-- Entry to RUN: the link wake, and a module strapped MASTER that has no ring forms one (R353, R369). -/
def Live.linkRun (l : Live) : Live :=
  let l := l.linkWake.setLink fun k => { k with runAt := l.mt.now, parkTx := none }
  if l.link.strap = 1 && l.link.st == .alone
  then l.setLink fun k => { k with st := .forming, position := 0, master := 0, cycle := l.cycleNo } else l

/-- NOT_CASCADED: neither port has lock within 100 ms of entering RUN. -/
def notCascaded (l : Live) : Live :=
  if l.link.ports.any (·.lock) || l.pwr.mode != .run || decide (l.mt.now < l.link.runAt + ms 100) then l
  else (l.setLink fun k => { k with st := .alone, cascaded := false, position := 0, roster := [] }).runFree .link

def execNotCascaded (s : State) : Result := .next (s.onLogic notCascaded)

/-! ### Master failure (R371, R372) -/

/-- The rank of this module among the ALTs that the roster shows ALIVE; a MASTER-strapped member counts as rank 0, before
them all (R371, R372). -/
def Live.altRank (l : Live) : Option Nat :=
  let other := fun (r : RosterEntry) => r.alive && r.pos != l.link.master && r.pos != l.link.position
  if l.link.strap = 1 then some 0
  else if l.link.strap = 2 then some (l.link.roster.countP fun (r : RosterEntry) =>
    other r && (r.role == 1 || (r.role == 2 && decide (r.pos < l.link.position))))
  else none

/-- MASTER_TAKEOVER; the new master's own MT runs free, or from CAN, since R27 gives it no link source. -/
def masterTakeover (l : Live) : Live :=
  match l.altRank with
  | none => l
  | some k =>
    if l.link.st != .member || l.pwr.mode == .drain || !l.commandLayer || decide (l.mt.now < l.link.lastSync + 4 * (k + 1) * cycleNs)
    then l
    else
      let old := l.link.master
      let l := (if l.mt.source == .link then l.loseMt 0 0xFF else l).runFree .link
      let l := l.setLink fun x => { x with
        st := .master, master := x.position, cycle := l.cycleNo, cells := [], frags := [], inbox := [], carry := [] }
      ({ l with host := { l.host with relay := true } }).raise 0x153 warn 0 (le 1 l.link.position ++ le 1 old)

def execMasterTakeover (s : State) : Result := .next (s.onLive masterTakeover)

/-- MT_SOURCE_LOST (R29): four cycles without sync, or three reference periods without a reference message. -/
def mtSourceLost (l : Live) : Live :=
  match l.mt.source with
  | .link => if l.mt.now < l.link.lastSync + 4 * cycleNs then l else l.loseMt 0 0xFF
  | .can => match l.can.source with
    | none => l
    | some t => if l.mt.now < t.lastRef + ms (3 * t.refMs) then l
      else (l.setCan fun c => { c with source := some { t with good := 0 } }).loseMt 1 t.ch
  | _ => l

def execMtSourceLost (s : State) : Result := .next (s.onLive mtSourceLost)

/-! ### Membership authentication (R373, R418) -/

/-- The tag key of a pair (R374). -/
def State.linkSession (s : State) (other : Nat) (mChal cChal : List Byte) : List Byte :=
  let a := min Config.serial other
  let b := max Config.serial other
  (s.serviceKdf s.live.link.cfg.keySlot "ZZ-LKSES" (le 8 a ++ le 8 b ++ mChal ++ cChal)).getD []

/-- The master's side: the member proves itself, or stays a guest. -/
def State.authMember (s : State) (a : AuthData) : State :=
  let good := a.inTime && match s.serviceKdf s.live.link.cfg.keySlot "ZZ-LKMBR" (le 8 a.serial) with
    | none => false
    | some k => cmac k (a.masterChal ++ le 8 a.serial ++ le 1 a.pos) == a.mac
  let key := s.linkSession a.serial a.masterChal a.memberChal
  s.onLive fun l =>
    if good then (l.setLink fun k => { k with
      roster := k.roster.map fun (r : RosterEntry) => if r.pos == a.pos then { r with auth := true } else r,
      sessions := k.sessions.filter (fun x => x.1 != a.pos) ++ [(a.pos, key)] }).raise 0x157 notice 0 (le 1 a.pos)
    else (l.setLink fun k => { k with
      roster := k.roster.filter (fun (r : RosterEntry) => r.pos != a.pos),
      sessions := k.sessions.filter (fun x => x.1 != a.pos) }).raise 0x157 sevFault 1 (le 1 a.pos)

/-- The module's side: the master proves itself, or is not followed. -/
def State.authMaster (s : State) (a : AuthData) : State :=
  let good := a.inTime && match s.serviceKdf s.live.link.cfg.keySlot "ZZ-LKMBR" (le 8 Config.serial) with
    | none => false
    | some k => cmac k (a.memberChal ++ le 8 a.serial) == a.mac
  let key := s.linkSession a.serial a.masterChal a.memberChal
  s.onLive fun l =>
    if good then (l.setLink fun k => { k with
      st := if k.st == .guest then .forming else k.st, authOk := true, authNext := 0,
      sessions := [(a.pos, key)] }).raise 0x157 notice 0 (le 1 a.pos)
    else (l.setLink fun k => { k with
      st := .guest, position := 0xFF, authOk := false, authNext := l.mt.now + ms 1000, sessions := [] }).raise
      0x157 sevFault 1 (le 1 a.pos)

/-- MEMBERSHIP_AUTH: the exchange has ended. -/
def membershipAuth (a : AuthData) (s : State) : State :=
  if !s.live.link.cascaded then s
  else
    let s := s.serviceRefused s.live.link.cfg.keySlot 0x4801
    if s.live.acting then s.authMember a else s.authMaster a

def execMembershipAuth (a : AuthData) (s : State) : Result := .next (membershipAuth a s)

/-- AUTH_RETRY: a module that was refused tries again every 1 s. -/
def authRetry (l : Live) : Live :=
  if l.link.st == .guest && l.link.authNext != 0 && decide (l.link.authNext ≤ l.mt.now)
  then l.setLink fun k => { k with authNext := l.mt.now + ms 1000 } else l

def execAuthRetry (s : State) : Result := .next (s.onLogic authRetry)

/-! ### Commands (R376 to R380) -/

def LinkCfg.ofBytes (p : List Byte) : LinkCfg :=
  { auth := bit (byteAt p 0) 1, strikeOut := bit (byteAt p 0) 2, keySlot := byteAt p 1, lead := rd p 2 2, stageMax := rd p 4 2 }

/-- Puts a configuration in force; a lower STAGE_MAX discards at once what is older (R362). -/
def Live.applyLinkCfg (l : Live) (p : List Byte) : Live :=
  stageMaxExpiry (l.setLink fun k => { k with cfg := LinkCfg.ofBytes p })

def linkConfig (m : MbRef) (b : Mailbox) (l : Live) : Reply × Live :=
  let p := b.payload
  checked [(0, decide (byteAt p 0 < 8)), (1, decide (byteAt p 1 ≤ 63)), (2, inRange 4 800 (rd p 2 2)),
      (4, inRange 1 3600 (rd p 4 2)), resv b 6 2]
    ((l.applyLinkCfg p).endConfig m (bit (byteAt p 0) 0) 0x4801 0 p) fun r => (r, l)

def execLinkConfig (s : State) : Result := .next (s.command 0x4801 fun m b l => linkConfig m b l)

def LinkPhase.code : LinkPhase → Nat
  | .alone => 0 | .forming => 1 | .member => 2 | .master => 3 | .guest => 4

def Live.linkRecord (l : Live) : List Byte :=
  let k := l.link
  let auth := if l.acting then k.cfg.auth else k.authOk
  le 1 k.strap ++ le 1 k.st.code ++ le 1 k.position ++ le 1 k.master ++ le 1 k.roster.length ++
    le 1 (b2n (k.ports.any (·.wrapped)) + 2 * b2n (l.port 0).lock + 4 * b2n (l.port 1).lock + 8 * b2n auth) ++ le 2 0 ++
    le 4 l.cycleNo ++ le 2 k.struckSeq ++ le 2 l.host.staged.length ++ le 2 k.hopNs ++ le 2 0 ++ le 4 k.cellErrors ++
    le 4 k.evtTotal ++ le 4 0

def execLinkStatus (s : State) : Result := .next (s.command 0x4802 fun _ _ l => (.done .ok 0 l.linkRecord, l))

/-- LINK.STRIKE: scheduled here when not cascaded, asked of the acting master otherwise, where the relay takes it (R365, R378). -/
def linkStrike (m : MbRef) (b : Mailbox) (l : Live) : Reply × Live :=
  let lead := rd b.payload 0 2
  let target := l.cycleNo + if lead = 0 then l.link.cfg.lead else lead
  checked [(0, lead == 0 || inRange 4 8000 lead), resv b 2 2]
    (if l.link.cascaded && !l.acting then
       if l.pathOut 3 then (refuse .internal, l)
       else if !l.relayFits (16 + b.len) 24 l.link.master then (refuse .busy 2, l)
       else (.wait, l.sendRequest m l.link.master (splice (b.bytes.take (16 + b.len)) 6 (le 1 l.link.master)))
     else if l.link.strike.isSome || l.link.strikeReq.isSome then (refuse .busy 3, l)
     else if l.link.cascaded then (.wait, l.setLink fun k => { k with strikeReq := some { target := target, owner := m } })
     else
       let seq := (l.link.strikeSeq + 1) % 65536
       (.done .ok 0 (le 4 target ++ le 2 seq ++ le 2 0), l.announce target seq))
    fun r => (r, l)

def execLinkStrike (s : State) : Result := .next (s.command 0x4803 fun m b l => linkStrike m b l)

/-- STRIKE_ANNOUNCE (R360): the acting master announces what it was asked for, STRIKE_LEAD away or later. -/
def strikeAnnounce (l : Live) : Live :=
  match l.link.strikeReq with
  | none => l
  | some r =>
    if !l.acting || l.link.strike.isSome then l
    else
      let target := max r.target (l.cycleNo + l.link.cfg.lead)
      let seq := (l.link.strikeSeq + 1) % 65536
      ((l.announce target seq).setLink fun k => { k with strikeReq := none }).complete r.owner .ok 0
        (le 4 target ++ le 2 seq ++ le 2 0)

def execStrikeAnnounce (s : State) : Result := .next (s.onLogic strikeAnnounce)

def Live.memberRecord (l : Live) (r : RosterEntry) : List Byte :=
  le 1 r.pos ++ le 1 r.role ++ le 1 (b2n r.alive + 2 * b2n r.auth + 4 * b2n (r.pos == l.link.master)) ++ le 1 0 ++
    le 8 r.serial ++ le 2 r.hopNs ++ le 2 0

def execLinkMembers (s : State) : Result := .next (s.command 0x4804 fun _ b l =>
  let first := byteAt b.payload 0
  let rs := (List.range 64).flatMap fun p => l.link.roster.filter fun (r : RosterEntry) => r.pos == p
  let shown := (rs.filter fun r => decide (first ≤ r.pos)).take 30
  checked [(0, decide (first ≤ 63))]
    (.done .ok 0 (le 1 shown.length ++ le 1 rs.length ++ le 2 0 ++ shown.flatMap l.memberRecord), l) fun r => (r, l))

/-- LINK.REFORM: this module forms the ring anew from position 0; messages in transit complete with TIMEOUT (R375). -/
def execLinkReform (s : State) : Result := .next (s.command 0x4805 fun _ b l =>
  checked [resv b 0 4]
    (if !l.acting && l.link.strap != 1 then (refuse .state, l)
     else
       let l := l.timeoutAll.setLink fun k => { k with
         st := .forming, position := 0, master := 0, roster := [], reform := true, cells := [], frags := [], inbox := [],
         sessions := [], silent := [] }
       (refuse .pending, l))
    fun r => (r, l))

def execLinkWake (s : State) : Result := .next (s.command 0x4806 fun _ b l =>
  checked [resv b 0 4] (okReply, l.linkWake) fun r => (r, l))

end Sys2Proof.Machine
end

