-- ==== Sys2Proof/Machine/Token.lean ====
section
/-! DEFINITION. Crew token ranging and access (14_token_access.md): searches, rounds and their slots, attempts and grants,
tracking, enrolment, and the TOKEN commands. -/

namespace Sys2Proof.Machine

def Live.ant (l : Live) (a : Nat) : TokenAnt := l.token.ants.getD a TokenAnt.init

def Live.setAnt (l : Live) (a : Nat) (f : TokenAnt → TokenAnt) : Live :=
  l.setToken fun t => { t with ants := t.ants.modify a f }

def Live.tokenRec (l : Live) (r : Nat) : Option TokenRec := l.token.recs.getD r none

/-- A token event: byte 8 the antenna, byte 9 the record (R404). -/
def Live.tokenEvent (l : Live) (id sev cause ant rec_ : Nat) (bytes : List Byte) : Live :=
  l.raise id sev cause (le 1 ant ++ le 1 rec_ ++ bytes)

/-- An attempt begins on an antenna. -/
def Live.startAttempt (l : Live) (a : Nat) (enrol : Option EnrolJob) : Live :=
  l.setAnt a fun x => { x with
    attempt := some { rounds := 0, contended := 0, lastSlot := 0, nextAt := l.mt.now, seen := [], enrol := enrol },
    attempts := (x.attempts + 1) % 2 ^ 32 }

/-! ### Search (R384, R396) -/

/-- A search is due: at the next of its start times in RUN or when TOKEN.RANGE asked, every SEARCH_PARK_MS in PARK. -/
def Live.searchDue (l : Live) (a : Nat) : Bool :=
  let c := l.token.cfg
  let x := l.ant a
  let slot := fun t => (t + ms 10000 - ms c.offset) / ms c.searchMs
  match l.pwr.mode with
  | .run => l.sup.phase == .running && (x.asked || bit c.antEn a && c.searchMs != 0 && decide (slot x.searched < slot l.mt.now))
  | .park => bit l.pwr.wake.mask 4 && bit c.parkAnt a && decide (x.searched + ms (min 32000 (c.parkMs * 2 ^ l.nm.doublings.getD 21 0)) ≤ l.mt.now)
  | _ => false

/-- The antenna's reflected pulse (VSWR in 0.1): a fault after two bad searches, its end after two good ones. -/
def Live.antennaCheck (l : Live) (a vswr10 : Nat) : Live :=
  let bad := decide (30 < vswr10)
  let x := l.ant a
  let b := if bad then x.badRun + 1 else 0
  let g := if bad then 0 else x.goodRun + 1
  let f := if x.faulted then decide (g < 2) else decide (2 ≤ b)
  let l := l.setAnt a fun x => { x with badRun := b, goodRun := g, faulted := f }
  if f == x.faulted then l else l.tokenEvent 0x187 sevFault (b2n (!f)) a 0xFF (le 2 vswr10)

/-- TOKEN_SEARCH. -/
def tokenSearch (a : Nat) (hit : Bool) (vswr10 : Nat) (l : Live) : Live :=
  let held := a = 1 && (l.ant 0).attempt.isSome
  if 1 < a || !l.searchDue a || (l.ant a).attempt.isSome || held then l
  else
    let l := (l.setAnt a fun x => { x with asked := false, searched := l.mt.now }).antennaCheck a vswr10
    if !hit then l
    else
      let l := l.tokenEvent 0x186 info (b2n (l.pwr.mode == .park)) a 0xFF []
      if l.pwr.mode == .run then l.startAttempt a none else l

def execTokenSearch (ant : Nat) (hit : Bool) (vswr10 : Nat) (s : State) : Result :=
  .next (s.onLive (tokenSearch ant hit vswr10))

/-! ### One slot (R386 to R388) -/

/-- What a slot gives: a response with its TSTAT, or why not; distances in cm. -/
inductive SlotOutcome where
  | empty
  | valid (tstat cm : Nat)
  | invalid (reason cm spread : Nat)
  | contended
  | waiting (cm spread : Nat)
  deriving DecidableEq, Repr

/-- The token's key (R418). -/
def State.tokenKey (s : State) (id : Nat) : Option (List Byte) :=
  s.serviceKdf s.live.token.cfg.keySlot "ZZ-TOKEN" (le 4 id)

/-- Bit i of a byte list, the most significant bit of each byte first. -/
def bitAt (bs : List Byte) (i : Nat) : Bool := bit (byteAt bs (i / 8)) (7 - i % 8)

/-- The response keystream, 1344 bits. -/
def tokenStream (key challenge : List Byte) : List Byte := kdf (cmac key) (ascii "ZZ-TKSTR") challenge 1344

/-- One data bit from its 8 pulses; none when fewer than 7 agree. -/
def decideBit (stream : List Byte) (pulses : List Bool) (b : Nat) : Option Bool :=
  let ones := (List.range 8).countP fun q => pulses.getD (8 * b + q) false != bitAt stream (64 + 8 * b + q)
  if 7 ≤ ones then some true else if ones ≤ 1 then some false else none

/-- The 20 bytes of a response; none when a bit is undecided. -/
def decideBytes (stream : List Byte) (pulses : List Bool) : Option (List Byte) :=
  (List.range 20).mapM fun k =>
    (List.range 8).foldl (fun (a : Option Byte) q => do
      let v ← a
      let b ← decideBit stream pulses (8 * k + q)
      pure (v * 2 + if b then 1 else 0)) (some 0)

/-- The excess delays of a response in ps, for its preamble and its 20 groups (R387). -/
def excesses (slot delay : Nat) (firstPs : List Int) : List Int :=
  (List.range 21).map fun j =>
    firstPs.getD j 0 - ((150000000 + slot * 100000000 + j * 4096000 + 20 * delay : Nat) : Int)

/-- The distance of an excess in cm, to the nearest. -/
def cmOf (ps : Int) : Nat := ((ps * 149896 + 5000000) / 10000000).toNat

def maxInt (xs : List Int) : Int := xs.foldl max (xs.headD 0)
def minInt (xs : List Int) : Int := xs.foldl min (xs.headD 0)

/-- Judges the response in a slot listed for a token. -/
def State.judgeSlot (s : State) (ant round slot id : Nat) (challenge : List Byte) (r : SlotResp) : SlotOutcome :=
  let ex := excesses slot (s.live.ant ant).delay r.firstPs
  let cm := cmOf (maxInt ex)
  let spread := cmOf (maxInt ex - minInt ex)
  if !r.energy then .empty
  else if r.unverified then .waiting cm spread
  else match s.tokenKey id with
    | none => .invalid 3 cm spread
    | some key => match decideBytes (tokenStream key challenge) r.pulses with
      | none => .contended
      | some bs =>
        if cmac key (challenge ++ le 4 id ++ le 1 round ++ bs.take 4) != bs.drop 4 then .invalid 0 cm spread
        else if 300000000 < (maxInt ex - minInt ex) * 149896 then .invalid 1 cm spread
        else .valid (rd bs 0 4) cm

/-! ### One round (R385) -/

/-- A random order: each place from the last down takes one of those before it, by two bytes of the DRBG. -/
def shuffle (xs : List Nat) (rnd : List Byte) : List Nat :=
  (List.range (xs.length - 1)).foldl (fun ys i =>
    let k := xs.length - 1 - i
    let j := rd rnd (2 * i) 2 % (k + 1)
    (ys.set k (ys.getD j 0)).set j (ys.getD k 0)) xs

/-- The index by which a slot map names the token that is being enrolled. -/
def enrolIdx : Nat := 32

/-- The TOKEN_ID that a slot map index names. -/
def Live.listedId (l : Live) (a i : Nat) : Option Nat :=
  if i = enrolIdx then ((l.ant a).attempt.bind (·.enrol)).map (·.id) else (l.tokenRec i).map (·.id)

/-- The channel of a round of an attempt, 1 CH_LO and 2 CH_HI: with CHANNELS 3 the two alternate from CH_LO.  DESIGN CHOICE: the
channel byte takes the values of CHANNELS; a tracking round counts as round 0 and runs on CH_LO where both may be used. -/
def Live.roundChannel (l : Live) (round : Nat) : Nat :=
  if l.token.cfg.channels = 3 then (if round = 0 then 1 else 2 - round % 2) else l.token.cfg.channels

/-- The challenge frame of a round (R385). -/
def Live.challengeFrame (l : Live) (a round : Nat) (challenge : List Byte) (map : List Nat) : List Byte :=
  le 4 l.token.cfg.fleetTag ++ le 1 round ++ le 1 (l.roundChannel round) ++ le 2 0 ++ challenge ++ le 1 map.length ++ le 3 0 ++
    map.flatMap fun i => le 4 ((l.listedId a i).getD 0)

/-- Draws a round's CHALLENGE and slot map and sends the challenge frame; none while the DRBG is stopped. -/
def Live.drawRound (l : Live) (a round : Nat) (listed : List Nat) : Option (List Byte × List Nat) × Live :=
  match l.random 16 with
  | (none, l) => (none, l)
  | (some c, l) => match l.random (2 * listed.length) with
    | (none, l) => (none, l)
    | (some r, l) =>
      let map := shuffle listed r
      (some (c, map), l.setToken fun t => { t with challenge := c, slotMap := map, frame := l.challengeFrame a round c map })

/-- The outcomes of a round's slots: slot, index of the token listed, outcome. -/
def State.judgeRound (s : State) (ant round : Nat) (challenge : List Byte) (map : List Nat) (rs : List SlotResp) :
    List (Nat × Nat × SlotOutcome) :=
  rs.filterMap fun r =>
    if map.length ≤ r.slot then
      if r.energy then some (r.slot, 0xFF, .invalid 2 (cmOf (maxInt (excesses r.slot (s.live.ant ant).delay r.firstPs))) 0)
      else none
    else
      let i := map.getD r.slot 0
      (s.live.listedId ant i).map fun id => (r.slot, i, s.judgeSlot ant round r.slot id challenge r)

/-- Responses that could not be judged for want of a usable fleet key (R22, R397, R418). -/
def State.unjudged (s : State) (res : List (Nat × Nat × SlotOutcome)) : State :=
  let keyless := res.any fun x => match x.2.2 with
    | .invalid reason _ _ => reason == 3
    | _ => false
  if keyless then s.serviceRefused s.live.token.cfg.keySlot 0x5001 else s

/-- Each INVALID slot raises its event (R388), and a slot that waits for the key store is remembered. -/
def Live.noteSlot (l : Live) (a : Nat) (x : Nat × Nat × SlotOutcome) : Live :=
  match x.2.2 with
  | .invalid reason cm spread =>
    l.tokenEvent 0x183 warn reason a (if 32 ≤ x.2.1 then 0xFF else x.2.1) (le 1 x.1 ++ le 2 cm ++ le 2 spread)
  | .waiting cm spread => l.setAnt a fun t => { t with
      waits := t.waits ++ [{ slot := x.1, rec_ := x.2.1, cm := cm, spread := spread, since := l.mt.now }] }
  | _ => l

def isContended (x : Nat × Nat × SlotOutcome) : Bool := x.2.2 == .contended

/-- VERIFY_TIMEOUT: 5 ms after its round a slot still unverified is INVALID (R397). -/
def verifyTimeout (a slot : Nat) (l : Live) : Live :=
  match (l.ant a).waits.find? fun (w : TokenWait) => w.slot == slot && decide (w.since + ms 5 ≤ l.mt.now) with
  | none => l
  | some w => (l.setAnt a fun t => { t with waits := t.waits.filter fun x => x != w }).tokenEvent 0x183 warn 3 a
      (if 32 ≤ w.rec_ then 0xFF else w.rec_) (le 1 slot ++ le 2 w.cm ++ le 2 w.spread)

def execVerifyTimeout (ant slot : Nat) (s : State) : Result := .next (s.onLogic (verifyTimeout ant slot))

/-! ### Records (R393, R395) -/

/-- The persisted form of a record; none for a free one. -/
def tokenBytes : Option TokenRec → List Byte
  | none => [0]
  | some r => [1] ++ le 4 r.id ++ le 1 (r.rights.getD 0 0) ++ le 1 (r.rights.getD 1 0) ++ le 1 (b2n r.stationary) ++ le 8 r.enrolMt

def tokenOfBytes (p : List Byte) : Option TokenRec :=
  if byteAt p 0 = 1 then some { id := rd p 1 4, rights := [byteAt p 5, byteAt p 6], stationary := byteAt p 7 == 1,
                                enrolMt := rd p 8 8, battLow := false, lastCm := none }
  else none

def Live.setRec (l : Live) (r : Nat) (x : Option TokenRec) : Live := l.setToken fun t => { t with recs := t.recs.set r x }

/-- What a VALID response tells of its token: its distance, its battery, and the loss of its motion sleep. -/
def Live.tokenHeard (l : Live) (a r tstat cm : Nat) : Live :=
  match l.tokenRec r with
  | none => l
  | some t =>
    let low := bit tstat 1
    let still := !bit tstat 0 && !t.stationary
    let t' := { t with lastCm := some cm, battLow := low, stationary := t.stationary || still }
    let l := l.setRec r (some t')
    let l := if still then (l.persistOwn 0x5003 r (tokenBytes (some t'))).tokenEvent 0x185 notice 2 a r (le 4 t.id) else l
    if low && !t.battLow then l.tokenEvent 0x188 notice 0 a r (le 4 t.id ++ le 1 (tstat / 256 % 256)) else l

/-- The zones of an antenna that a token's rights permit and that hold every one of these distances, lowest first. -/
def Live.zonesFor (l : Live) (a r : Nat) (cms : List Nat) : List Nat :=
  let rights := ((l.tokenRec r).map fun t => t.rights.getD a 0).getD 0
  (List.range 8).filter fun z =>
    let n := (l.ant a).zones.getD z (0, 0)
    bit rights z && n.2 != 0 && cms.all fun d => decide (n.1 ≤ d) && decide (d ≤ n.2)

/-! ### Attempts (R389, R390, R395) -/

def Live.setAttempt (l : Live) (a : Nat) (x : Option TokenAttempt) : Live := l.setAnt a fun t => { t with attempt := x }

/-- A VALID slot in an attempt: it may complete a pair with the round before. -/
def Live.attemptValid (l : Live) (a r tstat cm : Nat) (at_ : TokenAttempt) : TokenAttempt × Live :=
  let old := (at_.seen.find? fun (x : TokenSeen) => x.rec_ == r).getD { rec_ := r, prev := none, deny := 0, last := 0, granted := false }
  let rest := at_.seen.filter fun (x : TokenSeen) => x.rec_ != r
  let put := fun (x : TokenSeen) => { at_ with seen := rest ++ [{ x with prev := some cm, last := cm }] }
  let stationary := ((l.tokenRec r).map (·.stationary)).getD false
  let held := (l.ant a).grants.any fun (g : TokenGrant) => g.rec_ == r
  if old.granted || held then (put { old with granted := true }, l)
  else match old.prev with
    | none => (put old, l)
    | some d =>
      if l.token.cfg.consist < max d cm - min d cm then (put { old with deny := 1 }, l)
      else match l.zonesFor a r [d, cm] with
        | [] => (put { old with deny := 2 }, l)
        | z :: _ =>
          if l.token.cfg.refuseStationary && stationary
          then (put { old with granted := true }, l.tokenEvent 0x181 warn 3 a r (le 2 cm))
          else
            let l := l.setAnt a fun t => { t with
              grants := t.grants ++ [{ rec_ := r, zone := z, misses := 0 }],
              trackAt := if t.grants.isEmpty then l.mt.now + ms l.token.cfg.trackMs else t.trackAt }
            (put { old with granted := true }, l.tokenEvent 0x180 notice 0 a r (le 1 z ++ le 2 cm ++ le 1 (tstat / 256 % 256)))

/-- The lowest free record. -/
def Live.freeRec (l : Live) : Nat := ((List.range 32).find? fun r => (l.tokenRec r).isNone).getD 0

/-- A pair of rounds enrols the token. -/
def Live.enrolled (l : Live) (a : Nat) (j : EnrolJob) (tstat cm : Nat) : Live :=
  let r := l.freeRec
  let t : TokenRec := { id := j.id, rights := j.rights, stationary := !bit tstat 0, enrolMt := l.mt.now, battLow := bit tstat 1,
                        lastCm := some cm }
  ((l.setRec r (some t)).tokenEvent 0x185 notice 0 a r (le 4 j.id)).enqueue (.config 0x5003 r (tokenBytes (some t)))
    (some j.owner) (le 1 r ++ le 4 tstat ++ le 2 cm ++ le 1 0) true

/-- The slot of the token that is being enrolled. -/
def Live.enrolValid (l : Live) (a tstat cm : Nat) (at_ : TokenAttempt) : TokenAttempt × Live :=
  match at_.enrol with
  | none => (at_, l)
  | some j =>
    let old := at_.seen.find? fun (x : TokenSeen) => x.rec_ == enrolIdx
    let rest := at_.seen.filter fun (x : TokenSeen) => x.rec_ != enrolIdx
    let pair := (old.bind (·.prev)).any fun d => decide (d ≤ 100) && decide (cm ≤ 100) &&
      decide (max d cm - min d cm ≤ l.token.cfg.consist)
    if pair then
      ({ at_ with seen := rest ++ [{ rec_ := enrolIdx, prev := none, deny := 0, last := cm, granted := true }], enrol := none },
        l.enrolled a j tstat cm)
    else ({ at_ with seen := rest ++ [{ rec_ := enrolIdx, prev := some cm, deny := 0, last := cm, granted := false }] }, l)

/-- The slots of a round that is not discarded. -/
def Live.roundStands (l : Live) (a : Nat) (at_ : TokenAttempt) (res : List (Nat × Nat × SlotOutcome)) : TokenAttempt × Live :=
  let valid := fun (r : Nat) => res.any fun x => x.2.1 == r && match x.2.2 with
    | .valid _ _ => true
    | _ => false
  let at_ := { at_ with seen := at_.seen.map fun (x : TokenSeen) => if valid x.rec_ then x else { x with prev := none } }
  res.foldl (fun (p : TokenAttempt × Live) x => match x.2.2 with
    | .valid tstat cm =>
      if x.2.1 = enrolIdx then p.2.enrolValid a tstat cm p.1
      else (p.2.tokenHeard a x.2.1 tstat cm).attemptValid a x.2.1 tstat cm p.1
    | _ => p) (at_, l)

/-- The end of a round: the attempt goes on, or ends by the rows of R390. -/
def Live.afterRound (l : Live) (a : Nat) (at_ : TokenAttempt) : Live :=
  let settled := !at_.seen.isEmpty && at_.seen.all (·.granted) && at_.enrol.isNone
  if settled then l.setAttempt a none
  else if at_.rounds < l.token.cfg.roundMax then l.setAttempt a (some at_)
  else
    let l := (at_.seen.filter fun x => !x.granted && x.rec_ != enrolIdx).foldl (fun l (x : TokenSeen) =>
      l.tokenEvent 0x181 warn x.deny a x.rec_ (le 2 x.last)) l
    (l.endEnrol at_ .timeout).setAttempt a none

/-- The tokens that a round of an attempt lists. -/
def Live.listed (l : Live) (a : Nat) (at_ : TokenAttempt) : List Nat :=
  ((List.range 32).filter fun r => (l.tokenRec r).any fun t => t.rights.getD a 0 != 0) ++
    if at_.enrol.isSome then [enrolIdx] else []

/-- TOKEN_ROUND: a round of an attempt has run; `rs` is what the RANGE die took in its slots. -/
def tokenRound (a : Nat) (rs : List SlotResp) (s : State) : State :=
  match (s.live.ant a).attempt with
  | none => s
  | some at_ =>
    if s.live.mt.now < at_.nextAt || !s.live.commandLayer then s
    else
      let d := s.live.drawRound a (at_.rounds + 1) (s.live.listed a at_)
      let s := { s with live := d.2 }
      let round := at_.rounds + 1
      let res := match d.1 with
        | none => []
        | some (c, map) => s.judgeRound a round c map rs
      let at_ := { at_ with rounds := round, nextAt := at_.nextAt + ms s.live.token.cfg.gapMs }
      (s.unjudged res).onLive fun l =>
        let l := res.foldl (fun l x => l.noteSlot a x) l
        match (res.filter isContended).getLast? with
        | some x =>
          let at_ := { at_ with
            contended := at_.contended + 1, lastSlot := x.1, seen := at_.seen.map fun (x : TokenSeen) => { x with prev := none } }
          if at_.contended < 3 then l.afterRound a at_
          else ((l.tokenEvent 0x182 warn (b2n at_.enrol.isSome) a 0xFF (le 1 x.1 ++ le 1 round)).endEnrol at_ .contended).setAttempt
            a none
        | none =>
          let ok := res.any fun x => match x.2.2 with
            | .valid _ _ => x.2.1 != enrolIdx
            | _ => false
          let l := if ok && l.pwr.mode == .wakeCheck then l.setToken fun t => { t with wakeOk := true } else l
          let p := l.roundStands a at_ res
          p.2.afterRound a p.1

def execTokenRound (ant : Nat) (rs : List SlotResp) (s : State) : Result := .next (tokenRound ant rs s)

/-! ### Tracking (R394) -/

/-- One granted token after a tracking round that stands; none when its grant has ended. -/
def Live.trackGrant (l : Live) (a : Nat) (res : List (Nat × Nat × SlotOutcome)) (g : TokenGrant) : Option TokenGrant × Live :=
  let hit := res.findSome? fun x => if x.2.1 != g.rec_ then none else match x.2.2 with
    | .valid tstat cm => some (tstat, cm)
    | _ => none
  let l := match hit with
    | some (tstat, cm) => l.tokenHeard a g.rec_ tstat cm
    | none => l
  match hit.bind fun x => ((l.zonesFor a g.rec_ [x.2]).head?).map fun z => (x.1, x.2, z) with
  | some (tstat, cm, z) =>
    let keep := (l.zonesFor a g.rec_ [cm]).contains g.zone
    if keep then (some { g with misses := 0 }, l)
    else (some { g with zone := z, misses := 0 }, l.tokenEvent 0x180 notice 1 a g.rec_ (le 1 z ++ le 2 cm ++ le 1 (tstat / 256 % 256)))
  | none =>
    if g.misses = 0 then (some { g with misses := 1 }, l)
    else (none, l.tokenEvent 0x184 notice 0 a g.rec_ (le 2 (((l.tokenRec g.rec_).bind (·.lastCm)).getD 0xFFFF)))

/-- TRACKING_ROUND. -/
def trackingRound (a : Nat) (rs : List SlotResp) (s : State) : State :=
  let x := s.live.ant a
  if x.grants.isEmpty || s.live.mt.now < x.trackAt || s.live.pwr.mode != .run || !s.live.commandLayer then s
  else
    let d := s.live.drawRound a 0 (x.grants.map (·.rec_))
    let s := { s with live := d.2.setAnt a fun t => { t with trackAt := t.trackAt + ms d.2.token.cfg.trackMs } }
    match d.1 with
    | none => s
    | some (c, map) =>
      let res := s.judgeRound a 0 c map rs
      (s.unjudged res).onLive fun l =>
        let l := res.foldl (fun l x => l.noteSlot a x) l
        if res.any isContended then l
        else
          let p := x.grants.foldl (fun (p : List TokenGrant × Live) g =>
            let y := p.2.trackGrant a res g
            (p.1 ++ y.1.toList, y.2)) ([], l)
          p.2.setAnt a fun t => { t with grants := p.1 }

def execTrackingRound (ant : Nat) (rs : List SlotResp) (s : State) : Result := .next (trackingRound ant rs s)

/-! ### Commands (R398 to R403) -/

def TokenCfg.ofBytes (p : List Byte) : TokenCfg :=
  { refuseStationary := bit (byteAt p 0) 1, antEn := byteAt p 1, parkAnt := byteAt p 2, channels := byteAt p 3,
    keySlot := byteAt p 4, roundMax := byteAt p 5, gapMs := rd p 6 2, fleetTag := rd p 8 4, searchMs := rd p 12 2,
    parkMs := rd p 14 2, offset := rd p 16 2, trackMs := rd p 18 2, consist := byteAt p 20 }

def Live.applyTokenCfg (l : Live) (p : List Byte) : Live := l.setToken fun t => { t with cfg := TokenCfg.ofBytes p }

/-- TOKEN.CONFIG. -/
def tokenConfig (m : MbRef) (b : Mailbox) (s : State) : Reply × State :=
  let p := b.payload
  let k := s.kept.cells.slot (byteAt p 4)
  checked [(0, decide (byteAt p 0 < 4)), (1, decide (byteAt p 1 ≤ 3)), (2, decide (byteAt p 2 ≤ 3)), (3, inRange 1 3 (byteAt p 3)),
      (4, decide (byteAt p 4 ≤ 63)), (5, inRange 2 16 (byteAt p 5)), (6, inRange 10 200 (rd p 6 2)),
      (12, rd p 12 2 == 0 || inRange 100 10000 (rd p 12 2)), (14, inRange 250 8000 (rd p 14 2)),
      (16, rd p 16 2 == 0 || decide (rd p 16 2 < rd p 12 2)), (18, inRange 100 5000 (rd p 18 2)),
      (20, inRange 10 100 (byteAt p 20)), resv b 21 3]
    (if k.filled && k.attr != 3 then (refuse .keyUsage, s)
     else
       let r := (s.live.applyTokenCfg p).endConfig m (bit (byteAt p 0) 0) 0x5001 0 p
       (r.1, { s with live := r.2 }))
    fun r => (r, s)

def execTokenConfig (s : State) : Result := .next (s.commandK 0x5001 fun m b s => tokenConfig m b s)

def Live.applyTokenZones (l : Live) (p : List Byte) : Live :=
  l.setAnt (byteAt p 0) fun x => { x with
    delay := rd p 2 2, zones := (List.range 8).map fun z => (rd p (4 + 4 * z) 2, rd p (6 + 4 * z) 2) }

/-- TOKEN.ZONES. -/
def tokenZones (m : MbRef) (b : Mailbox) (l : Live) : Reply × Live :=
  let p := b.payload
  checked ([(0, decide (byteAt p 0 ≤ 1)), (1, decide (byteAt p 1 < 2)), (2, decide (rd p 2 2 ≤ 10000))] ++
      (List.range 8).flatMap (fun z =>
        let near := rd p (4 + 4 * z) 2
        let far := rd p (6 + 4 * z) 2
        [(4 + 4 * z, decide (near ≤ 2500) && decide (near ≤ far)), (6 + 4 * z, decide (far ≤ 2500))]))
    ((l.applyTokenZones p).endConfig m (bit (byteAt p 1) 0) 0x5002 (byteAt p 0) p)
    fun r => (r, l)

def execTokenZones (s : State) : Result := .next (s.command 0x5002 fun m b l => tokenZones m b l)

/-- A token of this TOKEN_ID is enrolled. -/
def Live.recOf (l : Live) (id : Nat) : Option Nat := (List.range 32).find? fun r => (l.tokenRec r).any fun t => t.id == id

/-- TOKEN.ENROL: its presence has been proven; it joins an attempt that runs on the antenna, or starts one. -/
def tokenEnrol (m : MbRef) (b : Mailbox) (s : State) : Reply × State :=
  let p := b.payload
  let id := rd p 0 4
  let a := byteAt p 6
  let job : EnrolJob := { owner := m, id := id, rights := [byteAt p 4, byteAt p 5] }
  let busy := s.live.token.ants.any fun (x : TokenAnt) => x.attempt.any fun at_ => at_.enrol.isSome
  checked [(6, decide (a ≤ 1)), resv b 7 5]
    (if s.live.draining then (refuse .state, s)
     else if (s.live.recOf id).isSome then (refuse .state 1, s)
     else if s.live.token.recs.all Option.isSome || busy then (refuse .busy, s)
     else if s.kept.cells.slotState s.live.token.cfg.keySlot != 1 then (refuse .locked, s)
     else (.wait, s.onLive fun l => match (l.ant a).attempt with
       | some at_ => l.setAttempt a (some { at_ with enrol := some job, rounds := 0, contended := 0 })
       | none => l.startAttempt a (some job)))
    fun r => (r, s)

def execTokenEnrol (s : State) : Result := .next (s.commandK 0x5003 fun m b s => tokenEnrol m b s)

/-- TOKEN.REVOKE: the record goes at once, its grants end, and nothing of an attempt in progress is granted to it. -/
def tokenRevoke (m : MbRef) (b : Mailbox) (l : Live) : Reply × Live :=
  let id := rd b.payload 0 4
  match l.recOf id with
  | none => (refuse .badParam 0, l)
  | some r =>
    let cm := ((l.tokenRec r).bind (·.lastCm)).getD 0xFFFF
    let l := [0, 1].foldl (fun (l : Live) a =>
      if (l.ant a).grants.any fun (g : TokenGrant) => g.rec_ == r then l.tokenEvent 0x184 notice 1 a r (le 2 cm) else l) l
    let l := (l.setRec r none).setToken fun t => { t with ants := t.ants.map fun (x : TokenAnt) => { x with
      grants := x.grants.filter fun (g : TokenGrant) => g.rec_ != r,
      attempt := x.attempt.map fun at_ => { at_ with seen := at_.seen.filter fun (y : TokenSeen) => y.rec_ != r } } }
    (l.tokenEvent 0x185 notice 1 0xFF r (le 4 id)).persist m 0x5003 r (tokenBytes none)

def execTokenRevoke (s : State) : Result := .next (s.command 0x5004 fun m b l => tokenRevoke m b l)

/-- TOKEN.RANGE. -/
def execTokenRange (s : State) : Result := .next (s.command 0x5005 fun _ b l =>
  let a := byteAt b.payload 0
  checked [(0, decide (a ≤ 1)), resv b 1 1]
    (if l.draining || !bit l.token.cfg.antEn a then (refuse .state, l)
     else if (l.ant a).attempt.isSome then (refuse .busy, l)
     else (refuse .pending, l.setAnt a fun x => { x with asked := true }))
    fun r => (r, l))

def Live.listRecord (l : Live) (r : Nat) : List Byte :=
  match l.tokenRec r with
  | none => []
  | some t =>
    let granted := fun a => (l.ant a).grants.any fun (g : TokenGrant) => g.rec_ == r
    le 1 r ++ le 1 (b2n t.stationary + 2 * b2n (granted 0) + 4 * b2n (granted 1) + 8 * b2n t.battLow) ++
      le 1 (t.rights.getD 0 0) ++ le 1 (t.rights.getD 1 0) ++ le 4 t.id ++ le 6 (t.enrolMt / 65536) ++
      le 2 (t.lastCm.getD 0xFFFF)

def execTokenList (s : State) : Result := .next (s.command 0x5006 fun _ b l =>
  let first := byteAt b.payload 0
  let all := (List.range 32).filter fun r => (l.tokenRec r).isSome
  let shown := (all.filter fun r => decide (first ≤ r)).take 30
  checked [(0, decide (first ≤ 31))]
    (.done .ok 0 (le 1 shown.length ++ le 1 all.length ++ le 2 0 ++ shown.flatMap l.listRecord), l) fun r => (r, l))

/-- STATE of TOKEN.STATUS. -/
def Live.antState (l : Live) (a : Nat) : Nat :=
  let x := l.ant a
  if x.attempt.isSome then 3 else if !x.grants.isEmpty then 4 else if x.asked then 2 else b2n (bit l.token.cfg.antEn a)

def execTokenStatus (s : State) : Result := .next (s.command 0x5007 fun _ _ l =>
  (.done .ok 0 ([0, 1].flatMap fun a =>
    let x := l.ant a
    le 1 (l.antState a) ++ le 1 (b2n x.faulted) ++ le 1 x.grants.length ++
      le 1 ((x.attempt.map (·.contended)).getD 0) ++ le 4 x.attempts), l))

end Sys2Proof.Machine
end

