-- ==== Sys2Proof/Machine/Peer.lean ====
section
/-! DEFINITION. CAN peer authentication (R421): the exchange of CHALLENGE, RESPONSE and CONFIRM under a pair key. -/

namespace Sys2Proof.Machine

def Live.setKey (l : Live) (f : KeyState → KeyState) : Live := { l with key := f l.key }

/-- EV_KEY_PEER: NOTICE when authenticated, WARN otherwise. -/
def Live.peerEvent (l : Live) (c : PeerConfig) (cause peer : Nat) (initiator : Bool) : Live :=
  l.raise 0x1A4 (if cause = 0 then notice else warn) cause (le 1 c.ch ++ le 1 peer ++ le 1 (b2n (!initiator)))

/-- The pair key of this module and a peer (R418). -/
def State.pairKey (s : State) (c : PeerConfig) (peer : Nat) : Option (List Byte) :=
  s.serviceKdf c.slot "ZZ-CANPR" (le 1 c.ch ++ le 1 (min c.ownId peer) ++ le 1 (max c.ownId peer))

/-- TAG of a RESPONSE (kind 2: A, B, C_A, C_B) and of a CONFIRM (kind 3: B, A, C_B, C_A). -/
def peerTag (key : List Byte) (kind p q : Nat) (x y : List Byte) : List Byte :=
  cmac key (le 1 kind ++ le 1 p ++ le 1 q ++ x ++ y)

/-- The payload of a peer frame. -/
def peerPayload (kind dest : Nat) (ca cb tag : List Byte) : List Byte :=
  le 1 kind ++ le 1 dest ++ le 2 0 ++ padTo 16 ca ++ padTo 16 cb ++ padTo 16 tag ++ List.replicate 12 0

/-- Loads a peer frame into a free transmit buffer of the channel; with none free it is not sent. -/
def Live.sendPeer (l : Live) (c : PeerConfig) (peer : Nat) (data : List Byte) : Live :=
  match [1, 2, 0].find? fun k => (l.txBuf c.ch k).isNone with
  | none => l
  | some k => l.setTx c.ch k (some { owner := .peer peer, key := 2 ^ 30 + (c.base + c.ownId) * 2 ^ 18, brs := (l.chan c.ch).cfg.brs,
                                     dlc := 15, data := data, deadline := none, attempts := 0, freeing := none })

def Live.exchange (l : Live) (peer : Nat) : Option PeerExchange := l.key.exchanges.find? fun e => e.peer == peer

def Live.addExchange (l : Live) (peer : Nat) (initiator : Bool) (ca cb : List Byte) : Live :=
  let e : PeerExchange := { peer := peer, initiator := initiator, ca := ca, cb := cb, lastStep := l.mt.now }
  l.setKey fun k => { k with exchanges := k.exchanges ++ [e] }

/-- Ends the exchange with a peer. -/
def Live.dropExchange (l : Live) (peer : Nat) : Live :=
  l.setKey fun k => { k with exchanges := k.exchanges.filter fun (e : PeerExchange) => e.peer != peer }

/-- A failed exchange: the peer is no longer authenticated. -/
def Live.peerFails (l : Live) (c : PeerConfig) (cause peer : Nat) (initiator : Bool) : Live :=
  ((l.dropExchange peer).setKey fun k => { k with authenticated := k.authenticated.filter (· != peer) }).peerEvent c cause peer initiator

def Live.peerProven (l : Live) (c : PeerConfig) (peer : Nat) (initiator : Bool) : Live :=
  ((l.dropExchange peer).setKey fun k => { k with authenticated := k.authenticated.filter (· != peer) ++ [peer] }).peerEvent c 0
    peer initiator

/-- A CHALLENGE to this module: it answers as B, unless its own exchange toward a higher peer ID goes on. -/
def State.peerChallenged (s : State) (c : PeerConfig) (peer : Nat) (ca : List Byte) : State :=
  let own := (s.live.exchange peer).any (·.initiator)
  if own && decide (c.ownId < peer) then s
  else
    let s := s.onLive fun l => l.dropExchange peer
    match s.pairKey c peer with
    | none => (s.serviceRefused c.slot 0x580E).onLive fun l => l.peerFails c 3 peer false
    | some key => match s.live.random 16 with
      | (none, _) => s
      | (some cb, l) =>
        { s with live := (l.addExchange peer false ca cb).sendPeer c peer
                   (peerPayload 2 peer ca cb (peerTag key 2 peer c.ownId ca cb)) }

/-- The RESPONSE to this module's CHALLENGE: CONFIRM when its tag is right. -/
def State.peerResponds (s : State) (c : PeerConfig) (peer : Nat) (e : PeerExchange) (cb tag : List Byte) : State :=
  match s.pairKey c peer with
  | none => (s.serviceRefused c.slot 0x580E).onLive fun l => l.peerFails c 3 peer true
  | some key =>
    if peerTag key 2 c.ownId peer e.ca cb == tag then
      s.onLive fun l => (l.sendPeer c peer (peerPayload 3 peer e.ca cb (peerTag key 3 peer c.ownId cb e.ca))).peerProven c peer true
    else s.onLive fun l => l.peerFails c 1 peer true

/-- The CONFIRM to this module's RESPONSE. -/
def State.peerConfirms (s : State) (c : PeerConfig) (peer : Nat) (e : PeerExchange) (tag : List Byte) : State :=
  match s.pairKey c peer with
  | none => (s.serviceRefused c.slot 0x580E).onLive fun l => l.peerFails c 3 peer false
  | some key =>
    if peerTag key 3 c.ownId peer e.cb e.ca == tag then s.onLive fun l => l.peerProven c peer false
    else s.onLive fun l => l.peerFails c 1 peer false

/-- The peer that a frame comes from: an FD base frame of DLC 15 at PEER_BASE plus its ID. -/
def PeerConfig.sender (c : PeerConfig) (f : CanFrame) : Option Nat :=
  let id := f.key / 2 ^ 18 % 2 ^ 11
  if f.ch == c.ch && keyFdf f.key && !keyIde f.key && f.dlc == 15 && decide (c.base ≤ id) && decide (id < c.base + 64) &&
    id != c.base + c.ownId then some (id - c.base) else none

/-- PEER_FRAME. -/
def peerFrame (f : CanFrame) (s : State) : State :=
  match s.live.key.peer with
  | none => s
  | some c =>
    if !s.live.commandLayer || s.live.draining || !(s.live.chan c.ch).listens || byteAt f.data 1 != c.ownId then s
    else match c.sender f with
      | none => s
      | some peer =>
        let cb := (f.data.drop 20).take 16
        let tag := (f.data.drop 36).take 16
        match byteAt f.data 0, s.live.exchange peer with
        | 1, _ => s.peerChallenged c peer ((f.data.drop 4).take 16)
        | 2, some e => if e.initiator then s.peerResponds c peer e cb tag else s
        | 3, some e => if e.initiator then s else s.peerConfirms c peer e tag
        | _, _ => s

def execPeerFrame (f : CanFrame) (s : State) : Result := .next (peerFrame f s)

/-- PEER_TIMEOUT: the next step has not come within PEER_TMO. -/
def peerTimeout (peer : Nat) (l : Live) : Live :=
  match l.key.peer, l.exchange peer with
  | some c, some e => if l.mt.now < e.lastStep + ms (10 * c.tmo) then l else l.peerFails c 2 peer e.initiator
  | _, _ => l

def execPeerTimeout (peer : Nat) (s : State) : Result := .next (s.onLogic (peerTimeout peer))

def PeerConfig.ofBytes (p : List Byte) : Option PeerConfig :=
  if byteAt p 0 = 0xFF then none
  else some { ch := byteAt p 0, ownId := byteAt p 1, slot := byteAt p 2, base := rd p 4 2, tmo := byteAt p 6 }

/-- Puts KEY.PEER in force: what runs under another configuration ends. -/
def Live.applyPeer (l : Live) (p : List Byte) : Live :=
  l.setKey fun k => { k with peer := PeerConfig.ofBytes p, exchanges := [], authenticated := [] }

/-- KEY.PEER. -/
def keyPeer (m : MbRef) (b : Mailbox) (s : State) : Reply × State :=
  let p := b.payload
  let gone := byteAt p 0 == 0xFF
  let c := s.kept.cells
  let k := c.slot (byteAt p 2)
  checked [(0, decide (byteAt p 0 ≤ 3) || gone), (1, gone || decide (byteAt p 1 ≤ 63)), (2, gone || decide (byteAt p 2 ≤ 63)),
      (3, decide (byteAt p 3 < 2)), (4, gone || decide (rd p 4 2 ≤ 0x7C0)), (6, gone || inRange 1 100 (byteAt p 6)), resv b 7 1]
    (if !gone && (c.liveDomain == 0 || c.slotState (byteAt p 2) == 2) then (refuse .locked, s)
     else if !gone && k.filled && decide (2 < k.type) then (refuse .badParam 2, s)
     else if !gone && k.filled && k.attr != 3 then (refuse .keyUsage, s.usageEvent 0 (byteAt p 2) 0x580E (MbRef_source m))
     else if !gone && !(s.live.chan (byteAt p 0)).cfg.fd then (refuse .state, s)
     else
       let r := (s.live.applyPeer p).endConfig m (bit (byteAt p 3) 0) 0x580E 0 p
       (r.1, { s with live := r.2 }))
    fun r => (r, s)

def execKeyPeer (s : State) : Result := .next (s.commandK 0x580E fun m b s => keyPeer m b s)

/-- KEY.PEER_AUTH: an exchange begins as A. -/
def keyPeerAuth (b : Mailbox) (s : State) : Reply × State :=
  let peer := byteAt b.payload 0
  checked [(0, decide (peer ≤ 63))]
    (match s.live.key.peer with
     | none => (refuse .state, s)
     | some c =>
       if s.live.draining then (refuse .state, s)
       else if (s.live.exchange peer).isSome then (refuse .busy, s)
       else match s.pairKey c peer with
         | none => (refuse .pending, (s.serviceRefused c.slot 0x580E).onLive fun l => l.peerFails c 3 peer true)
         | some _ => match s.live.random 16 with
           | (none, _) => (refuse .internal, s)
           | (some ca, l) =>
             (refuse .pending, { s with live := (l.addExchange peer true ca []).sendPeer c peer (peerPayload 1 peer ca [] []) }))
    fun r => (r, s)

def execKeyPeerAuth (s : State) : Result := .next (s.commandK 0x580F fun _ b s => keyPeerAuth b s)

end Sys2Proof.Machine
end

