-- ==== Sys2Proof/Machine/Image.lean ====
section
/-! DEFINITION. Firmware images (17_update_boot.md): where they lie in flash, their headers and checks (R450 to R455), the
journal, Assay and epoch records, the gates (R460). -/

namespace Sys2Proof.Machine

/-! ### Slots and headers (R450, R451) -/

/-- Flash offset of the header and of the body of the active image of a kind. -/
def activeHdr (kind : Nat) : Nat := if kind = 0 then 0 else if kind = 1 then 0x180000 else 0xFFFE00
def activeBody (kind : Nat) : Nat := if kind = 0 then 0x200 else if kind = 1 then 0x180200 else 0xC00000
/-- Flash offset of the FALLBACK slot of a kind, and of STAGING. -/
def fallbackAt (kind : Nat) : Nat := if kind = 0 then 0x800000 else 0x980000
def stagingAt : Nat := 0x400000
/-- The largest TOTAL_LEN of a kind. -/
def largestLen (kind : Nat) : Nat := if kind = 0 then 0x180000 else if kind = 1 then 0x280000 else 0x400000

def flashRead (fl : Memory) (a n : Nat) : List Byte := memReadN 0xFF fl a n
def imgHdr (fl : Memory) (a : Nat) : List Byte := flashRead fl a 512
def imgPresent (h : List Byte) : Bool := h.take 4 == ascii "ZIMG" && byteAt h 4 == 1
def imgKind (h : List Byte) : Nat := byteAt h 5
def imgVersion (h : List Byte) : Nat := rd h 8 4
def imgEpoch (h : List Byte) : Nat := rd h 12 2
def imgBodyLen (h : List Byte) : Nat := rd h 16 4
def imgCompat (h : List Byte) : Nat := rd h 24 4
def imgBind (h : List Byte) : Nat := rd h 32 8
/-- The measurement (R452). -/
def imgMeasure (h : List Byte) : List Byte := sha256 (h.take 320)

/-- An image of this kind is in ACTIVE, the factory's included. -/
def Kept.activePresent (k : Kept) (kind : Nat) : Bool :=
  (kind == 0 && k.factoryFw) || imgPresent (imgHdr k.flash (activeHdr kind)) && imgKind (imgHdr k.flash (activeHdr kind)) == kind

def Kept.activeVersion (k : Kept) (kind : Nat) : Nat :=
  if kind == 0 && k.factoryFw then Config.factoryVersion
  else if k.activePresent kind then imgVersion (imgHdr k.flash (activeHdr kind)) else 0

/-- FW_HASH and APP_HASH (R452): the measurement of an active image, zeros for none. -/
def Kept.activeMeasure (k : Kept) (kind : Nat) : List Byte :=
  if kind == 0 && k.factoryFw then Config.factoryMeasure
  else if k.activePresent kind then imgMeasure (imgHdr k.flash (activeHdr kind)) else List.replicate 32 0

def Kept.fallbackPresent (k : Kept) (kind : Nat) : Bool :=
  (kind == 0 && k.factoryFb) || imgPresent (imgHdr k.flash (fallbackAt kind)) && imgKind (imgHdr k.flash (fallbackAt kind)) == kind

def Kept.fallbackVersion (k : Kept) (kind : Nat) : Nat :=
  if kind == 0 && k.factoryFb then Config.factoryVersion
  else if k.fallbackPresent kind then imgVersion (imgHdr k.flash (fallbackAt kind)) else 0

/-! ### Sectors (R450, R573) -/

/-- The 64 KB sectors that n bytes from flash offset a lie in. -/
def sectorsOf (a n : Nat) : List Nat :=
  (List.range 256).filter fun i => decide (0 < n) && decide (i * 65536 < a + n) && decide (a < (i + 1) * 65536)

/-- Erases sectors, each counted. -/
def Kept.eraseSectors (k : Kept) (ss : List Nat) : Kept :=
  { k with
    flash := k.flash.filter fun (c : Host.Cell) => !ss.contains (c.1 / 65536),
    erases := ss.foldl (fun e i => upd e i (· + 1)) k.erases }

/-- Copies an image, its header and its body, erasing each sector that it writes once. -/
def Kept.copyImage (k : Kept) (srcHdr srcBody dstHdr dstBody len : Nat) : Kept :=
  let h := flashRead k.flash srcHdr 512
  let b := flashRead k.flash srcBody len
  let k := k.eraseSectors (sectorsOf dstHdr 512 ++ sectorsOf dstBody len).eraseDups
  { k with flash := memWriteN 0xFF (memWriteN 0xFF k.flash dstHdr h) dstBody b }

/-! ### Checks (R453, R455, R459, R463) -/

/-- The public key an image of this kind is checked against (R453): Challaqua's, or OWNER_SLOT's when it is usable. -/
def State.signerKey (s : State) (kind : Nat) : Option (List Byte) :=
  if kind = 0 then some Config.imageKeyPub
  else match s.live.fwu.cfg.ownerSlot with
    | none => none
    | some i =>
      let k := s.kept.cells.slot i
      if s.kept.cells.slotState i == 1 && k.domain == 1 && k.attr == 1 && decide (3 ≤ k.type) then some k.pub else none

/-- SIGNER_ID and SIG of a header against the key of its signer. -/
def State.signed (s : State) (kind : Nat) (h : List Byte) : Bool :=
  match s.signerKey kind with
  | none => false
  | some pub => (h.drop 88).take 32 == sha256 pub && ecdsaVerify pub ((h.drop 320).take 64) (sha256 (h.take 320))

/-- BODY_HASH of a header over the body at this flash offset. -/
def bodyGood (fl : Memory) (h : List Byte) (body : Nat) : Bool :=
  (h.drop 40).take 32 == sha256 (flashRead fl body (imgBodyLen h))

/-- KEY_TRANSIT unwraps under the family image key, KEY_LOCAL under the device image key (R455). -/
def transitKey (c : SecureCells) (h : List Byte) : Option (List Byte) :=
  if c.imageKeys then kwUnwrap Config.familyKey ((h.drop 280).take 40) else none
def localKey (c : SecureCells) (h : List Byte) : Option (List Byte) :=
  if c.imageKeys then kwUnwrap Config.deviceImageKey ((h.drop 384).take 40) else none

/-- The active foundry image passes header, BODY_HASH, signature and key unwrap; the factory's does. -/
def State.foundryGood (s : State) : Bool :=
  let h := imgHdr s.kept.flash 0
  (s.kept.factoryFw && s.kept.cells.imageKeys) ||
  (s.kept.activePresent 0 && decide (imgBodyLen h ≤ 0x180000 - 512) && bodyGood s.kept.flash h 0x200 && s.signed 0 h
    && (localKey s.kept.cells h).isSome)

/-- The cause for which the staged image of a kind is refused at installation (R463). -/
def State.stagedBad (s : State) (kind : Nat) : Option Nat :=
  let h := imgHdr s.kept.flash stagingAt
  let eps := padTo 6 ((recPayload s.kept.store 18).getD [])
  if !bodyGood s.kept.flash h (stagingAt + 512) || !s.signed kind h then some 4
  else if imgEpoch h < rd eps (2 * kind) 2 then some 5
  else if (imgBind h != 0 && imgBind h != Config.serial) || (kind != 0 && s.kept.activeVersion 0 < imgCompat h)
    || (kind == 0 && (transitKey s.kept.cells h).isNone) then some 6
  else none

/-! ### Journal, Assay and epochs (module records 16 to 18, counters 12 and 13) -/

/-- The installation journal (R464, R467): mode 1 installation, 2 fallback; KIND; last step done; step 3 has failed once;
without saving to FALLBACK; the cause of a fallback; the staged measurement.  The spec leaves its layout open. -/
structure InstJournal where
  mode : Nat
  kind : Nat
  step : Nat
  again : Nat
  nosave : Nat
  cause : Nat
  measure : List Byte
  deriving DecidableEq, Repr

def instJournal (st : Memory) : Option InstJournal :=
  match recPayload st 16 with
  | none => none
  | some p => if byteAt p 0 = 0 then none else some
      { mode := byteAt p 0, kind := byteAt p 1, step := byteAt p 2, again := byteAt p 3, nosave := byteAt p 4,
        cause := byteAt p 5, measure := p.drop 6 }

def InstJournal.bytes (j : InstJournal) : List Byte :=
  le 1 j.mode ++ le 1 j.kind ++ le 1 j.step ++ le 1 j.again ++ le 1 j.nosave ++ le 1 j.cause ++ j.measure

def Kept.setJournal (k : Kept) (j : Option InstJournal) : Kept :=
  { k with store := recWrite k.store 16 0 1 false ((j.map InstJournal.bytes).getD [0]) }

/-- The KIND pending Assay. -/
def Kept.assay (k : Kept) : Option Nat :=
  match recPayload k.store 17 with
  | none => none
  | some p => if byteAt p 0 = 1 then some (byteAt p 1) else none

def Kept.setAssay (k : Kept) (kind : Option Nat) : Kept :=
  { k with store := recWrite k.store 17 0 1 false (match kind with
    | some n => [1, BitVec.ofNat 8 n]
    | none => [0, 0]) }

def Kept.counter (k : Kept) (c : Nat) : Nat := ((counterDef k.counters c).map (counterValue k.store)).getD 0

def Kept.counterAdd (k : Kept) (c d : Nat) : Kept :=
  match counterDef k.counters c with
  | none => k
  | some x => { k with store := Sys2Proof.Machine.counterAdd k.store x d }

def Kept.counterClear (k : Kept) (c : Nat) : Kept :=
  match counterDef k.counters c with
  | none => k
  | some x => { k with store := Sys2Proof.Machine.counterClear k.store x }

/-- The stored rollback epoch of a kind (R453). -/
def Kept.epoch (k : Kept) (kind : Nat) : Nat := rd ((recPayload k.store 18).getD []) (2 * kind) 2

/-- The Assay window has expired by run time (R466). -/
def State.assayExpired (s : State) : Bool := s.live.fwu.expired || decide (600 ≤ s.kept.counter 13)

/-! ### Gates (R460) -/

def Live.gateMoving (l : Live) : Bool :=
  (l.can.speed.isSome && (match l.speedValue with
    | none => true
    | some v => decide (30 < v)))
  || decide (2 ≤ l.fio.motion)
  || (l.can.speed.isNone && (l.roleInput 1).isNone && (l.roleInput 2).isNone && !l.fwu.cfg.noMotion)

def Live.gateBattery (l : Live) : Bool := decide (l.vbat < l.fwu.cfg.vmin)

/-- GATES of UPD.STATUS. -/
def Live.gates (l : Live) : Nat := b2n l.gateMoving + 2 * b2n l.gateBattery + 4 * b2n l.fwu.cfg.ownerLock

/-- The DETAIL of the first gate that holds for a kind. -/
def gateDetail (kind gates : Nat) : Option Nat :=
  if bit gates 0 then some 1 else if bit gates 1 then some 2 else if kind != 0 && bit gates 2 then some 3 else none

/-! ### EV_UPD_INSTALL -/

/-- EV_UPD_INSTALL, which LAST of UPD.STATUS keeps. -/
def Live.installEvent (l : Live) (cause kind detail version : Nat) : Live :=
  (l.setFwu fun f => { f with last := cause }).raise 0x1C2 (if cause ≤ 3 then notice else sevFault) cause
    (le 1 kind ++ le 1 detail ++ le 4 version)

/-- STAGING is marked empty. -/
def Kept.stagingEmpty (k : Kept) : Kept := { k with updPending := none }

end Sys2Proof.Machine
end

