-- ==== Sys2Proof/Machine/Update.lean ====
section
/-! DEFINITION. Firmware transfer and Assay: the UPD commands, SYS.ASSAY, the gate record and the session's idle end
(17_update_boot.md). -/

namespace Sys2Proof.Machine

/-! ### UPD.BEGIN (R456, R460, R471) -/

/-- What refuses UPD.BEGIN of a kind, its fields good.  In RECOVERY only the foundry kind and the BATTERY gate count (R463). -/
def State.beginRefusal (s : State) (kind : Nat) : Option Reply :=
  let l := s.live
  let c := s.kept.cells
  if l.sup.phase == .recovery then
    if kind ≠ 0 then some (refuse .state)
    else if l.fwu.session.isSome then some (refuse .busy)
    else if l.gateBattery then some (refuse .gate 2) else none
  else if l.pwr.mode == .drain then some (refuse .state)
  else if s.kept.assay.isSome then some (refuse .state 1)
  else if kind ≠ 0 && (c.lcs == 0 || decide (3 ≤ c.lcs) || (s.signerKey kind).isNone) then some (refuse .locked)
  else if l.fwu.session.isSome then some (refuse .busy)
  else (gateDetail kind l.gates).map fun d => refuse .gate d

/-- UPD.BEGIN opens the session; STAGING is marked empty. -/
def updBegin (b : Mailbox) (s : State) : Reply × State :=
  let p := b.payload
  let kind := byteAt p 0
  let total := rd p 4 4
  checked [(0, decide (kind ≤ 2)), resv b 1 3, (4, inRange 528 (largestLen kind) total && total % 16 == 0), resv b 12 4]
    (match s.beginRefusal kind with
     | some r => (r, s)
     | none =>
       let l := s.live.setFwu fun f => { f with
         session := some { kind := kind, total := total, crc := rd p 8 4, written := [], erased := [], buf := none,
                           lastBlock := s.live.mt.now },
         restart := none }
       (okReply, { s with kept := s.kept.stagingEmpty, live := l.raise 0x1C0 notice 0 (le 1 kind ++ le 4 0) }))
    fun r => (r, s)

def execUpdBegin (s : State) : Result := .next (s.commandK 0x6801 fun _ b s => updBegin b s)

/-! ### UPD.BLOCK (R457, R458, R472) -/

/-- Erases the sectors of STAGING that a block falls in and that this session has not erased, then writes the block. -/
def stageBlock (k : Kept) (u : UpdSession) (off : Nat) (data : List Byte) : Kept × UpdSession :=
  let secs := (sectorsOf (stagingAt + off) data.length).filter fun i => !u.erased.contains i
  let k := k.eraseSectors secs
  ({ k with flash := memWriteN 0xFF k.flash (stagingAt + off) data }, { u with erased := u.erased ++ secs })

/-- EV_UPD_BLOCK_REJECTED, at most once per second with the count since the last record. -/
def Live.blockRejected (l : Live) (cause off : Nat) : Live :=
  let n := l.fwu.rejects + 1
  if l.fwu.rejectRaised.any (fun t => l.mt.now < t + ms 1000) then l.setFwu fun f => { f with rejects := n }
  else (l.setFwu fun f => { f with rejects := 0, rejectRaised := some l.mt.now }).raise 0x1C1 warn cause
    (le 4 off ++ le 2 (min n 0xFFFF))

def Live.setSession (l : Live) (u : UpdSession) : Live := l.setFwu fun f => { f with session := some u }

/-- The bytes of the buffered block, once its segments cover it. -/
def UpdBuf.whole (x : UpdBuf) : Option (List Byte) :=
  if (List.range (x.len / 16)).all fun i => x.segs.any fun g => decide (g.1 ≤ 16 * i) && decide (16 * i < g.1 + g.2.length)
  then some (x.segs.foldl (fun bs g => splice bs g.1 g.2) (List.replicate x.len 0)) else none

/-- A segment whose block is not yet written: the buffer takes it, and the block is written once it is whole. -/
def takeSegment (s : State) (u : UpdSession) (off len crc segOff : Nat) (data : List Byte) : Reply × State :=
  let now := s.live.mt.now
  let old := match u.buf with
    | some x => if x.off = off then x else { off := off, len := len, crc := crc, segs := [] }
    | none => { off := off, len := len, crc := crc, segs := [] }
  if old.len ≠ len || old.crc ≠ crc then
    (refuse .badParam 0x04, s.onLive fun l => l.setSession { u with buf := none })
  else
    let x := { old with segs := old.segs ++ [(segOff, data)] }
    match x.whole with
    | none => (.done .ok 0 (le 4 u.bytes), s.onLive fun l => l.setSession { u with buf := some x, lastBlock := now })
    | some bs =>
      if (crc32 bs).toNat ≠ crc then
        (refuse .crc, s.onLive fun l => (l.setSession { u with buf := none }).blockRejected 0 off)
      else
        let r := stageBlock s.kept u off bs
        let u := { r.2 with buf := none, written := r.2.written ++ [(off, len, crc)], lastBlock := now }
        (.done .ok 0 (le 4 u.bytes), { s with kept := r.1, live := s.live.setSession u })

/-- UPD.BLOCK by the rows of R458. -/
def updBlock (b : Mailbox) (s : State) : Reply × State :=
  let p := b.payload
  let off := rd p 0 4
  let len := rd p 4 2
  let segOff := rd p 6 2
  let segLen := rd p 8 2
  let crc := rd p 12 4
  checked [(0, off % 16 == 0), (4, inRange 16 4096 len && len % 16 == 0),
      (6, decide (segOff + 16 ≤ len) && segOff % 16 == 0),
      (8, inRange 16 480 segLen && segLen % 16 == 0 && decide (segOff + segLen ≤ len)), resv b 10 2]
    (match s.live.fwu.session with
     | none => (refuse .state 0x01, s)
     | some u =>
       if u.total < off + len then (refuse .badParam 0x04, s)
       else if u.written.contains (off, len, crc) then
         (.done .ok 0 (le 4 u.bytes), s.onLive fun l => l.setSession { u with lastBlock := l.mt.now })
       else if u.written.any (fun w => decide (w.1 < off + len) && decide (off < w.1 + w.2.1)) then
         (refuse .state 0x02, s.onLive fun l => l.blockRejected 1 off)
       else takeSegment s u off len crc segOff ((p.drop 16).take segLen))
    fun r => (r, s)

def execUpdBlock (s : State) : Result := .next (s.commandK 0x6802 fun _ b s => updBlock b s)

/-! ### UPD.END and UPD.ABORT (R459, R473) -/

/-- Why the image in STAGING does not end a session: 1 bytes missing, 2 image CRC, 3 header. -/
def endFault (fl : Memory) (u : UpdSession) : Option Nat :=
  let h := imgHdr fl stagingAt
  if u.bytes ≠ u.total then some 1
  else if (crc32 (flashRead fl stagingAt u.total)).toNat ≠ u.crc then some 2
  else if !imgPresent h || imgKind h ≠ u.kind || 512 + imgBodyLen h ≠ u.total then some 3
  else none

/-- UPD.END: the image is pending installation, and RESTART asks for the restart. -/
def updEnd (b : Mailbox) (s : State) : Reply × State :=
  let p := b.payload
  checked [(0, decide (byteAt p 0 ≤ 1)), resv b 1 3]
    (match s.live.fwu.session with
     | none => (refuse .state 0x01, s)
     | some u =>
       match endFault s.kept.flash u with
       | some d => (refuse .crc d, s)
       | none =>
         let now := s.live.mt.now
         let l := (s.live.endUpdate 1).setFwu fun f => { f with
           restart := if byteAt p 0 = 1 then some (now, now) else none }
         (okReply, { s with kept := { s.kept with updPending := some u.kind }, live := l }))
    fun r => (r, s)

def execUpdEnd (s : State) : Result := .next (s.commandK 0x6803 fun _ b s => updEnd b s)

/-- UPD.ABORT closes the session and discards the pending image. -/
def updAbort (b : Mailbox) (s : State) : Reply × State :=
  checked [resv b 0 4]
    (if s.live.fwu.session.isNone && s.kept.updPending.isNone then (refuse .state, s)
     else
       let l := (s.live.endUpdate 2).setFwu fun f => { f with restart := none }
       (okReply, { s with kept := s.kept.stagingEmpty, live := l }))
    fun r => (r, s)

def execUpdAbort (s : State) : Result := .next (s.commandK 0x6804 fun _ b s => updAbort b s)

/-! ### UPD.STATUS and UPD.CONFIG (R474, R475) -/

/-- The 32 bytes of UPD.STATUS. -/
def State.updRecord (s : State) : List Byte :=
  let k := s.kept
  let u := s.live.fwu
  le 1 (b2n u.session.isSome) ++ le 1 (k.updPending.getD 0xFF) ++ le 1 (k.assay.getD 0xFF) ++ le 1 s.live.gates
    ++ le 4 ((u.session.map UpdSession.bytes).getD 0) ++ le 4 (k.activeVersion 0) ++ le 4 (k.activeVersion 1)
    ++ le 4 (k.fallbackVersion 0) ++ le 4 (k.fallbackVersion 1) ++ le 1 (min 3 (k.counter 12)) ++ le 1 u.last
    ++ le 2 (k.counter 13) ++ le 2 (k.epoch 0) ++ le 2 (k.epoch 1)

def execUpdStatus (s : State) : Result := .next (s.commandK 0x6805 fun _ _ s => (.done .ok 0 s.updRecord, s))

def UpdCfg.ofBytes (p : List Byte) : UpdCfg :=
  { vmin := rd p 0 2, ownerLock := bit (byteAt p 2) 0, noMotion := bit (byteAt p 2) 1,
    ownerSlot := if byteAt p 3 = 0xFF then none else some (byteAt p 3) }

def Live.applyUpdCfg (l : Live) (p : List Byte) : Live := l.setFwu fun f => { f with cfg := UpdCfg.ofBytes p }

/-- The request changes OWNER_LOCK or OWNER_SLOT, which needs button presence. -/
def Live.updOwnerChange (l : Live) (p : List Byte) : Bool :=
  let c := UpdCfg.ofBytes p
  c.ownerLock != l.fwu.cfg.ownerLock || c.ownerSlot != l.fwu.cfg.ownerSlot

/-- What R453 asks of the slot named, when it holds a key. -/
def State.ownerSlotCheck (s : State) (m : MbRef) (i : Nat) : Option (Reply × State) :=
  let k := s.kept.cells.slot i
  if !k.filled then none
  else if k.domain ≠ 1 || s.kept.cells.slotState i = 2 then some (refuse .locked, s.usageEvent 1 i 0x6806 (MbRef_source m))
  else if k.type < 3 then some (refuse .badParam 3, s)
  else if k.attr ≠ 1 then some (refuse .keyUsage, s.usageEvent 0 i 0x6806 (MbRef_source m))
  else none

/-- UPD.CONFIG, which always persists. -/
def updConfig (m : MbRef) (b : Mailbox) (s : State) : Reply × State :=
  let p := b.payload
  let slot := byteAt p 3
  checked [(0, inRange 18000 28000 (rd p 0 2)), (2, decide (byteAt p 2 ≤ 3)), (3, decide (slot ≤ 63) || slot == 0xFF),
      resv b 4 4]
    (match if slot = 0xFF then none else s.ownerSlotCheck m slot with
     | some r => r
     | none =>
       let r := (s.live.applyUpdCfg p).persist m 0x6806 0 p
       (r.1, { s with live := r.2 }))
    fun r => (r, s)

def execUpdConfig (s : State) : Result := .next (s.commandK 0x6806 fun m b s => updConfig m b s)

/-! ### SYS.ASSAY (R466, R468, R476) -/

/-- A LOST module record (R435). -/
def lostModuleRecord (st : Memory) : Bool := (List.range 256).any fun n => (recState st n).1 == .lost

/-- The foundry firmware's own start-up check: both dies adopted or reinitialised, no root fault, no LOST record. -/
def State.startCheck (s : State) : Bool :=
  let u := s.live.sup
  let c := s.kept.cells
  (List.range 2).all (fun d => u.adopted.getD d false || u.reinit.getD d false)
    && [c.foundry, c.owner, c.service].all (fun (r : Root) => !r.present || r.tagOk) && !lostModuleRecord s.kept.store

/-- SYS.ASSAY completes with the write unit that ends the Assay. -/
def sysAssay (m : MbRef) (b : Mailbox) (s : State) : Reply × State :=
  let kind := byteAt b.payload 0
  checked [(0, decide (kind ≤ 1)), resv b 1 3]
    (if s.kept.assay ≠ some kind then (refuse .state 1, s)
     else if s.assayExpired then (refuse .state 2, s)
     else if kind = 0 && !s.startCheck then (refuse .state 3, s)
     else
       let epoch := if kind = 0 && s.kept.factoryFw then 0 else imgEpoch (imgHdr s.kept.flash (activeHdr kind))
       (.wait, s.onLive fun l => l.enqueue (.assayed kind epoch) (some m) [] true))
    fun r => (r, s)

def execSysAssay (s : State) : Result := .next (s.commandK 0x0103 fun m b s => sysAssay m b s)

/-! ### Rows of time -/

/-- GATE_RECORD_WRITE (R461): every 10 ms in RUN the verdicts go to retained SRAM. -/
def gateRecordWrite (l : Live) : Live :=
  if l.pwr.mode != .run || l.sup.phase != .running || l.fwu.gate.any (fun g => decide (l.mt.now < g.mt + ms 10)) then l
  else l.setFwu fun f => { f with gate := some { moving := l.gateMoving, lock := f.cfg.ownerLock, mt := l.mt.now } }

def execGateRecordWrite (s : State) : Result := .next (s.onLive gateRecordWrite)

/-- SESSION_IDLE_TIMEOUT (R456): 60 s without an accepted block. -/
def sessionIdle (l : Live) : Live :=
  match l.fwu.session with
  | none => l
  | some u => if l.mt.now < u.lastBlock + ms 60000 then l else l.endUpdate 3

def execSessionIdleTimeout (s : State) : Result := .next (s.onLogic sessionIdle)

/-- ASSAY_RUN_STEP (R466): each 10 s in RUN counts in counter 13; at 600 s the window expires. -/
def assayRunStep (s : State) : State :=
  match s.kept.assay with
  | none => s
  | some kind =>
    let l := s.live.countTime
    if l.fwu.runPart < ms 10000 || l.pwr.mode != .run then s
    else
      let l := (l.setFwu fun f => { f with runPart := f.runPart - ms 10000 }).enqueue (.add 13 10) none [] false
      let n := s.kept.counter 13 + 10
      let l := if 600 ≤ n && !l.fwu.expired then
          (l.setFwu fun f => { f with expired := true }).raise 0x1C3 warn 2
            (le 1 kind ++ le 1 (s.kept.counter 12) ++ le 2 n)
        else l
      { s with live := l }

def execAssayRunStep (s : State) : Result := .next (assayRunStep s)

end Sys2Proof.Machine
end

