-- ==== Sys2Proof/Machine/Wake.lean ====
section
/-! DEFINITION. PWR.PARK, the later drain steps, PARK, wake inputs, WAKE-CHECK and its end (R47 to R52, R267 to R272, R340,
R343, R344), NM.WAKES. -/

namespace Sys2Proof.Machine

def Live.setWake (l : Live) (f : WakeState → WakeState) : Live := l.setPwr fun p => { p with wake := f p.wake }

/-! ### PWR.PARK (R47, R51) -/

/-- PWR.PARK: accepted in RUN, which enters DRAIN, and in the commit window, whose sources it replaces (R339). -/
def pwrPark (b : Mailbox) (l : Live) : Reply × Live :=
  let p := b.payload
  let force := byteAt p 8
  let arm := fun (l : Live) => l.setWake fun w => { w with
    mask := byteAt p 0 ||| 0x80, canMask := byteAt p 1, wkMask := rd p 2 2, alarmS := rd p 4 4, force := force == 1 }
  checked [(0, byteAt p 0 &&& 0x7F != 0), (1, decide (byteAt p 1 < 16)), (8, decide (force ≤ 1))]
    (if l.pwr.mode == .drain && l.nm.byRing && decide (l.pwr.drain.step < 5) then
       (okReply, (arm l).setWake fun w => { w with canMask := w.canMask ||| 2 ^ l.nm.cfg.ch })
     else if l.pwr.mode != .run then (refuse .state, l)
     else if l.doorHeld then (refuse .state 0x02, l)
     else if l.nm.cfg.on && force = 0 then (refuse .state 0x01, l)
     else (okReply, (arm l).drainEntry))
    fun r => (r, l)

def execPwrPark (s : State) : Result := .next (s.command 0x0203 fun _ b l => pwrPark b l)

/-! ### Wake inputs (R267 to R272, R281) -/

def Live.wkIn (l : Live) (n : Nat) : WakeInput := l.fio.wk.getD n WakeInput.init

/-- The reading of a land in mV: between the two thresholds it keeps the previous one (R267). -/
def WakeInput.read (w : WakeInput) (c : WakeCfg) (mv : Nat) : Bool :=
  if c.toBat then (if 6000 < mv then true else if mv < 3000 then false else w.closed)
  else if mv < 2500 then true else if 4000 < mv then false else w.closed

/-- A reading is the firing level (R269). -/
def WakeInput.fires (w : WakeInput) (c : WakeCfg) (closed : Bool) : Bool :=
  if c.level = 0 then closed else if c.level = 1 then !closed else closed != w.reference

/-- PWR.PARK or PARK_CFG has enabled this input. -/
def Live.wkEnabled (l : Live) (n : Nat) : Bool := bit l.pwr.wake.mask 0 && bit l.pwr.wake.wkMask n

/-- The poll interval in force of a source in PARK, in ms, with its doublings (R279, R344): wake inputs and token search. -/
def Live.parkInterval (l : Live) (idx : Nat) : Nat :=
  let d := 2 ^ l.nm.doublings.getD idx 0
  if idx < 16 then min 2048 (8 * 2 ^ (l.wkIn idx).inForce.parkPoll * d)
  else if idx = 21 then min 32000 (l.token.cfg.parkMs * d) else 0

/-- An event of a wake input. -/
def Live.wkEvent (l : Live) (n sev cause : Nat) (reading : Bool) : Live :=
  l.raise (0x0E0 + n) sev cause
    (le 1 (b2n reading) ++ le 1 (b2n (l.wkIn n).cfg.toBat) ++ le 2 (l.wkIn n).mv ++ le 2 (l.parkInterval n) ++ le 2 0)

/-- WAKE_POLL_PARK (R268, R271): a poll with the park wetting pulse; an armed input that reads its firing level becomes a
candidate, one not yet armed is armed after two polls at the other level. -/
def wakePollPark (n mv : Nat) (l : Live) : Live :=
  let w := l.wkIn n
  if !l.wkEnabled n || !(l.pwr.mode == .park || (l.pwr.mode == .drain && l.pwr.drain.step == 5))
      || decide (l.mt.now < w.polledAt + ms (l.parkInterval n)) then l
  else
    let r := w.read w.inForce mv
    let fires := w.fires w.inForce r
    l.setWk n fun w => { w with
      closed := r, mv := mv, polledAt := l.mt.now,
      otherRun := if w.armed || fires then 0 else w.otherRun + 1,
      armed := w.armed || (!fires && decide (1 ≤ w.otherRun)),
      cand := if w.armed && fires then max 1 w.cand else w.cand }

def execWakePollPark (wk mv : Nat) (s : State) : Result := .next (s.onLive (wakePollPark wk mv))

/-- WAKE_QUALIFY_POLL (R270): every 4 ms in WAKE-CHECK.  A candidate counts its polls at the firing level; a poll at the
other level ends the candidacy, cause 2. -/
def wakeQualifyPoll (n mv : Nat) (l : Live) : Live :=
  let w := l.wkIn n
  if !l.wkEnabled n || l.pwr.mode != .wakeCheck || decide (l.mt.now < w.polledAt + ms 4) then l
  else
    let r := w.read w.inForce mv
    let fires := w.fires w.inForce r
    let l := l.setWk n fun w => { w with
      closed := r, mv := mv, polledAt := l.mt.now,
      otherRun := if w.armed || fires then 0 else w.otherRun + 1,
      armed := w.armed || (!fires && decide (1 ≤ w.otherRun)),
      cand := if !fires then 0 else if w.armed then w.cand + 1 else 0 }
    if !fires && decide (0 < w.cand) then l.wkEvent n warn 2 r else l

def execWakeQualifyPoll (wk mv : Nat) (s : State) : Result := .next (s.onLogic (wakeQualifyPoll wk mv))

/-- A filtered change of a wake input: cause 0, and in DRAIN before step 5 a change into the firing level of an enabled
input makes it a candidate. -/
def Live.wkChange (l : Live) (n : Nat) (closed : Bool) : Live :=
  let l := if (l.die 0).orphan then l
    else (l.setWk n fun w => { w with reported := closed }).wkEvent n info 0 closed
  let c := (l.wkIn n).cfg
  if l.pwr.mode == .drain && decide (l.pwr.drain.step < 5) && l.wkEnabled n && (c.level == 2 || closed == (c.level == 0))
  then l.setWk n fun w => { w with cand := max 1 w.cand } else l

/-- WAKE_POLL_RUN (R272): the 1 ms poll with the RUN wetting current, its filter, cleaning and a land driven from outside. -/
def wakePollRun (n mv : Nat) (l : Live) : Live :=
  if !(l.pwr.mode == .run || l.pwr.mode == .drain || l.pwr.mode == .wakeCheck) || decide (15 < n) then l
  else
    let w := l.wkIn n
    let r := w.read w.cfg mv
    let k := if w.fresh then (if r then w.cfg.filtN else 0) else if r then min (w.count + 1) w.cfg.filtN else w.count - 1
    let f := if w.fresh then r else if k = w.cfg.filtN then true else if k = 0 then false else w.filtered
    let l := l.setWk n fun w => { w with
      closed := r, mv := mv, fresh := false, count := k, filtered := f, reported := if w.fresh then f else w.reported,
      cleanUntil := if w.cfg.clean && r && !w.closed && l.pwr.mode == .run then l.mt.now + ms 2 else w.cleanUntil }
    let l := if !w.fresh && f != w.filtered then l.wkChange n f else l
    if w.cfg.toBat || decide (mv ≤ 8500) || l.pwr.mode != .run || w.drivenRaised.any (fun t => l.mt.now < t + ms 10000) then l
    else (l.setWk n fun w => { w with drivenRaised := some l.mt.now }).wkEvent n warn 4 r

def execWakePollRun (wk mv : Nat) (s : State) : Result := .next (s.onLive (wakePollRun wk mv))

/-! ### Drain steps 4 to 6 (R51, R271, R339) -/

/-- DRAIN_SAVE: drain step 4, 1 ms after step 3, and in a sleep commit not before the end of its window. -/
def drainSave (l : Live) : Live :=
  if l.pwr.mode != .drain || l.pwr.drain.step ≠ 3 || decide (l.sinceStep < ms 1) || (l.nm.byRing && !l.nm.windowOver) then l
  else
    let l := (l.setDrain 4).setNm fun n => { n with committed := if n.byRing then l.mt.now else 0 }
    let l := (l.saveLedger.keepKeepers.forceShadow).setLink fun k => { k with
      parkTx := some (l.mt.now + ms 1), ports := k.ports.map fun (p : LinkPort) => { p with quiet := true } }
    l

def execDrainSave (s : State) : Result := .next (s.onLogic drainSave)

/-- A shadow save waits or runs. -/
def Live.shadowBusy (l : Live) : Bool := (l.param.queue ++ l.param.active.toList).any fun u => u.kind == .shadow

/-- Arms one enabled input: its reference, and whether it must first be released (R271). -/
def Live.armInput (l : Live) (n : Nat) : Live :=
  let l := l.setWk n fun w => { w with
    inForce := w.cfg, reference := w.closed, otherRun := 0, armed := false, cand := 0, polledAt := l.mt.now }
  if !l.wkEnabled n then l
  else
    let w := l.wkIn n
    if w.inForce.level ≠ 2 && w.fires w.inForce w.closed then l.wkEvent n notice 3 w.closed
    else l.setWk n fun w => { w with armed := true }

/-- DRAIN_ARM: drain step 5, 5 ms after step 4 and with the shadow save complete; TRX_STBn goes to standby. -/
def drainArm (l : Live) : Live :=
  if l.pwr.mode != .drain || l.pwr.drain.step ≠ 4 || decide (l.sinceStep < ms 5) || l.shadowBusy then l
  else
    let l := (List.range 16).foldl (fun l n => l.armInput n) (l.setDrain 5)
    let l := (List.range 4).foldl (fun l n => l.abandonAll n 3) l
    (l.setPwr fun p => { p with v5On := false, v5OffUntil := 0 }).driveTrx

def execDrainArm (s : State) : Result := .next (s.onLogic drainArm)

/-- The logic loses its supply at entry to PARK: F1 is halted, the link ports are silent, the charger and the hold-up converter
are off, and nothing runs.  DESIGN CHOICE: a sag in force is kept through PARK. -/
def Live.logicOff (l : Live) : Live :=
  let l := l.unpowerOutputs.tokensEnd
  { l with
    sup := { l.sup with phase := .off, islandReset := [] },
    f1 := { l.f1 with run := .halted, waiting := false },
    link := { l.link with
      ports := l.link.ports.map fun (p : LinkPort) => { p with lock := false, brk := false, quiet := true }, wakeTx := none, parkTx := none },
    can := { l.can with chans := l.can.chans.map fun (c : CanChan) => { c with wakeOk := false } },
    audio := { l.audio with zones := l.audio.zones.map fun (z : Zone) => { z with chimeAt := none, playing := none, next := none, queue := [] } },
    pwr := { l.pwr with
      v5On := false, v5OffUntil := 0, chargerOn := false, holdup := false, vlGoodSince := none, coreStep := 3 } }

/-- PARK_ENTRY: drain step 6, 1 ms after step 5. -/
def parkEntry (l : Live) : Live :=
  if l.pwr.mode != .drain || l.pwr.drain.step ≠ 5 || decide (l.sinceStep < ms 1) then l
  else
    let l := (l.setMode .park).logicOff
    let l := (l.setNm fun n => { n with byRing := false, windowOver := false }).nmFollow
    ((l.setDrain 0).setWake fun w => { w with parkAt := l.mt.now, latched := 0, indices := [] }).driveReady

def execParkEntry (s : State) : Result := .next (s.onLogic parkEntry)

/-! ### The seal (R92, R412) -/

/-- The seal loop is measured; an opening is logged. -/
def State.sealTest (s : State) (kohm : Nat) : State :=
  let opened := decide (10 < kohm)
  let was := s.live.host.sealOpen
  let found := if 1000 < kohm then 0xFFFF else kohm
  let s := s.onLive fun l => { l with host := { l.host with sealOpen := opened, sealKohm := found } }
  if opened && !was then
    ({ s with kept := { s.kept with cells := s.kept.cells.sealOpened s.live.mt.now } }).onLive fun l => l.raise 0x014 warn 0 (le 2 found)
  else s

/-! ### Wake sources (R49, R50, R52, R340) -/

/-- The index of R343 of a source: wake inputs, CAN channels, link, token search, service UART. -/
def wakeIndex (src idx : Nat) : Option Nat :=
  if src = 0 then some idx else if src = 1 then some (16 + idx) else if src = 2 then some 20
  else if src = 4 then some 21 else if src = 6 then some 22 else none

/-- The source bit of an index of R343. -/
def indexSource (i : Nat) : Nat := if i < 16 then 0 else if i < 20 then 1 else if i = 20 then 2 else if i = 21 then 4 else 6

/-- A source that is enabled may fire now: a candidate input, an enabled channel, a due alarm, a late wake. -/
def Live.mayFire (l : Live) (src idx : Nat) : Bool :=
  let w := l.pwr.wake
  bit w.mask src && (match src with
    | 0 => l.wkEnabled idx && decide ((l.wkIn idx).cand = 1)
    | 1 => decide (idx < 4) && bit w.canMask idx
    | 3 => w.alarmS != 0 && l.pwr.mode != .drain && decide (w.parkAt + w.alarmS * 1000000000 ≤ l.mt.now)
    | 7 => w.late && l.pwr.mode == .park
    | _ => decide (src < 7))

/-- A source fires during DRAIN: the drain is aborted before step 4, with an ALIVE at the entry to RUN (R335), and from then on the
source is latched. -/
def Live.fireInDrain (l : Live) (src : Nat) : Live :=
  if l.mayAbort then
    if l.nm.byRing then l.commitAbort src 0 0xFF src (.wake src) else (l.drainAbort src).sendAlive
  else if l.pwr.wake.late then l
  else (l.setWake fun w => { w with late := true }).setNm fun n => { n with lateAt := l.mt.now, lateSrc := src }

/-- The source joins those latched. -/
def Live.latchSource (l : Live) (src idx : Nat) : Live :=
  let w := l.pwr.wake
  let i := (wakeIndex src idx).toList.filter fun i => !w.indices.contains i
  l.setWake fun w => { w with
    latched := w.latched ||| 2 ^ src, indices := w.indices ++ i,
    latchMt := if w.latched = 0 then l.mt.now else w.latchMt, latchIdx := if w.latched = 0 then idx else w.latchIdx }

/-- Every heartbeat of R506 counts from now. -/
def Live.freshBeats (l : Live) : Live :=
  let now := l.mt.now
  { l with
    sup := { l.sup with hbF0 := now, hbF1 := now, hbAnvil := now, service := now },
    load := { l.load with dies := l.load.dies.map fun (d : DieState) => { d with lastHb := now, fresh := now, stale := false } } }

/-- Wake steps 1 to 3: WAKE-CHECK with the logic at 37.5 MHz, supplies on, VHOLD measured and R43 evaluated from it, the wires
cooled, the outputs powered and off. -/
def Live.wakeCheck (l : Live) (src idx : Nat) (tj : List Int) (vholdMv : Nat) : Live :=
  let l := (l.setMode .wakeCheck).setPwr fun p => { p with v5On := true, chargerOn := true, coreStep := 3 }
  let l := energyEvaluation vholdMv l
  let l := ({ l with sup := { l.sup with phase := .running } }).freshBeats
  let l := (l.setWake fun w => { w with
    latched := 0, indices := [], linkOk := false, checkAt := l.mt.now, parkedNs := l.mt.now - w.parkAt }).latchSource src idx
  let l := (l.parkCooled.wakeLoads tj).wakeFio.driveReady
  if src = 4 then l.startAttempt idx none else l

/-- A source that may fire does so. -/
def Live.fireSource (l : Live) (src idx : Nat) (tj : List Int) (vholdMv : Nat) : Live :=
  if !l.mayFire src idx || (l.pwr.mode != .park && l.sup.phase != .running) then l
  else match l.pwr.mode with
    | .drain => l.fireInDrain src
    | .park => l.wakeCheck src idx tj vholdMv
    | .wakeCheck => l.latchSource src idx
    | _ => l

/-- A source fires; a wake from PARK also tests the seal, before READY_N can fall (R90). -/
def State.wakes (s : State) (src idx : Nat) (x : WakeData) : State :=
  let t := s.onLive fun l => l.fireSource src idx x.tj x.vholdMv
  if s.live.pwr.mode == .park && t.live.pwr.mode == .wakeCheck then t.sealTest x.sealKohm else t

/-- WAKE_SOURCE_FIRE: source bit, input, channel or antenna, and what the module measures at the wake. -/
def execWakeSourceFire (src idx : Nat) (x : WakeData) (s : State) : Result := .next (s.wakes src idx x)

/-- HWAKE_N_LOW: the host wake source. -/
def execHwakeNLow (x : WakeData) (s : State) : Result := .next (s.wakes 5 0 x)

/-! ### The end of WAKE-CHECK (R50, R340, R343, R344) -/

/-- Entry to RUN ends throttling, with EV_NM_THROTTLE cause 1 for each source that was throttled. -/
def Live.throttleEnds (l : Live) : Live :=
  let was := (List.range 23).filter fun i => l.nm.doublings.getD i 0 != 0
  let fw := l.nm.fwPark
  let l := l.setNm fun n => { n with doublings := List.replicate 23 0, fwPark := List.replicate 23 0 }
  was.foldl (fun l i => l.raise 0x146 warn 1 (le 1 i ++ le 1 (fw.getD i 0) ++ le 4 (l.parkInterval i))) l

/-- The time in PARK does not count for the keepers (R342). -/
def Live.keepersParked (l : Live) : Live :=
  let d := l.pwr.wake.parkedNs
  l.setNm fun n => { n with
    nodes := n.nodes.map fun (x : NmNode) => if x.since.isSome
      then { x with since := x.since.map (· + d), away := x.away + d } else x,
    keepers := n.keepers.map fun (k : Keeper) => if k.closed.isNone then { k with away := k.away + d } else k }

/-- After a late wake of a sleep commit the ring hears a WAKE with source 7 first. -/
def Live.lateWake (l : Live) : Live :=
  let n := l.nm
  if n.committed = 0 || !bit l.pwr.wake.latched 7 then l.sendAlive
  else
    let l := l.setNm fun n => { n with lateWakes := n.lateWakes + 1 }
    let l := l.raise 0x143 notice 0 (le 1 n.lateSrc ++ le 1 0 ++ le 4 ((n.lateAt - n.committed) / 1000))
    (l.nmSend (.wake 7)).ringRestarts

/-- Foundry firmware starts F1 with the active application image, its PC at ENTRY (R478). -/
def State.startF1 (s : State) : State :=
  let h := imgHdr s.kept.flash (activeHdr 1)
  let entry := rd h 20 4
  if !s.kept.activePresent 1 then s
  else if entry < 0x200 || 512 + imgBodyLen h ≤ entry then
    s.onLive fun l => ({ l with f1 := { l.f1 with run := .halted } }).raise 0x00D sevFault 3 (le 4 entry)
  else s.onLive fun l => { l with
    sup := { l.sup with hbF1 := l.mt.now },
    f1 := { F1State.init with run := .running, pc := 0x180000 + entry, dmem := l.f1.dmem } }

/-- Wake step 4: RUN, EV_MODE_WAKE with every source latched and the number of the input or channel. -/
def Live.enterRun (l : Live) (idx : Nat) : Live :=
  let mask := l.pwr.wake.latched
  let l := l.setMode .run
  let l := l.setPwr fun p => { p with coreStep := l.coreAllowed }
  let l := (l.driveReady.raise 0x031 notice 0 (le 1 mask ++ le 1 idx)).linkRun.throttleEnds
  let l := l.keepersParked.lateWake.nmFollow
  let l := { l with fio := { l.fio with wk := l.fio.wk.map fun (w : WakeInput) => { w with cand := 0 } } }
  (l.setWake fun w => { w with latched := 0, indices := [], late := false }).setNm fun n => { n with committed := 0 }

/-- A source is validated (R49). -/
def Live.validated (l : Live) (src idx : Nat) : Bool :=
  match src with
  | 0 => decide (3 ≤ (l.wkIn idx).cand)
  | 1 => (l.chan idx).wakeOk
  | 2 => l.link.ports.any (·.lock) && l.pwr.wake.linkOk
  | 4 => l.token.wakeOk
  | 6 => l.host.uartOpen && decide (l.pwr.wake.checkAt ≤ l.host.uartLast)
  | _ => true

/-- WAKE_VALIDATED. -/
def wakeValidated (src idx : Nat) (s : State) : State :=
  let l := s.live
  if l.sup.phase != .running || l.pwr.mode != .wakeCheck || !bit l.pwr.wake.latched src || !l.validated src idx then s
  else
    let l := if src = 0 then l.wkEvent idx notice 1 (l.wkIn idx).closed else l
    ({ s with live := l.enterRun idx }).startF1

def execWakeValidated (src idx : Nat) (s : State) : Result := .next (wakeValidated src idx s)

/-- Any command of the host in WAKE-CHECK validates the wake (R47, R70). -/
def State.hostWakes (s : State) : State :=
  if s.live.pwr.mode == .wakeCheck then (s.onLive fun l => l.enterRun l.pwr.wake.latchIdx).startF1 else s

/-- A false wake counted against one source, which may double its poll interval. -/
def Live.falseWake (l : Live) (i : Nat) : Live :=
  let total := min 0xFFFF (l.nm.fwTotal.getD i 0 + 1)
  let park := min 255 (l.nm.fwPark.getD i 0 + 1)
  let l := (l.setNm fun n => { n with fwTotal := n.fwTotal.set i total, fwPark := n.fwPark.set i park }).raise 0x032 warn
    (indexSource i) (le 2 total)
  let old := l.parkInterval i
  let l' := l.setNm fun n => { n with doublings := n.doublings.modify i (· + 1) }
  if l.nm.cfg.throttleN = 0 || park < l.nm.cfg.throttleN || l'.parkInterval i = old then l
  else l'.raise 0x146 warn 0 (le 1 i ++ le 1 park ++ le 4 (l'.parkInterval i))

/-- WAKE_CHECK_MAX_EXPIRY: back to PARK; the wire states are saved again. -/
def wakeCheckExpiry (l : Live) : Live :=
  if l.pwr.mode != .wakeCheck || decide (l.mt.now < l.pwr.wake.checkAt + ms l.pwr.cfg.wakeCheckMax) then l
  else
    let l := l.pwr.wake.indices.foldl (fun l i => l.falseWake i) l
    let l := (l.saveLedger.setMode .park).logicOff
    let l := { l with fio := { l.fio with wk := l.fio.wk.map fun (w : WakeInput) => { w with cand := 0 } } }
    (l.setWake fun w => { w with latched := 0, indices := [] }).driveReady

def execWakeCheckMaxExpiry (s : State) : Result := .next (s.onLogic wakeCheckExpiry)

/-! ### NM.WAKES (R348) -/

def Live.wakesRecord (l : Live) : List Byte :=
  (List.range 23).flatMap fun i => le 2 (l.nm.fwTotal.getD i 0) ++ le 1 (l.nm.fwPark.getD i 0)
    ++ le 1 (l.nm.doublings.getD i 0) ++ le 2 (l.parkInterval i)

/-- NM.WAKES; CLEAR zeroes every FW_TOTAL and persists it, and the command completes with that. -/
def nmWakes (m : MbRef) (b : Mailbox) (l : Live) : Reply × Live :=
  let f := byteAt b.payload 0
  checked [(0, decide (f < 2))]
    (if f = 0 then (.done .ok 0 l.wakesRecord, l)
     else
       let z := List.replicate 23 0
       (.wait, (l.setNm fun n => { n with fwTotal := z }).enqueue (.config 0x4405 0 (z.flatMap (le 2))) (some m)
         l.wakesRecord true))
    fun r => (r, l)

def execNmWakes (s : State) : Result := .next (s.command 0x4405 fun m b l => nmWakes m b l)

end Sys2Proof.Machine
end

