-- ==== Sys2Proof/Machine/Restore.lean ====
section
/-! DEFINITION. What a start restores from the parameter store (R158, R578): every configuration takes its persisted value or its
default. -/

namespace Sys2Proof.Machine

/-- Gives object obj of a command its persisted bytes, where there are any. -/
def Live.restoring (l : Live) (st : Memory) (opc obj : Nat) (f : List Byte → Live → Live) : Live :=
  match configRead st opc obj with
  | some p => f p l
  | none => l

/-- The same over n objects. -/
def Live.restoringAll (l : Live) (st : Memory) (opc n : Nat) (f : Nat → List Byte → Live → Live) : Live :=
  (List.range n).foldl (fun l i => l.restoring st opc i (f i)) l

/-! ### Outputs of one die -/

/-- Load channel n takes the default configuration as a single channel; its holds and LATCH stay. -/
def Live.loadDefault (l : Live) (n : Nat) : Live :=
  l.setCh n fun c => { c with
    cfg := LoadCfg.default n, lowest := n, retriesLeft := (LoadCfg.default n).retries, openOn := false }

/-- The load channels of a die take their persisted configurations or the defaults. -/
def Live.restoreLoads (l : Live) (st : Memory) (d : Nat) : Live :=
  let mine := (List.range 24).map (24 * d + ·)
  let l := mine.foldl (fun l n => l.loadDefault n) l
  mine.foldl (fun l n => if (l.ch n).lowest = n
    then l.restoring st 0x1001 n fun k l => l.applyLoadCfg n (LoadCfg.ofBytes (loadUnkeep n k)) else l) l

/-- The configuration that bridge pair p has in the store. -/
def storedBridge (st : Memory) (p : Nat) : BridgeCfg :=
  match configRead st 0x1101 p with
  | some k => BridgeCfg.ofBytes (0 :: k)
  | none => BridgeCfg.default

/-- The configuration that valve v has in the store. -/
def storedValve (st : Memory) (v : Nat) : ValveCfg :=
  match configRead st 0x2001 v with
  | some k => ValveCfg.ofBytes k
  | none => ValveCfg.default

/-- The configuration of bank b in the store, or the default: stagger and ICONT. -/
def storedBank (st : Memory) (b : Nat) : Nat × Nat :=
  match configRead st 0x2002 b with
  | some p => (rd p 2 2, byteAt p 4)
  | none => (Bank.init.stagger, Bank.init.icont)

/-- The banks take their persisted configurations or the defaults, those with an event in progress after its end (R158). -/
def Live.restoreBanks (l : Live) (st : Memory) : Live :=
  (List.range 4).foldl (fun l b =>
    l.setBank b fun x =>
      let x := { x with newCfg := some (storedBank st b) }
      if (bankValves b).any fun w => (l.valve' w).active then x else x.takeNew) l

/-- A field channel starts anew with its default configuration: inputs restart their filters, holds and LATCH stay. -/
def FioCh.reinit (c : FioCh) (n : Nat) : FioCh :=
  { FioCh.init n with
    thermal := c.thermal, uvhold := c.uvhold, latch := c.latch, rdelay := c.rdelay, v := c.v, i := c.i, tj := c.tj,
    reported := c.reported }

/-- The field channels take their persisted configurations or the defaults. -/
def Live.restoreFio (l : Live) (st : Memory) : Live :=
  let l := (List.range 32).foldl (fun l n => l.setFio n fun c => c.reinit n) l
  (List.range 32).foldl (fun l n => if (l.fioCh n).lowest = n
    then l.restoring st 0x3001 n fun p l => l.applyFioCfg n p else l) l

/-! ### Everything that is not an output's -/

/-- Bookings, wires, shedding, supply, plan, update and supervision. -/
def Live.restoreSupply (l : Live) (st : Memory) : Live :=
  let l := ((l.restoring st 0x0202 0 fun p l => l.applyPwrCfg p).restoring st 0x1201 0 fun p l => l.applyPlanCfg p)
  let l := l.restoringAll st 0x1202 56 fun k p l => l.applyBook k p
  let l := (l.restoringAll st 0x1301 48 fun _ p l => l.applyWire p).restoring st 0x1302 0 fun p l => l.applyLedgerCfg p
  l.restoring st 0x6806 0 fun p l => l.applyUpdCfg p

def SupConfig.ofBytes (p : List Byte) : SupConfig :=
  { adopt := byteAt p 0, f1HbMs := rd p 2 2, f1Restarts := byteAt p 4, orphanOffS := rd p 6 2 }

/-- SYS.SUPERVISE put in force (R525). -/
def Live.applySupervise (l : Live) (p : List Byte) : Live := { l with sup := { l.sup with cfg := SupConfig.ofBytes p } }

/-- Lighting, LED tables, Patina, audio and wake inputs. -/
def Live.restoreFront (l : Live) (st : Memory) : Live :=
  let both := fun (l : Live) (f : LedTables → LedTables) => l.setLed fun s => { s with active := f s.active, pend := f s.pend }
  let l := (l.restoring st 0x2801 0 fun p l => l.applyLedCfg p).restoring st 0x2809 0 fun p l => l.applyLayout p
  let l := l.restoringAll st 0x2804 8 fun i p l => both l fun t => t.setHalf (i / 2) (i % 2) (unpackHalf p)
  let l := l.restoringAll st 0x2805 16 fun r p l => both l fun t => t.setRow r (p.map BitVec.toNat)
  let l := (l.restoringAll st 0x2806 18 fun k p l => l.applyPatina k p).setLed fun s => { s with pend := s.active }
  let l := l.restoringAll st 0x3801 8 fun n p l => l.applyZoneCfg n p
  let l := l.restoringAll st 0x3805 8 fun n p l => l.setZone n fun z => { z with vRef := some (rd p 0 4), zRef := rd p 4 4 }
  l.restoringAll st 0x3005 16 fun _ p l => l.applyWake p

/-- The filter rules, fourteen of 16 bytes to a record. -/
def Live.restoreRules (l : Live) (st : Memory) : Live :=
  l.restoringAll st 0x4006 74 fun k p l => (List.range 14).foldl (fun (l : Live) j =>
    let i := 14 * k + j
    if 1024 ≤ i then l
    else
      let r := (p.drop (16 * j)).take 16
      l.setCan fun c => { c with active := setRule c.active i r, pend := setRule c.pend i r }) l

/-- CAN, network sleep, link, tokens, peers and the shadow area. -/
def Live.restoreNets (l : Live) (st : Memory) : Live :=
  let l := ((l.restoringAll st 0x4001 4 fun _ p l => l.applyCanCfg p).restoreRules st).restoringAll st 0x4007 2 fun _ p l => l.applyTime p
  let l := l.restoring st 0x4009 0 fun p l => l.applySpeed p
  let l := l.restoring st 0x4401 0 fun p l => l.setNm fun n => { n with cfg := NmCfg.ofBytes p }
  let l := l.restoringAll st 0x4404 4 fun _ p l => (List.range 5).foldl (fun (l : Live) j =>
    let e := (p.drop (16 * j)).take 16
    if allZero e then l else l.setNm fun n => { n with keepers := n.keepers ++ [Keeper.ofBytes e] }) l
  let l := l.restoring st 0x4405 0 fun p l => l.setNm fun n => { n with fwTotal := (List.range 23).map fun i => rd p (2 * i) 2 }
  let l := l.restoring st 0x4801 0 fun p l => l.applyLinkCfg p
  let l := (l.restoring st 0x5001 0 fun p l => l.applyTokenCfg p).restoringAll st 0x5002 2 fun _ p l => l.applyTokenZones p
  let l := l.restoringAll st 0x5003 32 fun r p l => l.setRec r (tokenOfBytes p)
  let l := l.restoring st 0x580E 0 fun p l => l.applyPeer p
  l.restoring st 0x6005 0 fun p l => { l with param := { l.param with shadowApp := rd p 0 4 } }

/-- Every configuration that is no output's, defaults first (R578). -/
def Live.restoreGlobal (l : Live) (st : Memory) : Live :=
  let l := { l with
    pwr := { l.pwr with cfg := PwrConfig.default },
    plan := { l.plan with cfg := PlanConfig.default, loadBook := PlanState.init.loadBook, legBook := PlanState.init.legBook },
    ledger := { l.ledger with
      cfg := LedgerState.init.cfg,
      wires := l.ledger.wires.zipIdx.map fun (x : Wire × Nat) => { x.1 with cfg := (Wire.init x.2).cfg, set := false } },
    audio := { l.audio with
      zones := l.audio.zones.map fun (z : Zone) => { z with cfg := ZoneCfg.default, vRef := none, zRef := 0 },
      routes := AudioState.init.routes },
    fio := { l.fio with wk := l.fio.wk.map fun (w : WakeInput) => { w with cfg := WakeCfg.default } } }
  let l := { l with
    led := { l.led with cfg := LedCfg.default, xt := 0, yt := 0, active := LedTables.default, pend := LedTables.default },
    can := { l.can with
      chans := l.can.chans.map fun (c : CanChan) => { c with cfg := CanCfg.default, mode := 0 }, active := [], pend := [],
      master := none, source := none, speed := none },
    nm := { l.nm with cfg := NmCfg.default, st := .off, keepers := [], fwTotal := List.replicate 23 0 },
    link := { l.link with cfg := LinkCfg.default },
    token := { l.token with
      cfg := TokenCfg.default, recs := List.replicate 32 none,
      ants := l.token.ants.map fun (x : TokenAnt) => { x with delay := 0, zones := TokenAnt.init.zones } },
    key := { l.key with peer := none },
    param := { l.param with shadowApp := 0 },
    sup := { l.sup with cfg := SupConfig.default },
    fwu := { l.fwu with cfg := UpdCfg.default } }
  let l := l.restoring st 0x0105 0 fun p l => l.applySupervise p
  ((l.restoreSupply st).restoreFront st).restoreNets st

end Sys2Proof.Machine
end

