-- ==== Sys2Proof/Machine/Shadow.lean ====
section
/-! DEFINITION. The shadow save and load (16_parameter_store.md): the module window of retained SRAM holds what the spec
keeps in the shadow area, the learning state of the valves (R204).  The layout of the window is the model's own. -/

namespace Sys2Proof.Machine

/-- The learning state of a valve: T_TRAVEL, LAND_DUTY and the strokes learnt. -/
def Valve.window (x : Valve) : List Byte := le 2 x.tTravel ++ le 1 x.landDuty ++ le 1 x.learned

/-- The module window (R440). -/
def Live.window (l : Live) : List Byte := padTo 4096 (l.valve.valves.flatMap Valve.window)

/-- Gives the valves the learning state that a loaded window holds; a LAND_DUTY of 0 is that of a page never written. -/
def Live.loadWindow (l : Live) (image : List Byte) : Live :=
  (List.range 12).foldl (fun l v =>
    let w := image.drop (4 * v)
    if byteAt w 2 = 0 then l
    else l.setValve v fun x => { x with tTravel := rd w 0 2, landDuty := byteAt w 2, learned := byteAt w 3 }) l

/-- SHADOW_SAVE: the pages, the index and the header are durable under the next epoch. -/
def shadowSave (s : State) : State :=
  match s.live.param.active with
  | none => s
  | some u =>
    match u.kind with
    | .shadow =>
      let image := shadowImage s.live s.live.window s.live.f1.dmem
      let k := u.kind.apply image s.kept
      let joined := s.live.param.joined
      let l := s.live.unitDone u []
      let l := joined.foldl (fun l m => l.complete m .ok 0 []) l
      let l := { l with param := { l.param with
        joined := [], lastSave := if joined.isEmpty then 0 else 1, lastSaveMt := l.mt.now } }
      { s with
        kept := k,
        live := l.raise 0x1B4 notice 0 (le 4 (hdrEpoch k.store) ++ le 2 (shadowPages l.param.shadowApp)) }
    | _ => s

def execShadowSave (s : State) : Result := .next (shadowSave s)

/-- The load after a power-on reset (R442): its cause, EV_PARAM_SHADOW, and both windows. -/
def State.loadShadow (s : State) : State :=
  let app := s.live.param.shadowApp
  let (image, cause, n) := shadowLoad s.kept.store app
  s.onLive fun l =>
    let l := l.loadWindow image
    let l := { l with
      param := { l.param with lastLoad := cause },
      f1 := { l.f1 with dmem := memWriteN 0 l.f1.dmem 0x40018000 ((image.drop 4096).take app) } }
    l.raise 0x1B4 (if cause = 1 then notice else warn) cause (le 4 (hdrEpoch s.kept.store) ++ le 2 n)

end Sys2Proof.Machine
end

