-- ==== Sys2Proof/Machine/Restart.lean ====
section
/-! DEFINITION. The logic reset line (R506, R511 to R517): what its assertion ends, failed restarts and LIMP. -/

namespace Sys2Proof.Machine

/-! ### What a logic reset ends -/

/-- The host interface after a logic reset: mailboxes FREE, queues empty, HIF_CONFIG at its reset values (R69, R77, R81). -/
def Live.hostReset (l : Live) : Live :=
  let h := l.host
  { l with host := { HostState.init with
      relay := l.link.position == 0, jumper := h.jumper, sealOpen := h.sealOpen, sealKohm := h.sealKohm } }

/-- MT counts on without a source; lanes retired and crossings failed start anew (R16, R30). -/
def Live.clockReset (l : Live) : Live :=
  { l with
    mt := { l.mt with source := .free, lostFrom := .free, slewErr := 0, slewAcc := 0, locked := false, pairing := [] },
    arch := ArchState.init }

/-- The sag ends without its event (R59), a drain and a wake check are not resumed (R47). -/
def Live.supplyReset (l : Live) : Live :=
  l.setPwr fun p => { p with
    sag := SagState.init, drain := { step := 0, entry := 0, at_ := 0 }, history := [], overvolt := false, overBelow := none,
    coreStep := 3, wake := { p.wake with latched := 0, indices := [], late := false } }

/-- No budget has come from supply control since the reset: the fallback of R22 is in force. -/
def Live.fallBudgets (l : Live) : Live :=
  let l := { l with plan := { l.plan with received := false } }
  { l with plan := { l.plan with
    budgetA := (List.range 4).map l.wantedA, budgetDidt := (List.range 4).map l.wantedDidt } }

/-- Both dies are orphan; edges that they had not accepted are gone, and nothing waits for those they had. -/
def Live.outputsReset (l : Live) : Live :=
  let l := { l with plan := { l.plan with openCmds := [] } }
  let l := ((l.orphan 0).orphan 1).fallBudgets
  { l with
    plan := { l.plan with
      edges := (l.plan.edges.filter fun (e : Edge) => e.phase == .placed).map fun (e : Edge) => { e with owner := none },
      changes := (l.plan.changes.filter fun (c : SlotChange) => c.admitted).map fun (c : SlotChange) => { c with owner := none },
      dropped := [], refused := 0, exceeded := [], dirty := none },
    load := { l.load with
      ch := l.load.ch.map fun (c : LoadCh) => { c with adopted := false },
      br := l.load.br.map fun (b : Bridge) => { b with adopted := false } },
    fio := { l.fio with ch := l.fio.ch.map fun (c : FioCh) => { c with adopted := false }, speedEdges := [], speed := 0 },
    valve := { l.valve with
      valves := l.valve.valves.map fun (v : Valve) => { v with adopted := false },
      banks := l.valve.banks.map fun (b : Bank) => { b with adopted := false } } }

/-- Programmes end and T_CHIME is lost; pending edits, shows and builds of the LED tables are lost (R231, R288). -/
def Live.frontReset (l : Live) : Live :=
  let l := l.dropEdits
  { l with
    audio := { l.audio with
      zones := l.audio.zones.map fun (z : Zone) => { z with
        playing := none, next := none, queue := [], chimeAt := none, cal := none, meets := [0, 0, 0], misses := [0, 0, 0],
        stands := [false, false, false] },
      opens := [], lost := List.replicate 8 false, clash := [], linkIn := [], linkOut := [], tx := List.replicate 8 0 },
    led := { l.led with
      shows := [], builds := [], patinaWants := false, lit := none, measuring := none, runs := [], refreshed := [], fades := [],
      adopted := false } }

/-- Rings cleared, loaded buffers discarded, counters 0, filter edits lost; the configurations stay (R310, R314, R322). -/
def Live.canReset (l : Live) : Live :=
  l.setCan fun c => { c with
    chans := c.chans.map fun (x : CanChan) => { CanChan.init with cfg := x.cfg, mode := x.mode, stb := x.stb },
    pend := c.active, builds := [], lastFwd := [], hostQ := [], f1Q := [], hostDropped := 0, f1Dropped := 0, linkOut := [],
    master := c.master.map fun t => { t with rseq := 0, prev := none },
    source := c.source.map fun t => { t with lastSeq := none, offset := 0, good := 0 },
    speed := c.speed.map fun s => { s with value := none } }

/-- Own consent is withheld with reason 0xF1, and a sleep commit ends (R336, R341). -/
def Live.nmReset (l : Live) : Live :=
  l.setNm fun n => { n with
    consent := false, reason := 0xF1, duplicate := false, nodes := [], dests := [], sendAt := none, waitFor := none, ind := false,
    refused := false, voided := false, indSent := false, ownSent := false, out := [], byRing := false, windowOver := false,
    committed := 0, st := if n.st == .off then .off else .awake }

/-- The command layer's part of the link is lost; a member's forwarding goes on, and it rejoins at its position, after a new
exchange where the ring asks for one (R354, R373, R375).  A master or a module alone forms or joins anew (R372). -/
def Live.linkReset (l : Live) : Live :=
  l.setLink fun k => { k with
    st := if k.st == .member && !k.ringAuth then .member else .alone,
    strike := none, strikeReq := none, strikeLow := none, evtQueue := [], evtDropped := 0, evtTotal := 0, evtDropRaised := none,
    cellErrors := 0, out := [], jobs := [], gathers := [], cells := [], bulk := [], ledCells := [], frags := [], inbox := [],
    carry := [], rival := none, silent := [], authOk := false, authNext := 0, sessions := [], reform := false, wakeTx := none, parkTx := none }

/-- Working RAM of the key store is erased and the store's waiting writes are gone (R420, R425, R448). -/
def Live.storeReset (l : Live) : Live :=
  let l := l.endKeySessions.tokensEnd.setToken fun t => { t with ants := t.ants.map fun (x : TokenAnt) => { x with attempts := 0 } }
  { l with
    key := { l.key with drbgRunning := false },
    param := { l.param with
      queue := [], active := none, joined := [], deferrals := 0, deferCount := 0, deferRaised := none, writes := 0, repairs := 0,
      conflictRaised := [] } }

/-- F1 stands still; its memory keeps its content. -/
def Live.f1Reset (l : Live) : Live := { l with f1 := { F1State.init with dmem := l.f1.dmem } }

/-- Everything that the assertion of the logic reset line ends in the LOGIC die. -/
def Live.logicLost (l : Live) : Live :=
  let l := ({ l with sup := { l.sup with phase := .reset }, fwu := { l.fwu with engineKey := none } }).hostReset.clockReset.supplyReset
  let l := l.outputsReset.frontReset.canReset.driveTrx.nmReset
  l.linkReset.storeReset.f1Reset

/-! ### The assertion itself (R511, R512, R514, R516) -/

/-- The causes that count as a failed restart. -/
def countsFailed (cause sub : Nat) : Bool := cause == 2 || cause == 3 || (cause == 4 && sub == 1)

/-- MT of the failed restarts of the last 10 s. -/
def Live.failedNow (l : Live) : List Nat := l.sup.failed.filter fun t => decide (l.mt.now < t + ms 10000)

/-- A logic reset can occur: not in PARK or LIMP, where the logic has no supply or is held in reset, not in a test mode, not in a
retired part (R47, R411, R523). -/
def Live.resettable (l : Live) : Bool :=
  l.pwr.powered && !(l.sup.phase == .off || l.sup.phase == .monitor || l.sup.phase == .retired)

/-- What the PARK island notes of the reset. -/
def Live.noteReset (l : Live) (cause sub : Nat) : Live :=
  let now := l.mt.now
  let l := l.countTime
  { l with sup := { l.sup with
      cause := cause, subcause := sub, resetMt := now, restarts := (l.sup.restarts + 1) % 2 ^ 32, resetLine := true,
      failed := if countsFailed cause sub then now :: l.failedNow else l.failedNow, counted := countsFailed cause sub,
      resetMode := if cause == 5 || cause == 6 then (l.sup.ordered.map (·.mode)).getD 0 else 0, ordered := none,
      adopted := [false, false], unadopted := [false, false], reinit := [false, false], f1RestartMts := [], f1Held := false,
      anvil := 0, anvilResets := [], clockFault := [], islandReset := [], hbF0 := now, hbF1 := now, hbAnvil := now, service := now } }

/-- A write unit that has started is finished on VHOLD (R448). -/
def State.finishUnit (s : State) : State :=
  match s.live.param.active with
  | none => s
  | some u => { s with kept := u.kind.apply (shadowImage s.live s.live.window s.live.f1.dmem) s.kept }

/-- The logic reset line is asserted with a cause and subcause. -/
def State.assertReset (s : State) (cause sub : Nat) : State :=
  let s := s.finishUnit
  s.onLive fun l => l.logicLost.noteReset cause sub

/-- A watcher or an order asserts the line, where a logic reset can occur. -/
def State.resetIf (s : State) (ok : Bool) (cause sub : Nat) : State :=
  if ok && s.live.resettable then s.assertReset cause sub else s

/-! ### LIMP (R516, R517) -/

/-- LIMP: the line stays asserted, V5_OUT is off, the link ports are silent, the dies stay in orphan mode.  DESIGN CHOICE: the VHOLD
charger, of which R41 says nothing in LIMP, stays as it was. -/
def Live.enterLimp (l : Live) : Live :=
  let l := l.countTime
  Live.driveTrx { l with
    pwr := { l.pwr with mode := .limp, v5On := false, v5OffUntil := 0 },
    sup := { l.sup with phase := .off, resetLine := true, limpAt := l.mt.now },
    link := { l.link with st := .alone, ports := l.link.ports.map fun (p : LinkPort) => { p with lock := false, brk := false, quiet := true } } }

/-- FAILED_RESTART_TIMEOUT: foundry firmware has not brought READY_N low 200 ms after the line's release, which comes 100 us
after its assertion; a third failure leads to LIMP, but not while an image is pending Assay (R466). -/
def failedRestartTimeout (s : State) : State :=
  let l := s.live
  let waits := l.sup.phase == .reset || l.sup.phase == .firmware
  if !waits || !l.resettable || l.sup.counted || decide (l.sup.cause < 2) || decide (l.mt.now < l.sup.resetMt + us 100 + ms 200) then s
  else
    let l := { l with sup := { l.sup with counted := true, failed := l.mt.now :: l.failedNow } }
    { s with live := if l.failedNow.length < 3 || s.kept.assay.isSome then l else l.enterLimp }

def execFailedRestartTimeout (s : State) : Result := .next (failedRestartTimeout s)

/-- LIMP_EXIT: HWAKE_N held low for 100 ms in LIMP restarts the logic; the failed-restart record is cleared. -/
def limpExit (lowForNs : Nat) (s : State) : State :=
  if s.live.pwr.mode != .limp || !s.live.pwr.powered || decide (lowForNs < ms 100) then s
  else (s.assertReset 7 0).onLive fun l => { l with sup := { l.sup with failed := [] } }

def execLimpExit (lowForNs : Nat) (s : State) : Result := .next (limpExit lowForNs s)

/-! ### Who asserts the line (R46, R506, R509, R524) -/

/-- A module-side heartbeat or service last known at t is overdue after d. -/
def Live.overdue (l : Live) (t d : Nat) : Bool := decide (t + d ≤ l.mt.now)

/-- ANVIL_F0_TIMEOUT: no F0 heartbeat for 10 ms. -/
def execAnvilF0Timeout (s : State) : Result :=
  .next (s.resetIf ((s.live.sup.phase == .running || s.live.sup.phase == .firmware) && s.live.sup.anvil == 0 && s.live.overdue s.live.sup.hbF0 (ms 10)) 3 0)

/-- BACKSTOP_EXPIRY: 50 ms without service by F0 or Anvil. -/
def execBackstopExpiry (s : State) : Result := .next (s.resetIf (s.live.overdue s.live.sup.service (ms 50)) 2 0)

/-- LOGIC_RAIL_HIGH: a logic rail above 1.10 V for 10 us. -/
def execLogicRailHigh (mv forNs : Nat) (s : State) : Result :=
  .next (s.resetIf (s.live.sup.anvil == 0 && decide (1100 < mv) && decide (us 10 ≤ forNs)) 3 2)

/-- BROWNOUT: VHOLD has fallen to 9.0 V while VBAT_L is low; the frame buffers start cleared (R242). -/
def brownout (vholdMv : Nat) (s : State) : State :=
  if !s.live.pwr.holdup || decide (9000 < vholdMv) || !s.live.resettable then s
  else (s.assertReset 1 0).onLive fun l =>
    { l with pwr := { l.pwr with vholdMv := vholdMv }, led := { l.led with pages := [], page := 0xFF } }

def execBrownout (vholdMv : Nat) (s : State) : Result := .next (brownout vholdMv s)

/-- SYS_RESET_ASSERT: 2 ms after a SYS.RESET of scope logic. -/
def execSysResetAssert (s : State) : Result :=
  .next (match s.live.sup.ordered with
    | none => s
    | some o => s.resetIf (s.live.overdue o.at_ (ms 2)) o.cause 0)

/-- POWER_REMOVED: VBAT_L below 2.5 V takes the power of the PARK island and the dies; retained SRAM is lost, and so is every
mode (R511).  The MT of an entry to LIMP is what the exit reports (R517); the model's own count of entropy drawn runs on. -/
def powerRemoved (s : State) : State :=
  if !s.live.pwr.powered then s
  else
    let limp := s.live.pwr.mode == .limp
    { s with live := { Live.init with
        key := { KeyState.init with entropyUsed := s.live.key.entropyUsed },
        sup := { SupState.init with limpAt := if limp then s.live.sup.limpAt else 0 } } }

def execPowerRemoved (s : State) : Result := .next (powerRemoved s)

end Sys2Proof.Machine
end

