-- ==== Sys2Proof/Machine/Boot.lean ====
section
/-! DEFINITION. What the boot ROM does at a logic start (R462 to R467): installation, fallback, RECOVERY, LIMP, or the start of
foundry firmware.  Each execution takes one journaled step. -/

namespace Sys2Proof.Machine

/-! ### Installation (R463, R464) -/

/-- VERSION of the image in STAGING. -/
def Kept.stagedVersion (k : Kept) : Nat := imgVersion (imgHdr k.flash stagingAt)

/-- Step 1: the active image of the kind goes to its FALLBACK slot; not for ASSET, nor without an active image. -/
def Kept.saveFallback (k : Kept) (kind : Nat) : Kept :=
  if kind = 2 || !k.activePresent kind then k
  else if kind = 0 && k.factoryFw then { (k.eraseSectors (sectorsOf (fallbackAt 0) 512)) with factoryFb := true }
  else
    let k' := k.copyImage (activeHdr kind) (activeBody kind) (fallbackAt kind) (fallbackAt kind + 512)
      (imgBodyLen (imgHdr k.flash (activeHdr kind)))
    if kind = 0 then { k' with factoryFb := false } else k'

/-- Step 2: STAGING goes to ACTIVE; a foundry image gets its KEY_LOCAL (R455). -/
def Kept.installActive (k : Kept) (kind : Nat) : Kept :=
  let h := imgHdr k.flash stagingAt
  let k := k.copyImage stagingAt (stagingAt + 512) (activeHdr kind) (activeBody kind) (imgBodyLen h)
  if kind = 0 then
    let key := (transitKey k.cells h).getD []
    { k with flash := memWriteN 0xFF k.flash 384 (kwWrap Config.deviceImageKey key), factoryFw := false }
  else k

/-- The FALLBACK image of a kind goes to ACTIVE; without one the application slot is erased. -/
def Kept.takeFallback (k : Kept) (kind : Nat) : Kept :=
  if kind = 0 && k.factoryFb then { (k.eraseSectors (sectorsOf 0 512)) with factoryFw := true }
  else if k.fallbackPresent kind then
    let k' := k.copyImage (fallbackAt kind) (fallbackAt kind + 512) (activeHdr kind) (activeBody kind)
      (imgBodyLen (imgHdr k.flash (fallbackAt kind)))
    if kind = 0 then { k' with factoryFw := false } else k'
  else k.eraseSectors (sectorsOf (activeHdr kind) (largestLen kind))

/-- The boot ROM writes the journal and goes on, in the boot phase that does not count as failed (R465). -/
def State.journal (s : State) (k : Kept) (j : Option InstJournal) : State :=
  { s with
    kept := k.setJournal j
    live := { s.live with sup := { s.live.sup with phase := .boot, counted := true, service := s.live.mt.now } } }

/-- One step of an installation; a failed verification repeats step 2 once, then restores the replaced image. -/
def State.installStep (s : State) (d : StartData) (j : InstJournal) : State :=
  let k := s.kept
  let v := k.stagedVersion
  match j.step with
  | 0 => s.journal (if j.nosave = 1 then k else k.saveFallback j.kind) (some { j with step := 1 })
  | 1 => s.journal (k.installActive j.kind) (some { j with step := 2 })
  | 2 =>
    if d.flashOk then s.journal k (some { j with step := 3 })
    else if j.again = 0 then s.journal k (some { j with step := 1, again := 1 })
    else
      let k := if j.kind = 2 || j.nosave = 1 then k else k.takeFallback j.kind
      (s.journal k.stagingEmpty none).onLive fun l => l.installEvent 7 j.kind 3 v
  | _ =>
    let k := if j.kind = 2 then k else ((k.setAssay (some j.kind)).counterClear 12).counterClear 13
    (s.journal { k with updPending := none } none).onLive fun l =>
      (l.installEvent 2 j.kind 4 v).setFwu fun f => { f with expired := false, runPart := 0 }

/-! ### Fallback and RECOVERY (R463, R467) -/

/-- RECOVERY: only the service UART answers. -/
def State.enterRecovery (s : State) (failed : Nat) : State :=
  ({ s with kept := s.kept.setJournal none }).onLive fun l =>
    ({ l with sup := { l.sup with phase := .recovery, resetLine := false }, fwu := { l.fwu with failed := failed } }).raise
      0x1C5 crit 0 (le 4 failed)

/-- The journal of a fallback of a kind with its cause. -/
def fallbackJournal (kind cause : Nat) : InstJournal :=
  { mode := 2, kind := kind, step := 0, again := 0, nosave := 0, cause := cause, measure := [] }

/-- One step of a fallback.  The number of records restored waits in the journal for the event. -/
def State.fallbackStep (s : State) (d : StartData) (j : InstJournal) : State :=
  let k := s.kept
  let has := k.fallbackPresent j.kind
  match j.step with
  | 0 =>
    if j.kind = 0 && !has then s.enterRecovery (k.activeVersion 0)
    else s.journal (k.takeFallback j.kind) (some { j with step := 1, cause := if has then j.cause else 1 })
  | 1 =>
    if d.flashOk then s.journal k (some { j with step := 2 })
    else if j.again = 0 then s.journal k (some { j with step := 0, again := 1 })
    else if j.kind = 0 then s.enterRecovery (k.activeVersion 0)
    else s.journal (k.eraseSectors (sectorsOf (activeHdr j.kind) (largestLen j.kind))) (some { j with step := 2 })
  | 2 =>
    let n := (ledgerEntries k.store).length
    (s.journal { k with store := restoreKept k.store } (some { j with step := 3, measure := le 2 n })).onLive fun l =>
      l.raise 0x1B6 notice 2 (le 2 n)
  | _ =>
    (s.journal { k.setAssay none with updPending := none } none).onLive fun l =>
      l.raise 0x1C4 sevFault j.cause (le 1 j.kind ++ le 4 (k.activeVersion j.kind) ++ j.measure.take 2)

/-! ### The start of foundry firmware (R462, R466, R469, R470) -/

/-- A start of the image pending Assay is counted; its first opens the migration ledger. -/
def State.countBoot (s : State) : State :=
  match s.kept.assay with
  | none => s
  | some kind =>
    let first := s.kept.counter 12 = 0
    let k := s.kept.counterAdd 12 1
    if first then
      ({ s with kept := { k with store := openLedger k.store } }).onLive fun l =>
        (l.raise 0x1B6 notice 0 (le 2 0)).raise 0x1C3 notice 0 (le 1 kind ++ le 1 1 ++ le 2 0)
    else { s with kept := k }

/-- An application that asks for a later foundry image than the active one is left halted, cause 8. -/
def State.appCheck (s : State) : State :=
  let h := imgHdr s.kept.flash (activeHdr 1)
  let halted := s.kept.activePresent 1 && decide (s.kept.activeVersion 0 < imgCompat h)
  s.onLive fun l =>
    let l := l.setFwu fun f => { f with appHalted := halted }
    if halted then l.installEvent 8 1 0 (imgVersion h) else l

/-- The key that the boot ROM loads into the decryption engine: that of the active foundry image (R454, R455). -/
def Kept.engineKey (k : Kept) : Option (List Byte) :=
  if !k.cells.imageKeys then none else if k.factoryFw then some Config.factoryKey else localKey k.cells (imgHdr k.flash 0)

/-- Foundry firmware starts; an update session that the reset cut off ends, cause 4, and STAGING is empty (R470). -/
def State.startFirmware (s : State) : State :=
  (s.countBoot.appCheck).onLive fun l =>
    let l := (l.endUpdate 4).setFwu fun f => { f with restart := none, engineKey := s.kept.engineKey }
    let now := l.mt.now
    { l with
      sup := { l.sup with phase := .firmware, resetLine := false, hbF0 := now, hbAnvil := now, service := now },
      pwr := { l.pwr with v5On := true, v5OffUntil := 0, coreStep := l.coreAtStart } }

/-! ### The decision (R461, R462, R516) -/

/-- The gates as the boot ROM reads them: VBAT itself, the rest from a gate record no older than 100 ms before the reset,
which a power-on reset and a brown-out have lost (R461). -/
def State.startGates (s : State) (d : StartData) : Nat :=
  let l := s.live
  let g := l.fwu.gate.filter fun g => d.gateOk && decide (2 ≤ l.sup.cause) && decide (l.sup.resetMt ≤ g.mt + ms 100)
  b2n ((g.map (·.moving)).getD true) + 2 * b2n l.gateBattery + 4 * b2n ((g.map (·.lock)).getD false)

/-- The first installation step: deferred by a gate, refused by a check, or begun. -/
def State.beginInstall (s : State) (d : StartData) (kind : Nat) : State :=
  let gates := s.startGates d
  let v := s.kept.stagedVersion
  if (gateDetail kind gates).isSome then (s.onLive fun l => l.installEvent 3 kind gates v).startFirmware
  else match s.stagedBad kind with
    | some c => (({ s with kept := s.kept.stagingEmpty }).onLive fun l => l.installEvent c kind 0 v).startFirmware
    | none =>
      let j : InstJournal := { mode := 1, kind := kind, step := 0, again := 0, nosave := 0, cause := 0,
                               measure := imgMeasure (imgHdr s.kept.flash stagingAt) }
      (s.journal s.kept (some j)).onLive fun l => l.installEvent 0 kind 0 v

/-- The image pending Assay is given up: its fourth start, its window, or three failed restarts (R466). -/
def State.assayLost (s : State) : Bool :=
  s.kept.assay.isSome && (decide (3 ≤ s.kept.counter 12) || s.assayExpired || decide (3 ≤ s.live.failedNow.length))

/-- The decision proper, with no journal open. -/
def State.decideStart (s : State) (d : StartData) : State :=
  if s.assayLost then
    (s.journal s.kept (some (fallbackJournal (s.kept.assay.getD 0) 0))).onLive fun l => { l with sup := { l.sup with failed := [] } }
  else if 3 ≤ s.live.failedNow.length then s.onLive Live.enterLimp
  else match s.kept.updPending with
    | some kind => s.beginInstall d kind
    | none =>
      if s.foundryGood then s.startFirmware
      else s.journal s.kept (some (fallbackJournal 0 2))

/-- After an installation or a fallback: the active foundry image starts, if it is good. -/
def State.bootEnds (s : State) : State := if s.foundryGood then s.startFirmware else s.enterRecovery (s.kept.activeVersion 0)

/-- In RECOVERY the image that UPD.END has left is checked and installed without saving. -/
def State.recoveryStep (s : State) : State :=
  match s.kept.updPending with
  | none => s
  | some kind =>
    let v := s.kept.stagedVersion
    match s.stagedBad kind with
    | some c => ({ s with kept := s.kept.stagingEmpty }).onLive fun l => l.installEvent c kind 0 v
    | none =>
      let j : InstJournal := { mode := 1, kind := kind, step := 0, again := 0, nosave := 1, cause := 0,
                               measure := imgMeasure (imgHdr s.kept.flash stagingAt) }
      (s.journal s.kept (some j)).onLive fun l => (l.raise 0x1C5 crit 1 (le 4 l.fwu.failed)).installEvent 0 kind 0 v

/-- The voltages that the start measures; a group above 7.5 V is present (R37). -/
def Live.measured (l : Live) (d : StartData) : Live :=
  l.setPwr fun p => { p with
    vbat := d.mv, railMv := d.railMv, vholdMv := d.vholdMv,
    present := (List.range 4).map fun g => p.present.getD g false || decide (7500 < d.mv.getD g 0) }

/-- One step of the boot ROM.  After a brown-out it runs once VBAT_L is back (R514); a test mode leads to the monitor (R523). -/
def State.bootStep (d : StartData) (s : State) : State :=
  let l := s.live
  if !l.pwr.powered || (l.pwr.holdup && l.sup.cause = 1) then s
  else match l.sup.phase with
    | .reset =>
      let s := s.onLive fun l => l.measured d
      if l.sup.testMode ≠ 0 then s.onLive fun l => { l with sup := { l.sup with phase := .monitor, resetLine := false } }
      else if s.kept.cells.lcs = 4 then s.onLive fun l => { l with sup := { l.sup with phase := .retired, resetLine := false } }
      else match instJournal s.kept.store with
        | some j =>
          let s := s.onLive fun l => l.installEvent 1 j.kind j.step s.kept.stagedVersion
          if j.mode = 1 then s.installStep d j else s.fallbackStep d j
        | none => s.decideStart d
    | .boot =>
      match instJournal s.kept.store with
      | some j => if j.mode = 1 then s.installStep d j else s.fallbackStep d j
      | none => s.bootEnds
    | .recovery => s.recoveryStep
    | _ => s

/-- BOOT_DECISION. -/
def execBootDecision (d : StartData) (s : State) : Result := .next (s.bootStep d)

end Sys2Proof.Machine
end

