-- ==== Sys2Proof/Machine/Adopt.lean ====
section
/-! DEFINITION. Adoption and reinitialisation of the outputs (R154 to R159, R512, R513, R515) and the start to RUN (R48, R514). -/

namespace Sys2Proof.Machine

/-! ### A die that has restarted -/

/-- The outputs of a die whose own logic has restarted are off; LATCH, TLATCH and the other protection holds stay (R158, R512). -/
def Live.dieRestarted (l : Live) (d : Nat) : Live :=
  let off := fun (c : LoadCh) => { c with
    cmd := .off, sw := .off, fpend := false, uvOff := false, shed := false, dropped := false, clampCause := none, clampTl := false,
    rampEnd := none, onAcc := 0, tests := [], testAt := none, duty := 0, pulse := 0, pulseAcc := 0 }
  let l := { l with
    load := { l.load with
      ch := l.load.ch.zipIdx.map fun (x : LoadCh × Nat) => if x.2 / 24 = d then off x.1 else x.1,
      br := l.load.br.zipIdx.map fun (x : Bridge × Nat) => if sourceDie (.leg x.2) = d
        then { x.1 with
          st := match x.1.st with
            | .latched => BrState.latched | .thermalOff => .thermalOff | .uvWait => .uvWait | _ => .float,
          dirStep := 0, action := 0, target := 0, toDuty := 0 }
        else x.1 },
    ledger := { l.ledger with shed := l.ledger.shed.filter fun n => n / 24 != d },
    plan := { l.plan with
      edges := l.plan.edges.filter fun (e : Edge) => sourceDie e.work.src != d,
      changes := l.plan.changes.filter fun (c : SlotChange) => sourceDie c.slot.src != d,
      stand := l.plan.stand.filter fun (x : Standing) => sourceDie x.src != d || x.src == Source.rows,
      want := l.plan.want.filter fun (x : Standing) => sourceDie x.src != d || x.src == Source.rows,
      dropped := l.plan.dropped.filter fun (x : Standing) => sourceDie x.src != d,
      envs := l.plan.envs.filter fun (e : Envelope) => sourceDie e.src != d,
      book := l.plan.book.filter fun (x : Source × Nat × Int) => sourceDie x.1 != d || x.1 == Source.rows } }
  if d = 0 then { l with fio := { l.fio with ch := l.fio.ch.map fun (c : FioCh) => { c with
    cmd := false, sw := .off, uvOff := false, fpend := false, onAcc := 0, tests := [], testAt := none, safe := false, fresh := true } } }
  else { l with valve := { l.valve with
    valves := l.valve.valves.map fun (v : Valve) => { v with
      phase := if v.phase == ValvePhase.latched then ValvePhase.latched else ValvePhase.idle, fire := none, held := false,
      decaying := false, forcedSlow := false, lowOn := false, i := 0 },
    banks := l.valve.banks.map fun (b : Bank) => { b with st := if b.st == BankPhase.on then BankPhase.off else b.st } } }

/-! ### Adoption (R157, R273, R515) -/

/-- Load channels and bridges of die d that were not OFF or FLOAT are adopted: causes 14 and 8. -/
def Live.adoptLoads (l : Live) (d : Nat) : Live :=
  let l := ((List.range 24).map (24 * d + ·)).foldl (fun l n =>
    if (l.ch n).lowest = n && (l.ch n).state ≠ 0 then (l.setCh n fun c => { c with adopted := true }).loadEvent n 14 else l) l
  (List.range 8).foldl (fun l k =>
    if sourceDie (.leg k) = d && (l.bridge k).st != .float then (l.setBr k fun b => { b with adopted := true }).bridgeEvent k 8
    else l) l

/-- Field outputs that are not OFF, or at their safe value, keep what they hold: cause 14.  An input, or a wake input, whose filtered
state differs from the one last reported gives cause 0. -/
def Live.adoptFio (l : Live) : Live :=
  let l := (List.range 16).foldl (fun l n =>
    let w := l.wkIn n
    if w.filtered != w.reported && !w.fresh
    then (l.setWk n fun w => { w with reported := w.filtered }).wkEvent n info 0 w.filtered else l) l
  (List.range 32).foldl (fun l n =>
    let c := l.fioCh n
    if c.lowest ≠ n then l
    else if c.cfg.mode = 2 then
      if c.state ≠ 3 || c.safe then
        (l.setFio n fun c => { c with adopted := true, cmd := if c.safe then c.cfg.safeOn else c.cmd, safe := false }).fioEvent n 14
          (b2n c.safe)
      else l
    else if c.cfg.mode = 1 && c.input != c.reported then (l.setFio n fun c => { c with reported := c.input }).fioEvent n 0 (b2n c.input)
    else l) l

/-- Valves in an event and banks that are on: causes 11 and 7. -/
def Live.adoptValves (l : Live) : Live :=
  let l := (List.range 12).foldl (fun l v =>
    if (l.valve' v).phase != .idle then (l.setValve v fun x => { x with adopted := true }).valveEvent v 11 [] else l) l
  (List.range 4).foldl (fun l b =>
    if (l.bank b).st != .off then (l.setBank b fun x => { x with adopted := true }).bankEvent b 7 else l) l

/-- The shown page is shown again, EV_LED_ADOPTED; a blanked matrix resumes with the first scan frame (R157, R242). -/
def Live.adoptLed (l : Live) : Live :=
  if l.led.shown then
    (l.setLed fun s => { s with adopted := true, missing := 0, present := if s.darkRefresh then s.cfg.rows else s.present }).raise
      0x0A9 notice 0 (le 1 l.led.page)
  else l

/-- Everything that adoption of die d reports; what the die holds stays in force. -/
def Live.adoptOutputs (l : Live) (d : Nat) : Live :=
  let l := l.adoptLoads d
  if d = 0 then l.adoptFio else l.adoptValves.adoptLed

/-! ### Reinitialisation (R158, R515) -/

/-- The load channels of die d are turned off under their present configuration, those held in a wait state too, with cause 1. -/
def Live.reinitLoads (l : Live) (d : Nat) (clamping : List Nat) : Live :=
  ((List.range 24).map (24 * d + ·)).foldl (fun l n =>
    if (l.ch n).lowest ≠ n then l
    else
      let s := (l.ch n).state
      let l := l.withdrawAll (.load n)
      let l := if (l.ch n).conducts then (l.cancelHeld n).executeOff n (clamping.contains n)
        else if s == 5 || s == 6 || s == 7 then (l.cancelHeld n).loadEvent n 1
        else l.cancelHeld n
      l.giveBack (.load n)) l

/-- A bridge that runs or brakes is braked for 100 ms and then floated; one held by its protection stays there, idle. -/
def Live.reinitBridge (l : Live) (k : Nat) : Live :=
  let l := l.withdrawAll (.leg k)
  if (l.bridge k).runs || (l.bridge k).st == .brake
  then (((l.endSlot (.leg k)).bridgeStops k .brake).giveBack (.leg k)).setBr k fun b => { b with action := 1, target := 0, floatAt := some (l.mt.now + ms 100) }
  else l.setBr k fun b => { b with action := 0, target := 0 }

/-- The bridges of die d; a pair that floats already takes its stored configuration at once, the others when they float. -/
def Live.reinitBridges (l : Live) (st : Memory) (d : Nat) : Live :=
  let l := (List.range 8).foldl (fun l k => if sourceDie (.leg k) = d then l.reinitBridge k else l) l
  (List.range 4).foldl (fun l p =>
    if p / 2 ≠ d then l
    else if (l.bridge (2 * p)).floatAt.isSome || (l.bridge (2 * p + 1)).floatAt.isSome
    then { l with load := { l.load with brNew := l.load.brNew.set p (some (storedBridge st p)) } }
    else { l with load := { l.load with brCfg := l.load.brCfg.set p (storedBridge st p), brNew := l.load.brNew.set p none } }) l

/-- An ENERGISE event of a valve without ON_RELEASE and without HOLD_MAX is released; events with a programmed end complete,
and an ON_RELEASE event stays.  Such valves take their stored configuration when the event has passed OFF_TIME. -/
def Live.reinitValve (l : Live) (st : Memory) (v : Nat) : Live :=
  let l := (l.dropFire v).forgetDropped (.valve v)
  let x := l.valve' v
  if x.phase == .idle || x.phase == .latched then l.setValve v fun x => { x.reconfigure (storedValve st v) with newCfg := none }
  else
    let l := if x.driven && x.pulse.isNone && x.cfg.holdMax = 0 && x.cfg.interlock ≠ 1 then l.releaseValve v
      else if x.phase == .uvWait && x.cfg.interlock ≠ 1 then
        (l.enterPhase v .offTime).setValve v fun x => { x with held := false }
      else l
    l.setValve v fun x => { x with newCfg := some (storedValve st v) }

/-- Reinitialisation of die d: outputs off, then the stored configurations or the defaults. -/
def Live.reinitOutputs (l : Live) (st : Memory) (d : Nat) (clamping : List Nat) : Live :=
  let l := (((l.reinitLoads d clamping).reinitBridges st d).restoreLoads st d)
  if d = 0 then
    let l := l.fioAllOff.restoreFio st
    { l with fio := { l.fio with wk := l.fio.wk.map fun (w : WakeInput) => { w with fresh := true } } }
  else
    let l := ((List.range 12).foldl (fun l v => l.reinitValve st v) l).restoreBanks st
    l.setLed fun s => { s with page := 0xFF, shows := [], adopted := false }

/-! ### The decision for one die (R155, R156, R159, R513) -/

/-- The events that a die has logged are raised with the MT at which they happened (R156). -/
def Live.raiseLog (l : Live) (d : Nat) : Live :=
  let log := (l.die d).log
  log.foldl (fun l (e : DieLog) => l.raiseAt e.at_ e.id e.sev e.cause e.payload) (l.setDie d fun x => { x with log := [] })

/-- Sets entry d of one of the masks over both dies. -/
def setMask (xs : List Bool) (d : Nat) (b : Bool) : List Bool := xs.set d b

/-- The die accepts the heartbeat: orphan mode ends, and its outputs are adopted or reinitialised. -/
def Live.takeDie (l : Live) (st : Memory) (d : Nat) (r : DieRead) : Live :=
  let again := (l.die d).mustReinit || r.restarted || !r.copyOk
  let l := ((l.ledgerHeat d).raiseLog d).dieFresh d
  let l := if r.restarted then l.dieRestarted d else l
  let l := l.setDie d fun x => { x with
    orphan := false, lastHb := l.mt.now, offS := l.sup.cfg.orphanOffS, tries := 0, mustReinit := false, offDone := false, skew := r.skew }
  let l := { l with sup := { l.sup with
    adopted := setMask l.sup.adopted d (!again), reinit := setMask l.sup.reinit d again, unadopted := setMask l.sup.unadopted d false } }
  if again then l.reinitOutputs st d r.clamping else l.adoptOutputs d

/-- A die that F0 leaves in orphan mode: EV_SUP_DIE_UNADOPTED. -/
def Live.leaveDie (l : Live) (d cause : Nat) : Live :=
  ({ l with sup := { l.sup with unadopted := setMask l.sup.unadopted d true } }.setDie d
    fun x => { x with tries := 0, lastTry := l.mt.now }).raise 0x1D5 crit cause (le 1 d)

/-- F0 reads the state-change counter of a die at step 1; the die counts what changes after that (R155). -/
def Live.readDie (l : Live) (d : Nat) (r : DieRead) : Live :=
  l.setDie d fun x => { x with readChanges := x.changes, changes := x.changes + r.moved }

/-- The counter has not moved since it was read, so the die accepts the heartbeat. -/
def Live.dieAccepts (l : Live) (d : Nat) : Bool := (l.die d).changes == (l.die d).readChanges

/-- One try at a die: taken, unreadable or not reached, or refused; the third refusal leaves it. -/
def Live.tryDie (l : Live) (st : Memory) (d : Nat) (r : DieRead) : Live :=
  if !r.readable || l.dieCut d then l.leaveDie d 0
  else
    let l := l.readDie d r
    if l.dieAccepts d then l.takeDie st d r
    else if 2 ≤ (l.die d).tries then l.leaveDie d 1
    else l.setDie d fun x => { x with tries := x.tries + 1, lastTry := l.mt.now }

/-- The generation with which a die leaves orphan mode: the slots that run (step 4 of R155). -/
def Live.newGeneration (l : Live) : Live :=
  let l := { l with plan := { l.plan with
    stand := l.plan.want, gen := (l.plan.gen + 1) % 2 ^ 32,
    dirty := (l.plan.changes.filter fun (c : SlotChange) => !c.admitted).foldl
      (fun (m : Option Nat) (c : SlotChange) => some (min c.since (m.getD c.since))) none } }
  l.raise 0x080 info 0 (le 4 l.plan.gen ++ le 2 (standCount l.plan.stand))

/-- While the logic runs, a die that has been taken back brings a new generation. -/
def Live.generationFor (l l' : Live) : Live :=
  if [0, 1].any fun d => (l.die d).orphan && !(l'.die d).orphan then l'.newGeneration else l'

/-- A die that has refused the heartbeat and is to be tried again. -/
def Live.dieWaits (l : Live) (d : Nat) : Bool := (l.die d).orphan && decide ((l.die d).tries ≠ 0) && !l.dieUnadopted d

/-- The reset-cause table allows adoption (R512). -/
def Live.mayAdopt (l : Live) : Bool :=
  let byMask := bit l.sup.cfg.adopt l.sup.cause
  if l.sup.cause = 0 then false
  else if l.sup.cause = 5 || l.sup.cause = 6 then l.sup.resetMode = 1 || (l.sup.resetMode = 0 && byMask)
  else byMask

/-- What StartData says of die d. -/
def dieRead (x : StartData) (d : Nat) : DieRead :=
  { readable := x.readable.getD d false, restarted := x.restarted.getD d false, copyOk := x.copyOk.getD d false,
    moved := x.moved.getD d 0, skew := x.skew.getD d 0, clamping := x.clamping }

/-! ### The end of the start (R48, R155, R514) -/

/-- Groups that are not above VBAT_UV at the start (R36), with the channels whose output falls below -3.0 V. -/
def Live.absentGroups (l : Live) (clamping : List Nat) : Live :=
  (List.range 4).foldl (fun l g =>
    if 7000 ≤ l.groupMv g then l
    else
      let l := (l.setPwr fun p => { p with uv := p.uv.set g true }).raise 0x022 warn g (le 2 (l.groupMv g))
      (l.lowestOf g).foldl (fun l n => l.uvChannel n (clamping.contains n)) l) l

/-- EV_SUPPLY_BROWNOUT, EV_SUP_LIMP and EV_SUP_RESET. -/
def Live.startEvents (l : Live) : Live :=
  let u := l.sup
  let l := if u.cause = 1 then l.raise 0x025 sevFault 0 (le 8 u.resetMt) else l
  let l := if u.limpAt = 0 then l
    else ({ l with sup := { l.sup with limpAt := 0 } }).raise 0x1D6 crit 0 (le 8 u.limpAt)
  l.raise 0x1D0 (if u.cause = 0 || u.cause = 5 || u.cause = 6 then notice else warn) u.cause
    (le 1 u.subcause ++ le 1 (maskOf 2 fun d => u.adopted.getD d false) ++ le 1 (maskOf 2 fun d => u.reinit.getD d false) ++
      le 1 l.failedNow.length ++ le 4 (u.resetMt / 1000))

/-- The mode becomes RUN: a drain that the reset interrupted has been aborted, READY_N falls. -/
def Live.startRun (l : Live) (clamping : List Nat) : Live :=
  let drained := l.pwr.mode == .drain
  let l := (l.setMode .run).setPwr fun p => { p with coreStep := l.coreAtStart }
  let l := if drained then l.raise 0x034 notice 8 [] else l
  let l := (l.absentGroups clamping).startEvents.driveReady.linkRun.nmFollow
  if l.nm.cfg.on then l.sendAlive else l

/-- What foundry firmware does before READY_N falls: store, key store, journal, clips, F1, and the seal test. -/
def State.startChecks (s : State) (kohm : Nat) : State :=
  let s := s.onLive fun l => ((l.checkStore s.kept.store).checkClips s.kept.flash).checkCells s.kept.cells
  let s := (s.onLive fun l => l.seedDrbg.newTnonce).resumeTransition
  let s := s.sealTest kohm
  if s.live.fwu.appHalted then s else s.startF1

/-- The sequence is over: a new plan generation, the checks, RUN. -/
def State.adoptEnds (s : State) (kohm : Nat) (clamping : List Nat) : State :=
  let s := s.onLive fun l => Live.newGeneration { l with
    sup := { l.sup with phase := .running, service := l.mt.now, hbF0 := l.mt.now, hbAnvil := l.mt.now } }
  (s.startChecks kohm).onLive fun l => l.startRun clamping

/-- The sequence ends, unless a die has refused the heartbeat: then the command layer waits for its next try. -/
def State.adoptGoesOn (s : State) (kohm : Nat) (clamping : List Nat) : State :=
  if s.live.dieWaits 0 || s.live.dieWaits 1
  then s.onLive fun l => { l with sup := { l.sup with phase := .firmware }, host := { l.host with sealKohm := kohm } }
  else s.adoptEnds kohm clamping

/-- Steps 1 to 6 of R155 after a logic restart. -/
def State.adoptAll (s : State) (d : StartData) : State :=
  let st := s.kept.store
  let again := !s.live.mayAdopt || !d.maskOk
  let s := s.onLive fun l =>
    let l := { l with sup := { l.sup with phase := .running } }
    let l := [0, 1].foldl (fun (l : Live) k => l.setDie k fun x => { x with mustReinit := again, tries := 0 }) l
    let l := if d.configOk || l.sup.cause = 0 then l else (l.restoreGlobal st).raise 0x1D8 warn 0 []
    let l := if l.sup.cause = 0 then l.ledgerCold 0 else if d.ledgerOk then l.ledgerAdopt else l.ledgerCold 1
    let l := l.ledPages d.badPages
    (l.tryDie st 0 (dieRead d 0)).tryDie st 1 (dieRead d 1)
  s.adoptGoesOn d.sealKohm d.clamping

/-- ADOPTION: the sequence of a logic start, or, while the logic runs, that for a die in orphan mode (R150). -/
def adoption (d : StartData) (s : State) : State :=
  match s.live.sup.phase with
  | .firmware => if s.live.dieWaits 0 || s.live.dieWaits 1 then s else s.adoptAll d
  | .running => s.onLive fun l => l.generationFor ([0, 1].foldl (fun (l : Live) k =>
      if (l.die k).orphan && !l.dieWaits k && !l.dieUnadopted k then l.tryDie s.kept.store k (dieRead d k) else l) l)
  | _ => s

def execAdoption (d : StartData) (s : State) : Result := .next (adoption d s)

/-- ADOPTION_RETRY: within 20 ms a die that has refused the heartbeat is read and offered it again (R156). -/
def adoptionRetry (d : Nat) (r : DieRead) (s : State) : State :=
  if !s.live.dieWaits d then s
  else match s.live.sup.phase with
    | .firmware => (s.onLive fun l => ({ l with sup := { l.sup with phase := .running } }).tryDie s.kept.store d r).adoptGoesOn
        s.live.host.sealKohm r.clamping
    | .running => s.onLive fun l => l.generationFor (l.tryDie s.kept.store d r)
    | _ => s

def execAdoptionRetry (die : Die) (r : DieRead) (s : State) : Result := .next (adoptionRetry (dieIndex die) r s)

/-- UNADOPTED_RETRY: every 100 ms the sequence is tried for a die left in orphan mode; success is cause 2. -/
def unadoptedRetry (d : Nat) (r : DieRead) (s : State) : State :=
  s.onLogic fun l =>
    if !l.dieUnadopted d || decide (l.mt.now < (l.die d).lastTry + ms 100) then l
    else
      let x := l.readDie d r
      if r.readable && !x.dieCut d && x.dieAccepts d
      then l.generationFor ((x.takeDie s.kept.store d r).raise 0x1D5 notice 2 (le 1 d))
      else x.setDie d fun x => { x with lastTry := l.mt.now }

def execUnadoptedRetry (die : Die) (r : DieRead) (s : State) : Result := .next (unadoptedRetry (dieIndex die) r s)

/-! ### LOGIC_RESET and POWER_ON -/

/-- The boot ROM and the adoption sequence, up to RUN where nothing stops them. -/
def State.runStart (s : State) (d : StartData) : State := adoption d (iter (fun s => s.bootStep d) 16 s)

/-- LOGIC_RESET: the line is asserted with a cause of a warm restart, and the restart runs to READY_N; causes 5 and 6 only as
SYS.RESET has ordered them. -/
def logicReset (cause sub : Nat) (d : StartData) (s : State) : State :=
  let ordered := s.live.sup.ordered.any fun (o : OrderedReset) => o.cause == cause && s.live.overdue o.at_ (ms 2)
  if s.live.resettable && (inRange 2 4 cause || (inRange 5 6 cause && ordered)) then (s.assertReset cause sub).runStart d else s

def execLogicReset (cause sub : Nat) (d : StartData) (s : State) : Result := .next (logicReset cause sub d s)

/-- POWER_ON_RESET of everything that is not kept: the jumper and the strap are sampled, every configuration takes its
persisted value or its default, and the shadow is loaded (R48, R90, R352, R442, R578). -/
def State.powerUp (s : State) (d : StartData) : State :=
  let s := s.onLive fun l =>
    let l := { l with
      pwr := { l.pwr with powered := true, rbgOn := true, chargerOn := true, v5On := true },
      host := { l.host with jumper := d.jumper },
      link := { l.link with strap := if d.strap = 3 then 0 else d.strap } }
    let l := (l.restoreGlobal s.kept.store).logicLost.noteReset 0 0
    if d.strap = 3 then l.raise 0x15A warn 0 [] else l
  (s.loadShadow).onLive fun l => { l with sup := { l.sup with restarts := 0 } }

/-- POWER_ON: VBAT_L rises above 6.0 V, in a module without power or after a brown-out (R46). -/
def powerOn (d : StartData) (s : State) : State :=
  if d.mv.getD 4 0 ≤ 6000 then s
  else if !s.live.pwr.powered then (s.powerUp d).runStart d
  else if s.live.pwr.holdup && s.live.sup.phase == .reset && s.live.sup.cause = 1
  then (s.onLive fun l => l.setPwr fun p => { p with holdup := false }).runStart d
  else s

def execPowerOn (d : StartData) (s : State) : Result := .next (powerOn d s)

end Sys2Proof.Machine
end

