-- ==== Sys2Proof/Machine/Flags.lean ====
section
/-! DEFINITION. The flag computations of the Dvorgil instruction set (R479, R486 to R489): each operation at a size
of n bits as a result with its flags. -/

namespace Sys2Proof.Machine

/-- FLAGS as MFF reads it (R479). -/
def Flags.toNat (f : Flags) : Nat := b2n f.c + 2 * b2n f.z + 4 * b2n f.n + 8 * b2n f.v + 16 * b2n f.p

/-- FLAGS as MTF loads it. -/
def Flags.ofNat (w : Nat) : Flags := { c := bit w 0, z := bit w 1, n := bit w 2, v := bit w 3, p := bit w 4 }

/-- Whether a number below 2^k holds an odd number of one bits. -/
def oddOnes (k n : Nat) : Bool := (List.range k).foldl (fun a i => a != bit n i) false

/-- The number of one bits below 2^k. -/
def popcount (k n : Nat) : Nat := (List.range k).countP fun i => bit n i

/-- The signed value of the low n bits. -/
def signedAt (n v : Nat) : Int := if v % 2 ^ n < 2 ^ (n - 1) then ((v % 2 ^ n : Nat) : Int) else ((v % 2 ^ n : Nat) : Int) - (2 ^ n : Nat)

/-- The low n bits of an integer. -/
def lowBits (n : Nat) (i : Int) : Nat := (i % (2 ^ n : Nat)).toNat

/-- A value lies in the signed range of n bits. -/
def fitsSigned (n : Nat) (i : Int) : Bool := decide (-(2 ^ (n - 1) : Nat) ≤ i) && decide (i < (2 ^ (n - 1) : Nat))

/-- The nearest value of the signed range of n bits (R489). -/
def clampSigned (n : Nat) (i : Int) : Int := max (-(2 ^ (n - 1) : Nat)) (min i ((2 ^ (n - 1) : Nat) - 1))

/-- Z, N and P of a result at n bits, over the other flags. -/
def znp (f : Flags) (n r : Nat) : Flags :=
  { f with z := r == 0, n := bit r (n - 1), p := oddOnes n r }

/-- A result with its flags. -/
abbrev AluResult := Nat × Flags

/-- An operation whose exact signed value is x, with carry c: the result wraps, V is signed overflow; under SAT the
result is clamped and V is set when it was (R488, R489). -/
def arith (f : Flags) (n : Nat) (sat : Bool) (x : Int) (c : Bool) : AluResult :=
  let above := !fitsSigned n x
  let r := lowBits n (if sat then clampSigned n x else x)
  (r, { znp f n r with c := c, v := above })

def aluAdd (f : Flags) (n : Nat) (sat : Bool) (a b cin : Nat) : AluResult :=
  arith f n sat (signedAt n a + signedAt n b + (cin : Int)) (decide (2 ^ n ≤ a + b + cin))

def aluSub (f : Flags) (n : Nat) (sat : Bool) (a b cin : Nat) : AluResult :=
  arith f n sat (signedAt n a - signedAt n b - (cin : Int)) (decide (a < b + cin))

/-- INC and DEC leave C as it was. -/
def aluStep (f : Flags) (n : Nat) (b : Nat) (d : Int) : AluResult :=
  arith f n false (signedAt n b + d) f.c

def aluLogic (f : Flags) (n r : Nat) : AluResult := (r, { znp f n r with c := false, v := false })

def aluMul (f : Flags) (n : Nat) (sat : Bool) (a b : Nat) : AluResult :=
  arith f n sat (signedAt n a * signedAt n b) (decide (2 ^ n ≤ a * b))

def aluMulh (f : Flags) (n : Nat) (a b : Nat) : AluResult :=
  aluLogic f n (lowBits n (signedAt n a * signedAt n b / (2 ^ n : Nat)))

/-- A shift's result; the last bit out is unchanged for a count of 0 (R488). -/
def shiftResult (f : Flags) (n count r : Nat) (out : Bool) : AluResult :=
  (r, { znp f n r with c := if count = 0 then f.c else out, v := false })

def aluShl (f : Flags) (n a count : Nat) : AluResult :=
  shiftResult f n count (a * 2 ^ count % 2 ^ n) (decide (count ≤ n) && bit a (n - count))

def aluShr (f : Flags) (n a count : Nat) : AluResult :=
  shiftResult f n count (a / 2 ^ count) (bit a (count - 1))

def aluSar (f : Flags) (n a count : Nat) : AluResult :=
  shiftResult f n count (lowBits n (signedAt n a / (2 ^ count : Nat))) (bit (lowBits 64 (signedAt n a)) (count - 1))

/-- The rotate count is taken modulo the size (R486). -/
def aluRor (f : Flags) (n a count : Nat) : AluResult :=
  let k := count % n
  let r := a / 2 ^ k + a % 2 ^ k * 2 ^ (n - k) % 2 ^ n
  shiftResult f n k r (bit r (n - 1))

/-- Division of signed numbers rounds toward zero; −2^31 by −1 sets V (R487, R488). -/
def aluDivS (f : Flags) (a b : Nat) (rem : Bool) : AluResult :=
  let x := signedAt 32 a
  let y := signedAt 32 b
  let r := lowBits 32 (if rem then x.tmod y else x.tdiv y)
  (r, { znp f 32 r with c := false, v := decide (a = 2 ^ 31) && decide (b = 2 ^ 32 - 1) })

def aluDivU (f : Flags) (a b : Nat) (rem : Bool) : AluResult := aluLogic f 32 (if rem then a % b else a / b)

/-- A number's n bits in reverse order. -/
def revBits (n v : Nat) : Nat := maskOf n fun i => bit v (n - 1 - i)

/-- Leading zeros at n bits. -/
def leadingZeros (n v : Nat) : Nat := ((List.range n).find? fun i => bit v (n - 1 - i)).getD n

/-- The branch conditions (R480). -/
def condHolds (f : Flags) (cc : BitVec 4) : Bool :=
  match cc.toNat with
  | 0 => f.z | 1 => !f.z | 2 => f.c | 3 => !f.c | 4 => f.n | 5 => !f.n | 6 => f.v | 7 => !f.v
  | 8 => !f.c && !f.z | 9 => f.c || f.z | 10 => f.n == f.v | 11 => f.n != f.v
  | 12 => !f.z && f.n == f.v | 13 => f.z || f.n != f.v | 14 => f.p | _ => true

/-- One CRC step over a byte (R492). -/
def crcByte (s : CrcSlot) (acc : Nat) (b : Byte) : Nat :=
  let width := 8 * 2 ^ s.width
  let poly := s.poly % 2 ^ width
  if s.reflect then
    let rpoly := revBits width poly
    iter (fun c => if bit c 0 then (c / 2) ^^^ rpoly else c / 2) 8 (acc ^^^ b.toNat)
  else
    iter (fun c => if bit c (width - 1) then ((c * 2) ^^^ poly) % 2 ^ width else c * 2 % 2 ^ width) 8
      (acc ^^^ b.toNat * 2 ^ (width - 8))

/-- A CRC step over data bytes; the accumulator is first taken modulo 2^WIDTH (R492). -/
def crcBytes (s : CrcSlot) (acc : Nat) (bs : List Byte) : Nat :=
  bs.foldl (crcByte s) (acc % 2 ^ (8 * 2 ^ s.width))

end Sys2Proof.Machine
end

