-- ==== Sys2Proof/Machine/Operands.lean ====
section
/-! DEFINITION. The operand forms of the Dvorgil instruction set: prefixes, immediates, displacements, targets and the
length of each encoding (R483 to R487). -/

namespace Sys2Proof

def ImmSize.len : ImmSize → Nat
  | .i1 => 1 | .i2 => 2 | .i4 => 4

def DispSize.len : DispSize → Nat
  | .d0 => 0 | .d1 => 1 | .d2 => 2 | .d4 => 4

/-- The bytes of an ALU instruction after its prefixes: opcode, operand byte, immediate. -/
def AluOperand.len : AluOperand → Nat
  | .reg _ => 2
  | .imm sz _ => 2 + sz.len

def JumpTarget.len : JumpTarget → Nat
  | .rel _ => 5 | .reg _ => 2

def CallTarget.len : CallTarget → Nat
  | .rel4 _ => 7 | .rel2 _ => 5 | .reg _ => 4

/-- The bytes of IN and OUT after their prefixes. -/
def PortOperand.len : PortOperand → Nat
  | .imm _ => 4 | .reg _ => 2

end Sys2Proof

namespace Sys2Proof.Machine

/-- The prefixes an instruction accepts (R484). -/
structure PfxAllow where
  byte : Bool := false
  half : Bool := false
  lock : Bool := false
  sat : Bool := false
  rep : Bool := false
  /-- LDS, SEXT and ZEXT require a size prefix. -/
  needSize : Bool := false
  deriving DecidableEq, Repr

/-- The operation size in bits and the other prefixes of an instruction. -/
structure PfxUse where
  bits : Nat
  lock : Bool
  sat : Bool
  rep : Bool
  deriving DecidableEq, Repr

def pfxOk (al : PfxAllow) (b : Byte) : Bool :=
  match b.toNat with
  | 0xE0 => al.byte | 0xE1 => al.half | 0xE2 => al.lock | 0xE3 => al.sat | 0xE4 => al.rep | _ => false

/-- What the prefixes say; none where they are illegal for the instruction (R483, R484). -/
def usePrefixes (al : PfxAllow) (p : Prefixes) : Option PfxUse :=
  let sizes := p.filter fun b => b == 0xE0 || b == 0xE1
  let others := p.filter fun b => b == 0xE2 || b == 0xE3 || b == 0xE4
  if !p.all (pfxOk al) || decide (1 < sizes.length) || decide (1 < others.length) then none
  else if al.needSize && sizes.isEmpty then none
  else if p.contains 0xE2 && !sizes.isEmpty then none
  else some { bits := if p.contains 0xE0 then 8 else if p.contains 0xE1 then 16 else 32,
              lock := p.contains 0xE2, sat := p.contains 0xE3, rep := p.contains 0xE4 }

def allowNone : PfxAllow := { }
def allowSize : PfxAllow := { byte := true, half := true }
def allowAluSat : PfxAllow := { byte := true, half := true, sat := true }
def allowExtend : PfxAllow := { byte := true, half := true, needSize := true }
def allowLd : PfxAllow := { byte := true, half := true, lock := true }
def allowSt : PfxAllow := { byte := true, half := true, lock := true, rep := true }
def allowCopy : PfxAllow := { byte := true, half := true, rep := true }
def allowCrc : PfxAllow := { byte := true, rep := true }

/-- The low bits of a word sign-extended to an integer. -/
def extend (bytes : Nat) (v : Word) : Int := if bytes = 0 then 0 else signedAt (8 * bytes) v.toNat

/-- An address plus a sign-extended displacement, modulo 2^32. -/
def dispAddr (base : Word) (sz : DispSize) (disp : Word) : Nat := lowBits 32 ((base.toNat : Int) + extend sz.len disp)

/-- How an ALU operation extends its immediate (R485); MULH, of which R485 does not speak, takes the signed form of its
product (DEDUCED, log entry 20). -/
inductive ImmExt where
  | signed
  | zero
  | count
  deriving DecidableEq, Repr

/-- The second operand's value at n bits; none for an immediate wider than the operation size (R485). -/
def aluValue (k : List Word) (n : Nat) (ext : ImmExt) : AluOperand → Option Nat
  | .reg b => some (if ext = .count then (k.getD b.val 0).toNat % 32 else (k.getD b.val 0).toNat % 2 ^ n)
  | .imm sz v =>
    if n < 8 * sz.len then none
    else match ext with
      | .signed => some (lowBits n (extend sz.len v))
      | .zero => some (v.toNat % 2 ^ (8 * sz.len))
      | .count => some (v.toNat % 32)

/-- A relative target counted from the next instruction, modulo 2^24 (R487). -/
def relTarget (next : Nat) (d : Int) : Nat := lowBits 24 ((next : Int) + d)

end Sys2Proof.Machine
end

