-- ==== Sys2Proof/Machine/Dvorgil.lean ====
section
/-! DEFINITION. The instructions of the application core F1 but for IN and OUT (18_dvorgil_instruction_set.md): data
space, return stack, exception and interrupt entry, and one meaning per instruction. -/

namespace Sys2Proof.Machine

/-! ### Registers and spaces -/

def F1State.reg (c : F1State) (r : KReg) : Word := c.k.getD r.val 0

def F1State.setReg (c : F1State) (r : KReg) (v : Nat) : F1State := { c with k := c.k.set r.val (BitVec.ofNat 32 v) }

def Live.onF1 (l : Live) (f : F1State → F1State) : Live := { l with f1 := f l.f1 }

def State.onF1 (s : State) (f : F1State → F1State) : State := s.onLive fun l => l.onF1 f

/-- RSP (R478): 0x1_0000 less four for each word on the stack. -/
def F1State.rsp (c : F1State) : Nat := 0x10000 - 4 * c.rs.length

/-- The application slot of ACTIVE: fetch and LDC (R26). -/
def inAppSlot (a : Nat) : Bool := inRange 0x180000 0x3FFFFF a

/-- Code addresses that LDC and COPYC reach: the application slot and ASSET (R26). -/
def inLdcSpace (a : Nat) : Bool := inAppSlot a || inRange 0xC00000 0xFFFFFF a

/-- Data addresses F1 may reach: own memory, shared region, retained application part (R24). -/
def inDataSpace (a : Nat) : Bool :=
  inRange 0 0xFFFFF a || inRange 0x10000000 0x1017FFFF a || inRange 0x40018000 0x4001FFFF a

/-- A byte of code space. -/
def codeByte (flash : Memory) (a : Nat) : Byte := memRead 0xFF flash (a % 2 ^ 24)

/-- A little-endian number of n bytes in code space. -/
def codeWord (flash : Memory) (a n : Nat) : Nat :=
  rd ((List.range n).map fun i => codeByte flash (a + i)) 0 n

def F1State.load (c : F1State) (a n : Nat) : Nat := rd (memReadN 0 c.dmem a n) 0 n

def F1State.store (c : F1State) (a n v : Nat) : F1State := { c with dmem := memWriteN 0 c.dmem a (le n v) }

/-- Pending lines (R502): local mailboxes DONE, event queue not empty, and the edge lines. -/
def Live.irqPending (l : Live) : Nat :=
  maskOf 9 (fun n => if n < 8 then (l.host.lmb[n]?).any (fun b => b.st == .done) else !l.host.f1q.isEmpty)
    ||| l.f1.edgePend

/-- Some enabled line is pending. -/
def Live.irqWakes (l : Live) : Bool := l.irqPending &&& l.f1.irqEn != 0

/-- The priority of a line, 0 to 3 (R499). -/
def F1State.linePrio (c : F1State) (line : Nat) : Nat := c.irqPrio.getD (line / 8) 0 / 4 ^ (line % 8) % 4

/-! ### Stops and entries (R496 to R498, R507) -/

/-- F1 stops: its last reason is reported, and F1's restart is due after 10 ms unless the limit of R507 is reached. -/
def Live.f1Stop (l : Live) (supCause : Nat) : Live :=
  let recent := l.sup.f1RestartMts.filter fun t => decide (l.mt.now < t + ms 10000)
  let used := recent.length
  let payload := le 4 l.f1.pc ++ le 1 used
  let l := { l with
    f1 := { l.f1 with run := .stopped, waiting := false },
    sup := { l.sup with f1StopAt := l.mt.now, f1RestartMts := recent } }
  let l := l.raise 0x1D1 warn supCause payload
  if used < l.sup.cfg.f1Restarts then l
  else ({ l with sup := { l.sup with f1Held := true } }).raise 0x1D1 sevFault 3 payload

/-- F1 stopped under R498 with EV_SYS_F1_STOPPED. -/
def Live.f1Halt (l : Live) (cause vector info : Nat) : Live :=
  (l.raise 0x00D sevFault cause (le 4 l.f1.pc ++ le 1 vector ++ le 1 info)).f1Stop 1

/-- The header word of a frame (R493). -/
def frameHeader (mask kind : Nat) (ie : Bool) (rpl flags : Nat) : Nat :=
  mask * 2 ^ 16 + kind * 2 ^ 14 + b2n ie * 2 ^ 13 + rpl * 2 ^ 10 + flags

/-- The frame of an entry with all sixteen registers, from its header upwards. -/
def F1State.entryFrame (c : F1State) (kind ret : Nat) : List (Word × Bool) :=
  ((BitVec.ofNat 32 (frameHeader 0xFFFF kind c.ie c.rpl c.flags.toNat), true)
    :: (BitVec.ofNat 32 ret, true) :: c.k.map fun w => (w, true))

/-- Enters a vector: the frame pushed, IE cleared, the reservation lost, PC at the handler (R490, R497). -/
def F1State.enterVector (c : F1State) (kind ret target : Nat) : F1State :=
  { c with rs := c.entryFrame kind ret ++ c.rs, ie := false, reservation := none, waiting := false, pc := target }

/-- The handler's address in entry `vec` of the vector table, which F1 reads where R26 gives it access; none for an entry
outside that space or a handler outside the application slot (R496, R498). -/
def vectorTarget (flash : Memory) (vbar vec : Nat) : Option Nat :=
  let a := vbar + 4 * vec
  let target := codeWord flash a 3
  if inLdcSpace a && inLdcSpace (a + 3) && inAppSlot target then some target else none

/-- An exception with its cause and faulting address (R496 to R498).  An entry without room becomes an RS_OVERFLOW
entry, which alone may use the 72 bytes below RS_LIM; one that cannot be placed, or has no handler, stops F1. -/
def f1Exception (s : State) (vector cause addr ret : Nat) : State :=
  let l := s.live
  let c := l.f1
  let info := cause * 256 + vector
  let c := { c with excInfo := info, excAddr := addr }
  let l := { l with f1 := c }
  if c.vbar = 0 then { s with live := l.f1Halt 1 vector cause }
  else
    let fits := decide (c.rsLim + 72 ≤ c.rsp)
    if !fits && decide (c.rsp < c.rsLim) then { s with live := l.f1Halt 0 vector cause }
    else
      let vec := if fits then vector else 8
      let c := if fits then c else { c with excInfo := 8 }
      match vectorTarget s.kept.flash c.vbar vec with
      | none => { s with live := ({ l with f1 := c }).f1Halt 2 vec (if fits then cause else 0) }
      | some target => { s with live := { l with f1 := c.enterVector 2 ret target } }

/-- ILLEGAL, with the instruction's own address as return address. -/
def f1Illegal (s : State) (cause : Nat) : State := f1Exception s 1 cause s.live.f1.pc s.live.f1.pc

/-- EV_SYS_ACCESS_FAULT (R25, R35). -/
def State.accessEvent (s : State) (cause addr : Nat) : State :=
  s.onLive fun l => l.raise 0x00C sevFault cause (le 4 addr ++ le 4 l.f1.pc)

/-- A load or store of n bytes at a: ALIGN, then DATA, else the access (R24, R25, R482). -/
def f1Access (s : State) (a n : Nat) (isStore : Bool) (go : State → State) : State :=
  let pc := s.live.f1.pc
  if a % n ≠ 0 then f1Exception s 5 0 a pc
  else if !inDataSpace a then f1Exception (s.accessEvent (b2n isStore) a) 3 0 a pc
  else go s

/-- A read of n bytes of code space at a by LDC or COPYC; only LDC is aligned (R482).  DESIGN CHOICE: a read that begins inside
and ends outside what F1 may read reports its first address, since it is one access. -/
def f1CodeRead (s : State) (a n : Nat) (aligned : Bool) (go : State → State) : State :=
  let pc := s.live.f1.pc
  if aligned && a % n != 0 then f1Exception s 5 0 a pc
  else if !(inLdcSpace a && inLdcSpace (a + n - 1)) then f1Exception (s.accessEvent 3 a) 4 0 a pc
  else go s

/-- Runs an instruction of so many bytes at PC: nothing while F1 does not run or WFI waits; FETCH outside the
application slot (DESIGN CHOICE: of an instruction that runs over its end, the first byte outside is the faulting address, since
bytes are fetched in order); ILLEGAL for a prefix it does not accept; else its body, which is given the prefixes and the address
of the next instruction. -/
def f1Exec (s : State) (p : Prefixes) (len : Nat) (al : PfxAllow) (body : PfxUse → Nat → State → State) : State :=
  if s.live.f1.run != .running || (s.live.f1.waiting && !s.live.irqWakes) then s
  else
    let s := s.onF1 fun c => { c with waiting := false }
    let pc := s.live.f1.pc
    let last := pc + p.length + len - 1
    if !inAppSlot pc || !inAppSlot last then
      let bad := if inAppSlot pc then 0x400000 else pc
      f1Exception (s.accessEvent 2 bad) 2 0 bad pc
    else match usePrefixes al p with
      | none => f1Illegal s 1
      | some u => body u ((last + 1) % 2 ^ 24) s

/-- The instruction ends: the core as f leaves it, PC at the next instruction. -/
def f1Next (s : State) (next : Nat) (f : F1State → F1State) : State := s.onF1 fun c => { f c with pc := next }

/-! ### ALU instructions (R486 to R489) -/

/-- An ALU operation over its two operands; `writes` is false for CMP and TST. -/
def f1Alu (s : State) (p : Prefixes) (a : KReg) (b : AluOperand) (al : PfxAllow) (ext : ImmExt) (writes : Bool)
    (op : Flags → PfxUse → Nat → Nat → AluResult) : State :=
  f1Exec s p b.len al fun u next s =>
    match aluValue s.live.f1.k u.bits ext b with
    | none => f1Illegal s 2
    | some v =>
      f1Next s next fun c =>
        let r := op c.flags u ((c.reg a).toNat % 2 ^ u.bits) v
        let c := { c with flags := r.2 }
        if writes then c.setReg a r.1 else c

/-- An operation of one source register. -/
def f1Unary (s : State) (p : Prefixes) (a b : KReg) (al : PfxAllow) (op : Flags → PfxUse → Nat → AluResult) : State :=
  f1Exec s p 2 al fun u next s =>
    f1Next s next fun c =>
      let r := op c.flags u ((c.reg b).toNat % 2 ^ u.bits)
      ({ c with flags := r.2 }).setReg a r.1

def execMov (p : Prefixes) (a : KReg) (b : AluOperand) (s : State) : Result :=
  .next (f1Alu s p a b allowSize .signed true fun f _ _ v => (v, f))
def execAdd (p : Prefixes) (a : KReg) (b : AluOperand) (s : State) : Result :=
  .next (f1Alu s p a b allowAluSat .signed true fun f u x v => aluAdd f u.bits u.sat x v 0)
def execAdc (p : Prefixes) (a : KReg) (b : AluOperand) (s : State) : Result :=
  .next (f1Alu s p a b allowAluSat .signed true fun f u x v => aluAdd f u.bits u.sat x v (b2n f.c))
def execSub (p : Prefixes) (a : KReg) (b : AluOperand) (s : State) : Result :=
  .next (f1Alu s p a b allowAluSat .signed true fun f u x v => aluSub f u.bits u.sat x v 0)
def execSbc (p : Prefixes) (a : KReg) (b : AluOperand) (s : State) : Result :=
  .next (f1Alu s p a b allowAluSat .signed true fun f u x v => aluSub f u.bits u.sat x v (b2n f.c))
def execCmp (p : Prefixes) (a : KReg) (b : AluOperand) (s : State) : Result :=
  .next (f1Alu s p a b allowSize .signed false fun f u x v => aluSub f u.bits false x v 0)
def execAnd (p : Prefixes) (a : KReg) (b : AluOperand) (s : State) : Result :=
  .next (f1Alu s p a b allowSize .zero true fun f u x v => aluLogic f u.bits (x &&& v))
def execOr (p : Prefixes) (a : KReg) (b : AluOperand) (s : State) : Result :=
  .next (f1Alu s p a b allowSize .zero true fun f u x v => aluLogic f u.bits (x ||| v))
def execXor (p : Prefixes) (a : KReg) (b : AluOperand) (s : State) : Result :=
  .next (f1Alu s p a b allowSize .zero true fun f u x v => aluLogic f u.bits (x ^^^ v))
def execTst (p : Prefixes) (a : KReg) (b : AluOperand) (s : State) : Result :=
  .next (f1Alu s p a b allowSize .zero false fun f u x v => aluLogic f u.bits (x &&& v))
def execShl (p : Prefixes) (a : KReg) (b : AluOperand) (s : State) : Result :=
  .next (f1Alu s p a b allowSize .count true fun f u x v => aluShl f u.bits x v)
def execShr (p : Prefixes) (a : KReg) (b : AluOperand) (s : State) : Result :=
  .next (f1Alu s p a b allowSize .count true fun f u x v => aluShr f u.bits x v)
def execSar (p : Prefixes) (a : KReg) (b : AluOperand) (s : State) : Result :=
  .next (f1Alu s p a b allowSize .count true fun f u x v => aluSar f u.bits x v)
def execRor (p : Prefixes) (a : KReg) (b : AluOperand) (s : State) : Result :=
  .next (f1Alu s p a b allowSize .count true fun f u x v => aluRor f u.bits x v)
def execMul (p : Prefixes) (a : KReg) (b : AluOperand) (s : State) : Result :=
  .next (f1Alu s p a b allowAluSat .signed true fun f u x v => aluMul f u.bits u.sat x v)
def execMulh (p : Prefixes) (a : KReg) (b : AluOperand) (s : State) : Result :=
  .next (f1Alu s p a b allowSize .signed true fun f u x v => aluMulh f u.bits x v)

def execNot (p : Prefixes) (a b : KReg) (s : State) : Result :=
  .next (f1Unary s p a b allowSize fun f u y => aluLogic f u.bits (2 ^ u.bits - 1 - y))
def execNeg (p : Prefixes) (a b : KReg) (s : State) : Result :=
  .next (f1Unary s p a b allowAluSat fun f u y => aluSub f u.bits u.sat 0 y 0)
def execInc (p : Prefixes) (a b : KReg) (s : State) : Result :=
  .next (f1Unary s p a b allowSize fun f u y => aluStep f u.bits y 1)
def execDec (p : Prefixes) (a b : KReg) (s : State) : Result :=
  .next (f1Unary s p a b allowSize fun f u y => aluStep f u.bits y (-1))
/-- PAR clears N and leaves C and V (R488). -/
def execPar (p : Prefixes) (a b : KReg) (s : State) : Result :=
  .next (f1Unary s p a b allowSize fun f u y =>
    let r := b2n (oddOnes u.bits y)
    (r, { znp f u.bits r with n := false }))
def execBrev (p : Prefixes) (a b : KReg) (s : State) : Result :=
  .next (f1Unary s p a b allowSize fun f u y => aluLogic f u.bits (revBits u.bits y))
def execClz (p : Prefixes) (a b : KReg) (s : State) : Result :=
  .next (f1Unary s p a b allowSize fun f u y => aluLogic f u.bits (leadingZeros u.bits y))
/-- The flags are those of the low bits at the size; the register takes the extension to 32 bits. -/
def execSext (p : Prefixes) (a b : KReg) (s : State) : Result :=
  .next (f1Unary s p a b allowExtend fun f u y =>
    (lowBits 32 (signedAt u.bits y), (aluLogic f u.bits y).2))
def execZext (p : Prefixes) (a b : KReg) (s : State) : Result :=
  .next (f1Unary s p a b allowExtend fun f u y => aluLogic f u.bits y)

/-- Division; a divisor of 0 raises DIVZERO and leaves Ka (R488). -/
def f1Divide (s : State) (p : Prefixes) (a b : KReg) (op : Flags → Nat → Nat → AluResult) : State :=
  f1Exec s p 2 allowNone fun _ next s =>
    if s.live.f1.reg b = 0 then f1Exception s 7 0 0 s.live.f1.pc
    else f1Next s next fun c =>
      let r := op c.flags (c.reg a).toNat (c.reg b).toNat
      ({ c with flags := r.2 }).setReg a r.1

def execDivu (p : Prefixes) (a b : KReg) (s : State) : Result :=
  .next (f1Divide s p a b fun f x y => aluDivU f x y false)
def execDivs (p : Prefixes) (a b : KReg) (s : State) : Result :=
  .next (f1Divide s p a b fun f x y => aluDivS f x y false)
def execRemu (p : Prefixes) (a b : KReg) (s : State) : Result :=
  .next (f1Divide s p a b fun f x y => aluDivU f x y true)
def execRems (p : Prefixes) (a b : KReg) (s : State) : Result :=
  .next (f1Divide s p a b fun f x y => aluDivS f x y true)

/-- MFF names no register B, MTF no register A: the other field must be 0 (R485). -/
def execMff (p : Prefixes) (a b : KReg) (s : State) : Result :=
  .next (f1Exec s p 2 allowNone fun _ next s =>
    if b ≠ 0 then f1Illegal s 2 else f1Next s next fun c => c.setReg a c.flags.toNat)
def execMtf (p : Prefixes) (a b : KReg) (s : State) : Result :=
  .next (f1Exec s p 2 allowNone fun _ next s =>
    if a ≠ 0 then f1Illegal s 2 else f1Next s next fun c => { c with flags := Flags.ofNat (c.reg b).toNat })

/-! ### Loads and stores (R487, R490, R491) -/

def execLd (p : Prefixes) (a b : KReg) (dsz : DispSize) (disp : BitVec 32) (s : State) : Result :=
  .next (f1Exec s p (2 + dsz.len) allowLd fun u next s =>
    let ad := dispAddr (s.live.f1.reg b) dsz disp
    f1Access s ad (u.bits / 8) false fun s =>
      f1Next s next fun c =>
        let c := if u.lock then { c with reservation := some (ad / 32, c.cycles) } else c
        c.setReg a (c.load ad (u.bits / 8)))

def execLds (p : Prefixes) (a b : KReg) (dsz : DispSize) (disp : BitVec 32) (s : State) : Result :=
  .next (f1Exec s p (2 + dsz.len) allowExtend fun u next s =>
    let ad := dispAddr (s.live.f1.reg b) dsz disp
    f1Access s ad (u.bits / 8) false fun s =>
      f1Next s next fun c => c.setReg a (lowBits 32 (signedAt u.bits (c.load ad (u.bits / 8)))))

/-- A register advanced by n, modulo 2^32. -/
def F1State.advance (c : F1State) (r : KReg) (n : Nat) : F1State := c.setReg r ((c.reg r).toNat + n)

/-- One repetition of a REP instruction: K2 is checked before it and decremented after it; PC passes the instruction
when K2 has reached 0 (R491).  `one` performs the repetition and its access checks. -/
def f1Repeat (s : State) (rep : Bool) (next : Nat) (one : State → (State → State) → State)
    (adv : F1State → F1State) : State :=
  if !rep then one s fun s => f1Next s next id
  else if s.live.f1.reg 2 = 0 then f1Next s next id
  else one s fun s =>
    s.onF1 fun c =>
      let c := adv c
      let c := c.setReg 2 ((c.reg 2).toNat + 0xFFFFFFFF)
      if c.reg 2 = 0 then { c with pc := next } else c

/-- The reservation of LOCK LD is still held on a granule (R490). -/
def F1State.holds (c : F1State) (granule : Nat) : Bool :=
  match c.reservation with
  | none => false
  | some (g, at_) => g == granule && decide ((c.cycles + 2 ^ 32 - at_) % 2 ^ 32 ≤ 1024)

def execSt (p : Prefixes) (a b : KReg) (dsz : DispSize) (disp : BitVec 32) (s : State) : Result :=
  .next (f1Exec s p (2 + dsz.len) allowSt fun u next s =>
    let n := u.bits / 8
    if u.lock then
      let ad := dispAddr (s.live.f1.reg b) dsz disp
      f1Access s ad 4 true fun s =>
        f1Next s next fun c =>
          let held := c.holds (ad / 32)
          let c := if held then c.store ad 4 (c.reg a).toNat else c
          { c with reservation := none, flags := { c.flags with z := held } }
    else
      f1Repeat s u.rep next
        (fun s go =>
          let ad := dispAddr (s.live.f1.reg b) dsz disp
          f1Access s ad n true fun s => go (s.onF1 fun c => c.store ad n (c.reg a).toNat))
        (fun c => c.advance b n))

/-- The immediate is sign-extended to the size; one wider than the size is ILLEGAL (R485, R487). -/
def execSti (p : Prefixes) (b : KReg) (dsz : DispSize) (disp : BitVec 32) (isz : ImmSize) (imm : BitVec 32)
    (s : State) : Result :=
  .next (f1Exec s p (2 + dsz.len + isz.len) allowCopy fun u next s =>
    let n := u.bits / 8
    if n < isz.len then f1Illegal s 2
    else
      f1Repeat s u.rep next
        (fun s go =>
          let ad := dispAddr (s.live.f1.reg b) dsz disp
          f1Access s ad n true fun s => go (s.onF1 fun c => c.store ad n (lowBits u.bits (extend isz.len imm))))
        (fun c => c.advance b n))

def execLea (p : Prefixes) (a b : KReg) (disp : BitVec 32) (s : State) : Result :=
  .next (f1Exec s p 6 allowNone fun _ next s =>
    f1Next s next fun c => c.setReg a (dispAddr (c.reg b) .d4 disp))

def execXchg (p : Prefixes) (a b : KReg) (s : State) : Result :=
  .next (f1Exec s p 2 allowNone fun _ next s =>
    let ad := (s.live.f1.reg b).toNat
    f1Access s ad 4 false fun s =>
      f1Next s next fun c =>
        let old := c.load ad 4
        (c.store ad 4 (c.reg a).toNat).setReg a old)

/-- COPY advances both pointers by the size in every case, so a repetition has no further advance of its own. -/
def execCopy (p : Prefixes) (a b : KReg) (s : State) : Result :=
  .next (f1Exec s p 2 allowCopy fun u next s =>
    let n := u.bits / 8
    f1Repeat s u.rep next
      (fun s go =>
        let src := (s.live.f1.reg b).toNat
        let dst := (s.live.f1.reg a).toNat
        f1Access s src n false fun s => f1Access s dst n true fun s =>
          go (s.onF1 fun c => ((c.store dst n (c.load src n)).setReg a (dst + n)).setReg b (src + n)))
      id)

def execCopyc (p : Prefixes) (a b : KReg) (s : State) : Result :=
  .next (f1Exec s p 2 allowCopy fun u next s =>
    let n := u.bits / 8
    f1Repeat s u.rep next
      (fun s go =>
        let src := (s.live.f1.reg b).toNat
        let dst := (s.live.f1.reg a).toNat
        f1CodeRead s src n false fun s => f1Access s dst n true fun s =>
          let v := codeWord s.kept.flash src n
          go (s.onF1 fun c => ((c.store dst n v).setReg a (dst + n)).setReg b (src + n)))
      id)

def execLdc (p : Prefixes) (a b : KReg) (dsz : DispSize) (disp : BitVec 32) (s : State) : Result :=
  .next (f1Exec s p (2 + dsz.len) allowSize fun u next s =>
    let ad := dispAddr (s.live.f1.reg b) dsz disp
    f1CodeRead s ad (u.bits / 8) true fun s =>
      f1Next s next fun c => c.setReg a (codeWord s.kept.flash ad (u.bits / 8)))

/-- CRCSTEP takes Kb's data, or data[Kb] under REP; Z is that of the accumulator (R492). -/
def execCrcstep (p : Prefixes) (a b : KReg) (imm : BitVec 8) (s : State) : Result :=
  .next (f1Exec s p 3 allowCrc fun u next s =>
    let n := u.bits / 8
    if 3 < imm.toNat then f1Illegal s 2
    else
      let step := fun (bs : List Byte) (c : F1State) =>
        match c.crc[imm.toNat]? with
        | none => c
        | some slot =>
          let v := crcBytes slot (c.reg a).toNat bs
          ({ c with flags := { c.flags with z := v == 0 } }).setReg a v
      if u.rep then
        f1Repeat s true next
          (fun s go =>
            let ad := (s.live.f1.reg b).toNat
            f1Access s ad n false fun s => go (s.onF1 fun c => step (memReadN 0 c.dmem ad n) c))
          (fun c => c.advance b n)
      else f1Next s next fun c => step (le n (c.reg b).toNat) c)

/-! ### The data stack (R495) -/

def execPush (p : Prefixes) (a b : KReg) (s : State) : Result :=
  .next (f1Exec s p 2 allowNone fun _ next s =>
    let c := s.live.f1
    let sp := ((c.reg 0).toNat + 0xFFFFFFFC) % 2 ^ 32
    if b ≠ 0 then f1Illegal s 2
    else if (c.reg 0).toNat % 4 ≠ 0 then f1Exception s 5 0 (c.reg 0).toNat c.pc
    else if sp < c.dsLo then f1Exception s 10 0 sp c.pc
    else f1Access s sp 4 true fun s =>
      f1Next s next fun c => (c.store sp 4 (c.reg a).toNat).setReg 0 sp)

/-- POP of K0 loads K0 from the stack and does not then add 4. -/
def execPop (p : Prefixes) (a b : KReg) (s : State) : Result :=
  .next (f1Exec s p 2 allowNone fun _ next s =>
    let c := s.live.f1
    let sp := (c.reg 0).toNat
    if b ≠ 0 then f1Illegal s 2
    else if sp % 4 ≠ 0 then f1Exception s 5 0 sp c.pc
    else if c.dsHi < sp + 4 then f1Exception s 10 0 (sp + 4) c.pc
    else f1Access s sp 4 false fun s =>
      f1Next s next fun c =>
        let v := c.load sp 4
        if a = 0 then c.setReg 0 v else (c.setReg 0 (sp + 4)).setReg a v)

/-! ### The return stack (R493, R494) -/

def execRspush (p : Prefixes) (a b : KReg) (s : State) : Result :=
  .next (f1Exec s p 2 allowNone fun _ next s =>
    let c := s.live.f1
    if b ≠ 0 then f1Illegal s 2
    else if c.rsp < c.rsLim + 4 then f1Exception s 8 0 0 c.pc
    else f1Next s next fun c => { c with rs := (c.reg a, false) :: c.rs })

def execRspop (p : Prefixes) (a b : KReg) (s : State) : Result :=
  .next (f1Exec s p 2 allowNone fun _ next s =>
    let c := s.live.f1
    if b ≠ 0 then f1Illegal s 2
    else match c.rs with
      | [] => f1Exception s 9 0 0 c.pc
      | (w, frame) :: rest =>
        if frame then f1Exception s 9 1 0 c.pc
        else f1Next s next fun c => ({ c with rs := rest }).setReg a w.toNat)

def execRspeek (p : Prefixes) (a b : KReg) (imm : BitVec 8) (s : State) : Result :=
  .next (f1Exec s p 3 allowNone fun _ next s =>
    if b ≠ 0 then f1Illegal s 2
    else match s.live.f1.rs[imm.toNat]? with
      | none => f1Exception s 9 0 0 s.live.f1.pc
      | some (w, _) => f1Next s next fun c => c.setReg a w.toNat)

def execRspget (p : Prefixes) (a b : KReg) (s : State) : Result :=
  .next (f1Exec s p 2 allowNone fun _ next s =>
    if b ≠ 0 then f1Illegal s 2 else f1Next s next fun c => c.setReg a c.rsp)

/-- The registers of a mask, lowest first. -/
def maskRegs (mask : Nat) : List Nat := bitsOf 16 mask

/-- Pops a frame's registers, lowest first, from the stack above its return address. -/
def popRegs : List Nat → List (Word × Bool) → List Word → Option (List (Word × Bool) × List Word)
  | [], st, k => some (st, k)
  | _ :: _, [], _ => none
  | r :: rs, (w, frame) :: st, k => if frame then popRegs rs st (k.set r w) else none

def execCall (p : Prefixes) (t : CallTarget) (mask : BitVec 16) (s : State) : Result :=
  .next (f1Exec s p t.len allowNone fun _ next s =>
    let c := s.live.f1
    let need := 8 + 4 * popcount 16 mask.toNat
    if c.rsp < c.rsLim + need then f1Exception s 8 0 0 c.pc
    else
      let target := match t with
        | .rel4 d => relTarget next d.toInt
        | .rel2 d => relTarget next d.toInt
        | .reg b => (c.reg b).toNat % 2 ^ 24
      let frame := (BitVec.ofNat 32 (mask.toNat * 2 ^ 16), true) :: (BitVec.ofNat 32 next, true)
        :: (maskRegs mask.toNat).map fun r => (c.k.getD r 0, true)
      f1Next s target fun c => { c with rs := frame ++ c.rs })

/-- A return from a frame whose kind `ok` accepts; `fin` restores what the header holds beyond the registers. -/
def f1Return (s : State) (ok : Nat → Bool) (fin : Nat → F1State → F1State) : State :=
  let c := s.live.f1
  match c.rs with
  | [] => f1Exception s 9 0 0 c.pc
  | (h, frame) :: rest =>
    if !frame then f1Exception s 9 1 0 c.pc
    else if !ok (h.toNat / 2 ^ 14 % 4) then f1Exception s 9 2 0 c.pc
    else match rest with
      | [] => f1Exception s 9 0 0 c.pc
      | (ra, raFrame) :: rest =>
        if !raFrame then f1Exception s 9 1 0 c.pc
        else match popRegs (maskRegs (h.toNat / 2 ^ 16)) rest c.k with
          | none => f1Exception s 9 1 0 c.pc
          | some (st, k) => s.onF1 fun c => fin h.toNat { c with rs := st, k := k, pc := ra.toNat % 2 ^ 24 }

def execRet (p : Prefixes) (s : State) : Result :=
  .next (f1Exec s p 1 allowNone fun _ _ s => f1Return s (· == 0) fun _ c => c)

def execReti (p : Prefixes) (s : State) : Result :=
  .next (f1Exec s p 1 allowNone fun _ _ s => f1Return s (fun k => k == 1 || k == 2) fun h c =>
    { c with flags := Flags.ofNat h, ie := bit h 13, rpl := h / 2 ^ 10 % 8 })

/-! ### Branches and system instructions -/

def execBcc (p : Prefixes) (cc : BitVec 4) (wide : Bool) (disp : BitVec 16) (s : State) : Result :=
  .next (f1Exec s p (if wide then 3 else 2) allowNone fun _ next s =>
    let d := if wide then disp.toInt else (disp.setWidth 8).toInt
    f1Next s (if condHolds s.live.f1.flags cc then relTarget next d else next) id)

def execJmp (p : Prefixes) (t : JumpTarget) (s : State) : Result :=
  .next (f1Exec s p t.len allowNone fun _ next s =>
    f1Next s (match t with
      | .rel d => relTarget next d.toInt
      | .reg b => (s.live.f1.reg b).toNat % 2 ^ 24) id)

def execNop (p : Prefixes) (s : State) : Result :=
  .next (f1Exec s p 1 allowNone fun _ next s => f1Next s next id)
/-- FENCE orders F1's stores before later instructions; in a model whose stores take effect at once it only advances. -/
def execFence (p : Prefixes) (s : State) : Result :=
  .next (f1Exec s p 1 allowNone fun _ next s => f1Next s next id)
def execWfi (p : Prefixes) (s : State) : Result :=
  .next (f1Exec s p 1 allowNone fun _ next s => f1Next s next fun c => { c with waiting := !s.live.irqWakes })
def execEi (p : Prefixes) (s : State) : Result :=
  .next (f1Exec s p 1 allowNone fun _ next s => f1Next s next fun c => { c with ie := true })
def execDi (p : Prefixes) (s : State) : Result :=
  .next (f1Exec s p 1 allowNone fun _ next s => f1Next s next fun c => { c with ie := false })
def execBrk (p : Prefixes) (s : State) : Result :=
  .next (f1Exec s p 1 allowNone fun _ next s => f1Exception s 11 0 0 next)
def execTrap (p : Prefixes) (n : BitVec 8) (s : State) : Result :=
  .next (f1Exec s p 2 allowNone fun _ next s =>
    if 15 < n.toNat then f1Illegal s 2 else f1Exception s (48 + n.toNat) 0 0 next)

/-! ### Interrupts and timers (R497, R501) -/

/-- The line taken next: the lowest priority number, then the lowest line (R497). -/
def Live.nextLine (l : Live) : Option Nat :=
  let lines := (bitsOf 15 (l.irqPending &&& l.f1.irqEn)).filter fun n => decide (l.f1.linePrio n < l.f1.rpl)
  (List.range 4).findSome? fun p => lines.find? fun n => l.f1.linePrio n == p

/-- INTERRUPT_ENTRY (R497, R498): entry of the next line that qualifies.  Without room it becomes an RS_OVERFLOW entry
and the line stays pending. -/
def interruptEntry (s : State) : State :=
  let l := s.live
  let c := l.f1
  match l.nextLine with
  | none => s
  | some line =>
    if c.run != .running || !c.ie then s
    else if c.rsp < c.rsLim + 72 then f1Exception s 8 0 0 c.pc
    else
      match vectorTarget s.kept.flash c.vbar (16 + line) with
      | none => { s with live := l.f1Halt 2 (16 + line) 0 }
      | some target => s.onF1 fun c => { c.enterVector 1 c.pc target with rpl := c.linePrio line }

def execInterruptEntry (s : State) : Result := .next (interruptEntry s)

/-- A periodic timer's compare value beyond now, and the additions after the first (R501). -/
def timerReload (t : F1Timer) (now : Nat) : F1Timer :=
  let p := max 1000 t.period
  let n := (now - t.cmp) / p + 1
  { t with cmp := t.cmp + n * p, missed := min 255 (t.missed + (n - 1)) }

/-- TIMER_FIRE (R501): an enabled timer whose compare MT has reached fires. -/
def timerFire (n : Nat) (l : Live) : Live :=
  match l.f1.timers[n]? with
  | none => l
  | some t =>
    if !t.en || decide (l.mt.now < t.cmp) then l
    else
      let t := if t.periodic then timerReload t l.mt.now else { t with en := false }
      l.onF1 fun c => { c with timers := c.timers.set n t, edgePend := c.edgePend ||| 2 ^ (10 + n) }

def execTimerFire (n : Nat) (s : State) : Result := .next (s.onLogic (timerFire n))

end Sys2Proof.Machine
end

