-- ==== Sys2Proof/Machine/Supervise.lean ====
section
/-! DEFINITION. Supervision of F1, Anvil, the clocks and the islands (R506 to R510), the hours (R572), and the SYS and PRIV commands
of one module. -/

namespace Sys2Proof.Machine

/-! ### F1 (R507) -/

/-- The restarts of F1 within the last 10 s. -/
def Live.f1Recent (l : Live) : List Nat := l.sup.f1RestartMts.filter fun t => decide (l.mt.now < t + ms 10000)

/-- F1_HEARTBEAT_TIMEOUT: no write of HEARTBEAT for F1_HB_MS. -/
def f1HeartbeatTimeout (l : Live) : Live :=
  if l.sup.cfg.f1HbMs ≠ 0 && l.sup.anvil = 0 && l.f1.run == .running && decide (l.sup.hbF1 + ms l.sup.cfg.f1HbMs ≤ l.mt.now)
  then l.f1Stop 0 else l

def execF1HeartbeatTimeout (s : State) : Result := .next (s.onLogic f1HeartbeatTimeout)

/-- What a restart of F1 does to its mailboxes and its queue: commands already rung complete, and the mailboxes then return
to FREE. -/
def Live.f1Leaves (l : Live) : Live :=
  let busy := (List.range 8).filter fun n => (l.host.lmb.getD n Mailbox.empty).st == .busy
  { l with host := { l.host with
      f1q := [], lmbFree := busy, lmb := l.host.lmb.map fun (b : Mailbox) => if b.st == .done then Mailbox.empty else b } }

/-- F1 starts afresh with the active application image, its memory kept. -/
def State.restartF1 (s : State) : State :=
  let s := s.onLive fun l => { l.f1Leaves with f1 := { l.f1 with run := .halted, waiting := false } }
  if s.live.fwu.appHalted then s else s.startF1

/-- F1_RESTART: 10 ms after a stop, within its restart limit; cause 2. -/
def f1Restart (s : State) : State :=
  let l := s.live
  if l.sup.phase != .running || l.f1.run != .stopped || l.sup.f1Held || decide (l.mt.now < l.sup.f1StopAt + ms 10) then s
  else
    let mts := l.mt.now :: l.f1Recent
    (s.onLive fun l => ({ l with sup := { l.sup with f1RestartMts := mts } }).raise 0x1D1 warn 2 (le 4 l.f1.pc ++ le 1 mts.length)).restartF1

def execF1Restart (s : State) : Result := .next (f1Restart s)

/-! ### Anvil (R508) -/

/-- F0 resets Anvil with a cause of EV_SUP_ANVIL; after the third reset within 10 s it stays held. -/
def Live.anvilReset (l : Live) (cause : Nat) : Live :=
  let mts := l.mt.now :: l.sup.anvilResets.filter fun t => decide (l.mt.now < t + ms 10000)
  let n := mts.length
  let l := ({ l with sup := { l.sup with anvilResets := mts, anvil := 1, anvilAt := l.mt.now } }).raise 0x1D2 warn cause (le 1 n)
  if n < 3 then l else ({ l with sup := { l.sup with anvil := 2 } }).raise 0x1D2 crit 3 (le 1 n)

/-- ANVIL_TIMEOUT: no Anvil heartbeat for 10 ms. -/
def anvilTimeout (l : Live) : Live := if l.sup.anvil = 0 && l.overdue l.sup.hbAnvil (ms 10) then l.anvilReset 0 else l

def execAnvilTimeout (s : State) : Result := .next (s.onLogic anvilTimeout)

/-- ANVIL_DOUBLE_FAULT. -/
def execAnvilDoubleFault (s : State) : Result := .next (s.onLogic fun l => if l.sup.anvil = 0 then l.anvilReset 1 else l)

/-- ANVIL_RESET_DONE: after 2 ms. -/
def anvilResetDone (l : Live) : Live :=
  if l.sup.anvil = 1 && l.overdue l.sup.anvilAt (ms 2) then { l with sup := { l.sup with anvil := 0, hbAnvil := l.mt.now } } else l

def execAnvilResetDone (s : State) : Result := .next (s.onLogic anvilResetDone)

/-! ### Clock checks (R509) -/

/-- The deviation in 0.1 % that is a fault: 5 % for the die oscillators, 10 % for the others. -/
def clockLimit (island : Nat) : Int := if island = 5 || island = 6 then 50 else 100

/-- A clock fault, as the table of R509 makes it one: LINK only while neither port has lock. -/
def Live.clockBad (l : Live) (island : Nat) (dev : Int) : Bool :=
  decide (clockLimit island < (dev.natAbs : Int)) && !(island == 3 && l.link.ports.any (·.lock))

/-- EV_SUP_CLOCK, and the island among those with a fault. -/
def Live.clockEvent (l : Live) (island : Nat) (dev : Int) (bad : Bool) : Live :=
  let fs := l.sup.clockFault.filter (· != island)
  ({ l with sup := { l.sup with
      clockFault := if bad then island :: fs else fs, parkRc := if island = 8 then bad else l.sup.parkRc } }).raise 0x1D3
    (if island = 0 || island = 8 then crit else warn) (if bad then 0 else 1) (le 1 island ++ leInt 2 dev)

/-- CLOCK_CHECK: Anvil's checks, and F0's of the ANVIL clock.  A fault of CORE asserts the logic reset line, one of ANVIL resets
Anvil, one of the PARK crystal moves its counters to the RC; ISLAND_RESET follows for BUS, LINK, AUDIO and RANGE. -/
def clockCheck (island : Nat) (dev : Int) (s : State) : State :=
  let l := s.live
  let was := l.sup.clockFault.contains island
  let bad := l.clockBad island dev
  if l.sup.phase != .running || 8 < island || l.sup.anvil ≠ 0 || was == bad then s
  else
    let s := s.onLive fun l => l.clockEvent island dev bad
    if !bad then s
    else if island = 0 then s.resetIf true 3 1
    else if island = 1 then s.onLive fun l => l.anvilReset 2
    else s

def execClockCheck (island : Nat) (dev : Int) (s : State) : Result := .next (clockCheck island dev s)

/-! ### Island resets (R510) -/

/-- BUS: rings cleared, loaded buffers abandoned, the configured modes in force. -/
def Live.busReset (l : Live) : Live :=
  let l := [0, 1, 2, 3].foldl (fun (l : Live) n => l.abandonAll n 3) l
  l.setCan fun c => { c with chans := c.chans.map fun (x : CanChan) => { x with
    ring := [], tail := 0, locked := false, filtered := false, tec := 0, rec_ := 0, errState := 0 } }

/-- AUDIO: programmes end with cause 1, none waits, T_CHIME of every zone is lost. -/
def Live.audioReset (l : Live) : Live :=
  let l := (List.range 8).foldl (fun (l : Live) n =>
    (l.setZone n fun z => { z with next := none, queue := [], playing := z.playing.map fun (p : Playing) => { p with void := true } }).endProgramme n 1) l
  (List.range 8).foldl (fun (l : Live) n => l.setZone n fun z => { z with chimeAt := none }) l

/-- LINK: the ports are silent; position and staged changes are kept. -/
def Live.linkIslandReset (l : Live) : Live :=
  l.setLink fun k => { k with ports := k.ports.map fun (p : LinkPort) => { p with lock := false, brk := false, quiet := true }, frags := [], carry := [] }

/-- What the reset of one island does. -/
def Live.islandEffect (l : Live) (island : Nat) : Live :=
  match island with
  | 2 => l.busReset
  | 3 => l.linkIslandReset
  | 4 => l.audioReset
  | 7 => l.tokensEnd
  | _ => l

/-- A crossing into the island that has stayed failed through three retests. -/
def Live.stuckCrossing (l : Live) (island : Nat) : Bool :=
  l.arch.crossings.any fun (c : Crossing) => c.rcv == island && c.failed && decide (3 ≤ c.badRetests)

/-- ISLAND_RESET: cause 0 a clock fault, 1 a crossing that stays failed.  Into CORE it is a logic reset, into ANVIL an Anvil reset. -/
def islandReset (island cause : Nat) (s : State) : State :=
  let l := s.live
  let due := if cause = 0 then l.sup.clockFault.contains island else cause = 1 && l.stuckCrossing island
  if l.sup.phase != .running || !due || l.sup.anvil ≠ 0 || l.islandDown island then s
  else if island = 0 then s.resetIf true 3 0
  else if island = 1 then s.onLive fun l => l.anvilReset 0
  else if island = 2 || island = 3 || island = 4 || island = 7 then
    s.onLive fun l =>
      let l := { l with
        sup := { l.sup with islandReset := (island, l.mt.now) :: l.sup.islandReset.filter fun (x : Nat × Nat) => x.1 != island },
        arch := { l.arch with crossings := l.arch.crossings.map fun (c : Crossing) => if c.rcv == island then { c with badRetests := 0 } else c } }
      (l.islandEffect island).raise 0x1D4 sevFault cause (le 1 island)
  else s

def execIslandReset (island cause : Nat) (s : State) : Result := .next (islandReset island cause s)

/-! ### Hours (R572) -/

def hourNs : Nat := ms 3600000

/-- HOURS_INCREMENT: a whole hour in RUN and DRAIN adds to counter 14, one in PARK to counter 15. -/
def hoursIncrement (park : Bool) (s : State) : State :=
  let s := s.onLive Live.countTime
  let u := s.live.sup
  if (if park then u.parkPart else u.runPart) < hourNs then s
  else
    let s := s.onLive fun l => { l with sup := { l.sup with
      runPart := if park then u.runPart else u.runPart - hourNs, parkPart := if park then u.parkPart - hourNs else u.parkPart } }
    if u.phase == .running then s.onLive fun l => l.enqueue (.add (if park then 15 else 14) 1) none [] false
    else { s with kept := s.kept.counterAdd (if park then 15 else 14) 1 }

def execHoursIncrement (park : Bool) (s : State) : Result := .next (hoursIncrement park s)

/-! ### RESTART_GATE_CHECK (R466, R473) -/

/-- Every 100 ms for up to 60 s after UPD.END with RESTART; and, once the Assay window has expired, at the first moment at
which neither MOVING nor BATTERY holds. -/
def restartGateCheck (s : State) : State :=
  let l := s.live
  if l.sup.phase != .running then s
  else if l.fwu.expired && s.kept.assay.isSome && !l.gateMoving && !l.gateBattery then s.resetIf true 4 0
  else match l.fwu.restart, s.kept.updPending with
    | some (start, last), some kind =>
      if l.mt.now < last + ms 100 then s
      else if (gateDetail kind l.gates).isNone then s.resetIf true 4 0
      else if start + ms 60000 ≤ l.mt.now then
        s.onLive fun l => (l.setFwu fun f => { f with restart := none }).installEvent 3 kind l.gates s.kept.stagedVersion
      else s.onLive fun l => l.setFwu fun f => { f with restart := some (start, l.mt.now) }
    | _, _ => s

def execRestartGateCheck (s : State) : Result := .next (restartGateCheck s)

/-! ### The SYS commands -/

/-- SYS.PING. -/
def sysPing (b : Mailbox) : Reply := .done .ok 0 b.payload

def execSysPing (s : State) : Result := .next (s.command 0x0101 fun _ b l => (sysPing b, l))

/-- SYS.TIME. -/
def sysTime (l : Live) : Reply :=
  .done .ok 0 (le 8 l.mt.now ++ le 1 l.mt.source.code ++ le 1 l.link.position ++ le 1 ((l.can.source.map (·.ch)).getD 0xFF) ++ [0])

def execSysTime (s : State) : Result := .next (s.command 0x0102 fun _ _ l => (sysTime l, l))

def isRelay : MbRef → Bool
  | .relay _ => true
  | _ => false

/-- SYS.RESET (R524). -/
def sysReset (m : MbRef) (b : Mailbox) (s : State) : Reply × State :=
  let p := b.payload
  let f1 := byteAt p 0 = 1
  checked [(0, decide (byteAt p 0 ≤ 1)), (1, decide (byteAt p 1 ≤ 2) && !(f1 && byteAt p 1 ≠ 0)), resv b 2 2]
    (if s.live.draining || (f1 && !s.kept.activePresent 1) then (refuse .state, s)
     else if s.live.fwu.session.isSome || s.kept.cells.journal.isSome then (refuse .busy, s)
     else if f1 then (okReply, (s.onLive fun l => { l with sup := { l.sup with f1Held := false } }).restartF1)
     else (okReply, s.onLive fun l => { l with sup := { l.sup with
       ordered := some { cause := if isRelay m then 6 else 5, mode := byteAt p 1, at_ := l.mt.now } } }))
    fun r => (r, s)

def execSysReset (s : State) : Result := .next (s.commandK 0x0104 fun m b s => sysReset m b s)

/-- SYS.SUPERVISE (R525). -/
def sysSupervise (m : MbRef) (b : Mailbox) (l : Live) : Reply × Live :=
  let p := b.payload
  let hb := rd p 2 2
  checked [(0, !bit (byteAt p 0) 0), (1, decide (byteAt p 1 ≤ 1)), (2, hb == 0 || inRange 10 10000 hb),
           (4, decide (byteAt p 4 ≤ 15)), resv b 5 1, (6, decide (rd p 6 2 ≤ 3600))]
    ((l.applySupervise p).endConfig m (bit (byteAt p 1) 0) 0x0105 0 p)
    fun r => (r, l)

def execSysSupervise (s : State) : Result := .next (s.command 0x0105 fun m b l => sysSupervise m b l)

/-- F1 of SYS.HEALTH. -/
def Live.f1Health (l : Live) : Nat :=
  match l.f1.run with
  | .halted => 0
  | .running => 1
  | .stopped => if l.sup.f1Held then 3 else 2

/-- SYS.HEALTH (R526). -/
def sysHealth (l : Live) : Reply :=
  let u := l.sup
  .done .ok 0 (le 1 u.cause ++ le 1 u.subcause ++ le 1 l.failedNow.length ++
    le 1 (maskOf 4 fun i => if i < 2 then u.adopted.getD i false else u.unadopted.getD (i - 2) false) ++
    le 1 u.anvil ++ le 1 l.f1Health ++ le 1 l.f1Recent.length ++
    le 1 (maskOf 8 fun i => l.arch.crossings.any fun (c : Crossing) => c.failed && (c.snd == i || c.rcv == i)) ++
    le 8 u.resetMt ++ le 4 u.restarts ++ le 4 0)

def execSysHealth (s : State) : Result := .next (s.command 0x0106 fun _ _ l => (sysHealth l, l))

/-- The 64 bytes of SYS.IDENTITY; in RETIRED the boot ROM answers with the versions, hours and erase count at 0 (R411, R573). -/
def Kept.identity (k : Kept) : List Byte :=
  let live := k.cells.lcs ≠ 4
  let shown := fun n => if live then n else 0
  padTo 64 (le 8 Config.serial ++ padTo 16 Config.orderCode ++ ascii "A" ++ le 1 k.cells.lcs ++
    (List.range 4).map (fun d => BitVec.ofNat 8 (Config.dieRev d)) ++ le 1 Config.dateYear ++ le 1 Config.dateWeek ++
    le 4 (shown (k.activeVersion 0)) ++ le 4 (shown (k.activeVersion 1)) ++ le 4 (shown (k.counter 14)) ++
    le 4 (shown (k.counter 15)) ++ le 2 (shown (min 0xFFFF (k.erases.foldl max 0))))

def execSysIdentity (s : State) : Result := .next (s.commandK 0x0107 fun _ _ s => (.done .ok 0 s.kept.identity, s))

/-! ### PRIV.TESTMODE (R523) -/

/-- Every output is turned off as reinitialisation turns it off. -/
def Live.testOff (l : Live) (st : Memory) : Live := (l.reinitOutputs st 0 []).reinitOutputs st 1 []

/-- PRIV.TESTMODE: the opening is logged, every output turned off. -/
def privTestmode (b : Mailbox) (s : State) : Reply × State :=
  let p := b.payload
  let mode := byteAt p 0
  checked [(0, inRange 1 15 mode), resv b 1 3]
    (if s.kept.cells.lcs ≠ 3 then (refuse .locked, s)
     else if !ecdsaVerify Config.returnKey ((p.drop 4).take 64) (authDigest "ZZ-TEST" s.live.key.tnonce (le 1 mode))
       then (refuse .crc, s)
     else
       let k := { s.kept with cells := { s.kept.cells with testLog := s.kept.cells.testLog ++ [s.live.mt.now] } }
       let l := { s.live with sup := { s.live.sup with testMode := mode } }
       (okReply, { s with kept := k, live := (l.raise 0x1D7 crit mode (le 8 Config.serial)).testOff k.store }))
    fun r => (r, s)

/-- The restart into the test monitor follows the response at once, cause F0_SELF, subcause 2. -/
def execPrivTestmode (s : State) : Result :=
  let s := s.commandK 0x7F01 fun _ b s => privTestmode b s
  .next (s.resetIf (s.live.sup.testMode ≠ 0 && s.live.sup.phase == .running) 4 2)

end Sys2Proof.Machine
end

