-- ==== Sys2Proof/Machine/Admit.lean ====
section
/-! DEFINITION. The checks of a request before the command's own (R74 checks 1 to 5, R87, R88, R90, R91): version, opcode,
length, header, routing and physical presence. -/

namespace Sys2Proof.Machine

/-! ### Opcodes and lengths (R74 checks 2 and 3) -/

/-- Opcodes whose request has a fixed length, with it. -/
def fixedSys : List (Nat × Nat) :=
  [(0x0102, 0), (0x0103, 4), (0x0104, 4), (0x0105, 8), (0x0106, 0), (0x0107, 0), (0x0201, 0), (0x0202, 21),
   (0x0203, 9), (0x7F01, 68)]
def fixedLoad : List (Nat × Nat) :=
  [(0x1001, 36), (0x1003, 2), (0x1004, 8), (0x1101, 20), (0x1102, 8), (0x1103, 1), (0x1104, 1), (0x1201, 20),
   (0x1202, 12), (0x1203, 0), (0x1204, 4), (0x1301, 16), (0x1302, 8), (0x1303, 2)]
def fixedValve : List (Nat × Nat) :=
  [(0x2001, 44), (0x2002, 8), (0x2003, 8), (0x2004, 1), (0x2005, 1), (0x2006, 4)]
def fixedLed : List (Nat × Nat) :=
  [(0x2801, 48), (0x2803, 4), (0x2804, 260), (0x2805, 68), (0x2806, 4), (0x2807, 0), (0x2808, 2), (0x2809, 4)]
def fixedFio : List (Nat × Nat) :=
  [(0x3001, 24), (0x3002, 8), (0x3003, 0), (0x3004, 4), (0x3005, 8), (0x3801, 8), (0x3802, 16), (0x3803, 4),
   (0x3804, 4), (0x3805, 4), (0x3806, 0)]
def fixedNet : List (Nat × Nat) :=
  [(0x4001, 20), (0x4002, 4), (0x4004, 2), (0x4005, 1), (0x4007, 12), (0x4008, 1), (0x4009, 16), (0x4401, 24),
   (0x4402, 4), (0x4403, 0), (0x4404, 1), (0x4405, 1), (0x4801, 8), (0x4802, 0), (0x4803, 4), (0x4804, 1),
   (0x4805, 4), (0x4806, 4)]
def fixedKey : List (Nat × Nat) :=
  [(0x5001, 24), (0x5002, 36), (0x5003, 12), (0x5004, 4), (0x5005, 2), (0x5006, 1), (0x5007, 0), (0x5801, 0),
   (0x5802, 1), (0x5803, 4), (0x5805, 2), (0x5806, 1), (0x580C, 1), (0x580D, 0), (0x580E, 8), (0x580F, 1),
   (0x5810, 52), (0x5811, 2), (0x5812, 68)]
def fixedParam : List (Nat × Nat) :=
  [(0x6001, 4), (0x6003, 4), (0x6004, 8), (0x6006, 0), (0x6007, 4), (0x6801, 16), (0x6803, 4), (0x6804, 4),
   (0x6805, 0), (0x6806, 8)]

def fixedLen (opc : Nat) : Option Nat :=
  ((fixedSys ++ fixedLoad ++ fixedValve ++ fixedLed ++ fixedFio ++ fixedNet ++ fixedKey ++ fixedParam).find?
    fun (x : Nat × Nat) => x.1 == opc).map (·.2)

/-- The length that CAN.SEND's data take (R325); no length fits a DLC outside its range. -/
def canDataFits (p : List Byte) (n : Nat) : Bool :=
  let key := rd p 2 4
  if 15 < byteAt p 6 then inRange 12 76 n
  else n == 12 + (if keyRtr key then 0 else dlcLen (keyFdf key) (byteAt p 6))

/-- The length of KEY.IMPORT by FORM and TYPE (R424). -/
def importFits (p : List Byte) (n : Nat) : Bool :=
  match byteAt p 1 with
  | 0 => decide (byteAt p 3 ≤ 4) && n == 8 + materialLen (byteAt p 3)
  | 1 => n == 40 || n == 56 || n == 88
  | _ => false

/-- Whether n is a length of this opcode's request with the payload area p; none for an unknown opcode. -/
def lenFits (opc : Nat) (p : List Byte) (n : Nat) : Option Bool :=
  match fixedLen opc with
  | some k => some (n == k)
  | none =>
    if opc = 0x0101 then some (decide (n ≤ 496))
    else if opc = 0x1002 then some (n == 4 + 4 * byteAt p 0)
    else if opc = 0x2802 then some (n == 8 + (if bit (byteAt p 1) 0 then byteAt p 5 * byteAt p 6 else rd p 4 2))
    else if opc = 0x2810 then some (n == 4 + 8 * byteAt p 0)
    else if opc = 0x4003 then some (canDataFits p n)
    else if opc = 0x4006 then some (n == 4 + 16 * byteAt p 2)
    else if opc = 0x5804 then some (importFits p n)
    else if opc = 0x5807 then some (n == 8 + byteAt p 5 + byteAt p 6)
    else if opc = 0x5808 then
      some (n == 24 + byteAt p 3 + rd p 4 2 + (if byteAt p 1 = 2 ∧ byteAt p 2 = 1 then 16 else 0))
    else if opc = 0x5809 then some (n == 24 + rd p 4 2)
    else if opc = 0x580A then some (n == (if byteAt p 1 = 1 then 100 else 36))
    else if opc = 0x580B then some (inRange 4 452 n)
    else if opc = 0x6002 then some (n == 8 + byteAt p 5)
    else if opc = 0x6005 then some (n == (if byteAt p 0 = 2 then 8 + rd p 4 2 else 8))
    else if opc = 0x6802 then some (n == 16 + rd p 8 2)
    else none

/-! ### What a command allows (R74 check 4, R82) -/

/-- Commands that allow STAGE. -/
def stageAllowed (opc : Nat) : Bool := [0x1002, 0x1102, 0x2803, 0x2810, 0x3002].contains opc

/-- Commands that permit broadcast. -/
def broadcastAllowed (opc : Nat) : Bool :=
  [0x0101, 0x0102, 0x0104, 0x0105, 0x0107, 0x0202, 0x0203, 0x1001, 0x1002, 0x1004, 0x1101, 0x1102, 0x1104, 0x1201,
   0x1202, 0x1301, 0x1302, 0x2001, 0x2002, 0x2006].contains opc ||
  [0x2801, 0x2802, 0x2803, 0x2804, 0x2806, 0x2810, 0x3001, 0x3002, 0x3004, 0x3005, 0x3801, 0x3802, 0x3803, 0x3804,
   0x3805, 0x4001, 0x4002, 0x4006, 0x4402, 0x4801].contains opc

/-- DEV is of no module and no broadcast (R72). -/
def devReserved (dev : Nat) : Bool := inRange 0x40 0x7D dev || decide (0x80 ≤ dev)

/-- The fault that check 4 finds in the header. -/
def headerBad (b : Mailbox) : Bool :=
  devReserved b.dev || (b.dev == 0x7F && !broadcastAllowed b.opc) || b.flags / 2 % 2 ^ 14 != 0 || rd b.bytes 12 4 != 0 ||
    (b.staged && !stageAllowed b.opc)

/-- Checks 1 to 4 of R74; `whole` says that the frame came with as many bytes as LEN names. -/
def requestFault (b : Mailbox) (whole : Bool) : Option Reply :=
  if byteAt b.bytes 7 ≠ 1 then some (refuse .version)
  else match lenFits b.opc (b.bytes.drop 16) b.len with
    | none => some (refuse .badOpcode)
    | some ok =>
      if decide (496 < b.len) || !ok || !whole then some (refuse .badLength)
      else if headerBad b then some (refuse .badParam 0xFF)
      else none

/-- The bytes of a request as a mailbox takes them: STATUS and RESP are the module's (R72, R73). -/
def requestBytes (bs : List Byte) : List Byte :=
  let bs := padTo 512 bs
  ((bs.set 9 (BitVec.ofNat 8 (byteAt bs 9 % 128))).set 10 0).set 11 0

def Live.setStage (l : Live) (m : MbRef) (st : CmdStage) : Live :=
  match l.box m with
  | none => l
  | some b => l.setBox m { b with stage := st }

/-! ### Physical presence (R74 check 5, R90, R91) -/

/-- The proof of a transition by its target (R408): 0 button, 1 jumper, 2 seal. -/
def transitionProof (old target : Nat) : Option Nat :=
  if !transitionOk old target then none
  else if target = 3 ∨ target = 4 then some 2
  else if old = 0 then some 0
  else some 1

/-- The weakest proof that the command accepts, if it needs one. -/
def State.proofOf (s : State) (b : Mailbox) : Option Nat :=
  let p := b.payload
  if s.live.sup.phase == .recovery then some 1
  else if b.opc / 256 = 0x7F then some 2
  else if b.opc = 0x5003 then some 0
  else if b.opc = 0x5804 then if byteAt p 1 = 0 then some 0 else none
  else if b.opc = 0x5810 then if byteAt p 0 = 0 then some 0 else none
  else if b.opc = 0x5812 then transitionProof s.kept.cells.lcs (byteAt p 0)
  else if b.opc = 0x6007 then some 1
  else if b.opc = 0x6806 then if s.live.updOwnerChange p then some 0 else none
  else none

/-- The mailbox and the source as EV_SYS_PRESENCE_WAIT gives them (R96).  DESIGN CHOICE: the table has no source for a command
relayed in from another position, which counts as the host's mailbox 0. -/
def presenceBytes : MbRef → List Byte
  | .host n => le 1 n ++ le 1 0
  | .loc n => le 1 n ++ le 1 1
  | .uart => le 1 0 ++ le 1 2
  | .relay _ => le 1 0 ++ le 1 0

/-- The presence check has passed: the event, and the command may execute. -/
def Live.proven (l : Live) (m : MbRef) (opc cause : Nat) : Live :=
  (l.raise 0x013 notice cause (le 2 opc)).setStage m .admitted

/-- The command that waits for the button, while its mailbox still does. -/
def Live.waiting (l : Live) : Option PresenceWait :=
  l.host.presence.filter fun w => (l.box w.m).any fun b => b.st == .busy && b.stage == .presence

/-- Waits for the button, which one command does at a time. -/
def Live.awaitButton (l : Live) (m : MbRef) (opc : Nat) : Live :=
  if l.waiting.isSome then l.complete m .busy 0 []
  else
    let l := (l.setStage m .presence).raise 0x012 notice 0 (le 2 opc ++ presenceBytes m)
    { l with host := { l.host with presence := some { m := m, opc := opc, since := l.mt.now } } }

/-- The presence check of a command that this module executes. -/
def State.presenceCheck (s : State) (m : MbRef) (b : Mailbox) : State :=
  match s.proofOf b with
  | none => s.onLive fun l => l.setStage m .admitted
  | some k =>
    let h := s.live.host
    if h.sealOpen then s.onLive fun l => l.proven m b.opc 2
    else if h.jumper && decide (k ≤ 1) then s.onLive fun l => l.proven m b.opc 1
    else if k = 0 then s.onLive fun l => l.awaitButton m b.opc
    else s.onLive fun l => l.complete m .presenceRequired 0 []

/-! ### Routing (R87, R88, R365) -/

/-- The largest response payload of each command that has one. -/
def respLow : List (Nat × Nat) :=
  [(0x0101, 496), (0x0102, 12), (0x0106, 24), (0x0107, 64), (0x0201, 26), (0x1002, 48), (0x1003, 496), (0x1004, 6),
   (0x1103, 16), (0x1203, 44), (0x1204, 488), (0x1303, 400), (0x2003, 12), (0x2005, 32), (0x2006, 4), (0x2806, 16),
   (0x2807, 16), (0x2808, 242), (0x2810, 16), (0x3002, 12), (0x3003, 276), (0x3004, 4), (0x3802, 8), (0x3806, 64)]
def respHigh : List (Nat × Nat) :=
  [(0x4003, 1), (0x4004, 1), (0x4005, 488), (0x4008, 32), (0x4403, 32), (0x4404, 324), (0x4405, 138), (0x4802, 32),
   (0x4803, 8), (0x4804, 484), (0x5003, 8), (0x5006, 484), (0x5007, 16), (0x5801, 32), (0x5802, 80), (0x5803, 80),
   (0x5804, 16), (0x5805, 80), (0x5807, 16), (0x5808, 488), (0x5809, 16), (0x580A, 64), (0x580B, 32), (0x580C, 255),
   (0x580D, 17), (0x5810, 340), (0x5811, 482), (0x6001, 256), (0x6002, 4), (0x6004, 12), (0x6005, 480), (0x6006, 64),
   (0x6802, 4), (0x6805, 32)]

def maxResponse (opc : Nat) : Nat :=
  (((respLow ++ respHigh).find? fun (x : Nat × Nat) => x.1 == opc).map (·.2)).getD 0

/-- A command for another position leaves over the link or is refused at once. -/
def Live.routeAway (l : Live) (m : MbRef) (b : Mailbox) : Live :=
  if !l.link.cascaded || !l.isMember b.dev then l.complete m .state 1 []
  else if l.pathOut 3 then l.complete m .internal 0 []
  else if l.acting && l.link.silent.contains b.dev then l.complete m .timeout 0 []
  else if !l.relayFits (16 + b.len) (16 + maxResponse b.opc) b.dev then l.complete m .busy 2 []
  else (l.setStage m .relayed).sendRequest m b.dev (b.bytes.take (16 + b.len))

/-- A broadcast goes to every member; its own part is executed here. -/
def Live.startBroadcast (l : Live) (m : MbRef) (b : Mailbox) : Live :=
  let me := l.link.position
  let others := (List.range 64).filter fun p => p != me && l.isMember p
  let l := l.setLink fun k => { k with gathers := k.gathers ++ [{ owner := m, waiting := me :: others, got := [] }] }
  if others.isEmpty then l else l.sendRequest m 0x7F (b.bytes.take (16 + b.len))

def fromRelay : MbRef → Bool
  | .relay _ => true
  | _ => false

/-- Checks 1 to 5 of R74 on the request in a mailbox that has just become BUSY, and its routing. -/
def State.accept (s : State) (m : MbRef) (whole : Bool) : State :=
  match s.live.box m with
  | none => s
  | some b =>
    match requestFault b whole with
    | some r => s.onLive fun l => l.finish m r
    | none =>
      if b.dev == 0x7F && !fromRelay m then (s.onLive fun l => l.startBroadcast m b).presenceCheck m b
      else if decide (b.dev < 64) && b.dev != s.live.link.position && !fromRelay m then s.onLive fun l => l.routeAway m b
      else s.presenceCheck m b

/-- A mailbox becomes BUSY with this request, next in doorbell order (R77, R80). -/
def Live.ring (l : Live) (m : MbRef) (bytes : List Byte) : Live :=
  let l := l.setBox m { st := .busy, stage := .none, bytes := bytes, seq := l.host.ringSeq, rungAt := l.mt.now }
  { l with host := { l.host with ringSeq := l.host.ringSeq + 1 } }

/-- Rings one mailbox of the host (`by_` 0) or of F1 (1). -/
def State.ringOne (s : State) (m : MbRef) (n by_ : Nat) : State :=
  match s.live.box m with
  | none => s
  | some b =>
    match b.st with
    | .free => (s.onLive fun l => l.ring m b.bytes).accept m true
    | .busy => s.onLive fun l => l.raise 0x011 warn 0 (le 1 n ++ le 1 by_)
    | .done => s.onLive fun l => l.raise 0x011 warn 1 (le 1 n ++ le 1 by_)

/-- The bit of a request that asks for PERSIST: payload offset and bit. -/
def persistBits : List (Nat × Nat × Nat) :=
  [(0x0105, 1, 0), (0x0202, 20, 1), (0x1001, 17, 2), (0x1101, 17, 0), (0x1201, 5, 0), (0x1202, 8, 0), (0x1301, 11, 0),
   (0x1302, 2, 1), (0x2001, 1, 0), (0x2002, 1, 0), (0x2801, 1, 0), (0x2804, 2, 1), (0x2805, 2, 1), (0x2809, 3, 0),
   (0x3001, 4, 0), (0x3005, 6, 0), (0x3801, 1, 0), (0x4001, 1, 0), (0x4006, 3, 1), (0x4007, 10, 0), (0x4009, 5, 0),
   (0x4401, 2, 0), (0x4801, 0, 0), (0x5001, 0, 0), (0x5002, 1, 0)]

/-- The command writes to the parameter store: those that always do, PARAM.COUNTER and PARAM.SHADOW by OP, and PERSIST. -/
def writesStore (opc : Nat) (p : List Byte) : Bool :=
  [0x0103, 0x5004, 0x6002, 0x6003, 0x6007].contains opc || (opc = 0x6004 && byteAt p 0 != 0) ||
    (opc = 0x6005 && decide (2 ≤ byteAt p 0)) || (opc = 0x2806 && decide (2 ≤ byteAt p 0)) ||
    persistBits.any fun x => x.1 == opc && bit (byteAt p x.2.1) x.2.2

/-- The bound of a request in ms (R78) with the 30 s of one that accepts button presence; for TOKEN.ENROL and KEY.TRANSITION, whose
bound depends on the state of the module that executes, the longest. -/
def boundMs (opc : Nat) (p : List Byte) : Nat :=
  if opc = 0x5810 then 60 + (if byteAt p 0 = 0 then 30000 else 0)
  else if opc = 0x5812 then 30500
  else if opc = 0x5804 then 20 + (if byteAt p 1 = 0 then 30000 else 0)
  else if opc = 0x5003 then 33300
  else if opc = 0x6806 then 30050
  else if opc = 0x2003 then 60
  else if opc = 0x6802 || opc / 256 = 0x58 then 20
  else if writesStore opc p then 50
  else 10

end Sys2Proof.Machine
end

