-- ==== Sys2Proof/Machine/Fetch.lean ====
section
/-! DEFINITION. The encoding of the Dvorgil instruction set (R483 to R487): the instruction that bytes of code space
spell, for the program that F1 runs by itself, and the bytes of an instruction. -/

namespace Sys2Proof.Machine

/-- What the bytes at PC are: an instruction, or ILLEGAL with its cause (R483 to R485, R496). -/
inductive Decoded where
  | instr (i : Instr)
  | illegal (cause : Nat)
  deriving DecidableEq, Repr

def hiReg (b : Byte) : KReg := ⟨b.toNat / 16 % 16, Nat.mod_lt _ (by decide)⟩
def loReg (b : Byte) : KReg := ⟨b.toNat % 16, Nat.mod_lt _ (by decide)⟩

def wordOf (bs : List Byte) (off n : Nat) : Word := BitVec.ofNat 32 (rd bs off n)

/-- The immediate size of an IS code (R485). -/
def isizeOf : Nat → Option ImmSize
  | 0 => some .i1 | 1 => some .i2 | 2 => some .i4 | _ => none

/-- The displacement size of an opcode's low two bits, or of STI's size code (R487). -/
def dsizeOf : Nat → DispSize
  | 0 => .d0 | 1 => .d1 | 2 => .d2 | _ => .d4

/-- The ALU instruction of an index (R486). -/
def aluInstr (p : Prefixes) (i : Nat) (a : KReg) (b : AluOperand) : Instr :=
  match i with
  | 0x0 => .mov p a b | 0x1 => .add p a b | 0x2 => .adc p a b | 0x3 => .sub p a b
  | 0x4 => .sbc p a b | 0x5 => .cmp p a b | 0x6 => .and p a b | 0x7 => .or p a b
  | 0x8 => .xor p a b | 0x9 => .tst p a b | 0xA => .shl p a b | 0xB => .shr p a b
  | 0xC => .sar p a b | 0xD => .ror p a b | 0xE => .mul p a b | _ => .mulh p a b

/-- The instruction of an opcode and the bytes after it. -/
def decodeOp (p : Prefixes) (op : Nat) (bs : List Byte) : Decoded :=
  let ob := bs.getD 0 0
  let a := hiReg ob
  let b := loReg ob
  let dsz := dsizeOf (op % 4)
  let disp := wordOf bs 1 dsz.len
  if 0x10 ≤ op ∧ op ≤ 0x1F then .instr (aluInstr p (op % 16) a (.reg b))
  else if 0x20 ≤ op ∧ op ≤ 0x2F then
    if ob.toNat / 4 % 4 ≠ 0 then .illegal 2
    else match isizeOf (ob.toNat % 4) with
      | none => .illegal 2
      | some sz => .instr (aluInstr p (op % 16) a (.imm sz (wordOf bs 1 sz.len)))
  else if 0x60 ≤ op ∧ op ≤ 0x6F then .instr (.bcc p (BitVec.ofNat 4 op) false (BitVec.ofNat 16 (rd bs 0 1)))
  else if 0x70 ≤ op ∧ op ≤ 0x7F then .instr (.bcc p (BitVec.ofNat 4 op) true (BitVec.ofNat 16 (rd bs 0 2)))
  else if 0x40 ≤ op ∧ op ≤ 0x43 then .instr (.ld p a b dsz disp)
  else if 0x44 ≤ op ∧ op ≤ 0x47 then .instr (.st p a b dsz disp)
  else if 0x48 ≤ op ∧ op ≤ 0x4B then .instr (.lds p a b dsz disp)
  else if 0x58 ≤ op ∧ op ≤ 0x5B then .instr (.ldc p a b dsz disp)
  else match op with
    | 0x00 => .instr (.nop p)
    | 0x01 => .instr (.wfi p)
    | 0x02 => .instr (.brk p)
    | 0x03 => .instr (.ret p)
    | 0x04 => .instr (.reti p)
    | 0x05 => .instr (.ei p)
    | 0x06 => .instr (.di p)
    | 0x07 => .instr (.fence p)
    | 0x08 => .instr (.trap p ob)
    | 0x30 => .instr (.not p a b)
    | 0x31 => .instr (.neg p a b)
    | 0x32 => .instr (.inc p a b)
    | 0x33 => .instr (.dec p a b)
    | 0x34 => .instr (.par p a b)
    | 0x35 => .instr (.brev p a b)
    | 0x36 => .instr (.clz p a b)
    | 0x37 => .instr (.sext p a b)
    | 0x38 => .instr (.zext p a b)
    | 0x39 => .instr (.divu p a b)
    | 0x3A => .instr (.divs p a b)
    | 0x3B => .instr (.remu p a b)
    | 0x3C => .instr (.rems p a b)
    | 0x3D => .instr (.crcstep p a b (bs.getD 1 0))
    | 0x3E => .instr (.mff p a b)
    | 0x3F => .instr (.mtf p a b)
    | 0x4C =>
      match isizeOf (ob.toNat / 16 % 4) with
      | none => .illegal 2
      | some sz =>
        let d := dsizeOf (ob.toNat / 64)
        .instr (.sti p b d (wordOf bs 1 d.len) sz (wordOf bs (1 + d.len) sz.len))
    | 0x4D => .instr (.lea p a b (wordOf bs 1 4))
    | 0x4E => .instr (.xchg p a b)
    | 0x4F => .instr (.copy p a b)
    | 0x50 => .instr (.push p a b)
    | 0x51 => .instr (.pop p a b)
    | 0x52 => .instr (.rspush p a b)
    | 0x53 => .instr (.rspop p a b)
    | 0x54 => .instr (.rspeek p a b (bs.getD 1 0))
    | 0x55 => .instr (.rspget p a b)
    | 0x56 => .instr (.copyc p a b)
    | 0x80 => .instr (.jmp p (.rel (wordOf bs 0 4)))
    | 0x81 => if a ≠ 0 then .illegal 2 else .instr (.jmp p (.reg b))
    | 0x82 => .instr (.call p (.rel4 (wordOf bs 0 4)) (BitVec.ofNat 16 (rd bs 4 2)))
    | 0x83 => .instr (.call p (.rel2 (BitVec.ofNat 16 (rd bs 0 2))) (BitVec.ofNat 16 (rd bs 2 2)))
    | 0x84 => if a ≠ 0 then .illegal 2 else .instr (.call p (.reg b) (BitVec.ofNat 16 (rd bs 1 2)))
    | 0x90 => if b ≠ 0 then .illegal 2 else .instr (.inPort p a (.imm (BitVec.ofNat 16 (rd bs 1 2))))
    | 0x91 => if b ≠ 0 then .illegal 2 else .instr (.outPort p a (.imm (BitVec.ofNat 16 (rd bs 1 2))))
    | 0x92 => .instr (.inPort p a (.reg b))
    | 0x93 => .instr (.outPort p a (.reg b))
    | _ => .illegal 0

/-- A prefix byte, reserved ones among them (R484). -/
def isPrefix (b : Byte) : Bool := inRange 0xE0 0xE7 b.toNat

/-- Up to two prefixes, the opcode, and what follows; a third prefix is one too many (R483, R484). -/
def f1Decode (bs : List Byte) : Decoded :=
  let p := (bs.takeWhile isPrefix)
  if 2 < p.length then .illegal 1
  else
    let rest := bs.drop p.length
    decodeOp p (byteAt rest 0) (rest.drop 1)

def regByte (a b : KReg) : Byte := BitVec.ofNat 8 (16 * a.val + b.val)

def ImmSize_code (sz : ImmSize) : Nat :=
  match sz with
  | .i1 => 0 | .i2 => 1 | .i4 => 2

def DispSize_code (sz : DispSize) : Nat :=
  match sz with
  | .d0 => 0 | .d1 => 1 | .d2 => 2 | .d4 => 3

/-- The opcode and operand bytes of an ALU instruction of index i (R486). -/
def encAlu (p : Prefixes) (i : Nat) (a : KReg) (b : AluOperand) : List Byte :=
  match b with
  | .reg r => p ++ [BitVec.ofNat 8 (0x10 + i), regByte a r]
  | .imm sz v => p ++ [BitVec.ofNat 8 (0x20 + i), BitVec.ofNat 8 (16 * a.val + ImmSize_code sz)] ++ le sz.len v.toNat

def encRR (p : Prefixes) (op : Nat) (a b : KReg) : List Byte := p ++ [BitVec.ofNat 8 op, regByte a b]

def encMem (p : Prefixes) (op : Nat) (a b : KReg) (d : DispSize) (v : Word) : List Byte :=
  p ++ [BitVec.ofNat 8 (op + DispSize_code d), regByte a b] ++ le d.len v.toNat

/-- The bytes of a Dvorgil instruction (R483 to R487); none for the other commands of the block. -/
def f1Encode : Instr → Option (List Byte)
  | .mov p a b => some (encAlu p 0x0 a b) | .add p a b => some (encAlu p 0x1 a b)
  | .adc p a b => some (encAlu p 0x2 a b) | .sub p a b => some (encAlu p 0x3 a b)
  | .sbc p a b => some (encAlu p 0x4 a b) | .cmp p a b => some (encAlu p 0x5 a b)
  | .and p a b => some (encAlu p 0x6 a b) | .or p a b => some (encAlu p 0x7 a b)
  | .xor p a b => some (encAlu p 0x8 a b) | .tst p a b => some (encAlu p 0x9 a b)
  | .shl p a b => some (encAlu p 0xA a b) | .shr p a b => some (encAlu p 0xB a b)
  | .sar p a b => some (encAlu p 0xC a b) | .ror p a b => some (encAlu p 0xD a b)
  | .mul p a b => some (encAlu p 0xE a b) | .mulh p a b => some (encAlu p 0xF a b)
  | .nop p => some (p ++ [0x00]) | .wfi p => some (p ++ [0x01]) | .brk p => some (p ++ [0x02])
  | .ret p => some (p ++ [0x03]) | .reti p => some (p ++ [0x04]) | .ei p => some (p ++ [0x05])
  | .di p => some (p ++ [0x06]) | .fence p => some (p ++ [0x07]) | .trap p n => some (p ++ [0x08, n])
  | .not p a b => some (encRR p 0x30 a b) | .neg p a b => some (encRR p 0x31 a b)
  | .inc p a b => some (encRR p 0x32 a b) | .dec p a b => some (encRR p 0x33 a b)
  | .par p a b => some (encRR p 0x34 a b) | .brev p a b => some (encRR p 0x35 a b)
  | .clz p a b => some (encRR p 0x36 a b) | .sext p a b => some (encRR p 0x37 a b)
  | .zext p a b => some (encRR p 0x38 a b) | .divu p a b => some (encRR p 0x39 a b)
  | .divs p a b => some (encRR p 0x3A a b) | .remu p a b => some (encRR p 0x3B a b)
  | .rems p a b => some (encRR p 0x3C a b) | .crcstep p a b i => some (encRR p 0x3D a b ++ [i])
  | .mff p a b => some (encRR p 0x3E a b) | .mtf p a b => some (encRR p 0x3F a b)
  | .ld p a b d v => some (encMem p 0x40 a b d v) | .st p a b d v => some (encMem p 0x44 a b d v)
  | .lds p a b d v => some (encMem p 0x48 a b d v) | .ldc p a b d v => some (encMem p 0x58 a b d v)
  | .sti p b d v sz i => some (p ++ [0x4C, BitVec.ofNat 8 (64 * DispSize_code d + 16 * ImmSize_code sz + b.val)]
      ++ le d.len v.toNat ++ le sz.len i.toNat)
  | .lea p a b v => some (encRR p 0x4D a b ++ le 4 v.toNat)
  | .xchg p a b => some (encRR p 0x4E a b) | .copy p a b => some (encRR p 0x4F a b)
  | .push p a b => some (encRR p 0x50 a b) | .pop p a b => some (encRR p 0x51 a b)
  | .rspush p a b => some (encRR p 0x52 a b) | .rspop p a b => some (encRR p 0x53 a b)
  | .rspeek p a b i => some (encRR p 0x54 a b ++ [i]) | .rspget p a b => some (encRR p 0x55 a b)
  | .copyc p a b => some (encRR p 0x56 a b)
  | .bcc p cc wide d => some (if wide then p ++ [BitVec.ofNat 8 (0x70 + cc.toNat)] ++ le 2 d.toNat
      else p ++ [BitVec.ofNat 8 (0x60 + cc.toNat)] ++ le 1 d.toNat)
  | .jmp p (.rel d) => some (p ++ [0x80] ++ le 4 d.toNat)
  | .jmp p (.reg b) => some (encRR p 0x81 0 b)
  | .call p (.rel4 d) m => some (p ++ [0x82] ++ le 4 d.toNat ++ le 2 m.toNat)
  | .call p (.rel2 d) m => some (p ++ [0x83] ++ le 2 d.toNat ++ le 2 m.toNat)
  | .call p (.reg b) m => some (encRR p 0x84 0 b ++ le 2 m.toNat)
  | .inPort p a (.imm n) => some (encRR p 0x90 a 0 ++ le 2 n.toNat)
  | .outPort p a (.imm n) => some (encRR p 0x91 a 0 ++ le 2 n.toNat)
  | .inPort p a (.reg b) => some (encRR p 0x92 a b)
  | .outPort p a (.reg b) => some (encRR p 0x93 a b)
  | _ => none

/-- The bytes from PC that F1 may fetch, at most eleven (R26).  An instruction that would go on beyond them is decoded as if
zeros followed, which makes it one whose bytes leave the slot: it ends in the fetch fault. -/
def codeBytes (flash : Memory) (pc : Nat) : List Byte :=
  (((List.range 11).map (pc + ·)).takeWhile inAppSlot).map (codeByte flash)

/-- F1 is about to execute an instruction of its own program. -/
def Live.f1Ready (l : Live) : Bool := l.f1.run == .running && !(l.f1.waiting && !l.irqWakes)

end Sys2Proof.Machine
end

