-- ==== Sys2Proof/Machine/Hallmark.lean ====
section
/-! DEFINITION. The Hallmark (R422, R423): KEY.HALLMARK. -/

namespace Sys2Proof.Machine

/-- Bytes 0 to 275 of a Hallmark; `slot` is 0xFF for button presence. -/
def State.hallmarkBody (s : State) (proof slot : Nat) (nonce : List Byte) : List Byte :=
  let k := s.kept
  ascii "ZHM1" ++ le 1 1 ++ le 1 k.cells.lcs ++ le 2 340 ++ le 8 Config.serial ++ le 8 s.live.mt.now
    ++ (List.range 4).flatMap (fun d => padTo 12 (Config.dieInfo d)) ++ k.activeMeasure 0 ++ k.activeMeasure 1
    ++ cfgDigest k.store ++ nonce ++ le 4 (k.activeVersion 0) ++ le 4 (k.activeVersion 1) ++ le 2 k.cells.sealCount
    ++ le 1 proof ++ le 1 slot ++ ecPub Config.attestScalar

/-- Issues the statement, signed by the attestation key with a nonce of the DRBG. -/
def State.hallmark (s : State) (proof slot : Nat) (nonce : List Byte) : Reply × State :=
  match s.live.random 40 with
  | (none, _) => (refuse .internal, s)
  | (some rnd, l) =>
    let body := s.hallmarkBody proof slot nonce
    let sig := ecdsaSign Config.attestScalar (scalarOf rnd) (sha256 body)
    (.done .ok 0 (body ++ sig), { s with live := l.raise 0x1A5 notice proof (le 1 slot ++ nonce.take 4) })

/-- What a request key signs. -/
def hallmarkTag (k : KeySlot) (nonce : List Byte) : List Byte := cmac k.material (ascii "ZZ-HMREQ" ++ nonce ++ le 8 Config.serial)

/-- KEY.HALLMARK.  Button presence has been proven when the command comes here with PROOF 0. -/
def keyHallmark (m : MbRef) (b : Mailbox) (s : State) : Reply × State :=
  let p := b.payload
  let proof := byteAt p 0
  let slot := byteAt p 1
  let nonce := (p.drop 4).take 32
  let c := s.kept.cells
  let k := c.slot slot
  checked [(0, decide (proof ≤ 1)), (1, proof == 0 || decide (slot ≤ 63)), resv b 2 2]
    (if c.lcs = 4 || !c.rootOk 0 then (refuse .locked, s)
     else if proof = 0 then s.hallmark 0 0xFF nonce
     else if c.liveDomain = 0 then (refuse .locked, s)
     else if c.slotState slot = 2 then (refuse .locked, s.usageEvent 1 slot 0x5810 (MbRef_source m))
     else if !k.filled || !bit k.flags 3 then (refuse .keyUsage, s)
     else if (p.drop 36).take 16 ≠ hallmarkTag k nonce then
       (refuse .crc, (s.useSlot slot).onLive fun l => l.raise 0x1A5 warn 2 (le 1 slot ++ nonce.take 4))
     else (s.useSlot slot).hallmark 1 slot nonce)
    fun r => (r, s)

def execKeyHallmark (s : State) : Result := .next (s.commandK 0x5810 fun m b s => keyHallmark m b s)

end Sys2Proof.Machine
end

