-- ==== Sys2Proof/Machine/Host.lean ====
section
/-! DEFINITION. The host's quad-SPI window, the mailbox doorbells and releases, physical presence, the service UART, and
commands relayed over the cascade link (03_host_mailboxes_commands.md, R364). -/

namespace Sys2Proof.Machine

/-! ### Errors of transactions (R62, R66, R96) -/

/-- The write result bytes of R66. -/
def resAccepted : Nat := 0xA0
def resCrc : Nat := 0xA1
def resBusy : Nat := 0xA2
def resAddress : Nat := 0xA3
def resNotReady : Nat := 0xA4

/-- Counts an error of EV_SYS_HIF_ERROR cause c; causes 0 and 1 count in HIF_ERRS as well. -/
def Live.hifError (l : Live) (c addr : Nat) : Live :=
  let e := l.host.errs.getD c { count := 0, lastRaised := none, addr := 0 }
  let n := min 255 (e.count + 1)
  let total := if c < 2 then min 255 (l.host.hifErrs + 1) else l.host.hifErrs
  let due := match e.lastRaised with
    | some t => decide (t + ms 100 ≤ l.mt.now)
    | none => true
  let e' : HifCause := if due then { count := 0, lastRaised := some l.mt.now, addr := addr } else { e with count := n, addr := addr }
  let l := { l with host := { l.host with hifErrs := total, errs := l.host.errs.set c e' } }
  if due then l.raise 0x010 warn c (le 2 addr ++ le 1 n) else l

/-- What the module has driven on the data lanes. -/
def Live.spi (l : Live) (bs : List Byte) : Live := { l with host := { l.host with spiOut := bs } }

def Live.result (l : Live) (r : Nat) : Live := l.spi (le 1 r)

/-- A transaction that is broken off or whose instruction byte is unknown: nothing driven, a framing error. -/
def Live.framing (l : Live) (addr : Nat) : Live := if l.commandLayer then (l.hifError 1 addr).spi [] else l.spi []

def isWrite (i : Byte) : Bool := i == 0x02 || i == 0x32
def isRead (i : Byte) : Bool := i == 0x0B || i == 0x6B

/-- INSTRUCTION_BYTE_UNKNOWN (R62). -/
def execInstructionByteUnknown (instr : BitVec 8) (s : State) : Result :=
  .next (if isWrite instr || isRead instr then s else s.onLive fun l => l.framing 0)

/-! ### Control words (R69, R77, R86) -/

/-- A write of DOORBELL: the wake is validated, then the mailboxes ring in ascending order. -/
def State.doorbell (s : State) (v : Nat) : State :=
  let bells := bitsOf 8 v
  if bells.isEmpty then s else bells.foldl (fun s n => s.ringOne (.host n) n 0) s.hostWakes

/-- A write of MB_ACK: each selected DONE mailbox is FREE and clear. -/
def Live.mbAck (l : Live) (v : Nat) : Live :=
  (Live.driveEventN { l with host := { l.host with
    mb := l.host.mb.zipIdx.map fun (x : Mailbox × Nat) => if bit v x.2 && decide (x.2 < 8) && x.1.st == .done then Mailbox.empty else x.1 } })

/-- A write of EVQ_ACK (R86). -/
def Live.evqAck (l : Live) (v : Nat) : Live :=
  let h := l.host
  let d := (v % 65536 + 65536 - h.headSeq) % 65536
  let n := if 32768 ≤ d then 0 else min d h.evq.length
  Live.driveEventN { l with host := { h with evq := h.evq.drop n, headSeq := (h.headSeq + n) % 65536 } }

/-- A write of HIF_STATUS: RESTARTED is W1C. -/
def Live.clearRestarted (l : Live) (v : Nat) : Live :=
  if bit v 3 then { l with host := { l.host with restarted := false } } else l

/-- A write of HIF_CONFIG. -/
def Live.hifConfig (l : Live) (v : Nat) : Live :=
  Live.driveEventN { l with host := { l.host with minSev := v / 2 ^ 16 % 8, relay := bit v 15, holdoff := v % 1024 } }

/-- A write of one control word that is accepted or not for want of the logic (R66, R70). -/
def State.wordWrite (s : State) (f : State → State) : State :=
  if s.live.commandLayer then (f s).onLive fun l => l.result resAccepted else s.onLive fun l => l.result resNotReady

def execDoorbell (value : BitVec 32) (s : State) : Result := .next (s.wordWrite fun s => s.doorbell value.toNat)
def execMbAck (value : BitVec 32) (s : State) : Result := .next (s.wordWrite fun s => s.onLive fun l => l.mbAck value.toNat)
def execEvqAck (value : BitVec 32) (s : State) : Result := .next (s.wordWrite fun s => s.onLive fun l => l.evqAck value.toNat)
def execRestartedClear (value : BitVec 32) (s : State) : Result :=
  .next (s.wordWrite fun s => s.onLive fun l => l.clearRestarted value.toNat)

/-- HOLDOFF_EXPIRY (R71): a record has waited HOLDOFF. -/
def execHoldoffExpiry (s : State) : Result := .next (s.onLogic Live.driveEventN)

/-! ### Writes (R65, R66) -/

/-- The bytes that a transaction's CRC covers (R64). -/
def spiBytes (instr : Byte) (addr len : Nat) (data : List Byte) : List Byte := [instr] ++ le 2 addr ++ le 2 len ++ data

/-- ADDR and LEN are multiples of 4 and LEN is within its bounds (R65). -/
def spiAligned (addr len : Nat) : Bool :=
  addr % 4 == 0 && len % 4 == 0 && decide (4 ≤ len) && (decide (len ≤ 4096) || (addr == 0x1FF8 && decide (len ≤ 4104)))

/-- The transaction lies within the region from `lo` with `size` bytes. -/
def within (lo size addr len : Nat) : Bool := decide (lo ≤ addr) && decide (addr + len ≤ lo + size)

/-- The mailbox that the transaction lies in. -/
def mailboxAt (addr len : Nat) : Option Nat :=
  if addr < 0x1000 ∧ addr % 512 + len ≤ 512 then some (addr / 512) else none

/-- The effect of a write to a writable control word. -/
def State.controlWord (s : State) (addr v : Nat) : Option State :=
  if addr = 0x1000 then some (s.doorbell v)
  else if addr = 0x1008 then some (s.onLive fun l => l.mbAck v)
  else if addr = 0x100C then some (s.onLive fun l => l.evqAck v)
  else if addr = 0x1010 then some (s.onLive fun l => l.clearRestarted v)
  else if addr = 0x1014 then some (s.onLive fun l => l.hifConfig v)
  else none

/-- A write into mailbox n, which must be FREE. -/
def Live.mailboxWrite (l : Live) (n off : Nat) (data : List Byte) : Live :=
  match l.host.mb[n]? with
  | none => l.result resAddress
  | some b =>
    if b.st != .free then l.result resBusy
    else (l.setBox (.host n) { b with bytes := requestBytes (splice b.bytes off data) }).result resAccepted

/-- A write whose CRC is good. -/
def State.applyWrite (s : State) (addr len : Nat) (data : List Byte) : State :=
  if !spiAligned addr len then s.onLive fun l => l.result resAddress
  else match mailboxAt addr len with
    | some n => s.onLive fun l => l.mailboxWrite n (addr % 512) data
    | none =>
      match (if len = 4 then s.controlWord addr (rd data 0 4) else none) with
      | some s => s.onLive fun l => l.result resAccepted
      | none => s.onLive fun l => l.result resAddress

/-- HOST_WRITE.  DESIGN CHOICE: while the logic does not run, the result byte is driven as NOT_READY, also by a module whose logic
has no supply, whose undriven lands a host would read as 0xFF (R66). -/
def hostWrite (instr : Byte) (addr len : Nat) (data : List Byte) (crc : BitVec 32) (whole : Bool) (s : State) : State :=
  if !isWrite instr || !whole || data.length != len then s.onLive fun l => l.framing addr
  else if !s.live.commandLayer then s.onLive fun l => l.result resNotReady
  else if crc32 (spiBytes instr addr len data) != crc then s.onLive fun l => (l.hifError 0 addr).result resCrc
  else s.applyWrite addr len data

def execHostWrite (instr : BitVec 8) (addr len : Nat) (data : List Byte) (crc : BitVec 32) (whole : Bool) (s : State) : Result :=
  .next (hostWrite instr addr len data crc whole s)

/-! ### Reads (R67 to R69, R84) -/

/-- A state word with two bits for each mailbox. -/
def mbStates (mb : List Mailbox) : Nat :=
  (mb.take 8).foldr (fun (b : Mailbox) acc => 4 * acc + (match b.st with | .free => 0 | .busy => 1 | .done => 2)) 0

/-- HIF_STATUS (R69). -/
def Live.hifStatus (l : Live) : Nat :=
  let h := l.host
  2 ^ 24 + (if l.link.cascaded then l.link.position % 256 else 0) * 2 ^ 16 + h.hifErrs * 2 ^ 8 + l.pwr.mode.code * 2 ^ 5 +
    b2n (!h.staged.isEmpty) * 2 ^ 4 + b2n h.restarted * 2 ^ 3 + b2n (!h.evq.isEmpty) * 2 ^ 2 +
    b2n (h.mb.any fun b => b.st == .done) * 2 + b2n h.readyLow

/-- The control words; write-only ones read as zero. -/
def Live.controlBytes (l : Live) : List Byte :=
  let h := l.host
  le 4 0 ++ le 4 (mbStates h.mb) ++ le 4 0 ++ le 4 0 ++ le 4 l.hifStatus ++
    le 4 (h.minSev * 2 ^ 16 + b2n h.relay * 2 ^ 15 + h.holdoff)

/-- EVQ_HEAD, EVQ_DROPS and the records. -/
def Live.eventBytes (l : Live) : List Byte :=
  le 4 (l.host.headSeq * 2 ^ 16 + l.host.evq.length) ++ le 4 l.host.drops ++ padTo 4096 (l.host.evq.flatMap EventRec.bytes)

def Live.originBytes (l : Live) : List Byte := padTo 256 (l.host.evq.map fun (r : EventRec) => BitVec.ofNat 8 r.origin)

/-- The bytes of the window that a read covers; none where it breaks R65 or covers a reserved address. -/
def Live.hostWindow (l : Live) (addr len : Nat) : Option (List Byte) :=
  let part := fun (bs : List Byte) lo => some ((bs.drop (addr - lo)).take len)
  if !spiAligned addr len then none
  else match mailboxAt addr len with
    | some n => part ((l.host.mb.map (·.bytes)).getD n []) (512 * n)
    | none =>
      if within 0x1000 24 addr len then part l.controlBytes 0x1000
      else if within 0x1FF8 4104 addr len then part l.eventBytes 0x1FF8
      else if within 0x3000 256 addr len then part l.originBytes 0x3000
      else none

/-- HOST_READ. -/
def hostRead (instr : Byte) (addr len : Nat) (whole : Bool) (l : Live) : Live :=
  if !isRead instr || !whole then l.framing addr
  else if !l.commandLayer then l.spi (List.replicate (len + 4) 0xFF)
  else match l.hostWindow addr len with
    | some bs => l.spi (bs ++ le 4 (crc32 (spiBytes instr addr len bs)).toNat)
    | none =>
      let zeros := List.replicate len 0
      (l.hifError 1 addr).spi (zeros ++ le 4 (~~~ (crc32 (spiBytes instr addr len zeros))).toNat)

def execHostRead (instr : BitVec 8) (addr len : Nat) (whole : Bool) (s : State) : Result :=
  .next (s.onLive (hostRead instr addr len whole))

/-! ### Physical presence and the seal (R90 to R92) -/

def Live.clearPresence (l : Live) : Live := { l with host := { l.host with presence := none } }

/-- PRESENCE_BUTTON_PROVEN: the button has been held for 2 s, counted from the doorbell and ending within 30 s of it. -/
def buttonProven (lowForNs : Nat) (l : Live) : Live :=
  match l.waiting with
  | none => l
  | some w =>
    if lowForNs < ms 2000 || decide (l.mt.now < w.since + ms 2000) || decide (w.since + ms 30000 < l.mt.now) then l
    else l.clearPresence.proven w.m w.opc 0

def execPresenceButtonProven (lowForNs : Nat) (s : State) : Result := .next (s.onLive (buttonProven lowForNs))

/-- PRESENCE_TIMEOUT. -/
def presenceTimeout (l : Live) : Live :=
  match l.waiting with
  | none => l
  | some w =>
    if l.mt.now < w.since + ms 30000 then l else l.clearPresence.complete w.m .presenceRequired 0 []

def execPresenceTimeout (s : State) : Result := .next (s.onLive presenceTimeout)

/-- SEAL_TEST: every 100 ms in WAKE-CHECK, RUN and DRAIN. -/
def execSealTest (kohm : Nat) (s : State) : Result :=
  .next (if s.live.commandLayer then s.sealTest kohm else s)

/-! ### The service UART (R94, R95, R411, R463) -/

/-- The UART is answered: by the command layer, by RECOVERY, or by a retired part's boot ROM. -/
def Live.uartAnswers (l : Live) : Bool := l.commandLayer || l.sup.phase == .recovery || l.sup.phase == .retired

/-- A reject frame with a result code of R66. -/
def Live.uartReject (l : Live) (code : Nat) : Live :=
  { l with host := { l.host with uartOut := l.host.uartOut ++ [uartFrame 4 (le 1 code)] } }

/-- A frame with a bad CRC or broken off.  DESIGN CHOICE: a UART frame has no address, so bytes 8 to 9 of its record are 0 (R96). -/
def Live.uartBroken (l : Live) : Live := (l.hifError 2 0).uartReject resCrc

/-- The commands that RECOVERY and a retired part accept. -/
def Live.uartAccepts (l : Live) (opc : Nat) : Bool :=
  match l.sup.phase with
  | .recovery => [0x0101, 0x6801, 0x6802, 0x6803, 0x6804].contains opc
  | .retired => [0x0101, 0x0107].contains opc
  | _ => true

/-- A command frame with a good CRC. -/
def State.uartCommand (s : State) (body : List Byte) : State :=
  let l := { s.live with host := { s.live.host with uartOpen := true, uartLast := s.live.mt.now } }
  let s := { s with live := l }
  if l.host.uart.st != .free then s.onLive fun l => l.uartReject resBusy
  else if body.length < 16 then s.onLive fun l => l.uartReject resAddress
  else
    let s := s.onLive fun l => l.ring .uart (requestBytes body)
    if l.uartAccepts (rd body 0 2) then s.accept .uart (body.length == 16 + rd body 4 2)
    else s.onLive fun l => l.finish .uart (refuse .state)

/-- SERVICE_UART_FRAME: a frame whose last byte has come, or whose CRC has. -/
def uartFrameIn (bytes : List Byte) (s : State) : State :=
  let n := rd bytes 2 2
  if !s.live.uartAnswers || byteAt bytes 0 != 0x5C then s
  else if bytes.length != n + 8 || rd bytes (n + 4) 4 != (crc32 ((bytes.drop 1).take (n + 3))).toNat then
    s.onLive fun l => l.uartBroken
  else if byteAt bytes 1 = 1 then s.uartCommand ((bytes.drop 4).take n)
  else s

def execServiceUartFrame (bytes : List Byte) (s : State) : Result := .next (uartFrameIn bytes s)

/-- UART_BYTE_GAP: a frame broken off by more than 1 ms between bytes. -/
def uartGap (gapNs : Nat) (l : Live) : Live := if l.uartAnswers && decide (ms 1 < gapNs) then l.uartBroken else l

def execUartByteGap (gapNs : Nat) (s : State) : Result := .next (s.onLive (uartGap gapNs))

/-- UART_SESSION_CLOSE: 10 s without a valid command frame.  DESIGN CHOICE: the records that the service queue still holds are
dropped with the session (R95 is silent). -/
def uartClose (l : Live) : Live :=
  if l.host.uartOpen && decide (l.host.uartLast + ms 10000 ≤ l.mt.now)
  then { l with host := { l.host with uartOpen := false, svcq := [] } } else l

def execUartSessionClose (s : State) : Result := .next (s.onLive uartClose)

/-- The module sends the oldest record of the service queue as an event frame (R94, R95). -/
def Live.uartEvent (l : Live) : Live :=
  match l.host.svcq with
  | [] => l
  | r :: rs =>
    if !l.host.uartOpen then l
    else { l with host := { l.host with
      svcq := rs, uartOut := l.host.uartOut ++ [uartFrame 3 (r.bytes ++ le 1 r.origin)] } }

/-! ### Relayed commands (R364, R374) -/

/-- An ACK, which carries no data. -/
def Live.sendAck (l : Live) (dst mseq : Nat) : Live :=
  l.setLink fun k => { k with cells := k.cells ++ [mkCell 3 k.position dst mseq 128 []] }

/-- The tag of a REQUEST or RESPONSE is good; what a broadcast carries is not tagged. -/
def Live.tagGood (l : Live) (m : LinkMsg) : Bool :=
  if !l.linkAuth || m.type == 5 || m.dst == 0x7F then true
  else l.messageTag m.src (m.bytes.take (m.bytes.length - 8)) == some (m.bytes.drop (m.bytes.length - 8))

/-- The frame of a message without its tag. -/
def Live.untagged (l : Live) (m : LinkMsg) : List Byte :=
  if l.linkAuth && m.type != 5 then m.bytes.take (m.bytes.length - 8) else m.bytes

/-- A job that can no longer be asked for again: its response has gone, and 10 ms have passed. -/
def Live.jobOver (l : Live) (j : RelayJob) : Bool := j.sent && decide (j.box.rungAt + ms 10 < l.mt.now)

/-- A REQUEST: acknowledged, and executed unless it has come before. -/
def State.relayRequest (s : State) (m : LinkMsg) : State :=
  let l := s.live.setLink fun k => { k with jobs := k.jobs.filter fun j => !s.live.jobOver j }
  match l.link.jobs.find? fun (j : RelayJob) => j.src == m.src && j.mseq == m.mseq with
  | some j =>
    if j.reply.isSome then
      { s with live := l.setLink fun k => { k with
          jobs := k.jobs.map fun (x : RelayJob) => if x.id == j.id then { x with sent := false } else x } }
    else { s with live := l.sendAck m.src m.mseq }
  | none =>
    let id := l.link.nextJob
    let job : RelayJob := { id := id, src := m.src, mseq := m.mseq, box := Mailbox.empty, reply := none, sent := false }
    let l := (l.setLink fun k => { k with nextJob := id + 1, jobs := k.jobs ++ [job] }).sendAck m.src m.mseq
    let body := l.untagged m
    ({ s with live := l.ring (.relay id) (requestBytes body) }).accept (.relay id) (body.length == 16 + rd body 4 2)

/-- A RESPONSE to a command that travelled, or to a broadcast. -/
def Live.relayResponse (l : Live) (m : LinkMsg) : Live :=
  match l.link.out.find? fun (o : OutMsg) => o.mseq == m.mseq && (o.dst == m.src || o.dst == 0x7F) with
  | none => l
  | some o =>
    let resp := l.untagged m
    let gone := fun (l : Live) => l.setLink fun k => { k with out := k.out.filter fun (x : OutMsg) => x.mseq != o.mseq }
    if o.dst = 0x7F then
      let l := l.gatherAnswer o.owner m.src (byteAt resp 10)
      if l.link.gathers.any fun (g : Gather) => g.owner == o.owner then l else gone l
    else (gone l).deliver o.owner (padTo 512 resp)

def Live.relayAck (l : Live) (m : LinkMsg) : Live :=
  l.setLink fun k => { k with out := k.out.map fun (o : OutMsg) => if o.mseq == m.mseq then { o with acked := true } else o }

/-- RELAYED_MESSAGE: the next message of the inbox. -/
def relayedMessage (s : State) : State :=
  if !s.live.commandLayer then s
  else match s.live.link.inbox with
    | [] => s
    | m :: rest =>
      let s := s.onLive fun l => l.setLink fun k => { k with inbox := rest }
      if (m.type == 1 || m.type == 2 || m.type == 5) && !s.live.tagGood m then
        s.onLive fun l => l.raise 0x157 sevFault 2 (le 1 m.src)
      else if m.type = 1 ∨ m.type = 5 then s.relayRequest m
      else if m.type = 2 then s.onLive fun l => l.relayResponse m
      else if m.type = 3 then s.onLive fun l => l.relayAck m
      else s

def execRelayedMessage (s : State) : Result := .next (relayedMessage s)

/-- RELAY_ACK_TIMEOUT: no ACK within 8 cycles resends the request, twice at most; an acknowledged one times out at the
relay bound. -/
def relayAckTimeout (mseq : Nat) (l : Live) : Live :=
  match l.link.out.find? fun (o : OutMsg) => o.mseq == mseq with
  | none => l
  | some o =>
    if o.acked then
      let due := (l.box o.owner).all fun b => decide (b.rungAt + ms (boundMs b.opc b.payload + 1) ≤ l.mt.now)
      if due then l.relayTimeout o else l
    else if l.cycleNo < o.sentCycle + 8 then l
    else if 2 ≤ o.resends then l.relayTimeout o
    else
      let o' := { o with resends := o.resends + 1, sentCycle := l.cycleNo }
      (l.setLink fun k => { k with out := k.out.map fun (x : OutMsg) => if x.mseq == mseq then o' else x }).queueRequest o'

def execRelayAckTimeout (mseq : Nat) (s : State) : Result := .next (s.onLogic (relayAckTimeout mseq))

end Sys2Proof.Machine
end

