-- ==== Sys2Proof/Machine/Ports.lean ====
section
/-! DEFINITION. The I/O ports of the application core F1 (R499 to R502, R506) and the instructions IN and OUT. -/

namespace Sys2Proof.Machine

/-! ### Local mailboxes and the event queue (R93) -/

/-- A write of LMB_DOORBELL rings local mailboxes in ascending order. -/
def State.lmbDoorbell (s : State) (v : Nat) : State := (bitsOf 8 v).foldl (fun s n => s.ringOne (.loc n) n 1) s

/-- A write of LMB_ACK: each selected DONE mailbox is FREE and clear. -/
def Live.lmbAck (l : Live) (v : Nat) : Live :=
  { l with host := { l.host with
    lmb := l.host.lmb.zipIdx.map fun (x : Mailbox × Nat) => if bit v x.2 && decide (x.2 < 8) && x.1.st == .done then Mailbox.empty else x.1 } }

/-- A read of EVQ_REC0 pops the oldest record into the holding register; an empty queue gives ones in all four words. -/
def Live.popF1 (l : Live) : Live :=
  match l.host.f1q with
  | [] => l.onF1 fun c => { c with evHold := List.replicate 16 0xFF }
  | r :: rs => ({ l with host := { l.host with f1q := rs } }).onF1 fun c => { c with evHold := r.bytes }

/-- A read of MT_SNAP_LO captures full MT. -/
def Live.mtSnap (l : Live) : Live := l.onF1 fun c => { c with mtSnapHi := l.mt.now / 2 ^ 32 % 2 ^ 32 }

/-- Any write of HEARTBEAT counts (R506). -/
def Live.f1Heartbeat (l : Live) : Live := { l with sup := { l.sup with hbF1 := l.mt.now } }

/-- Writing 1 to an edge line's bit of IRQ_PEND clears it (R502). -/
def F1State.clearPend (c : F1State) (v : Nat) : F1State :=
  { c with edgePend := maskOf 15 fun n => bit c.edgePend n && !(bit v n) }

def F1State.swi (c : F1State) (v : Nat) : F1State := if bit v 0 then { c with edgePend := c.edgePend ||| 2 ^ 14 } else c

/-! ### Timers and CRC slots (R500, R501) -/

def F1State.timer (c : F1State) (n : Nat) : F1Timer :=
  c.timers.getD n { cmp := 0, period := 1000, missed := 0, periodic := false, en := false }

/-- A write of TIMn_CTL. -/
def F1State.writeCtl (c : F1State) (n v : Nat) : F1State :=
  { c with timers := c.timers.set n { c.timer n with missed := 0, periodic := bit v 1, en := bit v 0 } }

def F1Timer.read (t : F1Timer) : Nat → Nat
  | 0 => t.cmp % 2 ^ 32
  | 1 => t.cmp / 2 ^ 32 % 2 ^ 32
  | 2 => t.period
  | _ => t.missed * 2 ^ 8 + b2n t.periodic * 2 + b2n t.en

/-- A write of one of a timer's four ports. -/
def F1State.writeTimer (c : F1State) (n k v : Nat) : F1State :=
  let t := c.timer n
  match k with
  | 0 => { c with timers := c.timers.set n { t with cmp := t.cmp / 2 ^ 32 * 2 ^ 32 + v } }
  | 1 => { c with timers := c.timers.set n { t with cmp := v * 2 ^ 32 + t.cmp % 2 ^ 32 } }
  | 2 => { c with timers := c.timers.set n { t with period := v } }
  | _ => c.writeCtl n v

def F1State.slot (c : F1State) (i : Nat) : CrcSlot := c.crc.getD i { poly := 0, reflect := false, width := 0 }

/-- A write of CRC_CFGs; WIDTH 3 is ignored. -/
def F1State.writeCrcCfg (c : F1State) (i v : Nat) : F1State :=
  if v % 4 = 3 then c else { c with crc := c.crc.set i { c.slot i with width := v % 4, reflect := bit v 2 } }

/-! ### The port map (R499) -/

/-- The local mailbox and the word that a port is, for ports 0x0200 to 0x05FF. -/
def lmbPort (port : Nat) : Option (Nat × Nat) :=
  if inRange 0x200 0x5FF port then some ((port - 0x200) / 128, (port - 0x200) % 128) else none

/-- A read of a port: its value and the state after it; none for a port that is not listed. -/
def portRead (port : Nat) (l : Live) : Option (Nat × Live) :=
  let c := l.f1
  match lmbPort port with
  | some (n, k) => some (rd ((l.host.lmb.map (·.bytes)).getD n []) (4 * k) 4, l)
  | none =>
    if inRange 0x40 0x4F port then some ((c.timer ((port - 0x40) / 4)).read (port % 4), l)
    else if inRange 0x60 0x67 port then
      let s := c.slot ((port - 0x60) / 2)
      some (if port % 2 = 0 then s.poly else b2n s.reflect * 4 + s.width, l)
    else if inRange 0x32 0x35 port then some (c.irqPrio.getD (port - 0x32) 0, l)
    else if inRange 0x109 0x10B port then some (rd c.evHold (4 * (port - 0x108)) 4, l)
    else match port with
      | 0x000 => some (1, l)
      | 0x001 => some (c.cycles % 2 ^ 32, l)
      | 0x008 => some (c.vbar, l)
      | 0x009 => some (2 * c.rpl + b2n c.ie, l)
      | 0x00A => some (c.excInfo, l)
      | 0x00B => some (c.excAddr, l)
      | 0x010 => some (c.dsLo, l)
      | 0x011 => some (c.dsHi, l)
      | 0x012 => some (c.rsLim, l)
      | 0x018 => some (0, l)
      | 0x020 => some (l.mt.now % 2 ^ 32, l.mtSnap)
      | 0x021 => some (c.mtSnapHi, l)
      | 0x030 => some (l.irqPending, l)
      | 0x031 => some (c.irqEn, l)
      | 0x036 => some (0, l)
      | 0x100 => some (0, l)
      | 0x101 => some (mbStates l.host.lmb, l)
      | 0x102 => some (0, l)
      | 0x104 => some (l.host.f1q.length, l)
      | 0x105 => some (l.host.f1Drops, l)
      | 0x106 => some (l.host.f1MinSev * 2 ^ 16 + b2n l.host.f1Relay * 2 ^ 15, l)
      | 0x108 => let l := l.popF1; some (rd l.f1.evHold 0 4, l)
      | _ => none

/-- What a write of a port does: the state after it, or the cause of the IO exception. -/
inductive PortWrite where
  | done (s : State)
  | fault (cause : Nat)
  deriving DecidableEq, Repr

def writeF1 (s : State) (f : F1State → F1State) : PortWrite := .done (s.onF1 f)

/-- A write of word k of local mailbox n, which must be FREE. -/
def lmbWrite (s : State) (n k v : Nat) : PortWrite :=
  match s.live.host.lmb[n]? with
  | none => .fault 0
  | some b =>
    if b.st != .free then .fault 2
    else .done (s.onLive fun l => l.setBox (.loc n) { b with bytes := requestBytes (splice b.bytes (4 * k) (le 4 v)) })

/-- A write of a port. -/
def portWrite (port v : Nat) (s : State) : PortWrite :=
  match lmbPort port with
  | some (n, k) => lmbWrite s n k v
  | none =>
    if inRange 0x40 0x4F port then writeF1 s fun c => c.writeTimer ((port - 0x40) / 4) (port % 4) v
    else if inRange 0x60 0x67 port then writeF1 s fun c =>
      let i := (port - 0x60) / 2
      if port % 2 = 0 then { c with crc := c.crc.set i { c.slot i with poly := v } } else c.writeCrcCfg i v
    else if inRange 0x32 0x35 port then writeF1 s fun c => { c with irqPrio := c.irqPrio.set (port - 0x32) (v % 2 ^ 16) }
    else if inRange 0x108 0x10B port then .fault 1
    else match port with
      | 0x000 => .fault 1
      | 0x001 => .fault 1
      | 0x008 => writeF1 s fun c => { c with vbar := v / 2 ^ 8 % 2 ^ 16 * 2 ^ 8 }
      | 0x009 => .fault 1
      | 0x00A => .fault 1
      | 0x00B => .fault 1
      | 0x010 => writeF1 s fun c => { c with dsLo := v }
      | 0x011 => writeF1 s fun c => { c with dsHi := v }
      | 0x012 => writeF1 s fun c => { c with rsLim := max 0x48 v }
      | 0x018 => .done (s.onLive Live.f1Heartbeat)
      | 0x020 => .fault 1
      | 0x021 => .fault 1
      | 0x030 => writeF1 s fun c => c.clearPend v
      | 0x031 => writeF1 s fun c => { c with irqEn := v }
      | 0x036 => writeF1 s fun c => c.swi v
      | 0x100 => .done (s.lmbDoorbell v)
      | 0x101 => .fault 1
      | 0x102 => .done (s.onLive fun l => l.lmbAck v)
      | 0x104 => .fault 1
      | 0x105 => .fault 1
      | 0x106 => .done (s.onLive fun l => { l with host := { l.host with f1MinSev := v / 2 ^ 16 % 8, f1Relay := bit v 15 } })
      | _ => .fault 0

/-- The IO exception, with the port as the faulting address (R496). -/
def ioFault (s : State) (cause port : Nat) : State := f1Exception s 6 cause port s.live.f1.pc

/-- A write of a port by F1, with the exception it may raise. -/
def f1PortWrite (port v : Nat) (s : State) : State :=
  match portWrite port v s with
  | .done s => s
  | .fault c => ioFault s c port

/-- An access of F1 to a port, taken apart from the instruction that makes it: nothing while F1 does not run. -/
def State.byF1 (s : State) (f : State → State) : State := if s.live.f1.run == .running then f s else s

/-! ### The ports with a row of their own -/

def execLmbDoorbell (value : BitVec 32) (s : State) : Result := .next (s.byF1 fun s => s.lmbDoorbell value.toNat)
def execLmbAck (value : BitVec 32) (s : State) : Result := .next (s.byF1 fun s => s.onLive fun l => l.lmbAck value.toNat)
def execEvqRec0Read (s : State) : Result := .next (s.byF1 fun s => s.onLive Live.popF1)
def execMtSnapLoRead (s : State) : Result := .next (s.byF1 fun s => s.onLive Live.mtSnap)
def execHeartbeatPort (_value : BitVec 32) (s : State) : Result := .next (s.byF1 fun s => s.onLive Live.f1Heartbeat)
def execIrqPendClear (value : BitVec 32) (s : State) : Result := .next (s.byF1 fun s => s.onF1 fun c => c.clearPend value.toNat)
def execIrqSwi (value : BitVec 32) (s : State) : Result := .next (s.byF1 fun s => s.onF1 fun c => c.swi value.toNat)
def execTimnCtlWrite (n : Nat) (value : BitVec 32) (s : State) : Result :=
  .next (s.byF1 fun s => s.onF1 fun c => c.writeCtl n value.toNat)
def execF1PortWrite (port : Nat) (value : BitVec 32) (s : State) : Result :=
  .next (s.byF1 fun s => f1PortWrite (port % 2 ^ 16) value.toNat s)

/-! ### IN and OUT (R487) -/

/-- The port that an operand names. -/
def F1State.portOf (c : F1State) : PortOperand → Nat
  | .imm n => n.toNat
  | .reg b => (c.reg b).toNat % 2 ^ 16

def execInPort (p : Prefixes) (a : KReg) (port : PortOperand) (s : State) : Result :=
  .next (f1Exec s p port.len allowNone fun _ next s =>
    let n := s.live.f1.portOf port
    match portRead n s.live with
    | none => ioFault s 0 n
    | some (v, l) => f1Next { s with live := l } next fun c => c.setReg a v)

def execOutPort (p : Prefixes) (a : KReg) (port : PortOperand) (s : State) : Result :=
  .next (f1Exec s p port.len allowNone fun _ next s =>
    let n := s.live.f1.portOf port
    match portWrite n (s.live.f1.reg a).toNat s with
    | .fault c => ioFault s c n
    | .done s => f1Next s next id)

end Sys2Proof.Machine
end

