-- ==== Sys2Proof/Machine/Dispatch.lean ====
section
/-! DEFINITION. The one match from a command to its meaning: one arm per row of spec/opcode_table.json. -/

namespace Sys2Proof.Machine

def exec (i : Instr) (s : State) : Host.Outcome State Fault Refusal :=
  match i with
  | .hostWrite instr addr len data crc whole => Sys2Proof.Machine.execHostWrite instr addr len data crc whole s
  | .instructionByteUnknown instr => Sys2Proof.Machine.execInstructionByteUnknown instr s
  | .doorbell value => Sys2Proof.Machine.execDoorbell value s
  | .mbAck value => Sys2Proof.Machine.execMbAck value s
  | .evqAck value => Sys2Proof.Machine.execEvqAck value s
  | .restartedClear value => Sys2Proof.Machine.execRestartedClear value s
  | .presenceButtonProven lowForNs => Sys2Proof.Machine.execPresenceButtonProven lowForNs s
  | .sealTest kohm => Sys2Proof.Machine.execSealTest kohm s
  | .serviceUartFrame bytes => Sys2Proof.Machine.execServiceUartFrame bytes s
  | .uartByteGap gapNs => Sys2Proof.Machine.execUartByteGap gapNs s
  | .powerOn d => Sys2Proof.Machine.execPowerOn d s
  | .wakeSourceFire src idx x => Sys2Proof.Machine.execWakeSourceFire src idx x s
  | .wakeValidated src idx => Sys2Proof.Machine.execWakeValidated src idx s
  | .hwakeNLow x => Sys2Proof.Machine.execHwakeNLow x s
  | .limpExit lowForNs => Sys2Proof.Machine.execLimpExit lowForNs s
  | .vbatSample mv railMv => Sys2Proof.Machine.execVbatSample mv railMv s
  | .v5LimitExpiry limitForNs => Sys2Proof.Machine.execV5LimitExpiry limitForNs s
  | .vledLow mv => Sys2Proof.Machine.execVledLow mv s
  | .vledRestored mv aboveForNs => Sys2Proof.Machine.execVledRestored mv aboveForNs s
  | .cMeasDone tNs => Sys2Proof.Machine.execCMeasDone tNs s
  | .energyEvaluation vholdMv => Sys2Proof.Machine.execEnergyEvaluation vholdMv s
  | .vbatLLow mv => Sys2Proof.Machine.execVbatLLow mv s
  | .vbatLRecover mv => Sys2Proof.Machine.execVbatLRecover mv s
  | .brownout vholdMv => Sys2Proof.Machine.execBrownout vholdMv s
  | .d2dFlitReceived link dir lane flit => Sys2Proof.Machine.execD2dFlitReceived link dir lane flit s
  | .logicHeartbeat die => Sys2Proof.Machine.execLogicHeartbeat die s
  | .crossingTimeout snd rcv num x => Sys2Proof.Machine.execCrossingTimeout snd rcv num x s
  | .crossingRetest snd rcv num ok => Sys2Proof.Machine.execCrossingRetest snd rcv num ok s
  | .timestampPairing island counter => Sys2Proof.Machine.execTimestampPairing island counter s
  | .edgeExecute id clamps => Sys2Proof.Machine.execEdgeExecute id clamps s
  | .edgeRampEnd ch => Sys2Proof.Machine.execEdgeRampEnd ch s
  | .pwmPeriodStart src => Sys2Proof.Machine.execPwmPeriodStart src s
  | .slewEnd ch vout => Sys2Proof.Machine.execSlewEnd ch vout s
  | .slewTimeout ch clamps => Sys2Proof.Machine.execSlewTimeout ch clamps s
  | .readbackSample src ma v tj x => Sys2Proof.Machine.execReadbackSample src ma v tj x s
  | .imbalanceCheck ch currents forNs => Sys2Proof.Machine.execImbalanceCheck ch currents forNs s
  | .openOnQualified ch ma forNs => Sys2Proof.Machine.execOpenOnQualified ch ma forNs s
  | .offStateTest out v0 v1 => Sys2Proof.Machine.execOffStateTest out v0 v1 s
  | .currentLimit ch ma => Sys2Proof.Machine.execCurrentLimit ch ma s
  | .limitRelease ch ma belowForNs => Sys2Proof.Machine.execLimitRelease ch ma belowForNs s
  | .limitMaxExpiry ch clamps => Sys2Proof.Machine.execLimitMaxExpiry ch clamps s
  | .fastTrip ch ma clamps => Sys2Proof.Machine.execFastTrip ch ma clamps s
  | .thermalLatch ch tj clamps => Sys2Proof.Machine.execThermalLatch ch tj clamps s
  | .thermalRelease ch tj => Sys2Proof.Machine.execThermalRelease ch tj s
  | .clampEnd ch energyUj condNs => Sys2Proof.Machine.execClampEnd ch energyUj condNs s
  | .clampPowerExceeded ch => Sys2Proof.Machine.execClampPowerExceeded ch s
  | .groupUndervoltage g mv clamping => Sys2Proof.Machine.execGroupUndervoltage g mv clamping s
  | .uvRecover g mv aboveForNs => Sys2Proof.Machine.execUvRecover g mv aboveForNs s
  | .retryDelayExpiry out => Sys2Proof.Machine.execRetryDelayExpiry out s
  | .restartRequest out => Sys2Proof.Machine.execRestartRequest out s
  | .restartEdge id => Sys2Proof.Machine.execRestartEdge id s
  | .retryRefill out => Sys2Proof.Machine.execRetryRefill out s
  | .dirRampDownEnd br => Sys2Proof.Machine.execDirRampDownEnd br s
  | .dirDone br ma belowForNs => Sys2Proof.Machine.execDirDone br ma belowForNs s
  | .dirStalled br => Sys2Proof.Machine.execDirStalled br s
  | .bridgeLimit leg ma forNs => Sys2Proof.Machine.execBridgeLimit leg ma forNs s
  | .bridgeShort leg ma vdsMv => Sys2Proof.Machine.execBridgeShort leg ma vdsMv s
  | .bridgeThermal leg tj => Sys2Proof.Machine.execBridgeThermal leg tj s
  | .bridgeUv br => Sys2Proof.Machine.execBridgeUv br s
  | .bridgeOpenLoad br ma forNs => Sys2Proof.Machine.execBridgeOpenLoad br ma forNs s
  | .orphanEntry die => Sys2Proof.Machine.execOrphanEntry die s
  | .wireBackstopTrip ch x clamps => Sys2Proof.Machine.execWireBackstopTrip ch x clamps s
  | .orphanTurnOn g => Sys2Proof.Machine.execOrphanTurnOn g s
  | .fioSilenceExpiry ch => Sys2Proof.Machine.execFioSilenceExpiry ch s
  | .orphanOffExpiry x => Sys2Proof.Machine.execOrphanOffExpiry x s
  | .adoption d => Sys2Proof.Machine.execAdoption d s
  | .adoptionRetry die r => Sys2Proof.Machine.execAdoptionRetry die r s
  | .unadoptedRetry die r => Sys2Proof.Machine.execUnadoptedRetry die r s
  | .sporadicEdgeArrival id => Sys2Proof.Machine.execSporadicEdgeArrival id s
  | .delayedTurnOn id => Sys2Proof.Machine.execDelayedTurnOn id s
  | .delayMaxExpiry id => Sys2Proof.Machine.execDelayMaxExpiry id s
  | .protectionOffReport src => Sys2Proof.Machine.execProtectionOffReport src s
  | .evPlanBuildLate build100us => Sys2Proof.Machine.execEvPlanBuildLate build100us s
  | .ledgerUpdate d => Sys2Proof.Machine.execLedgerUpdate d s
  | .ledgerDieStale die => Sys2Proof.Machine.execLedgerDieStale die s
  | .bookingExceeded src ma forNs => Sys2Proof.Machine.execBookingExceeded src ma forNs s
  | .offTimeWaitEnd vl => Sys2Proof.Machine.execOffTimeWaitEnd vl s
  | .fired vl => Sys2Proof.Machine.execFired vl s
  | .peakEnd vl => Sys2Proof.Machine.execPeakEnd vl s
  | .dropEnd vl ma => Sys2Proof.Machine.execDropEnd vl ma s
  | .holdEnd vl => Sys2Proof.Machine.execHoldEnd vl s
  | .decayEnd vl ma => Sys2Proof.Machine.execDecayEnd vl ma s
  | .offTimeEnd vl => Sys2Proof.Machine.execOffTimeEnd vl s
  | .bankOff bank => Sys2Proof.Machine.execBankOff bank s
  | .chopPeriod vl meanI rise => Sys2Proof.Machine.execChopPeriod vl meanI rise s
  | .valveSample vl ma => Sys2Proof.Machine.execValveSample vl ma s
  | .noMove vl => Sys2Proof.Machine.execNoMove vl s
  | .landEntry vl => Sys2Proof.Machine.execLandEntry vl s
  | .landRescue vl => Sys2Proof.Machine.execLandRescue vl s
  | .clampHot vl meanMw => Sys2Proof.Machine.execClampHot vl meanMw s
  | .valveOvercurrent vl ma => Sys2Proof.Machine.execValveOvercurrent vl ma s
  | .openCoil vl ma => Sys2Proof.Machine.execOpenCoil vl ma s
  | .valveThermal vl tj => Sys2Proof.Machine.execValveThermal vl tj s
  | .bankShort bank ma vdsMv => Sys2Proof.Machine.execBankShort bank ma vdsMv s
  | .bankThermal bank tj => Sys2Proof.Machine.execBankThermal bank tj s
  | .bankContExceeded bank meanI belowForNs => Sys2Proof.Machine.execBankContExceeded bank meanI belowForNs s
  | .valveUv bank => Sys2Proof.Machine.execValveUv bank s
  | .lineSlot d => Sys2Proof.Machine.execLineSlot d s
  | .lineRefresh row => Sys2Proof.Machine.execLineRefresh row s
  | .rowShortRetry row shorted => Sys2Proof.Machine.execRowShortRetry row shorted s
  | .scanFrame vf => Sys2Proof.Machine.execScanFrame vf s
  | .fioSample ch raw => Sys2Proof.Machine.execFioSample ch raw s
  | .wireBreakMeasure ch i10ua => Sys2Proof.Machine.execWireBreakMeasure ch i10ua s
  | .fioOutputLimit ch ma belowForNs => Sys2Proof.Machine.execFioOutputLimit ch ma belowForNs s
  | .fioOverload ch ma => Sys2Proof.Machine.execFioOverload ch ma s
  | .fioThermal ch tj => Sys2Proof.Machine.execFioThermal ch tj s
  | .fioClamp ch energyUj => Sys2Proof.Machine.execFioClamp ch energyUj s
  | .fioUv ch => Sys2Proof.Machine.execFioUv ch s
  | .fioOpenOn ch ma forNs => Sys2Proof.Machine.execFioOpenOn ch ma forNs s
  | .wakePollPark wk mv => Sys2Proof.Machine.execWakePollPark wk mv s
  | .wakeQualifyPoll wk mv => Sys2Proof.Machine.execWakeQualifyPoll wk mv s
  | .wakePollRun wk mv => Sys2Proof.Machine.execWakePollRun wk mv s
  | .tdmFrame rx => Sys2Proof.Machine.execTdmFrame rx s
  | .programmeStart zone => Sys2Proof.Machine.execProgrammeStart zone s
  | .programmeEnd zone => Sys2Proof.Machine.execProgrammeEnd zone s
  | .linkAudioLost ch missingNs => Sys2Proof.Machine.execLinkAudioLost ch missingNs s
  | .pilotWindow zone v ma clipped => Sys2Proof.Machine.execPilotWindow zone v ma clipped s
  | .calibrationDone zone => Sys2Proof.Machine.execCalibrationDone zone s
  | .canFrameReceived ch f => Sys2Proof.Machine.execCanFrameReceived ch f s
  | .ringLockRead ch idx => Sys2Proof.Machine.execRingLockRead ch idx s
  | .ringReleaseRead ch idx => Sys2Proof.Machine.execRingReleaseRead ch idx s
  | .ringEntryFilter ch => Sys2Proof.Machine.execRingEntryFilter ch s
  | .canTxDone ch txb sofMt tdcv => Sys2Proof.Machine.execCanTxDone ch txb sofMt tdcv s
  | .canTxError ch txb err tdcv => Sys2Proof.Machine.execCanTxError ch txb err tdcv s
  | .canTxDeadline ch txb underway => Sys2Proof.Machine.execCanTxDeadline ch txb underway s
  | .errorStateChange ch tec recv busOff recovered => Sys2Proof.Machine.execErrorStateChange ch tec recv busOff recovered s
  | .busoffHoldExpiry ch => Sys2Proof.Machine.execBusoffHoldExpiry ch s
  | .busStuck ch dominant forNs => Sys2Proof.Machine.execBusStuck ch dominant forNs s
  | .referenceReceived f => Sys2Proof.Machine.execReferenceReceived f s
  | .speedFrame f => Sys2Proof.Machine.execSpeedFrame f s
  | .canAbort underway => Sys2Proof.Machine.execCanAbort underway s
  | .ringMessageReceived f => Sys2Proof.Machine.execRingMessageReceived f s
  | .keeperThreshold node => Sys2Proof.Machine.execKeeperThreshold node s
  | .syncReceived d => Sys2Proof.Machine.execSyncReceived d s
  | .hopProbe port x => Sys2Proof.Machine.execHopProbe port x s
  | .formation members => Sys2Proof.Machine.execFormation members s
  | .strikeApply clamps => Sys2Proof.Machine.execStrikeApply clamps s
  | .relayAckTimeout mseq => Sys2Proof.Machine.execRelayAckTimeout mseq s
  | .lossOfLock port => Sys2Proof.Machine.execLossOfLock port s
  | .unwrap port validForNs => Sys2Proof.Machine.execUnwrap port validForNs s
  | .portQuiet port quietForNs => Sys2Proof.Machine.execPortQuiet port quietForNs s
  | .memberSilent pos clearCycles unreachable => Sys2Proof.Machine.execMemberSilent pos clearCycles unreachable s
  | .membershipAuth a => Sys2Proof.Machine.execMembershipAuth a s
  | .tokenSearch ant hit vswr10 => Sys2Proof.Machine.execTokenSearch ant hit vswr10 s
  | .tokenRound ant rs => Sys2Proof.Machine.execTokenRound ant rs s
  | .verifyTimeout ant slot => Sys2Proof.Machine.execVerifyTimeout ant slot s
  | .trackingRound ant rs => Sys2Proof.Machine.execTrackingRound ant rs s
  | .entropyTestFail kind samples => Sys2Proof.Machine.execEntropyTestFail kind samples s
  | .drbgRestart samples => Sys2Proof.Machine.execDrbgRestart samples s
  | .peerFrame f => Sys2Proof.Machine.execPeerFrame f s
  | .peerTimeout peer => Sys2Proof.Machine.execPeerTimeout peer s
  | .bootDecision d => Sys2Proof.Machine.execBootDecision d s
  | .clockCheck island dev => Sys2Proof.Machine.execClockCheck island dev s
  | .logicRailHigh mv forNs => Sys2Proof.Machine.execLogicRailHigh mv forNs s
  | .islandReset island cause => Sys2Proof.Machine.execIslandReset island cause s
  | .logicReset cause sub d => Sys2Proof.Machine.execLogicReset cause sub d s
  | .hoursIncrement park => Sys2Proof.Machine.execHoursIncrement park s
  | .timerFire n => Sys2Proof.Machine.execTimerFire n s
  | .lmbDoorbell value => Sys2Proof.Machine.execLmbDoorbell value s
  | .lmbAck value => Sys2Proof.Machine.execLmbAck value s
  | .heartbeatPort value => Sys2Proof.Machine.execHeartbeatPort value s
  | .irqPendClear value => Sys2Proof.Machine.execIrqPendClear value s
  | .irqSwi value => Sys2Proof.Machine.execIrqSwi value s
  | .timnCtlWrite n value => Sys2Proof.Machine.execTimnCtlWrite n value s
  | .f1PortWrite port value => Sys2Proof.Machine.execF1PortWrite port value s
  | .nop p => Sys2Proof.Machine.execNop p s
  | .wfi p => Sys2Proof.Machine.execWfi p s
  | .brk p => Sys2Proof.Machine.execBrk p s
  | .ret p => Sys2Proof.Machine.execRet p s
  | .reti p => Sys2Proof.Machine.execReti p s
  | .ei p => Sys2Proof.Machine.execEi p s
  | .di p => Sys2Proof.Machine.execDi p s
  | .fence p => Sys2Proof.Machine.execFence p s
  | .trap p n => Sys2Proof.Machine.execTrap p n s
  | .mov p a b => Sys2Proof.Machine.execMov p a b s
  | .add p a b => Sys2Proof.Machine.execAdd p a b s
  | .adc p a b => Sys2Proof.Machine.execAdc p a b s
  | .sub p a b => Sys2Proof.Machine.execSub p a b s
  | .sbc p a b => Sys2Proof.Machine.execSbc p a b s
  | .cmp p a b => Sys2Proof.Machine.execCmp p a b s
  | .and p a b => Sys2Proof.Machine.execAnd p a b s
  | .or p a b => Sys2Proof.Machine.execOr p a b s
  | .xor p a b => Sys2Proof.Machine.execXor p a b s
  | .tst p a b => Sys2Proof.Machine.execTst p a b s
  | .shl p a b => Sys2Proof.Machine.execShl p a b s
  | .shr p a b => Sys2Proof.Machine.execShr p a b s
  | .sar p a b => Sys2Proof.Machine.execSar p a b s
  | .ror p a b => Sys2Proof.Machine.execRor p a b s
  | .mul p a b => Sys2Proof.Machine.execMul p a b s
  | .mulh p a b => Sys2Proof.Machine.execMulh p a b s
  | .not p a b => Sys2Proof.Machine.execNot p a b s
  | .neg p a b => Sys2Proof.Machine.execNeg p a b s
  | .inc p a b => Sys2Proof.Machine.execInc p a b s
  | .dec p a b => Sys2Proof.Machine.execDec p a b s
  | .par p a b => Sys2Proof.Machine.execPar p a b s
  | .brev p a b => Sys2Proof.Machine.execBrev p a b s
  | .clz p a b => Sys2Proof.Machine.execClz p a b s
  | .sext p a b => Sys2Proof.Machine.execSext p a b s
  | .zext p a b => Sys2Proof.Machine.execZext p a b s
  | .divu p a b => Sys2Proof.Machine.execDivu p a b s
  | .divs p a b => Sys2Proof.Machine.execDivs p a b s
  | .remu p a b => Sys2Proof.Machine.execRemu p a b s
  | .rems p a b => Sys2Proof.Machine.execRems p a b s
  | .crcstep p a b imm => Sys2Proof.Machine.execCrcstep p a b imm s
  | .mff p a b => Sys2Proof.Machine.execMff p a b s
  | .mtf p a b => Sys2Proof.Machine.execMtf p a b s
  | .ld p a b dsz disp => Sys2Proof.Machine.execLd p a b dsz disp s
  | .st p a b dsz disp => Sys2Proof.Machine.execSt p a b dsz disp s
  | .lds p a b dsz disp => Sys2Proof.Machine.execLds p a b dsz disp s
  | .sti p b dsz disp isz imm => Sys2Proof.Machine.execSti p b dsz disp isz imm s
  | .lea p a b disp => Sys2Proof.Machine.execLea p a b disp s
  | .xchg p a b => Sys2Proof.Machine.execXchg p a b s
  | .copy p a b => Sys2Proof.Machine.execCopy p a b s
  | .push p a b => Sys2Proof.Machine.execPush p a b s
  | .pop p a b => Sys2Proof.Machine.execPop p a b s
  | .rspush p a b => Sys2Proof.Machine.execRspush p a b s
  | .rspop p a b => Sys2Proof.Machine.execRspop p a b s
  | .rspeek p a b imm => Sys2Proof.Machine.execRspeek p a b imm s
  | .rspget p a b => Sys2Proof.Machine.execRspget p a b s
  | .copyc p a b => Sys2Proof.Machine.execCopyc p a b s
  | .ldc p a b dsz disp => Sys2Proof.Machine.execLdc p a b dsz disp s
  | .bcc p cc wide disp => Sys2Proof.Machine.execBcc p cc wide disp s
  | .jmp p t => Sys2Proof.Machine.execJmp p t s
  | .call p t mask => Sys2Proof.Machine.execCall p t mask s
  | .inPort p a port => Sys2Proof.Machine.execInPort p a port s
  | .outPort p a port => Sys2Proof.Machine.execOutPort p a port s
  | .hostRead instr addr len whole => Sys2Proof.Machine.execHostRead instr addr len whole s
  | .holdoffExpiry => Sys2Proof.Machine.execHoldoffExpiry s
  | .presenceTimeout => Sys2Proof.Machine.execPresenceTimeout s
  | .uartSessionClose => Sys2Proof.Machine.execUartSessionClose s
  | .sysPing => Sys2Proof.Machine.execSysPing s
  | .sysTime => Sys2Proof.Machine.execSysTime s
  | .sysAssay => Sys2Proof.Machine.execSysAssay s
  | .sysReset => Sys2Proof.Machine.execSysReset s
  | .sysResetAssert => Sys2Proof.Machine.execSysResetAssert s
  | .sysSupervise => Sys2Proof.Machine.execSysSupervise s
  | .sysHealth => Sys2Proof.Machine.execSysHealth s
  | .sysIdentity => Sys2Proof.Machine.execSysIdentity s
  | .pwrStatus => Sys2Proof.Machine.execPwrStatus s
  | .pwrConfig => Sys2Proof.Machine.execPwrConfig s
  | .pwrPark => Sys2Proof.Machine.execPwrPark s
  | .drainOutputsOff => Sys2Proof.Machine.execDrainOutputsOff s
  | .drainMaxExpiry => Sys2Proof.Machine.execDrainMaxExpiry s
  | .drainSave => Sys2Proof.Machine.execDrainSave s
  | .drainArm => Sys2Proof.Machine.execDrainArm s
  | .parkEntry => Sys2Proof.Machine.execParkEntry s
  | .wakeCheckMaxExpiry => Sys2Proof.Machine.execWakeCheckMaxExpiry s
  | .sagStart => Sys2Proof.Machine.execSagStart s
  | .sagEnd => Sys2Proof.Machine.execSagEnd s
  | .sagUndoStep => Sys2Proof.Machine.execSagUndoStep s
  | .sagDeferMaxExpiry => Sys2Proof.Machine.execSagDeferMaxExpiry s
  | .overvoltage => Sys2Proof.Machine.execOvervoltage s
  | .overvoltageEnd => Sys2Proof.Machine.execOvervoltageEnd s
  | .v5Retry => Sys2Proof.Machine.execV5Retry s
  | .mtSourceLost => Sys2Proof.Machine.execMtSourceLost s
  | .loadConfig => Sys2Proof.Machine.execLoadConfig s
  | .loadSet => Sys2Proof.Machine.execLoadSet s
  | .loadStatus => Sys2Proof.Machine.execLoadStatus s
  | .loadClear => Sys2Proof.Machine.execLoadClear s
  | .bridgeConfig => Sys2Proof.Machine.execBridgeConfig s
  | .bridgeDrive => Sys2Proof.Machine.execBridgeDrive s
  | .bridgeStatus => Sys2Proof.Machine.execBridgeStatus s
  | .bridgeClear => Sys2Proof.Machine.execBridgeClear s
  | .planFrame => Sys2Proof.Machine.execPlanFrame s
  | .generationSwap => Sys2Proof.Machine.execGenerationSwap s
  | .shedLevelEntry => Sys2Proof.Machine.execShedLevelEntry s
  | .shedFactorStep => Sys2Proof.Machine.execShedFactorStep s
  | .shedChannel => Sys2Proof.Machine.execShedChannel s
  | .shedStepBack => Sys2Proof.Machine.execShedStepBack s
  | .planConfig => Sys2Proof.Machine.execPlanConfig s
  | .planChannel => Sys2Proof.Machine.execPlanChannel s
  | .planStatus => Sys2Proof.Machine.execPlanStatus s
  | .planDump => Sys2Proof.Machine.execPlanDump s
  | .ledgerWire => Sys2Proof.Machine.execLedgerWire s
  | .ledgerConfig => Sys2Proof.Machine.execLedgerConfig s
  | .ledgerStatus => Sys2Proof.Machine.execLedgerStatus s
  | .valveConfig => Sys2Proof.Machine.execValveConfig s
  | .valveBank => Sys2Proof.Machine.execValveBank s
  | .valveFire => Sys2Proof.Machine.execValveFire s
  | .valveRelease => Sys2Proof.Machine.execValveRelease s
  | .valveStatus => Sys2Proof.Machine.execValveStatus s
  | .valveClear => Sys2Proof.Machine.execValveClear s
  | .tableBuildDone => Sys2Proof.Machine.execTableBuildDone s
  | .measIntervalExpiry => Sys2Proof.Machine.execMeasIntervalExpiry s
  | .ledConfig => Sys2Proof.Machine.execLedConfig s
  | .ledFrame => Sys2Proof.Machine.execLedFrame s
  | .ledShow => Sys2Proof.Machine.execLedShow s
  | .ledGamma => Sys2Proof.Machine.execLedGamma s
  | .ledDotcor => Sys2Proof.Machine.execLedDotcor s
  | .ledPatina => Sys2Proof.Machine.execLedPatina s
  | .ledStatus => Sys2Proof.Machine.execLedStatus s
  | .ledFaults => Sys2Proof.Machine.execLedFaults s
  | .ledLayout => Sys2Proof.Machine.execLedLayout s
  | .ledLight => Sys2Proof.Machine.execLedLight s
  | .speedCompute => Sys2Proof.Machine.execSpeedCompute s
  | .fioConfig => Sys2Proof.Machine.execFioConfig s
  | .fioSet => Sys2Proof.Machine.execFioSet s
  | .fioStatus => Sys2Proof.Machine.execFioStatus s
  | .fioClear => Sys2Proof.Machine.execFioClear s
  | .fioWake => Sys2Proof.Machine.execFioWake s
  | .audioZone => Sys2Proof.Machine.execAudioZone s
  | .audioPlay => Sys2Proof.Machine.execAudioPlay s
  | .audioStop => Sys2Proof.Machine.execAudioStop s
  | .audioRoute => Sys2Proof.Machine.execAudioRoute s
  | .audioCalibrate => Sys2Proof.Machine.execAudioCalibrate s
  | .audioStatus => Sys2Proof.Machine.execAudioStatus s
  | .filterSwap => Sys2Proof.Machine.execFilterSwap s
  | .referenceLoad => Sys2Proof.Machine.execReferenceLoad s
  | .speedTimeout => Sys2Proof.Machine.execSpeedTimeout s
  | .canConfig => Sys2Proof.Machine.execCanConfig s
  | .canMode => Sys2Proof.Machine.execCanMode s
  | .canSend => Sys2Proof.Machine.execCanSend s
  | .canRx => Sys2Proof.Machine.execCanRx s
  | .canFilter => Sys2Proof.Machine.execCanFilter s
  | .canTime => Sys2Proof.Machine.execCanTime s
  | .canSpeed => Sys2Proof.Machine.execCanSpeed s
  | .canStatus => Sys2Proof.Machine.execCanStatus s
  | .ringSend => Sys2Proof.Machine.execRingSend s
  | .ringMaxExpiry => Sys2Proof.Machine.execRingMaxExpiry s
  | .aliveTimeout => Sys2Proof.Machine.execAliveTimeout s
  | .commitWindowEnd => Sys2Proof.Machine.execCommitWindowEnd s
  | .nmConfig => Sys2Proof.Machine.execNmConfig s
  | .nmRequest => Sys2Proof.Machine.execNmRequest s
  | .nmStatus => Sys2Proof.Machine.execNmStatus s
  | .nmKeepers => Sys2Proof.Machine.execNmKeepers s
  | .nmWakes => Sys2Proof.Machine.execNmWakes s
  | .cycleOriginate => Sys2Proof.Machine.execCycleOriginate s
  | .strikeAnnounce => Sys2Proof.Machine.execStrikeAnnounce s
  | .strikeLandRelease => Sys2Proof.Machine.execStrikeLandRelease s
  | .stageMaxExpiry => Sys2Proof.Machine.execStageMaxExpiry s
  | .relayedMessage => Sys2Proof.Machine.execRelayedMessage s
  | .linkWakeTransmit => Sys2Proof.Machine.execLinkWakeTransmit s
  | .masterTakeover => Sys2Proof.Machine.execMasterTakeover s
  | .notCascaded => Sys2Proof.Machine.execNotCascaded s
  | .authRetry => Sys2Proof.Machine.execAuthRetry s
  | .linkConfig => Sys2Proof.Machine.execLinkConfig s
  | .linkStatus => Sys2Proof.Machine.execLinkStatus s
  | .linkStrike => Sys2Proof.Machine.execLinkStrike s
  | .linkMembers => Sys2Proof.Machine.execLinkMembers s
  | .linkReform => Sys2Proof.Machine.execLinkReform s
  | .linkWake => Sys2Proof.Machine.execLinkWake s
  | .tokenConfig => Sys2Proof.Machine.execTokenConfig s
  | .tokenZones => Sys2Proof.Machine.execTokenZones s
  | .tokenEnrol => Sys2Proof.Machine.execTokenEnrol s
  | .tokenRevoke => Sys2Proof.Machine.execTokenRevoke s
  | .tokenRange => Sys2Proof.Machine.execTokenRange s
  | .tokenList => Sys2Proof.Machine.execTokenList s
  | .tokenStatus => Sys2Proof.Machine.execTokenStatus s
  | .drbgReseed => Sys2Proof.Machine.execDrbgReseed s
  | .challengeExpiry => Sys2Proof.Machine.execChallengeExpiry s
  | .keyStatus => Sys2Proof.Machine.execKeyStatus s
  | .keySlotInfo => Sys2Proof.Machine.execKeySlotInfo s
  | .keyGenerate => Sys2Proof.Machine.execKeyGenerate s
  | .keyImport => Sys2Proof.Machine.execKeyImport s
  | .keyExport => Sys2Proof.Machine.execKeyExport s
  | .keyDelete => Sys2Proof.Machine.execKeyDelete s
  | .keyDerive => Sys2Proof.Machine.execKeyDerive s
  | .keyCipher => Sys2Proof.Machine.execKeyCipher s
  | .keyMac => Sys2Proof.Machine.execKeyMac s
  | .keySign => Sys2Proof.Machine.execKeySign s
  | .keyHash => Sys2Proof.Machine.execKeyHash s
  | .keyRandom => Sys2Proof.Machine.execKeyRandom s
  | .keyChallenge => Sys2Proof.Machine.execKeyChallenge s
  | .keyPeer => Sys2Proof.Machine.execKeyPeer s
  | .keyPeerAuth => Sys2Proof.Machine.execKeyPeerAuth s
  | .keyHallmark => Sys2Proof.Machine.execKeyHallmark s
  | .keyCert => Sys2Proof.Machine.execKeyCert s
  | .keyTransition => Sys2Proof.Machine.execKeyTransition s
  | .writeUnitAdmitted => Sys2Proof.Machine.execWriteUnitAdmitted s
  | .admissionWaitExpiry => Sys2Proof.Machine.execAdmissionWaitExpiry s
  | .recordWriteDone => Sys2Proof.Machine.execRecordWriteDone s
  | .repairDone => Sys2Proof.Machine.execRepairDone s
  | .shadowSave => Sys2Proof.Machine.execShadowSave s
  | .paramRead => Sys2Proof.Machine.execParamRead s
  | .paramWrite => Sys2Proof.Machine.execParamWrite s
  | .paramDelete => Sys2Proof.Machine.execParamDelete s
  | .paramCounter => Sys2Proof.Machine.execParamCounter s
  | .paramShadow => Sys2Proof.Machine.execParamShadow s
  | .paramStatus => Sys2Proof.Machine.execParamStatus s
  | .paramErase => Sys2Proof.Machine.execParamErase s
  | .gateRecordWrite => Sys2Proof.Machine.execGateRecordWrite s
  | .sessionIdleTimeout => Sys2Proof.Machine.execSessionIdleTimeout s
  | .restartGateCheck => Sys2Proof.Machine.execRestartGateCheck s
  | .assayRunStep => Sys2Proof.Machine.execAssayRunStep s
  | .updBegin => Sys2Proof.Machine.execUpdBegin s
  | .updBlock => Sys2Proof.Machine.execUpdBlock s
  | .updEnd => Sys2Proof.Machine.execUpdEnd s
  | .updAbort => Sys2Proof.Machine.execUpdAbort s
  | .updConfig => Sys2Proof.Machine.execUpdConfig s
  | .updStatus => Sys2Proof.Machine.execUpdStatus s
  | .privTestmode => Sys2Proof.Machine.execPrivTestmode s
  | .anvilF0Timeout => Sys2Proof.Machine.execAnvilF0Timeout s
  | .f1HeartbeatTimeout => Sys2Proof.Machine.execF1HeartbeatTimeout s
  | .f1Restart => Sys2Proof.Machine.execF1Restart s
  | .anvilTimeout => Sys2Proof.Machine.execAnvilTimeout s
  | .anvilResetDone => Sys2Proof.Machine.execAnvilResetDone s
  | .backstopExpiry => Sys2Proof.Machine.execBackstopExpiry s
  | .failedRestartTimeout => Sys2Proof.Machine.execFailedRestartTimeout s
  | .interruptEntry => Sys2Proof.Machine.execInterruptEntry s
  | .evqRec0Read => Sys2Proof.Machine.execEvqRec0Read s
  | .mtSnapLoRead => Sys2Proof.Machine.execMtSnapLoRead s
  | .powerRemoved => Sys2Proof.Machine.execPowerRemoved s
  | .anvilDoubleFault => Sys2Proof.Machine.execAnvilDoubleFault s

end Sys2Proof.Machine
end

