-- ==== Sys2Proof/Machine/Tick.lean ====
section
/-! DEFINITION. What the module does by itself while no command waits: 4 ns of MT and of CORE cycles, the next instruction of
F1's program, and the next event frame of the service UART. -/

namespace Sys2Proof.Machine

/-- Twentieths of a CORE cycle in 4 ns at a CORE step (R55): 300, 150, 75 and 37.5 MHz. -/
def cycleTwentieths (step : Nat) : Nat := [24, 12, 6, 3].getD step 3

/-- CYCLES counts CORE cycles since F1 start (R499). -/
def F1State.count (c : F1State) (n : Nat) : F1State :=
  let p := c.cyclePart + n
  { c with cycles := c.cycles + p / 20, cyclePart := p % 20 }

/-- MT and CYCLES advance by 4 ns (R27, R499). -/
def Live.advance (l : Live) : Live :=
  let l := { l with mt := l.mt.tick }
  if l.f1.run == .running then l.onF1 fun c => c.count (cycleTwentieths l.pwr.coreStep) else l

/-- F1 executes by itself: an interrupt that qualifies is entered at the boundary (R497), else the instruction at PC runs; a
byte string that is no instruction raises ILLEGAL, after the fetch check. -/
def f1Program (s : State) : Result :=
  if !s.live.f1Ready then .next s
  else if s.live.f1.ie && s.live.nextLine.isSome then .next (interruptEntry s)
  else match f1Decode (codeBytes s.kept.flash s.live.f1.pc) with
    | .instr i => exec i s
    | .illegal cause => .next (f1Exec s [] 1 allowNone fun _ _ s => f1Illegal s cause)

/-- One idle tick; a module without power stands still. -/
def tick (s : State) : Result :=
  if !s.live.pwr.powered then .next s
  else f1Program (s.onLive fun l => (if l.uartAnswers then l.uartEvent else l).advance)

end Sys2Proof.Machine
end

