-- ==== Sys2Proof/Safety.lean ====
section
/-! DEFINITION. What a good state and a good run are, in the words that claims use. -/

namespace Sys2Proof.Machine

/-- What is kept without power is in form: the parameter store and the code flash are canonical, the secure cells hold 64 key
slots, and there is an erase count for each sector (R412, R427, R573). -/
abbrev Kept.ok (k : Kept) : Prop :=
  Memory.wf 0 k.store = true ∧ Memory.wf 0xFF k.flash = true ∧ k.cells.slots.length = 64 ∧ k.erases.length = 256

/-- The command of an opcode that waits in mailbox m with request b, and would execute next: the crossing it needs has not
failed (R20). -/
abbrev Waits (s : State) (opc : Nat) (m : MbRef) (b : Mailbox) : Prop :=
  s.live.request opc = some (m, b) ∧ s.live.pathLost opc = false

/-- The command ends with a status, DETAIL and payload, and changes nothing but its mailbox. -/
def State.answer (s : State) (m : MbRef) (st : Status) (detail : Nat) (payload : List Byte) : State :=
  { s with live := s.live.complete m st detail payload }

/-- The command ends as its body does: the live state that the body leaves, with its reply in the mailbox. -/
def State.ends (s : State) (m : MbRef) (r : Reply × Live) : State := { s with live := r.2.finish m r.1 }

/-- The same for a command that may also change what is kept. -/
def State.endsK (_s : State) (m : MbRef) (r : Reply × State) : State := { r.2 with live := r.2.live.finish m r.1 }

/-- F1 out of a WFI wait. -/
def State.awake (s : State) : State := s.onF1 fun c => { c with waiting := false }

/-- F1 executes an instruction of so many bytes at its PC: it runs, the bytes lie in the application slot, and the instruction
accepts the prefixes, which mean u; the next instruction is at `next` (R482 to R484). -/
abbrev Fetches (s : State) (p : Prefixes) (len : Nat) (al : PfxAllow) (u : PfxUse) (next : Nat) : Prop :=
  s.live.f1.run = .running ∧ (s.live.f1.waiting = true → s.live.irqWakes = true) ∧ inAppSlot s.live.f1.pc = true ∧
    inAppSlot (s.live.f1.pc + p.length + len - 1) = true ∧ usePrefixes al p = some u ∧
    next = (s.live.f1.pc + p.length + len) % 2 ^ 24

/-- F1's instruction ends: the core as f leaves it, PC at the next instruction, everything else as it was. -/
def State.f1Then (s : State) (next : Nat) (f : F1State → F1State) : State :=
  s.onF1 fun c => { f { c with waiting := false } with pc := next }

/-- It writes a result to Ka and its flags. -/
def State.f1Writes (s : State) (next : Nat) (a : KReg) (r : AluResult) : State :=
  s.f1Then next fun c => ({ c with flags := r.2 }).setReg a r.1

/-- One repetition under REP (R491): K2 counts down, and PC passes the instruction when it has come to 0. -/
def State.f1Repeated (s : State) (next : Nat) (f : F1State → F1State) : State :=
  s.onF1 fun c =>
    let c := f { c with waiting := false }
    let c := c.setReg 2 ((c.reg 2).toNat + 0xFFFFFFFF)
    if c.reg 2 = 0 then { c with pc := next } else c

/-- A run that no fault and no refusal ends. -/
def Runs (s : State) (n : Nat) : Prop := ∃ t, Host.Core.run
  { State := State, Fault := Fault, Refusal := Refusal, step := step, reset := State.reset } n s = .next t

end Sys2Proof.Machine
end

