-- ==== Sys2Proof/WellFormed.lean ====
section
/-! DEFINITION. When a command's operands are such as the hardware can present: numbers of outputs, channels, islands and
mailboxes within the module, instruction bytes of their row, fields of a Dvorgil instruction within their encoding.  The
meanings are total: a number of no part of the module leaves the state as it is, or reads as the default of its field. -/

namespace Sys2Proof

/-- A booked source of the module (R163). -/
def srcOk : Source → Bool
  | .load ch => decide (ch < 48)
  | .leg l => decide (l < 8)
  | .valve v => decide (v < 12)
  | .bank b => decide (b < 4)
  | .fio ch => decide (ch < 32)
  | .rows => true

def outOk : OutRef → Bool
  | .load ch => decide (ch < 48)
  | .bridge b => decide (b < 8)
  | .fio ch => decide (ch < 32)

/-- The causes of R512 that LOGIC_RESET takes. -/
def inCauses (cause : Nat) : Bool := decide (2 ≤ cause) && decide (cause ≤ 6)

/-- A CAN frame of a channel of the module, with a DLC of four bits and a key of 32 (R309). -/
def frameOk (f : CanFrame) : Bool := decide (f.ch < 4) && decide (f.dlc < 16) && decide (f.key < 2 ^ 32) && decide (f.data.length ≤ 64)

/-- At most two prefix bytes, 0xE0 to 0xE7 (R483, R484). -/
def prefixesOk (p : Prefixes) : Bool :=
  decide (p.length ≤ 2) && p.all fun b => decide (0xE0 ≤ b.toNat) && decide (b.toNat ≤ 0xE7)

/-- A displacement that its size holds. -/
def dispOk (d : DispSize) (v : BitVec 32) : Bool :=
  match d with
  | .d0 => v == 0
  | .d1 => decide (v.toNat < 2 ^ 8)
  | .d2 => decide (v.toNat < 2 ^ 16)
  | .d4 => true

/-- An immediate that its size holds. -/
def immOk (s : ImmSize) (v : BitVec 32) : Bool :=
  match s with
  | .i1 => decide (v.toNat < 2 ^ 8)
  | .i2 => decide (v.toNat < 2 ^ 16)
  | .i4 => true

def aluOk : AluOperand → Bool
  | .reg _ => true
  | .imm s v => immOk s v

/-- A well-formed command. -/
def Instr.wf : Instr → Bool
  | .hostWrite instr addr len _ _ _ => (instr == 0x02 || instr == 0x32) && decide (addr < 65536) && decide (len < 65536)
  | .instructionByteUnknown instr => !(instr == 0x02 || instr == 0x32 || instr == 0x0B || instr == 0x6B)
  | .doorbell _ => true
  | .mbAck _ => true
  | .evqAck _ => true
  | .restartedClear _ => true
  | .holdoffExpiry => true
  | .presenceButtonProven _ => true
  | .presenceTimeout => true
  | .sealTest _ => true
  | .serviceUartFrame _ => true
  | .uartByteGap _ => true
  | .uartSessionClose => true
  | .sysPing => true
  | .sysTime => true
  | .sysAssay => true
  | .sysReset => true
  | .sysResetAssert => true
  | .sysSupervise => true
  | .sysHealth => true
  | .sysIdentity => true
  | .pwrStatus => true
  | .pwrConfig => true
  | .pwrPark => true
  | .drainOutputsOff => true
  | .drainMaxExpiry => true
  | .drainSave => true
  | .drainArm => true
  | .parkEntry => true
  | .powerOn _ => true
  | .wakeSourceFire src idx _ => decide (src < 8) && decide (idx < 16)
  | .wakeValidated src idx => decide (src < 8) && decide (idx < 16)
  | .wakeCheckMaxExpiry => true
  | .hwakeNLow _ => true
  | .limpExit _ => true
  | .vbatSample _ _ => true
  | .sagStart => true
  | .sagEnd => true
  | .sagUndoStep => true
  | .sagDeferMaxExpiry => true
  | .overvoltage => true
  | .overvoltageEnd => true
  | .v5LimitExpiry _ => true
  | .v5Retry => true
  | .vledLow _ => true
  | .vledRestored _ _ => true
  | .cMeasDone _ => true
  | .energyEvaluation _ => true
  | .vbatLLow _ => true
  | .vbatLRecover _ => true
  | .brownout _ => true
  | .d2dFlitReceived link dir lane _ => decide (link < 3) && decide (dir < 2) && decide (lane < 4)
  | .logicHeartbeat _ => true
  | .crossingTimeout snd rcv _ _ => decide (snd < 10) && decide (rcv < 10)
  | .crossingRetest snd rcv _ _ => decide (snd < 10) && decide (rcv < 10)
  | .mtSourceLost => true
  | .timestampPairing island _ => decide (island < 10)
  | .loadConfig => true
  | .loadSet => true
  | .loadStatus => true
  | .loadClear => true
  | .edgeExecute _ _ => true
  | .edgeRampEnd ch => decide (ch < 48)
  | .pwmPeriodStart src => srcOk src
  | .slewEnd ch _ => decide (ch < 48)
  | .slewTimeout ch _ => decide (ch < 48)
  | .readbackSample src i v tj x => srcOk src && [v.length, tj.length, x.length].all (· == i.length)
  | .imbalanceCheck ch _ _ => decide (ch < 48)
  | .openOnQualified ch _ _ => decide (ch < 48)
  | .offStateTest out _ _ => outOk out
  | .currentLimit ch _ => decide (ch < 48)
  | .limitRelease ch _ _ => decide (ch < 48)
  | .limitMaxExpiry ch _ => decide (ch < 48)
  | .fastTrip ch _ _ => decide (ch < 48)
  | .thermalLatch ch _ _ => decide (ch < 48)
  | .thermalRelease ch _ => decide (ch < 48)
  | .clampEnd ch _ _ => decide (ch < 48)
  | .clampPowerExceeded ch => decide (ch < 48)
  | .groupUndervoltage g _ _ => decide (g < 4)
  | .uvRecover g _ _ => decide (g < 4)
  | .retryDelayExpiry out => outOk out
  | .restartRequest out => outOk out
  | .restartEdge _ => true
  | .retryRefill out => outOk out
  | .bridgeConfig => true
  | .bridgeDrive => true
  | .bridgeStatus => true
  | .bridgeClear => true
  | .dirRampDownEnd br => decide (br < 8)
  | .dirDone br _ _ => decide (br < 8)
  | .dirStalled br => decide (br < 8)
  | .bridgeLimit leg _ _ => decide (leg < 8)
  | .bridgeShort leg _ _ => decide (leg < 8)
  | .bridgeThermal leg _ => decide (leg < 8)
  | .bridgeUv br => decide (br < 8)
  | .bridgeOpenLoad br _ _ => decide (br < 8)
  | .orphanEntry _ => true
  | .wireBackstopTrip ch _ _ => decide (ch < 48)
  | .orphanTurnOn g => decide (g < 4)
  | .fioSilenceExpiry ch => decide (ch < 32)
  | .orphanOffExpiry _ => true
  | .adoption _ => true
  | .adoptionRetry _ _ => true
  | .unadoptedRetry _ _ => true
  | .planFrame => true
  | .sporadicEdgeArrival _ => true
  | .delayedTurnOn _ => true
  | .delayMaxExpiry _ => true
  | .protectionOffReport src => srcOk src
  | .generationSwap => true
  | .evPlanBuildLate _ => true
  | .ledgerUpdate _ => true
  | .ledgerDieStale _ => true
  | .shedLevelEntry => true
  | .shedFactorStep => true
  | .shedChannel => true
  | .shedStepBack => true
  | .bookingExceeded src _ _ => srcOk src
  | .planConfig => true
  | .planChannel => true
  | .planStatus => true
  | .planDump => true
  | .ledgerWire => true
  | .ledgerConfig => true
  | .ledgerStatus => true
  | .valveConfig => true
  | .valveBank => true
  | .valveFire => true
  | .valveRelease => true
  | .valveStatus => true
  | .valveClear => true
  | .offTimeWaitEnd vl => decide (vl < 12)
  | .fired vl => decide (vl < 12)
  | .peakEnd vl => decide (vl < 12)
  | .dropEnd vl _ => decide (vl < 12)
  | .holdEnd vl => decide (vl < 12)
  | .decayEnd vl _ => decide (vl < 12)
  | .offTimeEnd vl => decide (vl < 12)
  | .bankOff bank => decide (bank < 4)
  | .chopPeriod vl _ _ => decide (vl < 12)
  | .valveSample vl _ => decide (vl < 12)
  | .noMove vl => decide (vl < 12)
  | .landEntry vl => decide (vl < 12)
  | .landRescue vl => decide (vl < 12)
  | .clampHot vl _ => decide (vl < 12)
  | .valveOvercurrent vl _ => decide (vl < 12)
  | .openCoil vl _ => decide (vl < 12)
  | .valveThermal vl _ => decide (vl < 12)
  | .bankShort bank _ _ => decide (bank < 4)
  | .bankThermal bank _ => decide (bank < 4)
  | .bankContExceeded bank _ _ => decide (bank < 4)
  | .valveUv bank => decide (bank < 4)
  | .lineSlot d => (d.high.length == 64 && d.low.length == 64)
  | .lineRefresh row => decide (row < 16)
  | .rowShortRetry row _ => decide (row < 16)
  | .scanFrame _ => true
  | .tableBuildDone => true
  | .measIntervalExpiry => true
  | .ledConfig => true
  | .ledFrame => true
  | .ledShow => true
  | .ledGamma => true
  | .ledDotcor => true
  | .ledPatina => true
  | .ledStatus => true
  | .ledFaults => true
  | .ledLayout => true
  | .ledLight => true
  | .fioSample ch _ => decide (ch < 32)
  | .wireBreakMeasure ch _ => decide (ch < 32)
  | .speedCompute => true
  | .fioOutputLimit ch _ _ => decide (ch < 32)
  | .fioOverload ch _ => decide (ch < 32)
  | .fioThermal ch _ => decide (ch < 32)
  | .fioClamp ch _ => decide (ch < 32)
  | .fioUv ch => decide (ch < 32)
  | .fioOpenOn ch _ _ => decide (ch < 32)
  | .wakePollPark wk _ => decide (wk < 16)
  | .wakeQualifyPoll wk _ => decide (wk < 16)
  | .wakePollRun wk _ => decide (wk < 16)
  | .fioConfig => true
  | .fioSet => true
  | .fioStatus => true
  | .fioClear => true
  | .fioWake => true
  | .tdmFrame rx => (rx.length == 8)
  | .programmeStart zone => decide (zone < 8)
  | .programmeEnd zone => decide (zone < 8)
  | .linkAudioLost ch _ => decide (ch < 8)
  | .pilotWindow zone _ _ _ => decide (zone < 8)
  | .calibrationDone zone => decide (zone < 8)
  | .audioZone => true
  | .audioPlay => true
  | .audioStop => true
  | .audioRoute => true
  | .audioCalibrate => true
  | .audioStatus => true
  | .canFrameReceived ch f => decide (ch < 4) && frameOk f
  | .ringLockRead ch _ => decide (ch < 4)
  | .ringReleaseRead ch _ => decide (ch < 4)
  | .ringEntryFilter ch => decide (ch < 4)
  | .filterSwap => true
  | .canTxDone ch txb _ _ => decide (ch < 4) && decide (txb < 3)
  | .canTxError ch txb _ _ => decide (ch < 4) && decide (txb < 3)
  | .canTxDeadline ch txb _ => decide (ch < 4) && decide (txb < 3)
  | .errorStateChange ch _ _ _ _ => decide (ch < 4)
  | .busoffHoldExpiry ch => decide (ch < 4)
  | .busStuck ch _ _ => decide (ch < 4)
  | .referenceLoad => true
  | .referenceReceived f => frameOk f
  | .speedFrame f => frameOk f
  | .speedTimeout => true
  | .canConfig => true
  | .canMode => true
  | .canSend => true
  | .canAbort _ => true
  | .canRx => true
  | .canFilter => true
  | .canTime => true
  | .canSpeed => true
  | .canStatus => true
  | .ringMessageReceived f => frameOk f
  | .ringSend => true
  | .ringMaxExpiry => true
  | .aliveTimeout => true
  | .commitWindowEnd => true
  | .keeperThreshold _ => true
  | .nmConfig => true
  | .nmRequest => true
  | .nmStatus => true
  | .nmKeepers => true
  | .nmWakes => true
  | .cycleOriginate => true
  | .syncReceived d => decide (d.port < 2)
  | .hopProbe p _ => decide (p < 2)
  | .formation _ => true
  | .strikeAnnounce => true
  | .strikeApply _ => true
  | .strikeLandRelease => true
  | .stageMaxExpiry => true
  | .relayedMessage => true
  | .relayAckTimeout mseq => decide (mseq < 256)
  | .lossOfLock port => decide (port < 2)
  | .unwrap port _ => decide (port < 2)
  | .portQuiet port _ => decide (port < 2)
  | .linkWakeTransmit => true
  | .memberSilent pos _ _ => decide (pos < 64)
  | .masterTakeover => true
  | .notCascaded => true
  | .membershipAuth _ => true
  | .authRetry => true
  | .linkConfig => true
  | .linkStatus => true
  | .linkStrike => true
  | .linkMembers => true
  | .linkReform => true
  | .linkWake => true
  | .tokenSearch ant _ _ => decide (ant < 2)
  | .tokenRound ant _ => decide (ant < 2)
  | .verifyTimeout ant slot => decide (ant < 2) && decide (slot < 16)
  | .trackingRound ant _ => decide (ant < 2)
  | .tokenConfig => true
  | .tokenZones => true
  | .tokenEnrol => true
  | .tokenRevoke => true
  | .tokenRange => true
  | .tokenList => true
  | .tokenStatus => true
  | .entropyTestFail _ _ => true
  | .drbgRestart _ => true
  | .drbgReseed => true
  | .challengeExpiry => true
  | .peerFrame f => frameOk f
  | .peerTimeout _ => true
  | .keyStatus => true
  | .keySlotInfo => true
  | .keyGenerate => true
  | .keyImport => true
  | .keyExport => true
  | .keyDelete => true
  | .keyDerive => true
  | .keyCipher => true
  | .keyMac => true
  | .keySign => true
  | .keyHash => true
  | .keyRandom => true
  | .keyChallenge => true
  | .keyPeer => true
  | .keyPeerAuth => true
  | .keyHallmark => true
  | .keyCert => true
  | .keyTransition => true
  | .writeUnitAdmitted => true
  | .admissionWaitExpiry => true
  | .recordWriteDone => true
  | .repairDone => true
  | .shadowSave => true
  | .paramRead => true
  | .paramWrite => true
  | .paramDelete => true
  | .paramCounter => true
  | .paramShadow => true
  | .paramStatus => true
  | .paramErase => true
  | .bootDecision _ => true
  | .gateRecordWrite => true
  | .sessionIdleTimeout => true
  | .restartGateCheck => true
  | .assayRunStep => true
  | .updBegin => true
  | .updBlock => true
  | .updEnd => true
  | .updAbort => true
  | .updConfig => true
  | .updStatus => true
  | .privTestmode => true
  | .anvilF0Timeout => true
  | .f1HeartbeatTimeout => true
  | .f1Restart => true
  | .anvilTimeout => true
  | .anvilResetDone => true
  | .backstopExpiry => true
  | .clockCheck island _ => decide (island < 10)
  | .logicRailHigh _ _ => true
  | .islandReset island _ => decide (island < 10)
  | .logicReset cause _ _ => inCauses cause
  | .failedRestartTimeout => true
  | .hoursIncrement _ => true
  | .interruptEntry => true
  | .timerFire n => decide (n < 4)
  | .lmbDoorbell _ => true
  | .lmbAck _ => true
  | .evqRec0Read => true
  | .mtSnapLoRead => true
  | .heartbeatPort _ => true
  | .irqPendClear _ => true
  | .irqSwi _ => true
  | .timnCtlWrite n _ => decide (n < 4)
  | .f1PortWrite port _ => decide (port < 65536)
  | .nop p => prefixesOk p
  | .wfi p => prefixesOk p
  | .brk p => prefixesOk p
  | .ret p => prefixesOk p
  | .reti p => prefixesOk p
  | .ei p => prefixesOk p
  | .di p => prefixesOk p
  | .fence p => prefixesOk p
  | .trap p _ => prefixesOk p
  | .mov p _ b => prefixesOk p && aluOk b
  | .add p _ b => prefixesOk p && aluOk b
  | .adc p _ b => prefixesOk p && aluOk b
  | .sub p _ b => prefixesOk p && aluOk b
  | .sbc p _ b => prefixesOk p && aluOk b
  | .cmp p _ b => prefixesOk p && aluOk b
  | .and p _ b => prefixesOk p && aluOk b
  | .or p _ b => prefixesOk p && aluOk b
  | .xor p _ b => prefixesOk p && aluOk b
  | .tst p _ b => prefixesOk p && aluOk b
  | .shl p _ b => prefixesOk p && aluOk b
  | .shr p _ b => prefixesOk p && aluOk b
  | .sar p _ b => prefixesOk p && aluOk b
  | .ror p _ b => prefixesOk p && aluOk b
  | .mul p _ b => prefixesOk p && aluOk b
  | .mulh p _ b => prefixesOk p && aluOk b
  | .not p _ _ => prefixesOk p
  | .neg p _ _ => prefixesOk p
  | .inc p _ _ => prefixesOk p
  | .dec p _ _ => prefixesOk p
  | .par p _ _ => prefixesOk p
  | .brev p _ _ => prefixesOk p
  | .clz p _ _ => prefixesOk p
  | .sext p _ _ => prefixesOk p
  | .zext p _ _ => prefixesOk p
  | .divu p _ _ => prefixesOk p
  | .divs p _ _ => prefixesOk p
  | .remu p _ _ => prefixesOk p
  | .rems p _ _ => prefixesOk p
  | .crcstep p _ _ _ => prefixesOk p
  | .mff p _ _ => prefixesOk p
  | .mtf p _ _ => prefixesOk p
  | .ld p _ _ dsz disp => prefixesOk p && dispOk dsz disp
  | .st p _ _ dsz disp => prefixesOk p && dispOk dsz disp
  | .lds p _ _ dsz disp => prefixesOk p && dispOk dsz disp
  | .sti p _ dsz disp isz imm => prefixesOk p && dispOk dsz disp && immOk isz imm
  | .lea p _ _ _ => prefixesOk p
  | .xchg p _ _ => prefixesOk p
  | .copy p _ _ => prefixesOk p
  | .push p _ _ => prefixesOk p
  | .pop p _ _ => prefixesOk p
  | .rspush p _ _ => prefixesOk p
  | .rspop p _ _ => prefixesOk p
  | .rspeek p _ _ _ => prefixesOk p
  | .rspget p _ _ => prefixesOk p
  | .copyc p _ _ => prefixesOk p
  | .ldc p _ _ dsz disp => prefixesOk p && dispOk dsz disp
  | .bcc p _ wide disp => prefixesOk p && (wide || decide (disp.toNat < 256))
  | .jmp p _ => prefixesOk p
  | .call p _ _ => prefixesOk p
  | .inPort p _ _ => prefixesOk p
  | .outPort p _ _ => prefixesOk p
  | .hostRead instr addr len _ => (instr == 0x0B || instr == 0x6B) && decide (addr < 65536) && decide (len < 65536)
  | .powerRemoved => true
  | .anvilDoubleFault => true

end Sys2Proof
end

