-- ==== Sys2Proof/Certificates/Slice0/Obligations.lean ====
section
/-! DEFINITION. The statements about the model that the provers are to prove. -/

open Sys2Proof Sys2Proof.Machine

/-! ### The queue, the host window, mailboxes and events (03_host_mailboxes_commands.md) -/

/-- A step runs the command at the front of the queue on the rest of it. -/
def Obligations.StepRunsFront : Prop :=
  ∀ (c : Instr) (rest : List Instr) (s : State),
    step { s with pending := c :: rest } = exec c { s with pending := rest }

/-- No command touches the queue: a step takes exactly the command at its front, an idle step (the tick that log entry 1 chooses)
takes none.
Every command answers a next state: no command of the table ends in a fault or a refusal (there is none in the model). -/
def Obligations.StepKeepsQueue : Prop :=
  (∀ s t : State, step s = .next t → t.pending = s.pending.tail) ∧
  (∀ (i : Instr) (s : State), ∃ t : State, exec i s = .next t ∧ t.pending = s.pending)

/-- A transaction with one of the other 252 instruction bytes drives nothing and counts a framing error.
Writes of a whole transaction: NOT_READY while the command layer does not run; with a wrong CRC nothing is applied and an
error is counted; with a good CRC a FREE mailbox takes the bytes (STATUS and RESP stay the module's), a mailbox that is not
FREE refuses them, HIF_CONFIG takes its fields.  Everything else is as before.
Reads of a whole transaction: ones on every lane while the command layer does not run; a read within one region gives the
window's bytes and their CRC; one that is no read of the window gives zeros with an inverted CRC and counts a framing error.
A read changes nothing but what is driven and what it counts.
Completion: exec answers a next state, each row under the conditions it names, for HOST_WRITE, INSTRUCTION_BYTE_UNKNOWN,
HOST_READ. -/
def Obligations.HostTransactions : Prop :=
  (∀ (i : BitVec 8) (s : State), i ≠ 0x02 → i ≠ 0x32 → i ≠ 0x0B → i ≠ 0x6B → s.live.commandLayer = true →
     exec (.instructionByteUnknown i) s = .next (s.onLive fun l => (l.hifError 1 0).spi []) ∧
       (s.live.hifError 1 0).host.hifErrs = min 255 (s.live.host.hifErrs + 1)) ∧
  (∀ (i : BitVec 8) (addr len : Nat) (data : List Byte) (crc : BitVec 32) (s : State),
     (i = 0x02 ∨ i = 0x32) → data.length = len →
     (s.live.commandLayer = false →
       exec (.hostWrite i addr len data crc true) s = .next (s.onLive fun l => l.spi [0xA4])) ∧
     (s.live.commandLayer = true → crc32 (spiBytes i addr len data) ≠ crc →
       exec (.hostWrite i addr len data crc true) s = .next (s.onLive fun l => (l.hifError 0 addr).spi [0xA1])) ∧
     (s.live.commandLayer = true → crc32 (spiBytes i addr len data) = crc → addr % 4 = 0 → len % 4 = 0 → 4 ≤ len →
       addr < 0x1000 → addr % 512 + len ≤ 512 → ∀ b, s.live.host.mb[addr / 512]? = some b →
       (b.st = .free → exec (.hostWrite i addr len data crc true) s = .next (s.onLive fun l =>
         (l.setBox (.host (addr / 512)) { b with bytes := requestBytes (splice b.bytes (addr % 512) data) }).spi [0xA0])) ∧
       (b.st ≠ .free → exec (.hostWrite i addr len data crc true) s = .next (s.onLive fun l => l.spi [0xA2]))) ∧
     (s.live.commandLayer = true → crc32 (spiBytes i addr len data) = crc → addr = 0x1014 → len = 4 →
       exec (.hostWrite i addr len data crc true) s = .next (s.onLive fun l => (l.hifConfig (rd data 0 4)).spi [0xA0]))) ∧
  (∀ (i : BitVec 8) (addr len : Nat) (s : State), (i = 0x0B ∨ i = 0x6B) →
     (s.live.commandLayer = false →
       exec (.hostRead i addr len true) s = .next (s.onLive fun l => l.spi (List.replicate (len + 4) 0xFF))) ∧
     (s.live.commandLayer = true → ∀ bs, s.live.hostWindow addr len = some bs →
       exec (.hostRead i addr len true) s = .next (s.onLive fun l =>
         l.spi (bs ++ le 4 (crc32 (spiBytes i addr len bs)).toNat))) ∧
     (s.live.commandLayer = true → s.live.hostWindow addr len = none →
       exec (.hostRead i addr len true) s = .next (s.onLive fun l => (l.hifError 1 addr).spi
         (List.replicate len 0 ++ le 4 (~~~ (crc32 (spiBytes i addr len (List.replicate len 0)))).toNat))))

/-- A doorbell for one FREE mailbox whose request passes checks 1 to 4, is for this module and needs no presence makes it BUSY,
next in doorbell order, and admits it; one for a BUSY or DONE mailbox changes it not and raises EV_SYS_DOORBELL_IGNORED.
MB_ACK frees and clears the DONE mailboxes of its mask and leaves every other mailbox as it is.
Completion: exec answers a next state, each row under the conditions it names, for DOORBELL, MB_ACK. -/
def Obligations.DoorbellsAndAcks : Prop :=
  (∀ (n : Nat) (s : State) (b : Mailbox), n < 8 → s.live.commandLayer = true → s.live.pwr.mode ≠ .wakeCheck →
     s.live.host.mb[n]? = some b →
     (b.st = .free → requestFault b true = none → b.dev = 0x7E →
       (s.onLive fun l => l.ring (.host n) b.bytes).proofOf
         { b with st := .busy, stage := .none, seq := s.live.host.ringSeq, rungAt := s.live.mt.now } = none →
       exec (.doorbell (BitVec.ofNat 32 (2 ^ n))) s = .next (s.onLive fun l =>
         ((l.ring (.host n) b.bytes).setStage (.host n) .admitted).spi [0xA0])) ∧
     (b.st = .busy → exec (.doorbell (BitVec.ofNat 32 (2 ^ n))) s = .next (s.onLive fun l =>
       (l.raise 0x011 warn 0 (le 1 n ++ le 1 0)).spi [0xA0])) ∧
     (b.st = .done → exec (.doorbell (BitVec.ofNat 32 (2 ^ n))) s = .next (s.onLive fun l =>
       (l.raise 0x011 warn 1 (le 1 n ++ le 1 0)).spi [0xA0]))) ∧
  (∀ (v : BitVec 32) (s : State), s.live.commandLayer = true → s.live.host.mb.length = 8 →
     ∃ t, exec (.mbAck v) s = .next t ∧ t.kept = s.kept ∧ t.live.host.mb.length = 8 ∧
       ∀ (n : Nat) (b : Mailbox), s.live.host.mb[n]? = some b →
         t.live.host.mb[n]? = some (if v.getLsbD n ∧ n < 8 ∧ b.st = .done then Mailbox.empty else b))

/-- The three cases of a write of ACK_SEQ, with d = (ACK_SEQ - HEAD_SEQ) mod 65536 and no more than 256 records waiting.
Completion: exec answers a next state, each row under the conditions it names, for EVQ_ACK. -/
def Obligations.EvqAckConsumes : Prop :=
  ∀ (v : BitVec 32) (s : State), s.live.commandLayer = true → s.live.host.evq.length ≤ 256 → s.live.host.headSeq < 65536 →
    ∃ t, exec (.evqAck v) s = .next t ∧
      (let d := (v.toNat % 65536 + 65536 - s.live.host.headSeq) % 65536
       let k := if d ≤ s.live.host.evq.length then d else if d < 32768 then s.live.host.evq.length else 0
       t.live.host.evq = s.live.host.evq.drop k ∧ t.live.host.headSeq = (s.live.host.headSeq + k) % 65536) ∧
      t.kept = s.kept ∧ t.live.host.mb = s.live.host.mb ∧ t.live.host.drops = s.live.host.drops

/-- RESTARTED is W1C: writing 1 clears it and no other bit of the word does anything.
EVENT_N is low after HOLDOFF has run out exactly while a mailbox is DONE or a record calls for the host (R71).
Completion: exec answers a next state, each row under the conditions it names, for RESTARTED_CLEAR, HOLDOFF_EXPIRY. -/
def Obligations.HostControlWords : Prop :=
  (∀ (v : BitVec 32) (s : State), s.live.commandLayer = true →
     exec (.restartedClear v) s = .next (s.onLive fun l =>
       { l with host := { l.host with restarted := l.host.restarted && !(v.getLsbD 3), spiOut := [0xA0] } })) ∧
  (∀ s : State, s.live.sup.phase = .running →
     ∃ t, exec .holdoffExpiry s = .next t ∧ t.kept = s.kept ∧ t.live.host.evq = s.live.host.evq ∧
       (t.live.host.eventLow = true ↔
         (∃ b ∈ s.live.host.mb, b.st = .done) ∨
         (∃ r ∈ s.live.host.evq, warn ≤ r.sev ∨ r.entered + us (100 * s.live.host.holdoff) ≤ s.live.mt.now)))

/-- A record that arrives at a full host queue drops the oldest, advances HEAD_SEQ and counts in DROPS; one that arrives at a
queue with room enters at its end and drops nothing. -/
def Obligations.FullQueueDropsOldest : Prop :=
  ∀ (l : Live) (r : EventRec),
    (l.host.evq.length = 256 →
      (l.enterHost r).host.evq = l.host.evq.drop 1 ++ [r] ∧
      (l.enterHost r).host.headSeq = (l.host.headSeq + 1) % 65536 ∧
      (l.enterHost r).host.drops = min 0xFFFF (l.host.drops + 1)) ∧
    (l.host.evq.length < 256 →
      (l.enterHost r).host.evq = l.host.evq ++ [r] ∧ (l.enterHost r).host.headSeq = l.host.headSeq ∧
      (l.enterHost r).host.drops = l.host.drops)

/-- A command that ends in a host mailbox leaves it DONE with EVENT_N low: OPC, TAG and IFV echoed, DEV the position that
answered, RESP set and STAGE as sent, LEN, STATUS and DETAIL, the payload, and zeros beyond it (R76, R77). -/
def Obligations.CompletionFrame : Prop :=
  ∀ (l : Live) (n : Nat) (b : Mailbox) (st : Status) (d : Nat) (p : List Byte),
    l.host.mb[n]? = some b → b.st = .busy → b.bytes.length = 512 → b.dev ≠ 0x7F → p.length ≤ 496 →
    l.link.gathers.any (fun g => g.owner == MbRef.host n) = false →
    ∃ c, (l.complete (.host n) st d p).host.mb[n]? = some c ∧ (l.complete (.host n) st d p).host.eventLow = true ∧
      c.st = .done ∧ c.bytes.length = 512 ∧ c.bytes.take 4 = b.bytes.take 4 ∧ rd c.bytes 4 2 = p.length ∧
      byteAt c.bytes 6 = l.link.position % 256 ∧ byteAt c.bytes 7 = byteAt b.bytes 7 ∧
      rd c.bytes 8 2 = byteAt b.bytes 8 % 2 + 0x8000 ∧ byteAt c.bytes 10 = st.code ∧ byteAt c.bytes 11 = d % 256 ∧
      (c.bytes.drop 16).take p.length = p ∧ allZero (c.bytes.drop (16 + p.length)) = true ∧
      ∀ k, k ≠ n → (l.complete (.host n) st d p).host.mb[k]? = l.host.mb[k]?

/-- Presence: the button proven within its window admits the command that waits and reports it; 30 s without it end the
command with PRESENCE_REQUIRED; an opening of the seal loop is logged, reported and gives seal presence.
Completion: exec answers a next state, each row under the conditions it names, for PRESENCE_BUTTON_PROVEN, SEAL_TEST,
PRESENCE_TIMEOUT. -/
def Obligations.Presence : Prop :=
  (∀ (t : Nat) (s : State) (w : PresenceWait), s.live.waiting = some w → ms 2000 ≤ t →
    w.since + ms 2000 ≤ s.live.mt.now → s.live.mt.now ≤ w.since + ms 30000 →
    exec (.presenceButtonProven t) s = .next (s.onLive fun l =>
      (l.clearPresence.raise 0x013 notice 0 (le 2 w.opc)).setStage w.m .admitted)) ∧
  (∀ (s : State) (w : PresenceWait), s.live.waiting = some w → w.since + ms 30000 ≤ s.live.mt.now →
    exec .presenceTimeout s = .next (s.onLive fun l => l.clearPresence.complete w.m .presenceRequired 0 [])) ∧
  (∀ (k : Nat) (s : State), s.live.commandLayer = true →
    ∃ t, exec (.sealTest k) s = .next t ∧ t.live.host.sealOpen = decide (10 < k) ∧
      t.live.host.sealKohm = (if 1000 < k then 0xFFFF else k) ∧
      t.kept.cells = (if 10 < k ∧ s.live.host.sealOpen = false then s.kept.cells.sealOpened s.live.mt.now else s.kept.cells))

/-- The service UART: a frame with a bad CRC and one broken off are answered with a reject frame CRC_ERROR and counted as UART
errors; while the mailbox is busy a command frame is answered MB_BUSY; a command frame opens the session and is rung in the
UART's mailbox; 10 s without one close the session.
Relayed commands: an acknowledgement marks the message that travels; a request that has neither been acknowledged within 8
cycles nor been resent twice is sent again, and after two resends it ends with TIMEOUT.
Completion: exec answers a next state, each row under the conditions it names, for SERVICE_UART_FRAME, UART_BYTE_GAP,
RELAY_ACK_TIMEOUT, UART_SESSION_CLOSE, RELAYED_MESSAGE. -/
def Obligations.ServiceAndRelayedCommands : Prop :=
  (∀ (g : Nat) (s : State), s.live.uartAnswers = true → ms 1 < g →
    exec (.uartByteGap g) s = .next (s.onLive fun l => (l.hifError 2 0).uartReject 0xA1)) ∧
  (∀ (body : List Byte) (s : State), s.live.uartAnswers = true → body.length < 65536 → 16 ≤ body.length →
    (s.live.host.uart.st ≠ .free → exec (.serviceUartFrame (uartFrame 1 body)) s = .next (s.onLive fun l =>
      ({ l with host := { l.host with uartOpen := true, uartLast := l.mt.now } } : Live).uartReject 0xA2)) ∧
    (s.live.host.uart.st = .free → s.live.uartAccepts (rd body 0 2) = true →
      exec (.serviceUartFrame (uartFrame 1 body)) s = .next (State.accept (s.onLive fun l =>
        ({ l with host := { l.host with uartOpen := true, uartLast := l.mt.now } } : Live).ring .uart (requestBytes body))
          .uart (body.length == 16 + rd body 4 2)))) ∧
  (∀ s : State, s.live.host.uartOpen = true → s.live.host.uartLast + ms 10000 ≤ s.live.mt.now →
    exec .uartSessionClose s = .next (s.onLive fun l =>
      { l with host := { l.host with uartOpen := false, svcq := [] } })) ∧
  (∀ (m : LinkMsg) (rest : List LinkMsg) (s : State), s.live.commandLayer = true → s.live.link.inbox = m :: rest → m.type = 3 →
    exec .relayedMessage s = .next (s.onLive fun l => l.setLink fun k => { k with
      inbox := rest, out := k.out.map fun (o : OutMsg) => if o.mseq == m.mseq then { o with acked := true } else o })) ∧
  (∀ (q : Nat) (o : OutMsg) (s : State), s.live.sup.phase = .running →
    (s.live.link.out.find? fun (x : OutMsg) => x.mseq == q) = some o → o.acked = false →
    o.sentCycle + 8 ≤ s.live.cycleNo →
    (2 ≤ o.resends → exec (.relayAckTimeout q) s = .next (s.onLive fun l => l.relayTimeout o)) ∧
    (o.resends < 2 → ∃ t, exec (.relayAckTimeout q) s = .next t ∧ t.kept = s.kept ∧ t.live.host = s.live.host ∧
      t.live.link.out = s.live.link.out.map fun (x : OutMsg) => if x.mseq == q
        then { o with resends := o.resends + 1, sentCycle := s.live.cycleNo } else x))

/-! ### System commands, supervision and restarts (19_supervision_resets_guarantees.md) -/

/-- SYS.PING gives its payload back; SYS.TIME gives MT with its source; SYS.HEALTH and SYS.IDENTITY give their records.  None
of them changes anything but its mailbox.
SYS.RESET, SYS.SUPERVISE and PRIV.TESTMODE with legal fields: a reset of scope logic is ordered for 2 ms later with cause 6
when the command came over the link and 5 otherwise, one of scope F1 starts F1 afresh; both are refused with STATE in DRAIN;
supervision takes its new configuration; test modes need RETURNED and are refused with LOCKED elsewhere.
Completion: exec answers a next state, each row under the conditions it names, for SYS_PING, SYS_TIME, SYS_RESET,
SYS_SUPERVISE, SYS_HEALTH, SYS_IDENTITY, PRIV_TESTMODE. -/
def Obligations.SystemCommands : Prop :=
  (∀ m b s, Waits s 0x0101 m b → exec .sysPing s = .next (s.answer m .ok 0 b.payload)) ∧
  (∀ m b s, Waits s 0x0102 m b → ∃ p, exec .sysTime s = .next (s.answer m .ok 0 p) ∧ p.length = 12 ∧
    p.take 8 = le 8 s.live.mt.now ∧ byteAt p 8 = s.live.mt.source.code ∧ byteAt p 9 = s.live.link.position % 256) ∧
  (∀ m b s, Waits s 0x0106 m b → ∃ p, exec .sysHealth s = .next (s.answer m .ok 0 p) ∧ p.length = 24 ∧
    byteAt p 0 = s.live.sup.cause % 256 ∧ byteAt p 1 = s.live.sup.subcause % 256 ∧ byteAt p 4 = s.live.sup.anvil % 256 ∧
    (p.drop 8).take 8 = le 8 s.live.sup.resetMt ∧ (p.drop 16).take 4 = le 4 s.live.sup.restarts) ∧
  (∀ m b s, Waits s 0x0107 m b → exec .sysIdentity s = .next (s.answer m .ok 0 s.kept.identity) ∧ s.kept.identity.length = 64) ∧
  (∀ m b s, Waits s 0x0104 m b → byteAt b.payload 0 ≤ 1 → byteAt b.payload 1 ≤ 2 →
    (byteAt b.payload 0 = 1 → byteAt b.payload 1 = 0) → (resv b 2 2).2 = true →
    (s.live.pwr.mode = .drain → exec .sysReset s = .next (s.answer m .state 0 [])) ∧
    (s.live.pwr.mode ≠ .drain → (byteAt b.payload 0 = 1 → s.kept.activePresent 1 = true) →
      (s.live.fwu.session.isSome ∨ s.kept.cells.journal.isSome) → exec .sysReset s = .next (s.answer m .busy 0 [])) ∧
    (s.live.pwr.mode ≠ .drain → s.live.fwu.session = none → s.kept.cells.journal = none →
      (byteAt b.payload 0 = 0 → exec .sysReset s = .next (s.ends m (okReply, { s.live with sup := { s.live.sup with
        ordered := some { cause := if isRelay m then 6 else 5, mode := byteAt b.payload 1, at_ := s.live.mt.now } } }))) ∧
      (byteAt b.payload 0 = 1 → s.kept.activePresent 1 = true → exec .sysReset s = .next (s.endsK m
        (okReply, (s.onLive fun l => { l with sup := { l.sup with f1Held := false } }).restartF1))))) ∧
  (∀ m b s, Waits s 0x0105 m b → bit (byteAt b.payload 0) 0 = false → byteAt b.payload 1 ≤ 1 →
    (rd b.payload 2 2 = 0 ∨ inRange 10 10000 (rd b.payload 2 2) = true) → byteAt b.payload 4 ≤ 15 → (resv b 5 1).2 = true →
    rd b.payload 6 2 ≤ 3600 → exec .sysSupervise s = .next (s.ends m (({ s.live with sup := { s.live.sup with cfg :=
      { adopt := byteAt b.payload 0, f1HbMs := rd b.payload 2 2, f1Restarts := byteAt b.payload 4,
        orphanOffS := rd b.payload 6 2 } } } : Live).endConfig m (bit (byteAt b.payload 1) 0) 0x0105 0 b.payload))) ∧
  (∀ m b s, Waits s 0x7F01 m b → inRange 1 15 (byteAt b.payload 0) = true → (resv b 1 3).2 = true →
    (s.kept.cells.lcs ≠ 3 → s.live.sup.testMode = 0 →
      exec .privTestmode s = .next (s.answer m .locked 0 [])) ∧
    (s.kept.cells.lcs = 3 → ecdsaVerify Config.returnKey ((b.payload.drop 4).take 64)
        (authDigest "ZZ-TEST" s.live.key.tnonce (le 1 (byteAt b.payload 0))) = true →
      ∃ t, exec .privTestmode s = .next t ∧ t.live.sup.testMode = byteAt b.payload 0 ∧
        t.kept.cells.testLog = s.kept.cells.testLog ++ [s.live.mt.now]))

/-- Supervision of F1 and Anvil (R507, R508): F1 is stopped when it has not written HEARTBEAT for F1_HB_MS and starts again
10 ms after its stop; Anvil is reset when its heartbeat is 10 ms old or at a double fault, and runs again after 2 ms.
Clock checks and island resets (R509, R510): a new fault of BUS to RANGE raises EV_SUP_CLOCK and is noted, its end as
well; a fault of CORE asserts the logic reset line, one of ANVIL resets Anvil; an island with a clock fault is restarted.
Hours and the restart after an update: a whole hour of RUN or PARK adds 1 to its counter through the write queue; of the
gate checks 100 ms apart the first that nothing holds back restarts the logic with cause 4, and after 60 s they end.
Completion: exec answers a next state, each row under the conditions it names, for CLOCK_CHECK, ISLAND_RESET, HOURS_INCREMENT,
RESTART_GATE_CHECK, F1_HEARTBEAT_TIMEOUT, F1_RESTART, ANVIL_TIMEOUT, ANVIL_RESET_DONE, ANVIL_DOUBLE_FAULT. -/
def Obligations.SupervisionAndClocks : Prop :=
  (∀ s : State, s.live.sup.phase = .running → s.live.sup.cfg.f1HbMs ≠ 0 → s.live.sup.anvil = 0 → s.live.f1.run = .running →
    s.live.sup.hbF1 + ms s.live.sup.cfg.f1HbMs ≤ s.live.mt.now →
    exec .f1HeartbeatTimeout s = .next (s.onLive fun l => l.f1Stop 0) ∧ (s.live.f1Stop 0).f1.run = .stopped) ∧
  (∀ s : State, s.live.sup.phase = .running → s.live.f1.run = .stopped → s.live.sup.f1Held = false →
    s.live.sup.f1StopAt + ms 10 ≤ s.live.mt.now →
    exec .f1Restart s = .next (s.onLive fun l =>
      ({ l with sup := { l.sup with f1RestartMts := l.mt.now :: l.f1Recent } } : Live).raise 0x1D1 warn 2
        (le 4 l.f1.pc ++ le 1 (l.f1Recent.length + 1))).restartF1) ∧
  (∀ s : State, s.live.sup.phase = .running → s.live.sup.anvil = 0 →
    (s.live.sup.hbAnvil + ms 10 ≤ s.live.mt.now → exec .anvilTimeout s = .next (s.onLive fun l => l.anvilReset 0)) ∧
    exec .anvilDoubleFault s = .next (s.onLive fun l => l.anvilReset 1) ∧
    ((s.live.sup.anvilResets.filter fun t => decide (s.live.mt.now < t + ms 10000)).length < 2 →
      (s.live.anvilReset 1).sup.anvil = 1) ∧
    (2 ≤ (s.live.sup.anvilResets.filter fun t => decide (s.live.mt.now < t + ms 10000)).length →
      (s.live.anvilReset 1).sup.anvil = 2)) ∧
  (∀ s : State, s.live.sup.phase = .running → s.live.sup.anvil = 1 → s.live.sup.anvilAt + ms 2 ≤ s.live.mt.now →
    exec .anvilResetDone s = .next (s.onLive fun l => { l with sup := { l.sup with anvil := 0, hbAnvil := l.mt.now } })) ∧
  (∀ (i : Nat) (dev : Int) (s : State), s.live.sup.phase = .running → i ≤ 8 → s.live.sup.anvil = 0 →
    s.live.sup.clockFault.contains i ≠ s.live.clockBad i dev →
    (s.live.clockBad i dev = false ∨ 2 ≤ i → exec (.clockCheck i dev) s = .next (s.onLive fun l =>
      l.clockEvent i dev (s.live.clockBad i dev))) ∧
    (s.live.clockBad i dev = true → i = 0 → s.live.resettable = true → exec (.clockCheck i dev) s =
      .next ((s.onLive fun l => l.clockEvent 0 dev true).resetIf true 3 1)) ∧
    (s.live.clockBad i dev = true → i = 1 → exec (.clockCheck i dev) s =
      .next (s.onLive fun l => (l.clockEvent 1 dev true).anvilReset 2))) ∧
  (∀ (i : Nat) (s : State), s.live.sup.phase = .running → s.live.sup.anvil = 0 → s.live.islandDown i = false →
    s.live.sup.clockFault.contains i = true →
    (i = 0 → exec (.islandReset i 0) s = .next (s.resetIf true 3 0)) ∧
    (i = 1 → exec (.islandReset i 0) s = .next (s.onLive fun l => l.anvilReset 0)) ∧
    (i = 2 ∨ i = 3 ∨ i = 4 ∨ i = 7 → ∃ t, exec (.islandReset i 0) s = .next t ∧ t.kept = s.kept ∧
      t.live.islandDown i = true ∧ t.live.mt = s.live.mt ∧ t.live.plan.stand = s.live.plan.stand)) ∧
  (∀ (park : Bool) (s : State), s.live.sup.phase = .running →
    hourNs ≤ (if park then s.live.countTime.sup.parkPart else s.live.countTime.sup.runPart) →
    exec (.hoursIncrement park) s = .next (s.onLive fun l => ({ l.countTime with sup := { l.countTime.sup with
      runPart := if park then l.countTime.sup.runPart else l.countTime.sup.runPart - hourNs,
      parkPart := if park then l.countTime.sup.parkPart - hourNs else l.countTime.sup.parkPart } } : Live).enqueue
        (.add (if park then 15 else 14) 1) none [] false)) ∧
  (∀ (kind start last : Nat) (s : State), s.live.sup.phase = .running → (s.live.fwu.expired = false ∨ s.kept.assay = none) →
    s.live.fwu.restart = some (start, last) → s.kept.updPending = some kind → last + ms 100 ≤ s.live.mt.now →
    (gateDetail kind s.live.gates = none → exec .restartGateCheck s = .next (s.resetIf true 4 0)) ∧
    (gateDetail kind s.live.gates ≠ none → s.live.mt.now < start + ms 60000 → exec .restartGateCheck s =
      .next (s.onLive fun l => { l with fwu := { l.fwu with restart := some (start, l.mt.now) } })) ∧
    (gateDetail kind s.live.gates ≠ none → start + ms 60000 ≤ s.live.mt.now → exec .restartGateCheck s =
      .next (s.onLive fun l => ({ l with fwu := { l.fwu with restart := none } } : Live).installEvent 3 kind l.gates
        s.kept.stagedVersion)))

/-- Who asserts the logic reset line, and with which cause (R46, R506, R509, R511, R524): each asserts it where its condition
holds and a logic reset can occur, and an ordered reset 2 ms after its command.
Failed restarts and LIMP (R516, R517): a start that has not brought READY_N low in time is counted once; the third within
10 s leads to LIMP, unless an image is pending Assay; HWAKE_N held low for 100 ms leaves LIMP by a restart of cause 7 and
clears the record.
Completion: exec answers a next state, each row under the conditions it names, for LIMP_EXIT, BROWNOUT, LOGIC_RAIL_HIGH,
LOGIC_RESET, SYS_RESET_ASSERT, ANVIL_F0_TIMEOUT, BACKSTOP_EXPIRY, FAILED_RESTART_TIMEOUT. -/
def Obligations.ResetAndLimp : Prop :=
  (∀ s : State, s.live.resettable = true →
     (s.live.sup.phase = .running → s.live.sup.anvil = 0 → s.live.sup.hbF0 + ms 10 ≤ s.live.mt.now →
       exec .anvilF0Timeout s = .next (s.assertReset 3 0)) ∧
     (s.live.sup.service + ms 50 ≤ s.live.mt.now → exec .backstopExpiry s = .next (s.assertReset 2 0)) ∧
     (∀ mv t, s.live.sup.anvil = 0 → 1100 < mv → us 10 ≤ t → exec (.logicRailHigh mv t) s = .next (s.assertReset 3 2)) ∧
     (∀ o : OrderedReset, s.live.sup.ordered = some o → o.at_ + ms 2 ≤ s.live.mt.now →
       exec .sysResetAssert s = .next (s.assertReset o.cause 0)) ∧
     (∀ mv, s.live.pwr.holdup = true → mv ≤ 9000 → exec (.brownout mv) s = .next ((s.assertReset 1 0).onLive fun l =>
       { l with pwr := { l.pwr with vholdMv := mv }, led := { l.led with pages := [], page := 0xFF } })) ∧
     (∀ c sub d, inRange 2 4 c = true → exec (.logicReset c sub d) s = .next ((s.assertReset c sub).runStart d))) ∧
  (∀ s : State, s.live.sup.phase = .firmware → s.live.resettable = true → s.live.sup.counted = false → 2 ≤ s.live.sup.cause →
    s.live.sup.resetMt + us 100 + ms 200 ≤ s.live.mt.now →
    ∃ t, exec .failedRestartTimeout s = .next t ∧ t.kept = s.kept ∧ t.live.sup.failed = s.live.mt.now :: s.live.failedNow ∧
      t.live.sup.counted = true ∧
      t.live.pwr.mode = (if s.live.failedNow.length < 2 ∨ s.kept.assay.isSome then s.live.pwr.mode else .limp)) ∧
  (∀ (t : Nat) (s : State), s.live.pwr.mode = .limp → s.live.pwr.powered = true → ms 100 ≤ t →
    exec (.limpExit t) s = .next ((s.assertReset 7 0).onLive fun l => { l with sup := { l.sup with failed := [] } }))

/-- What the assertion of the line leaves (R77, R511 to R514): mailboxes FREE, the event queues empty, READY_N high, no
stream of commands; F1 halted; both dies in orphan mode; the cause, the MT and the count of restarts noted; what is kept
without power kept, but for a write unit that had started, which is finished. -/
def Obligations.ResetLeaves : Prop :=
  ∀ (c sub : Nat) (s : State) (d0 d1 : DieState), s.live.load.dies = [d0, d1] →
    let t := s.assertReset c sub
    t.live.sup.phase = .reset ∧ t.live.sup.resetLine = true ∧ t.live.sup.cause = c ∧ t.live.sup.subcause = sub ∧
    t.live.sup.resetMt = s.live.mt.now ∧ t.live.sup.restarts = (s.live.sup.restarts + 1) % 2 ^ 32 ∧
    t.live.host.mb = List.replicate 8 Mailbox.empty ∧ t.live.host.lmb = List.replicate 8 Mailbox.empty ∧
    t.live.host.evq = [] ∧ t.live.host.f1q = [] ∧ t.live.host.staged = [] ∧ t.live.host.readyLow = false ∧
    t.live.f1.run = .halted ∧ t.live.f1.dmem = s.live.f1.dmem ∧
    (∀ d ∈ t.live.load.dies, d.orphan = true) ∧ t.live.param.active = none ∧
    t.pending = s.pending ∧ (s.live.param.active = none → t.kept = s.kept)

/-- Power: without it every register of the module is as before the first start; VBAT_L above 6.0 V starts a module without
power with its kept configuration, and one that waits in a brown-out.
The boot ROM (R462 to R467, R411, R523): a test mode leads to the monitor, a retired part answers on its UART only, three
failed restarts lead to LIMP, a good foundry image starts with the line released, a bad one calls for its fallback; in RECOVERY
an image that fails its checks empties STAGING.
Completion: exec answers a next state, each row under the conditions it names, for POWER_ON, BOOT_DECISION, POWER_REMOVED. -/
def Obligations.PowerOnAndBoot : Prop :=
  (∀ s : State, s.live.pwr.powered = true → ∃ t, exec .powerRemoved s = .next t ∧ t.kept = s.kept ∧
    t.live.pwr = PwrState.init ∧ t.live.host = HostState.init ∧ t.live.mt = MtState.init ∧ t.live.f1 = F1State.init ∧
    t.live.load = LoadState.init ∧ t.live.key.challenges = [] ∧
    (s.live.pwr.mode ≠ .limp → t.live.sup = SupState.init)) ∧
  (∀ (d : StartData) (s : State), 6000 < d.mv.getD 4 0 →
    (s.live.pwr.powered = false → exec (.powerOn d) s = .next ((s.powerUp d).runStart d)) ∧
    (s.live.pwr.powered = true → s.live.pwr.holdup = true → s.live.sup.phase = .reset → s.live.sup.cause = 1 →
      exec (.powerOn d) s = .next ((s.onLive fun l => { l with pwr := { l.pwr with holdup := false } }).runStart d))) ∧
  (∀ (d : StartData) (s : State), s.live.pwr.powered = true → s.live.pwr.holdup = false →
     (s.live.sup.phase = .reset → s.live.sup.testMode ≠ 0 → ∃ t, exec (.bootDecision d) s = .next t ∧ t.kept = s.kept ∧
       t.live.sup.phase = .monitor ∧ t.live.sup.resetLine = false) ∧
     (s.live.sup.phase = .reset → s.live.sup.testMode = 0 → s.kept.cells.lcs = 4 → ∃ t, exec (.bootDecision d) s = .next t ∧
       t.kept = s.kept ∧ t.live.sup.phase = .retired ∧ t.live.sup.resetLine = false) ∧
     (s.live.sup.phase = .reset → s.live.sup.testMode = 0 → s.kept.cells.lcs ≠ 4 → instJournal s.kept.store = none →
       let s' := s.onLive fun l => l.measured d
       s'.assayLost = false →
       (3 ≤ s'.live.failedNow.length → exec (.bootDecision d) s = .next (s'.onLive Live.enterLimp)) ∧
       (s'.live.failedNow.length < 3 → s.kept.updPending = none → s'.foundryGood = true →
         exec (.bootDecision d) s = .next s'.startFirmware) ∧
       (s'.live.failedNow.length < 3 → s.kept.updPending = none → s'.foundryGood = false →
         exec (.bootDecision d) s = .next (s'.journal s'.kept (some (fallbackJournal 0 2)))) ∧
       (∀ kind, s'.live.failedNow.length < 3 → s.kept.updPending = some kind →
         exec (.bootDecision d) s = .next (s'.beginInstall d kind))) ∧
     (∀ kind c, s.live.sup.phase = .recovery → s.kept.updPending = some kind → s.stagedBad kind = some c →
       exec (.bootDecision d) s = .next (({ s with kept := s.kept.stagingEmpty } : State).onLive fun l =>
         l.installEvent c kind 0 s.kept.stagedVersion)))

/-- Adoption (R154 to R159): a die that cannot be read, or is not reached, is left with EV_SUP_DIE_UNADOPTED cause 0; one whose
state-change counter has moved since it was read refuses the heartbeat and is tried again, and left with cause 1 at its third
refusal; any other is taken.  The three rows apply these rules to a die in orphan mode; while the logic runs, a die that is taken
brings a new generation.
Completion: exec answers a next state, each row under the conditions it names, for ADOPTION, ADOPTION_RETRY, UNADOPTED_RETRY. -/
def Obligations.AdoptionOfDies : Prop :=
  (∀ (l : Live) (st : Memory) (d : Nat) (r : DieRead), d < l.load.dies.length →
    (r.readable = false ∨ l.dieCut d = true → l.tryDie st d r = l.leaveDie d 0) ∧
    (r.readable = true → l.dieCut d = false → r.moved = 0 → l.tryDie st d r = (l.readDie d r).takeDie st d r) ∧
    (r.readable = true → l.dieCut d = false → r.moved ≠ 0 → 2 ≤ (l.die d).tries →
      l.tryDie st d r = (l.readDie d r).leaveDie d 1) ∧
    (r.readable = true → l.dieCut d = false → r.moved ≠ 0 → (l.die d).tries < 2 → l.tryDie st d r =
      l.setDie d fun x => { x with readChanges := x.changes, changes := x.changes + r.moved, tries := x.tries + 1, lastTry := l.mt.now })) ∧
  (∀ (l : Live) (d : Nat), d < l.sup.unadopted.length → d < l.load.dies.length →
    (l.leaveDie d 0).dieUnadopted d = true ∧ ((l.leaveDie d 0).die d).tries = 0 ∧ ((l.leaveDie d 0).die d).orphan = (l.die d).orphan) ∧
  (∀ (x : StartData) (s : State), s.live.sup.phase = .running → (s.live.die 0).orphan = true → (s.live.die 1).orphan = false →
    s.live.dieWaits 0 = false → s.live.dieUnadopted 0 = false →
    ((s.live.tryDie s.kept.store 0 (dieRead x 0)).die 1).orphan = false →
    exec (.adoption x) s = .next (s.onLive fun l => l.generationFor (l.tryDie s.kept.store 0 (dieRead x 0)))) ∧
  (∀ (x : StartData) (s : State), s.live.sup.phase = .firmware → s.live.dieWaits 0 = false → s.live.dieWaits 1 = false →
    exec (.adoption x) s = .next (s.adoptAll x)) ∧
  (∀ (d : Die) (r : DieRead) (s : State), s.live.dieWaits (dieIndex d) = true → s.live.sup.phase = .running →
    exec (.adoptionRetry d r) s = .next (s.onLive fun l => l.generationFor (l.tryDie s.kept.store (dieIndex d) r))) ∧
  (∀ (d : Die) (r : DieRead) (s : State), s.live.sup.phase = .running → s.live.dieUnadopted (dieIndex d) = true →
    (s.live.die (dieIndex d)).lastTry + ms 100 ≤ s.live.mt.now → dieIndex d < s.live.load.dies.length →
    (r.readable = true → s.live.dieCut (dieIndex d) = false → r.moved = 0 →
      exec (.unadoptedRetry d r) s = .next (s.onLive fun l =>
        l.generationFor (((l.readDie (dieIndex d) r).takeDie s.kept.store (dieIndex d) r).raise 0x1D5 notice 2 (le 1 (dieIndex d))))) ∧
    (r.readable = false ∨ s.live.dieCut (dieIndex d) = true ∨ r.moved ≠ 0 → exec (.unadoptedRetry d r) s = .next (s.onLive fun l =>
      l.setDie (dieIndex d) fun x =>
        { x with readChanges := x.changes, changes := x.changes + r.moved, lastTry := l.mt.now }))) ∧
  (∀ l l' : Live, (∀ d, d < 2 → (l.die d).orphan = false ∨ (l'.die d).orphan = true) → l.generationFor l' = l') ∧
  (∀ l : Live, l.newGeneration.plan.stand = l.plan.want ∧ l.newGeneration.plan.gen = (l.plan.gen + 1) % 2 ^ 32)

/-! ### Supplies, modes, sag and time (01_module_architecture.md, 02_supplies_modes_sag.md) -/

/-- PWR.PARK in RUN with legal fields: it arms the wake sources that it names and enters DRAIN, where the host may not while a
door valve is held (STATE 2) or a ring votes (STATE 1); in any mode but RUN and a commit window it is refused with STATE.
The drain steps of R51, each at its time after the one before: outputs off, forced off, the save, arming, PARK with the
logic off.
Wake sources (R49 to R52): one that may fire starts WAKE-CHECK in PARK, joins the latched ones in WAKE-CHECK, and in DRAIN
aborts it before step 4, with an ALIVE, and is latched as late after; HWAKE_N is source 5; a wake from PARK also tests the seal.  A latched source that is validated enters RUN and
starts F1; WAKE_CHECK_MAX without one leads back to PARK.
Wake inputs (R268 to R272): a poll in PARK takes the reading and makes an armed input at its firing level a candidate; a
poll in WAKE-CHECK counts a candidate's readings at that level and ends it at the other; a poll in RUN takes the reading and
moves the filter.
Completion: exec answers a next state, each row under the conditions it names, for WAKE_SOURCE_FIRE, WAKE_VALIDATED,
HWAKE_N_LOW, DRAIN_MAX_EXPIRY, WAKE_POLL_PARK, WAKE_QUALIFY_POLL, WAKE_POLL_RUN, PWR_PARK, DRAIN_OUTPUTS_OFF, DRAIN_SAVE,
DRAIN_ARM, PARK_ENTRY, WAKE_CHECK_MAX_EXPIRY. -/
def Obligations.ParkDrainAndWake : Prop :=
  (∀ m b s, Waits s 0x0203 m b → byteAt b.payload 0 &&& 0x7F ≠ 0 → byteAt b.payload 1 < 16 → byteAt b.payload 8 ≤ 1 →
     (s.live.pwr.mode = .wakeCheck → exec .pwrPark s = .next (s.answer m .state 0 [])) ∧
     (s.live.pwr.mode = .run → s.live.doorHeld = true → exec .pwrPark s = .next (s.answer m .state 2 [])) ∧
     (s.live.pwr.mode = .run → s.live.doorHeld = false → s.live.nm.cfg.on = true → byteAt b.payload 8 = 0 →
       exec .pwrPark s = .next (s.answer m .state 1 [])) ∧
     (s.live.pwr.mode = .run → (s.live.nm.cfg.on = false ∨ byteAt b.payload 8 = 1) → s.live.doorHeld = false →
       exec .pwrPark s = .next (s.ends m (okReply, (s.live.setWake fun w => { w with
         mask := byteAt b.payload 0 ||| 0x80, canMask := byteAt b.payload 1, wkMask := rd b.payload 2 2,
         alarmS := rd b.payload 4 4, force := byteAt b.payload 8 == 1 }).drainEntry)))) ∧
  (∀ s : State, s.live.sup.phase = .running → s.live.pwr.mode = .drain →
     (s.live.pwr.drain.step = 1 → ms 1 ≤ s.live.sinceStep →
       exec .drainOutputsOff s = .next (s.onLive fun l => l.outputsOff.setDrain 2)) ∧
     (s.live.pwr.drain.step = 2 →
       (s.live.pwr.drain.entry + ms s.live.pwr.cfg.drainMax ≤ s.live.mt.now ∨ s.live.allOff = true) →
       exec .drainMaxExpiry s = .next (s.onLive fun l =>
         (l.forceOff.setDrain 3).persistOwn 0x4405 0 (l.nm.fwTotal.flatMap (le 2)))) ∧
     (s.live.pwr.drain.step = 3 → ms 1 ≤ s.live.sinceStep → s.live.nm.byRing = false →
       ∃ t, exec .drainSave s = .next t ∧ t.kept = s.kept ∧ t.live.pwr.drain.step = 4 ∧ t.live.pwr.drain.at_ = s.live.mt.now ∧
         t.live.link.parkTx = some (s.live.mt.now + ms 1) ∧ (∀ p ∈ t.live.link.ports, p.quiet = true) ∧
         t.live.shadowBusy = true ∧ t.live.pwr.mode = .drain) ∧
     (s.live.pwr.drain.step = 4 → ms 5 ≤ s.live.sinceStep → s.live.shadowBusy = false →
       ∃ t, exec .drainArm s = .next t ∧ t.kept = s.kept ∧ t.live.pwr.drain.step = 5 ∧ t.live.pwr.v5On = false) ∧
     (s.live.pwr.drain.step = 5 → ms 1 ≤ s.live.sinceStep →
       ∃ t, exec .parkEntry s = .next t ∧ t.kept = s.kept ∧ t.live.pwr.mode = .park ∧ t.live.sup.phase = .off ∧
         t.live.f1.run = .halted ∧ t.live.pwr.wake.parkAt = s.live.mt.now ∧ t.live.pwr.wake.latched = 0 ∧
         t.live.host.readyLow = false)) ∧
  (∀ (src idx : Nat) (x : WakeData) (s : State), s.live.mayFire src idx = true →
    (s.live.pwr.mode = .park → exec (.wakeSourceFire src idx x) s =
      .next ((s.onLive fun l => l.wakeCheck src idx x.tj x.vholdMv).sealTest x.sealKohm)) ∧
    (s.live.pwr.mode = .wakeCheck → s.live.sup.phase = .running →
      exec (.wakeSourceFire src idx x) s = .next (s.onLive fun l => l.latchSource src idx)) ∧
    (s.live.pwr.mode = .drain → s.live.sup.phase = .running → s.live.pwr.drain.step < 4 → s.live.nm.byRing = false →
      exec (.wakeSourceFire src idx x) s = .next (s.onLive fun l => (l.drainAbort src).sendAlive)) ∧
    (s.live.pwr.mode = .drain → s.live.sup.phase = .running → 4 ≤ s.live.pwr.drain.step → s.live.pwr.wake.late = false →
      exec (.wakeSourceFire src idx x) s = .next (s.onLive fun l => (l.setWake fun w => { w with late := true }).setNm fun n =>
        { n with lateAt := l.mt.now, lateSrc := src }))) ∧
  (∀ (x : WakeData) (s : State), s.live.pwr.mode = .park → bit s.live.pwr.wake.mask 5 = true →
    exec (.hwakeNLow x) s = .next ((s.onLive fun l => l.wakeCheck 5 0 x.tj x.vholdMv).sealTest x.sealKohm)) ∧
  (∀ (src idx : Nat) (tj : List Int) (mv : Nat) (l : Live), (l.wakeCheck src idx tj mv).pwr.mode = .wakeCheck ∧
    (l.wakeCheck src idx tj mv).sup.phase = .running ∧ (l.wakeCheck src idx tj mv).pwr.vholdMv = mv) ∧
  (∀ (src idx : Nat) (s : State), s.live.sup.phase = .running → s.live.pwr.mode = .wakeCheck →
    bit s.live.pwr.wake.latched src = true → s.live.validated src idx = true →
    exec (.wakeValidated src idx) s = .next (s.onLive fun l =>
      (if src = 0 then l.wkEvent idx notice 1 (l.wkIn idx).closed else l).enterRun idx).startF1) ∧
  (∀ s : State, s.live.sup.phase = .running → s.live.pwr.mode = .wakeCheck →
    s.live.pwr.wake.checkAt + ms s.live.pwr.cfg.wakeCheckMax ≤ s.live.mt.now →
    ∃ t, exec .wakeCheckMaxExpiry s = .next t ∧ t.kept = s.kept ∧ t.live.pwr.mode = .park ∧ t.live.sup.phase = .off ∧
      t.live.pwr.wake.latched = 0 ∧ t.live.pwr.wake.indices = [] ∧ t.live.host.readyLow = false) ∧
  (∀ (n mv : Nat) (s : State), n < s.live.fio.wk.length → s.live.wkEnabled n = true → s.live.pwr.mode = .park →
    (s.live.wkIn n).polledAt + ms (s.live.parkInterval n) ≤ s.live.mt.now →
    ∃ t, exec (.wakePollPark n mv) s = .next t ∧ t.kept = s.kept ∧ t.live.host = s.live.host ∧ t.live.pwr = s.live.pwr ∧
      (let w := s.live.wkIn n
       let r := w.read w.inForce mv
       (t.live.wkIn n).closed = r ∧ (t.live.wkIn n).mv = mv ∧ (t.live.wkIn n).polledAt = s.live.mt.now ∧
       (t.live.wkIn n).cand = if w.armed && w.fires w.inForce r then max 1 w.cand else w.cand)) ∧
  (∀ (n mv : Nat) (s : State), s.live.sup.phase = .running → n < s.live.fio.wk.length → s.live.wkEnabled n = true →
    s.live.pwr.mode = .wakeCheck → (s.live.wkIn n).polledAt + ms 4 ≤ s.live.mt.now →
    ∃ t, exec (.wakeQualifyPoll n mv) s = .next t ∧ t.kept = s.kept ∧
      (let w := s.live.wkIn n
       let r := w.read w.inForce mv
       (t.live.wkIn n).closed = r ∧
       (t.live.wkIn n).cand = if w.fires w.inForce r then (if w.armed then w.cand + 1 else 0) else 0)) ∧
  (∀ (n mv : Nat) (s : State), n < s.live.fio.wk.length → n ≤ 15 → s.live.pwr.mode = .run →
    ∃ t, exec (.wakePollRun n mv) s = .next t ∧ t.kept = s.kept ∧
      (t.live.wkIn n).closed = (s.live.wkIn n).read (s.live.wkIn n).cfg mv ∧ (t.live.wkIn n).mv = mv ∧
      (t.live.wkIn n).fresh = false)

/-- Sags (R54, R55, R58, R59): one starts where a condition holds and steps the CORE clock down; one that starts during the undoing
carries its start and minimum on; it ends 5 ms after VBAT has recovered; its steps are undone 100 us apart, the last of which ends
it and releases what it has deferred; in WAKE-CHECK and on VHOLD CORE stays at 37.5 MHz.  A deferred turn-on is dropped after
SAG_DEFER_MAX, with EV_SUPPLY_DEFER_EXPIRED.
Supply thresholds (R37, R40, R44): a sample is taken as measured; overvoltage begins above 37.0 V and ends after 5 ms
below 35.0 V; V5_OUT goes off after 10 ms of limiting and is tried again; VLED falling below 4.5 V blanks the matrix, and its
return is noted.
Hold-up (R41 to R46): the capacitance from the charging time, the energies from VHOLD, running from VHOLD below 5.5 V of
VBAT_L with a shadow save started, and the return above 6.0 V.
PWR.STATUS gives its record; PWR.CONFIG with legal fields puts the new configuration in force and, with PERSIST, completes
with its write.
Completion: exec answers a next state, each row under the conditions it names, for VBAT_SAMPLE, V5_LIMIT_EXPIRY, VLED_LOW,
VLED_RESTORED, C_MEAS_DONE, ENERGY_EVALUATION, VBAT_L_LOW, VBAT_L_RECOVER, PWR_STATUS, PWR_CONFIG, SAG_START, SAG_END,
SAG_UNDO_STEP, SAG_DEFER_MAX_EXPIRY, OVERVOLTAGE, OVERVOLTAGE_END, V5_RETRY. -/
def Obligations.SupplySagsAndConfig : Prop :=
  (∀ (c : Nat) (s : State), s.live.sagCause = some c → s.live.sup.phase = .running → s.live.pwr.sag.active = false →
    ∃ t, exec .sagStart s = .next t ∧ t.kept = s.kept ∧ t.live.pwr.sag.active = true ∧ t.live.pwr.sag.cause = c ∧
      t.live.pwr.sag.start = s.live.mt.now ∧ t.live.pwr.sag.minMv = s.live.vbat ∧ t.live.pwr.sag.undo = 0 ∧
      t.live.pwr.coreStep = max s.live.pwr.coreStep s.live.coreRow ∧ t.live.pwr.sag.row = s.live.coreRow ∧
      t.live.plan = s.live.plan ∧ t.live.load = s.live.load) ∧
  (∀ (c : Nat) (s : State), s.live.sagCause = some c → s.live.sup.phase = .running → s.live.pwr.sag.active = true →
    s.live.pwr.sag.undo ≠ 0 → ∃ t, exec .sagStart s = .next t ∧ t.kept = s.kept ∧ t.live.pwr.sag.active = true ∧
      t.live.pwr.sag.cause = c ∧ t.live.pwr.sag.start = s.live.pwr.sag.start ∧ t.live.pwr.sag.undo = 0 ∧
      t.live.pwr.sag.minMv = min s.live.pwr.sag.minMv s.live.vbat) ∧
  (∀ (q : Nat) (s : State), s.live.sup.phase = .running → s.live.pwr.sag.active = true → s.live.pwr.sag.undo = 0 →
    s.live.pwr.sag.qualSince = some q → q + ms 5 ≤ s.live.mt.now → 950 < s.live.pwr.railMv →
    exec .sagEnd s = .next (s.onLive fun l => (l.setSag fun g => { g with undo := 1, undoAt := l.mt.now, undoFrames := 0 }).raise
      0x021 notice 0 (le 2 l.pwr.sag.minMv ++ le 4 ((l.pwr.sag.lastRise - l.pwr.sag.start) / 1000)))) ∧
  (∀ s : State, s.live.sup.phase = .running → s.live.pwr.sag.active = true → s.live.pwr.sag.undoAt + us 100 ≤ s.live.mt.now →
    (s.live.pwr.sag.undo = 1 → exec .sagUndoStep s = .next (s.onLive fun l =>
      l.setSag fun g => { g with undo := 2, undoAt := l.mt.now })) ∧
    (2 ≤ s.live.pwr.sag.undo → s.live.pwr.sag.row ≠ 0 → exec .sagUndoStep s = .next (s.onLive fun l =>
      (l.setPwr fun p => { p with coreStep := if p.mode = .wakeCheck ∨ p.holdup = true then 3 else p.sag.row - 1 }).setSag fun g =>
        { g with undo := 3, undoAt := l.mt.now, row := g.row - 1 })) ∧
    (2 ≤ s.live.pwr.sag.undo → s.live.pwr.sag.row = 0 → exec .sagUndoStep s = .next (s.onLive fun l =>
      (l.setSag fun g => { g with undo := 4, active := false, undoAt := l.mt.now }).releaseSag))) ∧
  (∀ s : State, s.live.sup.phase = .running → exec .sagDeferMaxExpiry s = .next (s.onLive sagDeferExpiry) ∧
    ((∀ e ∈ s.live.plan.edges, e.phase ≠ .held ∨ e.bySag = false ∨ e.work.restarts = true ∨
        ∀ t, e.deferAt = some t → s.live.mt.now < t + ms s.live.pwr.cfg.sagDeferMax) →
      sagDeferExpiry s.live = s.live) ∧
    (∀ (e : Edge) (t : Nat), s.live.plan.edges = [e] → e.phase = .held → e.bySag = true → e.work.restarts = false →
      e.deferAt = some t → t + ms s.live.pwr.cfg.sagDeferMax ≤ s.live.mt.now →
      exec .sagDeferMaxExpiry s = .next (s.onLive fun l => (((l.unbookEdge e.id).removeEdge e.id).dropCommand e.work.src).raise
        0x029 warn 0 (le 1 (sourceId e.work.src) ++ le 1 e.prio)))) ∧
  (∀ (mv : Volts) (rail : Nat) (s : State), s.live.pwr.powered = true → ∃ t, exec (.vbatSample mv rail) s = .next t ∧
    t.kept = s.kept ∧ t.live.pwr.vbat = mv ∧ t.live.pwr.railMv = rail ∧
    (∀ g, g < 4 → t.live.pwr.present.getD g false = (s.live.pwr.present.getD g false || decide (7500 < mv.getD g 0))) ∧
    t.live.host = s.live.host ∧ t.live.load = s.live.load) ∧
  (∀ s : State, s.live.pwr.overvolt = false → 37000 < s.live.vbat → exec .overvoltage s = .next (s.onLive fun l =>
    (l.setPwr fun p => { p with overvolt := true, overMax := l.vbat, overBelow := none }).raise 0x023 warn 0 (le 2 l.vbat))) ∧
  (∀ (q : Nat) (s : State), s.live.pwr.overvolt = true → s.live.pwr.overBelow = some q → q + ms 5 ≤ s.live.mt.now →
    exec .overvoltageEnd s = .next (s.onLive fun l =>
      (l.setPwr fun p => { p with overvolt := false, overBelow := none }).raise 0x023 warn 1 (le 2 l.pwr.overMax))) ∧
  (∀ (t : Nat) (s : State), s.live.pwr.v5On = true → ms 10 < t → exec (.v5LimitExpiry t) s = .next (s.onLive fun l =>
    (l.setPwr fun p => { p with v5On := false, v5OffUntil := l.mt.now + ms 100 }).raise 0x027 sevFault 0 [])) ∧
  (∀ s : State, s.live.pwr.v5On = false → s.live.pwr.v5OffUntil ≠ 0 → s.live.pwr.v5OffUntil ≤ s.live.mt.now →
    exec .v5Retry s = .next (s.onLive fun l =>
      (l.setPwr fun p => { p with v5On := true, v5OffUntil := 0 }).raise 0x027 sevFault 1 [])) ∧
  (∀ (mv : Nat) (s : State), mv < 4500 → s.live.led.darkVled = false → exec (.vledLow mv) s = .next (s.onLive fun l =>
    ((l.setPwr fun p => { p with vledMv := mv }).dieRaise 1 0x028 sevFault 0 (le 2 mv)).ledVledLow)) ∧
  (∀ (mv t : Nat) (s : State), 4800 < mv → ms 5 ≤ t → s.live.led.darkVled = true → s.live.led.resume = false →
    exec (.vledRestored mv t) s = .next (s.onLive fun l =>
      ((l.setPwr fun p => { p with vledMv := mv }).dieRaise 1 0x028 sevFault 1 (le 2 mv)).setLed fun g => { g with resume := true })) ∧
  (∀ (t : Nat) (s : State), s.live.pwr.chargerOn = true →
    (100 ≤ t / 200000 → exec (.cMeasDone t) s = .next (s.onLive fun l => l.setPwr fun p => { p with cMeas := some (t / 200000) })) ∧
    (t / 200000 < 100 → exec (.cMeasDone t) s = .next (s.onLive fun l => (l.setPwr fun p => { p with cMeas := some (t / 200000) }).raise
      0x026 (if t / 200000 < 50 then sevFault else warn) 0 (le 2 (t / 200000))))) ∧
  (∀ (mv : Nat) (s : State), ∃ t, exec (.energyEvaluation mv) s = .next t ∧ t.kept = s.kept ∧ t.live.pwr.vholdMv = mv ∧
    t.live.pwr.eAvail = (if mv ≤ 9000 then 0 else s.live.cUsed * (mv * mv - 9000 * 9000) * 4 / 10000000) ∧
    t.live.pwr.eReserve = 600 + 12 * shadowPages s.live.param.shadowApp + 12 * s.live.pagesInProgress + 1000 ∧
    t.live.pwr.coreStep = s.live.pwr.coreStep ∧ t.live.pwr.mode = s.live.pwr.mode ∧ t.live.host = s.live.host) ∧
  (∀ (mv : Nat) (s : State), mv < 5500 → s.live.pwr.holdup = false → s.live.sup.phase ≠ .off →
    exec (.vbatLLow mv) s = .next (s.onLive fun l => (l.setPwr fun p => { p with
      holdup := true, vlGoodSince := none, coreStep := 3, vbat := p.vbat.set 4 mv }).forceShadow.raise 0x024 warn 0
        (le 2 l.pwr.vholdMv))) ∧
  (∀ (mv : Nat) (s : State), 6000 < mv → s.live.pwr.holdup = true → 9000 < s.live.pwr.vholdMv →
    exec (.vbatLRecover mv) s = .next (s.onLive fun l => (l.setPwr fun p => { p with
      holdup := false, vlGoodSince := some l.mt.now, vbat := p.vbat.set 4 mv,
      coreStep := if (l.sup.phase = .running ∨ l.sup.phase = .firmware) ∧ p.mode ≠ .wakeCheck
        then (if p.sag.active then p.sag.row else 0) else 3 }).raise 0x024 warn 1 (le 2 l.pwr.vholdMv))) ∧
  (∀ m b s, Waits s 0x0201 m b → exec .pwrStatus s = .next (s.answer m .ok 0 s.live.pwrRecord) ∧
    s.live.pwrRecord.length = 26 ∧ byteAt s.live.pwrRecord 0 = s.live.pwr.mode.code) ∧
  (∀ m b s, Waits s 0x0202 m b →
    (let p := b.payload
     inRange 9000 16000 (rd p 0 2) = true ∧ rd p 0 2 % 100 = 0 ∧ inRange 1 20 (byteAt p 2) = true ∧ byteAt p 4 ≤ 200 ∧
     byteAt p 5 ≤ 7 ∧ inRange 10 5000 (rd p 6 2) = true ∧ (∀ g, g < 4 → inRange 1 45 (byteAt p (8 + g)) = true) ∧
     (∀ g, g < 4 → inRange 1 80 (byteAt p (12 + g)) = true) ∧ inRange 50 5000 (rd p 16 2) = true ∧
     inRange 100 10000 (rd p 18 2) = true ∧ byteAt p 20 < 4) →
    exec .pwrConfig s = .next (s.ends m ((s.live.applyPwrCfg b.payload).endConfig m (bit (byteAt b.payload 20) 1) 0x0202 0
      (b.payload.take 21)))) ∧
  (∀ (l : Live) (p : List Byte), (l.applyPwrCfg p).pwr.cfg = PwrConfig.ofBytes p ∧ (l.applyPwrCfg p).plan = l.plan ∧
    (l.applyPwrCfg p).load = l.load ∧ (l.applyPwrCfg p).host = l.host ∧
    (l.pwr.sag.active = false → l.applyPwrCfg p = l.setPwr fun x => { x with cfg := PwrConfig.ofBytes p })) ∧
  (∀ (l : Live) (m : MbRef) (opc obj : Nat) (p : List Byte), l.endConfig m false opc obj p = (okReply, l) ∧
    l.endConfig m true opc obj p = (.wait, l.enqueue (.config opc obj p) (some m) [] true))

/-- Die-to-die links, heartbeats and crossings (R16 to R20): a good write flit with a new sequence number is applied and
acknowledged, a repeated one only acknowledged, a third bad flit in a row retires its lane, and a link with no lane left in a
direction fails; a heartbeat comes after 1 ms to a die that is not in orphan mode and is reached.  A time-out of a transfer that
may be retried asks for it again, that of any other fails to its requester, whose command ends with INTERNAL; a third within 1 ms
marks the crossing failed; a good retest brings it back and a bad one counts.
Which sequence numbers are new and which commands use a crossing are the model's reading (log entries 83 and 84).
Completion: exec answers a next state, each row under the conditions it names, for D2D_FLIT_RECEIVED, LOGIC_HEARTBEAT,
CROSSING_TIMEOUT, CROSSING_RETEST, TIMESTAMP_PAIRING. -/
def Obligations.LinksAndCrossings : Prop :=
  (∀ (k dir lane : Nat) (f : BitVec 64) (d : D2dLink) (s : State), s.live.arch.d2d[2 * k + dir]? = some d → dir ≤ 1 →
    d.retired.getD lane true = false → lane < d.badRun.length →
    (flitOk f = true → Config.d2dWrite (flitType f) = true → d.isNew (flitSeq f) = true →
      ∃ t, exec (.d2dFlitReceived k dir lane f) s = .next t ∧ t.live.arch.d2d[2 * k + dir]? = some { d with
        badRun := d.badRun.set lane 0, lastSeq := some (flitSeq f), lastWord := flitWord f, acked := some (flitSeq f) } ∧
        t.live.host = s.live.host) ∧
    (flitOk f = true → Config.d2dWrite (flitType f) = true → d.isNew (flitSeq f) = false →
      ∃ t, exec (.d2dFlitReceived k dir lane f) s = .next t ∧ t.live.arch.d2d[2 * k + dir]? = some { d with
        badRun := d.badRun.set lane 0, acked := some (flitSeq f) } ∧ t.live.host = s.live.host) ∧
    (flitOk f = true → Config.d2dWrite (flitType f) = false →
      ∃ t, exec (.d2dFlitReceived k dir lane f) s = .next t ∧ t.live.arch.d2d[2 * k + dir]? = some { d with
        badRun := d.badRun.set lane 0 } ∧ t.live.host = s.live.host) ∧
    (flitOk f = false → d.badRun.getD lane 0 < 2 → ∃ t, exec (.d2dFlitReceived k dir lane f) s = .next t ∧
      t.live.arch.d2d[2 * k + dir]? = some { d with badRun := d.badRun.set lane (d.badRun.getD lane 0 + 1) } ∧
      t.live.host = s.live.host) ∧
    (flitOk f = false → 2 ≤ d.badRun.getD lane 0 → ∃ t, exec (.d2dFlitReceived k dir lane f) s = .next t ∧
      t.live.arch.d2d[2 * k + dir]? = some { d with
        badRun := d.badRun.set lane (d.badRun.getD lane 0 + 1), retired := d.retired.set lane true })) ∧
  (∀ (k dir : Nat) (d : D2dLink) (l : Live), l.arch.d2d[2 * k + dir]? = some d → dir ≤ 1 → k < 2 →
    d.retired.all id = true → l.dieCut k = true) ∧
  (∀ (d : Die) (s : State),
    ((s.live.die (dieIndex d)).orphan = false → s.live.dieCut (dieIndex d) = false → s.live.sup.phase = .running →
      (s.live.die (dieIndex d)).lastHb + ms 1 ≤ s.live.mt.now → dieIndex d < s.live.load.dies.length →
      ∃ t, exec (.logicHeartbeat d) s = .next t ∧ (t.live.die (dieIndex d)).lastHb = s.live.mt.now ∧
        (t.live.die (dieIndex d)).offS = s.live.sup.cfg.orphanOffS ∧
        t.kept = s.kept ∧ t.live.host = s.live.host ∧ t.live.plan = s.live.plan) ∧
    (s.live.dieCut (dieIndex d) = true ∨ (s.live.die (dieIndex d)).orphan = true → exec (.logicHeartbeat d) s = .next s)) ∧
  (∀ (x y n kind : Nat) (work : Option (MbRef × Nat)) (shown : Bool) (s : State),
    ((s.live.crossing x y n).failed = false → kind ≤ 2 →
      exec (.crossingTimeout x y n ⟨kind, work, shown⟩) s = .next (s.onLive fun l =>
        let c := l.crossing x y n
        let ts := l.mt.now :: c.timeouts.filter fun t => decide (l.mt.now ≤ t + ms 1)
        let there := shown && inRange 5 6 y && inRange 1 2 kind
        let again := !there && decide (ts.length < 3) && l.retries c kind
        let l := (l.setCrossing { c with
          timeouts := ts, retry := if again then some l.mt.now else none, failed := decide (3 ≤ ts.length), badRetests := 0,
          lastTest := l.mt.now }).raise 0x004 warn kind c.bytes
        let l := if 3 ≤ ts.length then l.raise 0x005 sevFault 0 c.bytes else l
        if there || again then l else l.failWork work)) ∧
    ((s.live.crossing x y n).failed = true → exec (.crossingTimeout x y n ⟨kind, work, shown⟩) s = .next s)) ∧
  (∀ (l : Live) (c : Crossing) (kind : Nat), c.retry = none →
    (l.retries c kind = true ↔ kind = 0 ∨ (5 ≤ c.rcv ∧ c.rcv ≤ 7 ∧ 1 ≤ kind ∧ kind ≤ 2))) ∧
  (∀ (l : Live) (m : MbRef) (i : Nat), l.failWork none = l ∧ (l.plan.openCmds.any (fun c => c.m == m) = false →
    l.failWork (some (m, i)) = (l.disown m).complete m .internal 0 [])) ∧
  (∀ (x y n : Nat) (s : State), (s.live.crossing x y n).failed = true → (s.live.crossing x y n).lastTest + ms 100 ≤ s.live.mt.now →
    exec (.crossingRetest x y n true) s = .next (s.onLive fun l => (l.setCrossing { l.crossing x y n with
      failed := false, timeouts := [], badRetests := 0, lastTest := l.mt.now }).raise 0x005 sevFault 1 (l.crossing x y n).bytes) ∧
    exec (.crossingRetest x y n false) s = .next (s.onLive fun l => l.setCrossing { l.crossing x y n with
      badRetests := (l.crossing x y n).badRetests + 1, lastTest := l.mt.now })) ∧
  (∀ (i c : Nat) (s : State), ∃ t, exec (.timestampPairing i c) s = .next t ∧ t.kept = s.kept ∧
    (i, c, s.live.mt.now) ∈ t.live.mt.pairing ∧ t.live.mt.now = s.live.mt.now ∧ t.live.host = s.live.host)

/-! ### Load channels and bridges (04_load_channels_bridges.md, 05_load_protection_orphan.md) -/

/-- LOAD.CONFIG with legal fields puts the configuration in force on the idle channels it takes in; in DRAIN, on a channel or group
that is neither OFF nor LATCHED, and on a member, it is refused with STATE; a channel of another group with that group's lowest
channel; on a die that is not adopted or not reached with INTERNAL.  LOAD.STATUS gives the records asked for; LOAD.CLEAR ends each
LATCH it selects, refills the retries and answers with the mask of what was LATCHED.
Clearing one channel (R147): the LATCH, its cause, FPEND and RDELAY go, the command is OFF and the retries are refilled; a
channel that is not LATCHED only has its retries refilled.
One entry of LOAD.SET by the present state (R104), for a channel of an adopted die outside DRAIN for which no earlier command
waits: LATCHED refuses a turn-on, a held or shed channel takes the command and answers PENDING, OFF ends the wait, a changed
command asks for its slot, and any edge that is needed waits for the Planisher.  A turn-on of an idle channel is refused where R22,
R40 or R139 refuses it, held under TLATCH or UVHOLD, an edge for ON and a slot for PWM.
LOAD.SET with legal fields: its entries are taken in order, and the command ends at once with their statuses or stays BUSY for those
whose edge has yet to execute; staged entries that the queue of 256 has no room for are refused with BUSY.
Completion: exec answers a next state, each row under the conditions it names, for LOAD_CONFIG, LOAD_SET, LOAD_STATUS,
LOAD_CLEAR. -/
def Obligations.LoadCommandRows : Prop :=
  (∀ m b s, Waits s 0x1001 m b → firstBad (loadCfgChecks b.payload) = none →
    let n := byteAt b.payload 0
    let cfg := LoadCfg.ofBytes b.payload
    let after := (List.range (parMembers cfg.par)).map (n + ·)
    let other := if cfg.par = 0 then none else after.find? (s.live.otherGroup n)
    (s.live.dieLost (n / 24) = true → exec .loadConfig s = .next (s.answer m .internal 0 [])) ∧
    (s.live.dieLost (n / 24) = false → s.live.pwr.mode = .drain → exec .loadConfig s = .next (s.answer m .state 0 [])) ∧
    (s.live.dieLost (n / 24) = false → s.live.pwr.mode ≠ .drain →
      (∀ k, other = some k → exec .loadConfig s = .next (s.answer m .state (s.live.ch k).lowest [])) ∧
      (other = none →
        ((s.live.ch n).lowest = n → (∀ k ∈ after ++ s.live.groupOf n, (s.live.ch (s.live.ch k).lowest).idle = true) →
          exec .loadConfig s = .next (s.ends m ((s.live.applyLoadCfg n cfg).endConfig m
            (bit (byteAt b.payload 17) 2) 0x1001 n (loadKeep b.payload)))) ∧
        ((s.live.ch n).lowest ≠ n ∨ (∃ k ∈ after ++ s.live.groupOf n, (s.live.ch (s.live.ch k).lowest).idle = false) →
          exec .loadConfig s = .next (s.answer m .state 0 []))))) ∧
  (∀ m b s, Waits s 0x1003 m b → byteAt b.payload 0 ≤ 47 → inRange 1 31 (byteAt b.payload 1) = true →
    byteAt b.payload 0 + byteAt b.payload 1 ≤ 48 →
    exec .loadStatus s = .next (s.answer m .ok 0 ((List.range (byteAt b.payload 1)).flatMap fun i =>
      s.live.loadRecord (byteAt b.payload 0 + i)))) ∧
  (∀ m b s, Waits s 0x1004 m b → (resv b 6 2).2 = true →
    let sel := bitsOf 48 (rd b.payload 0 6)
    (∀ n ∈ sel, s.live.dieLost (n / 24) = false) →
    (∀ n, sel.find? (fun n => (s.live.ch n).lowest != n) = some n → exec .loadClear s = .next (s.answer m .state n [])) ∧
    ((∀ n ∈ sel, (s.live.ch n).lowest = n) →
      exec .loadClear s = .next (s.ends m
        (let r := sel.foldl (fun (r : Nat × Live) n =>
            let x := r.2.clearChannel n
            (if x.1 then r.1 + 2 ^ n else r.1, x.2)) (0, s.live)
         (.done .ok 0 (le 6 r.1), r.2))))) ∧
  (∀ (l : Live) (n : Nat), n < l.load.ch.length →
     let c := l.ch n
     let r := l.clearChannel n
     r.1 = decide (c.state = 8) ∧ (r.2.ch n).retriesLeft = c.cfg.retries ∧
     (c.state = 8 → (r.2.ch n).latch = false ∧ (r.2.ch n).latchCause = 0 ∧ (r.2.ch n).fpend = false ∧
       (r.2.ch n).rdelay = none ∧ (r.2.ch n).cmd = .off ∧ (l.fade n = none → r.2.host = l.host ∧ r.2.plan = l.plan)) ∧
     (c.state ≠ 8 → r.2 = l.setCh n fun c => { c with retriesLeft := c.cfg.retries }) ∧
     (∀ k, k ≠ n → r.2.ch k = l.ch k)) ∧
  (∀ (l : Live) (o : MbRef × Nat) (n a d : Nat), a ≤ 2 → l.dieLost (n / 24) = false → l.pwr.mode ≠ .drain →
     (l.ch n).lowest = n → l.fade n = none → l.withdraw (.load n) = l → n < l.load.ch.length →
     let c := l.ch n
     let r := l.loadEntry o n a d
     let off := l.sendEdge (.load n 0 false) c.cfg.prio c.cfg.latUs (some o)
     let held := c.shed || c.dropped || c.state == 5 || c.state == 6 || c.state == 7 || c.clampHeld
     (c.latch = true → a ≠ 0 → r = (some .state, l)) ∧
     (c.latch = true → a = 0 → r = (some .ok, l.setCh n fun c => { c with cmd := .off })) ∧
     (c.latch = false → held = true →
       (a ≠ 0 → r = (some .pending, l.setCh n fun c => { c with cmd := cmdOf a d })) ∧
       (a = 0 → c.conducts = false → r = (some .ok, l.cancelHeld n)) ∧
       (a = 0 → c.conducts = true → r = (none, (l.cancelHeld n).sendEdge (.load n 0 false) c.cfg.prio c.cfg.latUs (some o)))) ∧
     (c.latch = false → held = false →
       (c.sw = .off → a = 0 → r = (some .ok, l.cancelHeld n)) ∧
       (c.sw = .clamp → a = 0 → r = (some .ok, l.setCh n fun c => { c with cmd := .off })) ∧
       (c.sw = .off ∨ c.sw = .clamp → a ≠ 0 → r = l.commandOn o n (cmdOf a d)) ∧
       (c.conducts = true → a = 0 → r = (none, off)) ∧
       (c.sw = .slew → a ≠ 0 → r = (some .ok, l)) ∧
       (c.conducts = true → c.sw ≠ .slew → a ≠ 0 → c.cmd = cmdOf a d → r = (some .ok, l)) ∧
       (c.conducts = true → c.sw ≠ .slew → a ≠ 0 → c.cmd ≠ cmdOf a d →
         r = (none, l.askSlot (l.loadSlot n (cmdOf a d).duty) (cmdOf a d) (c.cmd == .on) (some o))))) ∧
  (∀ (l : Live) (o : MbRef × Nat) (n : Nat) (cmd : LoadCmd),
     let c := l.ch n
     let back := (l.sagDefers || l.shedDelays) && !l.urgent c.cfg.prio
     (∀ st, l.turnOnRefused n = some st → l.commandOn o n cmd = (some st, l)) ∧
     (l.turnOnRefused n = none →
       (c.tlatch = true ∨ c.uvhold = true → l.commandOn o n cmd = (some .pending, l.setCh n fun c => { c with cmd := cmd })) ∧
       (c.tlatch = false → c.uvhold = false →
         (cmd = .on ∨ back = true → l.commandOn o n cmd =
           (none, l.sendEdge (.load n cmd.duty true) c.cfg.prio c.cfg.latUs (some o))) ∧
         (cmd ≠ .on → back = false → l.commandOn o n cmd =
           (none, l.askSlot (l.loadSlot n cmd.duty) cmd false (some o))))) ∧
     (l.pwr.overvolt = true → l.turnOnRefused n = some .state) ∧
     (l.pwr.overvolt = false → c.clampHot = false → (l.die (n / 24)).stale = true → l.turnOnRefused n = some .budget)) ∧
  (∀ m b s, Waits s 0x1002 m b → firstBad (s.live.loadSetChecks b.payload) = none →
     let es := loadEntries b.payload
     (b.staged = false →
       exec .loadSet s = .next (s.ends m
         (let r := (es.zipIdx).foldl (fun (r : List (Option Status) × Live) x =>
            let y := r.2.loadEntry (m, x.2) x.1.1 x.1.2.1 x.1.2.2
            (r.1 ++ [y.1], y.2)) ([], s.live)
          r.2.openEntries m .statuses r.1))) ∧
     (b.staged = true → 256 < s.live.host.staged.length + es.length →
       exec .loadSet s = .next (s.answer m .busy 1 (es.map fun _ => 0x02))) ∧
     (b.staged = true → s.live.host.staged.length + es.length ≤ 256 →
       exec .loadSet s = .next (s.ends m
         (let r := es.foldl (fun (r : List Status × Live) e =>
            let x := r.2.loadStage b.seq e.1 (cmdOf e.2.1 e.2.2) (.load e.1 (cmdOf e.2.1 e.2.2).duty (e.2.1 != 0))
            (r.1 ++ [x.1], x.2)) ([], s.live)
          r.2.openEntries m .statuses (r.1.map some)))))

/-- The life of a sporadic edge (R169 to R171, R103): arriving it is held by a sag or by shedding, asks for its standing slot, or is
placed; one that finds 128 others waiting is refused with BUSY; a delayed one is placed when its tick has come, dropped with
EV_PLAN_DELAY_EXPIRED after DELAY_MAX; a placed one executes at its tick and completes its entry.
What protection has turned off gives its booking back along the envelope of its turn-off (R164).
That an edge no Planisher has looked at within its latency bound ends with BUDGET is log entry 94.
Completion: exec answers a next state, each row under the conditions it names, for EDGE_EXECUTE, RESTART_EDGE,
SPORADIC_EDGE_ARRIVAL, DELAYED_TURN_ON, DELAY_MAX_EXPIRY, PROTECTION_OFF_REPORT. -/
def Obligations.EdgeLife : Prop :=
  (∀ (id : Nat) (e : Edge) (s : State), s.live.sup.phase = .running → s.live.edge id = some e → e.phase = .arriving →
    (e.work.commanded = true → s.live.dieCut (sourceDie e.work.src) = false) → s.live.unanswered e = false →
    let others := (s.live.plan.edges.filter fun (x : Edge) => x.id != e.id && x.phase != EdgePhase.placed).length
    (128 ≤ others → e.work.commanded = true → exec (.sporadicEdgeArrival id) s = .next (s.onLive fun l => l.refuseEdge e 2 .busy)) ∧
    (others < 128 ∨ e.work.commanded = false →
      (s.live.holds e = true →
        exec (.sporadicEdgeArrival id) s = .next (s.onLive fun l => l.holdEdge e l.sagDefers l.shedDelays)) ∧
      (s.live.holds e = false → s.live.asksSlot e.work = true →
        exec (.sporadicEdgeArrival id) s = .next (s.onLive fun l => l.slotEdge e)) ∧
      (s.live.holds e = false → s.live.asksSlot e.work = false →
        exec (.sporadicEdgeArrival id) s = .next (s.onLive fun l => l.placeEdge e)))) ∧
  (∀ (id : Nat) (e : Edge) (s : State), s.live.sup.phase = .running → s.live.edge id = some e →
    let blocked := (s.live.sagDefers || s.live.shedDelays) && !s.live.urgent e.prio
    (e.phase = .delayed → e.tick * tickNs ≤ s.live.mt.now → blocked = false →
      exec (.delayedTurnOn id) s = .next (s.onLive fun l => l.setEdge { e with phase := .placed })) ∧
    (e.phase = .delayed → e.tick * tickNs ≤ s.live.mt.now → blocked = true →
      exec (.delayedTurnOn id) s = .next (s.onLive fun l => l.holdEdge e l.sagDefers l.shedDelays)) ∧
    (e.phase = .held → blocked = false → e.bySag = false → e.byShed = false →
      exec (.delayedTurnOn id) s = .next (s.onLive fun l =>
        l.setEdge { e with phase := .arriving, arrived := l.mt.now, tick := 0 })) ∧
    (∀ t, e.phase = .delayed ∨ e.phase = .held ∧ e.byShed = true → e.work.restarts = false → e.heldAt = some t →
      t + ms s.live.plan.cfg.delayMax ≤ s.live.mt.now → exec (.delayMaxExpiry id) s = .next (s.onLive fun l =>
        (((l.unbookEdge id).removeEdge id).dropCommand e.work.src).raise 0x084 warn 0 (le 2 (sourceId e.work.src)))) ∧
    (e.work.restarts = true → exec (.delayMaxExpiry id) s = .next s)) ∧
  (∀ (id : Nat) (clamps : Bool) (e : Edge) (s : State), s.live.edge id = some e → e.phase = .placed →
    e.tick * tickNs ≤ s.live.mt.now → s.live.clamping e.work.src = false →
    (e.work.restarts = false → exec (.edgeExecute id clamps) s = .next (s.onLive fun l =>
      let r := l.executeWork e.work clamps
      let l := r.2.removeEdge id
      (if e.work.rises = true ∧ r.1 ≠ .ok then l.unbookEdge id else l).entryDone e.owner r.1)) ∧
    (e.work.restarts = true → exec (.restartEdge id) s = .next (s.onLive fun l =>
      let l := (l.restartWork' e.work).removeEdge id
      if l.conductsNow e.work.src then l else l.unbookEdge id))) ∧
  (∀ (src : Source) (s : State), s.live.sup.phase = .running → s.live.sourceOn src = false → s.live.conductsNow src = false →
    let inPhase := s.live.plan.stand.any fun x => x.src == src && x.onAt s.live.plan.cfg.dither s.live.mt.now
    (inPhase = true → exec (.protectionOffReport src) s = .next (s.onLive fun l => (l.endSlot src).giveBack src)) ∧
    (inPhase = false → exec (.protectionOffReport src) s = .next (s.onLive fun l =>
      ({ l.dropSlot src with plan := { (l.dropSlot src).plan with
        stand := l.plan.stand.filter fun x => x.src != src } } : Live).giveBack src))) ∧
  (∀ (l : Live) (src : Source),
    (l.hasPlaced src = true ∨ l.bookedOf src ≤ 0 → l.giveBack src = l) ∧
    (l.hasPlaced src = false → 0 < l.bookedOf src → l.giveBack src =
      l.bookEdge 0 src (tickOf l.mt.now) [(0, - l.bookedOf src, rateOf (l.offClassOf src))]))

/-- Turn-on and turn-off of a load channel (R103, R108, R134): a LATCHED one refuses, a held one keeps the command, a free one
conducts under it; a turn-off clears the wait and stops it, through CLAMP where the output falls below -3.0 V.
A fault turn-off of a channel that no commanded OFF of the same plan frame meets (R134, R142, R143): the switch is off, through CLAMP
where the output falls below -3.0 V, a channel with no retry left is LATCHED under that cause, one with retries waits RETRY_MS
under FPEND.
Dimming (R57): the effective duty of a LIGHTING channel is its duty times both factors in 1/256 steps, rounded down; that
of any other channel is its duty. -/
def Obligations.LoadExecutes : Prop :=
  (∀ (l : Live) (n d : Nat), n < l.load.ch.length →
    ((l.ch n).latch = true → l.executeOn n d = (.state, l)) ∧
    ((l.ch n).latch = false → (l.ch n).conducts = false →
      ((l.ch n).tlatch = true ∨ (l.ch n).uvhold = true ∨ (l.ch n).fpend = true ∨ (l.ch n).whold = true →
        l.executeOn n d = (.pending, l.setCh n fun c => { c with cmd := if d = 65535 then .on else .pwm d })) ∧
      ((l.ch n).tlatch = false → (l.ch n).uvhold = false → (l.ch n).fpend = false → (l.ch n).whold = false →
        (l.executeOn n d).1 = .ok ∧ ((l.executeOn n d).2.ch n).conducts = true ∧
        ((l.executeOn n d).2.ch n).cmd = (if d = 65535 then .on else .pwm d) ∧ (l.executeOn n d).2.host = l.host))) ∧
  (∀ (l : Live) (n : Nat) (clamps : Bool), n < l.load.ch.length → (l.ch n).conducts = true →
    ((l.executeOff n clamps).ch n).sw = (if clamps then .clamp else .off) ∧ ((l.executeOff n clamps).ch n).cmd = .off ∧
    ((l.executeOff n clamps).ch n).fpend = false ∧ ((l.executeOff n clamps).ch n).offAt = l.mt.now) ∧
  (∀ (l : Live) (n cause : Nat) (clamps : Bool), n < l.load.ch.length → (l.ch n).conducts = true → (l.ch n).cmd ≠ .off →
     l.plan.edges = [] →
     let r := l.faultOff n cause clamps
     (r.ch n).sw = (if clamps then .clamp else .off) ∧ (r.ch n).offAt = l.mt.now ∧
     ((l.ch n).retriesLeft = 0 → (r.ch n).latch = true ∧ (r.ch n).latchCause = cause ∧ (r.ch n).rdelay = none) ∧
     ((l.ch n).retriesLeft ≠ 0 → (r.ch n).latch = (l.ch n).latch ∧ (r.ch n).fpend = true ∧
       (r.ch n).rdelay = some (l.mt.now + ms (l.ch n).cfg.retryMs)) ∧
     ∀ k, k ≠ n → r.ch k = l.ch k) ∧
  (∀ (l : Live) (n d : Nat), l.effDuty n (.pwm d) =
     if (l.ch n).cfg.role = 1 ∨ (l.ch n).cfg.role = 2 then d * l.pwr.sag.factor * l.ledger.factor / 65536 else d)

/-- What the dies report (R106, R109, R114 to R119, R122, R265, R277): the end of a ramp, the pulse of a period of a load channel and of
a leg, the end of a slew, the readback of every kind of output as the mean of its samples, imbalance, open load and off-state
tests of load channels and field outputs.
That a measurement beyond the range of R117 stays at the end of that range is log entry 90.
Completion: exec answers a next state, each row under the conditions it names, for EDGE_RAMP_END, PWM_PERIOD_START, SLEW_END,
READBACK_SAMPLE, IMBALANCE_CHECK, OPEN_ON_QUALIFIED, OFF_STATE_TEST. -/
def Obligations.LoadReports : Prop :=
  (∀ (n t : Nat) (s : State), (s.live.ch n).sw = .on → (s.live.ch n).rampEnd = some t → t ≤ s.live.mt.now →
    exec (.edgeRampEnd n) s = .next (s.onLive fun l => (l.setCh n fun c => { c with rampEnd := none }).loadEvent n 0)) ∧
  (∀ (n : Nat) (s : State), s.live.plan.changes = [] →
    ((s.live.ch n).pulsed = true → exec (.pwmPeriodStart (.load n)) s = .next (s.onLive fun l =>
      let r := pulseOf (l.ch n).period (l.ch n).duty (minOnNs (.load n)) (l.ch n).pulseAcc
      l.setCh n fun c => { c with pulse := r.1, pulseAcc := r.2 })) ∧
    ((s.live.ch n).pulsed = false → exec (.pwmPeriodStart (.load n)) s = .next s)) ∧
  (∀ (k : Nat) (s : State), exec (.pwmPeriodStart (.leg k)) s = .next (s.onLive fun l =>
    l.setBr k fun x => { x with limiting := false })) ∧
  (∀ (n v : Nat) (s : State), (s.live.ch n).sw = .slew → s.live.groupMv (n / 12) ≤ v + 500 →
    exec (.slewEnd n v) s = .next (s.onLive fun l =>
      ((l.changed (.load n)).setCh n fun c => { c with sw := .on, vout := v }).loadEvent n 0)) ∧
  (∀ (src : Source) (is : List (Int × Bool)) (vs : List Nat) (tjs : List Int) (fs : List Nat) (s : State),
    let xs := readbacks is vs tjs fs
    xs ≠ [] → sourceDie src < s.live.load.dies.length →
    ∃ t, exec (.readbackSample src is vs tjs fs) s = .next t ∧ t.kept = s.kept ∧ t.live.host = s.live.host ∧ t.live.plan = s.live.plan ∧
      (t.live.die (sourceDie src)).fresh = s.live.mt.now ∧
      (∀ n, src = .load n → n < s.live.load.ch.length →
        (t.live.ch n).i = clipLoad (loadClass n) (meanOf (·.i)
          (if (s.live.ch (s.live.ch n).lowest).pulsed then xs.filter (·.on) else xs)) ∧
        (t.live.ch n).iMean = clipLoad (loadClass n) (meanOf (·.i) xs) ∧
        ((t.live.ch n).vout : Int) = clip 0 40000 (meanOf (fun x => (x.v : Int)) xs) ∧
        (t.live.ch n).tj = clip (-500) 2000 (meanOf (·.tj) xs) ∧ (t.live.ch n).sw = (s.live.ch n).sw ∧
        ∀ k, k ≠ n → t.live.ch k = s.live.ch k) ∧
      (∀ k, src = .leg k → k < s.live.load.br.length →
        (t.live.bridge k).tj = clip (-500) 2000 (meanOf (·.tj) xs) ∧ (t.live.bridge k).st = (s.live.bridge k).st ∧
        (s.live.bridgeOfLeg k = k → (t.live.bridge k).i = meanOf (·.i) xs)) ∧
      (∀ v, src = .valve v → v < s.live.valve.valves.length →
        (t.live.valve' v).i = meanOf (·.i) xs ∧ (t.live.valve' v).phase = (s.live.valve' v).phase) ∧
      (∀ b, src = .bank b → b < s.live.valve.banks.length →
        (t.live.bank b).i = meanOf (·.i) xs ∧ (t.live.bank b).st = (s.live.bank b).st) ∧
      (∀ n, src = .fio n → n < s.live.fio.ch.length →
        (t.live.fioCh n).i = meanOf (·.i) xs ∧ ((t.live.fioCh n).v : Int) = clip 0 40000 (meanOf (fun x => (x.v : Int)) xs) ∧
        (t.live.fioCh n).sw = (s.live.fioCh n).sw)) ∧
  (∀ (n f : Nat) (cs : List Int) (s : State), (s.live.ch n).cfg.par ≠ 0 → (s.live.ch n).sw = .on → (s.live.ch n).lowest = n →
    (∃ i ∈ cs, (sumInt cs).natAbs < 4 * ((cs.length : Int) * i - sumInt cs).natAbs) →
    (((s.live.ch n).openThreshold n : Nat) : Int) < 100 * sumInt cs → ms 10 ≤ f → (s.live.ch n).imbalance = false →
    exec (.imbalanceCheck n cs f) s = .next (s.onLive fun l =>
      (l.setCh n fun c => { c with imbalance := true, imbClear := none }).loadEvent n 15)) ∧
  (∀ (n i f : Nat) (s : State), bit (s.live.ch n).cfg.olMode 2 = true → (s.live.ch n).sw = .on → (s.live.ch n).lowest = n →
    ms (s.live.ch n).cfg.olOnMs ≤ f → (bit (s.live.ch n).cfg.olMode 3 = true → i < 250) →
    ((s.live.ch n).openOn = false → i < (s.live.ch n).openThreshold n → exec (.openOnQualified n i f) s = .next (s.onLive fun l =>
      (l.setCh n fun c => { c with openOn := true }).loadEvent n 2)) ∧
    ((s.live.ch n).openOn = true → (s.live.ch n).openThreshold n < i → exec (.openOnQualified n i f) s = .next (s.onLive fun l =>
      (l.setCh n fun c => { c with openOn := false }).loadEvent n 2)) ∧
    (i = (s.live.ch n).openThreshold n → exec (.openOnQualified n i f) s = .next s)) ∧
  (∀ (n v0 v1 : Nat) (s : State), n < s.live.load.ch.length → (s.live.ch n).sw = .off → (s.live.ch n).state = 0 →
    (s.live.ch n).lowest = n → (s.live.ch n).cfg.olMode % 4 ≠ 0 → s.live.pwr.mode = .run →
    (s.live.ch n).testDue ≤ s.live.mt.now → (s.live.ch n).tests = [] →
    exec (.offStateTest (.load n) v0 v1) s = .next (s.onLive fun l => l.setCh n fun c => { c with
      tests := [if 3000 ≤ v0 then 4 else if 3000 ≤ v1 then 3 else 0], testAt := some s.live.mt.now, vout := v0 })) ∧
  (∀ (n v0 v1 : Nat) (s : State), n < s.live.fio.ch.length → (s.live.fioCh n).cfg.olOff = true → (s.live.fioCh n).state = 3 →
    (s.live.fioCh n).lowest = n → s.live.pwr.mode = .run → (s.live.fioCh n).testDue ≤ s.live.mt.now → (s.live.fioCh n).tests = [] →
    exec (.offStateTest (.fio n) v0 v1) s = .next (s.onLive fun l => l.setFio n fun c => { c with
      tests := [if 3000 ≤ v0 then 4 else if 3000 ≤ v1 then 3 else 0], testAt := some s.live.mt.now, v := v0 })) ∧
  (∀ (a b c : Nat) (was : Bool), (a = c → b = c → afterTests was c a b = true) ∧ (a ≠ c → b ≠ c → afterTests was c a b = false) ∧
    ((a = c) ≠ (b = c) → afterTests was c a b = was))

/-- Current limit, its end and its trips (R110, R135, R136): a conducting channel that reaches ILIM limits, with one event per
second; below 0.9 of it for 100 us it goes on; LIMIT_MAX, 1.5 times ILIM and an overlong ramp are fault turn-offs; the rows name a
channel or a member of a group, whose current stands for its part of ILIM.
Thermal latches, clamps and undervoltage (R137 to R141).
Completion: exec answers a next state, each row under the conditions it names, for SLEW_TIMEOUT, CURRENT_LIMIT, LIMIT_RELEASE,
LIMIT_MAX_EXPIRY, FAST_TRIP, THERMAL_LATCH, THERMAL_RELEASE, CLAMP_END, CLAMP_POWER_EXCEEDED, GROUP_UNDERVOLTAGE, UV_RECOVER. -/
def Obligations.LoadProtection : Prop :=
  (∀ (k i : Nat) (s : State), let n := (s.live.ch k).lowest
    n < s.live.load.ch.length → k < s.live.load.ch.length → (s.live.ch n).sw = .on →
    10 * (s.live.ch n).cfg.ilim ≤ s.live.shareOf k i →
    ∃ t, exec (.currentLimit k i) s = .next t ∧ t.kept = s.kept ∧ (t.live.ch n).sw = .limit false ∧
      (t.live.ch n).limitAt = s.live.mt.now ∧ (t.live.ch k).i = i ∧ t.live.plan = s.live.plan ∧
      (∀ r, (s.live.ch n).limitRaised = some r → s.live.mt.now < r + ms 1000 → t.live.host = s.live.host)) ∧
  (∀ (k i f : Nat) (ramp : Bool) (s : State), let n := (s.live.ch k).lowest
    (s.live.ch n).sw = .limit ramp → s.live.shareOf k i < 9 * (s.live.ch n).cfg.ilim → us 100 ≤ f →
    exec (.limitRelease k i f) s = .next (s.onLive fun l =>
      ((l.changed (.load n)).setCh k fun c => { c with i := i }).setCh n fun c => { c with sw := if ramp then .slew else .on })) ∧
  (∀ (k : Nat) (ramp clamps : Bool) (s : State), let n := (s.live.ch k).lowest
    (s.live.ch n).sw = .limit ramp → (s.live.ch n).limitAt + ms (limitMax (loadClass n)) ≤ s.live.mt.now →
    exec (.limitMaxExpiry k clamps) s = .next (s.onLive fun l => l.faultOff n 6 clamps)) ∧
  (∀ (k i : Nat) (clamps : Bool) (s : State), let n := (s.live.ch k).lowest
    (s.live.ch n).conducts = true → 15 * (s.live.ch n).cfg.ilim < s.live.shareOf k i →
    exec (.fastTrip k i clamps) s = .next (s.onLive fun l => l.faultOff n 6 clamps)) ∧
  (∀ (k : Nat) (clamps : Bool) (s : State), let n := (s.live.ch k).lowest
    (s.live.ch n).sw = .slew ∨ (s.live.ch n).sw = .limit true →
    (s.live.ch n).slewAt + (s.live.ch n).slewNs * 3 / 2 + ms 2 ≤ s.live.mt.now →
    exec (.slewTimeout k clamps) s = .next (s.onLive fun l => l.faultOff n 13 clamps)) ∧
  (∀ (k : Nat) (tj : Int) (clamps : Bool) (s : State), let n := (s.live.ch k).lowest
    n < s.live.load.ch.length → (s.live.ch n).tlatch = false → 1700 ≤ tj →
    let held := fun (l : Live) => ((l.changed (.load n)).setCh k fun c => { c with tj := tj }).setCh n fun c => { c with
      tlatch := true, clampTl := c.sw == .clamp }
    ((s.live.ch n).conducts = true →
      exec (.thermalLatch k tj clamps) s = .next (s.onLive fun l => (held l).faultOff n 7 clamps)) ∧
    ((s.live.ch n).conducts = false → (s.live.ch n).latch = false →
      exec (.thermalLatch k tj clamps) s = .next (s.onLive held))) ∧
  (∀ (n : Nat) (tj : Int) (s : State), (s.live.ch n).lowest = n → (s.live.ch n).members = 1 → n < s.live.load.ch.length →
    (s.live.ch n).tlatch = true → tj < (min 1500 (s.live.ch n).trs : Nat) →
    ∃ t, exec (.thermalRelease n tj) s = .next t ∧ t.kept = s.kept ∧ (t.live.ch n).tlatch = false ∧ (t.live.ch n).tj = tj ∧
      t.live.host = s.live.host ∧ t.live.plan = s.live.plan) ∧
  (∀ (k : Nat) (tj : Int) (s : State), let n := (s.live.ch k).lowest
    n < s.live.load.ch.length → k ≠ n → (s.live.ch n).tlatch = true → tj < (min 1500 (s.live.ch n).trs : Nat) →
    (∃ j ∈ s.live.groupOf n, j ≠ k ∧ ((min 1500 (s.live.ch n).trs : Nat) : Int) ≤ (s.live.ch j).tj) →
    exec (.thermalRelease k tj) s = .next (s.onLive fun l => l.setCh k fun c => { c with tj := tj })) ∧
  (∀ (k e t : Nat) (s : State), let n := (s.live.ch k).lowest
    n < s.live.load.ch.length → (s.live.ch n).sw = .clamp →
    ((s.live.ch n).clampMax < e ∨ ((s.live.ch n).clampFree = true ∧ us 10 < t) →
      ∃ u, exec (.clampEnd k e t) s = .next u ∧ u.kept = s.kept ∧ (u.live.ch n).sw = .off ∧ (u.live.ch n).latch = true ∧
        (u.live.ch n).latchCause = 12) ∧
    (e ≤ (s.live.ch n).clampMax → ((s.live.ch n).clampFree = true → t ≤ us 10) → (s.live.ch n).clampTl = false →
      ∃ u, exec (.clampEnd k e t) s = .next u ∧ u.kept = s.kept ∧ (u.live.ch n).sw = .off ∧
        (u.live.ch n).latch = (s.live.ch n).latch ∧ (u.live.ch n).offAt = s.live.mt.now)) ∧
  (∀ (k : Nat) (s : State), let n := (s.live.ch k).lowest
    (s.live.ch n).clampHot = false →
    60 * clampPower (loadClass n) * (s.live.ch n).members <
      sumNat (((s.live.ch n).clamps.filter fun x => decide (s.live.mt.now < x.1 + ms 60000)).map (·.2)) →
    exec (.clampPowerExceeded k) s = .next (s.onLive fun l => (l.setCh n fun c => { c with clampHot := true }).loadEvent n 12)) ∧
  (∀ (g mv : Nat) (cl : List Nat) (s : State), mv < 7000 → s.live.pwr.uv.getD g true = false →
    exec (.groupUndervoltage g mv cl) s = .next (s.onLive fun l =>
      let l := { l with pwr := { l.pwr with uv := l.pwr.uv.set g true, vbat := l.pwr.vbat.set g mv } }
      ((l.dieRaise (dieOfGroup g) 0x022 warn g (le 2 mv)).lowestOf g).foldl (fun l n => l.uvChannel n (cl.contains n))
        (l.dieRaise (dieOfGroup g) 0x022 warn g (le 2 mv)))) ∧
  (∀ (g mv t : Nat) (s : State), 7500 < mv → ms 2 ≤ t → s.live.pwr.uv.getD g false = true → g < s.live.pwr.uv.length →
    g < s.live.pwr.vbat.length → ∃ u, exec (.uvRecover g mv t) s = .next u ∧ u.kept = s.kept ∧
      u.live.pwr.uv = s.live.pwr.uv.set g false ∧ u.live.pwr.vbat = s.live.pwr.vbat.set g mv ∧ u.live.host = s.live.host)

/-- Retries of load channels and field outputs (R143 to R145, R265, R273): RDELAY ends when it is due; a held output that waits for an
edge only asks for it, an undervoltage restart whatever its class; the retries are refilled after enough on-time.  A bridge has no
retries of its own (R126), so these rows leave one as it is.
Orphan mode (R150 to R153, R517): a die whose heartbeat is 5 ms old enters it; in it the die places its own restarts, one
a millisecond of a group, keeps the wire margin as a backstop, and turns everything off after ORPHAN_OFF_S.
That the backstop's LATCH keeps cause 10, and that an undervoltage restart of a field output is urgent, are log entries 92 and 100.
Completion: exec answers a next state, each row under the conditions it names, for RETRY_DELAY_EXPIRY, RESTART_REQUEST,
RETRY_REFILL, ORPHAN_ENTRY, WIRE_BACKSTOP_TRIP, ORPHAN_TURN_ON, ORPHAN_OFF_EXPIRY. -/
def Obligations.RetriesAndOrphans : Prop :=
  (∀ (n t : Nat) (s : State), t ≤ s.live.mt.now →
    ((s.live.ch n).rdelay = some t →
      exec (.retryDelayExpiry (.load n)) s = .next (s.onLive fun l => l.setCh n fun c => { c with rdelay := none })) ∧
    ((s.live.fioCh n).rdelay = some t →
      exec (.retryDelayExpiry (.fio n)) s = .next (s.onLive fun l => l.setFio n fun c => { c with rdelay := none })) ∧
    exec (.retryDelayExpiry (.bridge n)) s = .next s) ∧
  (∀ (n : Nat) (s : State),
    ((s.live.ch n).restartDue = true →
      (s.live.sagDefers = false ∧ s.live.shedDelays = false ∨ s.live.urgent (s.live.ch n).cfg.prio = true ∨
        (s.live.ch n).restartWork n = .uvRestart n) →
      (s.live.die (n / 24)).orphan = false → s.live.dieLost (n / 24) = false →
      ((s.live.die (n / 24)).stale = false ∨ (s.live.ch n).restartWork n = .uvRestart n) →
      (s.live.ch n).lowest = n → (∀ e ∈ s.live.plan.edges, e.work.src ≠ .load n) →
      exec (.restartRequest (.load n)) s = .next (s.onLive fun l =>
        l.sendEdge ((l.ch n).restartWork n) (l.ch n).cfg.prio (l.ch n).cfg.latUs none)) ∧
    ((s.live.fioCh n).restartDue = true → s.live.sagDefers = false → s.live.shedDelays = false →
      (s.live.die 0).orphan = false → s.live.dieLost 0 = false → (s.live.die 0).stale = false →
      (s.live.fioCh n).lowest = n → (∀ e ∈ s.live.plan.edges, e.work.src ≠ .fio n) →
      exec (.restartRequest (.fio n)) s = .next (s.onLive fun l => l.sendEdge (.fioRestart n)
        (if (s.live.fioCh n).uvOff = true ∧ (s.live.fioCh n).fpend = false then 0 else (l.fioCh n).cfg.prio)
        (l.fioCh n).cfg.latUs none)) ∧
    exec (.restartRequest (.bridge n)) s = .next s) ∧
  (∀ (c : LoadCh) (n : Nat), (c.fpend = true → c.restartWork n = .restart n) ∧
    (c.fpend = false → c.uvOff = true → c.restartWork n = .uvRestart n) ∧
    (c.fpend = false → c.uvOff = false → c.restartWork n = .load n c.cmd.duty true)) ∧
  (∀ (n : Nat) (s : State),
    (max (ms 10000) (10 * ms (s.live.ch n).cfg.retryMs) ≤
        (s.live.ch n).onAcc + (if (s.live.ch n).conducts then s.live.mt.now - (s.live.ch n).onAt else 0) →
      exec (.retryRefill (.load n)) s = .next (s.onLive fun l => l.setCh n fun c => { c with retriesLeft := c.cfg.retries })) ∧
    (ms 10000 ≤ (s.live.fioCh n).onAcc + (if (s.live.fioCh n).conducts then s.live.mt.now - (s.live.fioCh n).onAt else 0) →
      exec (.retryRefill (.fio n)) s = .next (s.onLive fun l => l.setFio n fun c => { c with retriesLeft := c.cfg.retries })) ∧
    exec (.retryRefill (.bridge n)) s = .next s) ∧
  (∀ (d : Die) (s : State), s.live.pwr.mode ≠ .park →
    (s.live.sup.resetLine = true ∨ (s.live.die (dieIndex d)).lastHb + ms 5 ≤ s.live.mt.now) →
    exec (.orphanEntry d) s = .next (s.onLive fun l => l.orphan (dieIndex d))) ∧
  (∀ (l : Live) (d : Nat), (l.die d).orphan = true → l.orphan d = l) ∧
  (∀ (g n : Nat) (s : State), s.live.orphanSlot g = true →
    ((s.live.lowestOf g).find? (fun n => (s.live.ch n).orphanDue) = some n →
      exec (.orphanTurnOn g) s = .next (s.onLive fun l => ((l.bookSlew n).loadRestarts n (l.ch n).fpend).setDie (dieOfGroup g) fun d =>
        { d with turnOns := d.turnOns.set (g % 2) ((l.bookSlew n).loadRestarts n (l.ch n).fpend).mt.now })) ∧
    ((s.live.lowestOf g).find? (fun n => (s.live.ch n).orphanDue) = none → g < 2 →
      (s.live.fioLowest g).find? (fun n => (s.live.fioCh n).orphanDue) = some n →
      exec (.orphanTurnOn g) s = .next (s.onLive fun l => (l.fioRestarts n).setDie (dieOfGroup g) fun d =>
        { d with turnOns := d.turnOns.set (g % 2) (l.fioRestarts n).mt.now }))) ∧
  (∀ (k i dt : Nat) (clamps : Bool) (s : State), let n := (s.live.ch k).lowest
    let c := s.live.ch n
    let excess : Int := (i : Int) * i * dt / 10000000 - (100 * c.iSafe * c.iSafe : Nat) * (dt : Int) / 10000000
    n < s.live.load.ch.length → (s.live.die (n / 24)).orphan = true → c.conducts = true → 10 * c.iSafe < i →
    (c.iSafe ≠ 0xFFFF → c.qMargin ≤ excess →
      ∃ t, exec (.wireBackstopTrip k ⟨i, dt⟩ clamps) s = .next t ∧ t.kept = s.kept ∧
        (t.live.ch n).sw = (if clamps then .clamp else .off) ∧ (t.live.ch n).latch = true ∧ (t.live.ch n).latchCause = 10) ∧
    (excess < c.qMargin → exec (.wireBackstopTrip k ⟨i, dt⟩ clamps) s = .next (s.onLive fun l => l.setCh n fun c =>
      { c with qMargin := c.qMargin - excess, i2 := c.i2 + (i : Int) * i * dt / 10000000, i := i }))) ∧
  (∀ (d : Die) (cl : List Nat) (s : State), let x := s.live.die (dieIndex d)
    x.orphan = true → x.offDone = false → x.offS ≠ 0 → x.orphanAt + ms (1000 * x.offS) ≤ s.live.mt.now →
    dieIndex d < s.live.load.dies.length →
    ∃ t, exec (.orphanOffExpiry ⟨d, cl⟩) s = .next t ∧ t.kept = s.kept ∧ (t.live.die (dieIndex d)).offDone = true)

/-- The bridge commands with legal fields (R127 to R130): a configuration for a pair that is idle, a drive as an edge for the
Planisher, staged, or kept for a bridge in UV_WAIT or dropped for want of budget, a record, and the end of a LATCH; a LATCHED or
THERMAL_OFF bridge refuses a drive with STATE, as overvoltage does for a start, and a stale die refuses a start with BUDGET.
What a drive does to a bridge (R124, R128): LATCHED and THERMAL refuse it; FLOAT and BRAKE end a direction change and take
effect at once; a running bridge that is to run the other way first ramps down, PENDING; otherwise it takes the new state
with its duty ramped.
Completion: exec answers a next state, each row under the conditions it names, for BRIDGE_CONFIG, BRIDGE_DRIVE, BRIDGE_STATUS,
BRIDGE_CLEAR. -/
def Obligations.BridgeCommands : Prop :=
  (∀ m b s, Waits s 0x1101 m b →
    (let p := b.payload
     let c := BridgeCfg.ofBytes p
     byteAt p 0 ≤ 6 ∧ byteAt p 0 % 2 = 0 ∧ byteAt p 1 ≤ 1 ∧ c.decay ≤ 2 ∧ c.orphan ≤ 2 ∧ inRange 1000 25000 c.pwmHz = true ∧
     inRange 250 3000 c.deadNs = true ∧ c.deadNs % 25 = 0 ∧ inRange 5 40 c.ilimA = true ∧ c.prio ≤ 7 ∧ c.rampMs ≤ 5000 ∧
     inRange 10 2000 c.dirBrakeMax = true ∧ inRange 20 200 c.latUs = true ∧ c.edgeClass ≤ 3 ∧ byteAt p 17 < 4 ∧
     (resv b 18 2).2 = true) →
    let k := byteAt b.payload 0
    s.live.dieLost (sourceDie (.leg k)) = false → s.live.pwr.mode ≠ .drain → (s.live.bridge k).idle = true →
    (s.live.bridge (k + 1)).idle = true →
    exec .bridgeConfig s = .next (s.ends m ((s.live.applyBridgeCfg k (BridgeCfg.ofBytes b.payload)).endConfig m
      (bit (byteAt b.payload 17) 0) 0x1101 (k / 2) ((b.payload.drop 1).take 17)))) ∧
  (∀ (l : Live) (k : Nat) (c : BridgeCfg), k / 2 < l.load.brCfg.length →
    (l.applyBridgeCfg k c).brc k = c ∧ ((l.brc k).half = c.half → (l.applyBridgeCfg k c).load.br = l.load.br)) ∧
  (∀ m b s, Waits s 0x1102 m b →
    let k := byteAt b.payload 0
    let a := byteAt b.payload 1
    let ovr := rd b.payload 4 2
    k ≤ 7 → ((s.live.brc k).half = true ∨ k % 2 = 0) → a ≤ 4 → ((s.live.brc k).half = true → a ≠ 2 ∧ a ≠ 3) →
    ((s.live.brc k).half = false → a ≠ 4) → (ovr ≤ 5000 ∨ ovr = 0xFFFF) → (resv b 6 2).2 = true →
    s.live.dieLost (sourceDie (.leg k)) = false → s.live.pwr.mode ≠ .drain →
    ((s.live.bridge k).st = .latched ∨ (s.live.bridge k).st = .thermalOff → exec .bridgeDrive s = .next (s.answer m .state 0 [])) ∧
    ((s.live.bridge k).st = .float ∨ (s.live.bridge k).st = .brake → 2 ≤ a → s.live.pwr.overvolt = true →
      exec .bridgeDrive s = .next (s.answer m .state 0 [])) ∧
    ((s.live.bridge k).st = .float ∨ (s.live.bridge k).st = .brake → 2 ≤ a → s.live.pwr.overvolt = false →
      (s.live.die (sourceDie (.leg k))).stale = true → exec .bridgeDrive s = .next (s.answer m .budget 0 [])) ∧
    ((s.live.bridge k).st ≠ .latched → (s.live.bridge k).st ≠ .thermalOff →
      (a < 2 ∨ (s.live.bridge k).runs = true ∨ s.live.pwr.overvolt = false ∧ (s.live.die (sourceDie (.leg k))).stale = false) →
      (b.staged = true → s.live.host.staged.length < 256 → s.live.driveFits k a (rd b.payload 2 2) = true →
        (let r := s.live.bridgeReserve k a
         s.live.reserveFits (.leg k) r.1 r.2 = true → exec .bridgeDrive s = .next (s.ends m (okReply,
           s.live.stage b.seq (.bridge k a (rd b.payload 2 2) (s.live.rampOf k ovr)) (sourceGroup (.leg k)) r.1 r.2)))) ∧
      (b.staged = false → (s.live.bridge k).st = .uvWait ∨ 2 ≤ a ∧ s.live.isDropped (.leg k) = true →
        exec .bridgeDrive s = .next (s.ends m (refuse .pending, s.live.setBr k fun x =>
          { x with action := a, target := rd b.payload 2 2, ramp := s.live.rampOf k ovr }))) ∧
      (b.staged = false → (s.live.bridge k).st ≠ .uvWait → (a < 2 ∨ s.live.isDropped (.leg k) = false) →
        exec .bridgeDrive s = .next (s.ends m ((((s.live.withdraw (.leg k)).forgetDropped (.leg k)).sendEdge
          (.bridge k a (rd b.payload 2 2) (s.live.rampOf k ovr)) (s.live.brc k).prio (s.live.brc k).latUs
            (some (m, 0))).openEntries m .none [none]))))) ∧
  (∀ m b s, Waits s 0x1103 m b → s.live.brOk (byteAt b.payload 0) = true →
    ∃ p, exec .bridgeStatus s = .next (s.answer m .ok 0 p) ∧ p.length = 16 ∧ byteAt p 0 = byteAt b.payload 0 ∧
      byteAt p 1 = (s.live.bridge (byteAt b.payload 0)).st.code % 256) ∧
  (∀ m b s, Waits s 0x1104 m b → s.live.brOk (byteAt b.payload 0) = true →
    s.live.dieLost (sourceDie (.leg (byteAt b.payload 0))) = false →
    ((s.live.bridge (byteAt b.payload 0)).st = .latched → exec .bridgeClear s = .next (s.ends m (okReply,
      (s.live.changed (.leg (byteAt b.payload 0))).setBr (byteAt b.payload 0) fun x => { x with st := .float, action := 0 }))) ∧
    ((s.live.bridge (byteAt b.payload 0)).st ≠ .latched → exec .bridgeClear s = .next (s.answer m .state 0 []))) ∧
  (∀ (b : Bridge) (now a d r : Nat),
     (b.st = .latched ∨ b.st = .thermalOff → b.drive now a d r = (.state, b)) ∧
     (b.st = .float ∨ b.st = .brake → 2 ≤ a → (b.drive now a d r).1 = .ok ∧ (b.drive now a d r).2.st = actionState a ∧
       (b.drive now a d r).2.toDuty = d ∧ (b.drive now a d r).2.fromDuty = 0) ∧
     (b.st = .forward → a = 3 → (b.drive now a d r).1 = .pending ∧ (b.drive now a d r).2.st = .reversing ∧
       (b.drive now a d r).2.dirStep = 1 ∧ (b.drive now a d r).2.toDuty = 0) ∧
     (b.st = .forward ∨ b.st = .reverse ∨ b.st = .level ∨ b.st = .reversing → a < 2 →
       (b.drive now a d r).1 = .ok ∧ (b.drive now a d r).2.st = actionState a ∧ (b.drive now a d r).2.dirStep = 0) ∧
     (b.st = .forward → a = 2 → (b.drive now a d r).1 = .ok ∧ (b.drive now a d r).2.st = .forward ∧
       (b.drive now a d r).2.fromDuty = b.dutyAt now ∧ (b.drive now a d r).2.toDuty = d))

/-- Direction changes and protection of bridges (R124 to R126).
Completion: exec answers a next state, each row under the conditions it names, for DIR_RAMP_DOWN_END, DIR_DONE, DIR_STALLED,
BRIDGE_LIMIT, BRIDGE_SHORT, BRIDGE_THERMAL, BRIDGE_UV, BRIDGE_OPEN_LOAD. -/
def Obligations.BridgeEvents : Prop :=
  (∀ (k : Nat) (s : State), (s.live.bridge k).dirStep = 1 → (s.live.bridge k).dutyAt s.live.mt.now = 0 →
    exec (.dirRampDownEnd k) s = .next (s.onLive fun l => (l.changed (.leg k)).setBr k fun b =>
      { b with dirStep := 2 }.rampTo l.mt.now 0 0 0)) ∧
  (∀ (k i t : Nat) (s : State), (s.live.bridge k).dirStep = 2 → i < 50 → ms 1 ≤ t →
    s.live.mt.now ≤ (s.live.bridge k).dirAt + ms (s.live.brc k).dirBrakeMax →
    exec (.dirDone k i t) s = .next (s.onLive fun l => ((l.changed (.leg k)).setBr k fun b =>
      ({ b with st := actionState b.action, dirStep := 0, i := b.motor i }).rampTo (l.mt.now + (l.brc k).deadNs) 0 b.target
        b.ramp).bridgeEvent k 0)) ∧
  (∀ (k : Nat) (s : State), (s.live.bridge k).dirStep = 2 →
    (s.live.bridge k).dirAt + ms (s.live.brc k).dirBrakeMax ≤ s.live.mt.now →
    exec (.dirStalled k) s = .next (s.onLive fun l =>
      ((l.changed (.leg k)).setBr k fun b => { b with st := .brake, action := 1, dirStep := 0 }).bridgeEvent k 1)) ∧
  (∀ (leg i t : Nat) (s : State), (s.live.bridge (s.live.bridgeOfLeg leg)).runs = true →
    100 * (s.live.brc (s.live.bridgeOfLeg leg)).ilimA < i → (s.live.bridge (s.live.bridgeOfLeg leg)).limitRaised = none →
    (t < ms 100 → exec (.bridgeLimit leg i t) s = .next (s.onLive fun l => l.setBr (l.bridgeOfLeg leg) fun b =>
      { b with limiting := true, i := b.motor i })) ∧
    (ms 100 ≤ t → exec (.bridgeLimit leg i t) s = .next (s.onLive fun l => (l.setBr (l.bridgeOfLeg leg) fun b =>
      { b with limiting := true, i := b.motor i, limitRaised := some l.mt.now }).bridgeEvent (l.bridgeOfLeg leg) 2))) ∧
  (∀ (leg i v : Nat) (s : State), (s.live.bridge (s.live.bridgeOfLeg leg)).st ≠ .latched →
    (6000 < i ∨ 3000 < v ∧ (s.live.bridge (s.live.bridgeOfLeg leg)).conducts = true) →
    exec (.bridgeShort leg i v) s = .next (s.onLive fun l =>
      (l.bridgeStops (l.bridgeOfLeg leg) .latched).bridgeEvent (l.bridgeOfLeg leg) 3)) ∧
  (∀ (leg : Nat) (tj : Int) (s : State), 1700 ≤ tj → (s.live.bridge (s.live.bridgeOfLeg leg)).st = .forward →
    exec (.bridgeThermal leg tj) s = .next (s.onLive fun l =>
      ((l.setBr leg fun b => { b with tj := tj }).bridgeStops (l.bridgeOfLeg leg) .thermalOff).bridgeEvent
        (l.bridgeOfLeg leg) 4)) ∧
  (∀ (leg : Nat) (tj : Int) (s : State), (s.live.bridge (s.live.bridgeOfLeg leg)).st = .thermalOff → leg < s.live.load.br.length →
    tj < 1500 → (∀ j ∈ s.live.legsOf (s.live.bridgeOfLeg leg), j ≠ leg → (s.live.bridge j).tj < 1500) →
    exec (.bridgeThermal leg tj) s = .next (s.onLive fun l =>
      (((l.setBr leg fun b => { b with tj := tj }).changed (.leg (l.bridgeOfLeg leg))).setBr (l.bridgeOfLeg leg) fun b =>
        { b with st := .float, action := 0 }).bridgeEvent (l.bridgeOfLeg leg) 5)) ∧
  (∀ (k : Nat) (s : State), s.live.brOk k = true →
    (s.live.pwr.uv.getD (sourceGroup (.leg k)) false = true → (s.live.bridge k).st = .forward →
      exec (.bridgeUv k) s = .next (s.onLive fun l => (l.bridgeStops k .uvWait).bridgeEvent k 6)) ∧
    (s.live.pwr.uv.getD (sourceGroup (.leg k)) false = false → (s.live.bridge k).st = .uvWait → (s.live.bridge k).action < 2 →
      exec (.bridgeUv k) s = .next (s.onLive fun l => ((l.changed (.leg k)).setBr k fun b =>
        ({ b with st := actionState b.action }).rampTo l.mt.now 0 0 b.ramp).bridgeEvent k 6)) ∧
    (s.live.pwr.uv.getD (sourceGroup (.leg k)) false = false → (s.live.bridge k).st = .uvWait → 2 ≤ (s.live.bridge k).action →
      k < s.live.load.br.length →
      exec (.bridgeUv k) s = .next (s.onLive fun l => (((l.changed (.leg k)).setBr k fun b =>
        ({ b with st := actionState b.action }).rampTo l.mt.now 0 b.target b.ramp).askSlot
          (((l.changed (.leg k)).setBr k fun b => ({ b with st := actionState b.action }).rampTo l.mt.now 0 b.target b.ramp).bridgeSlot
            k (l.bridge k).target) .on false none).bridgeEvent k 6))) ∧
  (∀ (k i t : Nat) (s : State), ms 100 ≤ t →
    ((s.live.bridge k).openLoad = false → (s.live.bridge k).runs = true → i < 20 → 16384 ≤ (s.live.bridge k).dutyAt s.live.mt.now →
      exec (.bridgeOpenLoad k i t) s = .next (s.onLive fun l =>
        (l.setBr k fun b => { b with openLoad := true, i := b.motor i }).bridgeEvent k 7)) ∧
    ((s.live.bridge k).openLoad = true → 20 < i → exec (.bridgeOpenLoad k i t) s = .next (s.onLive fun l =>
      (l.setBr k fun b => { b with openLoad := false, i := b.motor i }).bridgeEvent k 7)))

/-! ### The Planisher and the thermal ledger (06_planisher_thermal_ledger.md) -/

/-- Plan frames and generations (R160, R166, R173): a frame is taken once, with its number; a swap puts the admitted slots in
force under the next generation number with EV_PLAN_GENERATION; a build that is late is reported and starts anew.
The PLAN commands with legal fields (R186 to R189): the seed, dither and shares, and a booking, are put in force for the
next generation; PLAN.STATUS and PLAN.DUMP give their records.
Completion: exec answers a next state, each row under the conditions it names, for EV_PLAN_BUILD_LATE, PLAN_FRAME,
GENERATION_SWAP, PLAN_CONFIG, PLAN_CHANNEL, PLAN_STATUS, PLAN_DUMP. -/
def Obligations.PlanFramesAndCommands : Prop :=
  (∀ s : State, s.live.sup.phase = .running → s.live.plan.frame < s.live.mt.now / frameNs →
    ∃ t, exec .planFrame s = .next t ∧ t.kept = s.kept ∧ t.live.plan.frame = s.live.mt.now / frameNs ∧
      t.live.plan.received = true ∧ t.live.plan.gen = s.live.plan.gen ∧ t.live.mt = s.live.mt ∧
      t.live.plan.peak = (List.range 4).map fun g => s.live.framePeak g (s.live.mt.now / frameNs - 1)) ∧
  (∀ (q : Nat) (s : State), s.live.sup.phase = .running → s.live.plan.dirty = some q →
    q + us 200 < s.live.mt.now / frameNs * frameNs →
    ∃ t, exec .generationSwap s = .next t ∧ t.kept = s.kept ∧ t.live.plan.gen = (s.live.plan.gen + 1) % 2 ^ 32 ∧
      t.live.plan.stand = t.live.plan.want ∧ t.live.mt = s.live.mt) ∧
  (∀ (n : Nat) (s : State), s.live.sup.phase = .running → s.live.plan.dirty.isSome = true → 50 < n →
    exec (.evPlanBuildLate n) s = .next (s.onLive fun l => ({ l with plan := { l.plan with
      dirty := some l.mt.now,
      changes := l.plan.changes.map fun c => if c.admitted then c else { c with since := l.mt.now } } } : Live).raise 0x085 warn 0
        (le 4 (l.plan.gen + 1) ++ le 2 (min n 0xFFFF)))) ∧
  (∀ m b s, Waits s 0x1201 m b →
    (let p := b.payload
     byteAt p 4 ≤ 40 ∧ byteAt p 5 < 2 ∧ inRange 10 10000 (rd p 6 2) = true ∧
     (∀ g, g < 4 → inRange 1 45 (byteAt p (8 + g)) = true ∧ inRange 1 80 (byteAt p (12 + g)) = true) ∧ (resv b 16 4).2 = true) →
    exec .planConfig s = .next (s.ends m (({ s.live with plan := { s.live.plan with
      cfg := PlanConfig.ofBytes b.payload } } : Live).planDirty.endConfig m (bit (byteAt b.payload 5) 0) 0x1201 0
        (b.payload.take 20)))) ∧
  (∀ m b s, Waits s 0x1202 m b → byteAt b.payload 0 = 0 →
    let p := b.payload
    let k := byteAt p 1
    k ≤ 47 → inRange 1 (s.live.ch k).cfg.ilim (rd p 2 2) = true →
    (rd p 4 2 = 0 ∧ rd p 6 2 = 0 ∨ rd p 4 2 ≠ 0 ∧ inRange (rd p 2 2) (s.live.ch k).cfg.ilim (rd p 4 2) = true ∧ rd p 6 2 ≤ 5000) →
    byteAt p 8 < 2 → (resv b 9 3).2 = true →
    ((s.live.pwr.mode = .drain ∨ (s.live.ch k).idle = false) → exec .planChannel s = .next (s.answer m .state 0 [])) ∧
    (s.live.pwr.mode ≠ .drain → (s.live.ch k).idle = true → (s.live.ch k).lowest = k →
      exec .planChannel s = .next (s.ends m ((s.live.applyBook k p).endConfig m (bit (byteAt p 8) 0) 0x1202 k p)))) ∧
  (∀ m b s, Waits s 0x1202 m b → byteAt b.payload 0 = 1 →
    let p := b.payload
    let k := byteAt p 1
    s.live.brOk k = true → inRange 1 (10 * (s.live.brc k).ilimA) (rd p 2 2) = true →
    (rd p 4 2 = 0 ∧ rd p 6 2 = 0 ∨ rd p 4 2 ≠ 0 ∧ inRange (rd p 2 2) (10 * (s.live.brc k).ilimA) (rd p 4 2) = true ∧ rd p 6 2 ≤ 5000) →
    byteAt p 8 < 2 → (resv b 9 3).2 = true →
    s.live.pwr.mode ≠ .drain → (s.live.bridge (k / 2 * 2)).idle = true → (s.live.bridge (k / 2 * 2 + 1)).idle = true →
    exec .planChannel s = .next (s.ends m ((s.live.applyBook (48 + k) p).endConfig m (bit (byteAt p 8) 0) 0x1202 (48 + k) p))) ∧
  (∀ m b s, Waits s 0x1203 m b → exec .planStatus s = .next (s.answer m .ok 0 s.live.planRecord) ∧
    s.live.planRecord.length = 44 ∧ s.live.planRecord.take 4 = le 4 s.live.plan.gen) ∧
  (∀ m b s, Waits s 0x1204 m b → rd b.payload 0 2 < s.live.standList.length → inRange 1 60 (byteAt b.payload 2) = true →
    (resv b 3 1).2 = true → ∃ p, exec .planDump s = .next (s.answer m .ok 0 p) ∧ p.take 4 = le 4 s.live.plan.gen ∧
      p.length = 8 + 8 * min (byteAt b.payload 2) (s.live.standList.length - rd b.payload 0 2))

/-- The thermal ledger (R178 to R181, R22): an update takes the lid temperature and the module power and saves the record; a
wire whose T_W reaches T_TRIP turns its channel off and latches it; a die without fresh data for 5 ms is stale; a booking
exceeded by 10 % for 10 ms is reported once.
Shedding (R182 to R184): P_1S above PD_MAX enters level 1 with the factor down by 16; at level 1 it falls every 100 ms, no
lower than SHED_DIM_MIN; at level 3 a channel is shed every 500 ms; stepping back releases level 2 after 5 s.
The LEDGER commands with legal fields (R190 to R192).
Completion: exec answers a next state, each row under the conditions it names, for LEDGER_UPDATE, LEDGER_DIE_STALE,
BOOKING_EXCEEDED, SHED_LEVEL_ENTRY, SHED_FACTOR_STEP, SHED_CHANNEL, SHED_STEP_BACK, LEDGER_WIRE, LEDGER_CONFIG, LEDGER_STATUS. -/
def Obligations.ThermalAndWireLedger : Prop :=
  (∀ (d : LedgerData) (s : State), s.live.sup.phase = .running → ∃ t, exec (.ledgerUpdate d) s = .next t ∧ t.kept = s.kept ∧
    t.live.ledger.tLid = d.lid.foldl max (d.lid.headD 250) ∧ t.live.ledger.saved = some t.live.ledgerRecord ∧
    t.live.ledger.pmod.length ≤ 1000 ∧ t.live.mt = s.live.mt ∧ t.live.pwr = s.live.pwr) ∧
  (∀ (cl : List Nat) (l : Live) (n : Nat), n < l.load.ch.length → n < l.ledger.wires.length → (l.ch n).lowest = n → (l.ch n).conducts = true →
    (l.ch n).cfg.wireRetry = false → (l.wireCfg n).off = false → l.offThisFrame n = none →
    (l.wireCfg n).tTrip * nano ≤ (l.wireCfg n).step (l.ledger.wires.getD n (Wire.init n)).tw (l.wireCurrent n) →
    ((l.wireUpdate cl n).ch n).sw = (if cl.contains n then .clamp else .off) ∧ ((l.wireUpdate cl n).ch n).latch = true ∧
    ((l.wireUpdate cl n).ch n).latchCause = 10 ∧
    (l.wireUpdate cl n).ledger.wires[n]? = (l.ledger.wires[n]?).map fun w => { w with
      tw := (l.wireCfg n).step w.tw (l.wireCurrent n), warned := true }) ∧
  (∀ (d : Die) (s : State), s.live.sup.phase = .running → (s.live.die (dieIndex d)).stale = false →
    (s.live.die (dieIndex d)).fresh + ms 5 ≤ s.live.mt.now → exec (.ledgerDieStale d) s = .next (s.onLive fun l =>
      (l.setDie (dieIndex d) fun x => { x with stale := true }).raise 0x08D sevFault 0 (le 1 (dieIndex d)))) ∧
  (∀ (src : Source) (i t : Nat) (s : State), s.live.sup.phase = .running → s.live.sourceOn src = true → ms 10 ≤ t →
    11 * s.live.bookingInForce src < i → s.live.plan.exceeded.contains src = false →
    exec (.bookingExceeded src i t) s = .next (s.onLive fun l =>
      ({ l with plan := { l.plan with exceeded := src :: l.plan.exceeded } } : Live).raise 0x082 warn 0
        (le 2 (sourceId src) ++ le 2 (i / 10) ++ le 2 (l.bookingInForce src)))) ∧
  (∀ (q : Nat) (s : State), s.live.sup.phase = .running → s.live.shedFree = true → s.live.ledger.overSince = some q →
    q ≤ s.live.mt.now → s.live.ledger.level = 0 → s.live.ledger.stepping = false →
    exec .shedLevelEntry s = .next (s.onLive fun l => l.factorFalls.setLevel 1)) ∧
  (∀ s : State, s.live.sup.phase = .running → s.live.shedFree = true → s.live.ledger.level = 1 → s.live.ledger.stepping = false →
    s.live.ledger.stepAt + ms 100 ≤ s.live.mt.now → exec .shedFactorStep s = .next (s.onLive fun l =>
      l.setLedger fun g => { g with factor := max g.cfg.dimMin (g.factor - 16), stepAt := l.mt.now })) ∧
  (∀ (n : Nat) (s : State), s.live.sup.phase = .running → s.live.shedFree = true → s.live.ledger.level = 3 →
    s.live.ledger.stepping = false → s.live.ledger.stepAt + ms 500 ≤ s.live.mt.now → s.live.shedChoice = some n →
    (s.live.ch n).conducts = true → exec .shedChannel s = .next (s.onLive fun l =>
      (((l.setLedger fun g => { g with stepAt := l.mt.now }).setCh n fun c => { c with shed := true }).setLedger fun g =>
        { g with shed := n :: g.shed }).sendEdge (.shedOff n) (l.ch n).cfg.prio (l.ch n).cfg.latUs none |>.raise 0x089 warn 0
          (le 1 n ++ le 1 (l.ch n).cfg.prio))) ∧
  (∀ (q : Nat) (s : State), s.live.sup.phase = .running → s.live.shedFree = true → s.live.ledger.level = 2 →
    s.live.ledger.stepping = false → s.live.ledger.underSince = some q → q + ms 5000 ≤ s.live.mt.now →
    exec .shedStepBack s = .next (s.onLive fun l => (l.setLedger fun g => { g with stepping := true }).releaseShed.setLevel 1)) ∧
  (∀ m b s, Waits s 0x1301 m b →
    (let p := b.payload
     let c := WireCfg.ofBytes p
     byteAt p 0 ≤ 47 ∧ c.section_ ≤ 9 ∧ inRange 1 1000 c.length = true ∧ inRange 70 250 c.tIns = true ∧
     inRange 5 30 c.margin = true ∧ inRange 5 50 c.hyst = true ∧ -40 ≤ c.tAmb ∧ c.tAmb ≤ 125 ∧ inRange 100 300 c.bundle = true ∧
     inRange 90 150 c.restC = true ∧ byteAt p 11 < 4 ∧ (resv b 12 4).2 = true ∧ c.tAmb < c.tTrip - c.hyst) →
    let n := byteAt b.payload 0
    ((s.live.ch n).lowest = n → (s.live.ch n).idle = true → exec .ledgerWire s = .next (s.ends m ((s.live.setWire n fun w =>
      { w with cfg := WireCfg.ofBytes b.payload, set := true }).endConfig m (bit (byteAt b.payload 11) 0) 0x1301 n b.payload))) ∧
    ((s.live.ch n).lowest ≠ n ∨ (s.live.ch n).idle = false → exec .ledgerWire s = .next (s.answer m .state 0 []))) ∧
  (∀ m b s, Waits s 0x1302 m b → byteAt b.payload 0 ≤ 7 → byteAt b.payload 2 < 4 → (resv b 3 1).2 = true →
    inRange 100 10000 (rd b.payload 4 2) = true → (resv b 6 2).2 = true →
    exec .ledgerConfig s = .next (s.ends m ((s.live.setLedger fun g => { g with cfg :=
      { protect := byteAt b.payload 0, dimMin := byteAt b.payload 1, signs := bit (byteAt b.payload 2) 0,
        offWait := rd b.payload 4 2 } }).endConfig m (bit (byteAt b.payload 2) 1) 0x1302 0 b.payload))) ∧
  (∀ m b s, Waits s 0x1303 m b → byteAt b.payload 0 ≤ 47 → inRange 1 48 (byteAt b.payload 1) = true →
    byteAt b.payload 0 + byteAt b.payload 1 ≤ 48 →
    ∃ p, exec .ledgerStatus s = .next (s.answer m .ok 0 p) ∧ byteAt p 6 = s.live.ledger.level % 256 ∧
      p.length = 16 + 8 * byteAt b.payload 1 ∧
      p.drop 16 = (List.range (byteAt b.payload 1)).flatMap fun i => s.live.wireRecord (byteAt b.payload 0 + i))

/-- PD_MAX in mW at a lid temperature in 0.1 °C: the rows of R571, and the straight line between them. -/
def Obligations.PdMaxTable : Prop :=
  ∀ l : Live, (l.ledger.tLid ≤ 700 → l.pdMax = 28000) ∧ (l.ledger.tLid = 840 → l.pdMax = 22400) ∧
    (l.ledger.tLid = 980 → l.pdMax = 16800) ∧ (l.ledger.tLid = 1120 → l.pdMax = 11200) ∧ (l.ledger.tLid = 1200 → l.pdMax = 8000) ∧
    (l.ledger.tLid = 1260 → l.pdMax = 5600) ∧ (1400 ≤ l.ledger.tLid → l.pdMax = 0) ∧
    (700 ≤ l.ledger.tLid → l.ledger.tLid ≤ 1400 → ((l.pdMax : Nat) : Int) = (1400 - l.ledger.tLid) * 40)

/-! ### Valves and banks (07_valve_drive.md) -/

/-- The VALVE commands with legal fields on an adopted die outside DRAIN (R215 to R221).
Completion: exec answers a next state, each row under the conditions it names, for VALVE_CONFIG, VALVE_BANK, VALVE_FIRE,
VALVE_RELEASE, VALVE_STATUS, VALVE_CLEAR. -/
def Obligations.ValveCommands : Prop :=
  (∀ m b s, Waits s 0x2001 m b → firstBad (valveCfgChecks b) = none → s.live.dieLost 1 = false → s.live.pwr.mode ≠ .drain →
    ((s.live.valve' (byteAt b.payload 0)).idle = true → exec .valveConfig s = .next (s.ends m
      ((s.live.setValve (byteAt b.payload 0) fun x => { x with
        cfg := ValveCfg.ofBytes b.payload, tTravel := 0, learned := 0, landDuty := byteAt b.payload 32 }).endConfig m
          (bit (byteAt b.payload 1) 0) 0x2001 (byteAt b.payload 0) b.payload))) ∧
    ((s.live.valve' (byteAt b.payload 0)).idle = false → exec .valveConfig s = .next (s.answer m .state 0 []))) ∧
  (∀ m b s, Waits s 0x2002 m b → byteAt b.payload 0 ≤ 3 → byteAt b.payload 1 < 2 → rd b.payload 2 2 ≤ 1000 →
    inRange 1 12 (byteAt b.payload 4) = true → (resv b 5 3).2 = true → s.live.dieLost 1 = false → s.live.pwr.mode ≠ .drain →
    (∀ v ∈ bankValves (byteAt b.payload 0), (s.live.valve' v).idle = true) →
    exec .valveBank s = .next (s.ends m ((s.live.setBank (byteAt b.payload 0) fun x => { x with
      stagger := rd b.payload 2 2, icont := byteAt b.payload 4, newCfg := none }).endConfig m (bit (byteAt b.payload 1) 0) 0x2002
        (byteAt b.payload 0) b.payload))) ∧
  (∀ m b s, Waits s 0x2003 m b →
    let v := byteAt b.payload 0
    let x := s.live.valve' v
    v ≤ 11 → byteAt b.payload 1 ≤ 1 → (byteAt b.payload 1 = 1 → x.cfg.interlock ≠ 1) →
    (byteAt b.payload 1 = 1 ↔ rd b.payload 2 2 ≠ 0) → rd b.payload 4 4 ≤ 55000 → s.live.dieLost 1 = false →
    s.live.pwr.mode ≠ .drain → s.live.pwr.overvolt = false → (s.live.die 1).stale = false →
    let f : FireWait := {
      owner := some m, pulse := if byteAt b.payload 1 = 1 then some (rd b.payload 2 2) else none, arrived := s.live.mt.now,
      deadline := s.live.mt.now + us (if rd b.payload 4 4 = 0 then 55000 else rd b.payload 4 4), earliest := 0, tick := none,
      edge := 0, refire := false }
    (x.phase = .latched → exec .valveFire s = .next (s.answer m .state 4 [])) ∧
    (x.phase = .peak ∨ x.phase = .hold → exec .valveFire s = .next (s.answer m .state 1 [])) ∧
    (x.phase = .idle → x.decaying = false → x.fire = none → (x.cfg.interlock = 2 → s.live.chimeOk v = true) →
      exec .valveFire s = .next (s.onLive fun l =>
        (((l.setValve v fun x => { x with fire := some f }).hold m).forgetDropped (.valve v)).tryFire v)) ∧
    ((x.phase = .decay ∨ x.phase = .offTime ∧ x.offUntil ≤ f.deadline) → x.fire = none →
      (x.cfg.interlock = 2 → s.live.chimeOk v = true) → exec .valveFire s = .next (s.onLive fun l =>
        ((l.setValve v fun x => { x with fire := some f }).hold m).forgetDropped (.valve v)))) ∧
  (∀ m b s, Waits s 0x2004 m b → byteAt b.payload 0 ≤ 11 → s.live.dieLost 1 = false →
    let v := byteAt b.payload 0
    let x := s.live.valve' v
    x.fire = none → s.live.isDropped (.valve v) = false →
    (x.phase = .idle ∨ x.phase = .decay ∨ x.phase = .offTime → exec .valveRelease s = .next (s.answer m .state 1 [])) ∧
    (x.phase = .latched → exec .valveRelease s = .next (s.answer m .state 4 [])) ∧
    (x.phase = .peak ∨ x.phase = .hold → (x.cfg.interlock = 1 → s.live.chimeOk v = true) →
      exec .valveRelease s = .next (s.ends m (okReply, s.live.releaseValve v))) ∧
    (x.phase = .peak ∨ x.phase = .hold → x.cfg.interlock = 1 → s.live.chimeOk v = false →
      exec .valveRelease s = .next (s.ends m (s.live.gated v))) ∧
    (x.phase = .uvWait → (x.cfg.interlock = 1 → s.live.chimeOk v = true) →
      exec .valveRelease s = .next (s.ends m (okReply, (s.live.enterPhase v .idle).setValve v fun x => { x with held := false })))) ∧
  (∀ m b s, Waits s 0x2005 m b → byteAt b.payload 0 ≤ 11 →
    ∃ p, exec .valveStatus s = .next (s.answer m .ok 0 p) ∧ p.length = 32 ∧ byteAt p 0 = byteAt b.payload 0 ∧
      byteAt p 1 = (s.live.valve' (byteAt b.payload 0)).state % 256 ∧
      (p.drop 16).take 4 = le 4 (strokes s.kept.store (byteAt b.payload 0))) ∧
  (∀ m b s v, Waits s 0x2006 m b → rd b.payload 0 4 = 2 ^ v → v < 12 → s.live.dieLost 1 = false →
    exec .valveClear s = .next (s.ends m (.done .ok 0 (le 4 (if (s.live.valve' v).phase = .latched then 2 ^ v else 0)),
      if (s.live.valve' v).phase = .latched then s.live.enterPhase v .idle else s.live)))

/-- The phases of a valve event (R197, R198, R205): the fire edge at its tick, the end of PEAK, DROP, HOLD, decay and OFF_TIME,
each under its condition; a bank without an active valve goes off after 20 us.
Movement detection and landing control (R201 to R203): a sample moves the detector, a chopping period draws the next one
from the spread, a stroke without a landing is reported once, LAND begins its lead before the predicted landing, and ends in
PEAK its lead after it.
Completion: exec answers a next state, each row under the conditions it names, for OFF_TIME_WAIT_END, FIRED, PEAK_END,
DROP_END, HOLD_END, DECAY_END, OFF_TIME_END, BANK_OFF, CHOP_PERIOD, VALVE_SAMPLE, NO_MOVE, LAND_ENTRY, LAND_RESCUE. -/
def Obligations.ValveMovement : Prop :=
  (∀ (v u : Nat) (f : FireWait) (s : State), v < s.live.valve.valves.length → (s.live.valve' v).fire = some f → f.tick = some u →
    u * tickNs ≤ s.live.mt.now → (s.live.valve' v).active = false → (s.live.valve' v).phase ≠ .latched →
    (s.live.bank (v / 3)).st = .on ∨ (s.live.bank (v / 3)).st = .off → v / 3 < s.live.valve.banks.length →
    ∃ t, exec (.fired v) s = .next t ∧ t.kept = s.kept ∧ (t.live.bank (v / 3)).st = .on ∧ (t.live.valve' v).phase = .peak ∧
      (t.live.valve' v).fire = none ∧ (t.live.valve' v).fireMt = u * tickNs ∧ (t.live.valve' v).pulse = f.pulse ∧
      (t.live.valve' v).held = f.pulse.isNone ∧ (t.live.valve' v).stagger = (u - f.earliest) * tickNs) ∧
  (∀ (v : Nat) (s : State), (s.live.valve' v).phase = .peak →
    (s.live.valve' v).fireMt + (s.live.valve' v).cfg.tPeak * 100000 ≤ s.live.mt.now →
    exec (.peakEnd v) s = .next (s.onLive fun l =>
      (((l.endStroke v).rebook v (tickOf l.mt.now) (l.valve' v).cfg.ihold).enterPhase v .drop).setValve v fun x =>
        { x with lowOn := false })) ∧
  (∀ (v i : Nat) (s : State), (s.live.valve' v).phase = .drop → i ≤ 100 * (s.live.valve' v).cfg.ihold →
    exec (.dropEnd v i) s = .next (s.onLive fun l =>
      let l := (l.enterPhase v .hold).setValve v fun x => { x.startPeriod l.mt.now i with i := i / 10 }
      l.askSlot (l.holdSlot v) .on true none)) ∧
  (∀ (v p : Nat) (s : State), (s.live.valve' v).phase = .hold → (s.live.valve' v).pulse = some p →
    (s.live.valve' v).fireMt + p * 100000 ≤ s.live.mt.now → exec (.holdEnd v) s = .next (s.onLive fun l => l.releaseValve v)) ∧
  (∀ (v i : Nat) (s : State), v < s.live.valve.valves.length → (s.live.valve' v).phase = .decay → i < 50 →
    ∃ t, exec (.decayEnd v i) s = .next t ∧ t.kept = s.kept ∧ (t.live.valve' v).phase = .offTime ∧
      (t.live.valve' v).offUntil = s.live.mt.now + (s.live.valve' v).cfg.offMin * 100000) ∧
  (∀ (v : Nat) (s : State), (s.live.valve' v).phase = .offTime → (s.live.valve' v).decaying = false →
    (s.live.valve' v).offUntil ≤ s.live.mt.now → exec (.offTimeEnd v) s = .next (s.onLive fun l => (l.enterPhase v .idle).setValve v Valve.takeNew)) ∧
  (∀ (v : Nat) (f : FireWait) (s : State), (s.live.valve' v).fire = some f → f.tick = none → (s.live.valve' v).phase = .offTime →
    (s.live.valve' v).offUntil ≤ s.live.mt.now → (s.live.valve' v).decaying = false →
    exec (.offTimeWaitEnd v) s = .next (s.onLive fun l => ((l.enterPhase v .idle).setValve v Valve.takeNew).tryFire v)) ∧
  (∀ (b : Nat) (s : State), (s.live.bank b).st = .on → (∀ v ∈ bankValves b, (s.live.valve' v).active = false) →
    (s.live.bank b).quietAt + us 20 ≤ s.live.mt.now →
    exec (.bankOff b) s = .next (s.onLive fun l => (l.setBank b fun x => { x with st := .off }).bankEvent b 1)) ∧
  (∀ (v i : Nat) (s : State), v < s.live.valve.valves.length → (s.live.valve' v).phase = .peak →
    (s.live.valve' v).det.regulated = false → (s.live.valve' v).det.land = none →
    let d0 := (s.live.valve' v).det.sample i
    d0.confirms (10 * (s.live.valve' v).cfg.dipMin) i = false →
    ∃ t, exec (.valveSample v i) s = .next t ∧ t.kept = s.kept ∧ t.live.host = s.live.host ∧ (t.live.valve' v).i = i / 10 ∧
      (t.live.valve' v).det = { d0.step (10 * (s.live.valve' v).cfg.dipMin) (s.live.valve' v).det.count i with
        regulated := decide (100 * (s.live.valve' v).cfg.ipeak ≤ i) }) ∧
  (∀ (v mean rise : Nat) (s : State), v < s.live.valve.valves.length → (s.live.valve' v).phase = .hold →
    ∃ t, exec (.chopPeriod v mean rise) s = .next t ∧ t.kept = s.kept ∧ (t.live.valve' v).i = mean / 10 ∧
      (t.live.valve' v).chopNs = (s.live.nextChop v).2.2 ∧ (t.live.valve' v).det = (s.live.valve' v).det ∧
      t.live.host = s.live.host) ∧
  (∀ (v : Nat) (s : State), (s.live.valve' v).phase = .peak → (s.live.valve' v).det.land = none →
    (s.live.valve' v).det.missed = false → (s.live.valve' v).fireMt + (s.live.valve' v).cfg.winEnd * 100000 ≤ s.live.mt.now →
    exec (.noMove v) s = .next (s.onLive fun l => (l.setValve v fun x => { x with det := { x.det with missed := true } }).valveEvent
      v 2 (le 2 ((l.valve' v).det.imax / 10)))) ∧
  (∀ (v p : Nat) (s : State), (s.live.valve' v).cfg.landing = true → 4 ≤ (s.live.valve' v).learned → (s.live.valve' v).phase = .peak →
    (s.live.valve' v).det.land = none → (s.live.valve' v).det.landed = false → (s.live.valve' v).predicted = some p →
    p ≤ s.live.mt.now + us (s.live.valve' v).cfg.landLead → us (s.live.valve' v).cfg.landLead < 2000 * (s.live.valve' v).tTravel →
    exec (.landEntry v) s = .next (s.onLive fun l => (l.enterPhase v .land).setValve v fun x => Valve.startPeriod
      { x with det := { x.det with landed := true, imax := 0, dipped := false, low := 0, lowAt := 0 } } l.mt.now 0)) ∧
  (∀ (v p : Nat) (s : State), (s.live.valve' v).phase = .land → (s.live.valve' v).predicted = some p →
    p + us (s.live.valve' v).cfg.landLead ≤ s.live.mt.now →
    exec (.landRescue v) s = .next (s.onLive fun l => ((l.enterPhase v .peak).setValve v fun x => Valve.startPeriod { x with
      det := { x.det with rescued := true, regulated := true } } l.mt.now (10 * x.i.natAbs)).valveEvent v 6 (le 1 (min 255 ((l.valve' v).landDuty + 8)))))

/-- Protection of valves and banks (R200, R212, R213).
Completion: exec answers a next state, each row under the conditions it names, for CLAMP_HOT, VALVE_OVERCURRENT, OPEN_COIL,
VALVE_THERMAL, BANK_SHORT, BANK_THERMAL, BANK_CONT_EXCEEDED, VALVE_UV. -/
def Obligations.ValveProtection : Prop :=
  (∀ (v mw : Nat) (s : State), v < s.live.valve.valves.length →
    (mw ≤ 1500 → exec (.clampHot v mw) s = .next (s.onLive fun l => l.setValve v fun x => { x with pClamp := mw })) ∧
    (1500 < mw → (s.live.valve' v).inEvent = true → (s.live.valve' v).forcedSlow = false →
      exec (.clampHot v mw) s = .next (s.onLive fun l => ((l.setValve v fun x => { x with pClamp := mw }).setValve v fun x =>
        { x with forcedSlow := true }).valveEvent v 9 (le 2 mw)))) ∧
  (∀ (v i : Nat) (s : State), (s.live.valve' v).inEvent = true → 150 * (s.live.valve' v).cfg.ipeak < i →
    exec (.valveOvercurrent v i) s = .next (s.onLive fun l =>
      ((l.latchValve v).setValve v fun x => { x with i := i / 10 }).valveEvent v 5 (le 2 (i / 10)))) ∧
  (∀ (v i : Nat) (s : State), (s.live.valve' v).phase = .peak → i < 10 * (s.live.valve' v).cfg.ipeak →
    (s.live.valve' v).fireMt + (s.live.valve' v).cfg.tPeak * 50000 ≤ s.live.mt.now →
    exec (.openCoil v i) s = .next (s.onLive fun l => ((l.endDrive v .decay false ((l.valve' v).cfg.decayRel == 1)).setValve v
      fun x => { x with i := i / 10 }).valveEvent v 4 (le 2 (i / 10)))) ∧
  (∀ (v : Nat) (tj : Int) (s : State), (s.live.valve' v).inEvent = true → 1700 ≤ tj →
    exec (.valveThermal v tj) s = .next (s.onLive fun l =>
      ((l.setValve v fun x => { x with tj := tj }).latchValve v).valveEvent v 12 (le 1 3))) ∧
  (∀ (b i vds : Nat) (s : State), s.live.bankOn b = true → (36000 < i ∨ 3000 < vds) →
    exec (.bankShort b i vds) s = .next (s.onLive fun l =>
      ((l.bankFault b .latched 1).setBank b fun x => { x with i := i / 10 }).bankEvent b 2)) ∧
  (∀ (b : Nat) (tj : Int) (s : State), (s.live.bank b).st = .on ∨ (s.live.bank b).st = .off → 1700 ≤ tj →
    exec (.bankThermal b tj) s = .next (s.onLive fun l =>
      ((l.setBank b fun x => { x with tj := tj }).bankFault b .thermalWait 2).bankEvent b 3)) ∧
  (∀ (b i t : Nat) (s : State), (s.live.bank b).exceeded = false → (s.live.bank b).st = .on → 1100 * (s.live.bank b).icont < i →
    exec (.bankContExceeded b i t) s = .next (s.onLive fun l =>
      (l.setBank b fun x => { x with exceeded := true, i := i / 10 }).bankEvent b 6)) ∧
  (∀ (b : Nat) (s : State), s.live.pwr.uv.getD (sourceGroup (.bank b)) false = true → (s.live.bank b).st = .on →
    (∀ v ∈ bankValves b, (s.live.valve' v).fire = none ∧ (s.live.valve' v).active = false) → b < s.live.valve.banks.length →
    exec (.valveUv b) s = .next (s.onLive fun l => (l.setBank b fun x => { x with st := .uvWait }).bankEvent b 5))

/-! ### LED matrix and saloon lighting (08_led_matrix_lighting.md) -/

/-- The line slots and scan frames (R224, R225, R227): a refresh counts for the next slot of its row; a slot lights its row at
the ticks of the shown page, or stays dark without its refresh; a scan frame takes over its row current, its dimming and
the shows that are due.
Completion: exec answers a next state, each row under the conditions it names, for LINE_SLOT, LINE_REFRESH, ROW_SHORT_RETRY,
SCAN_FRAME, TABLE_BUILD_DONE, MEAS_INTERVAL_EXPIRY. -/
def Obligations.LedScan : Prop :=
  (∀ (row : Nat) (s : State), (s.live.die 1).orphan = false → s.live.sup.phase = .running →
    row < max 1 s.live.led.cfg.rows →
    ∃ slot t, exec (.lineRefresh row) s = .next t ∧ slot % max 1 s.live.led.cfg.rows = row ∧
      s.live.mt.now / slotNs < slot ∧ slot ≤ s.live.mt.now / slotNs + max 1 s.live.led.cfg.rows ∧
      (slot * slotNs < s.live.mt.now + us 20 → t = s) ∧
      (s.live.mt.now + us 20 ≤ slot * slotNs → slot ∈ t.live.led.refreshed ∧
        t = s.onLive fun l => l.setLed fun x => { x with refreshed := t.live.led.refreshed })) ∧
  (∀ (d : SlotData) (s : State), s.live.led.slot < s.live.mt.now / slotNs →
    let slot := s.live.mt.now / slotNs
    let row := slot % max 1 s.live.led.cfg.rows
    ∃ t, exec (.lineSlot d) s = .next t ∧ t.kept = s.kept ∧ t.live.led.slot = slot ∧
      (∀ x ∈ t.live.led.refreshed, slot < x) ∧
      (s.live.led.shown = false → t.live.led.lit = none ∧ t.live.led.missing = s.live.led.missing) ∧
      (s.live.led.shown = true → slot ∉ s.live.led.refreshed → t.live.led.lit = none ∧
        t.live.led.missing = s.live.led.missing + 1 ∧ t.live.led.present = 0 ∧
        (1 ≤ s.live.led.missing → t.live.led.darkRefresh = true)) ∧
      (s.live.led.shown = true → slot ∈ s.live.led.refreshed → s.live.led.dark = false →
        (∀ x ∈ s.live.led.rowOff, x.1 ≠ row) → t.live.led.missing = 0 ∧ t.live.led.pSink = d.sink10mw ∧
        t.live.led.lit = if d.limit then none else some (row, s.live.led.lineTicks row))) ∧
  (∀ (vf : List Nat) (s : State), s.live.sup.phase = .running → s.live.led.frame < s.live.mt.now / s.live.led.period →
    ∃ t, exec (.scanFrame vf) s = .next t ∧ t.kept = s.kept ∧ t.live.led.frame = s.live.mt.now / s.live.led.period ∧
      t.live.led.frames = s.live.led.frames + 1 ∧ t.live.led.rowI = s.live.led.rowNow ∧ t.live.led.rowNow = 0 ∧
      t.live.led.dim = s.live.ledDim ∧
      t.live.led.shows = s.live.led.shows.filter fun w => decide
        (s.live.mt.now / s.live.led.period * s.live.led.period < w.at_)) ∧
  (∀ (row at_ : Nat) (bad : Bool) (s : State), (s.live.led.rowOff.find? fun x => x.1 == row) = some (row, at_) →
    at_ + ms 1000 ≤ s.live.mt.now → s.live.led.dark = false →
    exec (.rowShortRetry row bad) s = .next (s.onLive fun l => (l.setLed fun x => { x with
      rowOff := x.rowOff.map fun y => if y.1 == row then (row, l.mt.now) else y }).ledTest 6 row bad)) ∧
  (∀ (x : LedBuild) (xs : List LedBuild) (s : State), s.live.sup.phase = .running → s.live.led.builds = x :: xs →
    x.doneAt = none → exec .tableBuildDone s = .next (s.onLive fun l => l.setLed fun y => { y with
      builds := { x with doneAt := some l.mt.now } :: xs })) ∧
  (∀ s : State, s.live.sup.phase = .running → s.live.led.cfg.patina = true → s.live.led.shown = true →
    s.live.led.cfg.measInterval * 1000000000 ≤ s.live.led.shownNs + (s.live.mt.now - s.live.led.shownAt) →
    ∃ t, exec .measIntervalExpiry s = .next t ∧ t.kept = s.kept ∧ t.live.led.shownNs = 0 ∧
      t.live.led.measDue = some (s.live.led.measDue.getD s.live.mt.now) ∧ t.live.host = s.live.host)

/-- The fades of LED.LIGHT (R244, R254): an entry without a fade is the LOAD.SET entry of its duty, one with a fade runs from
the next plan frame, and a staged entry reserves its booking.
The commands of the matrix with legal fields (R228, R239 to R243, R248 to R253): what is refused while a page is shown,
what a frame writes, when a show takes effect, the edits of the pending tables, the answers to the reads.
Completion: exec answers a next state, each row under the conditions it names, for LED_CONFIG, LED_FRAME, LED_SHOW, LED_GAMMA,
LED_DOTCOR, LED_PATINA, LED_STATUS, LED_FAULTS, LED_LAYOUT, LED_LIGHT. -/
def Obligations.LedCommands : Prop :=
  (∀ m b s n d1 f, Waits s 0x2810 m b → firstBad (s.live.lightChecks b.payload) = none →
    lightEntries b.payload = [(n, d1, f)] → b.staged = false →
    (f = 0 → exec .ledLight s = .next (s.ends m
      (let y := s.live.loadEntry (m, 0) n (if d1 = 0 then 0 else 2) d1
       y.2.openEntries m .statuses [y.1]))) ∧
    (f ≠ 0 → s.live.dieLost (sourceDie (.load n)) = false → s.live.pwr.mode ≠ .drain → exec .ledLight s = .next (s.ends m
      (let y := s.live.startFade (some (m, 0)) n d1 f (s.live.mt.now / frameNs + 1)
       y.2.openEntries m .statuses [y.1])))) ∧
  (∀ m b s n d1 f, Waits s 0x2810 m b → firstBad (s.live.lightChecks b.payload) = none →
    lightEntries b.payload = [(n, d1, f)] → b.staged = true →
    (256 ≤ s.live.host.staged.length → exec .ledLight s = .next (s.answer m .busy 1 [2])) ∧
    (s.live.host.staged.length < 256 → s.live.dieLost (sourceDie (.load n)) = false → s.live.pwr.mode ≠ .drain →
      (s.live.ch n).latch = false → (s.live.turnOnRefused n = none) →
      (f = 0 ∨ d1 ≠ 0 →
        let cmd : LoadCmd := if f ≠ 0 then .pwm (max (s.live.ch n).cmd.duty d1) else if d1 = 0 then .off else .pwm d1
        let r := s.live.loadReserve n cmd
        exec .ledLight s = .next (s.ends m (if s.live.reserveFits (.load n) r.1 r.2 && s.live.dutyFits n cmd
          then (s.live.stage b.seq (.light n d1 f 0) (n / 12) r.1 r.2).openEntries m .statuses [some .ok]
          else s.live.openEntries m .statuses [some .budget]))) ∧
      (f ≠ 0 → d1 = 0 → exec .ledLight s = .next (s.ends m
        ((s.live.stage b.seq (.light n d1 f 0) (n / 12) 0 0).openEntries m .statuses [some .ok]))))) ∧
  (∀ m b s, Waits s 0x2801 m b → firstBad (ledCfgChecks b.payload) = none → s.live.dieLost 1 = false →
    (s.live.led.shown = true → exec .ledConfig s = .next (s.answer m .state 0 [])) ∧
    (s.live.led.shown = false → exec .ledConfig s = .next (s.ends m ((s.live.applyLedCfg b.payload).endConfig m
      (bit (byteAt b.payload 1) 0) 0x2801 0 (b.payload.take 44))))) ∧
  (∀ m b s, Waits s 0x2809 m b → byteAt b.payload 3 < 2 →
    (s.live.led.shown = true → exec .ledLayout s = .next (s.answer m .state 0 [])) ∧
    (s.live.led.shown = false → exec .ledLayout s = .next (s.ends m ((s.live.setLed fun x => { x with
      xt := rd b.payload 0 2, yt := byteAt b.payload 2 }).endConfig m (bit (byteAt b.payload 3) 0) 0x2809 0
        (b.payload.take 4))))) ∧
  (∀ m b s, Waits s 0x2802 m b → firstBad (ledFrameChecks b.payload) = none →
    let page := byteAt b.payload 0
    (s.live.led.page = page → exec .ledFrame s = .next (s.answer m .state 1 [])) ∧
    (s.live.led.page ≠ page → s.live.stagedPage page = true → exec .ledFrame s = .next (s.answer m .state 2 [])) ∧
    (s.live.led.page ≠ page → s.live.stagedPage page = false →
      ∃ pages, exec .ledFrame s = .next (s.ends m (okReply, s.live.setLed fun x => { x with pages := pages })) ∧
        (Memory.wf 0 s.live.led.pages = true → Memory.wf 0 pages = true ∧
          (bit (byteAt b.payload 1) 0 = false → ∀ a, memRead 0 pages a =
            let i := a - (1024 * page + rd b.payload 2 2)
            if 1024 * page + rd b.payload 2 2 ≤ a ∧ i < (b.payload.drop 8).length then (b.payload.drop 8).getD i 0
            else memRead 0 s.live.led.pages a) ∧
          (bit (byteAt b.payload 1) 0 = true → s.live.led.cfg.rows ≤ 16 →
            ∀ a, a < 1024 * page ∨ 1024 * page + 1024 ≤ a → memRead 0 pages a = memRead 0 s.live.led.pages a)))) ∧
  (∀ m b s, Waits s 0x2803 m b → byteAt b.payload 0 ≤ 127 ∨ byteAt b.payload 0 = 0xFF → (resv b 1 3).2 = true →
    s.live.dieLost 1 = false →
    let page := byteAt b.payload 0
    (s.live.pwr.mode = .drain → exec .ledShow s = .next (s.answer m .state 0 [])) ∧
    (s.live.pwr.mode ≠ .drain → b.staged = true → s.live.host.staged.length < 256 →
      exec .ledShow s = .next (s.ends m (okReply, s.live.stage b.seq (.show_ page) 2 0 0))) ∧
    (s.live.pwr.mode ≠ .drain → b.staged = true → 256 ≤ s.live.host.staged.length →
      exec .ledShow s = .next (s.answer m .busy 1 [])) ∧
    (s.live.pwr.mode ≠ .drain → b.staged = false → exec .ledShow s = .next (s.ends m (.wait, s.live.setLed fun x =>
      { x with shows := x.shows ++ [LedShow.mk page (s.live.mt.now + us 200) false (some m)] })))) ∧
  (∀ m b s, Waits s 0x2804 m b → byteAt b.payload 0 ≤ 3 → byteAt b.payload 1 ≤ 1 → byteAt b.payload 2 < 4 →
    (resv b 3 1).2 = true → (∀ i, i < 128 → rd b.payload (4 + 2 * i) 2 ≤ 4096) →
    let es := (List.range 128).map fun i => rd b.payload (4 + 2 * i) 2
    exec .ledGamma s = .next (s.ends m ((s.live.setLed fun x => { x with
      pend := x.pend.setHalf (byteAt b.payload 0) (byteAt b.payload 1) es }).endEdit m (byteAt b.payload 2) 0x2804
        (2 * byteAt b.payload 0 + byteAt b.payload 1) (packHalf es)))) ∧
  (∀ m b s, Waits s 0x2805 m b → byteAt b.payload 0 ≤ 15 → byteAt b.payload 1 < 4 → (resv b 2 2).2 = true →
    exec .ledDotcor s = .next (s.ends m ((s.live.setLed fun x => { x with
      pend := x.pend.setRow (byteAt b.payload 0) ((List.range 64).map fun c => byteAt b.payload (4 + c)) }).endEdit m
        (byteAt b.payload 1) 0x2805 (byteAt b.payload 0) ((b.payload.drop 4).take 64)))) ∧
  (∀ m b s, Waits s 0x2806 m b → (resv b 1 3).2 = true →
    (byteAt b.payload 0 = 0 → exec .ledPatina s = .next (s.answer m .ok 0 s.live.patinaRecord)) ∧
    (byteAt b.payload 0 = 1 → s.live.dieLost 1 = false → s.live.led.shown = true → s.live.led.cfg.patina = true →
      exec .ledPatina s = .next (s.ends m (.done .pending 0 s.live.patinaRecord, s.live.setLed fun x => { x with
        measDue := some (min (x.measDue.getD (s.live.mt.now + ms 1)) (s.live.mt.now + ms 1)) }))) ∧
    (byteAt b.payload 0 = 1 → s.live.dieLost 1 = false → s.live.led.shown = false ∨ s.live.led.cfg.patina = false →
      exec .ledPatina s = .next (s.answer m .state 0 [])) ∧
    (byteAt b.payload 0 = 2 ∨ byteAt b.payload 0 = 3 →
      let l := s.live.patinaReset (byteAt b.payload 0 == 3)
      exec .ledPatina s = .next (s.ends m (.wait, l.keepPatina (some m) l.patinaRecord)))) ∧
  (∀ m b s, Waits s 0x2807 m b → ∃ p, exec .ledStatus s = .next (s.answer m .ok 0 p) ∧ p.length = 16 ∧
    (s.live.led.shown = false → byteAt p 0 = 0) ∧ byteAt p 1 = s.live.led.page % 256 ∧
    rd p 8 2 = s.live.led.faults.length % 65536 ∧ rd p 10 2 = s.live.pwr.vledMv % 65536) ∧
  (∀ m b s, Waits s 0x2808 m b →
    (s.live.led.faults.length ≤ rd b.payload 0 2 → exec .ledFaults s = .next (s.answer m .badParam 0 [])) ∧
    (rd b.payload 0 2 < s.live.led.faults.length → ∃ p, exec .ledFaults s = .next (s.answer m .ok 0 p) ∧
      rd p 0 2 = s.live.led.faults.length % 65536 ∧
      p.length = 2 + 4 * min 60 (s.live.led.faults.length - rd b.payload 0 2)))

/-! ### Field I/O (09_field_io_wake_inputs.md) -/

/-- Field inputs (R259 to R262): a sample counts the filter up or down and the state changes at its ends, the first sample sets
it; five equal measurements in a row change WIRE_BREAK; the speed is what its edges give, and MOTION follows.
Field outputs (R264, R266): LIMIT and its end, overload, thermal shutdown, a hard clamp, undervoltage, open load while on,
and the safe value after the silence.
Completion: exec answers a next state, each row under the conditions it names, for FIO_SILENCE_EXPIRY, FIO_SAMPLE,
WIRE_BREAK_MEASURE, FIO_OUTPUT_LIMIT, FIO_OVERLOAD, FIO_THERMAL, FIO_CLAMP, FIO_UV, FIO_OPEN_ON, SPEED_COMPUTE. -/
def Obligations.FieldIo : Prop :=
  (∀ (n : Nat) (raw : Bool) (s : State), n < s.live.fio.ch.length → (s.live.fioCh n).cfg.mode = 1 → s.live.fioPowered = true →
    let c := s.live.fioCh n
    ∃ t, exec (.fioSample n raw) s = .next t ∧ t.kept = s.kept ∧
      (c.fresh = true → (t.live.fioCh n).fresh = false ∧ (t.live.fioCh n).high = raw ∧
        (t.live.fioCh n).count = if raw then c.cfg.filtN else 0) ∧
      (c.fresh = false →
        let k := if raw then min (c.count + 1) c.cfg.filtN else c.count - 1
        let high := if k = c.cfg.filtN then true else if k = 0 then false else c.high
        (t.live.fioCh n).count = k ∧ (t.live.fioCh n).high = high ∧ (high = c.high → t.live.host = s.live.host) ∧
          (high ≠ c.high → c.cfg.role = 0 → (s.live.die 0).orphan = false → (t.live.fioCh n).reported = (high != c.cfg.invert)))) ∧
  (∀ (n i : Nat) (s : State), n < s.live.fio.ch.length → (s.live.fioCh n).cfg.mode = 1 → (s.live.fioCh n).cfg.wireBreak = true →
    (s.live.fioCh n).high = false → s.live.fioPowered = true →
    let c := s.live.fioCh n
    let low := decide (2 * i * (10 * c.cfg.rS + rinTyp c.cfg.type) < 10 * s.live.groupMv 4)
    ∃ t, exec (.wireBreakMeasure n i) s = .next t ∧ t.kept = s.kept ∧ (t.live.fioCh n).i = i ∧
      (low = c.broken → (t.live.fioCh n).wbRun = 0 ∧ (t.live.fioCh n).broken = c.broken) ∧
      (low ≠ c.broken → c.wbRun < 4 → (t.live.fioCh n).wbRun = c.wbRun + 1 ∧ (t.live.fioCh n).broken = c.broken) ∧
      (low ≠ c.broken → 4 ≤ c.wbRun → (t.live.fioCh n).wbRun = 0 ∧ (t.live.fioCh n).broken = low)) ∧
  (∀ s : State, s.live.fioPowered = true →
    ∃ t, exec .speedCompute s = .next t ∧ t.kept = s.kept ∧ t.live.fio.ch = s.live.fio.ch ∧
      (s.live.roleInput 1 = none → t.live.fio.speed = 0) ∧
      (∀ n, s.live.roleInput 1 = some n → t.live.fio.motion = t.live.motionNow ∧ t.live.fio.speed =
        speedOf (max 1 (s.live.fioCh n).cfg.speedPpk) s.live.mt.now s.live.fio.speedEdges) ∧
      (s.live.roleInput 1 = none → s.live.roleInput 2 = none → t.live.fio.motion = 0)) ∧
  (∀ (k i forNs : Nat) (s : State), let n := (s.live.fioCh k).lowest
    let c := s.live.fioCh n
    n < s.live.fio.ch.length → k < s.live.fio.ch.length →
    (c.sw = .on → 800 ≤ i → ∃ t, exec (.fioOutputLimit k i forNs) s = .next t ∧ t.kept = s.kept ∧
      (t.live.fioCh n).sw = .limit ∧ (t.live.fioCh n).limitAt = s.live.mt.now ∧ (t.live.fioCh k).i = i) ∧
    (c.sw = .limit → i < 720 → us 100 ≤ forNs →
      ∃ t, exec (.fioOutputLimit k i forNs) s = .next t ∧ t.kept = s.kept ∧ (t.live.fioCh n).sw = .on ∧
        t.live.host = s.live.host)) ∧
  (∀ (k i : Nat) (s : State), let n := (s.live.fioCh k).lowest
    let c := s.live.fioCh n
    n < s.live.fio.ch.length → (c.sw = .limit ∧ c.limitAt + ms 5 ≤ s.live.mt.now) ∨ (c.conducts = true ∧ 1200 < i) →
    (∃ t, exec (.fioOverload k i) s = .next t ∧ t.kept = s.kept ∧ (t.live.fioCh n).sw = .off ∧
      (t.live.fioCh n).onAcc = 0) ∧
    exec (.fioOverload k i) s = .next (s.onLive fun l => (l.setFio k fun c => { c with i := i }).fioFault n 5)) ∧
  (∀ (k : Nat) (tj : Int) (s : State), let n := (s.live.fioCh k).lowest
    let c := s.live.fioCh n
    n < s.live.fio.ch.length → k < s.live.fio.ch.length → c.cfg.mode = 2 →
    ∃ t, exec (.fioThermal k tj) s = .next t ∧ t.kept = s.kept ∧ (t.live.fioCh k).tj = tj ∧
      (1700 ≤ tj → c.thermal = false → (t.live.fioCh n).thermal = true ∧ (c.conducts = true → (t.live.fioCh n).sw = .off)) ∧
      (tj < 1700 → c.thermal = false → (t.live.fioCh n).thermal = false) ∧
      (c.thermal = true → tj < 1500 → (∀ j ∈ s.live.fioGroup n, j ≠ k → (s.live.fioCh j).tj < 1500) →
        (t.live.fioCh n).thermal = false) ∧
      (c.thermal = true → 1500 ≤ tj → k ∈ s.live.fioGroup n → (t.live.fioCh n).thermal = true)) ∧
  (∀ (k e : Nat) (s : State), let n := (s.live.fioCh k).lowest
    n < s.live.fio.ch.length → (s.live.fioCh n).cfg.mode = 2 → s.live.fioPowered = true →
    15000 * (s.live.fioCh n).members < e →
    ∃ t, exec (.fioClamp k e) s = .next t ∧ t.kept = s.kept ∧ (t.live.fioCh n).sw = .off ∧ (t.live.fioCh n).latch = true ∧
      (t.live.fioCh n).state = 8) ∧
  (∀ (n : Nat) (s : State), n < s.live.fio.ch.length → (s.live.fioCh n).cfg.mode = 2 → (s.live.fioCh n).lowest = n →
    ∃ t, exec (.fioUv n) s = .next t ∧ t.kept = s.kept ∧
      (t.live.fioCh n).uvhold = s.live.pwr.uv.getD (sourceGroup (.fio n)) false ∧
      (s.live.pwr.uv.getD (sourceGroup (.fio n)) false = true → (s.live.fioCh n).uvhold = false →
        (s.live.fioCh n).conducts = true → (t.live.fioCh n).sw = .off ∧ (t.live.fioCh n).uvOff = true)) ∧
  (∀ (n i forNs : Nat) (s : State), n < s.live.fio.ch.length → (s.live.fioCh n).cfg.olOn = true → (s.live.fioCh n).sw = .on →
    (s.live.fioCh n).lowest = n → ms 10 ≤ forNs →
    ((s.live.fioCh n).openOn = decide (i < 5 * (s.live.fioCh n).members) → exec (.fioOpenOn n i forNs) s = .next s) ∧
    ((s.live.fioCh n).openOn ≠ decide (i < 5 * (s.live.fioCh n).members) →
      ∃ t, exec (.fioOpenOn n i forNs) s = .next t ∧ t.kept = s.kept ∧ (t.live.fioCh n).i = i ∧
        (t.live.fioCh n).openOn = decide (i < 5 * (s.live.fioCh n).members))) ∧
  (∀ (n : Nat) (s : State), n < s.live.fio.ch.length → (s.live.fioCh n).cfg.mode = 2 → (s.live.fioCh n).lowest = n →
    (s.live.die 0).orphan = true → (s.live.fioCh n).safe = false →
    (s.live.die 0).lastHb + ms (s.live.fioCh n).cfg.silenceMs ≤ s.live.mt.now →
    ∃ t, exec (.fioSilenceExpiry n) s = .next t ∧ t.kept = s.kept ∧ (t.live.fioCh n).safe = true ∧
      ((s.live.fioCh n).cfg.safeOn = true → (s.live.fioCh n).latch = false → (t.live.fioCh n).cmd = true ∧
        (t.live.fioCh n).sw = (s.live.fioCh n).sw) ∧
      ((s.live.fioCh n).cfg.safeOn = false → (t.live.fioCh n).cmd = false ∧ (t.live.fioCh n).conducts = false))

/-- The FIO commands with legal fields (R274 to R279).
Completion: exec answers a next state, each row under the conditions it names, for FIO_CONFIG, FIO_SET, FIO_STATUS, FIO_CLEAR,
FIO_WAKE. -/
def Obligations.FieldCommands : Prop :=
  (∀ m b s, Waits s 0x3001 m b → firstBad (s.live.fioCfgChecks b) = none →
    let n := byteAt b.payload 0
    let after := (List.range (if byteAt b.payload 1 = 2 then parMembers (byteAt b.payload 7) else 1)).map (n + ·)
    (s.live.dieLost 0 = true → exec .fioConfig s = .next (s.answer m .internal 0 [])) ∧
    (s.live.dieLost 0 = false → s.live.pwr.mode = .drain ∨ (s.live.fioCh n).lowest ≠ n →
      exec .fioConfig s = .next (s.answer m .state 0 [])) ∧
    (s.live.dieLost 0 = false → s.live.pwr.mode ≠ .drain → (s.live.fioCh n).lowest = n →
      (∀ k ∈ after ++ (List.range (s.live.fioCh n).members).map (n + ·),
        (s.live.fioCh (s.live.fioCh k).lowest).idle = true) →
      (byteAt b.payload 1 = 2 → ∀ k ∈ after, (s.live.fioCh k).cfg.mode = 1 → (s.live.fioCh k).cfg.role = 0) →
      (∀ k ∈ after, k = n ∨ (s.live.fioCh k).lowest = n ∨ ((s.live.fioCh k).lowest = k ∧ (s.live.fioCh k).cfg.par = 0)) →
      exec .fioConfig s = .next (s.ends m
        ((s.live.applyFioCfg n b.payload).endConfig m (bit (byteAt b.payload 4) 0) 0x3001 n (b.payload.take 20))))) ∧
  (∀ m b s n, Waits s 0x3002 m b → bitsOf 32 (rd b.payload 0 4) = [n] → (s.live.fioCh n).lowest = n →
    let on := bit (rd b.payload 4 4) n
    ((s.live.fioCh n).cfg.mode ≠ 2 → exec .fioSet s = .next (s.answer m .badParam n [])) ∧
    ((s.live.fioCh n).cfg.mode = 2 → b.staged = false → exec .fioSet s = .next (s.ends m
      (let y := s.live.fioEntry (m, 0) n on
       y.2.openEntries m (.fio [n]) [y.1]))) ∧
    ((s.live.fioCh n).cfg.mode = 2 → b.staged = true → s.live.host.staged.length < 256 → exec .fioSet s = .next (s.ends m
      (let y := s.live.fioStage b.seq n on
       y.2.openEntries m (.fio [n]) [some y.1]))) ∧
    (on = true → (s.live.fioCh n).state = 4 ∨ (s.live.fioCh n).state = 5 → s.live.dieLost 0 = false →
      s.live.pwr.mode ≠ .drain → s.live.fioEntry (m, 0) n on = (some .ok, s.live.withdraw (.fio n))) ∧
    (on = true → (s.live.fioCh n).state = 8 → s.live.dieLost 0 = false → s.live.pwr.mode ≠ .drain →
      s.live.fioEntry (m, 0) n on = (some .state, s.live.withdraw (.fio n)))) ∧
  (∀ m b s, Waits s 0x3003 m b → ∃ p, exec .fioStatus s = .next (s.answer m .ok 0 p) ∧ p.length = 276 ∧
    rd p 12 2 = s.live.speedShown % 65536 ∧ byteAt p 14 = s.live.fio.motion % 256 ∧ byteAt p 15 = 0 ∧
    ∀ n, n < 32 → byteAt p (20 + 8 * n) = n ∧
      byteAt p (21 + 8 * n) = (s.live.fioCh (s.live.fioCh n).lowest).state % 256) ∧
  (∀ m b s n, Waits s 0x3004 m b → bitsOf 32 (rd b.payload 0 4) = [n] → n < s.live.fio.ch.length → s.live.dieLost 0 = false →
    (s.live.fioCh n).cfg.mode = 2 → (s.live.fioCh n).latch = true →
    ∃ l', exec .fioClear s = .next (s.ends m (.done .ok 0 (le 4 (2 ^ n)), l')) ∧ (l'.fioCh n).latch = false ∧
      (l'.fioCh n).cmd = false ∧ (l'.fioCh n).retriesLeft = (s.live.fioCh n).cfg.retries ∧
      (∀ k, k ≠ n → l'.fioCh k = s.live.fioCh k) ∧ l'.host = s.live.host) ∧
  (∀ m b s, Waits s 0x3005 m b → byteAt b.payload 0 ≤ 15 → byteAt b.payload 1 ≤ 1 → byteAt b.payload 2 ≤ 2 →
    byteAt b.payload 3 ≤ 5 → byteAt b.payload 4 ≤ 3 → 1 ≤ byteAt b.payload 5 → byteAt b.payload 6 < 4 →
    (resv b 7 1).2 = true → exec .fioWake s = .next (s.ends m ((s.live.setWk (byteAt b.payload 0) fun w => { w with
      cfg := WakeCfg.ofBytes b.payload, fresh := true }).endConfig m (bit (byteAt b.payload 6) 0) 0x3005 (byteAt b.payload 0) b.payload)))

/-! ### Audio alert engine (10_audio_alert.md) -/

/-- Programmes, frames and supervision (R284 to R291): a programme starts at its START_MT and ends with its cause, a frame moves
every programme on, 10 ms without samples end the live programmes of a channel, a window of the pilot measures the line, and a
calibration takes its means.
Completion: exec answers a next state, each row under the conditions it names, for TDM_FRAME, PROGRAMME_START, PROGRAMME_END,
LINK_AUDIO_LOST, PILOT_WINDOW, CALIBRATION_DONE. -/
def Obligations.AudioEvents : Prop :=
  (∀ (n : Nat) (p : Playing) (s : State), n < s.live.audio.zones.length → s.live.sup.phase = .running →
    (s.live.zone n).playing = some p → p.started = false → p.fade = none → p.prog.startMt ≤ s.live.mt.now →
    ∃ v t, exec (.programmeStart n) s = .next t ∧ t.kept = s.kept ∧
      (t.live.zone n).playing = some { p with started := true, void := v } ∧
      v = (s.live.zoneMuted n || s.live.islandDown 4)) ∧
  (∀ (n : Nat) (p : Playing) (s : State), n < s.live.audio.zones.length → (s.live.zone n).playing = some p →
    (p.fade = none → p.finished s.kept.flash = true →
      exec (.programmeEnd n) s = .next (s.onLive fun l => l.endProgramme n 1)) ∧
    (∀ f, p.fade = some f → f.1 + ms 10 ≤ s.live.mt.now →
      exec (.programmeEnd n) s = .next (s.onLive fun l => l.endProgramme n f.2)) ∧
    (∀ c, (s.live.zone n).next = none → (s.live.zone n).queue = [] →
      ((s.live.endProgramme n c).zone n).playing = none) ∧
    (∀ c q qs, (s.live.zone n).next = none → (s.live.zone n).queue = q :: qs →
      ((s.live.endProgramme n c).zone n).playing = some (startPlaying q) ∧ ((s.live.endProgramme n c).zone n).queue = qs) ∧
    (∀ q, (s.live.zone n).next = some q → ((s.live.endProgramme n 2).zone n).playing = some (startPlaying q) ∧
      ((s.live.endProgramme n 2).zone n).next = none)) ∧
  (∀ (rx : List Int) (s : State),
    ∃ t, exec (.tdmFrame rx) s = .next t ∧ t.kept = s.kept ∧ t.live.host = s.live.host ∧ t.live.audio.tx.length = 8 ∧
      ((s.live.die 1).orphan = true ∨ s.live.sup.phase ≠ .running ∨ s.live.islandDown 4 = true →
        t.live.audio.tx = List.replicate 8 0) ∧
      ((s.live.die 1).orphan = false → s.live.sup.phase = .running → s.live.islandDown 4 = false → ∀ n, n < 8 →
        t.live.audio.tx.getD n 0 = s.zoneSample n rx) ∧
      (∀ n, n < s.live.audio.zones.length → (t.live.zone n).playing = (s.live.zone n).playing.map fun p =>
        p.advance s.kept.flash (s.live.muteLow n)) ∧ t.live.audio.linkOut.length ≤ max 64 s.live.audio.linkOut.length) ∧
  (∀ (c missing : Nat) (s : State), s.live.sup.phase = .running → c < s.live.audio.lost.length →
    (ms 10 ≤ missing → ∃ t, exec (.linkAudioLost c missing) s = .next t ∧ t.kept = s.kept ∧
      (s.live.playsLink c = true → t.live.audio.lost.getD c false = true) ∧
      ∀ n p, n < 8 → (t.live.zone n).playing = some p → p.started = true → p.prog.kind = 2 → p.prog.src ≠ c) ∧
    (missing = 0 → ∃ t, exec (.linkAudioLost c missing) s = .next t ∧ t.kept = s.kept ∧
      t.live.audio.lost.getD c false = false ∧ t.live.audio.zones = s.live.audio.zones)) ∧
  (∀ (n v i : Nat) (s : State), n < s.live.audio.zones.length → s.live.sup.phase = .running →
    (s.live.zone n).cfg.supervise = true → s.live.mutedLately n = false →
    let zed := if i = 0 then 0xFFFF else min 0xFFFF (1000 * v / i)
    ∃ t, exec (.pilotWindow n v i false) s = .next t ∧ t.kept = s.kept ∧ (t.live.zone n).z = zed ∧
      (t.live.zone n).cal = (s.live.zone n).cal.map (· ++ [(v, i)]) ∧
      (∀ r, (s.live.zone n).vRef = some r → 2 * v < r → 2 < (s.live.zone n).stands.length →
        2 ≤ (s.live.zone n).meets.getD 0 0 → (t.live.zone n).stands.getD 0 false = true) ∧
      exec (.pilotWindow n v i true) s = .next s) ∧
  (∀ (n : Nat) (ws : List (Nat × Nat)) (s : State), n < s.live.audio.zones.length → s.live.sup.phase = .running →
    (s.live.zone n).cal = some ws → 10 ≤ ws.length →
    let v := ((ws.take 10).foldl (fun a w => a + w.1) 0) / 10
    let i := ((ws.take 10).foldl (fun a w => a + w.2) 0) / 10
    ∃ t, exec (.calibrationDone n) s = .next t ∧ t.kept = s.kept ∧ (t.live.zone n).cal = none ∧
      (t.live.zone n).vRef = if i * Config.shuntMohm n < 100000 then (s.live.zone n).vRef else some v)

/-- The AUDIO commands with legal fields (R286, R294 to R297).
Completion: exec answers a next state, each row under the conditions it names, for AUDIO_ZONE, AUDIO_PLAY, AUDIO_STOP,
AUDIO_ROUTE, AUDIO_CALIBRATE, AUDIO_STATUS. -/
def Obligations.AudioCommands : Prop :=
  (∀ m b s, Waits s 0x3801 m b → byteAt b.payload 0 ≤ 7 → byteAt b.payload 1 < 8 → byteAt b.payload 2 ≤ 127 →
    byteAt b.payload 3 ≤ 127 → inRange 5 50 (byteAt b.payload 4) = true → inRange 500 5000 (rd b.payload 5 2) = true →
    (resv b 7 1).2 = true → exec .audioZone s = .next (s.ends m ((s.live.applyZoneCfg (byteAt b.payload 0) b.payload).endConfig
      m (bit (byteAt b.payload 1) 0) 0x3801 (byteAt b.payload 0) b.payload))) ∧
  (∀ m b s, Waits s 0x3802 m b →
    let kind := byteAt b.payload 1
    let src := rd b.payload 2 2
    byteAt b.payload 0 ≠ 0 → kind ≤ 2 → (kind = 0 → ∃ c ∈ clips s.kept.flash, c.id = src) → (kind ≠ 0 → src ≤ 7) →
    byteAt b.payload 4 ≤ 7 → byteAt b.payload 5 < 4 → (resv b 7 1).2 = true →
    (s.live.pwr.mode = .drain → exec .audioPlay s = .next (s.answer m .state 0 [])) ∧
    (s.live.pwr.mode ≠ .drain → kind = 0 → src ∈ s.live.audio.bad → exec .audioPlay s = .next (s.answer m .crc 0 [])) ∧
    (s.live.pwr.mode ≠ .drain → (kind = 0 → src ∉ s.live.audio.bad) → ∀ n, bitsOf 8 (byteAt b.payload 0) = [n] →
      n < s.live.audio.zones.length → (s.live.zone n).playing = none →
      let start := if rd b.payload 8 8 = 0 then s.live.mt.now else rd b.payload 8 8
      ∃ prog l', prog.id = s.live.audio.nextId ∧ prog.kind = kind ∧ prog.src = src ∧ prog.startMt = start ∧
        (prog.chime = false → prog.prio = byteAt b.payload 4) ∧ (prog.chime = true → prog.prio = 1) ∧
        (l'.zone n).playing = some (startPlaying prog) ∧ l'.audio.nextId = (s.live.audio.nextId + 1) % 0xFFFF ∧
        (start ≤ s.live.mt.now + ms 5 → exec .audioPlay s = .next (s.ends m (.wait, l')) ∧
          OpenPlay.mk m prog.id [n] [n] ∈ l'.audio.opens) ∧
        (s.live.mt.now + ms 5 < start → exec .audioPlay s = .next (s.ends m
          (.done .pending 0 (le 2 prog.id ++ List.replicate 6 0), l'))))) ∧
  (∀ m b s n, Waits s 0x3803 m b → bitsOf 8 (byteAt b.payload 0) = [n] → byteAt b.payload 0 ≠ 0 → byteAt b.payload 1 ≤ 1 →
    (resv b 2 2).2 = true → n < s.live.audio.zones.length →
    ∃ l', exec .audioStop s = .next (s.ends m (okReply, l')) ∧ (∀ k, k ≠ n → l'.zone k = s.live.zone k) ∧
      (byteAt b.payload 1 = 1 → (l'.zone n).queue = [] ∧ (l'.zone n).next = none) ∧
      (byteAt b.payload 1 = 0 → (l'.zone n).queue = (s.live.zone n).queue) ∧
      (∀ p, (s.live.zone n).playing = some p → p.fade = none → p.started = true →
        (l'.zone n).playing = some { p with fade := some (s.live.mt.now, 1), void := true }) ∧ l'.host = s.live.host) ∧
  (∀ m b s, Waits s 0x3804 m b → byteAt b.payload 0 ≤ 7 → byteAt b.payload 1 ≤ 7 ∨ byteAt b.payload 1 = 0xFF →
    (resv b 2 2).2 = true →
    (s.live.link.cascaded = false → exec .audioRoute s = .next (s.answer m .state 0 [])) ∧
    (s.live.link.cascaded = true → exec .audioRoute s = .next (s.ends m (okReply, { s.live with audio := { s.live.audio with
      routes := s.live.audio.routes.set (byteAt b.payload 0)
        (if byteAt b.payload 1 = 0xFF then none else some (byteAt b.payload 1)) } })))) ∧
  (∀ m b s, Waits s 0x3805 m b → byteAt b.payload 0 ≤ 7 → (resv b 1 3).2 = true →
    ((s.live.zone (byteAt b.payload 0)).cfg.supervise = false ∨ s.live.muteLow (byteAt b.payload 0) = true →
      exec .audioCalibrate s = .next (s.answer m .state 0 [])) ∧
    ((s.live.zone (byteAt b.payload 0)).cfg.supervise = true → s.live.muteLow (byteAt b.payload 0) = false →
      exec .audioCalibrate s = .next (s.ends m (refuse .pending,
        s.live.setZone (byteAt b.payload 0) fun z => { z with cal := some [] })))) ∧
  (∀ m b s, Waits s 0x3806 m b → ∃ p, exec .audioStatus s = .next (s.answer m .ok 0 p) ∧ p.length = 64 ∧
    ∀ n, n < 8 → byteAt p (8 * n) = s.live.zoneState n % 256 ∧ byteAt p (8 * n + 1) = (s.live.zone n).fault % 256 ∧
      rd p (8 * n + 6) 2 = s.live.chimeAge n % 65536)

/-! ### CAN FD controllers (11_can_fd_controllers.md) -/

/-- What the bus and the reader do to a channel (R303 to R310, R316, R317): the receive ring and its lock, one evaluation of
the filter rules, the end of a transmission, its errors and its deadline, the error states.
Completion: exec answers a next state, each row under the conditions it names, for CAN_FRAME_RECEIVED, RING_LOCK_READ,
RING_RELEASE_READ, RING_ENTRY_FILTER, CAN_TX_DONE, CAN_TX_ERROR, CAN_TX_DEADLINE, ERROR_STATE_CHANGE, BUSOFF_HOLD_EXPIRY,
BUS_STUCK, FILTER_SWAP. -/
def Obligations.CanBus : Prop :=
  (∀ (n : Nat) (f : CanFrame) (s : State), n < s.live.can.chans.length → n ≤ 3 → s.live.sup.phase = .running →
    (s.live.chan n).listens = true → f.echo = none → f.res = false → (keyFdf f.key = true → (s.live.chan n).cfg.fd = true) →
    let c := s.live.chan n
    ∃ t, exec (.canFrameReceived n f) s = .next t ∧ t.kept = s.kept ∧ (t.live.chan n).seq = (c.seq + 1) % 65536 ∧
      (c.ring.length < 256 → (t.live.chan n).ring = c.ring ++ [ringEntry n c.seq f] ∧ t.live.host = s.live.host) ∧
      (256 ≤ c.ring.length → c.locked = true → (t.live.chan n).ring = c.ring ∧
        (t.live.chan n).overrun = min 0xFFFF (c.overrun + 1)) ∧
      (256 ≤ c.ring.length → c.locked = false → (t.live.chan n).ring = c.ring.drop 1 ++ [ringEntry n c.seq f] ∧
        (t.live.chan n).tail = (c.tail + 1) % 256 ∧ (t.live.chan n).lost = min 0xFFFF (c.lost + 1))) ∧
  (∀ (n : Nat) (e : List Byte) (r : List (List Byte)) (s : State), n < s.live.can.chans.length → n ≤ 3 →
    s.live.sup.phase = .running → (s.live.chan n).ring = e :: r → (s.live.chan n).tail < 256 →
    let c := s.live.chan n
    (∃ t, exec (.ringLockRead n c.tail) s = .next t ∧ t.kept = s.kept ∧ (t.live.chan n).locked = true ∧
      (t.live.chan n).readWord = rd e 0 4 + 16384 ∧ (t.live.chan n).ring = c.ring ∧ t.live.host = s.live.host) ∧
    (c.locked = true → ∃ t, exec (.ringReleaseRead n c.tail) s = .next t ∧ t.kept = s.kept ∧ (t.live.chan n).ring = r ∧
      (t.live.chan n).tail = (c.tail + 1) % 256 ∧ (t.live.chan n).locked = false ∧ t.live.host = s.live.host) ∧
    (c.locked = true → c.filtered = false → ∃ t, exec (.ringEntryFilter n) s = .next t ∧ t.kept = s.kept ∧
      (t.live.chan n).filtered = true ∧ (t.live.chan n).ring = c.ring ∧ t.live.can.active = s.live.can.active ∧
      (matching n (entryKey e) s.live.can.active = [] → t.live.can.hostQ = s.live.can.hostQ ∧
        t.live.can.f1Q = s.live.can.f1Q ∧ (t.live.chan n).discarded = min 0xFFFF (c.discarded + 1)) ∧
      (∀ x, matching n (entryKey e) s.live.can.active = [x] → s.live.gapHolds x (rd e 8 8) = false →
        bit (byteAt x.2 9) 0 = true → bit (byteAt x.2 9) 2 = false → s.live.can.hostQ.length < 256 →
        t.live.can.hostQ = s.live.can.hostQ ++ [e]))) ∧
  (∀ (x : FilterBuild) (xs : List FilterBuild) (s : State), s.live.sup.phase = .running → s.live.can.builds = x :: xs →
    ∃ t, exec .filterSwap s = .next t ∧ t.kept = s.kept ∧ t.live.can.active = x.rules ∧ t.live.can.builds = xs ∧
      t.live.can.gen = (s.live.can.gen + 1) % 2 ^ 32 ∧ t.live.can.lastFwd = []) ∧
  (∀ (n k sof tdcv tag : Nat) (b : TxBuf) (s : State), s.live.sup.phase = .running → s.live.txBuf n k = some b →
    b.owner = .send tag → (s.live.chan n).sends = true → (s.live.chan n).mayRun k = true →
    ∃ t, exec (.canTxDone n k sof tdcv) s = .next t ∧ t.kept = s.kept ∧
      (t.live.chan n).txFrames = min (2 ^ 32 - 1) ((s.live.chan n).txFrames + 1) ∧
      (k ≠ 0 ∨ s.live.nm.out = [] → t.live.txBuf n k = none)) ∧
  (∀ (n k err tdcv tag : Nat) (b : TxBuf) (s : State), s.live.sup.phase = .running → s.live.txBuf n k = some b →
    b.owner = .send tag → (s.live.chan n).sends = true → (s.live.chan n).mayRun k = true →
    ∃ t, exec (.canTxError n k err tdcv) s = .next t ∧ t.kept = s.kept ∧ (t.live.chan n).lastErr = err ∧
      (b.freeing = none → b.attempts < (s.live.chan n).cfg.retxMax →
        t.live.txBuf n k = some { b with attempts := b.attempts + 1 }) ∧
      (b.freeing ≠ none ∨ (s.live.chan n).cfg.retxMax ≤ b.attempts → k ≠ 0 ∨ s.live.nm.out = [] → t.live.txBuf n k = none)) ∧
  (∀ (n k dl : Nat) (b : TxBuf) (s : State), s.live.sup.phase = .running → s.live.txBuf n k = some b →
    b.deadline = some dl → dl ≤ s.live.mt.now →
    (∃ t, exec (.canTxDeadline n k false) s = .next t ∧ t.kept = s.kept ∧
      (k ≠ 0 ∨ s.live.nm.out = [] → t.live.txBuf n k = none)) ∧
    ((s.live.chan n).mayRun k = true → ∃ t, exec (.canTxDeadline n k true) s = .next t ∧ t.kept = s.kept ∧ t.live.host = s.live.host ∧
      t.live.txBuf n k = some { b with freeing := some (b.freeing.getD 1) })) ∧
  (∀ (n tec rec_ : Nat) (busOff recovered : Bool) (s : State), n ≤ 3 → s.live.sup.phase = .running → (s.live.chan n).mode ≠ 0 →
    ∃ t, exec (.errorStateChange n tec rec_ busOff recovered) s = .next t ∧ t.kept = s.kept ∧
      (t.live.chan n).tec = min 255 tec ∧ (t.live.chan n).rec_ = min 255 rec_ ∧
      (t.live.chan n).errState = if busOff then 3
        else if ((s.live.chan n).errState = 3 ∨ (s.live.chan n).errState = 4) ∧ recovered = false
        then (s.live.chan n).errState else if 128 ≤ max tec rec_ then 2 else if 96 ≤ max tec rec_ then 1 else 0) ∧
  (∀ (n : Nat) (s : State), s.live.sup.phase = .running → (s.live.chan n).errState = 3 →
    (s.live.chan n).cfg.autoRecover = true → (s.live.chan n).busoffAt + ms (s.live.chan n).cfg.busoffHold ≤ s.live.mt.now →
    ∃ t, exec (.busoffHoldExpiry n) s = .next t ∧ t.kept = s.kept ∧ (t.live.chan n).errState = 4) ∧
  (∀ (n forNs : Nat) (dom : Bool) (s : State), n ≤ 3 → s.live.sup.phase = .running → (s.live.chan n).mode ≠ 0 →
    (if dom then ms 10 else ms 1) ≤ forNs → ∃ t, exec (.busStuck n dom forNs) s = .next t ∧ t.kept = s.kept ∧
      (t.live.chan n).stuck = dom)

/-- Network time and speed on CAN (R318 to R321): the reference of a master, what a source takes from one, the values of the
speed signal and its age.
Completion: exec answers a next state, each row under the conditions it names, for REFERENCE_RECEIVED, SPEED_FRAME,
REFERENCE_LOAD, SPEED_TIMEOUT, CAN_TIME, CAN_SPEED. -/
def Obligations.CanTimeAndSpeed : Prop :=
  (∀ (t0 : TimeMaster) (s : State), s.live.sup.phase = .running → s.live.can.master = some t0 →
    t0.period < s.live.mt.now / ms (max 1 t0.refMs) → (s.live.chan t0.ch).mode = 1 → (s.live.chan t0.ch).errState < 3 →
    0 < (s.live.chan t0.ch).tx.length → s.live.txBuf t0.ch 0 = none → t0.waits = false →
    ∃ t b, exec .referenceLoad s = .next t ∧ t.kept = s.kept ∧ t.live.host = s.live.host ∧
      t.live.txBuf t0.ch 0 = some b ∧ b.owner = .ref ∧ b.key = t0.refId ∧ b.dlc = 8 ∧ b.data = s.live.refPayload t0 ∧
      t.live.can.master = some { t0 with
        period := s.live.mt.now / ms (max 1 t0.refMs), rseq := (t0.rseq + 1) % 16, prev := none, waits := true }) ∧
  (∀ (f : CanFrame) (t0 : TimeSource) (s : State), s.live.sup.phase = .running → s.live.can.source = some t0 → t0.ch = f.ch →
    f.key = t0.refId → f.dlc = 8 → (s.live.chan f.ch).listens = true →
    ∃ t x, exec (.referenceReceived f) s = .next t ∧ t.kept = s.kept ∧ t.live.can.source = some x ∧
      x.lastSeq = some (byteAt f.data 0 % 16) ∧ x.lastSof = f.sof + t.live.mt.now - s.live.mt.now ∧ x.lastRef = t.live.mt.now ∧
      (t0.lastSeq = none ∨ bit (byteAt f.data 0) 4 = false → x.offset = t0.offset ∧ t.live.mt = s.live.mt) ∧
      (t0.lastSeq = some ((byteAt f.data 0 % 16 + 15) % 16) → bit (byteAt f.data 0) 4 = true →
        x.offset = (extendMt s.live.mt.now 1 56 (rd f.data 1 7) : Int) + t0.propNs - t0.lastSof ∧
        x.good = if x.offset.natAbs < 1000 then t0.good + 1 else 0)) ∧
  (∀ (f : CanFrame) (v : SpeedSignal) (s : State), s.live.sup.phase = .running → s.live.can.speed = some v → v.ch = f.ch →
    v.key = f.key → (s.live.chan f.ch).listens = true →
    let now : SpeedSignal := if v.raw f.data = 2 ^ v.bits - 1 then { v with value := none }
      else { v with value := some (v.raw f.data * v.scale / 1000), at_ := s.live.mt.now }
    exec (.speedFrame f) s = .next (s.onLive fun l => l.setCan fun c => { c with speed := some now })) ∧
  (∀ (v : SpeedSignal) (s : State), s.live.sup.phase = .running → s.live.can.speed = some v →
    exec .speedTimeout s = .next (if v.at_ + ms v.timeoutMs < s.live.mt.now then
      s.onLive fun l => l.setCan fun c => { c with speed := some { v with value := none } } else s)) ∧
  (∀ m b s, Waits s 0x4007 m b →
    let p := b.payload
    let role := byteAt p 0
    let ch := byteAt p 1
    let heldM := s.live.can.master.any fun t => t.ch == ch
    let heldS := s.live.can.source.any fun t => t.ch == ch
    role ≤ 2 → ch ≤ 3 → inRange 10 500 (rd p 2 2) = true → keyRtr (rd p 4 4) = false → keyFdf (rd p 4 4) = false →
    (keyIde (rd p 4 4) = true ∨ rd p 4 4 % 2 ^ 18 = 0) → -1000 ≤ rdInt p 8 2 → rdInt p 8 2 ≤ 1000 → byteAt p 10 < 2 →
    byteAt p 11 = 0 →
    (role ≠ 0 → heldM = true ∨ heldS = true → exec .canTime s = .next (s.answer m .state 0 [])) ∧
    (role = 1 → s.live.can.master.isSome = true → exec .canTime s = .next (s.answer m .state 0 [])) ∧
    (role = 2 → s.live.can.source.isSome = true → exec .canTime s = .next (s.answer m .state 0 [])) ∧
    (role = 0 ∨ (role = 1 ∧ s.live.can.master = none ∧ heldS = false ∧
        ((s.live.txBuf ch 0).isSome = true → s.live.txb0Reserved ch = true)) ∨
      (role = 2 ∧ s.live.can.source = none ∧ heldM = false) →
      exec .canTime s = .next (s.ends m ((s.live.applyTime p).endConfig m (bit (byteAt p 10) 0) 0x4007
        (if role = 1 ∨ (role = 0 ∧ heldM = true) then 0 else 1) p)))) ∧
  (∀ m b s, Waits s 0x4009 m b →
    let p := b.payload
    (byteAt p 0 ≤ 3 ∨ byteAt p 0 = 0xFF) → byteAt p 1 ≤ 1 → inRange 1 16 (byteAt p 4) = true → byteAt p 5 < 2 → 1 ≤ rd p 6 2 →
    inRange 20 5000 (rd p 12 2) = true → rd p 14 2 = 0 → rd p 2 2 + byteAt p 4 ≤ 512 →
    (byteAt p 1 = 1 → rd p 2 2 % 8 = 0 ∧ byteAt p 4 % 8 = 0) →
    exec .canSpeed s = .next (s.ends m ((s.live.applySpeed p).endConfig m (bit (byteAt p 5) 0) 0x4009 0 p)))

/-- The other CAN commands with legal fields (R323 to R328, R331).
Completion: exec answers a next state, each row under the conditions it names, for CAN_ABORT, CAN_CONFIG, CAN_MODE, CAN_SEND,
CAN_RX, CAN_FILTER, CAN_STATUS. -/
def Obligations.CanCommands : Prop :=
  (∀ m b s, Waits s 0x4001 m b → firstBad (canCfgChecks b.payload) = none →
    ((s.live.chan (byteAt b.payload 0)).mode ≠ 0 → exec .canConfig s = .next (s.answer m .state 0 [])) ∧
    ((s.live.chan (byteAt b.payload 0)).mode = 0 → exec .canConfig s = .next (s.ends m
      ((s.live.setChan (byteAt b.payload 0) fun c => { c with cfg := CanCfg.ofBytes b.payload }).driveTrx.endConfig m
        (bit (byteAt b.payload 1) 0) 0x4001 (byteAt b.payload 0) b.payload)))) ∧
  (∀ m b s, Waits s 0x4002 m b → byteAt b.payload 0 ≤ 3 → byteAt b.payload 1 ≤ 4 → (resv b 2 2).2 = true →
    byteAt b.payload 0 < s.live.can.chans.length →
    ∃ l', exec .canMode s = .next (s.ends m (okReply, l')) ∧ (l'.chan (byteAt b.payload 0)).mode = byteAt b.payload 1 ∧
      (byteAt b.payload 1 = 0 → (l'.chan (byteAt b.payload 0)).tec = 0 ∧ (l'.chan (byteAt b.payload 0)).rec_ = 0 ∧
        (l'.chan (byteAt b.payload 0)).errState = 0)) ∧
  (∀ m b s, Waits s 0x4003 m b →
    let p := b.payload
    let n := byteAt p 0
    let t := byteAt p 1
    let key := rd p 2 4
    let len := if keyRtr key then 0 else dlcLen (keyFdf key) (byteAt p 6)
    let free := (if s.live.txb0Reserved n then [1, 2] else [0, 1, 2]).filter fun k => (s.live.txBuf n k).isNone
    n ≤ 3 → (t ≤ 2 ∨ t = 0xFF) → ¬ (keyRtr key = true ∧ keyFdf key = true) → (keyIde key = true ∨ key % 2 ^ 18 = 0) →
    (keyFdf key = true → (s.live.chan n).cfg.fd = true) → byteAt p 6 ≤ 15 → byteAt p 7 < 2 →
    (byteAt p 7 = 1 → keyFdf key = true ∧ (s.live.chan n).cfg.brs = true) → rd p 10 2 = 0 →
    (b.len ≠ 12 + len → exec (.canSend) s = .next (s.answer m .badLength 0 [])) ∧
    (b.len = 12 + len → (s.live.chan n).mode = 0 ∨ (s.live.chan n).mode = 2 ∨ (t = 0 ∧ s.live.txb0Reserved n = true) →
      exec .canSend s = .next (s.answer m .state 0 [])) ∧
    (b.len = 12 + len → (s.live.chan n).mode ≠ 0 → (s.live.chan n).mode ≠ 2 → (t = 0 → s.live.txb0Reserved n = false) →
      (t = 0xFF → free = [] → exec .canSend s = .next (s.answer m .busy 0 [])) ∧
      (t ≠ 0xFF → t ∉ free → exec .canSend s = .next (s.answer m .busy 0 [])) ∧
      (∀ k, (t = 0xFF ∧ free.head? = some k) ∨ (t = k ∧ k ∈ free) →
        exec .canSend s = .next (s.ends m (.done .pending 0 (le 1 k), s.live.setTx n k (some {
          owner := .send (rd b.bytes 2 2), key := key, brs := bit (byteAt p 7) 0, dlc := byteAt p 6,
          data := (p.drop 12).take len, deadline := if rd p 8 2 = 0 then none else some (s.live.mt.now + ms (rd p 8 2)),
          attempts := 0, freeing := none })))))) ∧
  (∀ m b s k tag x underway, Waits s 0x4004 m b → byteAt b.payload 0 ≤ 3 → byteAt b.payload 1 = 2 ^ k → k < 3 →
    s.live.txBuf (byteAt b.payload 0) k = some x → x.owner = .send tag →
    (bit underway k = false ∨ (s.live.chan (byteAt b.payload 0)).mayRun k = false → exec (.canAbort underway) s = .next (s.ends m (.done .ok 0 (le 1 (2 ^ k)),
      (s.live.abandon (byteAt b.payload 0) k 2).nmPump))) ∧
    (bit underway k = true → (s.live.chan (byteAt b.payload 0)).mayRun k = true → exec (.canAbort underway) s = .next (s.ends m (.done .ok 0 (le 1 0),
      (s.live.setTx (byteAt b.payload 0) k (some { x with freeing := some (x.freeing.getD 2) })).nmPump)))) ∧
  (∀ m b s, Waits s 0x4005 m b → inRange 1 6 (byteAt b.payload 0) = true →
    let n := byteAt b.payload 0
    (fromF1 m = false → exec .canRx s = .next (s.ends m (.done .ok 0 (le 1 (min n s.live.can.hostQ.length) ++ le 1 0 ++
      le 2 (s.live.can.hostQ.length - n) ++ le 4 s.live.can.hostDropped ++ (s.live.can.hostQ.take n).flatten),
      s.live.setCan fun c => { c with hostQ := c.hostQ.drop n }))) ∧
    (fromF1 m = true → exec .canRx s = .next (s.ends m (.done .ok 0 (le 1 (min n s.live.can.f1Q.length) ++ le 1 0 ++
      le 2 (s.live.can.f1Q.length - n) ++ le 4 s.live.can.f1Dropped ++ (s.live.can.f1Q.take n).flatten),
      s.live.setCan fun c => { c with f1Q := c.f1Q.drop n })))) ∧
  (∀ m b s, Waits s 0x4006 m b →
    let p := b.payload
    let first := rd p 0 2
    let n := byteAt p 2
    let rule := fun i => (p.drop (4 + 16 * i)).take 16
    let pend := (List.range n).foldl (fun rs i => setRule rs (first + i) (rule i))
      (if bit (byteAt p 3) 2 then [] else s.live.can.pend)
    first ≤ 1023 → n ≤ 30 → first + n ≤ 1024 → byteAt p 3 < 8 →
    (∀ i, i < n → byteAt (rule i) 8 < 16 ∧ byteAt (rule i) 9 < 32 ∧ byteAt (rule i) 10 ≤ 63 ∧ byteAt (rule i) 11 = 0 ∧
      rd (rule i) 12 2 ≤ 60000 ∧ rd (rule i) 14 2 = 0) →
    (bit (byteAt p 3) 0 = false → bit (byteAt p 3) 1 = false →
      exec .canFilter s = .next (s.ends m (okReply, s.live.setCan fun c => { c with pend := pend }))) ∧
    (bit (byteAt p 3) 0 = true → ∃ ks, exec .canFilter s = .next (s.ends m (.wait, s.live.setCan fun c => { c with
      pend := pend, builds := c.builds ++ [FilterBuild.mk pend m ks] })) ∧ (bit (byteAt p 3) 1 = false → ks = []) ∧
      (bit (byteAt p 3) 1 = true → bit (byteAt p 3) 2 = true → ks = List.range 74))) ∧
  (∀ m b s, Waits s 0x4008 m b → byteAt b.payload 0 ≤ 3 → ∃ p, exec .canStatus s = .next (s.answer m .ok 0 p) ∧
    p.length = 32 ∧ byteAt p 0 = (s.live.chan (byteAt b.payload 0)).mode % 256 ∧
    byteAt p 1 = (s.live.chan (byteAt b.payload 0)).errState % 256 ∧ rd p 22 2 = (s.live.speedValue.getD 0xFFFF) % 65536)

/-! ### Network sleep (12_network_sleep_wake.md) -/

/-- The ring of consent (R334 to R340, R342): the own RING and what it carries, the round of a master, a silent node skipped,
an ALIVE when no RING comes, what a received message does, the keeper log, the end of the commit window.
The NM commands with legal fields (R345 to R348).
Completion: exec answers a next state, each row under the conditions it names, for RING_MESSAGE_RECEIVED, KEEPER_THRESHOLD,
RING_SEND, RING_MAX_EXPIRY, ALIVE_TIMEOUT, COMMIT_WINDOW_END, NM_CONFIG, NM_REQUEST, NM_STATUS, NM_KEEPERS, NM_WAKES. -/
def Obligations.SleepRing : Prop :=
  (∀ (node t0 : Nat) (x : NmNode) (s : State), s.live.sup.phase = .running →
    s.live.nm.nodes.find? (fun y => y.id == node) = some x → x.since = some t0 →
    (∀ k ∈ s.live.nm.keepers, k.node = node → k.closed ≠ none) → s.live.consents = true →
    t0 + ms (1000 * s.live.nm.cfg.keeperS) ≤ s.live.mt.now →
    ∃ t, exec (.keeperThreshold node) s = .next t ∧ t.kept = s.kept ∧
      t.live.nm.keepers = (Keeper.mk node x.reason (t0 - x.away) none x.away :: s.live.nm.keepers).take 16) ∧
  (∀ (at_ : Nat) (s : State), s.live.sup.phase = .running → s.live.nm.sendAt = some at_ → at_ ≤ s.live.mt.now →
    s.live.pwr.mode = .run → s.live.nmSilent = false → s.live.nm.cfg.on = true →
    0 < (s.live.chan s.live.nm.cfg.ch).tx.length → s.live.txBuf s.live.nm.cfg.ch 0 = none →
    let ind := if s.live.isMaster then !s.live.nm.voided && !s.live.nm.refused && !s.live.nm.ind && s.live.allConsent
      else s.live.nm.ind
    let round := if s.live.isMaster then (s.live.nm.round + 1) % 256 else s.live.nm.round
    ∃ t b, exec .ringSend s = .next t ∧ t.kept = s.kept ∧ t.live.txBuf s.live.nm.cfg.ch 0 = some b ∧ b.owner = .ring ∧
      b.data = ringPayload s.live.successor 0 (b2n s.live.consents + 2 * b2n (ind && s.live.consents)) s.live.nmReason round
        0xFF ∧ t.live.nm.round = round ∧ t.live.nm.sendAt = none ∧ t.live.nm.sentAt = s.live.mt.now ∧
      t.live.nm.lastRing = s.live.mt.now ∧ t.live.nm.indSent = (ind && s.live.consents)) ∧
  (∀ (d : Nat) (s : State), s.live.sup.phase = .running → s.live.nm.waitFor = some d →
    s.live.nm.sentAt + ms s.live.nm.cfg.ringMax ≤ s.live.mt.now → s.live.pwr.mode = .run → s.live.nmSilent = false →
    s.live.txBuf s.live.nm.cfg.ch 0 = none →
    ∃ t, exec .ringMaxExpiry s = .next t ∧ t.kept = s.kept ∧ t.live.nm.sentAt = s.live.mt.now ∧
      (∀ x ∈ t.live.nm.nodes, x.id ≠ d) ∧ ((∃ x ∈ s.live.nm.nodes, x.id = d) → t.live.nm.voided = true)) ∧
  (∀ s : State, s.live.sup.phase = .running → s.live.nm.lastRing + 3 * ms s.live.nm.cfg.ringMax ≤ s.live.mt.now →
    s.live.nm.cfg.on = true → s.live.nmSilent = false → s.live.pwr.mode = .run →
    ∃ t, exec .aliveTimeout s = .next t ∧ t.kept = s.kept ∧ t.live.nm.lastRing = s.live.mt.now ∧
      (s.live.isMaster = true → t.live.nm.sendAt = some (s.live.mt.now + ms s.live.nm.cfg.ringMs) ∧
        t.live.nm.voided = true)) ∧
  (∀ s : State, s.live.sup.phase = .running → s.live.nm.byRing = true → s.live.nm.commitAt ≤ s.live.mt.now →
    exec .commitWindowEnd s = .next (s.onLive fun l => l.setNm fun n => { n with windowOver := true })) ∧
  (∀ (f : CanFrame) (node : Nat) (s : State), s.live.ringSender f = some node → (s.live.chan f.ch).listens = true →
    (s.live.pwr.mode = .wakeCheck → exec (.ringMessageReceived f) s = .next (s.onLive fun l => l.setChan f.ch fun c =>
      { c with wakeOk := true })) ∧
    (s.live.pwr.mode = .run → s.live.sup.phase = .running → node = s.live.nm.cfg.node →
      ∃ t, exec (.ringMessageReceived f) s = .next t ∧ t.kept = s.kept ∧ t.live.nm.duplicate = true) ∧
    (s.live.pwr.mode = .run → s.live.sup.phase = .running → node ≠ s.live.nm.cfg.node →
      exec (.ringMessageReceived f) s = .next (s.onLive fun l => l.ringInRun node f.data) ∧
      (byteAt f.data 1 = 1 → ∃ x ∈ (s.live.ringInRun node f.data).nm.nodes, x.id = node))) ∧
  (∀ m b s, Waits s 0x4401 m b →
    let p := b.payload
    (byteAt p 0 ≤ 3 ∨ byteAt p 0 = 0xFF) → byteAt p 1 ≤ 63 → byteAt p 2 < 2 → rd p 4 2 ≤ 0x7C0 → rd p 4 2 % 64 = 0 →
    inRange 20 1000 (rd p 6 2) = true → inRange 50 5000 (rd p 8 2) = true → 2 * rd p 6 2 ≤ rd p 8 2 →
    inRange 100 10000 (rd p 10 2) = true → 10 ≤ rd p 12 2 → (resv b 14 2).2 = true → byteAt p 16 % 128 ≠ 0 → byteAt p 17 < 16 →
    (s.live.nm.st = .indicating ∨ s.live.nm.st = .commit → exec .nmConfig s = .next (s.answer m .state 0 [])) ∧
    (s.live.nm.st ≠ .indicating → s.live.nm.st ≠ .commit → exec .nmConfig s = .next (s.ends m
      ((s.live.applyNmCfg p).endConfig m (bit (byteAt p 2) 0) 0x4401 0 p)) ∧
      (s.live.applyNmCfg p).nm.cfg = NmCfg.ofBytes p)) ∧
  (∀ m b s, Waits s 0x4402 m b →
    let c := byteAt b.payload 0
    let reason := byteAt b.payload 1
    (c = 1 ∧ reason = 0) ∨ (c = 0 ∧ 1 ≤ reason ∧ reason ≤ 239) → (resv b 2 2).2 = true →
    (s.live.nm.st = .off → exec .nmRequest s = .next (s.answer m .state 0 [])) ∧
    (s.live.nm.st ≠ .off → ∃ l', exec .nmRequest s = .next (s.ends m (okReply, l')) ∧ l'.nm.consent = (c == 1) ∧
      l'.nm.reason = reason)) ∧
  (∀ m b s, Waits s 0x4403 m b → ∃ p, exec .nmStatus s = .next (s.answer m .ok 0 p) ∧ p.length = 32 ∧
    byteAt p 0 = s.live.nm.st.code ∧ byteAt p 2 = s.live.nm.round % 256 ∧ byteAt p 3 = s.live.nmReason % 256) ∧
  (∀ m b s, Waits s 0x4404 m b → byteAt b.payload 0 < 2 →
    exec .nmKeepers s = .next (s.ends m (.done .ok 0 (le 1 s.live.nm.keepers.length ++ le 3 0 ++
        s.live.nm.keepers.flatMap s.live.keeperBytes),
      if byteAt b.payload 0 = 1 then s.live.setNm fun n => { n with keepers := [] } else s.live))) ∧
  (∀ m b s, Waits s 0x4405 m b →
    (byteAt b.payload 0 = 0 → exec .nmWakes s = .next (s.answer m .ok 0 s.live.wakesRecord)) ∧
    (byteAt b.payload 0 = 1 → ∃ l', exec .nmWakes s = .next (s.ends m (.wait, l')) ∧ l'.nm.fwTotal = List.replicate 23 0 ∧
      l'.pwr = s.live.pwr ∧ l'.fio = s.live.fio))

/-! ### Cascade link (13_bamsavin_cascade_link.md) -/

/-- Cycles, hops and formation (R353 to R359): the acting master originates one cycle in each period with its position and the
cycle number, a member follows a good SYNC and locks its port, a bad one is ignored, formation gives the positions.
Strike (R89, R360 to R362, R379): a staged change waits for the boundary, is applied there once, or is discarded as old;
LINK.STRIKE is scheduled by the acting master, or here when not cascaded.
The other LINK commands with legal fields (R376 to R380).
Completion: exec answers a next state, each row under the conditions it names, for SYNC_RECEIVED, HOP_PROBE, FORMATION,
STRIKE_APPLY, CYCLE_ORIGINATE, STRIKE_ANNOUNCE, STRIKE_LAND_RELEASE, STAGE_MAX_EXPIRY, LINK_CONFIG, LINK_STATUS, LINK_STRIKE,
LINK_MEMBERS, LINK_REFORM, LINK_WAKE. -/
def Obligations.LinkCyclesAndStrikes : Prop :=
  (∀ s : State, s.live.acting = true → s.live.linkRuns = true → s.live.listening = false → s.live.link.cycle < s.live.cycleNo →
    ∃ t, exec .cycleOriginate s = .next t ∧ t.kept = s.kept ∧ t.live.link.cycle = s.live.cycleNo ∧
      t.live.link.carry = [] ∧ t.live.link.tx.length = cycleLen ∧ byteAt t.live.link.tx 0 = 0xBC ∧ byteAt t.live.link.tx 1 = 0 ∧
      byteAt t.live.link.tx 2 = s.live.link.position % 256 ∧ rd t.live.link.tx 4 4 = s.live.cycleNo % 2 ^ 32) ∧
  (∀ (d : Sync) (s : State),
    let p := d.port % 2
    let bs := d.bytes
    let good := bs.length = cycleLen ∧ rd bs 62 2 = (crc16 ((bs.drop 1).take 61)).toNat
    (¬ good → exec (.syncReceived d) s = .next s) ∧
    (good → s.live.linkRuns = true → p < s.live.link.ports.length → byteAt bs 1 = 1 →
      ∃ t, exec (.syncReceived d) s = .next t ∧ t.kept = s.kept ∧ (t.live.port p).lock = true ∧ t.live.host = s.live.host) ∧
    (good → s.live.linkRuns = true → byteAt bs 1 = 2 →
      exec (.syncReceived d) s = .next (s.onLive fun l => l.wrapPort p 0 warn false)) ∧
    (good → s.live.linkRuns = true → byteAt bs 1 = 3 →
      exec (.syncReceived d) s = .next (s.onLive fun l => l.wrapPort p 2 notice true)) ∧
    (good → s.live.linkRuns = true → byteAt bs 1 = 0 → p = s.live.primaryPort → s.live.acting = false →
      ∃ t, exec (.syncReceived d) s = .next t ∧ t.kept = s.kept ∧ t.live.link.cascaded = true ∧
        t.live.link.master = byteAt bs 2 ∧ t.live.link.lastSync = t.live.mt.now) ∧
    (good → s.live.linkRuns = true → byteAt bs 1 = 0 → p = s.live.primaryPort → s.live.acting = true →
      byteAt bs 2 = s.live.link.position → ∃ t, exec (.syncReceived d) s = .next t ∧ t.kept = s.kept ∧
        t.live.link.cascaded = true ∧ t.live.link.lastSync = s.live.mt.now)) ∧
  (∀ (port a b : Nat) (s : State),
    (port % 2 = 0 → exec (.hopProbe port ⟨a, b⟩) s = .next (s.onLive fun l => l.setLink fun k => { k with
      hopNs := (a - b) / 2 / 4 * 4 })) ∧
    (port % 2 = 1 → exec (.hopProbe port ⟨a, b⟩) s = .next (s.onLive fun l => l.setLink fun k => { k with
      hopBNs := (a - b) / 2 / 4 * 4 }))) ∧
  (∀ (ms_ : List Member) (s : State), s.live.sup.phase = .running →
    (s.live.link.st = .forming → s.live.link.master = s.live.link.position →
      ∃ t r, exec (.formation ms_) s = .next t ∧ t.kept = s.kept ∧ t.live.link.st = .master ∧
        t.live.link.roster.head? = some r ∧ r.pos = s.live.link.position ∧ r.serial = Config.serial) ∧
    (s.live.acting = false → s.live.link.cascaded = true → (s.live.link.ringAuth = true → s.live.link.authOk = true) →
      ∀ x, (ms_.map s.live.rosterEntry).find? (fun r => r.serial == Config.serial) = some x →
      ∃ t, exec (.formation ms_) s = .next t ∧ t.kept = s.kept ∧ t.live.link.st = .member ∧
        t.live.link.position = x.pos ∧ t.live.link.roster = ms_.map s.live.rosterEntry)) ∧
  (∀ (clamps : List Nat) (a : StrikeAnn) (s : State), s.live.link.strike = some a → a.target * cycleNs ≤ s.live.mt.now →
    s.live.commandLayer = true → ∃ t, exec (.strikeApply clamps) s = .next t ∧ t.kept = s.kept ∧
      t.live.link.strike = none ∧ t.live.link.struckSeq = a.seq ∧
      t.live.host.staged = s.live.host.staged.filter fun x => !x.struck) ∧
  (∀ (x : Nat) (s : State), s.live.sup.phase = .running → s.live.link.strikeLow = some x → x + us 2 ≤ s.live.mt.now →
    exec .strikeLandRelease s = .next (s.onLive fun l => l.setLink fun k => { k with strikeLow := none })) ∧
  (∀ s : State, s.live.sup.phase = .running → ∃ t, exec .stageMaxExpiry s = .next t ∧ t.kept = s.kept ∧
    t.live.host.staged = s.live.host.staged.filter fun x =>
      decide (s.live.mt.now < x.since + ms (1000 * s.live.link.cfg.stageMax))) ∧
  (∀ (r : StrikeReq) (s : State), s.live.sup.phase = .running → s.live.link.strikeReq = some r → s.live.acting = true →
    s.live.link.strike = none → ∃ t a, exec .strikeAnnounce s = .next t ∧ t.kept = s.kept ∧ t.live.link.strike = some a ∧
      a.target = max r.target (s.live.cycleNo + s.live.link.cfg.lead) ∧ a.seq = (s.live.link.strikeSeq + 1) % 65536 ∧
      t.live.link.strikeReq = none ∧ ∀ x ∈ t.live.host.staged, x.struck = true) ∧
  (∀ m b s, Waits s 0x4803 m b → rd b.payload 0 2 = 0 ∨ inRange 4 8000 (rd b.payload 0 2) = true → (resv b 2 2).2 = true →
    let target := s.live.cycleNo + if rd b.payload 0 2 = 0 then s.live.link.cfg.lead else rd b.payload 0 2
    let seq := (s.live.link.strikeSeq + 1) % 65536
    (s.live.link.cascaded = true → s.live.acting = false → s.live.pathOut 3 = false →
      s.live.relayFits (16 + b.len) 24 s.live.link.master = true → exec .linkStrike s = .next (s.ends m (.wait,
      s.live.sendRequest m s.live.link.master (splice (b.bytes.take (16 + b.len)) 6 (le 1 s.live.link.master))))) ∧
    (s.live.link.cascaded = false ∨ s.live.acting = true → s.live.link.strike ≠ none ∨ s.live.link.strikeReq ≠ none →
      exec .linkStrike s = .next (s.answer m .busy 3 [])) ∧
    (s.live.link.cascaded = true → s.live.acting = true → s.live.link.strike = none → s.live.link.strikeReq = none →
      exec .linkStrike s = .next (s.ends m (.wait, s.live.setLink fun k => { k with
        strikeReq := some { target := target, owner := m } }))) ∧
    (s.live.link.cascaded = false → s.live.link.strike = none → s.live.link.strikeReq = none →
      exec .linkStrike s = .next (s.ends m (.done .ok 0 (le 4 target ++ le 2 seq ++ le 2 0), s.live.announce target seq)))) ∧
  (∀ m b s, Waits s 0x4801 m b → byteAt b.payload 0 < 8 → byteAt b.payload 1 ≤ 63 → inRange 4 800 (rd b.payload 2 2) = true →
    inRange 1 3600 (rd b.payload 4 2) = true → (resv b 6 2).2 = true →
    exec .linkConfig s = .next (s.ends m ((s.live.applyLinkCfg b.payload).endConfig m (bit (byteAt b.payload 0) 0) 0x4801 0
      b.payload)) ∧ (s.live.applyLinkCfg b.payload).link.cfg = LinkCfg.ofBytes b.payload) ∧
  (∀ m b s, Waits s 0x4802 m b → ∃ p, exec .linkStatus s = .next (s.answer m .ok 0 p) ∧ p.length = 32 ∧
    byteAt p 1 = s.live.link.st.code ∧ byteAt p 2 = s.live.link.position % 256 ∧ rd p 8 4 = s.live.cycleNo % 2 ^ 32 ∧
    rd p 12 2 = s.live.link.struckSeq % 65536) ∧
  (∀ m b s, Waits s 0x4804 m b → byteAt b.payload 0 ≤ 63 → ∃ n p, exec .linkMembers s = .next (s.answer m .ok 0 p) ∧
    n ≤ 30 ∧ p.length = 4 + 16 * n ∧ byteAt p 0 = n) ∧
  (∀ m b s, Waits s 0x4805 m b → (resv b 0 4).2 = true →
    (s.live.acting = false → s.live.link.strap ≠ 1 → exec .linkReform s = .next (s.answer m .state 0 [])) ∧
    (s.live.acting = true ∨ s.live.link.strap = 1 → ∃ l', exec .linkReform s = .next (s.ends m (refuse .pending, l')) ∧
      l'.link.st = .forming ∧ l'.link.position = 0 ∧ l'.link.master = 0 ∧ l'.link.roster = [] ∧ l'.link.reform = true ∧
      l'.link.sessions = [])) ∧
  (∀ m b s, Waits s 0x4806 m b → (resv b 0 4).2 = true →
    exec .linkWake s = .next (s.ends m (okReply, s.live.setLink fun k => { k with wakeTx := some (s.live.mt.now + ms 20) })))

/-- Breaks, silence, a master's failure, authentication and MT (R29, R351, R368 to R373).
Completion: exec answers a next state, each row under the conditions it names, for LOSS_OF_LOCK, UNWRAP, PORT_QUIET,
MEMBER_SILENT, MEMBERSHIP_AUTH, MT_SOURCE_LOST, LINK_WAKE_TRANSMIT, MASTER_TAKEOVER, NOT_CASCADED, AUTH_RETRY. -/
def Obligations.LinkFailures : Prop :=
  (∀ (pos n : Nat) (far : Bool) (s : State), s.live.sup.phase = .running → s.live.isMember pos = true →
    (8 ≤ n → (if far then s.live.beyondBreak pos else s.live.acting) = true → pos ∉ s.live.link.silent → ∃ t, exec (.memberSilent pos n far) s = .next t ∧ t.kept = s.kept ∧
      t.live.link.silent = s.live.link.silent ++ [pos] ∧ ∀ r ∈ t.live.link.roster, r.pos = pos → r.alive = false) ∧
    (n = 0 → pos ∈ s.live.link.silent → ∃ t, exec (.memberSilent pos n far) s = .next t ∧ t.kept = s.kept ∧
      pos ∉ t.live.link.silent ∧ ∀ r ∈ t.live.link.roster, r.pos = pos → r.alive = true)) ∧
  (∀ (port v : Nat) (s : State), port % 2 < s.live.link.ports.length →
    ((s.live.port (port % 2)).lock = true → ∃ t, exec (.lossOfLock port) s = .next t ∧ t.kept = s.kept ∧
      (t.live.port (port % 2)).lock = false ∧ (t.live.port (port % 2)).wrapped = true) ∧
    ((s.live.port (port % 2)).wrapped = true → ms 100 ≤ v → s.live.cycleNo % 64 = 0 → ∃ t, exec (.unwrap port v) s = .next t ∧
      t.kept = s.kept ∧ (t.live.port (port % 2)).lock = true ∧ (t.live.port (port % 2)).wrapped = false) ∧
    ((s.live.port (port % 2)).lock = false → ms 10 ≤ v → s.live.link.wakeTx = none →
      ∃ t, exec (.portQuiet port v) s = .next t ∧ t.kept = s.kept ∧ (t.live.port (port % 2)).quiet = true ∧
        t.live.host = s.live.host)) ∧
  (∀ (w : Nat) (s : State), s.live.link.wakeTx = some w → ∃ t, exec .linkWakeTransmit s = .next t ∧ t.kept = s.kept ∧
    (s.live.mt.now < w → t.live.link.wakeTx = some w ∧ ∀ x ∈ t.live.link.ports, x.quiet = false) ∧
    (w ≤ s.live.mt.now → t.live.link.wakeTx = none ∧ ∀ x ∈ t.live.link.ports, x.quiet = !x.lock)) ∧
  (∀ s : State, s.live.sup.phase = .running → s.live.link.ports.any (·.lock) = false → s.live.pwr.mode = .run →
    s.live.link.runAt + ms 100 ≤ s.live.mt.now → exec .notCascaded s = .next (s.onLive fun l => (l.setLink fun k =>
      { k with st := .alone, cascaded := false, position := 0, roster := [] }).runFree .link)) ∧
  (∀ (k : Nat) (s : State), s.live.altRank = some k → s.live.link.st = .member → s.live.pwr.mode ≠ .drain →
    s.live.commandLayer = true → s.live.link.lastSync + 4 * (k + 1) * cycleNs ≤ s.live.mt.now →
    ∃ t, exec .masterTakeover s = .next t ∧ t.kept = s.kept ∧ t.live.link.st = .master ∧
      t.live.link.master = s.live.link.position ∧ t.live.host.relay = true ∧ t.live.acting = true) ∧
  (∀ (a : AuthData) (s : State), s.live.link.cascaded = true →
    (s.live.acting = true → a.inTime = false → ∃ t, exec (.membershipAuth a) s = .next t ∧ t.kept = s.kept ∧
      (∀ r ∈ t.live.link.roster, r.pos ≠ a.pos) ∧ ∀ x ∈ t.live.link.sessions, x.1 ≠ a.pos) ∧
    (s.live.acting = true → a.inTime = true →
      ∀ k, s.serviceKdf s.live.link.cfg.keySlot "ZZ-LKMBR" (le 8 a.serial) = some k →
      cmac k (a.masterChal ++ le 8 a.serial ++ le 1 a.pos) = a.mac →
      ∃ t, exec (.membershipAuth a) s = .next t ∧ t.kept = s.kept ∧
        (a.pos, s.linkSession a.serial a.masterChal a.memberChal) ∈ t.live.link.sessions ∧
        ∀ r ∈ t.live.link.roster, r.pos = a.pos → r.auth = true) ∧
    (s.live.acting = false → a.inTime = true →
      ∀ k, s.serviceKdf s.live.link.cfg.keySlot "ZZ-LKMBR" (le 8 Config.serial) = some k →
      cmac k (a.memberChal ++ le 8 a.serial) = a.mac →
      ∃ t, exec (.membershipAuth a) s = .next t ∧ t.kept = s.kept ∧ t.live.link.authOk = true ∧
        t.live.link.sessions = [(a.pos, s.linkSession a.serial a.masterChal a.memberChal)]) ∧
    (s.live.acting = false → a.inTime = false → ∃ t, exec (.membershipAuth a) s = .next t ∧ t.kept = s.kept ∧
      t.live.link.st = .guest ∧ t.live.link.position = 0xFF ∧ t.live.link.authNext = s.live.mt.now + ms 1000)) ∧
  (∀ s : State, s.live.sup.phase = .running → s.live.link.st = .guest → s.live.link.authNext ≠ 0 →
    s.live.link.authNext ≤ s.live.mt.now → exec .authRetry s = .next (s.onLive fun l => l.setLink fun k => { k with
      authNext := l.mt.now + ms 1000 })) ∧
  (∀ s : State,
    (s.live.mt.source = .link → s.live.link.lastSync + 4 * cycleNs ≤ s.live.mt.now →
      ∃ t, exec .mtSourceLost s = .next t ∧ t.kept = s.kept ∧ t.live.mt.source = .holdover ∧ t.live.mt.now = s.live.mt.now ∧
        t.live.mt.slewErr = 0) ∧
    (∀ c, s.live.mt.source = .can → s.live.can.source = some c → c.lastRef + ms (3 * c.refMs) ≤ s.live.mt.now →
      ∃ t, exec .mtSourceLost s = .next t ∧ t.kept = s.kept ∧ t.live.mt.source = .holdover ∧ t.live.mt.now = s.live.mt.now ∧
        t.live.can.source = some { c with good := 0 }))

/-! ### Crew tokens (14_token_access.md) -/

/-- Searches, rounds and tracking (R384 to R397): a search that is due may start an attempt, a round without a valid response
grants nothing and the attempt ends at ROUND_MAX, a granted token is lost after two rounds without its response, a slot still
unverified after 5 ms is INVALID.
The TOKEN commands with legal fields (R393, R398 to R403).
Completion: exec answers a next state, each row under the conditions it names, for TOKEN_SEARCH, TOKEN_ROUND, VERIFY_TIMEOUT,
TRACKING_ROUND, TOKEN_CONFIG, TOKEN_ZONES, TOKEN_ENROL, TOKEN_REVOKE, TOKEN_RANGE, TOKEN_LIST, TOKEN_STATUS. -/
def Obligations.Tokens : Prop :=
  (∀ (a v : Nat) (hit : Bool) (s : State), a < s.live.token.ants.length → a ≤ 1 → s.live.searchDue a = true →
    (s.live.ant a).attempt = none → (a = 1 → (s.live.ant 0).attempt = none) →
    ∃ t, exec (.tokenSearch a hit v) s = .next t ∧ t.kept = s.kept ∧ (t.live.ant a).asked = false ∧
      (t.live.ant a).searched = s.live.mt.now ∧ (t.live.ant a).grants = (s.live.ant a).grants ∧
      ((t.live.ant a).attempt.isSome = true ↔ hit = true ∧ s.live.pwr.mode = .run) ∧
      (30 < v → 1 ≤ (s.live.ant a).badRun → (t.live.ant a).faulted = true)) ∧
  (∀ (a : Nat) (x : TokenAttempt) (rs : List SlotResp) (s : State), (s.live.ant a).attempt = some x →
    x.nextAt ≤ s.live.mt.now → s.live.commandLayer = true →
    ∃ t, exec (.tokenRound a rs) s = .next t ∧ t.kept = s.kept ∧
      (∀ y, (t.live.ant a).attempt = some y → y.rounds = x.rounds + 1 ∧ y.nextAt = x.nextAt + ms s.live.token.cfg.gapMs) ∧
      (rs = [] → (∀ k, (t.live.ant k).grants = (s.live.ant k).grants) ∧
        (s.live.token.cfg.roundMax ≤ x.rounds + 1 → (t.live.ant a).attempt = none))) ∧
  (∀ (a : Nat) (rs : List SlotResp) (s : State), (s.live.ant a).grants ≠ [] → (s.live.ant a).trackAt ≤ s.live.mt.now →
    s.live.pwr.mode = .run → s.live.commandLayer = true →
    ∃ t, exec (.trackingRound a rs) s = .next t ∧ t.kept = s.kept ∧
      (t.live.ant a).trackAt = (s.live.ant a).trackAt + ms s.live.token.cfg.trackMs ∧
      (s.live.key.drbgRunning = false → (t.live.ant a).grants = (s.live.ant a).grants) ∧
      (s.live.key.drbgRunning = true → rs = [] → (t.live.ant a).grants =
        ((s.live.ant a).grants.filter fun g => g.misses == 0).map fun g => { g with misses := 1 })) ∧
  (∀ (a slot : Nat) (w : TokenWait) (s : State), s.live.sup.phase = .running →
    (s.live.ant a).waits.find? (fun w => w.slot == slot && decide (w.since + ms 5 ≤ s.live.mt.now)) = some w →
    ∃ t, exec (.verifyTimeout a slot) s = .next t ∧ t.kept = s.kept ∧
      (t.live.ant a).waits = (s.live.ant a).waits.filter fun x => x != w) ∧
  (∀ m b s, Waits s 0x5001 m b →
    let p := b.payload
    let k := s.kept.cells.slot (byteAt p 4)
    byteAt p 0 < 4 → byteAt p 1 ≤ 3 → byteAt p 2 ≤ 3 → inRange 1 3 (byteAt p 3) = true → byteAt p 4 ≤ 63 →
    inRange 2 16 (byteAt p 5) = true → inRange 10 200 (rd p 6 2) = true →
    (rd p 12 2 = 0 ∨ inRange 100 10000 (rd p 12 2) = true) → inRange 250 8000 (rd p 14 2) = true →
    (rd p 16 2 = 0 ∨ rd p 16 2 < rd p 12 2) → inRange 100 5000 (rd p 18 2) = true → inRange 10 100 (byteAt p 20) = true →
    (resv b 21 3).2 = true →
    (k.filled = true → k.attr ≠ 3 → exec .tokenConfig s = .next (s.answer m .keyUsage 0 [])) ∧
    (k.filled = false ∨ k.attr = 3 → exec .tokenConfig s = .next (s.ends m ((s.live.setToken fun t => { t with
      cfg := TokenCfg.ofBytes p }).endConfig m (bit (byteAt p 0) 0) 0x5001 0 p)))) ∧
  (∀ m b s, Waits s 0x5002 m b →
    let p := b.payload
    byteAt p 0 ≤ 1 → byteAt p 1 < 2 → rd p 2 2 ≤ 10000 →
    (∀ z, z < 8 → rd p (4 + 4 * z) 2 ≤ rd p (6 + 4 * z) 2 ∧ rd p (6 + 4 * z) 2 ≤ 2500) →
    exec .tokenZones s = .next (s.ends m ((s.live.applyTokenZones p).endConfig m (bit (byteAt p 1) 0) 0x5002 (byteAt p 0) p)) ∧
    (byteAt p 0 < s.live.token.ants.length → ∀ z, z < 8 →
      ((s.live.applyTokenZones p).ant (byteAt p 0)).zones.getD z (0, 0) = (rd p (4 + 4 * z) 2, rd p (6 + 4 * z) 2))) ∧
  (∀ m b s, Waits s 0x5003 m b →
    let id := rd b.payload 0 4
    let a := byteAt b.payload 6
    let busy := s.live.token.ants.any fun x => x.attempt.any fun y => y.enrol.isSome
    a ≤ 1 → (resv b 7 5).2 = true → s.live.pwr.mode ≠ .drain →
    ((s.live.recOf id).isSome = true → exec .tokenEnrol s = .next (s.answer m .state 1 [])) ∧
    (s.live.recOf id = none → (s.live.token.recs.all Option.isSome = true ∨ busy = true) →
      exec .tokenEnrol s = .next (s.answer m .busy 0 [])) ∧
    (s.live.recOf id = none → s.live.token.recs.all Option.isSome = false → busy = false →
      (s.kept.cells.slotState s.live.token.cfg.keySlot ≠ 1 → exec .tokenEnrol s = .next (s.answer m .locked 0 [])) ∧
      (s.kept.cells.slotState s.live.token.cfg.keySlot = 1 → a < s.live.token.ants.length → ∃ l' x,
        exec .tokenEnrol s = .next (s.ends m (.wait, l')) ∧ (l'.ant a).attempt = some x ∧ x.rounds = 0 ∧
        x.enrol = some { owner := m, id := id, rights := [byteAt b.payload 4, byteAt b.payload 5] }))) ∧
  (∀ m b s, Waits s 0x5004 m b →
    (s.live.recOf (rd b.payload 0 4) = none → exec .tokenRevoke s = .next (s.answer m .badParam 0 [])) ∧
    (∀ r, s.live.recOf (rd b.payload 0 4) = some r → ∃ reply l', exec .tokenRevoke s = .next (s.ends m (reply, l')) ∧
      l'.tokenRec r = none ∧ ∀ x ∈ l'.token.ants, ∀ g ∈ x.grants, g.rec_ ≠ r)) ∧
  (∀ m b s, Waits s 0x5005 m b → byteAt b.payload 0 ≤ 1 → (resv b 1 1).2 = true →
    let a := byteAt b.payload 0
    (s.live.pwr.mode = .drain ∨ bit s.live.token.cfg.antEn a = false → exec .tokenRange s = .next (s.answer m .state 0 [])) ∧
    (s.live.pwr.mode ≠ .drain → bit s.live.token.cfg.antEn a = true →
      ((s.live.ant a).attempt.isSome = true → exec .tokenRange s = .next (s.answer m .busy 0 [])) ∧
      ((s.live.ant a).attempt = none → exec .tokenRange s = .next (s.ends m (refuse .pending,
        s.live.setAnt a fun x => { x with asked := true }))))) ∧
  (∀ m b s, Waits s 0x5006 m b → byteAt b.payload 0 ≤ 31 → ∃ n p, exec .tokenList s = .next (s.answer m .ok 0 p) ∧ n ≤ 30 ∧
    byteAt p 0 = n ∧ p.length = 4 + 16 * n) ∧
  (∀ m b s, Waits s 0x5007 m b → ∃ p, exec .tokenStatus s = .next (s.answer m .ok 0 p) ∧ p.length = 16 ∧
    ∀ a, a < 2 → byteAt p (8 * a) = s.live.antState a ∧ byteAt p (8 * a + 2) = (s.live.ant a).grants.length % 256 ∧
      rd p (8 * a + 4) 4 = (s.live.ant a).attempts % 2 ^ 32)

/-! ### Key store and life cycle (15_key_store_lifecycle.md) -/

/-- The slot commands (R413 to R417, R424, R425): none executes while a sag holds secure-cell writes back; a generated, imported
or derived key fills its slot with the live domain, an export wraps an EXPORTABLE one, a deletion empties it.
Completion: exec answers a next state, each row under the conditions it names, for KEY_SLOT_INFO, KEY_GENERATE, KEY_IMPORT,
KEY_EXPORT, KEY_DELETE, KEY_DERIVE, KEY_TRANSITION. -/
def Obligations.KeySlots : Prop :=
  (∀ s : State, s.live.secureHeld = true → exec .keyGenerate s = .next s ∧ exec .keyImport s = .next s ∧
    exec .keyDelete s = .next s ∧ exec .keyDerive s = .next s ∧ exec .keyTransition s = .next s) ∧
  (∀ m b s, Waits s 0x5802 m b → byteAt b.payload 0 ≤ 63 →
    let k := s.kept.cells.slot (byteAt b.payload 0)
    exec .keySlotInfo s = .next (s.answer m .ok 0 (s.kept.cells.descriptor (byteAt b.payload 0) ++
      if k.filled then k.pub else []))) ∧
  (∀ m b s bs l, Waits s 0x5803 m b → s.live.secureHeld = false →
    let i := byteAt b.payload 0
    let type := byteAt b.payload 1
    i ≤ 63 → firstBad (fillChecks 1 type (byteAt b.payload 2) (byteAt b.payload 3) 3) = none → s.fillCheck i true = none →
    s.live.random (if type = 3 then 40 else materialLen type) = (some bs, l) → s.kept.cells.slots.length = 64 →
    ∃ s' p, exec .keyGenerate s = .next (s.endsK m (.done .ok 0 p, s')) ∧ s'.kept.cells.slot i =
      newSlot s.kept.cells type (byteAt b.payload 2) (byteAt b.payload 3) (if type = 3 then be 32 (scalarOf bs) else bs) ∧
      (∀ j, j ≠ i → s'.kept.cells.slot j = s.kept.cells.slot j) ∧ s'.kept.store = s.kept.store) ∧
  (∀ m b s, Waits s 0x5804 m b → s.live.secureHeld = false → byteAt b.payload 1 = 0 →
    let i := byteAt b.payload 0
    let p := b.payload
    i ≤ 63 → firstBad (fillChecks 3 (byteAt p 3) (byteAt p 4) (byteAt p 5) 4) = none → (resv b 6 2).2 = true →
    s.fillCheck i false = none → s.kept.cells.slots.length = 64 →
    ∃ s', exec .keyImport s = .next (s.endsK m (.done .ok 0 (s'.kept.cells.descriptor i), s')) ∧ s'.kept.cells.slot i =
      newSlot s.kept.cells (byteAt p 3) (byteAt p 4) (byteAt p 5 ||| 2) (p.drop 8)) ∧
  (∀ m b s pt, Waits s 0x5804 m b → s.live.secureHeld = false → byteAt b.payload 1 = 1 →
    let i := byteAt b.payload 0
    let w := byteAt b.payload 2
    i ≤ 63 → w ≤ 63 → (resv b 3 5).2 = true → s.useCheck m 0x5804 w 2 [0, 1] 2 = none →
    (s.kept.cells.slot w).domain = s.kept.cells.liveDomain → s.barred i = false → s.fillCheck i false = none →
    kwUnwrap (s.kept.cells.slot w).material (b.payload.drop 8) = some pt → byteAt pt 0 ≤ 4 →
    materialLen (byteAt pt 0) + 8 = pt.length → byteAt pt 1 ≤ 3 → byteAt pt 2 = s.kept.cells.liveDomain →
    s.kept.cells.slots.length = 64 → i ≠ w →
    ∃ s', exec .keyImport s = .next (s.endsK m (.done .ok 0 (s'.kept.cells.descriptor i), s')) ∧ s'.kept.cells.slot i =
      newSlot s.kept.cells (byteAt pt 0) (byteAt pt 1) ((byteAt pt 3 &&& 9) ||| 2) (pt.drop 8) ∧
      (s'.kept.cells.slot w).uses = min ((s.kept.cells.slot w).uses + 1) 0xFFFFFFFF) ∧
  (∀ m b s, Waits s 0x5805 m b →
    let i := byteAt b.payload 0
    let w := byteAt b.payload 1
    let k := s.kept.cells.slot i
    i ≤ 63 → w ≤ 63 → s.useCheck m 0x5805 w 1 [0, 1] 2 = none → k.filled = true → k.domain = s.kept.cells.liveDomain →
    (s.kept.cells.slot w).domain = k.domain →
    (bit k.flags 0 = false → exec .keyExport s = .next (s.answer m .state 0 [])) ∧
    (bit k.flags 0 = true → exec .keyExport s = .next (s.endsK m (.done .ok 0 (kwWrap (s.kept.cells.slot w).material
      (le 1 k.type ++ le 1 k.attr ++ le 1 k.domain ++ le 1 k.flags ++ le 4 0 ++ k.material)),
      (s.useSlot w).slotEvent 3 i)))) ∧
  (∀ m b s, Waits s 0x5806 m b → s.live.secureHeld = false → byteAt b.payload 0 ≤ 63 → s.kept.cells.liveDomain ≠ 0 →
    let i := byteAt b.payload 0
    (s.kept.cells.slot i).filled = true → (s.kept.cells.slot i).domain = s.kept.cells.liveDomain →
    (s.live.slotNamed i = true → exec .keyDelete s = .next (s.answer m .state 1 [])) ∧
    (s.live.slotNamed i = false → exec .keyDelete s = .next (s.endsK m (okReply, (s.slotEvent 4 i).setSlot i
      KeySlot.empty)))) ∧
  (∀ m b s, Waits s 0x5807 m b → s.live.secureHeld = false →
    let p := b.payload
    let par := byteAt p 0
    let i := byteAt p 1
    par ≤ 63 → i ≤ 63 → firstBad (fillChecks 2 (byteAt p 2) (byteAt p 3) (byteAt p 4) 2) = none → (resv b 7 1).2 = true →
    s.barred i = false → s.useCheck m 0x5807 par 0 [0, 1, 2] 3 = none → s.fillCheck i true = none → s.kept.cells.slots.length = 64 →
    ∃ s', exec .keyDerive s = .next (s.endsK m (.done .ok 0 (s'.kept.cells.descriptor i), s')) ∧ s'.kept.cells.slot i =
      newSlot s.kept.cells (byteAt p 2) (byteAt p 3) (byteAt p 4 ||| 4) (kdf (prfOf (s.kept.cells.slot par))
        ((p.drop 8).take (byteAt p 5)) ((p.drop (8 + byteAt p 5)).take (byteAt p 6)) (8 * materialLen (byteAt p 2))))

/-- The operations with keys, the hashes, the challenges and the DRBG (R414, R419, R420): what each answers, that a use is
counted, that a verification consumes its challenge, when the DRBG stops, restarts and is reseeded.
Completion: exec answers a next state, each row under the conditions it names, for ENTROPY_TEST_FAIL, DRBG_RESTART,
DRBG_RESEED, CHALLENGE_EXPIRY, KEY_STATUS, KEY_CIPHER, KEY_MAC, KEY_SIGN, KEY_HASH, KEY_RANDOM, KEY_CHALLENGE, KEY_CERT. -/
def Obligations.KeyOperations : Prop :=
  (∀ m b s, Waits s 0x5808 m b →
    let p := b.payload
    let i := byteAt p 0
    let key := (s.kept.cells.slot i).material
    let iv := (p.drop 8).take 16
    let data := (p.drop (24 + byteAt p 3)).take (rd p 4 2)
    i ≤ 63 → byteAt p 2 ≤ 1 → byteAt p 3 ≤ 64 → (resv b 6 2).2 = true →
    s.useCheck m 0x5808 i 0 [0, 1] (if byteAt p 2 = 1 then 1 else 0) = none →
    (byteAt p 1 = 0 → rd p 4 2 % 16 = 0 → exec .keyCipher s = .next (s.endsK m (.done .ok 0
      (if byteAt p 2 = 1 then cbcDec key iv data else cbcEnc key iv data), s.useSlot i))) ∧
    (byteAt p 1 = 1 → exec .keyCipher s = .next (s.endsK m (.done .ok 0 (ctrCrypt key iv data), s.useSlot i))) ∧
    (byteAt p 1 = 2 → byteAt p 2 = 0 →
      let out := gcmCrypt key (iv.take 12) data
      exec .keyCipher s = .next (s.endsK m (.done .ok 0 (out ++ gcmTag key (iv.take 12) ((p.drop 24).take (byteAt p 3)) out),
        s.useSlot i))) ∧
    (byteAt p 1 = 2 → byteAt p 2 = 1 → gcmTag key (iv.take 12) ((p.drop 24).take (byteAt p 3)) data ≠
        (p.drop (24 + byteAt p 3 + rd p 4 2)).take 16 →
      exec .keyCipher s = .next (s.endsK m (refuse .crc, s.useSlot i)))) ∧
  (∀ m b s, Waits s 0x5809 m b →
    let p := b.payload
    let i := byteAt p 0
    let h := byteAt p 2
    let tag := (s.kept.cells.slot i).mac ((p.drop 24).take (rd p 4 2))
    i ≤ 63 → byteAt p 1 ≤ 1 → (resv b 3 1).2 = true → rd p 4 2 ≤ 448 → (resv b 6 2).2 = true →
    s.useCheck m 0x5809 i 0 [0, 1, 2] 0 = none →
    (byteAt p 1 = 0 → exec .keyMac s = .next (s.endsK m (.done .ok 0 tag, s.useSlot i))) ∧
    (byteAt p 1 = 1 → h = 0xFF ∨ s.live.challenge h = true → exec .keyMac s = .next (s.endsK m
      (if tag = (p.drop 8).take 16 then okReply else refuse .crc, (s.useSlot i).onLive fun l => l.dropChallenge h))) ∧
    (byteAt p 1 = 1 → h ≠ 0xFF → s.live.challenge h = false → exec .keyMac s = .next (s.endsK m (refuse .state,
      s.onLive fun l => l.dropChallenge h)))) ∧
  (∀ m b s, Waits s 0x580A m b →
    let p := b.payload
    let i := byteAt p 0
    let k := s.kept.cells.slot i
    i ≤ 63 → (resv b 2 2).2 = true →
    (byteAt p 1 = 1 → s.useCheck m 0x580A i 0 [3, 4] 1 = none → exec .keySign s = .next (s.endsK m
      (if ecdsaVerify k.pub ((p.drop 36).take 64) ((p.drop 4).take 32) then okReply else refuse .crc, s.useSlot i))) ∧
    (∀ bs l, byteAt p 1 = 0 → s.useCheck m 0x580A i 0 [3] 0 = none → s.live.random 40 = (some bs, l) →
      exec .keySign s = .next (s.endsK m (.done .ok 0 (ecdsaSign (beNat k.material) (scalarOf bs) ((p.drop 4).take 32)),
        ({ s with live := l }).useSlot i)))) ∧
  (∀ m b s, Waits s 0x580B m b → byteAt b.payload 0 ≤ 3 → (resv b 1 3).2 = true →
    let old := s.live.key.hashes.find? fun h => h.source == hashSource m
    let rest := s.live.key.hashes.filter fun h => h.source != hashSource m
    (byteAt b.payload 0 = 3 → exec .keyHash s = .next (s.ends m (.done .ok 0 (sha256 (b.payload.drop 4)),
      { s.live with key := { s.live.key with hashes := rest } }))) ∧
    (byteAt b.payload 0 = 1 → exec .keyHash s = .next (s.ends m (okReply, { s.live with key := { s.live.key with
      hashes := { source := hashSource m, fed := b.payload.drop 4 } :: rest } }))) ∧
    (byteAt b.payload 0 = 0 ∨ byteAt b.payload 0 = 2 → old = none → exec .keyHash s = .next (s.answer m .state 0 [])) ∧
    (∀ x, byteAt b.payload 0 = 2 → old = some x → exec .keyHash s = .next (s.ends m
      (.done .ok 0 (sha256 (x.fed ++ b.payload.drop 4)), { s.live with key := { s.live.key with hashes := rest } })))) ∧
  (∀ m b s, Waits s 0x580C m b → 1 ≤ byteAt b.payload 0 →
    (s.live.key.drbgRunning = false → exec .keyRandom s = .next (s.answer m .internal 0 [])) ∧
    (s.live.key.drbgRunning = true → ∃ bs l, exec .keyRandom s = .next (s.ends m (.done .ok 0 bs, l)) ∧
      s.live.random (byteAt b.payload 0) = (some bs, l) ∧ l.key.drbgRequests = s.live.key.drbgRequests + 1)) ∧
  (∀ m b s, Waits s 0x580D m b → s.live.key.drbgRunning = true → ∃ bs l', exec .keyChallenge s = .next (s.ends m
      (.done .ok 0 (le 1 s.live.key.nextHandle ++ bs), l')) ∧
      ({ handle := s.live.key.nextHandle, value := bs, issued := s.live.mt.now } : Challenge) ∈ l'.key.challenges ∧
      l'.key.nextHandle = (s.live.key.nextHandle + 1) % 255) ∧
  (∀ m b s, Waits s 0x5811 m b → rd b.payload 0 2 ≤ Config.attestCert.length → exec .keyCert s = .next (s.answer m .ok 0
    (le 2 Config.attestCert.length ++ (Config.attestCert.drop (rd b.payload 0 2)).take 480))) ∧
  (∀ m b s, Waits s 0x5801 m b → ∃ p, exec .keyStatus s = .next (s.answer m .ok 0 p) ∧
    byteAt p 0 = s.kept.cells.lcs % 256 ∧ byteAt p 4 = b2n (!s.live.key.drbgRunning) ∧
    rd p 5 2 = s.kept.cells.sealCount % 65536 ∧ (p.drop 8).take s.live.key.tnonce.length = s.live.key.tnonce) ∧
  (∀ (kind n : Nat) (s : State), s.live.sup.phase = .running →
    (∃ t, exec (.entropyTestFail kind n) s = .next t ∧ t.kept = s.kept ∧ t.live.key.drbgRunning = false ∧
      t.live.key.samples = n) ∧
    (s.live.key.drbgRunning = false → s.live.key.samples + 1024 ≤ n → ∃ t, exec (.drbgRestart n) s = .next t ∧
      t.kept = s.kept ∧ t.live.key.drbgRunning = true ∧ t.live.key.drbgRequests = 0 ∧
      t.live.key.entropyUsed = s.live.key.entropyUsed + 48) ∧
    (s.live.key.drbgRunning = true → 1024 ≤ s.live.key.drbgRequests ∨ s.live.key.drbgSeeded + ms 10000 ≤ s.live.mt.now →
      ∃ t, exec .drbgReseed s = .next t ∧ t.kept = s.kept ∧ t.live.key.drbgRequests = 0 ∧
        t.live.key.drbgSeeded = s.live.mt.now ∧ t.live.key.entropyUsed = s.live.key.entropyUsed + 48 ∧
        t.live.host = s.live.host) ∧
    exec .challengeExpiry s = .next (s.onLive fun l => { l with key := { l.key with
      challenges := l.key.challenges.filter fun c => decide (l.mt.now < c.issued + ms 60000) } }))

/-- The life cycle, the Hallmark and peer authentication (R408 to R410, R421 to R423): only the permitted transitions, DECOMMISSIONED
destroys every root and key, a Hallmark needs button presence or a key with HALLMARK_REQ, a peer is authenticated by a right
tag only.
Completion: exec answers a next state, each row under the conditions it names, for PEER_FRAME, PEER_TIMEOUT, KEY_PEER,
KEY_PEER_AUTH, KEY_HALLMARK, KEY_TRANSITION. -/
def Obligations.LifeCycleAndPeers : Prop :=
  (∀ m b s, Waits s 0x5812 m b → s.live.secureHeld = false →
    let target := byteAt b.payload 0
    target ≤ 4 → (resv b 1 3).2 = true → (target ≠ 3 → allZero ((b.payload.drop 4).take 64) = true) →
    ∃ r s', exec .keyTransition s = .next (s.endsK m (r, s')) ∧
      (transitionOk s.kept.cells.lcs target = false → r = refuse .state ∧ s'.kept = s.kept) ∧
      (transitionOk s.kept.cells.lcs target = true → target = 3 → ecdsaVerify Config.returnKey ((b.payload.drop 4).take 64)
        (authDigest "ZZ-RETURN" s.live.key.tnonce []) = false → r = refuse .crc ∧ s'.kept = s.kept) ∧
      (transitionOk s.kept.cells.lcs target = true → target ≠ 3 →
        (transitionDraws s.kept.cells.lcs target = true → s.live.key.drbgRunning = true) →
        r = okReply ∧ s'.kept.cells.lcs = target ∧
        (target = 4 → s'.kept.cells.foundry = Root.absent ∧ s'.kept.cells.owner = Root.absent ∧
          s'.kept.cells.service = Root.absent ∧ s'.kept.cells.slots = List.replicate 64 KeySlot.empty)) ∧
      (s.live.key.drbgRunning = false → s'.live.key.tnonce = s.live.key.tnonce)) ∧
  (∀ m b s, Waits s 0x5810 m b →
    let proof := byteAt b.payload 0
    let slot := byteAt b.payload 1
    let nonce := (b.payload.drop 4).take 32
    proof ≤ 1 → (proof = 1 → slot ≤ 63) → (resv b 2 2).2 = true →
    (s.kept.cells.lcs = 4 ∨ s.kept.cells.rootOk 0 = false → exec .keyHallmark s = .next (s.answer m .locked 0 [])) ∧
    (s.kept.cells.lcs ≠ 4 → s.kept.cells.rootOk 0 = true →
      (proof = 0 → exec .keyHallmark s = .next (s.endsK m (s.hallmark 0 0xFF nonce))) ∧
      (proof = 1 → s.kept.cells.liveDomain ≠ 0 → s.kept.cells.slotState slot ≠ 2 →
        ((s.kept.cells.slot slot).filled = false ∨ bit (s.kept.cells.slot slot).flags 3 = false →
          exec .keyHallmark s = .next (s.answer m .keyUsage 0 [])) ∧
        ((s.kept.cells.slot slot).filled = true → bit (s.kept.cells.slot slot).flags 3 = true →
          (b.payload.drop 36).take 16 = hallmarkTag (s.kept.cells.slot slot) nonce →
          exec .keyHallmark s = .next (s.endsK m ((s.useSlot slot).hallmark 1 slot nonce)))))) ∧
  (∀ m b s, Waits s 0x580E m b →
    let p := b.payload
    let k := s.kept.cells.slot (byteAt p 2)
    byteAt p 3 < 2 → (resv b 7 1).2 = true →
    (byteAt p 0 = 0xFF → exec .keyPeer s = .next (s.ends m ((s.live.applyPeer p).endConfig m (bit (byteAt p 3) 0) 0x580E 0 p))) ∧
    (byteAt p 0 ≤ 3 → byteAt p 1 ≤ 63 → byteAt p 2 ≤ 63 → rd p 4 2 ≤ 0x7C0 → inRange 1 100 (byteAt p 6) = true →
      s.kept.cells.liveDomain ≠ 0 → s.kept.cells.slotState (byteAt p 2) ≠ 2 →
      (k.filled = true → k.type ≤ 2 ∧ k.attr = 3) → (s.live.chan (byteAt p 0)).cfg.fd = true →
      exec .keyPeer s = .next (s.ends m ((s.live.applyPeer p).endConfig m (bit (byteAt p 3) 0) 0x580E 0 p)) ∧
      (s.live.applyPeer p).key.peer = PeerConfig.ofBytes p)) ∧
  (∀ m b s c, Waits s 0x580F m b → byteAt b.payload 0 ≤ 63 → s.live.key.peer = some c → s.live.pwr.mode ≠ .drain →
    let peer := byteAt b.payload 0
    ((s.live.exchange peer).isSome = true → exec .keyPeerAuth s = .next (s.answer m .busy 0 [])) ∧
    (s.live.exchange peer = none → (s.pairKey c peer).isSome = true → ∀ ca l, s.live.random 16 = (some ca, l) →
      exec .keyPeerAuth s = .next (s.ends m (refuse .pending, (l.addExchange peer true ca []).sendPeer c peer
        (peerPayload 1 peer ca [] []))))) ∧
  (∀ (f : CanFrame) (c : PeerConfig) (peer : Nat) (e : PeerExchange) (key : List Byte) (s : State), s.live.key.peer = some c →
    s.live.commandLayer = true → s.live.pwr.mode ≠ .drain → (s.live.chan c.ch).listens = true → byteAt f.data 1 = c.ownId →
    c.sender f = some peer → s.live.exchange peer = some e → s.pairKey c peer = some key →
    (byteAt f.data 0 = 3 → e.initiator = false →
      ∃ t, exec (.peerFrame f) s = .next t ∧ t.kept = s.kept ∧ t.live.exchange peer = none ∧
        (peer ∈ t.live.key.authenticated ↔ peerTag key 3 c.ownId peer e.cb e.ca = (f.data.drop 36).take 16)) ∧
    (byteAt f.data 0 = 2 → e.initiator = true →
      ∃ t, exec (.peerFrame f) s = .next t ∧ t.kept = s.kept ∧ t.live.exchange peer = none ∧
        (peer ∈ t.live.key.authenticated ↔
          peerTag key 2 c.ownId peer e.ca ((f.data.drop 20).take 16) = (f.data.drop 36).take 16))) ∧
  (∀ (peer : Nat) (c : PeerConfig) (e : PeerExchange) (s : State), s.live.sup.phase = .running → s.live.key.peer = some c →
    s.live.exchange peer = some e → e.lastStep + ms (10 * c.tmo) ≤ s.live.mt.now →
    ∃ t, exec (.peerTimeout peer) s = .next t ∧ t.kept = s.kept ∧ t.live.exchange peer = none ∧
      peer ∉ t.live.key.authenticated)

/-! ### Parameter store (16_parameter_store.md) -/

/-- Write units (R430, R431, R434, R435, R441): the first waiting unit starts when nothing blocks it, a command that waits too
long completes with NVM_DEFERRED, a finished unit is in the store and counted, a shadow save writes the image of both
windows.
Completion: exec answers a next state, each row under the conditions it names, for WRITE_UNIT_ADMITTED, ADMISSION_WAIT_EXPIRY,
RECORD_WRITE_DONE, REPAIR_DONE, SHADOW_SAVE. -/
def Obligations.WriteUnits : Prop :=
  (∀ (u : WriteUnit) (us_ : List WriteUnit) (s : State), s.live.sup.phase = .running → s.live.param.active = none →
    s.live.param.queue = u :: us_ →
    (u.force = true ∨ s.live.blocked (u.kind.pages s.live.param.shadowApp) = none →
      exec .writeUnitAdmitted s = .next (s.onLive fun l => { l with param := { l.param with active := some u, queue := us_ } })) ∧
    (u.force = false → s.live.blocked (u.kind.pages s.live.param.shadowApp) ≠ none →
      exec .writeUnitAdmitted s = .next s)) ∧
  (∀ (u : WriteUnit) (m : MbRef) (s : State), s.live.sup.phase = .running → u.owner = some m →
    s.live.param.queue.find? (fun x => x.owner.isSome && (decide (x.since + ms 40 ≤ s.live.mt.now) ||
      decide (4 ≤ s.live.pwr.drain.step)) && !x.force) = some u →
    ∃ t, exec .admissionWaitExpiry s = .next t ∧ t.kept = s.kept ∧ (∀ x ∈ t.live.param.queue, x.owner ≠ some m) ∧
      t.live.param.deferrals = s.live.param.deferrals + 1) ∧
  (∀ (u : WriteUnit) (s : State), s.live.param.active = some u → (∀ n b, u.kind ≠ .repair n b) → u.kind ≠ .shadow →
    ∃ t, exec .recordWriteDone s = .next t ∧ t.kept = u.kind.apply [] s.kept ∧ t.live.param.active = none ∧
      t.live.param.writes = s.live.param.writes + 1 ∧ t.live.param.queue = s.live.param.queue) ∧
  (∀ (u : WriteUnit) (n : Nat) (b : Bool) (s : State), s.live.param.active = some u → u.kind = .repair n b →
    ∃ t, exec .repairDone s = .next t ∧ t.kept = u.kind.apply [] s.kept ∧ t.live.param.active = none ∧
      t.live.param.repairs = s.live.param.repairs + 1) ∧
  (∀ (u : WriteUnit) (s : State), s.live.param.active = some u → u.kind = .shadow →
    ∃ t, exec .shadowSave s = .next t ∧ t.kept = { s.kept with
        store := shadowWrite s.kept.store (shadowImage s.live s.live.window s.live.f1.dmem) } ∧
      t.live.param.active = none ∧ t.live.param.joined = [] ∧ t.live.param.lastSaveMt = s.live.mt.now)

/-- The PARAM commands with legal fields (R428, R429, R434 to R442, R446, R447).
Completion: exec answers a next state, each row under the conditions it names, for PARAM_READ, PARAM_WRITE, PARAM_DELETE,
PARAM_COUNTER, PARAM_SHADOW, PARAM_STATUS, PARAM_ERASE. -/
def Obligations.ParamCommands : Prop :=
  (∀ m b s, Waits s 0x6001 m b → rd b.payload 0 2 ≤ 639 → (resv b 2 2).2 = true →
    let s' := s.onLive fun l => l.checkRecord s.kept.store (rd b.payload 0 2)
    ((recState s.kept.store (rd b.payload 0 2)).1 = .empty → exec .paramRead s = .next (s.endsK m (refuse .state 1, s'))) ∧
    ((recState s.kept.store (rd b.payload 0 2)).1 = .lost → exec .paramRead s = .next (s.endsK m (refuse .state 2, s'))) ∧
    (∀ w a, recState s.kept.store (rd b.payload 0 2) = (.valid, w, a) → 12 ≤ w.length → ∃ p,
      exec .paramRead s = .next (s.endsK m (.done .ok 0 p, s')) ∧ byteAt p 0 = 0 ∧ rd p 4 2 = rd w 2 2 ∧
      p.drop 16 = (w.drop 12).take (byteAt w 6))) ∧
  (∀ m b s, Waits s 0x6002 m b →
    let n := rd b.payload 0 2
    let unit : UnitKind := .record n (rd b.payload 2 2) (byteAt b.payload 4) (bit (byteAt b.payload 6) 0)
      ((b.payload.drop 8).take (byteAt b.payload 5))
    n ≤ 639 → byteAt b.payload 5 ≤ 240 → byteAt b.payload 6 < 4 → (resv b 7 1).2 = true →
    (bit (byteAt b.payload 6) 1 = true → ledgerOpen s.kept.store = false →
      exec .paramWrite s = .next (s.answer m .state 3 [])) ∧
    (bit (byteAt b.payload 6) 1 = false → n < 256 → exec .paramWrite s = .next (s.answer m .locked 1 [])) ∧
    (bit (byteAt b.payload 6) 1 = false → 256 ≤ n →
      exec .paramWrite s = .next (s.ends m (.wait, s.live.enqueue unit (some m) [] true))) ∧
    (bit (byteAt b.payload 6) 1 = true → ledgerOpen s.kept.store = true → 256 ≤ n → (ledgerEntries s.kept.store).length < 256 →
      exec .paramWrite s = .next (s.ends m (.wait, (s.live.enqueue (.keep n) (some m) [] false).enqueue unit (some m) [] true)))) ∧
  (∀ m b s, Waits s 0x6003 m b → rd b.payload 0 2 ≤ 639 → (resv b 2 2).2 = true →
    (rd b.payload 0 2 < 256 → exec .paramDelete s = .next (s.answer m .locked 1 [])) ∧
    (256 ≤ rd b.payload 0 2 → exec .paramDelete s = .next (s.ends m (.wait,
      s.live.enqueue (.delete (rd b.payload 0 2)) (some m) [] true)))) ∧
  (∀ m b s, Waits s 0x6004 m b → (resv b 3 1).2 = true →
    let op := byteAt b.payload 0
    let c := byteAt b.payload 1
    (∀ cd, counterDef (s.live.counterDefs s.kept.counters) c = some cd → byteAt b.payload 2 = 0 → 64 ≤ c →
      (op = 1 → inRange 1 65535 (rd b.payload 4 4) = true → exec .paramCounter s = .next (s.ends m (.wait,
        s.live.enqueue (.add c (rd b.payload 4 4)) (some m) [] true))) ∧
      (op = 2 → rd b.payload 4 4 = 0 → exec .paramCounter s = .next (s.ends m (.wait,
        s.live.enqueue (.clear c) (some m) [] true))) ∧
      (op = 4 → rd b.payload 4 4 = 0 → exec .paramCounter s = .next (s.ends m (.wait,
        s.live.enqueue (.remove c) (some m) [] true))) ∧
      (op = 0 → rd b.payload 4 4 = 0 → (counterCells s.kept.store cd).isEmpty = false →
        exec .paramCounter s = .next (s.answer m .ok 0 (counterReply s.kept.store cd)))) ∧
    (∀ first, counterDef (s.live.counterDefs s.kept.counters) c = none → op = 3 → inRange 4 64 (byteAt b.payload 2) = true →
      rd b.payload 4 4 = 0 → 64 ≤ c → freeRun (s.live.counterDefs s.kept.counters) (byteAt b.payload 2) = some first →
      ∃ l', exec .paramCounter s = .next (s.ends m (.wait, l')) ∧ (l'.param.queue.getLast?).map (·.kind) =
        some (.define c first (byteAt b.payload 2))) ∧
    (counterDef (s.live.counterDefs s.kept.counters) c = none → op = 1 → byteAt b.payload 2 = 0 →
      inRange 1 65535 (rd b.payload 4 4) = true → exec .paramCounter s = .next (s.answer m .state 0 []))) ∧
  (∀ m b s, Waits s 0x6005 m b → (resv b 1 1).2 = true → (resv b 6 2).2 = true →
    let op := byteAt b.payload 0
    let off := rd b.payload 2 2
    let n := rd b.payload 4 2
    let saving := s.live.param.active.any fun u => u.kind == .shadow
    (op = 0 → ∃ p, exec .paramShadow s = .next (s.answer m .ok 0 p) ∧ p.length = 12 ∧
      rd p 0 4 = hdrEpoch s.kept.store % 2 ^ 32) ∧
    (op = 1 → inRange 1 480 n = true → off + n ≤ s.live.param.shadowApp →
      exec .paramShadow s = .next (s.answer m .ok 0 (memReadN 0 s.live.f1.dmem (0x40018000 + off) n))) ∧
    (op = 2 → inRange 1 480 n = true → off + n ≤ s.live.param.shadowApp → exec .paramShadow s = .next (s.ends m (okReply,
      { s.live with f1 := { s.live.f1 with
          dmem := memWriteN 0 s.live.f1.dmem (0x40018000 + off) ((b.payload.drop 8).take n) } }))) ∧
    (op = 3 → saving = false → exec .paramShadow s = .next (s.ends m (.wait, s.live.enqueue .shadow (some m) [] true))) ∧
    (op = 3 → saving = true → exec .paramShadow s = .next (s.ends m (.wait, { s.live with param := { s.live.param with
      joined := s.live.param.joined ++ [m] } }))) ∧
    (op = 4 → n ≤ 112 → saving = true → exec .paramShadow s = .next (s.answer m .state 0 [])) ∧
    (op = 4 → n ≤ 112 → saving = false → exec .paramShadow s = .next (s.ends m
      ({ s.live with param := { s.live.param with shadowApp := 256 * n } }.persist m 0x6005 0 (le 4 (256 * n)))))) ∧
  (∀ m b s, Waits s 0x6006 m b → exec .paramStatus s = .next (s.endsK m (paramStatus s, s))) ∧
  (∀ m b s, Waits s 0x6007 m b → byteAt b.payload 0 < 16 → (resv b 1 3).2 = true →
    ∃ l', exec .paramErase s = .next (s.ends m (.wait, l')) ∧ l'.param.queue.map (·.kind) = s.live.param.queue.map (·.kind) ++
      (erasePages (byteAt b.payload 0) s.live.param.shadowApp).map UnitKind.zero ++ [.erased (byteAt b.payload 0)])

/-! ### Update and boot (17_update_boot.md) -/

/-- The UPD commands with legal fields, SYS.ASSAY, and what time does to a session, a gate record and an Assay (R456 to R461,
R466, R471 to R476).
Completion: exec answers a next state, each row under the conditions it names, for SYS_ASSAY, GATE_RECORD_WRITE,
SESSION_IDLE_TIMEOUT, ASSAY_RUN_STEP, UPD_BEGIN, UPD_BLOCK, UPD_END, UPD_ABORT, UPD_CONFIG, UPD_STATUS. -/
def Obligations.UpdateCommands : Prop :=
  (∀ m b s, Waits s 0x6801 m b →
    let kind := byteAt b.payload 0
    let total := rd b.payload 4 4
    kind ≤ 2 → (resv b 1 3).2 = true → inRange 528 (largestLen kind) total = true → total % 16 = 0 → (resv b 12 4).2 = true →
    (∀ r, s.beginRefusal kind = some r → exec .updBegin s = .next (s.endsK m (r, s))) ∧
    (s.beginRefusal kind = none → ∃ s' u, exec .updBegin s = .next (s.endsK m (okReply, s')) ∧
      s'.kept = { s.kept with updPending := none } ∧ s'.live.fwu.session = some u ∧ u.kind = kind ∧ u.total = total ∧
      u.crc = rd b.payload 8 4 ∧ u.written = [] ∧ u.lastBlock = s.live.mt.now)) ∧
  (∀ m b s, Waits s 0x6802 m b →
    let p := b.payload
    let off := rd p 0 4
    let len := rd p 4 2
    let segOff := rd p 6 2
    let segLen := rd p 8 2
    let crc := rd p 12 4
    off % 16 = 0 → inRange 16 4096 len = true → len % 16 = 0 → segOff + 16 ≤ len → segOff % 16 = 0 →
    inRange 16 480 segLen = true → segLen % 16 = 0 → segOff + segLen ≤ len → (resv b 10 2).2 = true →
    (s.live.fwu.session = none → exec .updBlock s = .next (s.answer m .state 1 [])) ∧
    (∀ u, s.live.fwu.session = some u →
      (u.total < off + len → exec .updBlock s = .next (s.answer m .badParam 4 [])) ∧
      (off + len ≤ u.total → (off, len, crc) ∈ u.written → exec .updBlock s = .next (s.ends m (.done .ok 0 (le 4 u.bytes),
        s.live.setSession { u with lastBlock := s.live.mt.now }))) ∧
      (off + len ≤ u.total → (off, len, crc) ∉ u.written → (∃ w ∈ u.written, w.1 < off + len ∧ off < w.1 + w.2.1) →
        exec .updBlock s = .next (s.ends m (refuse .state 2, s.live.blockRejected 1 off))) ∧
      (off + len ≤ u.total → (off, len, crc) ∉ u.written → (∀ w ∈ u.written, off + len ≤ w.1 ∨ w.1 + w.2.1 ≤ off) →
        exec .updBlock s = .next (s.endsK m (takeSegment s u off len crc segOff ((p.drop 16).take segLen)))))) ∧
  (∀ (u : UpdSession) (off len crc : Nat) (data : List Byte) (s : State), u.buf = none → data.length = len → len % 16 = 0 →
    (crc32 data).toNat = crc → ∃ s' p, takeSegment s u off len crc 0 data = (.done .ok 0 p, s') ∧
      (∃ v, s'.live.fwu.session = some v ∧ v.buf = none ∧ v.written = u.written ++ [(off, len, crc)]) ∧
      (Memory.wf 0xFF s.kept.flash = true → flashRead s'.kept.flash (stagingAt + off) len = data)) ∧
  (∀ m b s, Waits s 0x6803 m b → byteAt b.payload 0 ≤ 1 → (resv b 1 3).2 = true →
    (s.live.fwu.session = none → exec .updEnd s = .next (s.answer m .state 1 [])) ∧
    (∀ u, s.live.fwu.session = some u →
      (∀ d, endFault s.kept.flash u = some d → exec .updEnd s = .next (s.answer m .crc d [])) ∧
      (endFault s.kept.flash u = none → ∃ s', exec .updEnd s = .next (s.endsK m (okReply, s')) ∧
        s'.kept = { s.kept with updPending := some u.kind } ∧ s'.live.fwu.session = none ∧
        s'.live.fwu.restart = if byteAt b.payload 0 = 1 then some (s.live.mt.now, s.live.mt.now) else none))) ∧
  (∀ m b s, Waits s 0x6804 m b → (resv b 0 4).2 = true →
    (s.live.fwu.session = none → s.kept.updPending = none → exec .updAbort s = .next (s.answer m .state 0 [])) ∧
    (s.live.fwu.session ≠ none ∨ s.kept.updPending ≠ none → ∃ s', exec .updAbort s = .next (s.endsK m (okReply, s')) ∧
      s'.kept = { s.kept with updPending := none } ∧ s'.live.fwu.session = none ∧ s'.live.fwu.restart = none)) ∧
  (∀ m b s, Waits s 0x6805 m b → ∃ p, exec .updStatus s = .next (s.answer m .ok 0 p) ∧ p.length = 32 ∧
    byteAt p 0 = b2n s.live.fwu.session.isSome ∧ byteAt p 1 = s.kept.updPending.getD 0xFF % 256) ∧
  (∀ m b s, Waits s 0x6806 m b →
    let p := b.payload
    inRange 18000 28000 (rd p 0 2) = true → byteAt p 2 ≤ 3 → byteAt p 3 ≤ 63 ∨ byteAt p 3 = 0xFF → (resv b 4 4).2 = true →
    (byteAt p 3 ≠ 0xFF → s.ownerSlotCheck m (byteAt p 3) = none) →
    exec .updConfig s = .next (s.ends m ((s.live.setFwu fun f => { f with cfg := UpdCfg.ofBytes p }).persist m 0x6806 0 p))) ∧
  (∀ m b s, Waits s 0x0103 m b → byteAt b.payload 0 ≤ 1 → (resv b 1 3).2 = true →
    let kind := byteAt b.payload 0
    (s.kept.assay ≠ some kind → exec .sysAssay s = .next (s.answer m .state 1 [])) ∧
    (s.kept.assay = some kind → s.assayExpired = true → exec .sysAssay s = .next (s.answer m .state 2 [])) ∧
    (s.kept.assay = some kind → s.assayExpired = false → (kind = 0 → s.startCheck = true) →
      ∃ epoch, exec .sysAssay s = .next (s.ends m (.wait, s.live.enqueue (.assayed kind epoch) (some m) [] true)))) ∧
  (∀ s : State, s.live.pwr.mode = .run → s.live.sup.phase = .running →
    (∀ g, s.live.fwu.gate = some g → g.mt + ms 10 ≤ s.live.mt.now) → exec .gateRecordWrite s = .next (s.onLive fun l =>
      l.setFwu fun f => { f with gate := some { moving := l.gateMoving, lock := f.cfg.ownerLock, mt := l.mt.now } })) ∧
  (∀ (u : UpdSession) (s : State), s.live.sup.phase = .running → s.live.fwu.session = some u →
    u.lastBlock + ms 60000 ≤ s.live.mt.now → ∃ t, exec .sessionIdleTimeout s = .next t ∧ t.kept = s.kept ∧
      t.live.fwu.session = none) ∧
  (∀ (kind : Nat) (s : State), s.kept.assay = some kind → s.live.pwr.mode = .run → ms 10000 ≤ s.live.countTime.fwu.runPart →
    ∃ t, exec .assayRunStep s = .next t ∧ t.kept = s.kept ∧
      t.live.fwu.runPart = s.live.countTime.fwu.runPart - ms 10000 ∧
      (t.live.param.queue.getLast?).map (·.kind) = some (.add 13 10) ∧
      (600 ≤ s.kept.counter 13 + 10 → t.live.fwu.expired = true))

/-! ### The application core F1 (18_dvorgil_instruction_set.md, 19_supervision_resets_guarantees.md) -/

/-- The ALU instructions (R485, R486): each writes its operation on Ka and the second operand to Ka with the flags; CMP and TST
write flags only, MOV no flags.
Completion: exec answers a next state, each row under the conditions it names, for MOV, ADD, ADC, SUB, SBC, CMP, AND, OR, XOR,
TST, SHL, SHR, SAR, ROR, MUL, MULH, NOT, NEG, INC, DEC, PAR, BREV, CLZ, SEXT, ZEXT, DIVU, DIVS, REMU, REMS, MFF, MTF. -/
def Obligations.DvorgilAlu : Prop :=
  (∀ p a b s u next v,
    let c := s.live.f1
    let x := (c.reg a).toNat % 2 ^ u.bits
    (Fetches s p b.len allowAluSat u next → aluValue c.k u.bits .signed b = some v →
      exec (.add p a b) s = .next (s.f1Writes next a (aluAdd c.flags u.bits u.sat x v 0)) ∧
      exec (.adc p a b) s = .next (s.f1Writes next a (aluAdd c.flags u.bits u.sat x v (b2n c.flags.c))) ∧
      exec (.sub p a b) s = .next (s.f1Writes next a (aluSub c.flags u.bits u.sat x v 0)) ∧
      exec (.sbc p a b) s = .next (s.f1Writes next a (aluSub c.flags u.bits u.sat x v (b2n c.flags.c))) ∧
      exec (.mul p a b) s = .next (s.f1Writes next a (aluMul c.flags u.bits u.sat x v))) ∧
    (Fetches s p b.len allowSize u next → aluValue c.k u.bits .signed b = some v →
      exec (.mov p a b) s = .next (s.f1Then next fun c => c.setReg a v) ∧
      exec (.cmp p a b) s = .next (s.f1Then next fun c => { c with flags := (aluSub c.flags u.bits false x v 0).2 }) ∧
      exec (.mulh p a b) s = .next (s.f1Writes next a (aluMulh c.flags u.bits x v))) ∧
    (Fetches s p b.len allowSize u next → aluValue c.k u.bits .zero b = some v →
      exec (.and p a b) s = .next (s.f1Writes next a (aluLogic c.flags u.bits (x &&& v))) ∧
      exec (.or p a b) s = .next (s.f1Writes next a (aluLogic c.flags u.bits (x ||| v))) ∧
      exec (.xor p a b) s = .next (s.f1Writes next a (aluLogic c.flags u.bits (x ^^^ v))) ∧
      exec (.tst p a b) s = .next (s.f1Then next fun c => { c with flags := (aluLogic c.flags u.bits (x &&& v)).2 })) ∧
    (Fetches s p b.len allowSize u next → aluValue c.k u.bits .count b = some v →
      exec (.shl p a b) s = .next (s.f1Writes next a (aluShl c.flags u.bits x v)) ∧
      exec (.shr p a b) s = .next (s.f1Writes next a (aluShr c.flags u.bits x v)) ∧
      exec (.sar p a b) s = .next (s.f1Writes next a (aluSar c.flags u.bits x v)) ∧
      exec (.ror p a b) s = .next (s.f1Writes next a (aluRor c.flags u.bits x v)))) ∧
  (∀ p a b s u next,
    let c := s.live.f1
    let y := (c.reg b).toNat % 2 ^ u.bits
    (Fetches s p 2 allowSize u next →
      exec (.not p a b) s = .next (s.f1Writes next a (aluLogic c.flags u.bits (2 ^ u.bits - 1 - y))) ∧
      exec (.inc p a b) s = .next (s.f1Writes next a (aluStep c.flags u.bits y 1)) ∧
      exec (.dec p a b) s = .next (s.f1Writes next a (aluStep c.flags u.bits y (-1))) ∧
      exec (.par p a b) s = .next (s.f1Writes next a (b2n (oddOnes u.bits y),
        { znp c.flags u.bits (b2n (oddOnes u.bits y)) with n := false })) ∧
      exec (.brev p a b) s = .next (s.f1Writes next a (aluLogic c.flags u.bits (revBits u.bits y))) ∧
      exec (.clz p a b) s = .next (s.f1Writes next a (aluLogic c.flags u.bits (leadingZeros u.bits y)))) ∧
    (Fetches s p 2 allowAluSat u next →
      exec (.neg p a b) s = .next (s.f1Writes next a (aluSub c.flags u.bits u.sat 0 y 0))) ∧
    (Fetches s p 2 allowExtend u next →
      exec (.sext p a b) s = .next (s.f1Writes next a (lowBits 32 (signedAt u.bits y), (aluLogic c.flags u.bits y).2)) ∧
      exec (.zext p a b) s = .next (s.f1Writes next a (aluLogic c.flags u.bits y))) ∧
    (Fetches s p 2 allowNone u next → c.reg b ≠ 0 →
      exec (.divu p a b) s = .next (s.f1Writes next a (aluDivU c.flags (c.reg a).toNat (c.reg b).toNat false)) ∧
      exec (.divs p a b) s = .next (s.f1Writes next a (aluDivS c.flags (c.reg a).toNat (c.reg b).toNat false)) ∧
      exec (.remu p a b) s = .next (s.f1Writes next a (aluDivU c.flags (c.reg a).toNat (c.reg b).toNat true)) ∧
      exec (.rems p a b) s = .next (s.f1Writes next a (aluDivS c.flags (c.reg a).toNat (c.reg b).toNat true))) ∧
    (Fetches s p 2 allowNone u next →
      exec (.mff p a 0) s = .next (s.f1Then next fun c => c.setReg a c.flags.toNat) ∧
      exec (.mtf p 0 b) s = .next (s.f1Then next fun c => { c with flags := Flags.ofNat (c.reg b).toNat }))) ∧
  (∀ (s : State) (next : Nat) (a : KReg) (r : AluResult), (s.f1Writes next a r).kept = s.kept ∧ (s.f1Writes next a r).live.host = s.live.host ∧
    (s.f1Writes next a r).live.f1.pc = next ∧ (s.f1Writes next a r).live.f1.flags = r.2 ∧
    (s.f1Writes next a r).live.f1.dmem = s.live.f1.dmem ∧ (s.f1Writes next a r).live.f1.rs = s.live.f1.rs ∧
    (a.val < s.live.f1.k.length → (s.f1Writes next a r).live.f1.reg a = BitVec.ofNat 32 r.1) ∧
    ∀ j : KReg, j ≠ a → (s.f1Writes next a r).live.f1.reg j = s.live.f1.reg j)

/-- What the operations compute (R486, R488, R489): sums and differences modulo the size with carry, borrow and signed overflow,
the clamped result under SAT, the shifts' last bit out, division toward zero, and Z, N and P of the result. -/
def Obligations.DvorgilArithmetic : Prop :=
  (∀ (f : Flags) (n x v cin : Nat), n = 8 ∨ n = 16 ∨ n = 32 → x < 2 ^ n → v < 2 ^ n → cin ≤ 1 →
    (aluAdd f n false x v cin).1 = (x + v + cin) % 2 ^ n ∧
    ((aluAdd f n false x v cin).2.c = true ↔ 2 ^ n ≤ x + v + cin) ∧
    (aluSub f n false x v cin).1 = (2 ^ n + 2 ^ n + x - v - cin) % 2 ^ n ∧
    ((aluSub f n false x v cin).2.c = true ↔ x < v + cin) ∧
    (aluMul f n false x v).1 = x * v % 2 ^ n ∧
    ((aluAdd f n false x v cin).2.z = true ↔ (x + v + cin) % 2 ^ n = 0) ∧
    ((aluAdd f n false x v cin).2.n = true ↔ 2 ^ (n - 1) ≤ (x + v + cin) % 2 ^ n) ∧
    ((aluAdd f n false x v cin).2.v = true ↔ ¬ (-(2 ^ (n - 1) : Int) ≤ signedAt n x + signedAt n v + cin ∧
      signedAt n x + signedAt n v + cin < 2 ^ (n - 1))) ∧
    signedAt n (aluAdd f n true x v cin).1 =
      max (-(2 ^ (n - 1) : Int)) (min (signedAt n x + signedAt n v + cin) (2 ^ (n - 1) - 1)) ∧
    (aluAdd f n true x v cin).2.v = (aluAdd f n false x v cin).2.v) ∧
  (∀ (f : Flags) (n x k : Nat), n = 8 ∨ n = 16 ∨ n = 32 → x < 2 ^ n → k < 32 →
    (aluShl f n x k).1 = x * 2 ^ k % 2 ^ n ∧ (aluShr f n x k).1 = x / 2 ^ k ∧
    (k = 0 → (aluShl f n x k).2.c = f.c ∧ (aluShr f n x k).2.c = f.c ∧ (aluSar f n x k).2.c = f.c) ∧
    (1 ≤ k → k ≤ n → (aluShl f n x k).2.c = bit x (n - k) ∧ (aluShr f n x k).2.c = bit x (k - 1)) ∧
    (k % n = 0 → (aluRor f n x k).1 = x)) ∧
  (∀ (f : Flags) (x y : Nat), x < 2 ^ 32 → y < 2 ^ 32 → y ≠ 0 →
    (aluDivU f x y false).1 = x / y ∧ (aluDivU f x y true).1 = x % y ∧
    ((x ≠ 2 ^ 31 ∨ y ≠ 2 ^ 32 - 1) → signedAt 32 (aluDivS f x y false).1 = (signedAt 32 x).tdiv (signedAt 32 y) ∧
      (aluDivS f x y false).2.v = false) ∧
    signedAt 32 (aluDivS f x y true).1 = (signedAt 32 x).tmod (signedAt 32 y) ∧
    (aluDivS f (2 ^ 31) (2 ^ 32 - 1) false).1 = 2 ^ 31 ∧ (aluDivS f (2 ^ 31) (2 ^ 32 - 1) false).2.v = true)

/-- Loads, stores, copies and the stacks (R487, R490 to R495): aligned accesses to F1's data space complete, LOCK LD and LOCK ST
pair through the reservation, a repetition under REP counts K2 down, the data and the return stack move by a word.
Completion: exec answers a next state, each row under the conditions it names, for CRCSTEP, LD, ST, LDS, STI, LEA, XCHG, COPY,
PUSH, POP, RSPUSH, RSPOP, RSPEEK, RSPGET, COPYC, LDC. -/
def Obligations.DvorgilMemory : Prop :=
  (∀ p a b dsz disp s u next,
    let c := s.live.f1
    let ad := dispAddr (c.reg b) dsz disp
    (Fetches s p (2 + dsz.len) allowLd u next → ad % (u.bits / 8) = 0 → inDataSpace ad = true →
      (u.lock = false → exec (.ld p a b dsz disp) s = .next (s.f1Then next fun c => c.setReg a (c.load ad (u.bits / 8)))) ∧
      (u.lock = true → exec (.ld p a b dsz disp) s = .next (s.f1Then next fun c =>
        ({ c with reservation := some (ad / 32, c.cycles) }).setReg a (c.load ad (u.bits / 8))))) ∧
    (Fetches s p (2 + dsz.len) allowExtend u next → ad % (u.bits / 8) = 0 → inDataSpace ad = true →
      exec (.lds p a b dsz disp) s = .next (s.f1Then next fun c =>
        c.setReg a (lowBits 32 (signedAt u.bits (c.load ad (u.bits / 8)))))) ∧
    (Fetches s p (2 + dsz.len) allowSize u next → ad % (u.bits / 8) = 0 → inLdcSpace ad = true →
      inLdcSpace (ad + u.bits / 8 - 1) = true → exec (.ldc p a b dsz disp) s = .next (s.f1Then next fun c =>
        c.setReg a (codeWord s.kept.flash ad (u.bits / 8)))) ∧
    (Fetches s p (2 + dsz.len) allowSt u next →
      (u.lock = true → ad % 4 = 0 → inDataSpace ad = true → exec (.st p a b dsz disp) s = .next (s.f1Then next fun c =>
        { (if c.holds (ad / 32) then c.store ad 4 (c.reg a).toNat else c) with
          reservation := none, flags := { c.flags with z := c.holds (ad / 32) } })) ∧
      (u.lock = false → u.rep = false → ad % (u.bits / 8) = 0 → inDataSpace ad = true →
        exec (.st p a b dsz disp) s = .next (s.f1Then next fun c => c.store ad (u.bits / 8) (c.reg a).toNat)) ∧
      (u.lock = false → u.rep = true → c.reg 2 = 0 → exec (.st p a b dsz disp) s = .next (s.f1Then next id)) ∧
      (u.lock = false → u.rep = true → c.reg 2 ≠ 0 → ad % (u.bits / 8) = 0 → inDataSpace ad = true →
        exec (.st p a b dsz disp) s = .next (s.f1Repeated next fun c =>
          (c.store ad (u.bits / 8) (c.reg a).toNat).advance b (u.bits / 8))))) ∧
  (∀ p b dsz disp isz imm s u next,
    let ad := dispAddr (s.live.f1.reg b) dsz disp
    let v := lowBits u.bits (extend isz.len imm)
    Fetches s p (2 + dsz.len + isz.len) allowCopy u next → isz.len ≤ u.bits / 8 →
    (u.rep = true → s.live.f1.reg 2 = 0 → exec (.sti p b dsz disp isz imm) s = .next (s.f1Then next id)) ∧
    (ad % (u.bits / 8) = 0 → inDataSpace ad = true →
      (u.rep = false → exec (.sti p b dsz disp isz imm) s = .next (s.f1Then next fun c => c.store ad (u.bits / 8) v)) ∧
      (u.rep = true → s.live.f1.reg 2 ≠ 0 → exec (.sti p b dsz disp isz imm) s = .next (s.f1Repeated next fun c =>
        (c.store ad (u.bits / 8) v).advance b (u.bits / 8))))) ∧
  (∀ p a b disp s u next, Fetches s p 6 allowNone u next → exec (.lea p a b disp) s = .next (s.f1Then next fun c =>
    c.setReg a (lowBits 32 ((c.reg b).toNat + disp.toInt)))) ∧
  (∀ p a b s u next,
    let c := s.live.f1
    let src := (c.reg b).toNat
    let dst := (c.reg a).toNat
    let n := u.bits / 8
    (Fetches s p 2 allowNone u next → src % 4 = 0 → inDataSpace src = true → exec (.xchg p a b) s = .next
      (s.f1Then next fun c => (c.store src 4 dst).setReg a (c.load src 4))) ∧
    (Fetches s p 2 allowCopy u next → dst % n = 0 → inDataSpace dst = true →
      (src % n = 0 → inDataSpace src = true →
        (u.rep = false → exec (.copy p a b) s = .next (s.f1Then next fun c =>
          ((c.store dst n (c.load src n)).setReg a (dst + n)).setReg b (src + n))) ∧
        (u.rep = true → c.reg 2 ≠ 0 → exec (.copy p a b) s = .next (s.f1Repeated next fun c =>
          ((c.store dst n (c.load src n)).setReg a (dst + n)).setReg b (src + n)))) ∧
      (inLdcSpace src = true → inLdcSpace (src + n - 1) = true →
        (u.rep = false → exec (.copyc p a b) s = .next (s.f1Then next fun c =>
          ((c.store dst n (codeWord s.kept.flash src n)).setReg a (dst + n)).setReg b (src + n))) ∧
        (u.rep = true → c.reg 2 ≠ 0 → exec (.copyc p a b) s = .next (s.f1Repeated next fun c =>
          ((c.store dst n (codeWord s.kept.flash src n)).setReg a (dst + n)).setReg b (src + n))))) ∧
    (∀ (imm : BitVec 8) (slot : CrcSlot), imm.toNat ≤ 3 → c.crc[imm.toNat]? = some slot → Fetches s p 3 allowCrc u next →
      (u.rep = false → exec (.crcstep p a b imm) s = .next (s.f1Then next fun c =>
        let v := crcBytes slot (c.reg a).toNat (le n (c.reg b).toNat)
        ({ c with flags := { c.flags with z := v == 0 } }).setReg a v)) ∧
      (u.rep = true → c.reg 2 ≠ 0 → src % n = 0 → inDataSpace src = true →
        exec (.crcstep p a b imm) s = .next (s.f1Repeated next fun c =>
          let v := crcBytes slot (c.reg a).toNat (memReadN 0 c.dmem src n)
          (({ c with flags := { c.flags with z := v == 0 } }).setReg a v).advance b n)))) ∧
  (∀ p a s u next,
    let c := s.live.f1
    let sp := (c.reg 0).toNat
    Fetches s p 2 allowNone u next →
    (sp % 4 = 0 → 4 ≤ sp → c.dsLo ≤ sp - 4 → inDataSpace (sp - 4) = true →
      exec (.push p a 0) s = .next (s.f1Then next fun c => (c.store (sp - 4) 4 (c.reg a).toNat).setReg 0 (sp - 4))) ∧
    (sp % 4 = 0 → sp + 4 ≤ c.dsHi → inDataSpace sp = true → exec (.pop p a 0) s = .next (s.f1Then next fun c =>
      if a = 0 then c.setReg 0 (c.load sp 4) else (c.setReg 0 (sp + 4)).setReg a (c.load sp 4))) ∧
    (c.rsLim + 4 ≤ c.rsp → exec (.rspush p a 0) s = .next (s.f1Then next fun c => { c with rs := (c.reg a, false) :: c.rs })) ∧
    (∀ w rest, c.rs = (w, false) :: rest →
      exec (.rspop p a 0) s = .next (s.f1Then next fun c => ({ c with rs := rest }).setReg a w.toNat)) ∧
    exec (.rspget p a 0) s = .next (s.f1Then next fun c => c.setReg a c.rsp)) ∧
  (∀ p a imm s u next w tag, Fetches s p 3 allowNone u next → s.live.f1.rs[(imm : BitVec 8).toNat]? = some (w, tag) →
    exec (.rspeek p a 0 imm) s = .next (s.f1Then next fun c => c.setReg a w.toNat)) ∧
  (∀ (c : F1State) (a n v : Nat), Memory.wf 0 c.dmem = true → (c.store a n v).load a n = v % 2 ^ (8 * n) ∧
    ∀ k, k < a ∨ a + n ≤ k → memRead 0 (c.store a n v).dmem k = memRead 0 c.dmem k)

/-- Control flow (R480, R487, R493, R494, R497): branches and jumps, a RET brings back what CALL saved, an entry saves the whole
core and RETI restores it, an interrupt that qualifies enters its vector with IE clear.
Where F1 traps instead (R482 to R485, R488, R496): a prefix that the instruction does not accept, a PC outside the application
slot, an access that is not aligned or not in its data space, a divisor of 0, a stack bound.
Completion: exec answers a next state, each row under the conditions it names, for NOP, WFI, BRK, RET, RETI, EI, DI, FENCE,
TRAP, BCC, JMP, CALL, INTERRUPT_ENTRY. -/
def Obligations.DvorgilControl : Prop :=
  (∀ p s u next, Fetches s p 1 allowNone u next →
    exec (.nop p) s = .next (s.f1Then next id) ∧ exec (.fence p) s = .next (s.f1Then next id) ∧
    exec (.ei p) s = .next (s.f1Then next fun c => { c with ie := true }) ∧
    exec (.di p) s = .next (s.f1Then next fun c => { c with ie := false }) ∧
    exec (.wfi p) s = .next (s.f1Then next fun c => { c with waiting := !s.live.irqWakes }) ∧
    exec (.brk p) s = .next (f1Exception s.awake 11 0 0 next)) ∧
  (∀ p (n : BitVec 8) s u next, Fetches s p 2 allowNone u next → n.toNat ≤ 15 →
    exec (.trap p n) s = .next (f1Exception s.awake (48 + n.toNat) 0 0 next)) ∧
  (∀ p cc wide disp s u next, Fetches s p (if wide then 3 else 2) allowNone u next →
    exec (.bcc p cc wide disp) s = .next (s.f1Then
      (if condHolds s.live.f1.flags cc then relTarget next (if wide then disp.toInt else (disp.setWidth 8).toInt) else next)
      id)) ∧
  (∀ p t s u next, Fetches s p t.len allowNone u next → exec (.jmp p t) s = .next (s.f1Then (match t with
    | .rel d => relTarget next d.toInt
    | .reg b => (s.live.f1.reg b).toNat % 2 ^ 24) id)) ∧
  (∀ p t mask s u next, Fetches s p t.len allowNone u next →
    s.live.f1.rsLim + 8 + 4 * popcount 16 (mask : BitVec 16).toNat ≤ s.live.f1.rsp →
    ∃ t', exec (.call p t mask) s = .next t' ∧ t'.kept = s.kept ∧ t'.live.f1.k = s.live.f1.k ∧
      t'.live.f1.pc = (match t with
        | .rel4 d => relTarget next d.toInt
        | .rel2 d => relTarget next d.toInt
        | .reg b => (s.live.f1.reg b).toNat % 2 ^ 24) ∧
      ∀ p' k u' next' r, r = t'.onF1 (fun c => { c with k := k }) → k.length = 16 → Fetches r p' 1 allowNone u' next' →
        ∃ e, exec (.ret p') r = .next e ∧ e.live.f1.pc = next ∧ e.live.f1.rs = s.live.f1.rs ∧
          ∀ j : KReg, e.live.f1.reg j = if bit mask.toNat j.val then s.live.f1.reg j else k.getD j.val 0) ∧
  (∀ p s u next (c0 : F1State) kind ret rest, Fetches s p 1 allowNone u next → kind = 1 ∨ kind = 2 → c0.k.length = 16 →
    s.live.f1.k.length = 16 → c0.rpl < 8 → ret < 2 ^ 24 → s.live.f1.rs = c0.entryFrame kind ret ++ rest →
    ∃ e, exec (.reti p) s = .next e ∧ e.kept = s.kept ∧ e.live.f1.pc = ret ∧ e.live.f1.rs = rest ∧ e.live.f1.k = c0.k ∧
      e.live.f1.flags = c0.flags ∧ e.live.f1.ie = c0.ie ∧ e.live.f1.rpl = c0.rpl) ∧
  (∀ (s : State) (vector cause addr ret : Nat),
    let c := s.live.f1
    (∀ target, c.vbar ≠ 0 → c.rsLim + 72 ≤ c.rsp → vectorTarget s.kept.flash c.vbar vector = some target →
      f1Exception s vector cause addr ret = s.onF1 fun c => { c with
        excInfo := cause * 256 + vector, excAddr := addr, rs := c.entryFrame 2 ret ++ c.rs, ie := false, reservation := none,
        waiting := false, pc := target }) ∧
    (c.vbar = 0 → (f1Exception s vector cause addr ret).live.f1.run = .stopped)) ∧
  (∀ (line target : Nat) (s : State), s.live.f1.run = .running → s.live.f1.ie = true → s.live.nextLine = some line →
    s.live.f1.rsLim + 72 ≤ s.live.f1.rsp → vectorTarget s.kept.flash s.live.f1.vbar (16 + line) = some target →
    exec .interruptEntry s = .next (s.onF1 fun c => { c with
      rs := c.entryFrame 1 c.pc ++ c.rs, ie := false, reservation := none, waiting := false,
      pc := target, rpl := c.linePrio line })) ∧
  (∀ (flash : Memory) (vbar vec target : Nat), vectorTarget flash vbar vec = some target ↔
    inLdcSpace (vbar + 4 * vec) = true ∧ inLdcSpace (vbar + 4 * vec + 3) = true ∧ target = codeWord flash (vbar + 4 * vec) 3 ∧
      inAppSlot target = true) ∧
  (∀ p a b s, s.live.f1.run = .running → (s.live.f1.waiting = true → s.live.irqWakes = true) →
    (inAppSlot s.live.f1.pc = false → exec (.add p a b) s = .next
      (f1Exception (s.awake.accessEvent 2 s.live.f1.pc) 2 0 s.live.f1.pc s.live.f1.pc)) ∧
    (inAppSlot s.live.f1.pc = true → inAppSlot (s.live.f1.pc + p.length + b.len - 1) = true →
      usePrefixes allowAluSat p = none → exec (.add p a b) s = .next (f1Illegal s.awake 1))) ∧
  (∀ p a b s u next, Fetches s p (AluOperand.len b) allowAluSat u next → aluValue s.live.f1.k u.bits .signed b = none →
    exec (.add p a b) s = .next (f1Illegal s.awake 2)) ∧
  (∀ p a b s u next, Fetches s p 2 allowNone u next → s.live.f1.reg b = 0 →
    exec (.divu p a b) s = .next (f1Exception s.awake 7 0 0 s.live.f1.pc) ∧
    exec (.divs p a b) s = .next (f1Exception s.awake 7 0 0 s.live.f1.pc) ∧
    exec (.remu p a b) s = .next (f1Exception s.awake 7 0 0 s.live.f1.pc) ∧
    exec (.rems p a b) s = .next (f1Exception s.awake 7 0 0 s.live.f1.pc)) ∧
  (∀ p a b dsz disp s u next, Fetches s p (2 + DispSize.len dsz) allowLd u next →
    let ad := dispAddr (s.live.f1.reg b) dsz disp
    (ad % (u.bits / 8) ≠ 0 → exec (.ld p a b dsz disp) s = .next (f1Exception s.awake 5 0 ad s.live.f1.pc)) ∧
    (ad % (u.bits / 8) = 0 → inDataSpace ad = false → exec (.ld p a b dsz disp) s = .next
      (f1Exception (s.awake.accessEvent 0 ad) 3 0 ad s.live.f1.pc))) ∧
  (∀ p a s u next, Fetches s p 2 allowNone u next →
    (s.live.f1.rsp < s.live.f1.rsLim + 4 → exec (.rspush p a 0) s = .next (f1Exception s.awake 8 0 0 s.live.f1.pc)) ∧
    (s.live.f1.rs = [] → exec (.rspop p a 0) s = .next (f1Exception s.awake 9 0 0 s.live.f1.pc)) ∧
    (∀ w rest, s.live.f1.rs = (w, true) :: rest → exec (.rspop p a 0) s = .next
      (f1Exception s.awake 9 1 0 s.live.f1.pc))) ∧
  (∀ p (n : BitVec 8) s u next, Fetches s p 2 allowNone u next → 15 < n.toNat →
    exec (.trap p n) s = .next (f1Illegal s.awake 2))

/-- F1's encoding (R483 to R487): what the encoder writes for a well-formed instruction decodes to it, with every operand,
whatever bytes follow. -/
def Obligations.DvorgilDecodeEncode : Prop :=
  ∀ (i : Instr) (bs rest : List Byte), i.wf = true → f1Encode i = some bs → f1Decode (bs ++ rest) = .instr i

/-- F1's ports (R499 to R502, R506): IN and OUT complete on a listed port and raise IO otherwise; the doorbell, acknowledge, event
queue, MT snapshot, heartbeat, interrupt and timer ports do what their rows say, and only while F1 runs.
Completion: exec answers a next state, each row under the conditions it names, for TIMER_FIRE, LMB_DOORBELL, LMB_ACK,
HEARTBEAT_PORT, IRQ_PEND_CLEAR, IRQ_SWI, TIMN_CTL_WRITE, F1_PORT_WRITE, IN, OUT, EVQ_REC0_READ, MT_SNAP_LO_READ. -/
def Obligations.F1Ports : Prop :=
  (∀ p a port s u next, Fetches s p (PortOperand.len port) allowNone u next →
    let n := s.live.f1.portOf port
    (∀ v l, portRead n s.awake.live = some (v, l) → exec (.inPort p a port) s = .next
      (f1Next { s.awake with live := l } next fun c => c.setReg a v)) ∧
    (portRead n s.awake.live = none → exec (.inPort p a port) s = .next (ioFault s.awake 0 n)) ∧
    (∀ t, portWrite n (s.live.f1.reg a).toNat s.awake = .done t → exec (.outPort p a port) s = .next (f1Next t next id)) ∧
    (∀ c, portWrite n (s.live.f1.reg a).toNat s.awake = .fault c → exec (.outPort p a port) s = .next
      (ioFault s.awake c n))) ∧
  (∀ (v : Word) (s : State), s.live.f1.run = .running →
    exec (.lmbDoorbell v) s = .next ((bitsOf 8 v.toNat).foldl (fun s n => s.ringOne (.loc n) n 1) s) ∧
    (∃ t, exec (.lmbAck v) s = .next t ∧ t.kept = s.kept ∧ t.live.host.lmb.length = s.live.host.lmb.length ∧
      ∀ n b, n < 8 → s.live.host.lmb[n]? = some b → t.live.host.lmb[n]? =
        some (if bit v.toNat n = true ∧ b.st = .done then Mailbox.empty else b)) ∧
    (∃ t, exec .evqRec0Read s = .next t ∧ t.kept = s.kept ∧ t.live.host.f1q = s.live.host.f1q.drop 1 ∧
      t.live.f1.evHold = ((s.live.host.f1q.head?).map (·.bytes)).getD (List.replicate 16 0xFF)) ∧
    exec .mtSnapLoRead s = .next (s.onF1 fun c => { c with mtSnapHi := s.live.mt.now / 2 ^ 32 % 2 ^ 32 }) ∧
    exec (.heartbeatPort v) s = .next (s.onLive fun l => { l with sup := { l.sup with hbF1 := l.mt.now } }) ∧
    (∃ t, exec (.irqPendClear v) s = .next t ∧ t.kept = s.kept ∧ ∀ n, n < 15 →
      bit t.live.f1.edgePend n = (bit s.live.f1.edgePend n && !bit v.toNat n)) ∧
    (∃ t, exec (.irqSwi v) s = .next t ∧ t.kept = s.kept ∧ (bit v.toNat 0 = true → bit t.live.f1.edgePend 14 = true) ∧
      (bit v.toNat 0 = false → t = s)) ∧
    (∀ n, n < s.live.f1.timers.length → ∃ t, exec (.timnCtlWrite n v) s = .next t ∧ t.kept = s.kept ∧
      (t.live.f1.timer n).en = bit v.toNat 0 ∧ (t.live.f1.timer n).periodic = bit v.toNat 1 ∧
      (t.live.f1.timer n).missed = 0 ∧ (t.live.f1.timer n).cmp = (s.live.f1.timer n).cmp) ∧
    (∀ port, port < 2 ^ 16 → (∀ t, portWrite port v.toNat s = .done t → exec (.f1PortWrite port v) s = .next t) ∧
      (∀ c, portWrite port v.toNat s = .fault c → exec (.f1PortWrite port v) s = .next (ioFault s c port))) ∧
    portWrite 0x008 v.toNat s = .done (s.onF1 fun c => { c with vbar := v.toNat / 2 ^ 8 % 2 ^ 16 * 2 ^ 8 }) ∧
    portWrite 0x012 v.toNat s = .done (s.onF1 fun c => { c with rsLim := max 0x48 v.toNat }) ∧
    portWrite 0x0AA v.toNat s = .fault 0 ∧ portWrite 0x00B v.toNat s = .fault 1) ∧
  (∀ (n : Nat) (x : F1Timer) (s : State), s.live.sup.phase = .running → s.live.f1.timers[n]? = some x → x.en = true →
    x.cmp ≤ s.live.mt.now → ∃ t y, exec (.timerFire n) s = .next t ∧ t.kept = s.kept ∧ t.live.f1.timers[n]? = some y ∧
      bit t.live.f1.edgePend (10 + n) = true ∧ (x.periodic = false → y.en = false) ∧
      (x.periodic = true → y.en = true ∧ s.live.mt.now < y.cmp))

/-- Every step keeps what is without power in form (R412, R427, R573): the parameter store and the code flash stay canonical,
the secure cells keep 64 key slots, and each sector keeps its erase count; and the machine has that form after reset. -/
def Obligations.KeptStaysInForm : Prop :=
  (∀ s t, s.kept.ok → step s = .next t → t.kept.ok) ∧ State.reset.kept.ok

/-- SAT (R489): the result is clamped to the signed range of the operation size, V is 1 when clamping occurred, C is that of the
unclamped operation, Z, N and P are those of the clamped result; of every instruction that takes SAT.
Completion: exec answers a next state, each row under the conditions it names, for ADD, ADC, SUB, SBC, MUL, NEG. -/
def Obligations.SaturatedResults : Prop :=
  let saturates := fun (n : Nat) (exact : Int) (plain r : AluResult) =>
    r.1 < 2 ^ n ∧ signedAt n r.1 = max (-(2 ^ (n - 1) : Int)) (min exact (2 ^ (n - 1) - 1)) ∧
    (r.2.v = true ↔ exact < -(2 ^ (n - 1) : Int) ∨ (2 ^ (n - 1) : Int) ≤ exact) ∧ r.2.c = plain.2.c ∧
    (r.2.z = true ↔ r.1 = 0) ∧ (r.2.n = true ↔ 2 ^ (n - 1) ≤ r.1) ∧ r.2.p = oddOnes n r.1
  ∀ p a b s u next v,
    let c := s.live.f1
    let n := u.bits
    let x := (c.reg a).toNat % 2 ^ n
    let i := signedAt n x
    let j := signedAt n v
    Fetches s p (AluOperand.len b) allowAluSat u next → u.sat = true →
    (aluValue c.k n .signed b = some v →
      (∃ r, exec (.add p a b) s = .next (s.f1Writes next a r) ∧ saturates n (i + j) (aluAdd c.flags n false x v 0) r) ∧
      (∃ r, exec (.adc p a b) s = .next (s.f1Writes next a r) ∧
        saturates n (i + j + b2n c.flags.c) (aluAdd c.flags n false x v (b2n c.flags.c)) r) ∧
      (∃ r, exec (.sub p a b) s = .next (s.f1Writes next a r) ∧ saturates n (i - j) (aluSub c.flags n false x v 0) r) ∧
      (∃ r, exec (.sbc p a b) s = .next (s.f1Writes next a r) ∧
        saturates n (i - j - b2n c.flags.c) (aluSub c.flags n false x v (b2n c.flags.c)) r) ∧
      (∃ r, exec (.mul p a b) s = .next (s.f1Writes next a r) ∧ saturates n (i * j) (aluMul c.flags n false x v) r)) ∧
    (∀ d : KReg, b = .reg d →
      ∃ r, exec (.neg p a d) s = .next (s.f1Writes next a r) ∧
        saturates n (-(signedAt n (c.reg d).toNat)) (aluSub c.flags n false 0 ((c.reg d).toNat % 2 ^ n) 0) r)
end

