-- ==== Sys2Proof/Laws/Memory.lean ====
section
/-! SUPPORT. The laws of memory: every operation keeps the canonical form, a read after a write gives the byte written, and
every other address reads as before. -/

namespace Sys2Proof.Machine

/-- Whether every address lies above a, for a list in which the first address is the lowest. -/
theorem memAbove_write (d : Byte) (m : Memory) (k a : Nat) (b : Byte) (hm : memAbove k m = true)
    (hw : Memory.wf d m = true) (ha : k < a) : memAbove k (memWrite d m a b) = true := by
  cases m with
  | nil => by_cases hb : b = d <;> simp [memWrite, memAbove, hb, ha]
  | cons x m =>
    obtain ⟨k', v⟩ := x
    simp only [memAbove, decide_eq_true_eq] at hm
    simp only [memWrite]
    by_cases h1 : a < k'
    · by_cases hb : b = d <;> simp [h1, hb, memAbove, hm, ha]
    · by_cases h2 : a = k'
      · by_cases hb : b = d
        · simp only [h2, Nat.lt_irrefl, if_false, if_true, hb]
          cases m with
          | nil => rfl
          | cons y m =>
            obtain ⟨k'', w⟩ := y
            simp only [Memory.wf, memAbove, Bool.and_eq_true, decide_eq_true_eq] at hw
            simp only [memAbove, decide_eq_true_eq]
            omega
        · simp [h2, hb, memAbove, hm]
      · simp [h1, h2, memAbove, hm]

/-- A write of one byte keeps the canonical form. -/
theorem memWrite_wf (d : Byte) (m : Memory) (a : Nat) (b : Byte) (hw : Memory.wf d m = true) :
    Memory.wf d (memWrite d m a b) = true := by
  induction m with
  | nil => by_cases hb : b = d <;> simp [memWrite, Memory.wf, memAbove, hb]
  | cons x m ih =>
    obtain ⟨k, v⟩ := x
    have hw' := hw
    simp only [Memory.wf, Bool.and_eq_true, decide_eq_true_eq] at hw'
    obtain ⟨⟨hv, ha⟩, hm⟩ := hw'
    simp only [memWrite]
    by_cases h1 : a < k
    · by_cases hb : b = d
      · simpa [h1, hb] using hw
      · simp only [h1, if_true, hb, if_false, Memory.wf, memAbove, Bool.and_eq_true, decide_eq_true_eq]
        exact ⟨⟨hb, trivial⟩, ⟨hv, ha⟩, hm⟩
    · by_cases h2 : a = k
      · by_cases hb : b = d
        · simpa [h2, hb] using hm
        · simp only [h2, Nat.lt_irrefl, if_false, if_true, hb, Memory.wf, Bool.and_eq_true, decide_eq_true_eq]
          exact ⟨⟨hb, ha⟩, hm⟩
      · simp only [h1, if_false, h2, Memory.wf, Bool.and_eq_true, decide_eq_true_eq]
        exact ⟨⟨hv, memAbove_write d m k a b ha hm (by omega)⟩, ih hm⟩

/-- A write of a run of bytes keeps the canonical form. -/
theorem memWriteN_wf (d : Byte) (bs : List Byte) : ∀ (m : Memory) (a : Nat), Memory.wf d m = true →
    Memory.wf d (memWriteN d m a bs) = true := by
  induction bs with
  | nil => intro m a h; exact h
  | cons b bs ih => intro m a h; exact ih _ _ (memWrite_wf d m a b h)

/-- An address below every listed one reads as d. -/
theorem memRead_above (d : Byte) (m : Memory) (k : Nat) (ha : memAbove k m = true) (hw : Memory.wf d m = true) :
    memRead d m k = d := by
  induction m with
  | nil => rfl
  | cons x m ih =>
    obtain ⟨k', v⟩ := x
    simp only [memAbove, decide_eq_true_eq] at ha
    simp only [Memory.wf, Bool.and_eq_true] at hw
    have hne : ¬ k = k' := by omega
    simp only [memRead, hne, if_false]
    refine ih ?_ hw.2
    cases m with
    | nil => rfl
    | cons y m =>
      obtain ⟨k'', w⟩ := y
      have h2 := hw.1.2
      simp only [memAbove, decide_eq_true_eq] at h2 ⊢
      omega

/-- What an address reads as after a write: the byte written at its address, the old byte elsewhere. -/
theorem memRead_write (d : Byte) (m : Memory) (a : Nat) (b : Byte) (c : Nat) (hw : Memory.wf d m = true) :
    memRead d (memWrite d m a b) c = if c = a then b else memRead d m c := by
  induction m with
  | nil =>
    by_cases hb : b = d
    · subst hb; simp [memWrite, memRead]
    · simp [memWrite, memRead, hb]
  | cons x m ih =>
    obtain ⟨k, v⟩ := x
    have hw' := hw
    simp only [Memory.wf, Bool.and_eq_true] at hw'
    have hm := hw'.2
    have hab := hw'.1.2
    simp only [memWrite]
    by_cases h1 : a < k
    · by_cases hb : b = d
      · simp only [h1, if_true, hb]
        by_cases hc : c = a
        · have hca : memAbove a ((k, v) :: m) = true := by simp [memAbove, h1]
          rw [if_pos hc, hc, memRead_above d _ a hca hw]
        · rw [if_neg hc]
      · simp only [h1, if_true, hb, if_false, memRead]
    · by_cases h2 : a = k
      · subst h2
        by_cases hb : b = d
        · simp only [Nat.lt_irrefl, if_false, if_true, hb]
          by_cases hc : c = a
          · rw [if_pos hc, hc, memRead_above d m a hab hm]
          · simp [hc, memRead]
        · simp only [Nat.lt_irrefl, if_false, if_true, hb, memRead]
          by_cases hc : c = a <;> simp [hc]
      · simp only [h1, if_false, h2, memRead]
        by_cases hck : c = k
        · have hca : ¬ c = a := fun h => h2 (h.symm.trans hck)
          rw [if_pos hck, if_neg hca, if_pos hck]
        · rw [if_neg hck, if_neg hck]
          exact ih hm

/-- What an address reads as after a run of bytes has been written. -/
theorem memRead_writeN (d : Byte) (bs : List Byte) : ∀ (m : Memory) (a c : Nat), Memory.wf d m = true →
    memRead d (memWriteN d m a bs) c = if a ≤ c ∧ c < a + bs.length then bs.getD (c - a) 0 else memRead d m c := by
  induction bs with
  | nil =>
    intro m a c _
    have h : ¬ (a ≤ c ∧ c < a + ([] : List Byte).length) := by simp only [List.length_nil]; omega
    simp only [memWriteN, h, if_false]
  | cons b bs ih =>
    intro m a c hw
    simp only [memWriteN]
    rw [ih _ _ _ (memWrite_wf d m a b hw), memRead_write d m a b c hw]
    simp only [List.length_cons]
    by_cases h1 : a + 1 ≤ c ∧ c < a + 1 + bs.length
    · have h2 : a ≤ c ∧ c < a + (bs.length + 1) := by omega
      have h3 : c - a = (c - (a + 1)) + 1 := by omega
      rw [if_pos h1, if_pos h2, h3, List.getD_cons_succ]
    · rw [if_neg h1]
      by_cases h2 : c = a
      · have h3 : a ≤ c ∧ c < a + (bs.length + 1) := by omega
        have h4 : c - a = 0 := by omega
        rw [if_pos h2, if_pos h3, h4, List.getD_cons_zero]
      · have h3 : ¬ (a ≤ c ∧ c < a + (bs.length + 1)) := by omega
        rw [if_neg h2, if_neg h3]

/-- The memories of State.reset are canonical. -/
theorem reset_memory_wf :
    Memory.wf 0 State.reset.kept.store = true ∧ Memory.wf 0xFF State.reset.kept.flash = true ∧
      Memory.wf 0 State.reset.live.f1.dmem = true ∧ Memory.wf 0 State.reset.live.led.pages = true :=
  ⟨rfl, rfl, rfl, rfl⟩

end Sys2Proof.Machine
end

