-- ==== Sys2Proof/Laws/State.lean ====
section
/-! SUPPORT. What each update of the live state leaves as it was, one lemma per part and update, and what the wrappers of a
meaning leave of the module's state. -/

namespace Sys2Proof.Machine

@[simp] theorem Live.setPwr_mt (l : Live) (f : PwrState → PwrState) : (l.setPwr f).mt = l.mt := rfl
@[simp] theorem Live.setPwr_arch (l : Live) (f : PwrState → PwrState) : (l.setPwr f).arch = l.arch := rfl
@[simp] theorem Live.setPwr_host (l : Live) (f : PwrState → PwrState) : (l.setPwr f).host = l.host := rfl
@[simp] theorem Live.setPwr_load (l : Live) (f : PwrState → PwrState) : (l.setPwr f).load = l.load := rfl
@[simp] theorem Live.setPwr_plan (l : Live) (f : PwrState → PwrState) : (l.setPwr f).plan = l.plan := rfl
@[simp] theorem Live.setPwr_ledger (l : Live) (f : PwrState → PwrState) : (l.setPwr f).ledger = l.ledger := rfl
@[simp] theorem Live.setPwr_audio (l : Live) (f : PwrState → PwrState) : (l.setPwr f).audio = l.audio := rfl
@[simp] theorem Live.setPwr_valve (l : Live) (f : PwrState → PwrState) : (l.setPwr f).valve = l.valve := rfl
@[simp] theorem Live.setPwr_fio (l : Live) (f : PwrState → PwrState) : (l.setPwr f).fio = l.fio := rfl
@[simp] theorem Live.setPwr_led (l : Live) (f : PwrState → PwrState) : (l.setPwr f).led = l.led := rfl
@[simp] theorem Live.setPwr_can (l : Live) (f : PwrState → PwrState) : (l.setPwr f).can = l.can := rfl
@[simp] theorem Live.setPwr_nm (l : Live) (f : PwrState → PwrState) : (l.setPwr f).nm = l.nm := rfl
@[simp] theorem Live.setPwr_link (l : Live) (f : PwrState → PwrState) : (l.setPwr f).link = l.link := rfl
@[simp] theorem Live.setPwr_token (l : Live) (f : PwrState → PwrState) : (l.setPwr f).token = l.token := rfl
@[simp] theorem Live.setPwr_key (l : Live) (f : PwrState → PwrState) : (l.setPwr f).key = l.key := rfl
@[simp] theorem Live.setPwr_f1 (l : Live) (f : PwrState → PwrState) : (l.setPwr f).f1 = l.f1 := rfl
@[simp] theorem Live.setPwr_param (l : Live) (f : PwrState → PwrState) : (l.setPwr f).param = l.param := rfl
@[simp] theorem Live.setPwr_sup (l : Live) (f : PwrState → PwrState) : (l.setPwr f).sup = l.sup := rfl
@[simp] theorem Live.setPwr_fwu (l : Live) (f : PwrState → PwrState) : (l.setPwr f).fwu = l.fwu := rfl
@[simp] theorem Live.setPwr_pwr (l : Live) (f : PwrState → PwrState) : (l.setPwr f).pwr = f l.pwr := rfl

@[simp] theorem Live.setSag_mt (l : Live) (f : SagState → SagState) : (l.setSag f).mt = l.mt := rfl
@[simp] theorem Live.setSag_arch (l : Live) (f : SagState → SagState) : (l.setSag f).arch = l.arch := rfl
@[simp] theorem Live.setSag_host (l : Live) (f : SagState → SagState) : (l.setSag f).host = l.host := rfl
@[simp] theorem Live.setSag_load (l : Live) (f : SagState → SagState) : (l.setSag f).load = l.load := rfl
@[simp] theorem Live.setSag_plan (l : Live) (f : SagState → SagState) : (l.setSag f).plan = l.plan := rfl
@[simp] theorem Live.setSag_ledger (l : Live) (f : SagState → SagState) : (l.setSag f).ledger = l.ledger := rfl
@[simp] theorem Live.setSag_audio (l : Live) (f : SagState → SagState) : (l.setSag f).audio = l.audio := rfl
@[simp] theorem Live.setSag_valve (l : Live) (f : SagState → SagState) : (l.setSag f).valve = l.valve := rfl
@[simp] theorem Live.setSag_fio (l : Live) (f : SagState → SagState) : (l.setSag f).fio = l.fio := rfl
@[simp] theorem Live.setSag_led (l : Live) (f : SagState → SagState) : (l.setSag f).led = l.led := rfl
@[simp] theorem Live.setSag_can (l : Live) (f : SagState → SagState) : (l.setSag f).can = l.can := rfl
@[simp] theorem Live.setSag_nm (l : Live) (f : SagState → SagState) : (l.setSag f).nm = l.nm := rfl
@[simp] theorem Live.setSag_link (l : Live) (f : SagState → SagState) : (l.setSag f).link = l.link := rfl
@[simp] theorem Live.setSag_token (l : Live) (f : SagState → SagState) : (l.setSag f).token = l.token := rfl
@[simp] theorem Live.setSag_key (l : Live) (f : SagState → SagState) : (l.setSag f).key = l.key := rfl
@[simp] theorem Live.setSag_f1 (l : Live) (f : SagState → SagState) : (l.setSag f).f1 = l.f1 := rfl
@[simp] theorem Live.setSag_param (l : Live) (f : SagState → SagState) : (l.setSag f).param = l.param := rfl
@[simp] theorem Live.setSag_sup (l : Live) (f : SagState → SagState) : (l.setSag f).sup = l.sup := rfl
@[simp] theorem Live.setSag_fwu (l : Live) (f : SagState → SagState) : (l.setSag f).fwu = l.fwu := rfl

@[simp] theorem Live.setWake_mt (l : Live) (f : WakeState → WakeState) : (l.setWake f).mt = l.mt := rfl
@[simp] theorem Live.setWake_arch (l : Live) (f : WakeState → WakeState) : (l.setWake f).arch = l.arch := rfl
@[simp] theorem Live.setWake_host (l : Live) (f : WakeState → WakeState) : (l.setWake f).host = l.host := rfl
@[simp] theorem Live.setWake_load (l : Live) (f : WakeState → WakeState) : (l.setWake f).load = l.load := rfl
@[simp] theorem Live.setWake_plan (l : Live) (f : WakeState → WakeState) : (l.setWake f).plan = l.plan := rfl
@[simp] theorem Live.setWake_ledger (l : Live) (f : WakeState → WakeState) : (l.setWake f).ledger = l.ledger := rfl
@[simp] theorem Live.setWake_audio (l : Live) (f : WakeState → WakeState) : (l.setWake f).audio = l.audio := rfl
@[simp] theorem Live.setWake_valve (l : Live) (f : WakeState → WakeState) : (l.setWake f).valve = l.valve := rfl
@[simp] theorem Live.setWake_fio (l : Live) (f : WakeState → WakeState) : (l.setWake f).fio = l.fio := rfl
@[simp] theorem Live.setWake_led (l : Live) (f : WakeState → WakeState) : (l.setWake f).led = l.led := rfl
@[simp] theorem Live.setWake_can (l : Live) (f : WakeState → WakeState) : (l.setWake f).can = l.can := rfl
@[simp] theorem Live.setWake_nm (l : Live) (f : WakeState → WakeState) : (l.setWake f).nm = l.nm := rfl
@[simp] theorem Live.setWake_link (l : Live) (f : WakeState → WakeState) : (l.setWake f).link = l.link := rfl
@[simp] theorem Live.setWake_token (l : Live) (f : WakeState → WakeState) : (l.setWake f).token = l.token := rfl
@[simp] theorem Live.setWake_key (l : Live) (f : WakeState → WakeState) : (l.setWake f).key = l.key := rfl
@[simp] theorem Live.setWake_f1 (l : Live) (f : WakeState → WakeState) : (l.setWake f).f1 = l.f1 := rfl
@[simp] theorem Live.setWake_param (l : Live) (f : WakeState → WakeState) : (l.setWake f).param = l.param := rfl
@[simp] theorem Live.setWake_sup (l : Live) (f : WakeState → WakeState) : (l.setWake f).sup = l.sup := rfl
@[simp] theorem Live.setWake_fwu (l : Live) (f : WakeState → WakeState) : (l.setWake f).fwu = l.fwu := rfl

@[simp] theorem Live.setCan_mt (l : Live) (f : CanState → CanState) : (l.setCan f).mt = l.mt := rfl
@[simp] theorem Live.setCan_arch (l : Live) (f : CanState → CanState) : (l.setCan f).arch = l.arch := rfl
@[simp] theorem Live.setCan_pwr (l : Live) (f : CanState → CanState) : (l.setCan f).pwr = l.pwr := rfl
@[simp] theorem Live.setCan_host (l : Live) (f : CanState → CanState) : (l.setCan f).host = l.host := rfl
@[simp] theorem Live.setCan_load (l : Live) (f : CanState → CanState) : (l.setCan f).load = l.load := rfl
@[simp] theorem Live.setCan_plan (l : Live) (f : CanState → CanState) : (l.setCan f).plan = l.plan := rfl
@[simp] theorem Live.setCan_ledger (l : Live) (f : CanState → CanState) : (l.setCan f).ledger = l.ledger := rfl
@[simp] theorem Live.setCan_audio (l : Live) (f : CanState → CanState) : (l.setCan f).audio = l.audio := rfl
@[simp] theorem Live.setCan_valve (l : Live) (f : CanState → CanState) : (l.setCan f).valve = l.valve := rfl
@[simp] theorem Live.setCan_fio (l : Live) (f : CanState → CanState) : (l.setCan f).fio = l.fio := rfl
@[simp] theorem Live.setCan_led (l : Live) (f : CanState → CanState) : (l.setCan f).led = l.led := rfl
@[simp] theorem Live.setCan_nm (l : Live) (f : CanState → CanState) : (l.setCan f).nm = l.nm := rfl
@[simp] theorem Live.setCan_link (l : Live) (f : CanState → CanState) : (l.setCan f).link = l.link := rfl
@[simp] theorem Live.setCan_token (l : Live) (f : CanState → CanState) : (l.setCan f).token = l.token := rfl
@[simp] theorem Live.setCan_key (l : Live) (f : CanState → CanState) : (l.setCan f).key = l.key := rfl
@[simp] theorem Live.setCan_f1 (l : Live) (f : CanState → CanState) : (l.setCan f).f1 = l.f1 := rfl
@[simp] theorem Live.setCan_param (l : Live) (f : CanState → CanState) : (l.setCan f).param = l.param := rfl
@[simp] theorem Live.setCan_sup (l : Live) (f : CanState → CanState) : (l.setCan f).sup = l.sup := rfl
@[simp] theorem Live.setCan_fwu (l : Live) (f : CanState → CanState) : (l.setCan f).fwu = l.fwu := rfl
@[simp] theorem Live.setCan_can (l : Live) (f : CanState → CanState) : (l.setCan f).can = f l.can := rfl

@[simp] theorem Live.setChan_mt (l : Live) (n : Nat) (f : CanChan → CanChan) : (l.setChan n f).mt = l.mt := rfl
@[simp] theorem Live.setChan_arch (l : Live) (n : Nat) (f : CanChan → CanChan) : (l.setChan n f).arch = l.arch := rfl
@[simp] theorem Live.setChan_pwr (l : Live) (n : Nat) (f : CanChan → CanChan) : (l.setChan n f).pwr = l.pwr := rfl
@[simp] theorem Live.setChan_host (l : Live) (n : Nat) (f : CanChan → CanChan) : (l.setChan n f).host = l.host := rfl
@[simp] theorem Live.setChan_load (l : Live) (n : Nat) (f : CanChan → CanChan) : (l.setChan n f).load = l.load := rfl
@[simp] theorem Live.setChan_plan (l : Live) (n : Nat) (f : CanChan → CanChan) : (l.setChan n f).plan = l.plan := rfl
@[simp] theorem Live.setChan_ledger (l : Live) (n : Nat) (f : CanChan → CanChan) : (l.setChan n f).ledger = l.ledger := rfl
@[simp] theorem Live.setChan_audio (l : Live) (n : Nat) (f : CanChan → CanChan) : (l.setChan n f).audio = l.audio := rfl
@[simp] theorem Live.setChan_valve (l : Live) (n : Nat) (f : CanChan → CanChan) : (l.setChan n f).valve = l.valve := rfl
@[simp] theorem Live.setChan_fio (l : Live) (n : Nat) (f : CanChan → CanChan) : (l.setChan n f).fio = l.fio := rfl
@[simp] theorem Live.setChan_led (l : Live) (n : Nat) (f : CanChan → CanChan) : (l.setChan n f).led = l.led := rfl
@[simp] theorem Live.setChan_nm (l : Live) (n : Nat) (f : CanChan → CanChan) : (l.setChan n f).nm = l.nm := rfl
@[simp] theorem Live.setChan_link (l : Live) (n : Nat) (f : CanChan → CanChan) : (l.setChan n f).link = l.link := rfl
@[simp] theorem Live.setChan_token (l : Live) (n : Nat) (f : CanChan → CanChan) : (l.setChan n f).token = l.token := rfl
@[simp] theorem Live.setChan_key (l : Live) (n : Nat) (f : CanChan → CanChan) : (l.setChan n f).key = l.key := rfl
@[simp] theorem Live.setChan_f1 (l : Live) (n : Nat) (f : CanChan → CanChan) : (l.setChan n f).f1 = l.f1 := rfl
@[simp] theorem Live.setChan_param (l : Live) (n : Nat) (f : CanChan → CanChan) : (l.setChan n f).param = l.param := rfl
@[simp] theorem Live.setChan_sup (l : Live) (n : Nat) (f : CanChan → CanChan) : (l.setChan n f).sup = l.sup := rfl
@[simp] theorem Live.setChan_fwu (l : Live) (n : Nat) (f : CanChan → CanChan) : (l.setChan n f).fwu = l.fwu := rfl

@[simp] theorem Live.setToken_mt (l : Live) (f : TokenState → TokenState) : (l.setToken f).mt = l.mt := rfl
@[simp] theorem Live.setToken_arch (l : Live) (f : TokenState → TokenState) : (l.setToken f).arch = l.arch := rfl
@[simp] theorem Live.setToken_pwr (l : Live) (f : TokenState → TokenState) : (l.setToken f).pwr = l.pwr := rfl
@[simp] theorem Live.setToken_host (l : Live) (f : TokenState → TokenState) : (l.setToken f).host = l.host := rfl
@[simp] theorem Live.setToken_load (l : Live) (f : TokenState → TokenState) : (l.setToken f).load = l.load := rfl
@[simp] theorem Live.setToken_plan (l : Live) (f : TokenState → TokenState) : (l.setToken f).plan = l.plan := rfl
@[simp] theorem Live.setToken_ledger (l : Live) (f : TokenState → TokenState) : (l.setToken f).ledger = l.ledger := rfl
@[simp] theorem Live.setToken_audio (l : Live) (f : TokenState → TokenState) : (l.setToken f).audio = l.audio := rfl
@[simp] theorem Live.setToken_valve (l : Live) (f : TokenState → TokenState) : (l.setToken f).valve = l.valve := rfl
@[simp] theorem Live.setToken_fio (l : Live) (f : TokenState → TokenState) : (l.setToken f).fio = l.fio := rfl
@[simp] theorem Live.setToken_led (l : Live) (f : TokenState → TokenState) : (l.setToken f).led = l.led := rfl
@[simp] theorem Live.setToken_can (l : Live) (f : TokenState → TokenState) : (l.setToken f).can = l.can := rfl
@[simp] theorem Live.setToken_nm (l : Live) (f : TokenState → TokenState) : (l.setToken f).nm = l.nm := rfl
@[simp] theorem Live.setToken_link (l : Live) (f : TokenState → TokenState) : (l.setToken f).link = l.link := rfl
@[simp] theorem Live.setToken_key (l : Live) (f : TokenState → TokenState) : (l.setToken f).key = l.key := rfl
@[simp] theorem Live.setToken_f1 (l : Live) (f : TokenState → TokenState) : (l.setToken f).f1 = l.f1 := rfl
@[simp] theorem Live.setToken_param (l : Live) (f : TokenState → TokenState) : (l.setToken f).param = l.param := rfl
@[simp] theorem Live.setToken_sup (l : Live) (f : TokenState → TokenState) : (l.setToken f).sup = l.sup := rfl
@[simp] theorem Live.setToken_fwu (l : Live) (f : TokenState → TokenState) : (l.setToken f).fwu = l.fwu := rfl
@[simp] theorem Live.setToken_token (l : Live) (f : TokenState → TokenState) : (l.setToken f).token = f l.token := rfl

@[simp] theorem Live.setAnt_mt (l : Live) (n : Nat) (f : TokenAnt → TokenAnt) : (l.setAnt n f).mt = l.mt := rfl
@[simp] theorem Live.setAnt_arch (l : Live) (n : Nat) (f : TokenAnt → TokenAnt) : (l.setAnt n f).arch = l.arch := rfl
@[simp] theorem Live.setAnt_pwr (l : Live) (n : Nat) (f : TokenAnt → TokenAnt) : (l.setAnt n f).pwr = l.pwr := rfl
@[simp] theorem Live.setAnt_host (l : Live) (n : Nat) (f : TokenAnt → TokenAnt) : (l.setAnt n f).host = l.host := rfl
@[simp] theorem Live.setAnt_load (l : Live) (n : Nat) (f : TokenAnt → TokenAnt) : (l.setAnt n f).load = l.load := rfl
@[simp] theorem Live.setAnt_plan (l : Live) (n : Nat) (f : TokenAnt → TokenAnt) : (l.setAnt n f).plan = l.plan := rfl
@[simp] theorem Live.setAnt_ledger (l : Live) (n : Nat) (f : TokenAnt → TokenAnt) : (l.setAnt n f).ledger = l.ledger := rfl
@[simp] theorem Live.setAnt_audio (l : Live) (n : Nat) (f : TokenAnt → TokenAnt) : (l.setAnt n f).audio = l.audio := rfl
@[simp] theorem Live.setAnt_valve (l : Live) (n : Nat) (f : TokenAnt → TokenAnt) : (l.setAnt n f).valve = l.valve := rfl
@[simp] theorem Live.setAnt_fio (l : Live) (n : Nat) (f : TokenAnt → TokenAnt) : (l.setAnt n f).fio = l.fio := rfl
@[simp] theorem Live.setAnt_led (l : Live) (n : Nat) (f : TokenAnt → TokenAnt) : (l.setAnt n f).led = l.led := rfl
@[simp] theorem Live.setAnt_can (l : Live) (n : Nat) (f : TokenAnt → TokenAnt) : (l.setAnt n f).can = l.can := rfl
@[simp] theorem Live.setAnt_nm (l : Live) (n : Nat) (f : TokenAnt → TokenAnt) : (l.setAnt n f).nm = l.nm := rfl
@[simp] theorem Live.setAnt_link (l : Live) (n : Nat) (f : TokenAnt → TokenAnt) : (l.setAnt n f).link = l.link := rfl
@[simp] theorem Live.setAnt_key (l : Live) (n : Nat) (f : TokenAnt → TokenAnt) : (l.setAnt n f).key = l.key := rfl
@[simp] theorem Live.setAnt_f1 (l : Live) (n : Nat) (f : TokenAnt → TokenAnt) : (l.setAnt n f).f1 = l.f1 := rfl
@[simp] theorem Live.setAnt_param (l : Live) (n : Nat) (f : TokenAnt → TokenAnt) : (l.setAnt n f).param = l.param := rfl
@[simp] theorem Live.setAnt_sup (l : Live) (n : Nat) (f : TokenAnt → TokenAnt) : (l.setAnt n f).sup = l.sup := rfl
@[simp] theorem Live.setAnt_fwu (l : Live) (n : Nat) (f : TokenAnt → TokenAnt) : (l.setAnt n f).fwu = l.fwu := rfl

@[simp] theorem Live.setFwu_mt (l : Live) (f : UpdState → UpdState) : (l.setFwu f).mt = l.mt := rfl
@[simp] theorem Live.setFwu_arch (l : Live) (f : UpdState → UpdState) : (l.setFwu f).arch = l.arch := rfl
@[simp] theorem Live.setFwu_pwr (l : Live) (f : UpdState → UpdState) : (l.setFwu f).pwr = l.pwr := rfl
@[simp] theorem Live.setFwu_host (l : Live) (f : UpdState → UpdState) : (l.setFwu f).host = l.host := rfl
@[simp] theorem Live.setFwu_load (l : Live) (f : UpdState → UpdState) : (l.setFwu f).load = l.load := rfl
@[simp] theorem Live.setFwu_plan (l : Live) (f : UpdState → UpdState) : (l.setFwu f).plan = l.plan := rfl
@[simp] theorem Live.setFwu_ledger (l : Live) (f : UpdState → UpdState) : (l.setFwu f).ledger = l.ledger := rfl
@[simp] theorem Live.setFwu_audio (l : Live) (f : UpdState → UpdState) : (l.setFwu f).audio = l.audio := rfl
@[simp] theorem Live.setFwu_valve (l : Live) (f : UpdState → UpdState) : (l.setFwu f).valve = l.valve := rfl
@[simp] theorem Live.setFwu_fio (l : Live) (f : UpdState → UpdState) : (l.setFwu f).fio = l.fio := rfl
@[simp] theorem Live.setFwu_led (l : Live) (f : UpdState → UpdState) : (l.setFwu f).led = l.led := rfl
@[simp] theorem Live.setFwu_can (l : Live) (f : UpdState → UpdState) : (l.setFwu f).can = l.can := rfl
@[simp] theorem Live.setFwu_nm (l : Live) (f : UpdState → UpdState) : (l.setFwu f).nm = l.nm := rfl
@[simp] theorem Live.setFwu_link (l : Live) (f : UpdState → UpdState) : (l.setFwu f).link = l.link := rfl
@[simp] theorem Live.setFwu_token (l : Live) (f : UpdState → UpdState) : (l.setFwu f).token = l.token := rfl
@[simp] theorem Live.setFwu_key (l : Live) (f : UpdState → UpdState) : (l.setFwu f).key = l.key := rfl
@[simp] theorem Live.setFwu_f1 (l : Live) (f : UpdState → UpdState) : (l.setFwu f).f1 = l.f1 := rfl
@[simp] theorem Live.setFwu_param (l : Live) (f : UpdState → UpdState) : (l.setFwu f).param = l.param := rfl
@[simp] theorem Live.setFwu_sup (l : Live) (f : UpdState → UpdState) : (l.setFwu f).sup = l.sup := rfl
@[simp] theorem Live.setFwu_fwu (l : Live) (f : UpdState → UpdState) : (l.setFwu f).fwu = f l.fwu := rfl

@[simp] theorem Live.setFio_mt (l : Live) (n : Nat) (f : FioCh → FioCh) : (l.setFio n f).mt = l.mt := rfl
@[simp] theorem Live.setFio_arch (l : Live) (n : Nat) (f : FioCh → FioCh) : (l.setFio n f).arch = l.arch := rfl
@[simp] theorem Live.setFio_pwr (l : Live) (n : Nat) (f : FioCh → FioCh) : (l.setFio n f).pwr = l.pwr := rfl
@[simp] theorem Live.setFio_host (l : Live) (n : Nat) (f : FioCh → FioCh) : (l.setFio n f).host = l.host := rfl
@[simp] theorem Live.setFio_load (l : Live) (n : Nat) (f : FioCh → FioCh) : (l.setFio n f).load = l.load := rfl
@[simp] theorem Live.setFio_plan (l : Live) (n : Nat) (f : FioCh → FioCh) : (l.setFio n f).plan = l.plan := rfl
@[simp] theorem Live.setFio_ledger (l : Live) (n : Nat) (f : FioCh → FioCh) : (l.setFio n f).ledger = l.ledger := rfl
@[simp] theorem Live.setFio_audio (l : Live) (n : Nat) (f : FioCh → FioCh) : (l.setFio n f).audio = l.audio := rfl
@[simp] theorem Live.setFio_valve (l : Live) (n : Nat) (f : FioCh → FioCh) : (l.setFio n f).valve = l.valve := rfl
@[simp] theorem Live.setFio_led (l : Live) (n : Nat) (f : FioCh → FioCh) : (l.setFio n f).led = l.led := rfl
@[simp] theorem Live.setFio_can (l : Live) (n : Nat) (f : FioCh → FioCh) : (l.setFio n f).can = l.can := rfl
@[simp] theorem Live.setFio_nm (l : Live) (n : Nat) (f : FioCh → FioCh) : (l.setFio n f).nm = l.nm := rfl
@[simp] theorem Live.setFio_link (l : Live) (n : Nat) (f : FioCh → FioCh) : (l.setFio n f).link = l.link := rfl
@[simp] theorem Live.setFio_token (l : Live) (n : Nat) (f : FioCh → FioCh) : (l.setFio n f).token = l.token := rfl
@[simp] theorem Live.setFio_key (l : Live) (n : Nat) (f : FioCh → FioCh) : (l.setFio n f).key = l.key := rfl
@[simp] theorem Live.setFio_f1 (l : Live) (n : Nat) (f : FioCh → FioCh) : (l.setFio n f).f1 = l.f1 := rfl
@[simp] theorem Live.setFio_param (l : Live) (n : Nat) (f : FioCh → FioCh) : (l.setFio n f).param = l.param := rfl
@[simp] theorem Live.setFio_sup (l : Live) (n : Nat) (f : FioCh → FioCh) : (l.setFio n f).sup = l.sup := rfl
@[simp] theorem Live.setFio_fwu (l : Live) (n : Nat) (f : FioCh → FioCh) : (l.setFio n f).fwu = l.fwu := rfl

@[simp] theorem Live.setWk_mt (l : Live) (n : Nat) (f : WakeInput → WakeInput) : (l.setWk n f).mt = l.mt := rfl
@[simp] theorem Live.setWk_arch (l : Live) (n : Nat) (f : WakeInput → WakeInput) : (l.setWk n f).arch = l.arch := rfl
@[simp] theorem Live.setWk_pwr (l : Live) (n : Nat) (f : WakeInput → WakeInput) : (l.setWk n f).pwr = l.pwr := rfl
@[simp] theorem Live.setWk_host (l : Live) (n : Nat) (f : WakeInput → WakeInput) : (l.setWk n f).host = l.host := rfl
@[simp] theorem Live.setWk_load (l : Live) (n : Nat) (f : WakeInput → WakeInput) : (l.setWk n f).load = l.load := rfl
@[simp] theorem Live.setWk_plan (l : Live) (n : Nat) (f : WakeInput → WakeInput) : (l.setWk n f).plan = l.plan := rfl
@[simp] theorem Live.setWk_ledger (l : Live) (n : Nat) (f : WakeInput → WakeInput) : (l.setWk n f).ledger = l.ledger := rfl
@[simp] theorem Live.setWk_audio (l : Live) (n : Nat) (f : WakeInput → WakeInput) : (l.setWk n f).audio = l.audio := rfl
@[simp] theorem Live.setWk_valve (l : Live) (n : Nat) (f : WakeInput → WakeInput) : (l.setWk n f).valve = l.valve := rfl
@[simp] theorem Live.setWk_led (l : Live) (n : Nat) (f : WakeInput → WakeInput) : (l.setWk n f).led = l.led := rfl
@[simp] theorem Live.setWk_can (l : Live) (n : Nat) (f : WakeInput → WakeInput) : (l.setWk n f).can = l.can := rfl
@[simp] theorem Live.setWk_nm (l : Live) (n : Nat) (f : WakeInput → WakeInput) : (l.setWk n f).nm = l.nm := rfl
@[simp] theorem Live.setWk_link (l : Live) (n : Nat) (f : WakeInput → WakeInput) : (l.setWk n f).link = l.link := rfl
@[simp] theorem Live.setWk_token (l : Live) (n : Nat) (f : WakeInput → WakeInput) : (l.setWk n f).token = l.token := rfl
@[simp] theorem Live.setWk_key (l : Live) (n : Nat) (f : WakeInput → WakeInput) : (l.setWk n f).key = l.key := rfl
@[simp] theorem Live.setWk_f1 (l : Live) (n : Nat) (f : WakeInput → WakeInput) : (l.setWk n f).f1 = l.f1 := rfl
@[simp] theorem Live.setWk_param (l : Live) (n : Nat) (f : WakeInput → WakeInput) : (l.setWk n f).param = l.param := rfl
@[simp] theorem Live.setWk_sup (l : Live) (n : Nat) (f : WakeInput → WakeInput) : (l.setWk n f).sup = l.sup := rfl
@[simp] theorem Live.setWk_fwu (l : Live) (n : Nat) (f : WakeInput → WakeInput) : (l.setWk n f).fwu = l.fwu := rfl

@[simp] theorem Live.setLed_mt (l : Live) (f : LedState → LedState) : (l.setLed f).mt = l.mt := rfl
@[simp] theorem Live.setLed_arch (l : Live) (f : LedState → LedState) : (l.setLed f).arch = l.arch := rfl
@[simp] theorem Live.setLed_pwr (l : Live) (f : LedState → LedState) : (l.setLed f).pwr = l.pwr := rfl
@[simp] theorem Live.setLed_host (l : Live) (f : LedState → LedState) : (l.setLed f).host = l.host := rfl
@[simp] theorem Live.setLed_load (l : Live) (f : LedState → LedState) : (l.setLed f).load = l.load := rfl
@[simp] theorem Live.setLed_plan (l : Live) (f : LedState → LedState) : (l.setLed f).plan = l.plan := rfl
@[simp] theorem Live.setLed_ledger (l : Live) (f : LedState → LedState) : (l.setLed f).ledger = l.ledger := rfl
@[simp] theorem Live.setLed_audio (l : Live) (f : LedState → LedState) : (l.setLed f).audio = l.audio := rfl
@[simp] theorem Live.setLed_valve (l : Live) (f : LedState → LedState) : (l.setLed f).valve = l.valve := rfl
@[simp] theorem Live.setLed_fio (l : Live) (f : LedState → LedState) : (l.setLed f).fio = l.fio := rfl
@[simp] theorem Live.setLed_can (l : Live) (f : LedState → LedState) : (l.setLed f).can = l.can := rfl
@[simp] theorem Live.setLed_nm (l : Live) (f : LedState → LedState) : (l.setLed f).nm = l.nm := rfl
@[simp] theorem Live.setLed_link (l : Live) (f : LedState → LedState) : (l.setLed f).link = l.link := rfl
@[simp] theorem Live.setLed_token (l : Live) (f : LedState → LedState) : (l.setLed f).token = l.token := rfl
@[simp] theorem Live.setLed_key (l : Live) (f : LedState → LedState) : (l.setLed f).key = l.key := rfl
@[simp] theorem Live.setLed_f1 (l : Live) (f : LedState → LedState) : (l.setLed f).f1 = l.f1 := rfl
@[simp] theorem Live.setLed_param (l : Live) (f : LedState → LedState) : (l.setLed f).param = l.param := rfl
@[simp] theorem Live.setLed_sup (l : Live) (f : LedState → LedState) : (l.setLed f).sup = l.sup := rfl
@[simp] theorem Live.setLed_fwu (l : Live) (f : LedState → LedState) : (l.setLed f).fwu = l.fwu := rfl
@[simp] theorem Live.setLed_led (l : Live) (f : LedState → LedState) : (l.setLed f).led = f l.led := rfl

@[simp] theorem Live.setLedger_mt (l : Live) (f : LedgerState → LedgerState) : (l.setLedger f).mt = l.mt := rfl
@[simp] theorem Live.setLedger_arch (l : Live) (f : LedgerState → LedgerState) : (l.setLedger f).arch = l.arch := rfl
@[simp] theorem Live.setLedger_pwr (l : Live) (f : LedgerState → LedgerState) : (l.setLedger f).pwr = l.pwr := rfl
@[simp] theorem Live.setLedger_host (l : Live) (f : LedgerState → LedgerState) : (l.setLedger f).host = l.host := rfl
@[simp] theorem Live.setLedger_load (l : Live) (f : LedgerState → LedgerState) : (l.setLedger f).load = l.load := rfl
@[simp] theorem Live.setLedger_plan (l : Live) (f : LedgerState → LedgerState) : (l.setLedger f).plan = l.plan := rfl
@[simp] theorem Live.setLedger_audio (l : Live) (f : LedgerState → LedgerState) : (l.setLedger f).audio = l.audio := rfl
@[simp] theorem Live.setLedger_valve (l : Live) (f : LedgerState → LedgerState) : (l.setLedger f).valve = l.valve := rfl
@[simp] theorem Live.setLedger_fio (l : Live) (f : LedgerState → LedgerState) : (l.setLedger f).fio = l.fio := rfl
@[simp] theorem Live.setLedger_led (l : Live) (f : LedgerState → LedgerState) : (l.setLedger f).led = l.led := rfl
@[simp] theorem Live.setLedger_can (l : Live) (f : LedgerState → LedgerState) : (l.setLedger f).can = l.can := rfl
@[simp] theorem Live.setLedger_nm (l : Live) (f : LedgerState → LedgerState) : (l.setLedger f).nm = l.nm := rfl
@[simp] theorem Live.setLedger_link (l : Live) (f : LedgerState → LedgerState) : (l.setLedger f).link = l.link := rfl
@[simp] theorem Live.setLedger_token (l : Live) (f : LedgerState → LedgerState) : (l.setLedger f).token = l.token := rfl
@[simp] theorem Live.setLedger_key (l : Live) (f : LedgerState → LedgerState) : (l.setLedger f).key = l.key := rfl
@[simp] theorem Live.setLedger_f1 (l : Live) (f : LedgerState → LedgerState) : (l.setLedger f).f1 = l.f1 := rfl
@[simp] theorem Live.setLedger_param (l : Live) (f : LedgerState → LedgerState) : (l.setLedger f).param = l.param := rfl
@[simp] theorem Live.setLedger_sup (l : Live) (f : LedgerState → LedgerState) : (l.setLedger f).sup = l.sup := rfl
@[simp] theorem Live.setLedger_fwu (l : Live) (f : LedgerState → LedgerState) : (l.setLedger f).fwu = l.fwu := rfl
@[simp] theorem Live.setLedger_ledger (l : Live) (f : LedgerState → LedgerState) : (l.setLedger f).ledger = f l.ledger := rfl

@[simp] theorem Live.setWire_mt (l : Live) (n : Nat) (f : Wire → Wire) : (l.setWire n f).mt = l.mt := rfl
@[simp] theorem Live.setWire_arch (l : Live) (n : Nat) (f : Wire → Wire) : (l.setWire n f).arch = l.arch := rfl
@[simp] theorem Live.setWire_pwr (l : Live) (n : Nat) (f : Wire → Wire) : (l.setWire n f).pwr = l.pwr := rfl
@[simp] theorem Live.setWire_host (l : Live) (n : Nat) (f : Wire → Wire) : (l.setWire n f).host = l.host := rfl
@[simp] theorem Live.setWire_load (l : Live) (n : Nat) (f : Wire → Wire) : (l.setWire n f).load = l.load := rfl
@[simp] theorem Live.setWire_plan (l : Live) (n : Nat) (f : Wire → Wire) : (l.setWire n f).plan = l.plan := rfl
@[simp] theorem Live.setWire_audio (l : Live) (n : Nat) (f : Wire → Wire) : (l.setWire n f).audio = l.audio := rfl
@[simp] theorem Live.setWire_valve (l : Live) (n : Nat) (f : Wire → Wire) : (l.setWire n f).valve = l.valve := rfl
@[simp] theorem Live.setWire_fio (l : Live) (n : Nat) (f : Wire → Wire) : (l.setWire n f).fio = l.fio := rfl
@[simp] theorem Live.setWire_led (l : Live) (n : Nat) (f : Wire → Wire) : (l.setWire n f).led = l.led := rfl
@[simp] theorem Live.setWire_can (l : Live) (n : Nat) (f : Wire → Wire) : (l.setWire n f).can = l.can := rfl
@[simp] theorem Live.setWire_nm (l : Live) (n : Nat) (f : Wire → Wire) : (l.setWire n f).nm = l.nm := rfl
@[simp] theorem Live.setWire_link (l : Live) (n : Nat) (f : Wire → Wire) : (l.setWire n f).link = l.link := rfl
@[simp] theorem Live.setWire_token (l : Live) (n : Nat) (f : Wire → Wire) : (l.setWire n f).token = l.token := rfl
@[simp] theorem Live.setWire_key (l : Live) (n : Nat) (f : Wire → Wire) : (l.setWire n f).key = l.key := rfl
@[simp] theorem Live.setWire_f1 (l : Live) (n : Nat) (f : Wire → Wire) : (l.setWire n f).f1 = l.f1 := rfl
@[simp] theorem Live.setWire_param (l : Live) (n : Nat) (f : Wire → Wire) : (l.setWire n f).param = l.param := rfl
@[simp] theorem Live.setWire_sup (l : Live) (n : Nat) (f : Wire → Wire) : (l.setWire n f).sup = l.sup := rfl
@[simp] theorem Live.setWire_fwu (l : Live) (n : Nat) (f : Wire → Wire) : (l.setWire n f).fwu = l.fwu := rfl

@[simp] theorem Live.setPort_mt (l : Live) (n : Nat) (f : LinkPort → LinkPort) : (l.setPort n f).mt = l.mt := rfl
@[simp] theorem Live.setPort_arch (l : Live) (n : Nat) (f : LinkPort → LinkPort) : (l.setPort n f).arch = l.arch := rfl
@[simp] theorem Live.setPort_pwr (l : Live) (n : Nat) (f : LinkPort → LinkPort) : (l.setPort n f).pwr = l.pwr := rfl
@[simp] theorem Live.setPort_host (l : Live) (n : Nat) (f : LinkPort → LinkPort) : (l.setPort n f).host = l.host := rfl
@[simp] theorem Live.setPort_load (l : Live) (n : Nat) (f : LinkPort → LinkPort) : (l.setPort n f).load = l.load := rfl
@[simp] theorem Live.setPort_plan (l : Live) (n : Nat) (f : LinkPort → LinkPort) : (l.setPort n f).plan = l.plan := rfl
@[simp] theorem Live.setPort_ledger (l : Live) (n : Nat) (f : LinkPort → LinkPort) : (l.setPort n f).ledger = l.ledger := rfl
@[simp] theorem Live.setPort_audio (l : Live) (n : Nat) (f : LinkPort → LinkPort) : (l.setPort n f).audio = l.audio := rfl
@[simp] theorem Live.setPort_valve (l : Live) (n : Nat) (f : LinkPort → LinkPort) : (l.setPort n f).valve = l.valve := rfl
@[simp] theorem Live.setPort_fio (l : Live) (n : Nat) (f : LinkPort → LinkPort) : (l.setPort n f).fio = l.fio := rfl
@[simp] theorem Live.setPort_led (l : Live) (n : Nat) (f : LinkPort → LinkPort) : (l.setPort n f).led = l.led := rfl
@[simp] theorem Live.setPort_can (l : Live) (n : Nat) (f : LinkPort → LinkPort) : (l.setPort n f).can = l.can := rfl
@[simp] theorem Live.setPort_nm (l : Live) (n : Nat) (f : LinkPort → LinkPort) : (l.setPort n f).nm = l.nm := rfl
@[simp] theorem Live.setPort_token (l : Live) (n : Nat) (f : LinkPort → LinkPort) : (l.setPort n f).token = l.token := rfl
@[simp] theorem Live.setPort_key (l : Live) (n : Nat) (f : LinkPort → LinkPort) : (l.setPort n f).key = l.key := rfl
@[simp] theorem Live.setPort_f1 (l : Live) (n : Nat) (f : LinkPort → LinkPort) : (l.setPort n f).f1 = l.f1 := rfl
@[simp] theorem Live.setPort_param (l : Live) (n : Nat) (f : LinkPort → LinkPort) : (l.setPort n f).param = l.param := rfl
@[simp] theorem Live.setPort_sup (l : Live) (n : Nat) (f : LinkPort → LinkPort) : (l.setPort n f).sup = l.sup := rfl
@[simp] theorem Live.setPort_fwu (l : Live) (n : Nat) (f : LinkPort → LinkPort) : (l.setPort n f).fwu = l.fwu := rfl

@[simp] theorem Live.setCh_mt (l : Live) (n : Nat) (f : LoadCh → LoadCh) : (l.setCh n f).mt = l.mt := rfl
@[simp] theorem Live.setCh_arch (l : Live) (n : Nat) (f : LoadCh → LoadCh) : (l.setCh n f).arch = l.arch := rfl
@[simp] theorem Live.setCh_pwr (l : Live) (n : Nat) (f : LoadCh → LoadCh) : (l.setCh n f).pwr = l.pwr := rfl
@[simp] theorem Live.setCh_host (l : Live) (n : Nat) (f : LoadCh → LoadCh) : (l.setCh n f).host = l.host := rfl
@[simp] theorem Live.setCh_plan (l : Live) (n : Nat) (f : LoadCh → LoadCh) : (l.setCh n f).plan = l.plan := rfl
@[simp] theorem Live.setCh_ledger (l : Live) (n : Nat) (f : LoadCh → LoadCh) : (l.setCh n f).ledger = l.ledger := rfl
@[simp] theorem Live.setCh_audio (l : Live) (n : Nat) (f : LoadCh → LoadCh) : (l.setCh n f).audio = l.audio := rfl
@[simp] theorem Live.setCh_valve (l : Live) (n : Nat) (f : LoadCh → LoadCh) : (l.setCh n f).valve = l.valve := rfl
@[simp] theorem Live.setCh_fio (l : Live) (n : Nat) (f : LoadCh → LoadCh) : (l.setCh n f).fio = l.fio := rfl
@[simp] theorem Live.setCh_led (l : Live) (n : Nat) (f : LoadCh → LoadCh) : (l.setCh n f).led = l.led := rfl
@[simp] theorem Live.setCh_can (l : Live) (n : Nat) (f : LoadCh → LoadCh) : (l.setCh n f).can = l.can := rfl
@[simp] theorem Live.setCh_nm (l : Live) (n : Nat) (f : LoadCh → LoadCh) : (l.setCh n f).nm = l.nm := rfl
@[simp] theorem Live.setCh_link (l : Live) (n : Nat) (f : LoadCh → LoadCh) : (l.setCh n f).link = l.link := rfl
@[simp] theorem Live.setCh_token (l : Live) (n : Nat) (f : LoadCh → LoadCh) : (l.setCh n f).token = l.token := rfl
@[simp] theorem Live.setCh_key (l : Live) (n : Nat) (f : LoadCh → LoadCh) : (l.setCh n f).key = l.key := rfl
@[simp] theorem Live.setCh_f1 (l : Live) (n : Nat) (f : LoadCh → LoadCh) : (l.setCh n f).f1 = l.f1 := rfl
@[simp] theorem Live.setCh_param (l : Live) (n : Nat) (f : LoadCh → LoadCh) : (l.setCh n f).param = l.param := rfl
@[simp] theorem Live.setCh_sup (l : Live) (n : Nat) (f : LoadCh → LoadCh) : (l.setCh n f).sup = l.sup := rfl
@[simp] theorem Live.setCh_fwu (l : Live) (n : Nat) (f : LoadCh → LoadCh) : (l.setCh n f).fwu = l.fwu := rfl

@[simp] theorem Live.setBr_mt (l : Live) (n : Nat) (f : Bridge → Bridge) : (l.setBr n f).mt = l.mt := rfl
@[simp] theorem Live.setBr_arch (l : Live) (n : Nat) (f : Bridge → Bridge) : (l.setBr n f).arch = l.arch := rfl
@[simp] theorem Live.setBr_pwr (l : Live) (n : Nat) (f : Bridge → Bridge) : (l.setBr n f).pwr = l.pwr := rfl
@[simp] theorem Live.setBr_host (l : Live) (n : Nat) (f : Bridge → Bridge) : (l.setBr n f).host = l.host := rfl
@[simp] theorem Live.setBr_plan (l : Live) (n : Nat) (f : Bridge → Bridge) : (l.setBr n f).plan = l.plan := rfl
@[simp] theorem Live.setBr_ledger (l : Live) (n : Nat) (f : Bridge → Bridge) : (l.setBr n f).ledger = l.ledger := rfl
@[simp] theorem Live.setBr_audio (l : Live) (n : Nat) (f : Bridge → Bridge) : (l.setBr n f).audio = l.audio := rfl
@[simp] theorem Live.setBr_valve (l : Live) (n : Nat) (f : Bridge → Bridge) : (l.setBr n f).valve = l.valve := rfl
@[simp] theorem Live.setBr_fio (l : Live) (n : Nat) (f : Bridge → Bridge) : (l.setBr n f).fio = l.fio := rfl
@[simp] theorem Live.setBr_led (l : Live) (n : Nat) (f : Bridge → Bridge) : (l.setBr n f).led = l.led := rfl
@[simp] theorem Live.setBr_can (l : Live) (n : Nat) (f : Bridge → Bridge) : (l.setBr n f).can = l.can := rfl
@[simp] theorem Live.setBr_nm (l : Live) (n : Nat) (f : Bridge → Bridge) : (l.setBr n f).nm = l.nm := rfl
@[simp] theorem Live.setBr_link (l : Live) (n : Nat) (f : Bridge → Bridge) : (l.setBr n f).link = l.link := rfl
@[simp] theorem Live.setBr_token (l : Live) (n : Nat) (f : Bridge → Bridge) : (l.setBr n f).token = l.token := rfl
@[simp] theorem Live.setBr_key (l : Live) (n : Nat) (f : Bridge → Bridge) : (l.setBr n f).key = l.key := rfl
@[simp] theorem Live.setBr_f1 (l : Live) (n : Nat) (f : Bridge → Bridge) : (l.setBr n f).f1 = l.f1 := rfl
@[simp] theorem Live.setBr_param (l : Live) (n : Nat) (f : Bridge → Bridge) : (l.setBr n f).param = l.param := rfl
@[simp] theorem Live.setBr_sup (l : Live) (n : Nat) (f : Bridge → Bridge) : (l.setBr n f).sup = l.sup := rfl
@[simp] theorem Live.setBr_fwu (l : Live) (n : Nat) (f : Bridge → Bridge) : (l.setBr n f).fwu = l.fwu := rfl

@[simp] theorem Live.setDie_mt (l : Live) (n : Nat) (f : DieState → DieState) : (l.setDie n f).mt = l.mt := rfl
@[simp] theorem Live.setDie_arch (l : Live) (n : Nat) (f : DieState → DieState) : (l.setDie n f).arch = l.arch := rfl
@[simp] theorem Live.setDie_pwr (l : Live) (n : Nat) (f : DieState → DieState) : (l.setDie n f).pwr = l.pwr := rfl
@[simp] theorem Live.setDie_host (l : Live) (n : Nat) (f : DieState → DieState) : (l.setDie n f).host = l.host := rfl
@[simp] theorem Live.setDie_plan (l : Live) (n : Nat) (f : DieState → DieState) : (l.setDie n f).plan = l.plan := rfl
@[simp] theorem Live.setDie_ledger (l : Live) (n : Nat) (f : DieState → DieState) : (l.setDie n f).ledger = l.ledger := rfl
@[simp] theorem Live.setDie_audio (l : Live) (n : Nat) (f : DieState → DieState) : (l.setDie n f).audio = l.audio := rfl
@[simp] theorem Live.setDie_valve (l : Live) (n : Nat) (f : DieState → DieState) : (l.setDie n f).valve = l.valve := rfl
@[simp] theorem Live.setDie_fio (l : Live) (n : Nat) (f : DieState → DieState) : (l.setDie n f).fio = l.fio := rfl
@[simp] theorem Live.setDie_led (l : Live) (n : Nat) (f : DieState → DieState) : (l.setDie n f).led = l.led := rfl
@[simp] theorem Live.setDie_can (l : Live) (n : Nat) (f : DieState → DieState) : (l.setDie n f).can = l.can := rfl
@[simp] theorem Live.setDie_nm (l : Live) (n : Nat) (f : DieState → DieState) : (l.setDie n f).nm = l.nm := rfl
@[simp] theorem Live.setDie_link (l : Live) (n : Nat) (f : DieState → DieState) : (l.setDie n f).link = l.link := rfl
@[simp] theorem Live.setDie_token (l : Live) (n : Nat) (f : DieState → DieState) : (l.setDie n f).token = l.token := rfl
@[simp] theorem Live.setDie_key (l : Live) (n : Nat) (f : DieState → DieState) : (l.setDie n f).key = l.key := rfl
@[simp] theorem Live.setDie_f1 (l : Live) (n : Nat) (f : DieState → DieState) : (l.setDie n f).f1 = l.f1 := rfl
@[simp] theorem Live.setDie_param (l : Live) (n : Nat) (f : DieState → DieState) : (l.setDie n f).param = l.param := rfl
@[simp] theorem Live.setDie_sup (l : Live) (n : Nat) (f : DieState → DieState) : (l.setDie n f).sup = l.sup := rfl
@[simp] theorem Live.setDie_fwu (l : Live) (n : Nat) (f : DieState → DieState) : (l.setDie n f).fwu = l.fwu := rfl

@[simp] theorem Live.setNm_mt (l : Live) (f : NmState → NmState) : (l.setNm f).mt = l.mt := rfl
@[simp] theorem Live.setNm_arch (l : Live) (f : NmState → NmState) : (l.setNm f).arch = l.arch := rfl
@[simp] theorem Live.setNm_pwr (l : Live) (f : NmState → NmState) : (l.setNm f).pwr = l.pwr := rfl
@[simp] theorem Live.setNm_host (l : Live) (f : NmState → NmState) : (l.setNm f).host = l.host := rfl
@[simp] theorem Live.setNm_load (l : Live) (f : NmState → NmState) : (l.setNm f).load = l.load := rfl
@[simp] theorem Live.setNm_plan (l : Live) (f : NmState → NmState) : (l.setNm f).plan = l.plan := rfl
@[simp] theorem Live.setNm_ledger (l : Live) (f : NmState → NmState) : (l.setNm f).ledger = l.ledger := rfl
@[simp] theorem Live.setNm_audio (l : Live) (f : NmState → NmState) : (l.setNm f).audio = l.audio := rfl
@[simp] theorem Live.setNm_valve (l : Live) (f : NmState → NmState) : (l.setNm f).valve = l.valve := rfl
@[simp] theorem Live.setNm_fio (l : Live) (f : NmState → NmState) : (l.setNm f).fio = l.fio := rfl
@[simp] theorem Live.setNm_led (l : Live) (f : NmState → NmState) : (l.setNm f).led = l.led := rfl
@[simp] theorem Live.setNm_can (l : Live) (f : NmState → NmState) : (l.setNm f).can = l.can := rfl
@[simp] theorem Live.setNm_link (l : Live) (f : NmState → NmState) : (l.setNm f).link = l.link := rfl
@[simp] theorem Live.setNm_token (l : Live) (f : NmState → NmState) : (l.setNm f).token = l.token := rfl
@[simp] theorem Live.setNm_key (l : Live) (f : NmState → NmState) : (l.setNm f).key = l.key := rfl
@[simp] theorem Live.setNm_f1 (l : Live) (f : NmState → NmState) : (l.setNm f).f1 = l.f1 := rfl
@[simp] theorem Live.setNm_param (l : Live) (f : NmState → NmState) : (l.setNm f).param = l.param := rfl
@[simp] theorem Live.setNm_sup (l : Live) (f : NmState → NmState) : (l.setNm f).sup = l.sup := rfl
@[simp] theorem Live.setNm_fwu (l : Live) (f : NmState → NmState) : (l.setNm f).fwu = l.fwu := rfl
@[simp] theorem Live.setNm_nm (l : Live) (f : NmState → NmState) : (l.setNm f).nm = f l.nm := rfl

@[simp] theorem Live.setKey_mt (l : Live) (f : KeyState → KeyState) : (l.setKey f).mt = l.mt := rfl
@[simp] theorem Live.setKey_arch (l : Live) (f : KeyState → KeyState) : (l.setKey f).arch = l.arch := rfl
@[simp] theorem Live.setKey_pwr (l : Live) (f : KeyState → KeyState) : (l.setKey f).pwr = l.pwr := rfl
@[simp] theorem Live.setKey_host (l : Live) (f : KeyState → KeyState) : (l.setKey f).host = l.host := rfl
@[simp] theorem Live.setKey_load (l : Live) (f : KeyState → KeyState) : (l.setKey f).load = l.load := rfl
@[simp] theorem Live.setKey_plan (l : Live) (f : KeyState → KeyState) : (l.setKey f).plan = l.plan := rfl
@[simp] theorem Live.setKey_ledger (l : Live) (f : KeyState → KeyState) : (l.setKey f).ledger = l.ledger := rfl
@[simp] theorem Live.setKey_audio (l : Live) (f : KeyState → KeyState) : (l.setKey f).audio = l.audio := rfl
@[simp] theorem Live.setKey_valve (l : Live) (f : KeyState → KeyState) : (l.setKey f).valve = l.valve := rfl
@[simp] theorem Live.setKey_fio (l : Live) (f : KeyState → KeyState) : (l.setKey f).fio = l.fio := rfl
@[simp] theorem Live.setKey_led (l : Live) (f : KeyState → KeyState) : (l.setKey f).led = l.led := rfl
@[simp] theorem Live.setKey_can (l : Live) (f : KeyState → KeyState) : (l.setKey f).can = l.can := rfl
@[simp] theorem Live.setKey_nm (l : Live) (f : KeyState → KeyState) : (l.setKey f).nm = l.nm := rfl
@[simp] theorem Live.setKey_link (l : Live) (f : KeyState → KeyState) : (l.setKey f).link = l.link := rfl
@[simp] theorem Live.setKey_token (l : Live) (f : KeyState → KeyState) : (l.setKey f).token = l.token := rfl
@[simp] theorem Live.setKey_f1 (l : Live) (f : KeyState → KeyState) : (l.setKey f).f1 = l.f1 := rfl
@[simp] theorem Live.setKey_param (l : Live) (f : KeyState → KeyState) : (l.setKey f).param = l.param := rfl
@[simp] theorem Live.setKey_sup (l : Live) (f : KeyState → KeyState) : (l.setKey f).sup = l.sup := rfl
@[simp] theorem Live.setKey_fwu (l : Live) (f : KeyState → KeyState) : (l.setKey f).fwu = l.fwu := rfl
@[simp] theorem Live.setKey_key (l : Live) (f : KeyState → KeyState) : (l.setKey f).key = f l.key := rfl

@[simp] theorem Live.setLink_mt (l : Live) (f : LinkState → LinkState) : (l.setLink f).mt = l.mt := rfl
@[simp] theorem Live.setLink_arch (l : Live) (f : LinkState → LinkState) : (l.setLink f).arch = l.arch := rfl
@[simp] theorem Live.setLink_pwr (l : Live) (f : LinkState → LinkState) : (l.setLink f).pwr = l.pwr := rfl
@[simp] theorem Live.setLink_host (l : Live) (f : LinkState → LinkState) : (l.setLink f).host = l.host := rfl
@[simp] theorem Live.setLink_load (l : Live) (f : LinkState → LinkState) : (l.setLink f).load = l.load := rfl
@[simp] theorem Live.setLink_plan (l : Live) (f : LinkState → LinkState) : (l.setLink f).plan = l.plan := rfl
@[simp] theorem Live.setLink_ledger (l : Live) (f : LinkState → LinkState) : (l.setLink f).ledger = l.ledger := rfl
@[simp] theorem Live.setLink_audio (l : Live) (f : LinkState → LinkState) : (l.setLink f).audio = l.audio := rfl
@[simp] theorem Live.setLink_valve (l : Live) (f : LinkState → LinkState) : (l.setLink f).valve = l.valve := rfl
@[simp] theorem Live.setLink_fio (l : Live) (f : LinkState → LinkState) : (l.setLink f).fio = l.fio := rfl
@[simp] theorem Live.setLink_led (l : Live) (f : LinkState → LinkState) : (l.setLink f).led = l.led := rfl
@[simp] theorem Live.setLink_can (l : Live) (f : LinkState → LinkState) : (l.setLink f).can = l.can := rfl
@[simp] theorem Live.setLink_nm (l : Live) (f : LinkState → LinkState) : (l.setLink f).nm = l.nm := rfl
@[simp] theorem Live.setLink_token (l : Live) (f : LinkState → LinkState) : (l.setLink f).token = l.token := rfl
@[simp] theorem Live.setLink_key (l : Live) (f : LinkState → LinkState) : (l.setLink f).key = l.key := rfl
@[simp] theorem Live.setLink_f1 (l : Live) (f : LinkState → LinkState) : (l.setLink f).f1 = l.f1 := rfl
@[simp] theorem Live.setLink_param (l : Live) (f : LinkState → LinkState) : (l.setLink f).param = l.param := rfl
@[simp] theorem Live.setLink_sup (l : Live) (f : LinkState → LinkState) : (l.setLink f).sup = l.sup := rfl
@[simp] theorem Live.setLink_fwu (l : Live) (f : LinkState → LinkState) : (l.setLink f).fwu = l.fwu := rfl
@[simp] theorem Live.setLink_link (l : Live) (f : LinkState → LinkState) : (l.setLink f).link = f l.link := rfl

@[simp] theorem Live.setZone_mt (l : Live) (n : Nat) (f : Zone → Zone) : (l.setZone n f).mt = l.mt := rfl
@[simp] theorem Live.setZone_arch (l : Live) (n : Nat) (f : Zone → Zone) : (l.setZone n f).arch = l.arch := rfl
@[simp] theorem Live.setZone_pwr (l : Live) (n : Nat) (f : Zone → Zone) : (l.setZone n f).pwr = l.pwr := rfl
@[simp] theorem Live.setZone_host (l : Live) (n : Nat) (f : Zone → Zone) : (l.setZone n f).host = l.host := rfl
@[simp] theorem Live.setZone_load (l : Live) (n : Nat) (f : Zone → Zone) : (l.setZone n f).load = l.load := rfl
@[simp] theorem Live.setZone_plan (l : Live) (n : Nat) (f : Zone → Zone) : (l.setZone n f).plan = l.plan := rfl
@[simp] theorem Live.setZone_ledger (l : Live) (n : Nat) (f : Zone → Zone) : (l.setZone n f).ledger = l.ledger := rfl
@[simp] theorem Live.setZone_valve (l : Live) (n : Nat) (f : Zone → Zone) : (l.setZone n f).valve = l.valve := rfl
@[simp] theorem Live.setZone_fio (l : Live) (n : Nat) (f : Zone → Zone) : (l.setZone n f).fio = l.fio := rfl
@[simp] theorem Live.setZone_led (l : Live) (n : Nat) (f : Zone → Zone) : (l.setZone n f).led = l.led := rfl
@[simp] theorem Live.setZone_can (l : Live) (n : Nat) (f : Zone → Zone) : (l.setZone n f).can = l.can := rfl
@[simp] theorem Live.setZone_nm (l : Live) (n : Nat) (f : Zone → Zone) : (l.setZone n f).nm = l.nm := rfl
@[simp] theorem Live.setZone_link (l : Live) (n : Nat) (f : Zone → Zone) : (l.setZone n f).link = l.link := rfl
@[simp] theorem Live.setZone_token (l : Live) (n : Nat) (f : Zone → Zone) : (l.setZone n f).token = l.token := rfl
@[simp] theorem Live.setZone_key (l : Live) (n : Nat) (f : Zone → Zone) : (l.setZone n f).key = l.key := rfl
@[simp] theorem Live.setZone_f1 (l : Live) (n : Nat) (f : Zone → Zone) : (l.setZone n f).f1 = l.f1 := rfl
@[simp] theorem Live.setZone_param (l : Live) (n : Nat) (f : Zone → Zone) : (l.setZone n f).param = l.param := rfl
@[simp] theorem Live.setZone_sup (l : Live) (n : Nat) (f : Zone → Zone) : (l.setZone n f).sup = l.sup := rfl
@[simp] theorem Live.setZone_fwu (l : Live) (n : Nat) (f : Zone → Zone) : (l.setZone n f).fwu = l.fwu := rfl

@[simp] theorem Live.setValve_mt (l : Live) (n : Nat) (f : Valve → Valve) : (l.setValve n f).mt = l.mt := rfl
@[simp] theorem Live.setValve_arch (l : Live) (n : Nat) (f : Valve → Valve) : (l.setValve n f).arch = l.arch := rfl
@[simp] theorem Live.setValve_pwr (l : Live) (n : Nat) (f : Valve → Valve) : (l.setValve n f).pwr = l.pwr := rfl
@[simp] theorem Live.setValve_host (l : Live) (n : Nat) (f : Valve → Valve) : (l.setValve n f).host = l.host := rfl
@[simp] theorem Live.setValve_load (l : Live) (n : Nat) (f : Valve → Valve) : (l.setValve n f).load = l.load := rfl
@[simp] theorem Live.setValve_plan (l : Live) (n : Nat) (f : Valve → Valve) : (l.setValve n f).plan = l.plan := rfl
@[simp] theorem Live.setValve_ledger (l : Live) (n : Nat) (f : Valve → Valve) : (l.setValve n f).ledger = l.ledger := rfl
@[simp] theorem Live.setValve_audio (l : Live) (n : Nat) (f : Valve → Valve) : (l.setValve n f).audio = l.audio := rfl
@[simp] theorem Live.setValve_fio (l : Live) (n : Nat) (f : Valve → Valve) : (l.setValve n f).fio = l.fio := rfl
@[simp] theorem Live.setValve_led (l : Live) (n : Nat) (f : Valve → Valve) : (l.setValve n f).led = l.led := rfl
@[simp] theorem Live.setValve_can (l : Live) (n : Nat) (f : Valve → Valve) : (l.setValve n f).can = l.can := rfl
@[simp] theorem Live.setValve_nm (l : Live) (n : Nat) (f : Valve → Valve) : (l.setValve n f).nm = l.nm := rfl
@[simp] theorem Live.setValve_link (l : Live) (n : Nat) (f : Valve → Valve) : (l.setValve n f).link = l.link := rfl
@[simp] theorem Live.setValve_token (l : Live) (n : Nat) (f : Valve → Valve) : (l.setValve n f).token = l.token := rfl
@[simp] theorem Live.setValve_key (l : Live) (n : Nat) (f : Valve → Valve) : (l.setValve n f).key = l.key := rfl
@[simp] theorem Live.setValve_f1 (l : Live) (n : Nat) (f : Valve → Valve) : (l.setValve n f).f1 = l.f1 := rfl
@[simp] theorem Live.setValve_param (l : Live) (n : Nat) (f : Valve → Valve) : (l.setValve n f).param = l.param := rfl
@[simp] theorem Live.setValve_sup (l : Live) (n : Nat) (f : Valve → Valve) : (l.setValve n f).sup = l.sup := rfl
@[simp] theorem Live.setValve_fwu (l : Live) (n : Nat) (f : Valve → Valve) : (l.setValve n f).fwu = l.fwu := rfl

@[simp] theorem Live.setBank_mt (l : Live) (n : Nat) (f : Bank → Bank) : (l.setBank n f).mt = l.mt := rfl
@[simp] theorem Live.setBank_arch (l : Live) (n : Nat) (f : Bank → Bank) : (l.setBank n f).arch = l.arch := rfl
@[simp] theorem Live.setBank_pwr (l : Live) (n : Nat) (f : Bank → Bank) : (l.setBank n f).pwr = l.pwr := rfl
@[simp] theorem Live.setBank_host (l : Live) (n : Nat) (f : Bank → Bank) : (l.setBank n f).host = l.host := rfl
@[simp] theorem Live.setBank_load (l : Live) (n : Nat) (f : Bank → Bank) : (l.setBank n f).load = l.load := rfl
@[simp] theorem Live.setBank_plan (l : Live) (n : Nat) (f : Bank → Bank) : (l.setBank n f).plan = l.plan := rfl
@[simp] theorem Live.setBank_ledger (l : Live) (n : Nat) (f : Bank → Bank) : (l.setBank n f).ledger = l.ledger := rfl
@[simp] theorem Live.setBank_audio (l : Live) (n : Nat) (f : Bank → Bank) : (l.setBank n f).audio = l.audio := rfl
@[simp] theorem Live.setBank_fio (l : Live) (n : Nat) (f : Bank → Bank) : (l.setBank n f).fio = l.fio := rfl
@[simp] theorem Live.setBank_led (l : Live) (n : Nat) (f : Bank → Bank) : (l.setBank n f).led = l.led := rfl
@[simp] theorem Live.setBank_can (l : Live) (n : Nat) (f : Bank → Bank) : (l.setBank n f).can = l.can := rfl
@[simp] theorem Live.setBank_nm (l : Live) (n : Nat) (f : Bank → Bank) : (l.setBank n f).nm = l.nm := rfl
@[simp] theorem Live.setBank_link (l : Live) (n : Nat) (f : Bank → Bank) : (l.setBank n f).link = l.link := rfl
@[simp] theorem Live.setBank_token (l : Live) (n : Nat) (f : Bank → Bank) : (l.setBank n f).token = l.token := rfl
@[simp] theorem Live.setBank_key (l : Live) (n : Nat) (f : Bank → Bank) : (l.setBank n f).key = l.key := rfl
@[simp] theorem Live.setBank_f1 (l : Live) (n : Nat) (f : Bank → Bank) : (l.setBank n f).f1 = l.f1 := rfl
@[simp] theorem Live.setBank_param (l : Live) (n : Nat) (f : Bank → Bank) : (l.setBank n f).param = l.param := rfl
@[simp] theorem Live.setBank_sup (l : Live) (n : Nat) (f : Bank → Bank) : (l.setBank n f).sup = l.sup := rfl
@[simp] theorem Live.setBank_fwu (l : Live) (n : Nat) (f : Bank → Bank) : (l.setBank n f).fwu = l.fwu := rfl

@[simp] theorem Live.onF1_mt (l : Live) (f : F1State → F1State) : (l.onF1 f).mt = l.mt := rfl
@[simp] theorem Live.onF1_arch (l : Live) (f : F1State → F1State) : (l.onF1 f).arch = l.arch := rfl
@[simp] theorem Live.onF1_pwr (l : Live) (f : F1State → F1State) : (l.onF1 f).pwr = l.pwr := rfl
@[simp] theorem Live.onF1_host (l : Live) (f : F1State → F1State) : (l.onF1 f).host = l.host := rfl
@[simp] theorem Live.onF1_load (l : Live) (f : F1State → F1State) : (l.onF1 f).load = l.load := rfl
@[simp] theorem Live.onF1_plan (l : Live) (f : F1State → F1State) : (l.onF1 f).plan = l.plan := rfl
@[simp] theorem Live.onF1_ledger (l : Live) (f : F1State → F1State) : (l.onF1 f).ledger = l.ledger := rfl
@[simp] theorem Live.onF1_audio (l : Live) (f : F1State → F1State) : (l.onF1 f).audio = l.audio := rfl
@[simp] theorem Live.onF1_valve (l : Live) (f : F1State → F1State) : (l.onF1 f).valve = l.valve := rfl
@[simp] theorem Live.onF1_fio (l : Live) (f : F1State → F1State) : (l.onF1 f).fio = l.fio := rfl
@[simp] theorem Live.onF1_led (l : Live) (f : F1State → F1State) : (l.onF1 f).led = l.led := rfl
@[simp] theorem Live.onF1_can (l : Live) (f : F1State → F1State) : (l.onF1 f).can = l.can := rfl
@[simp] theorem Live.onF1_nm (l : Live) (f : F1State → F1State) : (l.onF1 f).nm = l.nm := rfl
@[simp] theorem Live.onF1_link (l : Live) (f : F1State → F1State) : (l.onF1 f).link = l.link := rfl
@[simp] theorem Live.onF1_token (l : Live) (f : F1State → F1State) : (l.onF1 f).token = l.token := rfl
@[simp] theorem Live.onF1_key (l : Live) (f : F1State → F1State) : (l.onF1 f).key = l.key := rfl
@[simp] theorem Live.onF1_param (l : Live) (f : F1State → F1State) : (l.onF1 f).param = l.param := rfl
@[simp] theorem Live.onF1_sup (l : Live) (f : F1State → F1State) : (l.onF1 f).sup = l.sup := rfl
@[simp] theorem Live.onF1_fwu (l : Live) (f : F1State → F1State) : (l.onF1 f).fwu = l.fwu := rfl
@[simp] theorem Live.onF1_f1 (l : Live) (f : F1State → F1State) : (l.onF1 f).f1 = f l.f1 := rfl

@[simp] theorem Live.driveEventN_mt (l : Live) : (l.driveEventN).mt = l.mt := rfl
@[simp] theorem Live.driveEventN_arch (l : Live) : (l.driveEventN).arch = l.arch := rfl
@[simp] theorem Live.driveEventN_pwr (l : Live) : (l.driveEventN).pwr = l.pwr := rfl
@[simp] theorem Live.driveEventN_load (l : Live) : (l.driveEventN).load = l.load := rfl
@[simp] theorem Live.driveEventN_plan (l : Live) : (l.driveEventN).plan = l.plan := rfl
@[simp] theorem Live.driveEventN_ledger (l : Live) : (l.driveEventN).ledger = l.ledger := rfl
@[simp] theorem Live.driveEventN_audio (l : Live) : (l.driveEventN).audio = l.audio := rfl
@[simp] theorem Live.driveEventN_valve (l : Live) : (l.driveEventN).valve = l.valve := rfl
@[simp] theorem Live.driveEventN_fio (l : Live) : (l.driveEventN).fio = l.fio := rfl
@[simp] theorem Live.driveEventN_led (l : Live) : (l.driveEventN).led = l.led := rfl
@[simp] theorem Live.driveEventN_can (l : Live) : (l.driveEventN).can = l.can := rfl
@[simp] theorem Live.driveEventN_nm (l : Live) : (l.driveEventN).nm = l.nm := rfl
@[simp] theorem Live.driveEventN_link (l : Live) : (l.driveEventN).link = l.link := rfl
@[simp] theorem Live.driveEventN_token (l : Live) : (l.driveEventN).token = l.token := rfl
@[simp] theorem Live.driveEventN_key (l : Live) : (l.driveEventN).key = l.key := rfl
@[simp] theorem Live.driveEventN_f1 (l : Live) : (l.driveEventN).f1 = l.f1 := rfl
@[simp] theorem Live.driveEventN_param (l : Live) : (l.driveEventN).param = l.param := rfl
@[simp] theorem Live.driveEventN_sup (l : Live) : (l.driveEventN).sup = l.sup := rfl
@[simp] theorem Live.driveEventN_fwu (l : Live) : (l.driveEventN).fwu = l.fwu := rfl

@[simp] theorem State.onLive_live (s : State) (f : Live → Live) : (s.onLive f).live = f s.live := rfl
@[simp] theorem State.onLive_kept (s : State) (f : Live → Live) : (s.onLive f).kept = s.kept := rfl
@[simp] theorem State.onLive_pending (s : State) (f : Live → Live) : (s.onLive f).pending = s.pending := rfl
@[simp] theorem State.onF1_live (s : State) (f : F1State → F1State) : (s.onF1 f).live = s.live.onF1 f := rfl
@[simp] theorem State.onF1_kept (s : State) (f : F1State → F1State) : (s.onF1 f).kept = s.kept := rfl
@[simp] theorem State.onF1_pending (s : State) (f : F1State → F1State) : (s.onF1 f).pending = s.pending := rfl

@[simp] theorem State.onLogic_kept (s : State) (f : Live → Live) : (s.onLogic f).kept = s.kept := by
  unfold State.onLogic; split <;> rfl
@[simp] theorem State.onLogic_pending (s : State) (f : Live → Live) : (s.onLogic f).pending = s.pending := by
  unfold State.onLogic; split <;> rfl

/-- While the logic runs, a change by the logic is made. -/
theorem State.onLogic_running (s : State) (f : Live → Live) (h : s.live.sup.phase = .running) :
    s.onLogic f = s.onLive f := by
  simp [State.onLogic, h]

@[simp] theorem State.command_kept (s : State) (opc : Nat) (g : MbRef → Mailbox → Live → Reply × Live) :
    (s.command opc g).kept = s.kept := by
  unfold State.command; split <;> (try split) <;> rfl
@[simp] theorem State.command_pending (s : State) (opc : Nat) (g : MbRef → Mailbox → Live → Reply × Live) :
    (s.command opc g).pending = s.pending := by
  unfold State.command; split <;> (try split) <;> rfl

/-- A command that waits executes: its body's live state, with the reply put into its mailbox. -/
theorem State.command_eq (s : State) (opc : Nat) (g : MbRef → Mailbox → Live → Reply × Live) (m : MbRef) (b : Mailbox)
    (h : s.live.request opc = some (m, b) ∧ s.live.pathLost opc = false) :
    s.command opc g = { s with live := (g m b s.live).2.finish m (g m b s.live).1 } := by
  simp [State.command, h]

/-- The same for a command whose body may change what is kept. -/
theorem State.commandK_eq (s : State) (opc : Nat) (g : MbRef → Mailbox → State → Reply × State) (m : MbRef) (b : Mailbox)
    (h : s.live.request opc = some (m, b) ∧ s.live.pathLost opc = false) :
    s.commandK opc g = { (g m b s).2 with live := (g m b s).2.live.finish m (g m b s).1 } := by
  simp [State.commandK, h]

/-- A command whose body leaves the queue as it is leaves it as it is. -/
theorem State.commandK_pending (s : State) (opc : Nat) (g : MbRef → Mailbox → State → Reply × State)
    (hg : ∀ m b, (g m b s).2.pending = s.pending) : (s.commandK opc g).pending = s.pending := by
  unfold State.commandK
  split
  · rfl
  · split
    · rfl
    · exact hg _ _

end Sys2Proof.Machine
end

