-- ==== Sys2Proof/Laws/Ops.lean ====
section
/-! SUPPORT. What the shared operations over events and mailboxes leave as it was: raising an event touches the queues of the
host interface, F1's pending lines and the link's event queue only; completing a command touches mailboxes only. -/

namespace Sys2Proof.Machine

@[simp] theorem Live.enter_mt (l : Live) (r : EventRec) : (l.enter r).mt = l.mt := by
  simp only [Live.enter, Live.enterHost, Live.enterF1, Live.driveEventN]
  split <;> split <;> split <;> (try split) <;> (try split) <;> rfl
@[simp] theorem Live.enter_arch (l : Live) (r : EventRec) : (l.enter r).arch = l.arch := by
  simp only [Live.enter, Live.enterHost, Live.enterF1, Live.driveEventN]
  split <;> split <;> split <;> (try split) <;> (try split) <;> rfl
@[simp] theorem Live.enter_pwr (l : Live) (r : EventRec) : (l.enter r).pwr = l.pwr := by
  simp only [Live.enter, Live.enterHost, Live.enterF1, Live.driveEventN]
  split <;> split <;> split <;> (try split) <;> (try split) <;> rfl
@[simp] theorem Live.enter_load (l : Live) (r : EventRec) : (l.enter r).load = l.load := by
  simp only [Live.enter, Live.enterHost, Live.enterF1, Live.driveEventN]
  split <;> split <;> split <;> (try split) <;> (try split) <;> rfl
@[simp] theorem Live.enter_plan (l : Live) (r : EventRec) : (l.enter r).plan = l.plan := by
  simp only [Live.enter, Live.enterHost, Live.enterF1, Live.driveEventN]
  split <;> split <;> split <;> (try split) <;> (try split) <;> rfl
@[simp] theorem Live.enter_ledger (l : Live) (r : EventRec) : (l.enter r).ledger = l.ledger := by
  simp only [Live.enter, Live.enterHost, Live.enterF1, Live.driveEventN]
  split <;> split <;> split <;> (try split) <;> (try split) <;> rfl
@[simp] theorem Live.enter_audio (l : Live) (r : EventRec) : (l.enter r).audio = l.audio := by
  simp only [Live.enter, Live.enterHost, Live.enterF1, Live.driveEventN]
  split <;> split <;> split <;> (try split) <;> (try split) <;> rfl
@[simp] theorem Live.enter_valve (l : Live) (r : EventRec) : (l.enter r).valve = l.valve := by
  simp only [Live.enter, Live.enterHost, Live.enterF1, Live.driveEventN]
  split <;> split <;> split <;> (try split) <;> (try split) <;> rfl
@[simp] theorem Live.enter_fio (l : Live) (r : EventRec) : (l.enter r).fio = l.fio := by
  simp only [Live.enter, Live.enterHost, Live.enterF1, Live.driveEventN]
  split <;> split <;> split <;> (try split) <;> (try split) <;> rfl
@[simp] theorem Live.enter_led (l : Live) (r : EventRec) : (l.enter r).led = l.led := by
  simp only [Live.enter, Live.enterHost, Live.enterF1, Live.driveEventN]
  split <;> split <;> split <;> (try split) <;> (try split) <;> rfl
@[simp] theorem Live.enter_can (l : Live) (r : EventRec) : (l.enter r).can = l.can := by
  simp only [Live.enter, Live.enterHost, Live.enterF1, Live.driveEventN]
  split <;> split <;> split <;> (try split) <;> (try split) <;> rfl
@[simp] theorem Live.enter_nm (l : Live) (r : EventRec) : (l.enter r).nm = l.nm := by
  simp only [Live.enter, Live.enterHost, Live.enterF1, Live.driveEventN]
  split <;> split <;> split <;> (try split) <;> (try split) <;> rfl
@[simp] theorem Live.enter_link (l : Live) (r : EventRec) : (l.enter r).link = l.link := by
  simp only [Live.enter, Live.enterHost, Live.enterF1, Live.driveEventN]
  split <;> split <;> split <;> (try split) <;> (try split) <;> rfl
@[simp] theorem Live.enter_token (l : Live) (r : EventRec) : (l.enter r).token = l.token := by
  simp only [Live.enter, Live.enterHost, Live.enterF1, Live.driveEventN]
  split <;> split <;> split <;> (try split) <;> (try split) <;> rfl
@[simp] theorem Live.enter_key (l : Live) (r : EventRec) : (l.enter r).key = l.key := by
  simp only [Live.enter, Live.enterHost, Live.enterF1, Live.driveEventN]
  split <;> split <;> split <;> (try split) <;> (try split) <;> rfl
@[simp] theorem Live.enter_param (l : Live) (r : EventRec) : (l.enter r).param = l.param := by
  simp only [Live.enter, Live.enterHost, Live.enterF1, Live.driveEventN]
  split <;> split <;> split <;> (try split) <;> (try split) <;> rfl
@[simp] theorem Live.enter_sup (l : Live) (r : EventRec) : (l.enter r).sup = l.sup := by
  simp only [Live.enter, Live.enterHost, Live.enterF1, Live.driveEventN]
  split <;> split <;> split <;> (try split) <;> (try split) <;> rfl
@[simp] theorem Live.enter_fwu (l : Live) (r : EventRec) : (l.enter r).fwu = l.fwu := by
  simp only [Live.enter, Live.enterHost, Live.enterF1, Live.driveEventN]
  split <;> split <;> split <;> (try split) <;> (try split) <;> rfl
@[simp] theorem Live.enterLink_mt (l : Live) (r : EventRec) : (l.enterLink r).mt = l.mt := by
  unfold Live.enterLink
  split
  · rfl
  · split
    · rfl
    · simp only
      split
      · split <;> simp
      · simp
@[simp] theorem Live.raise_mt (l : Live) (id sev cause : Nat) (p : List Byte) : (l.raise id sev cause p).mt = l.mt := by
  simp [Live.raise]
@[simp] theorem Live.raiseAt_mt (l : Live) (t id sev cause : Nat) (p : List Byte) :
    (l.raiseAt t id sev cause p).mt = l.mt := by
  simp [Live.raiseAt]
@[simp] theorem Live.enterLink_arch (l : Live) (r : EventRec) : (l.enterLink r).arch = l.arch := by
  unfold Live.enterLink
  split
  · rfl
  · split
    · rfl
    · simp only
      split
      · split <;> simp
      · simp
@[simp] theorem Live.raise_arch (l : Live) (id sev cause : Nat) (p : List Byte) : (l.raise id sev cause p).arch = l.arch := by
  simp [Live.raise]
@[simp] theorem Live.raiseAt_arch (l : Live) (t id sev cause : Nat) (p : List Byte) :
    (l.raiseAt t id sev cause p).arch = l.arch := by
  simp [Live.raiseAt]
@[simp] theorem Live.enterLink_pwr (l : Live) (r : EventRec) : (l.enterLink r).pwr = l.pwr := by
  unfold Live.enterLink
  split
  · rfl
  · split
    · rfl
    · simp only
      split
      · split <;> simp
      · simp
@[simp] theorem Live.raise_pwr (l : Live) (id sev cause : Nat) (p : List Byte) : (l.raise id sev cause p).pwr = l.pwr := by
  simp [Live.raise]
@[simp] theorem Live.raiseAt_pwr (l : Live) (t id sev cause : Nat) (p : List Byte) :
    (l.raiseAt t id sev cause p).pwr = l.pwr := by
  simp [Live.raiseAt]
@[simp] theorem Live.enterLink_load (l : Live) (r : EventRec) : (l.enterLink r).load = l.load := by
  unfold Live.enterLink
  split
  · rfl
  · split
    · rfl
    · simp only
      split
      · split <;> simp
      · simp
@[simp] theorem Live.raise_load (l : Live) (id sev cause : Nat) (p : List Byte) : (l.raise id sev cause p).load = l.load := by
  simp [Live.raise]
@[simp] theorem Live.raiseAt_load (l : Live) (t id sev cause : Nat) (p : List Byte) :
    (l.raiseAt t id sev cause p).load = l.load := by
  simp [Live.raiseAt]
@[simp] theorem Live.enterLink_plan (l : Live) (r : EventRec) : (l.enterLink r).plan = l.plan := by
  unfold Live.enterLink
  split
  · rfl
  · split
    · rfl
    · simp only
      split
      · split <;> simp
      · simp
@[simp] theorem Live.raise_plan (l : Live) (id sev cause : Nat) (p : List Byte) : (l.raise id sev cause p).plan = l.plan := by
  simp [Live.raise]
@[simp] theorem Live.raiseAt_plan (l : Live) (t id sev cause : Nat) (p : List Byte) :
    (l.raiseAt t id sev cause p).plan = l.plan := by
  simp [Live.raiseAt]
@[simp] theorem Live.enterLink_ledger (l : Live) (r : EventRec) : (l.enterLink r).ledger = l.ledger := by
  unfold Live.enterLink
  split
  · rfl
  · split
    · rfl
    · simp only
      split
      · split <;> simp
      · simp
@[simp] theorem Live.raise_ledger (l : Live) (id sev cause : Nat) (p : List Byte) : (l.raise id sev cause p).ledger = l.ledger := by
  simp [Live.raise]
@[simp] theorem Live.raiseAt_ledger (l : Live) (t id sev cause : Nat) (p : List Byte) :
    (l.raiseAt t id sev cause p).ledger = l.ledger := by
  simp [Live.raiseAt]
@[simp] theorem Live.enterLink_audio (l : Live) (r : EventRec) : (l.enterLink r).audio = l.audio := by
  unfold Live.enterLink
  split
  · rfl
  · split
    · rfl
    · simp only
      split
      · split <;> simp
      · simp
@[simp] theorem Live.raise_audio (l : Live) (id sev cause : Nat) (p : List Byte) : (l.raise id sev cause p).audio = l.audio := by
  simp [Live.raise]
@[simp] theorem Live.raiseAt_audio (l : Live) (t id sev cause : Nat) (p : List Byte) :
    (l.raiseAt t id sev cause p).audio = l.audio := by
  simp [Live.raiseAt]
@[simp] theorem Live.enterLink_valve (l : Live) (r : EventRec) : (l.enterLink r).valve = l.valve := by
  unfold Live.enterLink
  split
  · rfl
  · split
    · rfl
    · simp only
      split
      · split <;> simp
      · simp
@[simp] theorem Live.raise_valve (l : Live) (id sev cause : Nat) (p : List Byte) : (l.raise id sev cause p).valve = l.valve := by
  simp [Live.raise]
@[simp] theorem Live.raiseAt_valve (l : Live) (t id sev cause : Nat) (p : List Byte) :
    (l.raiseAt t id sev cause p).valve = l.valve := by
  simp [Live.raiseAt]
@[simp] theorem Live.enterLink_fio (l : Live) (r : EventRec) : (l.enterLink r).fio = l.fio := by
  unfold Live.enterLink
  split
  · rfl
  · split
    · rfl
    · simp only
      split
      · split <;> simp
      · simp
@[simp] theorem Live.raise_fio (l : Live) (id sev cause : Nat) (p : List Byte) : (l.raise id sev cause p).fio = l.fio := by
  simp [Live.raise]
@[simp] theorem Live.raiseAt_fio (l : Live) (t id sev cause : Nat) (p : List Byte) :
    (l.raiseAt t id sev cause p).fio = l.fio := by
  simp [Live.raiseAt]
@[simp] theorem Live.enterLink_led (l : Live) (r : EventRec) : (l.enterLink r).led = l.led := by
  unfold Live.enterLink
  split
  · rfl
  · split
    · rfl
    · simp only
      split
      · split <;> simp
      · simp
@[simp] theorem Live.raise_led (l : Live) (id sev cause : Nat) (p : List Byte) : (l.raise id sev cause p).led = l.led := by
  simp [Live.raise]
@[simp] theorem Live.raiseAt_led (l : Live) (t id sev cause : Nat) (p : List Byte) :
    (l.raiseAt t id sev cause p).led = l.led := by
  simp [Live.raiseAt]
@[simp] theorem Live.enterLink_can (l : Live) (r : EventRec) : (l.enterLink r).can = l.can := by
  unfold Live.enterLink
  split
  · rfl
  · split
    · rfl
    · simp only
      split
      · split <;> simp
      · simp
@[simp] theorem Live.raise_can (l : Live) (id sev cause : Nat) (p : List Byte) : (l.raise id sev cause p).can = l.can := by
  simp [Live.raise]
@[simp] theorem Live.raiseAt_can (l : Live) (t id sev cause : Nat) (p : List Byte) :
    (l.raiseAt t id sev cause p).can = l.can := by
  simp [Live.raiseAt]
@[simp] theorem Live.enterLink_nm (l : Live) (r : EventRec) : (l.enterLink r).nm = l.nm := by
  unfold Live.enterLink
  split
  · rfl
  · split
    · rfl
    · simp only
      split
      · split <;> simp
      · simp
@[simp] theorem Live.raise_nm (l : Live) (id sev cause : Nat) (p : List Byte) : (l.raise id sev cause p).nm = l.nm := by
  simp [Live.raise]
@[simp] theorem Live.raiseAt_nm (l : Live) (t id sev cause : Nat) (p : List Byte) :
    (l.raiseAt t id sev cause p).nm = l.nm := by
  simp [Live.raiseAt]
@[simp] theorem Live.enterLink_token (l : Live) (r : EventRec) : (l.enterLink r).token = l.token := by
  unfold Live.enterLink
  split
  · rfl
  · split
    · rfl
    · simp only
      split
      · split <;> simp
      · simp
@[simp] theorem Live.raise_token (l : Live) (id sev cause : Nat) (p : List Byte) : (l.raise id sev cause p).token = l.token := by
  simp [Live.raise]
@[simp] theorem Live.raiseAt_token (l : Live) (t id sev cause : Nat) (p : List Byte) :
    (l.raiseAt t id sev cause p).token = l.token := by
  simp [Live.raiseAt]
@[simp] theorem Live.enterLink_key (l : Live) (r : EventRec) : (l.enterLink r).key = l.key := by
  unfold Live.enterLink
  split
  · rfl
  · split
    · rfl
    · simp only
      split
      · split <;> simp
      · simp
@[simp] theorem Live.raise_key (l : Live) (id sev cause : Nat) (p : List Byte) : (l.raise id sev cause p).key = l.key := by
  simp [Live.raise]
@[simp] theorem Live.raiseAt_key (l : Live) (t id sev cause : Nat) (p : List Byte) :
    (l.raiseAt t id sev cause p).key = l.key := by
  simp [Live.raiseAt]
@[simp] theorem Live.enterLink_param (l : Live) (r : EventRec) : (l.enterLink r).param = l.param := by
  unfold Live.enterLink
  split
  · rfl
  · split
    · rfl
    · simp only
      split
      · split <;> simp
      · simp
@[simp] theorem Live.raise_param (l : Live) (id sev cause : Nat) (p : List Byte) : (l.raise id sev cause p).param = l.param := by
  simp [Live.raise]
@[simp] theorem Live.raiseAt_param (l : Live) (t id sev cause : Nat) (p : List Byte) :
    (l.raiseAt t id sev cause p).param = l.param := by
  simp [Live.raiseAt]
@[simp] theorem Live.enterLink_sup (l : Live) (r : EventRec) : (l.enterLink r).sup = l.sup := by
  unfold Live.enterLink
  split
  · rfl
  · split
    · rfl
    · simp only
      split
      · split <;> simp
      · simp
@[simp] theorem Live.raise_sup (l : Live) (id sev cause : Nat) (p : List Byte) : (l.raise id sev cause p).sup = l.sup := by
  simp [Live.raise]
@[simp] theorem Live.raiseAt_sup (l : Live) (t id sev cause : Nat) (p : List Byte) :
    (l.raiseAt t id sev cause p).sup = l.sup := by
  simp [Live.raiseAt]
@[simp] theorem Live.enterLink_fwu (l : Live) (r : EventRec) : (l.enterLink r).fwu = l.fwu := by
  unfold Live.enterLink
  split
  · rfl
  · split
    · rfl
    · simp only
      split
      · split <;> simp
      · simp
@[simp] theorem Live.raise_fwu (l : Live) (id sev cause : Nat) (p : List Byte) : (l.raise id sev cause p).fwu = l.fwu := by
  simp [Live.raise]
@[simp] theorem Live.raiseAt_fwu (l : Live) (t id sev cause : Nat) (p : List Byte) :
    (l.raiseAt t id sev cause p).fwu = l.fwu := by
  simp [Live.raiseAt]
@[simp] theorem Live.setBox_mt (l : Live) (m : MbRef) (b : Mailbox) : (l.setBox m b).mt = l.mt := by
  cases m <;> rfl
@[simp] theorem Live.deliver_mt (l : Live) (m : MbRef) (r : List Byte) : (l.deliver m r).mt = l.mt := by
  unfold Live.deliver
  split
  · rfl
  · cases m <;> simp only <;> first | rfl | (split <;> rfl)
@[simp] theorem Live.endGather_mt (l : Live) (g : Gather) : (l.endGather g).mt = l.mt := by
  unfold Live.endGather
  simp only
  split
  · rfl
  · split <;> simp
@[simp] theorem Live.gatherAnswer_mt (l : Live) (m : MbRef) (p st : Nat) : (l.gatherAnswer m p st).mt = l.mt := by
  unfold Live.gatherAnswer
  split
  · rfl
  · simp only
    split <;> simp
@[simp] theorem Live.complete_mt (l : Live) (m : MbRef) (st : Status) (d : Nat) (p : List Byte) :
    (l.complete m st d p).mt = l.mt := by
  unfold Live.complete
  split
  · rfl
  · split
    · rfl
    · split <;> simp
@[simp] theorem Live.hold_mt (l : Live) (m : MbRef) : (l.hold m).mt = l.mt := by
  unfold Live.hold
  split <;> simp
@[simp] theorem Live.finish_mt (l : Live) (m : MbRef) (r : Reply) : (l.finish m r).mt = l.mt := by
  cases r <;> simp [Live.finish]
@[simp] theorem Live.setBox_arch (l : Live) (m : MbRef) (b : Mailbox) : (l.setBox m b).arch = l.arch := by
  cases m <;> rfl
@[simp] theorem Live.deliver_arch (l : Live) (m : MbRef) (r : List Byte) : (l.deliver m r).arch = l.arch := by
  unfold Live.deliver
  split
  · rfl
  · cases m <;> simp only <;> first | rfl | (split <;> rfl)
@[simp] theorem Live.endGather_arch (l : Live) (g : Gather) : (l.endGather g).arch = l.arch := by
  unfold Live.endGather
  simp only
  split
  · rfl
  · split <;> simp
@[simp] theorem Live.gatherAnswer_arch (l : Live) (m : MbRef) (p st : Nat) : (l.gatherAnswer m p st).arch = l.arch := by
  unfold Live.gatherAnswer
  split
  · rfl
  · simp only
    split <;> simp
@[simp] theorem Live.complete_arch (l : Live) (m : MbRef) (st : Status) (d : Nat) (p : List Byte) :
    (l.complete m st d p).arch = l.arch := by
  unfold Live.complete
  split
  · rfl
  · split
    · rfl
    · split <;> simp
@[simp] theorem Live.hold_arch (l : Live) (m : MbRef) : (l.hold m).arch = l.arch := by
  unfold Live.hold
  split <;> simp
@[simp] theorem Live.finish_arch (l : Live) (m : MbRef) (r : Reply) : (l.finish m r).arch = l.arch := by
  cases r <;> simp [Live.finish]
@[simp] theorem Live.setBox_pwr (l : Live) (m : MbRef) (b : Mailbox) : (l.setBox m b).pwr = l.pwr := by
  cases m <;> rfl
@[simp] theorem Live.deliver_pwr (l : Live) (m : MbRef) (r : List Byte) : (l.deliver m r).pwr = l.pwr := by
  unfold Live.deliver
  split
  · rfl
  · cases m <;> simp only <;> first | rfl | (split <;> rfl)
@[simp] theorem Live.endGather_pwr (l : Live) (g : Gather) : (l.endGather g).pwr = l.pwr := by
  unfold Live.endGather
  simp only
  split
  · rfl
  · split <;> simp
@[simp] theorem Live.gatherAnswer_pwr (l : Live) (m : MbRef) (p st : Nat) : (l.gatherAnswer m p st).pwr = l.pwr := by
  unfold Live.gatherAnswer
  split
  · rfl
  · simp only
    split <;> simp
@[simp] theorem Live.complete_pwr (l : Live) (m : MbRef) (st : Status) (d : Nat) (p : List Byte) :
    (l.complete m st d p).pwr = l.pwr := by
  unfold Live.complete
  split
  · rfl
  · split
    · rfl
    · split <;> simp
@[simp] theorem Live.hold_pwr (l : Live) (m : MbRef) : (l.hold m).pwr = l.pwr := by
  unfold Live.hold
  split <;> simp
@[simp] theorem Live.finish_pwr (l : Live) (m : MbRef) (r : Reply) : (l.finish m r).pwr = l.pwr := by
  cases r <;> simp [Live.finish]
@[simp] theorem Live.setBox_load (l : Live) (m : MbRef) (b : Mailbox) : (l.setBox m b).load = l.load := by
  cases m <;> rfl
@[simp] theorem Live.deliver_load (l : Live) (m : MbRef) (r : List Byte) : (l.deliver m r).load = l.load := by
  unfold Live.deliver
  split
  · rfl
  · cases m <;> simp only <;> first | rfl | (split <;> rfl)
@[simp] theorem Live.endGather_load (l : Live) (g : Gather) : (l.endGather g).load = l.load := by
  unfold Live.endGather
  simp only
  split
  · rfl
  · split <;> simp
@[simp] theorem Live.gatherAnswer_load (l : Live) (m : MbRef) (p st : Nat) : (l.gatherAnswer m p st).load = l.load := by
  unfold Live.gatherAnswer
  split
  · rfl
  · simp only
    split <;> simp
@[simp] theorem Live.complete_load (l : Live) (m : MbRef) (st : Status) (d : Nat) (p : List Byte) :
    (l.complete m st d p).load = l.load := by
  unfold Live.complete
  split
  · rfl
  · split
    · rfl
    · split <;> simp
@[simp] theorem Live.hold_load (l : Live) (m : MbRef) : (l.hold m).load = l.load := by
  unfold Live.hold
  split <;> simp
@[simp] theorem Live.finish_load (l : Live) (m : MbRef) (r : Reply) : (l.finish m r).load = l.load := by
  cases r <;> simp [Live.finish]
@[simp] theorem Live.setBox_plan (l : Live) (m : MbRef) (b : Mailbox) : (l.setBox m b).plan = l.plan := by
  cases m <;> rfl
@[simp] theorem Live.deliver_plan (l : Live) (m : MbRef) (r : List Byte) : (l.deliver m r).plan = l.plan := by
  unfold Live.deliver
  split
  · rfl
  · cases m <;> simp only <;> first | rfl | (split <;> rfl)
@[simp] theorem Live.endGather_plan (l : Live) (g : Gather) : (l.endGather g).plan = l.plan := by
  unfold Live.endGather
  simp only
  split
  · rfl
  · split <;> simp
@[simp] theorem Live.gatherAnswer_plan (l : Live) (m : MbRef) (p st : Nat) : (l.gatherAnswer m p st).plan = l.plan := by
  unfold Live.gatherAnswer
  split
  · rfl
  · simp only
    split <;> simp
@[simp] theorem Live.complete_plan (l : Live) (m : MbRef) (st : Status) (d : Nat) (p : List Byte) :
    (l.complete m st d p).plan = l.plan := by
  unfold Live.complete
  split
  · rfl
  · split
    · rfl
    · split <;> simp
@[simp] theorem Live.hold_plan (l : Live) (m : MbRef) : (l.hold m).plan = l.plan := by
  unfold Live.hold
  split <;> simp
@[simp] theorem Live.finish_plan (l : Live) (m : MbRef) (r : Reply) : (l.finish m r).plan = l.plan := by
  cases r <;> simp [Live.finish]
@[simp] theorem Live.setBox_ledger (l : Live) (m : MbRef) (b : Mailbox) : (l.setBox m b).ledger = l.ledger := by
  cases m <;> rfl
@[simp] theorem Live.deliver_ledger (l : Live) (m : MbRef) (r : List Byte) : (l.deliver m r).ledger = l.ledger := by
  unfold Live.deliver
  split
  · rfl
  · cases m <;> simp only <;> first | rfl | (split <;> rfl)
@[simp] theorem Live.endGather_ledger (l : Live) (g : Gather) : (l.endGather g).ledger = l.ledger := by
  unfold Live.endGather
  simp only
  split
  · rfl
  · split <;> simp
@[simp] theorem Live.gatherAnswer_ledger (l : Live) (m : MbRef) (p st : Nat) : (l.gatherAnswer m p st).ledger = l.ledger := by
  unfold Live.gatherAnswer
  split
  · rfl
  · simp only
    split <;> simp
@[simp] theorem Live.complete_ledger (l : Live) (m : MbRef) (st : Status) (d : Nat) (p : List Byte) :
    (l.complete m st d p).ledger = l.ledger := by
  unfold Live.complete
  split
  · rfl
  · split
    · rfl
    · split <;> simp
@[simp] theorem Live.hold_ledger (l : Live) (m : MbRef) : (l.hold m).ledger = l.ledger := by
  unfold Live.hold
  split <;> simp
@[simp] theorem Live.finish_ledger (l : Live) (m : MbRef) (r : Reply) : (l.finish m r).ledger = l.ledger := by
  cases r <;> simp [Live.finish]
@[simp] theorem Live.setBox_audio (l : Live) (m : MbRef) (b : Mailbox) : (l.setBox m b).audio = l.audio := by
  cases m <;> rfl
@[simp] theorem Live.deliver_audio (l : Live) (m : MbRef) (r : List Byte) : (l.deliver m r).audio = l.audio := by
  unfold Live.deliver
  split
  · rfl
  · cases m <;> simp only <;> first | rfl | (split <;> rfl)
@[simp] theorem Live.endGather_audio (l : Live) (g : Gather) : (l.endGather g).audio = l.audio := by
  unfold Live.endGather
  simp only
  split
  · rfl
  · split <;> simp
@[simp] theorem Live.gatherAnswer_audio (l : Live) (m : MbRef) (p st : Nat) : (l.gatherAnswer m p st).audio = l.audio := by
  unfold Live.gatherAnswer
  split
  · rfl
  · simp only
    split <;> simp
@[simp] theorem Live.complete_audio (l : Live) (m : MbRef) (st : Status) (d : Nat) (p : List Byte) :
    (l.complete m st d p).audio = l.audio := by
  unfold Live.complete
  split
  · rfl
  · split
    · rfl
    · split <;> simp
@[simp] theorem Live.hold_audio (l : Live) (m : MbRef) : (l.hold m).audio = l.audio := by
  unfold Live.hold
  split <;> simp
@[simp] theorem Live.finish_audio (l : Live) (m : MbRef) (r : Reply) : (l.finish m r).audio = l.audio := by
  cases r <;> simp [Live.finish]
@[simp] theorem Live.setBox_valve (l : Live) (m : MbRef) (b : Mailbox) : (l.setBox m b).valve = l.valve := by
  cases m <;> rfl
@[simp] theorem Live.deliver_valve (l : Live) (m : MbRef) (r : List Byte) : (l.deliver m r).valve = l.valve := by
  unfold Live.deliver
  split
  · rfl
  · cases m <;> simp only <;> first | rfl | (split <;> rfl)
@[simp] theorem Live.endGather_valve (l : Live) (g : Gather) : (l.endGather g).valve = l.valve := by
  unfold Live.endGather
  simp only
  split
  · rfl
  · split <;> simp
@[simp] theorem Live.gatherAnswer_valve (l : Live) (m : MbRef) (p st : Nat) : (l.gatherAnswer m p st).valve = l.valve := by
  unfold Live.gatherAnswer
  split
  · rfl
  · simp only
    split <;> simp
@[simp] theorem Live.complete_valve (l : Live) (m : MbRef) (st : Status) (d : Nat) (p : List Byte) :
    (l.complete m st d p).valve = l.valve := by
  unfold Live.complete
  split
  · rfl
  · split
    · rfl
    · split <;> simp
@[simp] theorem Live.hold_valve (l : Live) (m : MbRef) : (l.hold m).valve = l.valve := by
  unfold Live.hold
  split <;> simp
@[simp] theorem Live.finish_valve (l : Live) (m : MbRef) (r : Reply) : (l.finish m r).valve = l.valve := by
  cases r <;> simp [Live.finish]
@[simp] theorem Live.setBox_fio (l : Live) (m : MbRef) (b : Mailbox) : (l.setBox m b).fio = l.fio := by
  cases m <;> rfl
@[simp] theorem Live.deliver_fio (l : Live) (m : MbRef) (r : List Byte) : (l.deliver m r).fio = l.fio := by
  unfold Live.deliver
  split
  · rfl
  · cases m <;> simp only <;> first | rfl | (split <;> rfl)
@[simp] theorem Live.endGather_fio (l : Live) (g : Gather) : (l.endGather g).fio = l.fio := by
  unfold Live.endGather
  simp only
  split
  · rfl
  · split <;> simp
@[simp] theorem Live.gatherAnswer_fio (l : Live) (m : MbRef) (p st : Nat) : (l.gatherAnswer m p st).fio = l.fio := by
  unfold Live.gatherAnswer
  split
  · rfl
  · simp only
    split <;> simp
@[simp] theorem Live.complete_fio (l : Live) (m : MbRef) (st : Status) (d : Nat) (p : List Byte) :
    (l.complete m st d p).fio = l.fio := by
  unfold Live.complete
  split
  · rfl
  · split
    · rfl
    · split <;> simp
@[simp] theorem Live.hold_fio (l : Live) (m : MbRef) : (l.hold m).fio = l.fio := by
  unfold Live.hold
  split <;> simp
@[simp] theorem Live.finish_fio (l : Live) (m : MbRef) (r : Reply) : (l.finish m r).fio = l.fio := by
  cases r <;> simp [Live.finish]
@[simp] theorem Live.setBox_led (l : Live) (m : MbRef) (b : Mailbox) : (l.setBox m b).led = l.led := by
  cases m <;> rfl
@[simp] theorem Live.deliver_led (l : Live) (m : MbRef) (r : List Byte) : (l.deliver m r).led = l.led := by
  unfold Live.deliver
  split
  · rfl
  · cases m <;> simp only <;> first | rfl | (split <;> rfl)
@[simp] theorem Live.endGather_led (l : Live) (g : Gather) : (l.endGather g).led = l.led := by
  unfold Live.endGather
  simp only
  split
  · rfl
  · split <;> simp
@[simp] theorem Live.gatherAnswer_led (l : Live) (m : MbRef) (p st : Nat) : (l.gatherAnswer m p st).led = l.led := by
  unfold Live.gatherAnswer
  split
  · rfl
  · simp only
    split <;> simp
@[simp] theorem Live.complete_led (l : Live) (m : MbRef) (st : Status) (d : Nat) (p : List Byte) :
    (l.complete m st d p).led = l.led := by
  unfold Live.complete
  split
  · rfl
  · split
    · rfl
    · split <;> simp
@[simp] theorem Live.hold_led (l : Live) (m : MbRef) : (l.hold m).led = l.led := by
  unfold Live.hold
  split <;> simp
@[simp] theorem Live.finish_led (l : Live) (m : MbRef) (r : Reply) : (l.finish m r).led = l.led := by
  cases r <;> simp [Live.finish]
@[simp] theorem Live.setBox_can (l : Live) (m : MbRef) (b : Mailbox) : (l.setBox m b).can = l.can := by
  cases m <;> rfl
@[simp] theorem Live.deliver_can (l : Live) (m : MbRef) (r : List Byte) : (l.deliver m r).can = l.can := by
  unfold Live.deliver
  split
  · rfl
  · cases m <;> simp only <;> first | rfl | (split <;> rfl)
@[simp] theorem Live.endGather_can (l : Live) (g : Gather) : (l.endGather g).can = l.can := by
  unfold Live.endGather
  simp only
  split
  · rfl
  · split <;> simp
@[simp] theorem Live.gatherAnswer_can (l : Live) (m : MbRef) (p st : Nat) : (l.gatherAnswer m p st).can = l.can := by
  unfold Live.gatherAnswer
  split
  · rfl
  · simp only
    split <;> simp
@[simp] theorem Live.complete_can (l : Live) (m : MbRef) (st : Status) (d : Nat) (p : List Byte) :
    (l.complete m st d p).can = l.can := by
  unfold Live.complete
  split
  · rfl
  · split
    · rfl
    · split <;> simp
@[simp] theorem Live.hold_can (l : Live) (m : MbRef) : (l.hold m).can = l.can := by
  unfold Live.hold
  split <;> simp
@[simp] theorem Live.finish_can (l : Live) (m : MbRef) (r : Reply) : (l.finish m r).can = l.can := by
  cases r <;> simp [Live.finish]
@[simp] theorem Live.setBox_nm (l : Live) (m : MbRef) (b : Mailbox) : (l.setBox m b).nm = l.nm := by
  cases m <;> rfl
@[simp] theorem Live.deliver_nm (l : Live) (m : MbRef) (r : List Byte) : (l.deliver m r).nm = l.nm := by
  unfold Live.deliver
  split
  · rfl
  · cases m <;> simp only <;> first | rfl | (split <;> rfl)
@[simp] theorem Live.endGather_nm (l : Live) (g : Gather) : (l.endGather g).nm = l.nm := by
  unfold Live.endGather
  simp only
  split
  · rfl
  · split <;> simp
@[simp] theorem Live.gatherAnswer_nm (l : Live) (m : MbRef) (p st : Nat) : (l.gatherAnswer m p st).nm = l.nm := by
  unfold Live.gatherAnswer
  split
  · rfl
  · simp only
    split <;> simp
@[simp] theorem Live.complete_nm (l : Live) (m : MbRef) (st : Status) (d : Nat) (p : List Byte) :
    (l.complete m st d p).nm = l.nm := by
  unfold Live.complete
  split
  · rfl
  · split
    · rfl
    · split <;> simp
@[simp] theorem Live.hold_nm (l : Live) (m : MbRef) : (l.hold m).nm = l.nm := by
  unfold Live.hold
  split <;> simp
@[simp] theorem Live.finish_nm (l : Live) (m : MbRef) (r : Reply) : (l.finish m r).nm = l.nm := by
  cases r <;> simp [Live.finish]
@[simp] theorem Live.setBox_token (l : Live) (m : MbRef) (b : Mailbox) : (l.setBox m b).token = l.token := by
  cases m <;> rfl
@[simp] theorem Live.deliver_token (l : Live) (m : MbRef) (r : List Byte) : (l.deliver m r).token = l.token := by
  unfold Live.deliver
  split
  · rfl
  · cases m <;> simp only <;> first | rfl | (split <;> rfl)
@[simp] theorem Live.endGather_token (l : Live) (g : Gather) : (l.endGather g).token = l.token := by
  unfold Live.endGather
  simp only
  split
  · rfl
  · split <;> simp
@[simp] theorem Live.gatherAnswer_token (l : Live) (m : MbRef) (p st : Nat) : (l.gatherAnswer m p st).token = l.token := by
  unfold Live.gatherAnswer
  split
  · rfl
  · simp only
    split <;> simp
@[simp] theorem Live.complete_token (l : Live) (m : MbRef) (st : Status) (d : Nat) (p : List Byte) :
    (l.complete m st d p).token = l.token := by
  unfold Live.complete
  split
  · rfl
  · split
    · rfl
    · split <;> simp
@[simp] theorem Live.hold_token (l : Live) (m : MbRef) : (l.hold m).token = l.token := by
  unfold Live.hold
  split <;> simp
@[simp] theorem Live.finish_token (l : Live) (m : MbRef) (r : Reply) : (l.finish m r).token = l.token := by
  cases r <;> simp [Live.finish]
@[simp] theorem Live.setBox_key (l : Live) (m : MbRef) (b : Mailbox) : (l.setBox m b).key = l.key := by
  cases m <;> rfl
@[simp] theorem Live.deliver_key (l : Live) (m : MbRef) (r : List Byte) : (l.deliver m r).key = l.key := by
  unfold Live.deliver
  split
  · rfl
  · cases m <;> simp only <;> first | rfl | (split <;> rfl)
@[simp] theorem Live.endGather_key (l : Live) (g : Gather) : (l.endGather g).key = l.key := by
  unfold Live.endGather
  simp only
  split
  · rfl
  · split <;> simp
@[simp] theorem Live.gatherAnswer_key (l : Live) (m : MbRef) (p st : Nat) : (l.gatherAnswer m p st).key = l.key := by
  unfold Live.gatherAnswer
  split
  · rfl
  · simp only
    split <;> simp
@[simp] theorem Live.complete_key (l : Live) (m : MbRef) (st : Status) (d : Nat) (p : List Byte) :
    (l.complete m st d p).key = l.key := by
  unfold Live.complete
  split
  · rfl
  · split
    · rfl
    · split <;> simp
@[simp] theorem Live.hold_key (l : Live) (m : MbRef) : (l.hold m).key = l.key := by
  unfold Live.hold
  split <;> simp
@[simp] theorem Live.finish_key (l : Live) (m : MbRef) (r : Reply) : (l.finish m r).key = l.key := by
  cases r <;> simp [Live.finish]
@[simp] theorem Live.setBox_f1 (l : Live) (m : MbRef) (b : Mailbox) : (l.setBox m b).f1 = l.f1 := by
  cases m <;> rfl
@[simp] theorem Live.deliver_f1 (l : Live) (m : MbRef) (r : List Byte) : (l.deliver m r).f1 = l.f1 := by
  unfold Live.deliver
  split
  · rfl
  · cases m <;> simp only <;> first | rfl | (split <;> rfl)
@[simp] theorem Live.endGather_f1 (l : Live) (g : Gather) : (l.endGather g).f1 = l.f1 := by
  unfold Live.endGather
  simp only
  split
  · rfl
  · split <;> simp
@[simp] theorem Live.gatherAnswer_f1 (l : Live) (m : MbRef) (p st : Nat) : (l.gatherAnswer m p st).f1 = l.f1 := by
  unfold Live.gatherAnswer
  split
  · rfl
  · simp only
    split <;> simp
@[simp] theorem Live.complete_f1 (l : Live) (m : MbRef) (st : Status) (d : Nat) (p : List Byte) :
    (l.complete m st d p).f1 = l.f1 := by
  unfold Live.complete
  split
  · rfl
  · split
    · rfl
    · split <;> simp
@[simp] theorem Live.hold_f1 (l : Live) (m : MbRef) : (l.hold m).f1 = l.f1 := by
  unfold Live.hold
  split <;> simp
@[simp] theorem Live.finish_f1 (l : Live) (m : MbRef) (r : Reply) : (l.finish m r).f1 = l.f1 := by
  cases r <;> simp [Live.finish]
@[simp] theorem Live.setBox_param (l : Live) (m : MbRef) (b : Mailbox) : (l.setBox m b).param = l.param := by
  cases m <;> rfl
@[simp] theorem Live.deliver_param (l : Live) (m : MbRef) (r : List Byte) : (l.deliver m r).param = l.param := by
  unfold Live.deliver
  split
  · rfl
  · cases m <;> simp only <;> first | rfl | (split <;> rfl)
@[simp] theorem Live.endGather_param (l : Live) (g : Gather) : (l.endGather g).param = l.param := by
  unfold Live.endGather
  simp only
  split
  · rfl
  · split <;> simp
@[simp] theorem Live.gatherAnswer_param (l : Live) (m : MbRef) (p st : Nat) : (l.gatherAnswer m p st).param = l.param := by
  unfold Live.gatherAnswer
  split
  · rfl
  · simp only
    split <;> simp
@[simp] theorem Live.complete_param (l : Live) (m : MbRef) (st : Status) (d : Nat) (p : List Byte) :
    (l.complete m st d p).param = l.param := by
  unfold Live.complete
  split
  · rfl
  · split
    · rfl
    · split <;> simp
@[simp] theorem Live.hold_param (l : Live) (m : MbRef) : (l.hold m).param = l.param := by
  unfold Live.hold
  split <;> simp
@[simp] theorem Live.finish_param (l : Live) (m : MbRef) (r : Reply) : (l.finish m r).param = l.param := by
  cases r <;> simp [Live.finish]
@[simp] theorem Live.setBox_sup (l : Live) (m : MbRef) (b : Mailbox) : (l.setBox m b).sup = l.sup := by
  cases m <;> rfl
@[simp] theorem Live.deliver_sup (l : Live) (m : MbRef) (r : List Byte) : (l.deliver m r).sup = l.sup := by
  unfold Live.deliver
  split
  · rfl
  · cases m <;> simp only <;> first | rfl | (split <;> rfl)
@[simp] theorem Live.endGather_sup (l : Live) (g : Gather) : (l.endGather g).sup = l.sup := by
  unfold Live.endGather
  simp only
  split
  · rfl
  · split <;> simp
@[simp] theorem Live.gatherAnswer_sup (l : Live) (m : MbRef) (p st : Nat) : (l.gatherAnswer m p st).sup = l.sup := by
  unfold Live.gatherAnswer
  split
  · rfl
  · simp only
    split <;> simp
@[simp] theorem Live.complete_sup (l : Live) (m : MbRef) (st : Status) (d : Nat) (p : List Byte) :
    (l.complete m st d p).sup = l.sup := by
  unfold Live.complete
  split
  · rfl
  · split
    · rfl
    · split <;> simp
@[simp] theorem Live.hold_sup (l : Live) (m : MbRef) : (l.hold m).sup = l.sup := by
  unfold Live.hold
  split <;> simp
@[simp] theorem Live.finish_sup (l : Live) (m : MbRef) (r : Reply) : (l.finish m r).sup = l.sup := by
  cases r <;> simp [Live.finish]
@[simp] theorem Live.setBox_fwu (l : Live) (m : MbRef) (b : Mailbox) : (l.setBox m b).fwu = l.fwu := by
  cases m <;> rfl
@[simp] theorem Live.deliver_fwu (l : Live) (m : MbRef) (r : List Byte) : (l.deliver m r).fwu = l.fwu := by
  unfold Live.deliver
  split
  · rfl
  · cases m <;> simp only <;> first | rfl | (split <;> rfl)
@[simp] theorem Live.endGather_fwu (l : Live) (g : Gather) : (l.endGather g).fwu = l.fwu := by
  unfold Live.endGather
  simp only
  split
  · rfl
  · split <;> simp
@[simp] theorem Live.gatherAnswer_fwu (l : Live) (m : MbRef) (p st : Nat) : (l.gatherAnswer m p st).fwu = l.fwu := by
  unfold Live.gatherAnswer
  split
  · rfl
  · simp only
    split <;> simp
@[simp] theorem Live.complete_fwu (l : Live) (m : MbRef) (st : Status) (d : Nat) (p : List Byte) :
    (l.complete m st d p).fwu = l.fwu := by
  unfold Live.complete
  split
  · rfl
  · split
    · rfl
    · split <;> simp
@[simp] theorem Live.hold_fwu (l : Live) (m : MbRef) : (l.hold m).fwu = l.fwu := by
  unfold Live.hold
  split <;> simp
@[simp] theorem Live.finish_fwu (l : Live) (m : MbRef) (r : Reply) : (l.finish m r).fwu = l.fwu := by
  cases r <;> simp [Live.finish]

end Sys2Proof.Machine
end

