-- ==== Sys2Proof/Laws/Shared.lean ====
section
/-! SUPPORT. What the operations that several families share leave as it was: links and crossings, the source of MT, CAN transmit
buffers and lands, and the Planisher's edges and slots. -/

namespace Sys2Proof.Machine

@[simp] theorem Live.setD2d_mt (l : Live) (i : Nat) (f : D2dLink → D2dLink) : (l.setD2d i f).mt = l.mt := rfl
@[simp] theorem Live.setD2d_pwr (l : Live) (i : Nat) (f : D2dLink → D2dLink) : (l.setD2d i f).pwr = l.pwr := rfl
@[simp] theorem Live.setD2d_host (l : Live) (i : Nat) (f : D2dLink → D2dLink) : (l.setD2d i f).host = l.host := rfl
@[simp] theorem Live.setD2d_load (l : Live) (i : Nat) (f : D2dLink → D2dLink) : (l.setD2d i f).load = l.load := rfl
@[simp] theorem Live.setD2d_plan (l : Live) (i : Nat) (f : D2dLink → D2dLink) : (l.setD2d i f).plan = l.plan := rfl
@[simp] theorem Live.setD2d_ledger (l : Live) (i : Nat) (f : D2dLink → D2dLink) : (l.setD2d i f).ledger = l.ledger := rfl
@[simp] theorem Live.setD2d_audio (l : Live) (i : Nat) (f : D2dLink → D2dLink) : (l.setD2d i f).audio = l.audio := rfl
@[simp] theorem Live.setD2d_valve (l : Live) (i : Nat) (f : D2dLink → D2dLink) : (l.setD2d i f).valve = l.valve := rfl
@[simp] theorem Live.setD2d_fio (l : Live) (i : Nat) (f : D2dLink → D2dLink) : (l.setD2d i f).fio = l.fio := rfl
@[simp] theorem Live.setD2d_led (l : Live) (i : Nat) (f : D2dLink → D2dLink) : (l.setD2d i f).led = l.led := rfl
@[simp] theorem Live.setD2d_can (l : Live) (i : Nat) (f : D2dLink → D2dLink) : (l.setD2d i f).can = l.can := rfl
@[simp] theorem Live.setD2d_nm (l : Live) (i : Nat) (f : D2dLink → D2dLink) : (l.setD2d i f).nm = l.nm := rfl
@[simp] theorem Live.setD2d_link (l : Live) (i : Nat) (f : D2dLink → D2dLink) : (l.setD2d i f).link = l.link := rfl
@[simp] theorem Live.setD2d_token (l : Live) (i : Nat) (f : D2dLink → D2dLink) : (l.setD2d i f).token = l.token := rfl
@[simp] theorem Live.setD2d_key (l : Live) (i : Nat) (f : D2dLink → D2dLink) : (l.setD2d i f).key = l.key := rfl
@[simp] theorem Live.setD2d_f1 (l : Live) (i : Nat) (f : D2dLink → D2dLink) : (l.setD2d i f).f1 = l.f1 := rfl
@[simp] theorem Live.setD2d_param (l : Live) (i : Nat) (f : D2dLink → D2dLink) : (l.setD2d i f).param = l.param := rfl
@[simp] theorem Live.setD2d_sup (l : Live) (i : Nat) (f : D2dLink → D2dLink) : (l.setD2d i f).sup = l.sup := rfl
@[simp] theorem Live.setD2d_fwu (l : Live) (i : Nat) (f : D2dLink → D2dLink) : (l.setD2d i f).fwu = l.fwu := rfl

@[simp] theorem Live.setCrossing_mt (l : Live) (c : Crossing) : (l.setCrossing c).mt = l.mt := rfl
@[simp] theorem Live.setCrossing_pwr (l : Live) (c : Crossing) : (l.setCrossing c).pwr = l.pwr := rfl
@[simp] theorem Live.setCrossing_host (l : Live) (c : Crossing) : (l.setCrossing c).host = l.host := rfl
@[simp] theorem Live.setCrossing_load (l : Live) (c : Crossing) : (l.setCrossing c).load = l.load := rfl
@[simp] theorem Live.setCrossing_plan (l : Live) (c : Crossing) : (l.setCrossing c).plan = l.plan := rfl
@[simp] theorem Live.setCrossing_ledger (l : Live) (c : Crossing) : (l.setCrossing c).ledger = l.ledger := rfl
@[simp] theorem Live.setCrossing_audio (l : Live) (c : Crossing) : (l.setCrossing c).audio = l.audio := rfl
@[simp] theorem Live.setCrossing_valve (l : Live) (c : Crossing) : (l.setCrossing c).valve = l.valve := rfl
@[simp] theorem Live.setCrossing_fio (l : Live) (c : Crossing) : (l.setCrossing c).fio = l.fio := rfl
@[simp] theorem Live.setCrossing_led (l : Live) (c : Crossing) : (l.setCrossing c).led = l.led := rfl
@[simp] theorem Live.setCrossing_can (l : Live) (c : Crossing) : (l.setCrossing c).can = l.can := rfl
@[simp] theorem Live.setCrossing_nm (l : Live) (c : Crossing) : (l.setCrossing c).nm = l.nm := rfl
@[simp] theorem Live.setCrossing_link (l : Live) (c : Crossing) : (l.setCrossing c).link = l.link := rfl
@[simp] theorem Live.setCrossing_token (l : Live) (c : Crossing) : (l.setCrossing c).token = l.token := rfl
@[simp] theorem Live.setCrossing_key (l : Live) (c : Crossing) : (l.setCrossing c).key = l.key := rfl
@[simp] theorem Live.setCrossing_f1 (l : Live) (c : Crossing) : (l.setCrossing c).f1 = l.f1 := rfl
@[simp] theorem Live.setCrossing_param (l : Live) (c : Crossing) : (l.setCrossing c).param = l.param := rfl
@[simp] theorem Live.setCrossing_sup (l : Live) (c : Crossing) : (l.setCrossing c).sup = l.sup := rfl
@[simp] theorem Live.setCrossing_fwu (l : Live) (c : Crossing) : (l.setCrossing c).fwu = l.fwu := rfl

@[simp] theorem Live.runFree_arch (l : Live) (src : MtSource) :
    (l.runFree src).arch = l.arch := by unfold Live.runFree; split <;> rfl
@[simp] theorem Live.runFree_pwr (l : Live) (src : MtSource) :
    (l.runFree src).pwr = l.pwr := by unfold Live.runFree; split <;> rfl
@[simp] theorem Live.runFree_host (l : Live) (src : MtSource) :
    (l.runFree src).host = l.host := by unfold Live.runFree; split <;> rfl
@[simp] theorem Live.runFree_load (l : Live) (src : MtSource) :
    (l.runFree src).load = l.load := by unfold Live.runFree; split <;> rfl
@[simp] theorem Live.runFree_plan (l : Live) (src : MtSource) :
    (l.runFree src).plan = l.plan := by unfold Live.runFree; split <;> rfl
@[simp] theorem Live.runFree_ledger (l : Live) (src : MtSource) :
    (l.runFree src).ledger = l.ledger := by unfold Live.runFree; split <;> rfl
@[simp] theorem Live.runFree_audio (l : Live) (src : MtSource) :
    (l.runFree src).audio = l.audio := by unfold Live.runFree; split <;> rfl
@[simp] theorem Live.runFree_valve (l : Live) (src : MtSource) :
    (l.runFree src).valve = l.valve := by unfold Live.runFree; split <;> rfl
@[simp] theorem Live.runFree_fio (l : Live) (src : MtSource) :
    (l.runFree src).fio = l.fio := by unfold Live.runFree; split <;> rfl
@[simp] theorem Live.runFree_led (l : Live) (src : MtSource) :
    (l.runFree src).led = l.led := by unfold Live.runFree; split <;> rfl
@[simp] theorem Live.runFree_can (l : Live) (src : MtSource) :
    (l.runFree src).can = l.can := by unfold Live.runFree; split <;> rfl
@[simp] theorem Live.runFree_nm (l : Live) (src : MtSource) : (l.runFree src).nm = l.nm := by unfold Live.runFree; split <;> rfl
@[simp] theorem Live.runFree_link (l : Live) (src : MtSource) :
    (l.runFree src).link = l.link := by unfold Live.runFree; split <;> rfl
@[simp] theorem Live.runFree_token (l : Live) (src : MtSource) :
    (l.runFree src).token = l.token := by unfold Live.runFree; split <;> rfl
@[simp] theorem Live.runFree_key (l : Live) (src : MtSource) :
    (l.runFree src).key = l.key := by unfold Live.runFree; split <;> rfl
@[simp] theorem Live.runFree_f1 (l : Live) (src : MtSource) : (l.runFree src).f1 = l.f1 := by unfold Live.runFree; split <;> rfl
@[simp] theorem Live.runFree_param (l : Live) (src : MtSource) :
    (l.runFree src).param = l.param := by unfold Live.runFree; split <;> rfl
@[simp] theorem Live.runFree_sup (l : Live) (src : MtSource) :
    (l.runFree src).sup = l.sup := by unfold Live.runFree; split <;> rfl
@[simp] theorem Live.runFree_fwu (l : Live) (src : MtSource) :
    (l.runFree src).fwu = l.fwu := by unfold Live.runFree; split <;> rfl

@[simp] theorem Live.rebaseSync_mt (l : Live) (old now : Nat) : (l.rebaseSync old now).mt = l.mt := rfl
@[simp] theorem Live.rebaseSync_arch (l : Live) (old now : Nat) : (l.rebaseSync old now).arch = l.arch := rfl
@[simp] theorem Live.rebaseSync_pwr (l : Live) (old now : Nat) : (l.rebaseSync old now).pwr = l.pwr := rfl
@[simp] theorem Live.rebaseSync_host (l : Live) (old now : Nat) : (l.rebaseSync old now).host = l.host := rfl
@[simp] theorem Live.rebaseSync_load (l : Live) (old now : Nat) : (l.rebaseSync old now).load = l.load := rfl
@[simp] theorem Live.rebaseSync_plan (l : Live) (old now : Nat) : (l.rebaseSync old now).plan = l.plan := rfl
@[simp] theorem Live.rebaseSync_ledger (l : Live) (old now : Nat) : (l.rebaseSync old now).ledger = l.ledger := rfl
@[simp] theorem Live.rebaseSync_audio (l : Live) (old now : Nat) : (l.rebaseSync old now).audio = l.audio := rfl
@[simp] theorem Live.rebaseSync_valve (l : Live) (old now : Nat) : (l.rebaseSync old now).valve = l.valve := rfl
@[simp] theorem Live.rebaseSync_fio (l : Live) (old now : Nat) : (l.rebaseSync old now).fio = l.fio := rfl
@[simp] theorem Live.rebaseSync_led (l : Live) (old now : Nat) : (l.rebaseSync old now).led = l.led := rfl
@[simp] theorem Live.rebaseSync_nm (l : Live) (old now : Nat) : (l.rebaseSync old now).nm = l.nm := rfl
@[simp] theorem Live.rebaseSync_token (l : Live) (old now : Nat) : (l.rebaseSync old now).token = l.token := rfl
@[simp] theorem Live.rebaseSync_key (l : Live) (old now : Nat) : (l.rebaseSync old now).key = l.key := rfl
@[simp] theorem Live.rebaseSync_f1 (l : Live) (old now : Nat) : (l.rebaseSync old now).f1 = l.f1 := rfl
@[simp] theorem Live.rebaseSync_param (l : Live) (old now : Nat) : (l.rebaseSync old now).param = l.param := rfl
@[simp] theorem Live.rebaseSync_sup (l : Live) (old now : Nat) : (l.rebaseSync old now).sup = l.sup := rfl
@[simp] theorem Live.rebaseSync_fwu (l : Live) (old now : Nat) : (l.rebaseSync old now).fwu = l.fwu := rfl

@[simp] theorem Live.driveTrx_mt (l : Live) : (l.driveTrx).mt = l.mt := rfl
@[simp] theorem Live.driveTrx_arch (l : Live) : (l.driveTrx).arch = l.arch := rfl
@[simp] theorem Live.driveTrx_pwr (l : Live) : (l.driveTrx).pwr = l.pwr := rfl
@[simp] theorem Live.driveTrx_host (l : Live) : (l.driveTrx).host = l.host := rfl
@[simp] theorem Live.driveTrx_load (l : Live) : (l.driveTrx).load = l.load := rfl
@[simp] theorem Live.driveTrx_plan (l : Live) : (l.driveTrx).plan = l.plan := rfl
@[simp] theorem Live.driveTrx_ledger (l : Live) : (l.driveTrx).ledger = l.ledger := rfl
@[simp] theorem Live.driveTrx_audio (l : Live) : (l.driveTrx).audio = l.audio := rfl
@[simp] theorem Live.driveTrx_valve (l : Live) : (l.driveTrx).valve = l.valve := rfl
@[simp] theorem Live.driveTrx_fio (l : Live) : (l.driveTrx).fio = l.fio := rfl
@[simp] theorem Live.driveTrx_led (l : Live) : (l.driveTrx).led = l.led := rfl
@[simp] theorem Live.driveTrx_nm (l : Live) : (l.driveTrx).nm = l.nm := rfl
@[simp] theorem Live.driveTrx_link (l : Live) : (l.driveTrx).link = l.link := rfl
@[simp] theorem Live.driveTrx_token (l : Live) : (l.driveTrx).token = l.token := rfl
@[simp] theorem Live.driveTrx_key (l : Live) : (l.driveTrx).key = l.key := rfl
@[simp] theorem Live.driveTrx_f1 (l : Live) : (l.driveTrx).f1 = l.f1 := rfl
@[simp] theorem Live.driveTrx_param (l : Live) : (l.driveTrx).param = l.param := rfl
@[simp] theorem Live.driveTrx_sup (l : Live) : (l.driveTrx).sup = l.sup := rfl
@[simp] theorem Live.driveTrx_fwu (l : Live) : (l.driveTrx).fwu = l.fwu := rfl

@[simp] theorem Live.setTx_mt (l : Live) (n k : Nat) (b : Option TxBuf) : (l.setTx n k b).mt = l.mt := rfl
@[simp] theorem Live.setTx_arch (l : Live) (n k : Nat) (b : Option TxBuf) : (l.setTx n k b).arch = l.arch := rfl
@[simp] theorem Live.setTx_pwr (l : Live) (n k : Nat) (b : Option TxBuf) : (l.setTx n k b).pwr = l.pwr := rfl
@[simp] theorem Live.setTx_host (l : Live) (n k : Nat) (b : Option TxBuf) : (l.setTx n k b).host = l.host := rfl
@[simp] theorem Live.setTx_load (l : Live) (n k : Nat) (b : Option TxBuf) : (l.setTx n k b).load = l.load := rfl
@[simp] theorem Live.setTx_plan (l : Live) (n k : Nat) (b : Option TxBuf) : (l.setTx n k b).plan = l.plan := rfl
@[simp] theorem Live.setTx_ledger (l : Live) (n k : Nat) (b : Option TxBuf) : (l.setTx n k b).ledger = l.ledger := rfl
@[simp] theorem Live.setTx_audio (l : Live) (n k : Nat) (b : Option TxBuf) : (l.setTx n k b).audio = l.audio := rfl
@[simp] theorem Live.setTx_valve (l : Live) (n k : Nat) (b : Option TxBuf) : (l.setTx n k b).valve = l.valve := rfl
@[simp] theorem Live.setTx_fio (l : Live) (n k : Nat) (b : Option TxBuf) : (l.setTx n k b).fio = l.fio := rfl
@[simp] theorem Live.setTx_led (l : Live) (n k : Nat) (b : Option TxBuf) : (l.setTx n k b).led = l.led := rfl
@[simp] theorem Live.setTx_nm (l : Live) (n k : Nat) (b : Option TxBuf) : (l.setTx n k b).nm = l.nm := rfl
@[simp] theorem Live.setTx_link (l : Live) (n k : Nat) (b : Option TxBuf) : (l.setTx n k b).link = l.link := rfl
@[simp] theorem Live.setTx_token (l : Live) (n k : Nat) (b : Option TxBuf) : (l.setTx n k b).token = l.token := rfl
@[simp] theorem Live.setTx_key (l : Live) (n k : Nat) (b : Option TxBuf) : (l.setTx n k b).key = l.key := rfl
@[simp] theorem Live.setTx_f1 (l : Live) (n k : Nat) (b : Option TxBuf) : (l.setTx n k b).f1 = l.f1 := rfl
@[simp] theorem Live.setTx_param (l : Live) (n k : Nat) (b : Option TxBuf) : (l.setTx n k b).param = l.param := rfl
@[simp] theorem Live.setTx_sup (l : Live) (n k : Nat) (b : Option TxBuf) : (l.setTx n k b).sup = l.sup := rfl
@[simp] theorem Live.setTx_fwu (l : Live) (n k : Nat) (b : Option TxBuf) : (l.setTx n k b).fwu = l.fwu := rfl

@[simp] theorem Live.chooseTx_mt (l : Live) (n : Nat) : (l.chooseTx n).mt = l.mt := rfl
@[simp] theorem Live.chooseTx_arch (l : Live) (n : Nat) : (l.chooseTx n).arch = l.arch := rfl
@[simp] theorem Live.chooseTx_pwr (l : Live) (n : Nat) : (l.chooseTx n).pwr = l.pwr := rfl
@[simp] theorem Live.chooseTx_host (l : Live) (n : Nat) : (l.chooseTx n).host = l.host := rfl
@[simp] theorem Live.chooseTx_load (l : Live) (n : Nat) : (l.chooseTx n).load = l.load := rfl
@[simp] theorem Live.chooseTx_plan (l : Live) (n : Nat) : (l.chooseTx n).plan = l.plan := rfl
@[simp] theorem Live.chooseTx_ledger (l : Live) (n : Nat) : (l.chooseTx n).ledger = l.ledger := rfl
@[simp] theorem Live.chooseTx_audio (l : Live) (n : Nat) : (l.chooseTx n).audio = l.audio := rfl
@[simp] theorem Live.chooseTx_valve (l : Live) (n : Nat) : (l.chooseTx n).valve = l.valve := rfl
@[simp] theorem Live.chooseTx_fio (l : Live) (n : Nat) : (l.chooseTx n).fio = l.fio := rfl
@[simp] theorem Live.chooseTx_led (l : Live) (n : Nat) : (l.chooseTx n).led = l.led := rfl
@[simp] theorem Live.chooseTx_nm (l : Live) (n : Nat) : (l.chooseTx n).nm = l.nm := rfl
@[simp] theorem Live.chooseTx_link (l : Live) (n : Nat) : (l.chooseTx n).link = l.link := rfl
@[simp] theorem Live.chooseTx_token (l : Live) (n : Nat) : (l.chooseTx n).token = l.token := rfl
@[simp] theorem Live.chooseTx_key (l : Live) (n : Nat) : (l.chooseTx n).key = l.key := rfl
@[simp] theorem Live.chooseTx_f1 (l : Live) (n : Nat) : (l.chooseTx n).f1 = l.f1 := rfl
@[simp] theorem Live.chooseTx_param (l : Live) (n : Nat) : (l.chooseTx n).param = l.param := rfl
@[simp] theorem Live.chooseTx_sup (l : Live) (n : Nat) : (l.chooseTx n).sup = l.sup := rfl
@[simp] theorem Live.chooseTx_fwu (l : Live) (n : Nat) : (l.chooseTx n).fwu = l.fwu := rfl

@[simp] theorem Live.setEdge_mt (l : Live) (e : Edge) : (l.setEdge e).mt = l.mt := rfl
@[simp] theorem Live.setEdge_arch (l : Live) (e : Edge) : (l.setEdge e).arch = l.arch := rfl
@[simp] theorem Live.setEdge_pwr (l : Live) (e : Edge) : (l.setEdge e).pwr = l.pwr := rfl
@[simp] theorem Live.setEdge_host (l : Live) (e : Edge) : (l.setEdge e).host = l.host := rfl
@[simp] theorem Live.setEdge_load (l : Live) (e : Edge) : (l.setEdge e).load = l.load := rfl
@[simp] theorem Live.setEdge_ledger (l : Live) (e : Edge) : (l.setEdge e).ledger = l.ledger := rfl
@[simp] theorem Live.setEdge_audio (l : Live) (e : Edge) : (l.setEdge e).audio = l.audio := rfl
@[simp] theorem Live.setEdge_valve (l : Live) (e : Edge) : (l.setEdge e).valve = l.valve := rfl
@[simp] theorem Live.setEdge_fio (l : Live) (e : Edge) : (l.setEdge e).fio = l.fio := rfl
@[simp] theorem Live.setEdge_led (l : Live) (e : Edge) : (l.setEdge e).led = l.led := rfl
@[simp] theorem Live.setEdge_can (l : Live) (e : Edge) : (l.setEdge e).can = l.can := rfl
@[simp] theorem Live.setEdge_nm (l : Live) (e : Edge) : (l.setEdge e).nm = l.nm := rfl
@[simp] theorem Live.setEdge_link (l : Live) (e : Edge) : (l.setEdge e).link = l.link := rfl
@[simp] theorem Live.setEdge_token (l : Live) (e : Edge) : (l.setEdge e).token = l.token := rfl
@[simp] theorem Live.setEdge_key (l : Live) (e : Edge) : (l.setEdge e).key = l.key := rfl
@[simp] theorem Live.setEdge_f1 (l : Live) (e : Edge) : (l.setEdge e).f1 = l.f1 := rfl
@[simp] theorem Live.setEdge_param (l : Live) (e : Edge) : (l.setEdge e).param = l.param := rfl
@[simp] theorem Live.setEdge_sup (l : Live) (e : Edge) : (l.setEdge e).sup = l.sup := rfl
@[simp] theorem Live.setEdge_fwu (l : Live) (e : Edge) : (l.setEdge e).fwu = l.fwu := rfl

@[simp] theorem Live.removeEdge_mt (l : Live) (id : Nat) : (l.removeEdge id).mt = l.mt := rfl
@[simp] theorem Live.removeEdge_arch (l : Live) (id : Nat) : (l.removeEdge id).arch = l.arch := rfl
@[simp] theorem Live.removeEdge_pwr (l : Live) (id : Nat) : (l.removeEdge id).pwr = l.pwr := rfl
@[simp] theorem Live.removeEdge_host (l : Live) (id : Nat) : (l.removeEdge id).host = l.host := rfl
@[simp] theorem Live.removeEdge_load (l : Live) (id : Nat) : (l.removeEdge id).load = l.load := rfl
@[simp] theorem Live.removeEdge_ledger (l : Live) (id : Nat) : (l.removeEdge id).ledger = l.ledger := rfl
@[simp] theorem Live.removeEdge_audio (l : Live) (id : Nat) : (l.removeEdge id).audio = l.audio := rfl
@[simp] theorem Live.removeEdge_valve (l : Live) (id : Nat) : (l.removeEdge id).valve = l.valve := rfl
@[simp] theorem Live.removeEdge_fio (l : Live) (id : Nat) : (l.removeEdge id).fio = l.fio := rfl
@[simp] theorem Live.removeEdge_led (l : Live) (id : Nat) : (l.removeEdge id).led = l.led := rfl
@[simp] theorem Live.removeEdge_can (l : Live) (id : Nat) : (l.removeEdge id).can = l.can := rfl
@[simp] theorem Live.removeEdge_nm (l : Live) (id : Nat) : (l.removeEdge id).nm = l.nm := rfl
@[simp] theorem Live.removeEdge_link (l : Live) (id : Nat) : (l.removeEdge id).link = l.link := rfl
@[simp] theorem Live.removeEdge_token (l : Live) (id : Nat) : (l.removeEdge id).token = l.token := rfl
@[simp] theorem Live.removeEdge_key (l : Live) (id : Nat) : (l.removeEdge id).key = l.key := rfl
@[simp] theorem Live.removeEdge_f1 (l : Live) (id : Nat) : (l.removeEdge id).f1 = l.f1 := rfl
@[simp] theorem Live.removeEdge_param (l : Live) (id : Nat) : (l.removeEdge id).param = l.param := rfl
@[simp] theorem Live.removeEdge_sup (l : Live) (id : Nat) : (l.removeEdge id).sup = l.sup := rfl
@[simp] theorem Live.removeEdge_fwu (l : Live) (id : Nat) : (l.removeEdge id).fwu = l.fwu := rfl

@[simp] theorem Live.bookEdge_mt (l : Live) (edge : Nat) (src : Source) (u : Nat) (steps : Steps) :
    (l.bookEdge edge src u steps).mt = l.mt := rfl
@[simp] theorem Live.bookEdge_arch (l : Live) (edge : Nat) (src : Source) (u : Nat) (steps : Steps) :
    (l.bookEdge edge src u steps).arch = l.arch := rfl
@[simp] theorem Live.bookEdge_pwr (l : Live) (edge : Nat) (src : Source) (u : Nat) (steps : Steps) :
    (l.bookEdge edge src u steps).pwr = l.pwr := rfl
@[simp] theorem Live.bookEdge_host (l : Live) (edge : Nat) (src : Source) (u : Nat) (steps : Steps) :
    (l.bookEdge edge src u steps).host = l.host := rfl
@[simp] theorem Live.bookEdge_load (l : Live) (edge : Nat) (src : Source) (u : Nat) (steps : Steps) :
    (l.bookEdge edge src u steps).load = l.load := rfl
@[simp] theorem Live.bookEdge_ledger (l : Live) (edge : Nat) (src : Source) (u : Nat) (steps : Steps) :
    (l.bookEdge edge src u steps).ledger = l.ledger := rfl
@[simp] theorem Live.bookEdge_audio (l : Live) (edge : Nat) (src : Source) (u : Nat) (steps : Steps) :
    (l.bookEdge edge src u steps).audio = l.audio := rfl
@[simp] theorem Live.bookEdge_valve (l : Live) (edge : Nat) (src : Source) (u : Nat) (steps : Steps) :
    (l.bookEdge edge src u steps).valve = l.valve := rfl
@[simp] theorem Live.bookEdge_fio (l : Live) (edge : Nat) (src : Source) (u : Nat) (steps : Steps) :
    (l.bookEdge edge src u steps).fio = l.fio := rfl
@[simp] theorem Live.bookEdge_led (l : Live) (edge : Nat) (src : Source) (u : Nat) (steps : Steps) :
    (l.bookEdge edge src u steps).led = l.led := rfl
@[simp] theorem Live.bookEdge_can (l : Live) (edge : Nat) (src : Source) (u : Nat) (steps : Steps) :
    (l.bookEdge edge src u steps).can = l.can := rfl
@[simp] theorem Live.bookEdge_nm (l : Live) (edge : Nat) (src : Source) (u : Nat) (steps : Steps) :
    (l.bookEdge edge src u steps).nm = l.nm := rfl
@[simp] theorem Live.bookEdge_link (l : Live) (edge : Nat) (src : Source) (u : Nat) (steps : Steps) :
    (l.bookEdge edge src u steps).link = l.link := rfl
@[simp] theorem Live.bookEdge_token (l : Live) (edge : Nat) (src : Source) (u : Nat) (steps : Steps) :
    (l.bookEdge edge src u steps).token = l.token := rfl
@[simp] theorem Live.bookEdge_key (l : Live) (edge : Nat) (src : Source) (u : Nat) (steps : Steps) :
    (l.bookEdge edge src u steps).key = l.key := rfl
@[simp] theorem Live.bookEdge_f1 (l : Live) (edge : Nat) (src : Source) (u : Nat) (steps : Steps) :
    (l.bookEdge edge src u steps).f1 = l.f1 := rfl
@[simp] theorem Live.bookEdge_param (l : Live) (edge : Nat) (src : Source) (u : Nat) (steps : Steps) :
    (l.bookEdge edge src u steps).param = l.param := rfl
@[simp] theorem Live.bookEdge_sup (l : Live) (edge : Nat) (src : Source) (u : Nat) (steps : Steps) :
    (l.bookEdge edge src u steps).sup = l.sup := rfl
@[simp] theorem Live.bookEdge_fwu (l : Live) (edge : Nat) (src : Source) (u : Nat) (steps : Steps) :
    (l.bookEdge edge src u steps).fwu = l.fwu := rfl

@[simp] theorem Live.unbookEdge_mt (l : Live) (edge : Nat) : (l.unbookEdge edge).mt = l.mt := rfl
@[simp] theorem Live.unbookEdge_arch (l : Live) (edge : Nat) : (l.unbookEdge edge).arch = l.arch := rfl
@[simp] theorem Live.unbookEdge_pwr (l : Live) (edge : Nat) : (l.unbookEdge edge).pwr = l.pwr := rfl
@[simp] theorem Live.unbookEdge_host (l : Live) (edge : Nat) : (l.unbookEdge edge).host = l.host := rfl
@[simp] theorem Live.unbookEdge_load (l : Live) (edge : Nat) : (l.unbookEdge edge).load = l.load := rfl
@[simp] theorem Live.unbookEdge_ledger (l : Live) (edge : Nat) : (l.unbookEdge edge).ledger = l.ledger := rfl
@[simp] theorem Live.unbookEdge_audio (l : Live) (edge : Nat) : (l.unbookEdge edge).audio = l.audio := rfl
@[simp] theorem Live.unbookEdge_valve (l : Live) (edge : Nat) : (l.unbookEdge edge).valve = l.valve := rfl
@[simp] theorem Live.unbookEdge_fio (l : Live) (edge : Nat) : (l.unbookEdge edge).fio = l.fio := rfl
@[simp] theorem Live.unbookEdge_led (l : Live) (edge : Nat) : (l.unbookEdge edge).led = l.led := rfl
@[simp] theorem Live.unbookEdge_can (l : Live) (edge : Nat) : (l.unbookEdge edge).can = l.can := rfl
@[simp] theorem Live.unbookEdge_nm (l : Live) (edge : Nat) : (l.unbookEdge edge).nm = l.nm := rfl
@[simp] theorem Live.unbookEdge_link (l : Live) (edge : Nat) : (l.unbookEdge edge).link = l.link := rfl
@[simp] theorem Live.unbookEdge_token (l : Live) (edge : Nat) : (l.unbookEdge edge).token = l.token := rfl
@[simp] theorem Live.unbookEdge_key (l : Live) (edge : Nat) : (l.unbookEdge edge).key = l.key := rfl
@[simp] theorem Live.unbookEdge_f1 (l : Live) (edge : Nat) : (l.unbookEdge edge).f1 = l.f1 := rfl
@[simp] theorem Live.unbookEdge_param (l : Live) (edge : Nat) : (l.unbookEdge edge).param = l.param := rfl
@[simp] theorem Live.unbookEdge_sup (l : Live) (edge : Nat) : (l.unbookEdge edge).sup = l.sup := rfl
@[simp] theorem Live.unbookEdge_fwu (l : Live) (edge : Nat) : (l.unbookEdge edge).fwu = l.fwu := rfl

@[simp] theorem Live.planDirty_mt (l : Live) : (l.planDirty).mt = l.mt := rfl
@[simp] theorem Live.planDirty_arch (l : Live) : (l.planDirty).arch = l.arch := rfl
@[simp] theorem Live.planDirty_pwr (l : Live) : (l.planDirty).pwr = l.pwr := rfl
@[simp] theorem Live.planDirty_host (l : Live) : (l.planDirty).host = l.host := rfl
@[simp] theorem Live.planDirty_load (l : Live) : (l.planDirty).load = l.load := rfl
@[simp] theorem Live.planDirty_ledger (l : Live) : (l.planDirty).ledger = l.ledger := rfl
@[simp] theorem Live.planDirty_audio (l : Live) : (l.planDirty).audio = l.audio := rfl
@[simp] theorem Live.planDirty_valve (l : Live) : (l.planDirty).valve = l.valve := rfl
@[simp] theorem Live.planDirty_fio (l : Live) : (l.planDirty).fio = l.fio := rfl
@[simp] theorem Live.planDirty_led (l : Live) : (l.planDirty).led = l.led := rfl
@[simp] theorem Live.planDirty_can (l : Live) : (l.planDirty).can = l.can := rfl
@[simp] theorem Live.planDirty_nm (l : Live) : (l.planDirty).nm = l.nm := rfl
@[simp] theorem Live.planDirty_link (l : Live) : (l.planDirty).link = l.link := rfl
@[simp] theorem Live.planDirty_token (l : Live) : (l.planDirty).token = l.token := rfl
@[simp] theorem Live.planDirty_key (l : Live) : (l.planDirty).key = l.key := rfl
@[simp] theorem Live.planDirty_f1 (l : Live) : (l.planDirty).f1 = l.f1 := rfl
@[simp] theorem Live.planDirty_param (l : Live) : (l.planDirty).param = l.param := rfl
@[simp] theorem Live.planDirty_sup (l : Live) : (l.planDirty).sup = l.sup := rfl
@[simp] theorem Live.planDirty_fwu (l : Live) : (l.planDirty).fwu = l.fwu := rfl

@[simp] theorem Live.askSlot_mt (l : Live) (slot : Standing) (cmd : LoadCmd) (onB : Bool) (owner : Option (MbRef × Nat)) :
    (l.askSlot slot cmd onB owner).mt = l.mt := rfl
@[simp] theorem Live.askSlot_arch (l : Live) (slot : Standing) (cmd : LoadCmd) (onB : Bool) (owner : Option (MbRef × Nat)) :
    (l.askSlot slot cmd onB owner).arch = l.arch := rfl
@[simp] theorem Live.askSlot_pwr (l : Live) (slot : Standing) (cmd : LoadCmd) (onB : Bool) (owner : Option (MbRef × Nat)) :
    (l.askSlot slot cmd onB owner).pwr = l.pwr := rfl
@[simp] theorem Live.askSlot_host (l : Live) (slot : Standing) (cmd : LoadCmd) (onB : Bool) (owner : Option (MbRef × Nat)) :
    (l.askSlot slot cmd onB owner).host = l.host := rfl
@[simp] theorem Live.askSlot_load (l : Live) (slot : Standing) (cmd : LoadCmd) (onB : Bool) (owner : Option (MbRef × Nat)) :
    (l.askSlot slot cmd onB owner).load = l.load := rfl
@[simp] theorem Live.askSlot_ledger (l : Live) (slot : Standing) (cmd : LoadCmd) (onB : Bool) (owner : Option (MbRef × Nat)) :
    (l.askSlot slot cmd onB owner).ledger = l.ledger := rfl
@[simp] theorem Live.askSlot_audio (l : Live) (slot : Standing) (cmd : LoadCmd) (onB : Bool) (owner : Option (MbRef × Nat)) :
    (l.askSlot slot cmd onB owner).audio = l.audio := rfl
@[simp] theorem Live.askSlot_valve (l : Live) (slot : Standing) (cmd : LoadCmd) (onB : Bool) (owner : Option (MbRef × Nat)) :
    (l.askSlot slot cmd onB owner).valve = l.valve := rfl
@[simp] theorem Live.askSlot_fio (l : Live) (slot : Standing) (cmd : LoadCmd) (onB : Bool) (owner : Option (MbRef × Nat)) :
    (l.askSlot slot cmd onB owner).fio = l.fio := rfl
@[simp] theorem Live.askSlot_led (l : Live) (slot : Standing) (cmd : LoadCmd) (onB : Bool) (owner : Option (MbRef × Nat)) :
    (l.askSlot slot cmd onB owner).led = l.led := rfl
@[simp] theorem Live.askSlot_can (l : Live) (slot : Standing) (cmd : LoadCmd) (onB : Bool) (owner : Option (MbRef × Nat)) :
    (l.askSlot slot cmd onB owner).can = l.can := rfl
@[simp] theorem Live.askSlot_nm (l : Live) (slot : Standing) (cmd : LoadCmd) (onB : Bool) (owner : Option (MbRef × Nat)) :
    (l.askSlot slot cmd onB owner).nm = l.nm := rfl
@[simp] theorem Live.askSlot_link (l : Live) (slot : Standing) (cmd : LoadCmd) (onB : Bool) (owner : Option (MbRef × Nat)) :
    (l.askSlot slot cmd onB owner).link = l.link := rfl
@[simp] theorem Live.askSlot_token (l : Live) (slot : Standing) (cmd : LoadCmd) (onB : Bool) (owner : Option (MbRef × Nat)) :
    (l.askSlot slot cmd onB owner).token = l.token := rfl
@[simp] theorem Live.askSlot_key (l : Live) (slot : Standing) (cmd : LoadCmd) (onB : Bool) (owner : Option (MbRef × Nat)) :
    (l.askSlot slot cmd onB owner).key = l.key := rfl
@[simp] theorem Live.askSlot_f1 (l : Live) (slot : Standing) (cmd : LoadCmd) (onB : Bool) (owner : Option (MbRef × Nat)) :
    (l.askSlot slot cmd onB owner).f1 = l.f1 := rfl
@[simp] theorem Live.askSlot_param (l : Live) (slot : Standing) (cmd : LoadCmd) (onB : Bool) (owner : Option (MbRef × Nat)) :
    (l.askSlot slot cmd onB owner).param = l.param := rfl
@[simp] theorem Live.askSlot_sup (l : Live) (slot : Standing) (cmd : LoadCmd) (onB : Bool) (owner : Option (MbRef × Nat)) :
    (l.askSlot slot cmd onB owner).sup = l.sup := rfl
@[simp] theorem Live.askSlot_fwu (l : Live) (slot : Standing) (cmd : LoadCmd) (onB : Bool) (owner : Option (MbRef × Nat)) :
    (l.askSlot slot cmd onB owner).fwu = l.fwu := rfl

@[simp] theorem Live.dropSlot_mt (l : Live) (src : Source) :
    (l.dropSlot src).mt = l.mt := by unfold Live.dropSlot; dsimp only; split <;> rfl
@[simp] theorem Live.dropSlot_arch (l : Live) (src : Source) :
    (l.dropSlot src).arch = l.arch := by unfold Live.dropSlot; dsimp only; split <;> rfl
@[simp] theorem Live.dropSlot_pwr (l : Live) (src : Source) :
    (l.dropSlot src).pwr = l.pwr := by unfold Live.dropSlot; dsimp only; split <;> rfl
@[simp] theorem Live.dropSlot_host (l : Live) (src : Source) :
    (l.dropSlot src).host = l.host := by unfold Live.dropSlot; dsimp only; split <;> rfl
@[simp] theorem Live.dropSlot_load (l : Live) (src : Source) :
    (l.dropSlot src).load = l.load := by unfold Live.dropSlot; dsimp only; split <;> rfl
@[simp] theorem Live.dropSlot_ledger (l : Live) (src : Source) :
    (l.dropSlot src).ledger = l.ledger := by unfold Live.dropSlot; dsimp only; split <;> rfl
@[simp] theorem Live.dropSlot_audio (l : Live) (src : Source) :
    (l.dropSlot src).audio = l.audio := by unfold Live.dropSlot; dsimp only; split <;> rfl
@[simp] theorem Live.dropSlot_valve (l : Live) (src : Source) :
    (l.dropSlot src).valve = l.valve := by unfold Live.dropSlot; dsimp only; split <;> rfl
@[simp] theorem Live.dropSlot_fio (l : Live) (src : Source) :
    (l.dropSlot src).fio = l.fio := by unfold Live.dropSlot; dsimp only; split <;> rfl
@[simp] theorem Live.dropSlot_led (l : Live) (src : Source) :
    (l.dropSlot src).led = l.led := by unfold Live.dropSlot; dsimp only; split <;> rfl
@[simp] theorem Live.dropSlot_can (l : Live) (src : Source) :
    (l.dropSlot src).can = l.can := by unfold Live.dropSlot; dsimp only; split <;> rfl
@[simp] theorem Live.dropSlot_nm (l : Live) (src : Source) :
    (l.dropSlot src).nm = l.nm := by unfold Live.dropSlot; dsimp only; split <;> rfl
@[simp] theorem Live.dropSlot_link (l : Live) (src : Source) :
    (l.dropSlot src).link = l.link := by unfold Live.dropSlot; dsimp only; split <;> rfl
@[simp] theorem Live.dropSlot_token (l : Live) (src : Source) :
    (l.dropSlot src).token = l.token := by unfold Live.dropSlot; dsimp only; split <;> rfl
@[simp] theorem Live.dropSlot_key (l : Live) (src : Source) :
    (l.dropSlot src).key = l.key := by unfold Live.dropSlot; dsimp only; split <;> rfl
@[simp] theorem Live.dropSlot_f1 (l : Live) (src : Source) :
    (l.dropSlot src).f1 = l.f1 := by unfold Live.dropSlot; dsimp only; split <;> rfl
@[simp] theorem Live.dropSlot_param (l : Live) (src : Source) :
    (l.dropSlot src).param = l.param := by unfold Live.dropSlot; dsimp only; split <;> rfl
@[simp] theorem Live.dropSlot_sup (l : Live) (src : Source) :
    (l.dropSlot src).sup = l.sup := by unfold Live.dropSlot; dsimp only; split <;> rfl
@[simp] theorem Live.dropSlot_fwu (l : Live) (src : Source) :
    (l.dropSlot src).fwu = l.fwu := by unfold Live.dropSlot; dsimp only; split <;> rfl

/-- A link that is read back after a change of its own. -/
theorem Live.setD2d_self (l : Live) (i : Nat) (f : D2dLink → D2dLink) : (l.setD2d i f).arch.d2d = upd l.arch.d2d i f := rfl

/-- Taking a slot out leaves the slots of every other source. -/
theorem Live.dropSlot_want (l : Live) (src : Source) (s : Standing) (h : s.src ≠ src) :
    s ∈ (l.dropSlot src).plan.want ↔ s ∈ l.plan.want := by
  have hb : (s.src != src) = true := by simpa using h
  unfold Live.dropSlot
  dsimp only
  split <;> simp [Live.planDirty, hb]

/-- A command that acts on no object waits for no other command (R80). -/
theorem Mailbox.clashes_none (b c : Mailbox) (h : objectsOf b.opc b.payload = []) : b.clashes c = false := by
  simp [Mailbox.clashes, h]

/-- The request that executes next under an opcode is the oldest of it, and nothing on its objects goes before. -/
theorem Live.request_some (l : Live) (opc : Nat) (x : MbRef × Mailbox) :
    l.request opc = some x ↔ l.oldest opc = some x ∧ l.overtakes x.2 = false := by
  simp [Live.request, Option.filter_eq_some_iff]

end Sys2Proof.Machine
end

