-- ==== Sys2Proof/Tests/Slice0.lean ====
section
/-! SUPPORT. The model's own tests: ill-formed commands that the check refuses, words of the Dvorgil encoding written out from
the spec, and for every statement with hypotheses states and operands that meet them. -/

namespace Sys2Proof.Tests

set_option Elab.async false

open Sys2Proof.Machine

/-- A module that has run for 1000 s since it was powered, in RUN at 24 V. -/
def on : State := State.reset.onLive fun l =>
  { l with mt := { l.mt with now := 1000000000000 }, pwr := { l.pwr with
      powered := true, mode := .run, vbat := List.replicate 5 24000, present := List.replicate 4 true, railMv := 1000 },
           sup := { l.sup with phase := .running } }

/-- A request in a mailbox, admitted: opcode, flags and payload (R74). -/
def box (opc : Nat) (p : List Byte) (flags : Nat := 0) : Mailbox :=
  { st := .busy, stage := .admitted, seq := 0, rungAt := 0,
    bytes := (le 2 opc ++ le 2 0 ++ le 2 p.length ++ le 1 0x7E ++ le 1 1 ++ le 2 flags ++ List.replicate 6 0 ++ p ++
      List.replicate 512 0).take 512 }

/-- The running module changed by f, with that request in mailbox 0. -/
def asks (opc : Nat) (p : List Byte) (f : Live → Live := id) (flags : Nat := 0) : State := on.onLive fun l =>
  f { l with host := { l.host with mb := box opc p flags :: List.replicate 7 Mailbox.empty } }

/-- n bytes of 0. -/
def zs (n : Nat) : List Byte := List.replicate n 0

/-- The running module changed by f. -/
def onWith (f : Live → Live) : State := on.onLive f

/-- A start at 12 V that finds everything in order. -/
def start : StartData :=
  { mv := List.replicate 5 12000, railMv := 1000, vholdMv := 12000, readable := [true, true], restarted := [true, true],
    copyOk := [false, false], moved := [0, 0], skew := [0, 0], ledgerOk := true, configOk := true, gateOk := true,
    maskOk := true, badPages := [], clamping := [], jumper := false, strap := 1, sealKohm := 0, flashOk := true }

/-- A die that can be read and has not changed. -/
def dieRead0 : DieRead := { readable := true, restarted := false, copyOk := true, moved := 0, skew := 0, clamping := [] }

/-- The first bytes of the header of an application image in ACTIVE (R450). -/
def appFlash : Memory := [(0x180000, 0x5A), (0x180001, 0x49), (0x180002, 0x4D), (0x180003, 0x47), (0x180004, 1), (0x180005, 1)]

/-- An edge that turns load channel 0 on, in this phase, for the tick at MT 0. -/
def edge0 (ph : EdgePhase) : Edge :=
  { id := 5, work := .load 0 0 true, prio := 4, latUs := 200, arrived := 999999000000, phase := ph, tick := 0, bySag := false,
    byShed := false, heldAt := some 999999000000, deferAt := none, owner := none }

/-- The running module with f applied to load channel 47, to field channel 31 or to valve 11. -/
def onCh47 (f : LoadCh → LoadCh) : State := onWith fun l => l.setCh 47 f
def onFio31 (f : FioCh → FioCh) : State := onWith fun l => l.setFio 31 f
def onValve11 (f : Valve → Valve) : State := onWith fun l => l.setValve 11 f

/-- n changes staged. -/
def full (n : Nat) (l : Live) : Live := { l with host := { l.host with
  staged := List.replicate n { seq := 0, since := 0, change := .show_ 0, group := 0, amount := 0, rate := 0, struck := false } } }

/-- A LOAD.CONFIG of channel 47 with the defaults of R99, and one of a group of channels 46 and 47. -/
def loadCfg (ch par : Byte) : List Byte :=
  [ch, 0, par, 4, 2, 0] ++ le 2 200 ++ le 2 75 ++ [4, 10] ++ le 2 20 ++ le 2 1000 ++ [3, 0] ++ le 2 100 ++ zs 16
def loadCfg47 : List Byte := loadCfg 47 0
def loadCfg46 : List Byte := loadCfg 46 1

/-- A VALVE.CONFIG of valve 11 at ends of its ranges (R215). -/
def valveCfg11 : List Byte :=
  [11, 7, 7, 2, 7, 60] ++ le 2 5 ++ le 2 5 ++ le 2 1000 ++ le 2 500 ++ le 2 40000 ++ [1, 0, 90, 1, 1, 10] ++ le 2 999 ++ le 2 1000 ++
    le 2 200 ++ le 2 100 ++ le 2 2000 ++ [255, 0] ++ le 2 200 ++ le 4 500000 ++ le 2 65535 ++ [0, 0]

/-- A fire of valve 11 that waits. -/
def fire11 : FireWait :=
  { owner := none, pulse := some 10, arrived := 0, deadline := 0, earliest := 0, tick := none, edge := 1, refire := false }

/-- A line slot in which nothing is measured. -/
def slot0 : SlotData := { high := [], low := [], limit := false, rowMv := 0, rowMa := 0, probe := [], probeMv := [], sink10mw := 0 }

/-- A LED.CONFIG at ends of its ranges (R248), and a FIO.CONFIG of the output group 28 to 31 (R274). -/
def ledCfgMax : List Byte := [16, 11] ++ le 2 256 ++ zs 24 ++ [40, 1, 1, 40] ++ [80, 20, 20, 80] ++ [30, 10] ++ zs 4 ++ le 2 60 ++ zs 4
def fioCfg28 : List Byte :=
  [28, 2, 0, 0, 57, 0, 0, 2] ++ le 2 0 ++ le 2 1000 ++ [7, 15] ++ le 2 60000 ++ le 2 20 ++ le 2 0 ++ zs 4

/-- A programme with input 7 as its source, in priority 7. -/
def tdm7 : Programme := { id := 9, kind := 1, src := 7, prio := 7, loop := false, repeats := 0, startMt := 0, chime := false }
def playing7 : Playing := { prog := tdm7, started := false, pos := 0, passes := 0, void := false, fade := none }

/-- A classical CAN frame with standard identifier 0x503 on CAN0, which is the RING of node 3. -/
def frame3 : CanFrame :=
  { ch := 0, sof := 1, key := 0x503 * 2 ^ 18, brs := false, esi := false, dlc := 8, data := [0, 1, 0, 0, 0, 0, 0, 0], res := false,
    echo := none }
def txBuf0 : TxBuf :=
  { owner := .send 7, key := 0, brs := false, dlc := 8, data := zs 8, deadline := some 0, attempts := 8, freeing := none }
def master0 : TimeMaster := { ch := 0, refMs := 100, refId := 0x503 * 2 ^ 18, rseq := 15, prev := none, period := 0, waits := false }
def source0 : TimeSource :=
  { ch := 0, refMs := 100, refId := 0x503 * 2 ^ 18, propNs := 0, lastSeq := none, lastSof := 0, lastRef := 0, offset := 0, good := 0 }
def speed0 : SpeedSignal :=
  { ch := 0, order := 0, start := 0, bits := 16, scale := 1000, key := 0x503 * 2 ^ 18, timeoutMs := 100, value := none, at_ := 0 }

/-- CAN0 in NORMAL, and besides the sleep ring on it, awake. -/
def onBus (l : Live) : Live := l.setChan 0 fun c => { c with mode := 1 }
def onRing (l : Live) : Live := (onBus l).setNm fun n => { n with cfg := { n.cfg with ch := 0 }, st := .awake }

/-- A link cycle of this kind from the master at this position (R347). -/
def cycleOf (kind pos : Nat) : List Byte :=
  let head := le 1 0 ++ le 1 kind ++ le 1 pos ++ zs 59
  head ++ le 2 (crc16 (head.drop 1)).toNat ++ zs (cycleLen - 64)

/-- The link with one member at position 63. -/
def member63 : RosterEntry := { pos := 63, serial := 9, role := 2, hopNs := 0, alive := true, auth := false }
def onLink (f : LinkState → LinkState) (l : Live) : Live :=
  l.setLink fun k => f { k with cascaded := true, roster := [member63] }

/-- What is kept of an OWNED module, with f applied to its key slots (R405, R413); a slot filled with a key of 0. -/
def owned (f : List KeySlot → List KeySlot) : Kept := { on.kept with cells := { on.kept.cells with
  lcs := 1, owner := { present := true, tagOk := true, material := zs 32 }, slots := f on.kept.cells.slots } }
def keySlot (type attr : Nat) (flags : Nat := 0) : KeySlot :=
  { loaded := true, type := type, attr := attr, domain := 1, flags := flags, material := zs 16, uses := 0, tagOk := true }

/-- The module with a key of attribute KDF in slot 0, with which the link authenticates (R373). -/
def linkKeyed (f : LinkState → LinkState) : State :=
  { onWith (onLink f) with kept := owned fun x => x.set 0 (keySlot 0 3) }
def memberKey (s : State) (serial : Nat) : List Byte := (s.serviceKdf 0 "ZZ-LKMBR" (le 8 serial)).getD []
def auth0 (mac : List Byte) : AuthData :=
  { pos := 63, serial := 9, masterChal := zs 16, memberChal := zs 16, mac := mac, inTime := true }

/-- A token's record, an attempt, a grant and a slot that waits. -/
def token9 : TokenRec := { id := 9, rights := [0, 1], stationary := false, enrolMt := 0, battLow := false, lastCm := none }
def attempt0 : TokenAttempt := { rounds := 0, contended := 0, lastSlot := 0, nextAt := 0, seen := [], enrol := none }
def grant0 : TokenGrant := { rec_ := 0, zone := 7, misses := 0 }
def wait0 : TokenWait := { slot := 15, rec_ := 0, cm := 100, spread := 0, since := 0 }
def auth9State : State := linkKeyed fun k => { k with st := .master }
def auth9 : AuthData := auth0 (cmac (memberKey auth9State 9) (zs 16 ++ le 8 9 ++ le 1 63))

/-- A module whose DRBG runs, and what it draws. -/
def drbg (l : Live) : Live := l.setKey fun k => { k with drbgRunning := true }
def draw (s : State) (n : Nat) : List Byte := (s.live.random n).1.getD []

/-- An OWNED module with slot 63 filled thus, and slot 2 with a key that wraps or derives (R414). -/
def slot63 (k : KeySlot) (two : KeySlot := keySlot 0 2) : Kept := owned fun x => (x.set 63 k).set 2 two
def blob63 : List Byte := [0, 0, 1, 0, 0, 0, 0, 0] ++ zs 16

/-- Peer authentication on CAN0 as identity 3, an exchange with peer 5 and a frame from it (R421). -/
def peerCfg : PeerConfig := { ch := 0, ownId := 3, slot := 0, base := 0x700, tmo := 100 }
def exchange5 (initiator : Bool) : PeerExchange := { peer := 5, initiator := initiator, ca := zs 16, cb := zs 16, lastStep := 0 }
def peerFrame5 (kind : Nat) : CanFrame :=
  { frame3 with key := 0x705 * 2 ^ 18 + 2 ^ 30, dlc := 15, data := le 1 kind ++ [3] ++ zs 62 }
def peering (initiator : Bool) (l : Live) : Live :=
  (onBus l).setKey fun k => { k with peer := some peerCfg, exchanges := [exchange5 initiator] }

/-- A write unit of no command. -/
def unitOf (k : UnitKind) : WriteUnit := { kind := k, owner := none, resp := [], last := true, force := false, since := 0 }

/-- A store in which record 639 is LOST, and a module with such a store (R435). -/
def lost639 : Memory := [(copyAddr 639 false, 1)]
def storing (st : Memory) : Kept := { on.kept with store := st }
def counter127 : CounterDef := { cnt := 127, first := 256, n := 4 }
def counting : Kept := { on.kept with counters := [counter127], store := counterAdd [] counter127 5 }

/-- A session of 8192 bytes with these written blocks; a whole image in STAGING (R450), and a session that has written it. -/
def session0 (written : List (Nat × Nat × Nat)) : UpdSession :=
  { kind := 2, total := 8192, crc := 0, written := written, erased := [], buf := none, lastBlock := 0 }
def image2 : List Byte := ascii "ZIMG" ++ [1, 2] ++ zs 10 ++ le 4 16 ++ zs 508
def inSession (u : UpdSession) (l : Live) : Live := l.setFwu fun f => { f with session := some u }

/-- F1 at the first instruction of the application slot, with K0 0x100 and K5 as given. -/
def core0 (k5 : Word) (k2 : Word := 0) : F1State :=
  { F1State.init with run := .running, pc := 0x180000, k := [0x100, 0, k2, 0, 0x10000000, k5] ++ List.replicate 10 1 }
def coreAt (c : F1State) : State := on.onF1 fun _ => c
def use_ (bits : Nat) (lock sat rep : Bool) : PfxUse := { bits := bits, lock := lock, sat := sat, rep := rep }
/-- A store whose record 639 is VALID in its copy A alone, and one whose record 17 says that KIND 1 is pending Assay. -/
def store639 : Memory := [(327424, 127), (327425, 2), (327432, 1), (327676, 104), (327677, 122), (327678, 123), (327679, 181)]
def body639 : List Byte := [127, 2, 0, 0, 0, 0, 0, 0, 1]
theorem crc639 : crc32 (body639 ++ zs 243) = 0xB57B7A68 := by
  have h0 : body639.foldl crc32Step 0xFFFFFFFF = 0x03CED0BE := by decide +kernel
  have h1 : (zs 40).foldl crc32Step 0x03CED0BE = 0xF84E0307 := by decide +kernel
  have h2 : (zs 40).foldl crc32Step 0xF84E0307 = 0x302D07E5 := by decide +kernel
  have h3 : (zs 40).foldl crc32Step 0x302D07E5 = 0xA73F1ED6 := by decide +kernel
  have h4 : (zs 40).foldl crc32Step 0xA73F1ED6 = 0xABE38DC9 := by decide +kernel
  have h5 : (zs 40).foldl crc32Step 0xABE38DC9 = 0x84AD712A := by decide +kernel
  have h6 : (zs 40).foldl crc32Step 0x84AD712A = 0xAC62C998 := by decide +kernel
  have h7 : (zs 3).foldl crc32Step 0xAC62C998 = 0x4A848597 := by decide +kernel
  have z : zs 243 = zs 40 ++ zs 40 ++ zs 40 ++ zs 40 ++ zs 40 ++ zs 40 ++ zs 3 := by decide +kernel
  rw [z]; simp only [crc32, List.foldl_append, h0, h1, h2, h3, h4, h5, h6, h7]; decide +kernel
def store17 : Memory := [(8960, 17), (8964, 1), (8966, 2), (8968, 1), (8972, 1), (8973, 1), (9212, 174), (9213, 59), (9214, 139), (9215, 39)]
def body17 : List Byte := [17, 0, 0, 0, 1, 0, 2, 0, 1, 0, 0, 0, 1, 1]
theorem crc17 : crc32 (body17 ++ zs 238) = 0x278B3BAE := by
  have h0 : body17.foldl crc32Step 0xFFFFFFFF = 0xDD5EE513 := by decide +kernel
  have h1 : (zs 40).foldl crc32Step 0xDD5EE513 = 0x1816EF41 := by decide +kernel
  have h2 : (zs 40).foldl crc32Step 0x1816EF41 = 0x9EA46C4D := by decide +kernel
  have h3 : (zs 40).foldl crc32Step 0x9EA46C4D = 0xDACD3D11 := by decide +kernel
  have h4 : (zs 40).foldl crc32Step 0xDACD3D11 = 0x5E35E5C0 := by decide +kernel
  have h5 : (zs 40).foldl crc32Step 0x5E35E5C0 = 0x656B52AE := by decide +kernel
  have h6 : (zs 38).foldl crc32Step 0x656B52AE = 0xD874C451 := by decide +kernel
  have z : zs 238 = zs 40 ++ zs 40 ++ zs 40 ++ zs 40 ++ zs 40 ++ zs 38 := by decide +kernel
  rw [z]; simp only [crc32, List.foldl_append, h0, h1, h2, h3, h4, h5, h6]; decide +kernel
/-- The row of R435 in which copy A alone is valid. -/
theorem recState_copyA (st : Memory) (n : Nat) (hb : copyValid n (recCopy st n false) = false)
    (ha : copyValid n (recCopy st n true) = true) : recState st n = (.valid, recCopy st n true, some false) := by
  unfold recState
  simp only [hb, ha]

theorem copyValid639 : copyValid 639 (recCopy store639 639 true) = true := by
  have a : recCopy store639 639 true = body639 ++ zs 243 ++ le 4 0xB57B7A68 := by decide +kernel
  have t : (body639 ++ zs 243 ++ le 4 0xB57B7A68).take 252 = body639 ++ zs 243 := by decide +kernel
  rw [a]; unfold copyValid; rw [t, crc639]; decide +kernel

theorem recState639 : recState store639 639 = (.valid, recCopy store639 639 true, some false) :=
  recState_copyA store639 639 (by decide +kernel) copyValid639

theorem copyValid17 : copyValid 17 (recCopy store17 17 true) = true := by
  have a : recCopy store17 17 true = body17 ++ zs 238 ++ le 4 0x278B3BAE := by decide +kernel
  have t : (body17 ++ zs 238 ++ le 4 0x278B3BAE).take 252 = body17 ++ zs 238 := by decide +kernel
  rw [a]; unfold copyValid; rw [t, crc17]; decide +kernel

/-- The firmware of KIND 1 is pending Assay (R466). -/
theorem assay17 (k : Kept) (h : k.store = store17) : k.assay = some 1 := by
  have r := recState_copyA store17 17 (by decide +kernel) copyValid17
  unfold Kept.assay recPayload
  rw [h, r]
  decide +kernel

/-- The image in STAGING passes the checks of UPD.END (R458). -/
@[irreducible] def staged2 : Memory := memWriteN 0xFF [] stagingAt image2
def sessionOf (fl : Memory) (n : Nat) : UpdSession :=
  { session0 [(0, n, 0)] with total := n, crc := (crc32 (flashRead fl stagingAt n)).toNat }
def session2 : UpdSession := sessionOf staged2 528
theorem endFault_none (fl : Memory) (n : Nat) (hp : imgPresent (imgHdr fl stagingAt) = true) (hk : imgKind (imgHdr fl stagingAt) = 2)
    (hn : 512 + imgBodyLen (imgHdr fl stagingAt) = n) : endFault fl (sessionOf fl n) = none := by
  simp [endFault, sessionOf, session0, UpdSession.bytes, hp, hk, hn]
theorem endFault2 : endFault staged2 session2 = none :=
  endFault_none staged2 528 (by decide +kernel) (by decide +kernel) (by decide +kernel)
theorem asks_session (opc : Nat) (p : List Byte) (u : UpdSession) (k : Kept) :
    ({ asks opc p (fun l => inSession u l) with kept := k } : State).live.fwu.session = some u := rfl

/-- A request whose payload is not all known: its mailbox reads back as it was written. -/
def head8 (opc n : Nat) : List Byte := le 2 opc ++ le 2 0 ++ le 2 n ++ le 1 0x7E ++ le 1 1
theorem head8_length (opc n : Nat) : (head8 opc n).length = 8 := rfl
theorem rd_append_left (a b : List Byte) (off k : Nat) (h : off + k ≤ a.length) : rd (a ++ b) off k = rd a off k := by
  unfold rd
  refine List.foldl_ext _ _ _ fun x i hi => ?_
  have hi : i < k := List.mem_range.mp hi
  simp only [byteAt, List.getD_eq_getElem?_getD, List.getElem?_append_left (show off + i < a.length by omega)]
theorem box_bytes (opc n : Nat) (p : List Byte) (h : p.length = n) :
    (box opc p).bytes = head8 opc n ++ (zs 8 ++ (p ++ List.replicate 512 0)).take 504 := by
  have e : le 2 0 ++ List.replicate 6 (0 : Byte) = zs 8 := by decide
  have t : (512 : Nat) = (head8 opc n).length + 504 := by rw [head8_length]
  unfold box
  simp only [h]
  rw [show le 2 opc ++ le 2 0 ++ le 2 n ++ le 1 0x7E ++ le 1 1 = head8 opc n from rfl]
  rw [List.append_assoc (head8 opc n), e, List.append_assoc, List.append_assoc]
  conv => lhs; rw [t]
  rw [List.take_length_add_append]
  simp only [head8_length]
theorem box_payload (opc n : Nat) (p : List Byte) (h : p.length = n) (hl : rd (head8 opc n) 4 2 = n) (hn : n ≤ 496) :
    (box opc p).payload = p := by
  have l : (box opc p).len = n := by
    unfold Mailbox.len
    rw [box_bytes opc n p h, rd_append_left _ _ _ _ (by rw [head8_length]; decide), hl]
  unfold Mailbox.payload
  rw [box_bytes opc n p h, l, show (16 : Nat) = 8 + 8 from rfl, ← List.drop_drop, List.drop_left' (head8_length opc n),
    List.drop_take, List.drop_left' (by decide), List.take_take, Nat.min_eq_left (by omega)]
  exact List.take_left' h
theorem box_ready (opc n : Nat) (p : List Byte) (h : p.length = n) (ho : rd (head8 opc n) 0 2 = opc) :
    (box opc p).ready opc = true := by
  have o : (box opc p).opc = opc := by
    unfold Mailbox.opc
    rw [box_bytes opc n p h, rd_append_left _ _ _ _ (by rw [head8_length]; decide), ho]
  unfold Mailbox.ready
  rw [o, beq_self_eq_true opc]
  rfl
def asked (opc : Nat) (p : List Byte) (k : Kept) : State := { asks opc p with kept := k }
theorem asked_waits (opc n : Nat) (p : List Byte) (k : Kept) (h : p.length = n) (ho : rd (head8 opc n) 0 2 = opc)
    (hr : (on.live.boxes.drop 1).filter (fun x => x.2.ready opc) = []) : Waits (asked opc p k) opc (.host 0) (box opc p) := by
  have e : (asked opc p k).live.boxes = (.host 0, box opc p) :: on.live.boxes.drop 1 := by
    simp only [Live.boxes, asked, asks, State.onLive, id, show List.range 8 = [0, 1, 2, 3, 4, 5, 6, 7] by decide]
    rfl
  have o : (asked opc p k).live.oldest opc = some (.host 0, box opc p) := by
    unfold Live.oldest
    rw [e, List.filter_cons, hr, box_ready opc n p h ho]
    rfl
  have v : (asked opc p k).live.overtakes (box opc p) = false := by
    unfold Live.overtakes
    rw [e]
    have z : (box opc p).seq = 0 := rfl
    have t : (asked opc p k).live.keyTaken (box opc p).opc = false := by
      unfold Live.keyTaken
      rw [show (asked opc p k).live.token.ants = on.live.token.ants from rfl]
      rw [show on.live.token.ants = List.replicate 2 TokenAnt.init from rfl]
      simp [TokenAnt.init]
    simp [z, t]
  have q : (asked opc p k).live.pathLost opc = false := by
    unfold Live.pathLost opcIsland
    repeat' split
    all_goals rfl
  refine ⟨?_, q⟩
  unfold Live.request
  rw [o]
  simp [v]

/-- A CMAC under a key of 0 has 16 bytes, whatever the message is. -/
theorem aesEnc_length (ks : List (List Byte)) (b : List Byte) (h : (ks.getLastD []).length = 16) : (aesEncBlock ks b).length = 16 := by
  simp only [aesEncBlock, xorBytes, aesShift, List.length_zipWith, List.length_map, List.length_range, h, Nat.min_self]
theorem cmac_length (msg : List Byte) : (cmac (zs 16) msg).length = 16 :=
  aesEnc_length _ _ (by decide +kernel)

/-- A flit with the right CRC or a wrong one over these 48 bits, whatever the CRC is (R17). -/
def flitOf (x wrong : Nat) : BitVec 64 := BitVec.ofNat 64 (x * 2 ^ 16 + (Config.d2dCrc x + wrong) % 2 ^ 16)
theorem flitOf_toNat (x wrong : Nat) (h : x < 2 ^ 48) : (flitOf x wrong).toNat = x * 2 ^ 16 + (Config.d2dCrc x + wrong) % 2 ^ 16 := by
  unfold flitOf
  rw [BitVec.toNat_ofNat]
  omega
theorem flitOf_good (x : Nat) (h : x < 2 ^ 48) : flitOk (flitOf x 0) = true := by
  unfold flitOk
  rw [flitOf_toNat x 0 h, show (x * 2 ^ 16 + (Config.d2dCrc x + 0) % 2 ^ 16) / 2 ^ 16 = x by omega]
  simp
theorem flitOf_bad (x : Nat) (h : x < 2 ^ 48) : flitOk (flitOf x 1) = false := by
  unfold flitOk
  rw [flitOf_toNat x 1 h, show (x * 2 ^ 16 + (Config.d2dCrc x + 1) % 2 ^ 16) / 2 ^ 16 = x by omega]
  simp only [beq_eq_false_iff_ne]
  omega
def link1 (bad : Nat) : D2dLink := { D2dLink.init with badRun := D2dLink.init.badRun.set 1 bad }
def linkState (d : D2dLink) : State := onWith fun l => { l with arch := { l.arch with d2d := l.arch.d2d.set 1 d } }
theorem flitOf_type (t : Nat) (h : t < 16) : flitType (flitOf (t * 2 ^ 32) 0) = t := by
  unfold flitType
  rw [flitOf_toNat _ _ (by omega)]
  omega
theorem flitOf_seq (t : Nat) (h : t < 16) : flitSeq (flitOf (t * 2 ^ 32) 0) = 0 := by
  unfold flitSeq
  rw [flitOf_toNat _ _ (by omega)]
  omega

/-- A crossing that has failed (R20). -/
def crossing123 : Crossing :=
  { snd := 1, rcv := 2, num := 3, timeouts := [], retry := none, failed := true, badRetests := 0, lastTest := 0 }
def failed123 (l : Live) : Live := { l with arch := { l.arch with crossings := [crossing123] } }

/-- The Hallmark that a request key asks for, with the right tag, whatever the serial number is. -/
def hallTag : List Byte := hallmarkTag (keySlot 0 0 8) (zs 32)
def hallReq : List Byte := [1, 63, 0, 0] ++ zs 32 ++ hallTag
theorem hallTag_length : hallTag.length = 16 := by
  unfold hallTag hallmarkTag
  exact cmac_length _
theorem hallReq_length : hallReq.length = 52 := by
  simp only [hallReq, List.length_append, hallTag_length]
  rfl
def hallState : State := asked 0x5810 hallReq (slot63 (keySlot 0 0 8))
theorem hall_payload : (box 0x5810 hallReq).payload = hallReq := box_payload _ 52 _ hallReq_length (by decide +kernel) (by decide)
theorem hall_fields (t : List Byte) : byteAt ([1, 63, 0, 0] ++ zs 32 ++ t) 0 = 1 ∧ byteAt ([1, 63, 0, 0] ++ zs 32 ++ t) 1 = 63 ∧
    allZero ((([1, 63, 0, 0] ++ zs 32 ++ t).drop 2).take 2) = true ∧ (([1, 63, 0, 0] ++ zs 32 ++ t).drop 4).take 32 = zs 32 :=
  ⟨rfl, rfl, rfl, rfl⟩
theorem hall_tag : (hallReq.drop 36).take 16 = hallTag := by
  unfold hallReq
  rw [List.drop_left' (by decide)]
  exact List.take_of_length_le (le_of_eq hallTag_length)


/-- The same for a test mode of a part in RETURN: a signature that verifies is given, whatever the key of R412 is. -/
def returned : Kept := { on.kept with cells := { on.kept.cells with lcs := 3 } }
theorem test_fields (sig : List Byte) (h : sig.length = 64) : byteAt ([15, 0, 0, 0] ++ sig) 0 = 15 ∧
    allZero ((([15, 0, 0, 0] ++ sig).drop 1).take 3) = true ∧ (([15, 0, 0, 0] ++ sig).drop 4).take 64 = sig :=
  ⟨rfl, rfl, List.take_of_length_le (le_of_eq h)⟩
def memberState : State := linkKeyed fun k => { k with st := .member }
theorem memberKey_some (c : List Byte) : ∃ k, memberState.serviceKdf 0 "ZZ-LKMBR" c = some k := by
  unfold State.serviceKdf
  simp only []
  rw [if_pos (by decide +kernel)]
  exact ⟨_, rfl⟩

/-! ## Commands and words -/

/-- A well-formed command of each shape, at the ends of its operands. -/
theorem test_wf_good : (Instr.hostWrite 0x32 65535 65535 [] 0 true).wf = true ∧ (Instr.hostRead 0x6B 65535 65535 true).wf = true ∧
    (Instr.instructionByteUnknown 0x03).wf = true ∧ (Instr.d2dFlitReceived 2 1 3 0).wf = true ∧
    (Instr.pwmPeriodStart (.valve 11)).wf = true ∧ (Instr.offStateTest (.fio 31) 0 0).wf = true ∧
    (Instr.canFrameReceived 3 frame3).wf = true ∧ (Instr.logicReset 6 0 start).wf = true ∧
    (Instr.sti [0xE4] 5 .d4 0xFFFFFFFF .i4 0xFFFFFFFF).wf = true := by decide

/-- An ill-formed command for each check, which the check refuses. -/
theorem test_wf_bad : (Instr.hostWrite 0x0B 0 0 [] 0 true).wf = false ∧ (Instr.hostWrite 0x02 65536 0 [] 0 true).wf = false ∧
    (Instr.hostWrite 0x02 0 65536 [] 0 true).wf = false ∧ (Instr.hostRead 0x02 0 0 true).wf = false ∧
    (Instr.instructionByteUnknown 0x6B).wf = false ∧ (Instr.wakeSourceFire 8 0 { tj := [], vholdMv := 0, sealKohm := 0 }).wf = false ∧
    (Instr.d2dFlitReceived 3 0 0 0).wf = false ∧ (Instr.d2dFlitReceived 0 2 0 0).wf = false ∧
    (Instr.d2dFlitReceived 0 0 4 0).wf = false ∧ (Instr.edgeRampEnd 48).wf = false := by decide
theorem test_wf_bad_sources : (Instr.pwmPeriodStart (.load 48)).wf = false ∧ (Instr.pwmPeriodStart (.leg 8)).wf = false ∧
    (Instr.pwmPeriodStart (.valve 12)).wf = false ∧ (Instr.pwmPeriodStart (.bank 4)).wf = false ∧
    (Instr.pwmPeriodStart (.fio 32)).wf = false ∧ (Instr.offStateTest (.load 48) 0 0).wf = false ∧
    (Instr.offStateTest (.bridge 8) 0 0).wf = false ∧ (Instr.offStateTest (.fio 32) 0 0).wf = false ∧
    (Instr.groupUndervoltage 4 0 []).wf = false ∧ (Instr.lineSlot slot0).wf = false ∧ (Instr.tdmFrame [0]).wf = false := by decide
theorem test_wf_bad_frames : (Instr.canFrameReceived 4 frame3).wf = false ∧
    (Instr.canFrameReceived 0 { frame3 with ch := 4 }).wf = false ∧ (Instr.canFrameReceived 0 { frame3 with dlc := 16 }).wf = false ∧
    (Instr.canFrameReceived 0 { frame3 with key := 2 ^ 32 }).wf = false ∧
    (Instr.canFrameReceived 0 { frame3 with data := zs 65 }).wf = false ∧ (Instr.canTxDone 0 3 0 0).wf = false ∧
    (Instr.logicReset 1 0 start).wf = false ∧ (Instr.logicReset 7 0 start).wf = false := by decide
theorem test_wf_bad_fields : (Instr.nop [0xE0, 0xE1, 0xE2]).wf = false ∧ (Instr.nop [0xDF]).wf = false ∧
    (Instr.ld [] 0 0 .d0 1).wf = false ∧ (Instr.ld [] 0 0 .d1 256).wf = false ∧ (Instr.ld [] 0 0 .d2 65536).wf = false ∧
    (Instr.add [] 0 (.imm .i1 256)).wf = false ∧ (Instr.add [] 0 (.imm .i2 65536)).wf = false ∧
    (Instr.sti [] 0 .d0 0 .i1 256).wf = false ∧ (Instr.bcc [] 0 false 256).wf = false := by decide

/-- The table gives no row any bits, so no word spells a command. -/
theorem test_no_word : decodeTableWord 32 0x12345678 = none := rfl

/-- Words of the Dvorgil encoding, written out from R483 to R487, and the two examples of the spec for STI. -/
theorem test_decode_control : f1Decode [0x00] = .instr (.nop []) ∧ f1Decode [0x01] = .instr (.wfi []) ∧
    f1Decode [0x04] = .instr (.reti []) ∧ f1Decode [0x06] = .instr (.di []) ∧ f1Decode [0x08, 0x0F] = .instr (.trap [] 15) ∧
    f1Decode [0x6F, 0xFE] = .instr (.bcc [] 15 false 0xFE) ∧ f1Decode [0x71, 0x00, 0x80] = .instr (.bcc [] 1 true 0x8000) ∧
    f1Decode [0x80, 0xFB, 0xFF, 0xFF, 0xFF] = .instr (.jmp [] (.rel 0xFFFFFFFB)) ∧ f1Decode [0x81, 0x0C] = .instr (.jmp [] (.reg 12)) ∧
    f1Decode [0x82, 4, 0, 0, 0, 0xF0, 0x0F] = .instr (.call [] (.rel4 4) 0x0FF0) := by decide +kernel
theorem test_decode_alu : f1Decode [0x11, 0x34] = .instr (.add [] 3 (.reg 4)) ∧
    f1Decode [0xE1, 0xE3, 0x23, 0x51, 0x34, 0x12] = .instr (.sub [0xE1, 0xE3] 5 (.imm .i2 0x1234)) ∧
    f1Decode [0x2A, 0x70, 31] = .instr (.shl [] 7 (.imm .i1 31)) ∧ f1Decode [0x1F, 0xAB] = .instr (.mulh [] 10 (.reg 11)) ∧
    f1Decode [0xE0, 0x37, 0x12] = .instr (.sext [0xE0] 1 2) ∧ f1Decode [0x3A, 0xF1] = .instr (.divs [] 15 1) ∧
    f1Decode [0x3D, 0x12, 3] = .instr (.crcstep [] 1 2 3) ∧ f1Decode [0x3E, 0x90] = .instr (.mff [] 9 0) ∧
    f1Decode [0x3F, 0x09] = .instr (.mtf [] 0 9) := by decide +kernel
theorem test_decode_memory : f1Decode [0x4C, 0x85, 0x00, 0x01, 0x01] = .instr (.sti [] 5 .d2 0x100 .i1 1) ∧
    f1Decode [0xE4, 0x4C, 0xE5, 0, 0, 0, 0x10, 0xA5, 0xA5, 0xA5, 0xA5] = .instr (.sti [0xE4] 5 .d4 0x10000000 .i4 0xA5A5A5A5) ∧
    f1Decode [0xE2, 0x40, 0x35] = .instr (.ld [0xE2] 3 5 .d0 0) ∧ f1Decode [0x45, 0x35, 0xFC] = .instr (.st [] 3 5 .d1 0xFC) ∧
    f1Decode [0xE1, 0x4A, 0x35, 0x34, 0x12] = .instr (.lds [0xE1] 3 5 .d2 0x1234) ∧
    f1Decode [0x5B, 0x35, 1, 2, 3, 4] = .instr (.ldc [] 3 5 .d4 0x04030201) ∧ f1Decode [0x4E, 0x12] = .instr (.xchg [] 1 2) ∧
    f1Decode [0x50, 0x70] = .instr (.push [] 7 0) ∧ f1Decode [0x54, 0x70, 2] = .instr (.rspeek [] 7 0 2) ∧
    f1Decode [0x90, 0x70, 0x20, 0x00] = .instr (.inPort [] 7 (.imm 0x20)) ∧
    f1Decode [0x93, 0x78] = .instr (.outPort [] 7 (.reg 8)) := by decide +kernel
/-- Reserved opcodes, IS 3 and a third prefix are ILLEGAL (R483, R485, R487). -/
theorem test_decode_illegal : f1Decode [0x09] = .illegal 0 ∧ f1Decode [0x57] = .illegal 0 ∧ f1Decode [0xFF] = .illegal 0 ∧
    (f1Decode [0x21, 0x03] matches .illegal _) = true ∧ f1Decode [0xE0, 0xE2, 0xE4, 0x00] = .illegal 1 := by decide +kernel

/-- The check value of CRC-32 (R63). -/
theorem test_crc32_check : crc32 (ascii "123456789") = 0xCBF43926 := by decide +kernel

/-- The published vectors of the functions that R424 and R408 name: SHA-256, AES-128, the CRC of the link and AES-CMAC. -/
theorem test_sha256_abc : (sha256 (ascii "abc")).take 8 = [0xBA, 0x78, 0x16, 0xBF, 0x8F, 0x01, 0xCF, 0xEA] := by decide +kernel
theorem test_aes128 : aesEnc ((List.range 16).map fun i => BitVec.ofNat 8 i) ((List.range 16).map fun i => BitVec.ofNat 8 (17 * i)) =
    [0x69, 0xC4, 0xE0, 0xD8, 0x6A, 0x7B, 0x04, 0x30, 0xD8, 0xCD, 0xB7, 0x80, 0x70, 0xB4, 0xC5, 0x5A] := by decide +kernel
theorem test_crc16 : crc16 (ascii "123456789") = 0x29B1 := by decide +kernel
theorem test_cmac : cmac [0x2b,0x7e,0x15,0x16,0x28,0xae,0xd2,0xa6,0xab,0xf7,0x15,0x88,0x09,0xcf,0x4f,0x3c] [] =
  [0xbb,0x1d,0x69,0x29,0xe9,0x59,0x37,0x28,0x7f,0xa3,0x7d,0x12,0x9b,0x75,0x67,0x46] := by decide +kernel

/-! ## States and operands that meet the hypotheses of each statement -/

theorem witness_StepKeepsQueue :
    (∃ (s t : State), step s = .next t) :=
  ⟨State.reset, _, rfl⟩

theorem witness_HostTransactions :
    (∃ (i : BitVec 8) (s : State), i ≠ 0x02 ∧ i ≠ 0x32 ∧ i ≠ 0x0B ∧ i ≠ 0x6B ∧ s.live.commandLayer = true) ∧
    (∃ (i : BitVec 8) (len : Nat) (data : List Byte) (s : State), (i = 0x02 ∨ i = 0x32) ∧ data.length = len ∧ s.live.commandLayer
      = false) ∧
    (∃ (i : BitVec 8) (addr len : Nat) (data : List Byte) (crc : BitVec 32) (s : State), (i = 0x02 ∨ i = 0x32) ∧ data.length = len
      ∧ s.live.commandLayer = true ∧ crc32 (spiBytes i addr len data) ≠ crc) ∧
    (∃ (i : BitVec 8) (addr len : Nat) (data : List Byte) (crc : BitVec 32) (s : State) (b : Mailbox), (i = 0x02 ∨ i = 0x32) ∧
      data.length = len ∧ s.live.commandLayer = true ∧ crc32 (spiBytes i addr len data) = crc ∧ addr % 4 = 0 ∧ len % 4 = 0 ∧ 4 ≤
      len ∧ addr < 0x1000 ∧ addr % 512 + len ≤ 512 ∧ s.live.host.mb[addr / 512]? = some b ∧ b.st = .free) ∧
    (∃ (i : BitVec 8) (addr len : Nat) (data : List Byte) (crc : BitVec 32) (s : State) (b : Mailbox), (i = 0x02 ∨ i = 0x32) ∧
      data.length = len ∧ s.live.commandLayer = true ∧ crc32 (spiBytes i addr len data) = crc ∧ addr % 4 = 0 ∧ len % 4 = 0 ∧ 4 ≤
      len ∧ addr < 0x1000 ∧ addr % 512 + len ≤ 512 ∧ s.live.host.mb[addr / 512]? = some b ∧ b.st ≠ .free) ∧
    (∃ (i : BitVec 8) (addr len : Nat) (data : List Byte) (crc : BitVec 32) (s : State), (i = 0x02 ∨ i = 0x32) ∧ data.length = len
      ∧ s.live.commandLayer = true ∧ crc32 (spiBytes i addr len data) = crc ∧ addr = 0x1014 ∧ len = 4) ∧
    (∃ (i : BitVec 8) (s : State), (i = 0x0B ∨ i = 0x6B) ∧ s.live.commandLayer = false) ∧
    (∃ (i : BitVec 8) (addr len : Nat) (s : State) (bs : _), (i = 0x0B ∨ i = 0x6B) ∧ s.live.commandLayer = true ∧
      s.live.hostWindow addr len = some bs) ∧
    (∃ (i : BitVec 8) (addr len : Nat) (s : State), (i = 0x0B ∨ i = 0x6B) ∧ s.live.commandLayer = true ∧ s.live.hostWindow addr
      len = none) :=
  ⟨⟨3, on, by decide +kernel⟩,
   ⟨2, 0, [], State.reset, by decide +kernel⟩,
   ⟨2, 0, 0, [], 0, on, by decide +kernel⟩,
   ⟨2, 0, 4, [0, 0, 0, 0], crc32 (spiBytes 2 0 4 [0, 0, 0, 0]), on, Mailbox.empty, by decide +kernel⟩,
   ⟨2, 508, 4, [0, 0, 0, 0], crc32 (spiBytes 2 508 4 [0, 0, 0, 0]), (onWith fun l =>
     { l with host := { l.host with mb := { Mailbox.empty with st := .done } :: List.replicate 7 Mailbox.empty } }),
     { Mailbox.empty with st := .done }, by decide +kernel⟩,
   ⟨2, 0x1014, 4, [0, 0, 0, 0], crc32 (spiBytes 2 0x1014 4 [0, 0, 0, 0]), on, by decide +kernel⟩,
   ⟨0x0B, State.reset, by decide +kernel⟩,
   ⟨0x0B, 0x1000, 4, on, (on.live.hostWindow 0x1000 4).getD [], by decide +kernel⟩,
   ⟨0x0B, 0x3, 4, on, by decide +kernel⟩⟩

theorem witness_DoorbellsAndAcks :
    (∃ (n : Nat) (s : State) (b : Mailbox), n < 8 ∧ s.live.commandLayer = true ∧ s.live.pwr.mode ≠ .wakeCheck ∧ s.live.host.mb[n]?
      = some b ∧ b.st = .free ∧ requestFault b true = none ∧ b.dev = 0x7E ∧ (s.onLive fun l => l.ring (.host n) b.bytes).proofOf
      { b with st := .busy, stage := .none, seq := s.live.host.ringSeq, rungAt := s.live.mt.now } = none) ∧
    (∃ (n : Nat) (s : State) (b : Mailbox), n < 8 ∧ s.live.commandLayer = true ∧ s.live.pwr.mode ≠ .wakeCheck ∧ s.live.host.mb[n]?
      = some b ∧ b.st = .busy) ∧
    (∃ (n : Nat) (s : State) (b : Mailbox), n < 8 ∧ s.live.commandLayer = true ∧ s.live.pwr.mode ≠ .wakeCheck ∧ s.live.host.mb[n]?
      = some b ∧ b.st = .done) ∧
    (∃ (s : State), s.live.commandLayer = true ∧ s.live.host.mb.length = 8) :=
  ⟨⟨0, (onWith fun l =>
    { l with host := { l.host with mb := { Mailbox.empty with bytes := (box 0x0101 []).bytes } :: List.replicate 7 Mailbox.empty } }),
    { Mailbox.empty with bytes := (box 0x0101 []).bytes }, by decide +kernel⟩,
   ⟨0, (onWith fun l =>
     { l with host := { l.host with mb := { Mailbox.empty with st := .busy } :: List.replicate 7 Mailbox.empty } }),
     { Mailbox.empty with st := .busy }, by decide +kernel⟩,
   ⟨0, (onWith fun l =>
     { l with host := { l.host with mb := { Mailbox.empty with st := .done } :: List.replicate 7 Mailbox.empty } }),
     { Mailbox.empty with st := .done }, by decide +kernel⟩,
   ⟨on, by decide +kernel⟩⟩

theorem witness_EvqAckConsumes :
    (∃ (s : State), s.live.commandLayer = true ∧ s.live.host.evq.length ≤ 256 ∧ s.live.host.headSeq < 65536) :=
  ⟨(onWith fun l =>
    { l with host := { l.host with evq := List.replicate 256 { mtLo := 0, cause := 0, sev := 0, id := 0x0101, payload := [], origin := 0, entered := 0 }, headSeq := 65535 } }),
    by decide +kernel⟩

theorem witness_HostControlWords :
    (∃ (s : State), s.live.commandLayer = true) ∧
    (∃ (s : State), s.live.sup.phase = .running) :=
  ⟨⟨on, by decide +kernel⟩,
   ⟨on, by decide +kernel⟩⟩

theorem witness_FullQueueDropsOldest :
    (∃ (l : Live), l.host.evq.length = 256) ∧
    (∃ (l : Live), l.host.evq.length < 256) :=
  ⟨⟨(onWith fun l =>
    { l with host := { l.host with evq := List.replicate 256 { mtLo := 0, cause := 0, sev := 0, id := 0x0101, payload := [], origin := 0, entered := 0 } } }).live,
    by decide +kernel⟩,
   ⟨(onWith fun l =>
     { l with host := { l.host with evq := List.replicate 255 { mtLo := 0, cause := 0, sev := 0, id := 0x0101, payload := [], origin := 0, entered := 0 } } }).live,
     by decide +kernel⟩⟩

theorem witness_CompletionFrame :
    (∃ (l : Live) (n : Nat) (b : Mailbox) (p : List Byte), l.host.mb[n]? = some b ∧ b.st = .busy ∧ b.bytes.length = 512 ∧ b.dev ≠
      0x7F ∧ p.length ≤ 496 ∧ l.link.gathers.any (fun g => g.owner == MbRef.host n) = false) :=
  ⟨(asks 0x0101 []).live, 0, (box 0x0101 []), [1, 2, 3], by decide +kernel⟩

theorem witness_Presence :
    (∃ (t : Nat) (s : State) (w : PresenceWait), s.live.waiting = some w ∧ ms 2000 ≤ t ∧ w.since + ms 2000 ≤ s.live.mt.now ∧
      s.live.mt.now ≤ w.since + ms 30000) ∧
    (∃ (s : State) (w : PresenceWait), s.live.waiting = some w ∧ w.since + ms 30000 ≤ s.live.mt.now) ∧
    (∃ (s : State), s.live.commandLayer = true) :=
  ⟨⟨ms 2000, (onWith fun l =>
    { l with host := { l.host with mb := { box 0x580E [] with stage := .presence } :: List.replicate 7 Mailbox.empty, presence := some { m := .host 0, opc := 0x580E, since := 998000000000 } } }),
    { m := .host 0, opc := 0x580E, since := 998000000000 }, by decide +kernel⟩,
   ⟨(onWith fun l =>
     { l with host := { l.host with mb := { box 0x580E [] with stage := .presence } :: List.replicate 7 Mailbox.empty, presence := some { m := .host 0, opc := 0x580E, since := 970000000000 } } }),
     { m := .host 0, opc := 0x580E, since := 970000000000 }, by decide +kernel⟩,
   ⟨on, by decide +kernel⟩⟩

theorem witness_ServiceAndRelayedCommands :
    (∃ (g : Nat) (s : State), s.live.uartAnswers = true ∧ ms 1 < g) ∧
    (∃ (body : List Byte) (s : State), s.live.uartAnswers = true ∧ body.length < 65536 ∧ 16 ≤ body.length ∧ s.live.host.uart.st ≠
      .free) ∧
    (∃ (body : List Byte) (s : State), s.live.uartAnswers = true ∧ body.length < 65536 ∧ 16 ≤ body.length ∧ s.live.host.uart.st =
      .free ∧ s.live.uartAccepts (rd body 0 2) = true) ∧
    (∃ (s : State), s.live.host.uartOpen = true ∧ s.live.host.uartLast + ms 10000 ≤ s.live.mt.now) ∧
    (∃ (m : LinkMsg) (rest : List LinkMsg) (s : State), s.live.commandLayer = true ∧ s.live.link.inbox = m :: rest ∧ m.type = 3) ∧
    (∃ (q : Nat) (o : OutMsg) (s : State), s.live.sup.phase = .running ∧ (s.live.link.out.find? fun (x : OutMsg) => x.mseq == q) =
      some o ∧ o.acked = false ∧ o.sentCycle + 8 ≤ s.live.cycleNo ∧ 2 ≤ o.resends) ∧
    (∃ (q : Nat) (o : OutMsg) (s : State), s.live.sup.phase = .running ∧ (s.live.link.out.find? fun (x : OutMsg) => x.mseq == q) =
      some o ∧ o.acked = false ∧ o.sentCycle + 8 ≤ s.live.cycleNo ∧ o.resends < 2) :=
  ⟨⟨ms 1 + 1, (onWith fun l => { l with host := { l.host with uartOpen := true } }), by decide +kernel⟩,
   ⟨(zs 16), (onWith fun l => { l with host := { l.host with uartOpen := true, uart := { Mailbox.empty with st := .busy } } }),
     by decide +kernel⟩,
   ⟨(box 0x0101 []).bytes.take 16, (onWith fun l => { l with host := { l.host with uartOpen := true } }), by decide +kernel⟩,
   ⟨(onWith fun l => { l with host := { l.host with uartOpen := true, uartLast := 990000000000 } }), by decide +kernel⟩,
   ⟨{ type := 3, src := 1, dst := 0, mseq := 0, bytes := [] }, [], (onWith fun l => l.setLink fun k =>
     { k with inbox := [{ type := 3, src := 1, dst := 0, mseq := 0, bytes := [] }] }), by decide +kernel⟩,
   ⟨7, { mseq := 7, dst := 1, owner := .host 0, frame := [], sentCycle := 0, resends := 2, acked := false }, (onWith fun l =>
     l.setLink fun k =>
     { k with out := [{ mseq := 7, dst := 1, owner := .host 0, frame := [], sentCycle := 0, resends := 2, acked := false }] }),
     by decide +kernel⟩,
   ⟨7, { mseq := 7, dst := 1, owner := .host 0, frame := [], sentCycle := 0, resends := 1, acked := false }, (onWith fun l =>
     l.setLink fun k =>
     { k with out := [{ mseq := 7, dst := 1, owner := .host 0, frame := [], sentCycle := 0, resends := 1, acked := false }] }),
     by decide +kernel⟩⟩

theorem witness_SystemCommands :
    (∃ (m : MbRef) (b : Mailbox) (s : State), Waits s 0x0101 m b) ∧
    (∃ (m : MbRef) (b : Mailbox) (s : State), Waits s 0x0102 m b) ∧
    (∃ (m : MbRef) (b : Mailbox) (s : State), Waits s 0x0106 m b) ∧
    (∃ (m : MbRef) (b : Mailbox) (s : State), Waits s 0x0107 m b) ∧
    (∃ (m : MbRef) (b : Mailbox) (s : State), Waits s 0x0104 m b ∧ byteAt b.payload 0 ≤ 1 ∧ byteAt b.payload 1 ≤ 2 ∧ (byteAt
      b.payload 0 = 1 → byteAt b.payload 1 = 0) ∧ (resv b 2 2).2 = true ∧ s.live.pwr.mode = .drain) ∧
    (∃ (m : MbRef) (b : Mailbox) (s : State), Waits s 0x0104 m b ∧ byteAt b.payload 0 ≤ 1 ∧ byteAt b.payload 1 ≤ 2 ∧ (byteAt
      b.payload 0 = 1 → byteAt b.payload 1 = 0) ∧ (resv b 2 2).2 = true ∧ s.live.pwr.mode ≠ .drain ∧ (byteAt b.payload 0 = 1 →
      s.kept.activePresent 1 = true) ∧ (s.live.fwu.session.isSome ∨ s.kept.cells.journal.isSome)) ∧
    (∃ (m : MbRef) (b : Mailbox) (s : State), Waits s 0x0104 m b ∧ byteAt b.payload 0 ≤ 1 ∧ byteAt b.payload 1 ≤ 2 ∧ (byteAt
      b.payload 0 = 1 → byteAt b.payload 1 = 0) ∧ (resv b 2 2).2 = true ∧ s.live.pwr.mode ≠ .drain ∧ s.live.fwu.session = none ∧
      s.kept.cells.journal = none ∧ byteAt b.payload 0 = 0) ∧
    (∃ (m : MbRef) (b : Mailbox) (s : State), Waits s 0x0104 m b ∧ byteAt b.payload 0 ≤ 1 ∧ byteAt b.payload 1 ≤ 2 ∧ (byteAt
      b.payload 0 = 1 → byteAt b.payload 1 = 0) ∧ (resv b 2 2).2 = true ∧ s.live.pwr.mode ≠ .drain ∧ s.live.fwu.session = none ∧
      s.kept.cells.journal = none ∧ byteAt b.payload 0 = 1 ∧ s.kept.activePresent 1 = true) ∧
    (∃ (m : MbRef) (b : Mailbox) (s : State), Waits s 0x0105 m b ∧ bit (byteAt b.payload 0) 0 = false ∧ byteAt b.payload 1 ≤ 1 ∧
      (rd b.payload 2 2 = 0 ∨ inRange 10 10000 (rd b.payload 2 2) = true) ∧ byteAt b.payload 4 ≤ 15 ∧ (resv b 5 1).2 = true ∧ rd
      b.payload 6 2 ≤ 3600) ∧
    (∃ (m : MbRef) (b : Mailbox) (s : State), Waits s 0x7F01 m b ∧ inRange 1 15 (byteAt b.payload 0) = true ∧ (resv b 1 3).2 =
      true ∧ s.kept.cells.lcs ≠ 3 ∧ s.live.sup.testMode = 0) ∧
    (∀ sig : List Byte, sig.length = 64 →
      ecdsaVerify Config.returnKey sig (authDigest "ZZ-TEST" on.live.key.tnonce (le 1 15)) = true →
      ∃ (m : MbRef) (b : Mailbox) (s : State), Waits s 0x7F01 m b ∧ inRange 1 15 (byteAt b.payload 0) = true ∧
      (resv b 1 3).2 = true ∧ s.kept.cells.lcs = 3 ∧ ecdsaVerify Config.returnKey ((b.payload.drop 4).take 64)
      (authDigest "ZZ-TEST" s.live.key.tnonce (le 1 (byteAt b.payload 0))) = true) :=
  ⟨⟨(.host 0), (box 0x0101 []), (asks 0x0101 []), by decide +kernel⟩,
   ⟨(.host 0), (box 0x0102 []), (asks 0x0102 []), by decide +kernel⟩,
   ⟨(.host 0), (box 0x0106 []), (asks 0x0106 []), by decide +kernel⟩,
   ⟨(.host 0), (box 0x0107 []), (asks 0x0107 []), by decide +kernel⟩,
   ⟨(.host 0), (box 0x0104 [0, 0, 0, 0]), (asks 0x0104 [0, 0, 0, 0] (fun l => l.setPwr fun p => { p with mode := .drain })),
     by decide +kernel⟩,
   ⟨(.host 0), (box 0x0104 [0, 2, 0, 0]),
     { (asks 0x0104 [0, 2, 0, 0]) with kept := { on.kept with cells := { on.kept.cells with journal := some { old := 1, target := 2, step := 1 } } } },
     by decide +kernel⟩,
   ⟨(.host 0), (box 0x0104 [0, 0, 0, 0]), (asks 0x0104 [0, 0, 0, 0]), by decide +kernel⟩,
   ⟨(.host 0), (box 0x0104 [1, 0, 0, 0]), { (asks 0x0104 [1, 0, 0, 0]) with kept := { on.kept with flash := appFlash } },
     by decide +kernel⟩,
   ⟨(.host 0), (box 0x0105 [0, 1, 16, 39, 15, 0, 16, 14]), (asks 0x0105 [0, 1, 16, 39, 15, 0, 16, 14]), by decide +kernel⟩,
   ⟨(.host 0), (box 0x7F01 ([15, 0, 0, 0] ++ zs 64)), (asks 0x7F01 ([15, 0, 0, 0] ++ zs 64)), by decide +kernel⟩,
   (by
  intro sig h v
  have hp : (box 0x7F01 ([15, 0, 0, 0] ++ sig)).payload = [15, 0, 0, 0] ++ sig :=
    box_payload _ 68 _ (by simp [h]) (by decide +kernel) (by decide)
  obtain ⟨f0, f1, f4⟩ := test_fields sig h
  refine ⟨.host 0, box 0x7F01 ([15, 0, 0, 0] ++ sig), asked 0x7F01 ([15, 0, 0, 0] ++ sig) returned,
    asked_waits _ 68 _ _ (by simp [h]) (by decide +kernel) (by decide +kernel), ?_⟩
  simp only [resv, hp, f0, f1, f4]
  exact ⟨by decide, trivial, rfl, v⟩)⟩

theorem witness_SupervisionAndClocks :
    (∃ (s : State), s.live.sup.phase = .running ∧ s.live.sup.cfg.f1HbMs ≠ 0 ∧ s.live.sup.anvil = 0 ∧ s.live.f1.run = .running ∧
      s.live.sup.hbF1 + ms s.live.sup.cfg.f1HbMs ≤ s.live.mt.now) ∧
    (∃ (s : State), s.live.sup.phase = .running ∧ s.live.f1.run = .stopped ∧ s.live.sup.f1Held = false ∧ s.live.sup.f1StopAt + ms
      10 ≤ s.live.mt.now) ∧
    (∃ (s : State), s.live.sup.phase = .running ∧ s.live.sup.anvil = 0 ∧ s.live.sup.hbAnvil + ms 10 ≤ s.live.mt.now) ∧
    (∃ (s : State), s.live.sup.phase = .running ∧ s.live.sup.anvil = 0 ∧ (s.live.sup.anvilResets.filter fun t => decide
      (s.live.mt.now < t + ms 10000)).length < 2) ∧
    (∃ (s : State), s.live.sup.phase = .running ∧ s.live.sup.anvil = 0 ∧ 2 ≤ (s.live.sup.anvilResets.filter fun t => decide
      (s.live.mt.now < t + ms 10000)).length) ∧
    (∃ (s : State), s.live.sup.phase = .running ∧ s.live.sup.anvil = 1 ∧ s.live.sup.anvilAt + ms 2 ≤ s.live.mt.now) ∧
    (∃ (i : Nat) (dev : Int) (s : State), s.live.sup.phase = .running ∧ i ≤ 8 ∧ s.live.sup.anvil = 0 ∧
      s.live.sup.clockFault.contains i ≠ s.live.clockBad i dev ∧ (s.live.clockBad i dev = false ∨ 2 ≤ i)) ∧
    (∃ (i : Nat) (dev : Int) (s : State), s.live.sup.phase = .running ∧ i ≤ 8 ∧ s.live.sup.anvil = 0 ∧
      s.live.sup.clockFault.contains i ≠ s.live.clockBad i dev ∧ s.live.clockBad i dev = true ∧ i = 0 ∧ s.live.resettable = true) ∧
    (∃ (i : Nat) (dev : Int) (s : State), s.live.sup.phase = .running ∧ i ≤ 8 ∧ s.live.sup.anvil = 0 ∧
      s.live.sup.clockFault.contains i ≠ s.live.clockBad i dev ∧ s.live.clockBad i dev = true ∧ i = 1) ∧
    (∃ (i : Nat) (s : State), s.live.sup.phase = .running ∧ s.live.sup.anvil = 0 ∧ s.live.islandDown i = false ∧
      s.live.sup.clockFault.contains i = true ∧ i = 0) :=
  ⟨⟨(onWith fun l =>
    { l with sup := { l.sup with hbF1 := 0, cfg := { l.sup.cfg with f1HbMs := 1000 } }, f1 := { l.f1 with run := .running } }),
    by decide +kernel⟩,
   ⟨(onWith fun l => { l with sup := { l.sup with f1StopAt := 0 }, f1 := { l.f1 with run := .stopped } }), by decide +kernel⟩,
   ⟨on, by decide +kernel⟩,
   ⟨(onWith fun l => { l with sup := { l.sup with hbAnvil := 0, anvilResets := [995000000000] } }), by decide +kernel⟩,
   ⟨(onWith fun l => { l with sup := { l.sup with hbAnvil := 0, anvilResets := [995000000000, 999000000000] } }),
     by decide +kernel⟩,
   ⟨(onWith fun l => { l with sup := { l.sup with anvil := 1, anvilAt := 0 } }), by decide +kernel⟩,
   ⟨2, 0, (onWith fun l => { l with sup := { l.sup with clockFault := [2] } }), by decide +kernel⟩,
   ⟨0, 400, on, by decide +kernel⟩,
   ⟨1, 400, on, by decide +kernel⟩,
   ⟨0, (onWith fun l => { l with sup := { l.sup with clockFault := [0] } }), by decide +kernel⟩⟩

theorem witness_SupervisionAndClocks_2 :
    (∃ (i : Nat) (s : State), s.live.sup.phase = .running ∧ s.live.sup.anvil = 0 ∧ s.live.islandDown i = false ∧
      s.live.sup.clockFault.contains i = true ∧ i = 1) ∧
    (∃ (i : Nat) (s : State), s.live.sup.phase = .running ∧ s.live.sup.anvil = 0 ∧ s.live.islandDown i = false ∧
      s.live.sup.clockFault.contains i = true ∧ (i = 2 ∨ i = 3 ∨ i = 4 ∨ i = 7)) ∧
    (∃ (park : Bool) (s : State), s.live.sup.phase = .running ∧ hourNs ≤ (if park then s.live.countTime.sup.parkPart else
      s.live.countTime.sup.runPart)) ∧
    (∃ (kind start last : Nat) (s : State), s.live.sup.phase = .running ∧ (s.live.fwu.expired = false ∨ s.kept.assay = none) ∧
      s.live.fwu.restart = some (start, last) ∧ s.kept.updPending = some kind ∧ last + ms 100 ≤ s.live.mt.now ∧ gateDetail kind
      s.live.gates = none) ∧
    (∃ (kind start last : Nat) (s : State), s.live.sup.phase = .running ∧ (s.live.fwu.expired = false ∨ s.kept.assay = none) ∧
      s.live.fwu.restart = some (start, last) ∧ s.kept.updPending = some kind ∧ last + ms 100 ≤ s.live.mt.now ∧ gateDetail kind
      s.live.gates ≠ none ∧ s.live.mt.now < start + ms 60000) ∧
    (∃ (kind start last : Nat) (s : State), s.live.sup.phase = .running ∧ (s.live.fwu.expired = false ∨ s.kept.assay = none) ∧
      s.live.fwu.restart = some (start, last) ∧ s.kept.updPending = some kind ∧ last + ms 100 ≤ s.live.mt.now ∧ gateDetail kind
      s.live.gates ≠ none ∧ start + ms 60000 ≤ s.live.mt.now) ∧
    (∃ (s : State),
      s.live.sup.phase = StartPhase.running ∧ s.live.sup.anvil = 0) :=
  ⟨⟨1, (onWith fun l => { l with sup := { l.sup with clockFault := [1] } }), by decide +kernel⟩,
   ⟨4, (onWith fun l => { l with sup := { l.sup with clockFault := [4] } }), by decide +kernel⟩,
   ⟨false, (onWith fun l => { l with sup := { l.sup with runPart := hourNs } }), by decide +kernel⟩,
   ⟨1, 999000000000, 999500000000,
     { (onWith fun l => l.setFwu fun u => { u with restart := some (999000000000, 999500000000), cfg := { u.cfg with noMotion := true } }) with kept := { on.kept with updPending := some 1 } },
     by decide +kernel⟩,
   ⟨1, 999000000000, 999500000000,
     { (onWith fun l => l.setFwu fun u => { u with restart := some (999000000000, 999500000000) }) with kept := { on.kept with updPending := some 1 } },
     by decide +kernel⟩,
   ⟨1, 900000000000, 999500000000,
     { (onWith fun l => l.setFwu fun u => { u with restart := some (900000000000, 999500000000) }) with kept := { on.kept with updPending := some 1 } },
     by decide +kernel⟩,
   ⟨on, by decide +kernel⟩⟩

theorem witness_ResetAndLimp :
    (∃ (s : State), s.live.resettable = true ∧ s.live.sup.phase = .running ∧ s.live.sup.anvil = 0 ∧ s.live.sup.hbF0 + ms 10 ≤
      s.live.mt.now) ∧
    (∃ (s : State), s.live.resettable = true ∧ s.live.sup.service + ms 50 ≤ s.live.mt.now) ∧
    (∃ (s : State) (mv t : _), s.live.resettable = true ∧ s.live.sup.anvil = 0 ∧ 1100 < mv ∧ us 10 ≤ t) ∧
    (∃ (s : State) (o : OrderedReset), s.live.resettable = true ∧ s.live.sup.ordered = some o ∧ o.at_ + ms 2 ≤ s.live.mt.now) ∧
    (∃ (s : State) (mv : _), s.live.resettable = true ∧ s.live.pwr.holdup = true ∧ mv ≤ 9000) ∧
    (∃ (s : State) (c : Nat), s.live.resettable = true ∧ inRange 2 4 c = true) ∧
    (∃ (s : State), s.live.sup.phase = .firmware ∧ s.live.resettable = true ∧ s.live.sup.counted = false ∧ 2 ≤ s.live.sup.cause ∧
      s.live.sup.resetMt + us 100 + ms 200 ≤ s.live.mt.now) ∧
    (∃ (t : Nat) (s : State), s.live.pwr.mode = .limp ∧ s.live.pwr.powered = true ∧ ms 100 ≤ t) :=
  ⟨⟨(onWith fun l => { l with sup := { l.sup with hbF0 := 0 } }), by decide +kernel⟩,
   ⟨(onWith fun l => { l with sup := { l.sup with service := 0 } }), by decide +kernel⟩,
   ⟨on, 1101, us 10, by decide +kernel⟩,
   ⟨(onWith fun l => { l with sup := { l.sup with ordered := some { cause := 8, mode := 1, at_ := 0 } } }),
     { cause := 8, mode := 1, at_ := 0 }, by decide +kernel⟩,
   ⟨(onWith fun l => l.setPwr fun p => { p with holdup := true }), 9000, by decide +kernel⟩,
   ⟨on, 2, by decide +kernel⟩,
   ⟨(onWith fun l => { l with sup := { l.sup with phase := .firmware, counted := false, cause := 2, resetMt := 0 } }),
     by decide +kernel⟩,
   ⟨ms 100, (onWith fun l => l.setPwr fun p => { p with mode := .limp }), by decide +kernel⟩⟩

theorem witness_ResetLeaves :
    (∃ (c sub : Nat) (s : State) (d0 d1 : DieState) (d : _),
      s.live.load.dies = [d0, d1] ∧
      let t := s.assertReset c sub
      d ∈ t.live.load.dies) ∧
    (∃ (s : State) (d0 d1 : DieState), s.live.load.dies = [d0, d1] ∧ s.live.param.active = none) ∧
    (∃ (s : State) (d0 d1 : DieState),
      s.live.load.dies = [d0, d1]) :=
  ⟨⟨0, 0, on, DieState.init, DieState.init, (on.assertReset 0 0).live.die 0, by decide +kernel⟩,
   ⟨on, DieState.init, DieState.init, by decide +kernel⟩,
   ⟨on, DieState.init, DieState.init, by decide +kernel⟩⟩

theorem witness_PowerOnAndBoot :
    (∃ (s : State), s.live.pwr.powered = true) ∧
    (∃ (d : StartData) (s : State), 6000 < d.mv.getD 4 0 ∧ s.live.pwr.powered = false) ∧
    (∃ (d : StartData) (s : State), 6000 < d.mv.getD 4 0 ∧ s.live.pwr.powered = true ∧ s.live.pwr.holdup = true ∧ s.live.sup.phase
      = .reset ∧ s.live.sup.cause = 1) ∧
    (∃ (s : State), s.live.pwr.powered = true ∧ s.live.pwr.holdup = false ∧ s.live.sup.phase = .reset ∧ s.live.sup.testMode ≠ 0) ∧
    (∃ (s : State), s.live.pwr.powered = true ∧ s.live.pwr.holdup = false ∧ s.live.sup.phase = .reset ∧ s.live.sup.testMode = 0 ∧
      s.kept.cells.lcs = 4) ∧
    (∃ (d : StartData) (s : State),
      s.live.pwr.powered = true ∧
      s.live.pwr.holdup = false ∧
      s.live.sup.phase = .reset ∧
      s.live.sup.testMode = 0 ∧
      s.kept.cells.lcs ≠ 4 ∧
      instJournal s.kept.store = none ∧
      let s' := s.onLive fun l => l.measured d
      s'.assayLost = false ∧
      3 ≤ s'.live.failedNow.length) ∧
    (∃ (d : StartData) (s : State),
      s.live.pwr.powered = true ∧
      s.live.pwr.holdup = false ∧
      s.live.sup.phase = .reset ∧
      s.live.sup.testMode = 0 ∧
      s.kept.cells.lcs ≠ 4 ∧
      instJournal s.kept.store = none ∧
      let s' := s.onLive fun l => l.measured d
      s'.assayLost = false ∧
      s'.live.failedNow.length < 3 ∧
      s.kept.updPending = none ∧
      s'.foundryGood = true) ∧
    (∃ (d : StartData) (s : State),
      s.live.pwr.powered = true ∧
      s.live.pwr.holdup = false ∧
      s.live.sup.phase = .reset ∧
      s.live.sup.testMode = 0 ∧
      s.kept.cells.lcs ≠ 4 ∧
      instJournal s.kept.store = none ∧
      let s' := s.onLive fun l => l.measured d
      s'.assayLost = false ∧
      s'.live.failedNow.length < 3 ∧
      s.kept.updPending = none ∧
      s'.foundryGood = false) ∧
    (∃ (d : StartData) (s : State) (kind : Nat),
      s.live.pwr.powered = true ∧
      s.live.pwr.holdup = false ∧
      s.live.sup.phase = .reset ∧
      s.live.sup.testMode = 0 ∧
      s.kept.cells.lcs ≠ 4 ∧
      instJournal s.kept.store = none ∧
      let s' := s.onLive fun l => l.measured d
      s'.assayLost = false ∧
      s'.live.failedNow.length < 3 ∧
      s.kept.updPending = some kind) ∧
    (∃ (s : State) (kind c : Nat), s.live.pwr.powered = true ∧ s.live.pwr.holdup = false ∧ s.live.sup.phase = .recovery ∧
      s.kept.updPending = some kind ∧ s.stagedBad kind = some c) :=
  ⟨⟨on, by decide +kernel⟩,
   ⟨start, (onWith fun l => { l with pwr := { l.pwr with powered := false } }), by decide +kernel⟩,
   ⟨start, (onWith fun l => { l with sup := { l.sup with phase := .reset, cause := 1 }, pwr := { l.pwr with holdup := true } }),
     by decide +kernel⟩,
   ⟨(onWith fun l => { l with sup := { l.sup with phase := .reset, testMode := 1 } }), by decide +kernel⟩,
   ⟨{ (onWith fun l => { l with sup := { l.sup with phase := .reset } }) with kept := { on.kept with cells := { on.kept.cells with lcs := 4 } } },
     by decide +kernel⟩,
   ⟨start, (onWith fun l => { l with sup := { l.sup with phase := .reset, failed := List.replicate 3 999000000000 } }),
     by decide +kernel⟩,
   ⟨start, (onWith fun l => { l with sup := { l.sup with phase := .reset } }), by decide +kernel⟩,
   ⟨start,
     { (onWith fun l => { l with sup := { l.sup with phase := .reset } }) with kept := { on.kept with factoryFw := false } },
     by decide +kernel⟩,
   ⟨start,
     { (onWith fun l => { l with sup := { l.sup with phase := .reset } }) with kept := { on.kept with updPending := some 1 } }, 1,
     by decide +kernel⟩,
   ⟨{ (onWith fun l => { l with sup := { l.sup with phase := .recovery } }) with kept := { on.kept with updPending := some 1, flash := [(0x400010, 0), (0x400011, 0), (0x400012, 0), (0x400013, 0)] } },
     1, 4, by decide +kernel⟩⟩

theorem witness_AdoptionOfDies :
    (∃ (s : State), s.live.sup.phase = .firmware ∧ s.live.dieWaits 0 = false ∧ s.live.dieWaits 1 = false) ∧
    (∃ (d : Die) (s : State), s.live.dieWaits (dieIndex d) = true ∧ s.live.sup.phase = .running) ∧
    (∃ (l : Live) (d : Nat) (r : DieRead),
      d < l.load.dies.length ∧ (r.readable = false ∨ l.dieCut d = true)) ∧
    (∃ (l : Live) (d : Nat) (r : DieRead),
      d < l.load.dies.length ∧ r.readable = true ∧ l.dieCut d = false ∧ r.moved = 0) ∧
    (∃ (l : Live) (d : Nat) (r : DieRead),
      d < l.load.dies.length ∧ r.readable = true ∧ l.dieCut d = false ∧ r.moved ≠ 0 ∧ 2 ≤ (l.die d).tries) ∧
    (∃ (l : Live) (d : Nat) (r : DieRead),
      d < l.load.dies.length ∧ r.readable = true ∧ l.dieCut d = false ∧ r.moved ≠ 0 ∧ (l.die d).tries < 2) ∧
    (∃ (l : Live) (d : Nat),
      d < l.sup.unadopted.length ∧ d < l.load.dies.length) ∧
    (∃ (x : StartData) (s : State),
      s.live.sup.phase = StartPhase.running ∧ (s.live.die 0).orphan = true ∧ (s.live.die 1).orphan = false ∧ s.live.dieWaits 0 =
      false ∧ s.live.dieUnadopted 0 = false ∧ ((s.live.tryDie s.kept.store 0 (dieRead x 0)).die 1).orphan = false) ∧
    (∃ (d : Die) (r : DieRead) (s : State),
      s.live.sup.phase = StartPhase.running ∧ s.live.dieUnadopted (dieIndex d) = true ∧ (s.live.die (dieIndex d)).lastTry + ms
      100 ≤ s.live.mt.now ∧ dieIndex d < s.live.load.dies.length ∧ r.readable = true ∧ s.live.dieCut (dieIndex d) = false ∧
      r.moved = 0) ∧
    (∃ (d : Die) (r : DieRead) (s : State),
      s.live.sup.phase = StartPhase.running ∧ s.live.dieUnadopted (dieIndex d) = true ∧ (s.live.die (dieIndex d)).lastTry + ms
      100 ≤ s.live.mt.now ∧ dieIndex d < s.live.load.dies.length ∧ (r.readable = false ∨ s.live.dieCut (dieIndex d) = true ∨
      r.moved ≠ 0)) :=
  ⟨⟨(onWith fun l => { l with sup := { l.sup with phase := .firmware } }), by decide +kernel⟩,
   ⟨.n, (onWith fun l => l.setDie 0 fun d => { d with orphan := true, tries := 1 }), by decide +kernel⟩,
   ⟨on.live, 1, { dieRead0 with readable := false }, by decide +kernel⟩,
   ⟨on.live, 1, dieRead0, by decide +kernel⟩,
   ⟨(onWith fun l => l.setDie 0 fun d => { d with tries := 2 }).live, 0, { dieRead0 with moved := 1 }, by decide +kernel⟩,
   ⟨(onWith fun l => l.setDie 0 fun d => { d with tries := 1 }).live, 0, { dieRead0 with moved := 1 }, by decide +kernel⟩,
   ⟨on.live, 1, by decide +kernel⟩,
   ⟨start, (onWith fun l => l.setDie 0 fun d => { d with orphan := true }), by decide +kernel⟩,
   ⟨.n, dieRead0, (onWith fun l => { l with sup := { l.sup with unadopted := [true, false] } }), by decide +kernel⟩,
   ⟨.n, { dieRead0 with moved := 1 }, (onWith fun l => { l with sup := { l.sup with unadopted := [true, false] } }),
     by decide +kernel⟩⟩

theorem witness_AdoptionOfDies_2 :
    ∃ (l l' : Live),
      (∀ d < 2, (l.die d).orphan = false ∨ (l'.die d).orphan = true) :=
  ⟨on.live, on.live, by decide +kernel⟩

theorem witness_ParkDrainAndWake :
    (∃ (m : MbRef) (b : Mailbox) (s : State), Waits s 0x0203 m b ∧ byteAt b.payload 0 &&& 0x7F ≠ 0 ∧ byteAt b.payload 1 < 16 ∧
      byteAt b.payload 8 ≤ 1 ∧ s.live.pwr.mode = .wakeCheck) ∧
    (∃ (m : MbRef) (b : Mailbox) (s : State), Waits s 0x0203 m b ∧ byteAt b.payload 0 &&& 0x7F ≠ 0 ∧ byteAt b.payload 1 < 16 ∧
      byteAt b.payload 8 ≤ 1 ∧ s.live.pwr.mode = .run ∧ (s.live.nm.cfg.on = false ∨ byteAt b.payload 8 = 1) ∧ s.live.doorHeld =
      false) ∧
    (∃ (s : State), s.live.sup.phase = .running ∧ s.live.pwr.mode = .drain ∧ s.live.pwr.drain.step = 1 ∧ ms 1 ≤ s.live.sinceStep) ∧
    (∃ (s : State), s.live.sup.phase = .running ∧ s.live.pwr.mode = .drain ∧ s.live.pwr.drain.step = 2 ∧ (s.live.pwr.drain.entry +
      ms s.live.pwr.cfg.drainMax ≤ s.live.mt.now ∨ s.live.allOff = true)) ∧
    (∃ (s : State), s.live.sup.phase = .running ∧ s.live.pwr.mode = .drain ∧ s.live.pwr.drain.step = 3 ∧ ms 1 ≤ s.live.sinceStep ∧
      s.live.nm.byRing = false) ∧
    (∃ (s : State), s.live.sup.phase = .running ∧ s.live.pwr.mode = .drain ∧ s.live.pwr.drain.step = 4 ∧ ms 5 ≤ s.live.sinceStep ∧
      s.live.shadowBusy = false) ∧
    (∃ (s : State), s.live.sup.phase = .running ∧ s.live.pwr.mode = .drain ∧ s.live.pwr.drain.step = 5 ∧ ms 1 ≤ s.live.sinceStep) ∧
    (∃ (src idx : Nat) (s : State), s.live.mayFire src idx = true ∧ s.live.pwr.mode = .park) ∧
    (∃ (src idx : Nat) (s : State), s.live.mayFire src idx = true ∧ s.live.pwr.mode = .wakeCheck ∧ s.live.sup.phase = .running) ∧
    (∃ (src idx : Nat) (s : State), s.live.mayFire src idx = true ∧ s.live.pwr.mode = .drain ∧ s.live.sup.phase = .running ∧
      s.live.pwr.drain.step < 4 ∧ s.live.nm.byRing = false) :=
  ⟨⟨(.host 0), (box 0x0203 [2, 0, 0, 0, 0, 0, 0, 0, 0, 0, 0, 0]), (asks 0x0203 [2, 0, 0, 0, 0, 0, 0, 0, 0, 0, 0, 0] (fun l =>
    l.setPwr fun p => { p with mode := .wakeCheck })), by decide +kernel⟩,
   ⟨(.host 0), (box 0x0203 [2, 0, 0, 0, 0, 0, 0, 0, 0, 0, 0, 0]), (asks 0x0203 [2, 0, 0, 0, 0, 0, 0, 0, 0, 0, 0, 0]),
     by decide +kernel⟩,
   ⟨(onWith fun l => l.setPwr fun p => { p with mode := .drain, drain := { step := 1, entry := 0, at_ := 0 } }),
     by decide +kernel⟩,
   ⟨(onWith fun l => l.setPwr fun p => { p with mode := .drain, drain := { step := 2, entry := 0, at_ := 0 } }),
     by decide +kernel⟩,
   ⟨(onWith fun l => l.setPwr fun p => { p with mode := .drain, drain := { step := 3, entry := 0, at_ := 0 } }),
     by decide +kernel⟩,
   ⟨(onWith fun l => l.setPwr fun p => { p with mode := .drain, drain := { step := 4, entry := 0, at_ := 0 } }),
     by decide +kernel⟩,
   ⟨(onWith fun l => l.setPwr fun p => { p with mode := .drain, drain := { step := 5, entry := 0, at_ := 0 } }),
     by decide +kernel⟩,
   ⟨2, 0, (onWith fun l => l.setPwr fun p => { p with mode := .park, wake := { p.wake with mask := 4 } }), by decide +kernel⟩,
   ⟨2, 0, (onWith fun l => l.setPwr fun p => { p with mode := .wakeCheck, wake := { p.wake with mask := 4 } }),
    by decide +kernel⟩,
   ⟨2, 0, (onWith fun l => l.setPwr fun p =>
     { p with mode := .drain, drain := { p.drain with step := 3 }, wake := { p.wake with mask := 4 } }), by decide +kernel⟩⟩

theorem witness_ParkDrainAndWake_2 :
    (∃ (src idx : Nat) (s : State), s.live.mayFire src idx = true ∧ s.live.pwr.mode = .drain ∧ s.live.sup.phase = .running ∧ 4 ≤
      s.live.pwr.drain.step ∧ s.live.pwr.wake.late = false) ∧
    (∃ (s : State), s.live.pwr.mode = .park ∧ bit s.live.pwr.wake.mask 5 = true) ∧
    (∃ (s : State), s.live.sup.phase = .running ∧ s.live.pwr.mode = .wakeCheck ∧ s.live.pwr.wake.checkAt + ms
      s.live.pwr.cfg.wakeCheckMax ≤ s.live.mt.now) ∧
    (∃ (n : Nat) (s : State), n < s.live.fio.wk.length ∧ s.live.wkEnabled n = true ∧ s.live.pwr.mode = .park ∧ (s.live.wkIn
      n).polledAt + ms (s.live.parkInterval n) ≤ s.live.mt.now) ∧
    (∃ (n : Nat) (s : State), s.live.sup.phase = .running ∧ n < s.live.fio.wk.length ∧ s.live.wkEnabled n = true ∧ s.live.pwr.mode
      = .wakeCheck ∧ (s.live.wkIn n).polledAt + ms 4 ≤ s.live.mt.now) ∧
    (∃ (n : Nat) (s : State), n < s.live.fio.wk.length ∧ n ≤ 15 ∧ s.live.pwr.mode = .run) ∧
    (∃ (m : MbRef) (b : Mailbox) (s : State),
      Waits s 515 m b ∧
      let p := b.payload
      byteAt p 0 &&& 127 ≠ 0 ∧ byteAt p 1 < 16 ∧ byteAt p 8 ≤ 1 ∧ s.live.pwr.mode = Mode.run ∧ s.live.doorHeld = true) ∧
    (∃ (m : MbRef) (b : Mailbox) (s : State),
      Waits s 515 m b ∧
      let p := b.payload
      byteAt p 0 &&& 127 ≠ 0 ∧ byteAt p 1 < 16 ∧ byteAt p 8 ≤ 1 ∧ s.live.pwr.mode = Mode.run ∧ s.live.doorHeld = false ∧
      s.live.nm.cfg.on = true ∧ byteAt p 8 = 0) ∧
    (∃ (src idx : Nat) (s : State),
      s.live.sup.phase = StartPhase.running ∧ s.live.pwr.mode = Mode.wakeCheck ∧ bit s.live.pwr.wake.latched src = true ∧
      s.live.validated src idx = true) :=
  ⟨⟨2, 0, (onWith fun l => l.setPwr fun p =>
     { p with mode := .drain, drain := { p.drain with step := 4 }, wake := { p.wake with mask := 4 } }), by decide +kernel⟩,
   ⟨(onWith fun l => l.setPwr fun p => { p with mode := .park, wake := { p.wake with mask := 0x20 } }), by decide +kernel⟩,
   ⟨(onWith fun l => l.setPwr fun p => { p with mode := .wakeCheck }), by decide +kernel⟩,
   ⟨15, (onWith fun l => l.setPwr fun p => { p with mode := .park, wake := { p.wake with mask := 1, wkMask := 0x8000 } }),
     by decide +kernel⟩,
   ⟨15, (onWith fun l => l.setPwr fun p => { p with mode := .wakeCheck, wake := { p.wake with mask := 1, wkMask := 0x8000 } }),
     by decide +kernel⟩,
   ⟨15, on, by decide +kernel⟩,
   ⟨(.host 0), (box 0x0203 [2, 0, 0, 0, 0, 0, 0, 0, 1, 0, 0, 0]),
     (asks 0x0203 [2, 0, 0, 0, 0, 0, 0, 0, 1, 0, 0, 0] (fun l => l.setValve 0 fun v => { v with cfg := { v.cfg with interlock := 1 }, phase := .hold })),
     by decide +kernel⟩,
   ⟨(.host 0), (box 0x0203 [2, 0, 0, 0, 0, 0, 0, 0, 0, 0, 0, 0]),
     (asks 0x0203 [2, 0, 0, 0, 0, 0, 0, 0, 0, 0, 0, 0] (fun l => l.setNm fun n => { n with cfg := { n.cfg with ch := 0 } })),
     by decide +kernel⟩,
   ⟨3, 0, (onWith fun l => l.setPwr fun p => { p with mode := .wakeCheck, wake := { p.wake with latched := 8 } }),
     by decide +kernel⟩⟩

theorem witness_SupplySagsAndConfig :
    (∃ (c : Nat) (s : State), s.live.sagCause = some c ∧ s.live.sup.phase = .running ∧ s.live.pwr.sag.active = false) ∧
    (∃ (q : Nat) (s : State), s.live.sup.phase = .running ∧ s.live.pwr.sag.active = true ∧ s.live.pwr.sag.undo = 0 ∧
      s.live.pwr.sag.qualSince = some q ∧ q + ms 5 ≤ s.live.mt.now ∧ 950 < s.live.pwr.railMv) ∧
    (∃ (s : State), s.live.sup.phase = .running ∧ s.live.pwr.sag.active = true ∧ s.live.pwr.sag.undoAt + us 100 ≤ s.live.mt.now ∧
      s.live.pwr.sag.undo = 1) ∧
    (∃ (s : State), s.live.pwr.powered = true) ∧
    (∃ (s : State), s.live.pwr.overvolt = false ∧ 37000 < s.live.vbat) ∧
    (∃ (q : Nat) (s : State), s.live.pwr.overvolt = true ∧ s.live.pwr.overBelow = some q ∧ q + ms 5 ≤ s.live.mt.now) ∧
    (∃ (t : Nat) (s : State), s.live.pwr.v5On = true ∧ ms 10 < t) ∧
    (∃ (s : State), s.live.pwr.v5On = false ∧ s.live.pwr.v5OffUntil ≠ 0 ∧ s.live.pwr.v5OffUntil ≤ s.live.mt.now) ∧
    (∃ (mv : Nat) (s : State), mv < 4500 ∧ s.live.led.darkVled = false) ∧
    (∃ (mv t : Nat) (s : State), 4800 < mv ∧ ms 5 ≤ t ∧ s.live.led.darkVled = true ∧ s.live.led.resume = false) :=
  ⟨⟨0, (onWith fun l => l.setPwr fun p => { p with vbat := List.replicate 5 10499 }), by decide +kernel⟩,
   ⟨0, (onWith fun l => l.setSag fun g => { g with active := true, qualSince := some 0 }), by decide +kernel⟩,
   ⟨(onWith fun l => l.setSag fun g => { g with active := true, undo := 1 }), by decide +kernel⟩,
   ⟨on, by decide +kernel⟩,
   ⟨(onWith fun l => l.setPwr fun p => { p with vbat := List.replicate 5 37001 }), by decide +kernel⟩,
   ⟨0, (onWith fun l => l.setPwr fun p => { p with overvolt := true, overBelow := some 0 }), by decide +kernel⟩,
   ⟨ms 10 + 1, (onWith fun l => l.setPwr fun p => { p with v5On := true }), by decide +kernel⟩,
   ⟨(onWith fun l => l.setPwr fun p => { p with v5OffUntil := 1 }), by decide +kernel⟩,
   ⟨4499, on, by decide +kernel⟩,
   ⟨4801, ms 5, (onWith fun l => l.setLed fun d => { d with darkVled := true }), by decide +kernel⟩⟩

theorem witness_SupplySagsAndConfig_2 :
    (∃ (t : Nat) (s : State), s.live.pwr.chargerOn = true ∧ 100 ≤ t / 200000) ∧
    (∃ (t : Nat) (s : State), s.live.pwr.chargerOn = true ∧ t / 200000 < 100) ∧
    (∃ (m : MbRef) (b : Mailbox) (s : State), Waits s 0x0201 m b) ∧
    (∃ (m : MbRef) (b : Mailbox) (s : State),
      Waits s 0x0202 m b ∧
      (
      let p := b.payload
      inRange 9000 16000 (rd p 0 2) = true ∧ rd p 0 2 % 100 = 0 ∧ inRange 1 20 (byteAt p 2) = true ∧ byteAt p 4 ≤ 200 ∧
      byteAt p 5 ≤ 7 ∧ inRange 10 5000 (rd p 6 2) = true ∧ (∀ g, g < 4 → inRange 1 45 (byteAt p (8 + g)) = true) ∧
      (∀ g, g < 4 → inRange 1 80 (byteAt p (12 + g)) = true) ∧ inRange 50 5000 (rd p 16 2) = true ∧
      inRange 100 10000 (rd p 18 2) = true ∧ byteAt p 20 < 4)) ∧
    (∃ (c : Nat) (s : State),
      s.live.sagCause = some c ∧ s.live.sup.phase = StartPhase.running ∧ s.live.pwr.sag.active = true ∧ s.live.pwr.sag.undo ≠ 0) ∧
    (∃ (s : State),
      s.live.sup.phase = StartPhase.running ∧ s.live.pwr.sag.active = true ∧ s.live.pwr.sag.undoAt + us 100 ≤ s.live.mt.now ∧ 2
      ≤ s.live.pwr.sag.undo ∧ s.live.pwr.sag.row ≠ 0) ∧
    (∃ (s : State),
      s.live.sup.phase = StartPhase.running ∧ s.live.pwr.sag.active = true ∧ s.live.pwr.sag.undoAt + us 100 ≤ s.live.mt.now ∧ 2
      ≤ s.live.pwr.sag.undo ∧ s.live.pwr.sag.row = 0) ∧
    (∃ (s : State),
      s.live.sup.phase = StartPhase.running) ∧
    (∃ (s : State),
      s.live.sup.phase = StartPhase.running ∧ (∀ e ∈ s.live.plan.edges, e.phase ≠ EdgePhase.held ∨ e.bySag = false ∨
      e.work.restarts = true ∨ ∀ (t : Nat), e.deferAt = some t → s.live.mt.now < t + ms s.live.pwr.cfg.sagDeferMax)) ∧
    (∃ (s : State) (e : Edge) (t : Nat),
      s.live.sup.phase = StartPhase.running ∧ s.live.plan.edges = [e] ∧ e.phase = EdgePhase.held ∧ e.bySag = true ∧
      e.work.restarts = false ∧ e.deferAt = some t ∧ t + ms s.live.pwr.cfg.sagDeferMax ≤ s.live.mt.now) :=
  ⟨⟨20000000, (onWith fun l => l.setPwr fun p => { p with chargerOn := true }), by decide +kernel⟩,
   ⟨19999999, (onWith fun l => l.setPwr fun p => { p with chargerOn := true }), by decide +kernel⟩,
   ⟨(.host 0), (box 0x0201 []), (asks 0x0201 []), by decide +kernel⟩,
   ⟨(.host 0), (box 0x0202 (le 2 9000 ++ le 1 1 ++ [0] ++ le 1 200 ++ le 1 7 ++ le 2 10 ++ [1, 45, 45, 45] ++ [80, 1, 80, 1] ++ le
     2 50 ++ le 2 10000 ++ [3, 0, 0, 0])), (asks 0x0202 (le 2 9000 ++ le 1 1 ++ [0] ++ le 1 200 ++ le 1 7 ++ le 2 10 ++ [1, 45,
     45, 45] ++ [80, 1, 80, 1] ++ le 2 50 ++ le 2 10000 ++ [3, 0, 0, 0])), by decide +kernel⟩,
   ⟨0,
     (onWith fun l => l.setPwr fun p => { p with vbat := List.replicate 5 10499, sag := { p.sag with active := true, undo := 2 } }),
     by decide +kernel⟩,
   ⟨(onWith fun l => l.setSag fun g => { g with active := true, undo := 2, row := 1 }), by decide +kernel⟩,
   ⟨(onWith fun l => l.setSag fun g => { g with active := true, undo := 3, row := 0 }), by decide +kernel⟩,
   ⟨on, by decide +kernel⟩,
   ⟨(onWith fun l => { l with plan := { l.plan with edges := [edge0 .held] } }), by decide +kernel⟩,
   ⟨(onWith fun l => { l with plan := { l.plan with edges := [{ edge0 .held with bySag := true, deferAt := some 0 }] } }),
     { edge0 .held with bySag := true, deferAt := some 0 }, 0, by decide +kernel⟩⟩

theorem witness_SupplySagsAndConfig_3 :
    (∃ (mv : Nat) (s : State),
      mv < 5500 ∧ s.live.pwr.holdup = false ∧ s.live.sup.phase ≠ StartPhase.off) ∧
    (∃ (mv : Nat) (s : State),
      6000 < mv ∧ s.live.pwr.holdup = true ∧ 9000 < s.live.pwr.vholdMv) ∧
    (∃ (l : Live),
      l.pwr.sag.active = false) :=
  ⟨⟨5499, on, by decide +kernel⟩,
   ⟨6001, (onWith fun l => l.setPwr fun p => { p with holdup := true, vholdMv := 9001 }), by decide +kernel⟩,
   ⟨on.live, by decide +kernel⟩⟩

theorem witness_LinksAndCrossings :
    (∀ t, t < 16 → Config.d2dWrite t = true → ∃ (k dir lane : Nat) (f : BitVec 64) (d : D2dLink) (s : State),
      s.live.arch.d2d[2 * k + dir]? = some d ∧ dir ≤ 1 ∧ d.retired.getD lane true = false ∧ lane < d.badRun.length ∧
      flitOk f = true ∧ Config.d2dWrite (flitType f) = true ∧ d.isNew (flitSeq f) = true) ∧
    (∀ t, t < 16 → Config.d2dWrite t = true → ∃ (k dir lane : Nat) (f : BitVec 64) (d : D2dLink) (s : State),
      s.live.arch.d2d[2 * k + dir]? = some d ∧ dir ≤ 1 ∧ d.retired.getD lane true = false ∧ lane < d.badRun.length ∧
      flitOk f = true ∧ Config.d2dWrite (flitType f) = true ∧ d.isNew (flitSeq f) = false) ∧
    (∀ t, t < 16 → Config.d2dWrite t = false → ∃ (k dir lane : Nat) (f : BitVec 64) (d : D2dLink) (s : State),
      s.live.arch.d2d[2 * k + dir]? = some d ∧ dir ≤ 1 ∧ d.retired.getD lane true = false ∧ lane < d.badRun.length ∧
      flitOk f = true ∧ Config.d2dWrite (flitType f) = false) ∧
    (∃ (k dir lane : Nat) (f : BitVec 64) (d : D2dLink) (s : State),
      s.live.arch.d2d[2 * k + dir]? = some d ∧ dir ≤ 1 ∧ d.retired.getD lane true = false ∧ lane < d.badRun.length ∧
      flitOk f = false ∧ d.badRun.getD lane 0 < 2) ∧
    (∃ (k dir lane : Nat) (f : BitVec 64) (d : D2dLink) (s : State),
      s.live.arch.d2d[2 * k + dir]? = some d ∧ dir ≤ 1 ∧ d.retired.getD lane true = false ∧ lane < d.badRun.length ∧
      flitOk f = false ∧ 2 ≤ d.badRun.getD lane 0) ∧
    (∃ (k dir : Nat) (d : D2dLink) (l : Live),
      l.arch.d2d[2 * k + dir]? = some d ∧ dir ≤ 1 ∧ k < 2 ∧ d.retired.all id = true) ∧
    (∃ (d : Die) (s : State),
      (s.live.die (dieIndex d)).orphan = false ∧ s.live.dieCut (dieIndex d) = false ∧ s.live.sup.phase = StartPhase.running ∧
      (s.live.die (dieIndex d)).lastHb + ms 1 ≤ s.live.mt.now ∧ dieIndex d < s.live.load.dies.length) ∧
    (∃ (d : Die) (s : State),
      (s.live.dieCut (dieIndex d) = true ∨ (s.live.die (dieIndex d)).orphan = true)) ∧
    (∃ (x y n kind : Nat) (s : State),
      (s.live.crossing x y n).failed = false ∧ kind ≤ 2) ∧
    (∃ (x y n : Nat) (s : State),
      (s.live.crossing x y n).failed = true) :=
  ⟨(fun t ht hw => ⟨0, 1, 1, flitOf (t * 2 ^ 32) 0, link1 0, linkState (link1 0), by decide +kernel, by decide, by decide +kernel,
     by decide +kernel, flitOf_good _ (by omega), by rw [flitOf_type t ht]; exact hw, rfl⟩),
   (fun t ht hw => ⟨0, 1, 1, flitOf (t * 2 ^ 32) 0, { link1 0 with lastSeq := some 0 }, linkState ({ link1 0 with lastSeq := some 0 }), by decide +kernel, by decide, by decide +kernel,
     by decide +kernel, flitOf_good _ (by omega), by rw [flitOf_type t ht]; exact hw, by rw [flitOf_seq t ht]; rfl⟩),
   (fun t ht hw => ⟨0, 1, 1, flitOf (t * 2 ^ 32) 0, link1 0, linkState (link1 0), by decide +kernel, by decide, by decide +kernel,
     by decide +kernel, flitOf_good _ (by omega), by rw [flitOf_type t ht]; exact hw⟩),
   ⟨0, 1, 1, flitOf 0 1, link1 1, linkState (link1 1), by decide +kernel, by decide, by decide +kernel, by decide +kernel,
     flitOf_bad _ (by decide), by decide +kernel⟩,
   ⟨0, 1, 1, flitOf 0 1, link1 2, linkState (link1 2), by decide +kernel, by decide, by decide +kernel, by decide +kernel,
     flitOf_bad _ (by decide), by decide +kernel⟩,
   ⟨0, 1, { link1 0 with retired := List.replicate 4 true },
     (onWith fun l => { l with arch := { l.arch with d2d := l.arch.d2d.set 1 { link1 0 with retired := List.replicate 4 true } } }).live,
     by decide +kernel⟩,
   ⟨.s, on, by decide +kernel⟩,
   ⟨.s, (onWith fun l => l.setDie 1 fun d => { d with orphan := true }), by decide +kernel⟩,
   ⟨1, 2, 3, 2, on, by decide +kernel⟩,
   ⟨1, 2, 3, (onWith failed123), by decide +kernel⟩⟩

theorem witness_LinksAndCrossings_2 :
    (∃ (c : Crossing),
      c.retry = none) ∧
    (∃ (l : Live) (m : MbRef),
      (l.plan.openCmds.any fun c => c.m == m) = false) ∧
    (∃ (x y n : Nat) (s : State),
      (s.live.crossing x y n).failed = true ∧ (s.live.crossing x y n).lastTest + ms 100 ≤ s.live.mt.now) :=
  ⟨⟨crossing123, by decide +kernel⟩,
   ⟨on.live, (.host 7), by decide +kernel⟩,
   ⟨1, 2, 3, (onWith failed123), by decide +kernel⟩⟩

theorem witness_LoadCommandRows :
    (∃ (m : MbRef) (b : Mailbox) (s : State), Waits s 0x1003 m b ∧ byteAt b.payload 0 ≤ 47 ∧ inRange 1 31 (byteAt b.payload 1) =
      true ∧ byteAt b.payload 0 + byteAt b.payload 1 ≤ 48) ∧
    (∃ (l : Live) (n k : Nat), n < l.load.ch.length ∧ k ≠ n) ∧
    (∃ (m : MbRef) (b : Mailbox) (s : State),
      Waits s 4097 m b ∧
      let p := b.payload
      firstBad (loadCfgChecks p) = none ∧ s.live.dieLost (byteAt p 0 / 24) = true) ∧
    (∃ (m : MbRef) (b : Mailbox) (s : State),
      Waits s 4097 m b ∧
      let p := b.payload
      firstBad (loadCfgChecks p) = none ∧ s.live.dieLost (byteAt p 0 / 24) = false ∧ s.live.pwr.mode = Mode.drain) ∧
    (∃ (m : MbRef) (b : Mailbox) (s : State) (k : Nat),
      Waits s 4097 m b ∧
      let p := b.payload
      firstBad (loadCfgChecks p) = none ∧ s.live.dieLost (byteAt p 0 / 24) = false ∧ s.live.pwr.mode ≠ Mode.drain ∧ ((if
      (LoadCfg.ofBytes p).par = 0 then none else List.find? (s.live.otherGroup (byteAt p 0)) (List.map (fun x => byteAt p 0 + x)
      (List.range (parMembers (LoadCfg.ofBytes p).par)))) = some k)) ∧
    (∃ (m : MbRef) (b : Mailbox) (s : State),
      Waits s 4097 m b ∧
      let p := b.payload
      firstBad (loadCfgChecks p) = none ∧ s.live.dieLost (byteAt p 0 / 24) = false ∧ s.live.pwr.mode ≠ Mode.drain ∧ ((if
      (LoadCfg.ofBytes p).par = 0 then none else List.find? (s.live.otherGroup (byteAt p 0)) (List.map (fun x => byteAt p 0 + x)
      (List.range (parMembers (LoadCfg.ofBytes p).par)))) = none) ∧ (s.live.ch (byteAt p 0)).lowest = byteAt p 0 ∧ (∀ k ∈
      List.map (fun x => byteAt p 0 + x) (List.range (parMembers (LoadCfg.ofBytes p).par)) ++ s.live.groupOf (byteAt p 0),
      (s.live.ch (s.live.ch k).lowest).idle = true)) ∧
    (∃ (m : MbRef) (b : Mailbox) (s : State),
      Waits s 4097 m b ∧
      let p := b.payload
      firstBad (loadCfgChecks p) = none ∧ s.live.dieLost (byteAt p 0 / 24) = false ∧ s.live.pwr.mode ≠ Mode.drain ∧ ((if
      (LoadCfg.ofBytes p).par = 0 then none else List.find? (s.live.otherGroup (byteAt p 0)) (List.map (fun x => byteAt p 0 + x)
      (List.range (parMembers (LoadCfg.ofBytes p).par)))) = none) ∧ ((s.live.ch (byteAt p 0)).lowest ≠ byteAt p 0 ∨ ∃ k ∈
      List.map (fun x => byteAt p 0 + x) (List.range (parMembers (LoadCfg.ofBytes p).par)) ++ s.live.groupOf (byteAt p 0),
      (s.live.ch (s.live.ch k).lowest).idle = false)) ∧
    (∃ (m : MbRef) (b : Mailbox) (s : State) (n : Nat),
      Waits s 4100 m b ∧
      let p := b.payload
      (resv b 6 2).2 = true ∧ (∀ n ∈ bitsOf 48 (rd p 0 6), s.live.dieLost (n / 24) = false) ∧ List.find? (fun n => (s.live.ch
      n).lowest != n) (bitsOf 48 (rd p 0 6)) = some n) ∧
    (∃ (m : MbRef) (b : Mailbox) (s : State),
      Waits s 4100 m b ∧
      let p := b.payload
      (resv b 6 2).2 = true ∧ (∀ n ∈ bitsOf 48 (rd p 0 6), s.live.dieLost (n / 24) = false) ∧ (∀ n ∈ bitsOf 48 (rd p 0 6),
      (s.live.ch n).lowest = n)) ∧
    (∃ (l : Live) (n : Nat),
      n < l.load.ch.length) :=
  ⟨⟨(.host 0), (box 0x1003 [17, 31]), (asks 0x1003 [17, 31]), by decide +kernel⟩,
   ⟨on.live, 47, 0, by decide +kernel⟩,
   ⟨(.host 0), (box 0x1001 loadCfg47),
     (asks 0x1001 loadCfg47 (fun l => { l with sup := { l.sup with unadopted := [false, true] } })), by decide +kernel⟩,
   ⟨(.host 0), (box 0x1001 loadCfg47), (asks 0x1001 loadCfg47 (fun l => l.setPwr fun p => { p with mode := .drain })),
     by decide +kernel⟩,
   ⟨(.host 0), (box 0x1001 loadCfg46),
     (asks 0x1001 loadCfg46 (fun l => l.setCh 47 fun c => { c with cfg := { c.cfg with par := 1 } })), 47, by decide +kernel⟩,
   ⟨(.host 0), (box 0x1001 loadCfg47), (asks 0x1001 loadCfg47), by decide +kernel⟩,
   ⟨(.host 0), (box 0x1001 loadCfg47), (asks 0x1001 loadCfg47 (fun l => l.setCh 47 fun c => { c with sw := .on })),
     by decide +kernel⟩,
   ⟨(.host 0), (box 0x1004 (le 6 (2 ^ 47) ++ [0, 0])),
     (asks 0x1004 (le 6 (2 ^ 47) ++ [0, 0]) (fun l => l.setCh 47 fun c => { c with lowest := 46 })), 47, by decide +kernel⟩,
   ⟨(.host 0), (box 0x1004 (le 6 (2 ^ 47) ++ [0, 0])), (asks 0x1004 (le 6 (2 ^ 47) ++ [0, 0])), by decide +kernel⟩,
   ⟨on.live, 47, by decide +kernel⟩⟩

theorem witness_LoadCommandRows_2 :
    (∃ (l : Live) (n : Nat),
      n < l.load.ch.length ∧ (l.ch n).state = 8) ∧
    (∃ (l : Live) (n : Nat),
      n < l.load.ch.length ∧ (l.ch n).state = 8 ∧ l.fade n = none) ∧
    (∃ (l : Live) (n : Nat),
      n < l.load.ch.length ∧ (l.ch n).state ≠ 8) ∧
    (∃ (l : Live) (n a : Nat),
      a ≤ 2 ∧ l.dieLost (n / 24) = false ∧ l.pwr.mode ≠ Mode.drain ∧ (l.ch n).lowest = n ∧ l.fade n = none ∧ l.withdraw
      (Source.load n) = l ∧ n < l.load.ch.length ∧ (l.ch n).latch = true ∧ a ≠ 0) ∧
    (∃ (l : Live) (n a : Nat),
      a ≤ 2 ∧ l.dieLost (n / 24) = false ∧ l.pwr.mode ≠ Mode.drain ∧ (l.ch n).lowest = n ∧ l.fade n = none ∧ l.withdraw
      (Source.load n) = l ∧ n < l.load.ch.length ∧ (l.ch n).latch = true ∧ a = 0) ∧
    (∃ (l : Live) (n a : Nat),
      a ≤ 2 ∧ l.dieLost (n / 24) = false ∧ l.pwr.mode ≠ Mode.drain ∧ (l.ch n).lowest = n ∧ l.fade n = none ∧ l.withdraw
      (Source.load n) = l ∧ n < l.load.ch.length ∧ (l.ch n).latch = false ∧ ((l.ch n).shed || (l.ch n).dropped || (l.ch n).state
      == 5 || (l.ch n).state == 6 || (l.ch n).state == 7 || (l.ch n).clampHeld) = true ∧ a ≠ 0) ∧
    (∃ (l : Live) (n a : Nat),
      a ≤ 2 ∧ l.dieLost (n / 24) = false ∧ l.pwr.mode ≠ Mode.drain ∧ (l.ch n).lowest = n ∧ l.fade n = none ∧ l.withdraw
      (Source.load n) = l ∧ n < l.load.ch.length ∧ (l.ch n).latch = false ∧ ((l.ch n).shed || (l.ch n).dropped || (l.ch n).state
      == 5 || (l.ch n).state == 6 || (l.ch n).state == 7 || (l.ch n).clampHeld) = true ∧ a = 0 ∧ (l.ch n).conducts = false) ∧
    (∃ (l : Live) (n a : Nat),
      a ≤ 2 ∧ l.dieLost (n / 24) = false ∧ l.pwr.mode ≠ Mode.drain ∧ (l.ch n).lowest = n ∧ l.fade n = none ∧ l.withdraw
      (Source.load n) = l ∧ n < l.load.ch.length ∧ (l.ch n).latch = false ∧ ((l.ch n).shed || (l.ch n).dropped || (l.ch n).state
      == 5 || (l.ch n).state == 6 || (l.ch n).state == 7 || (l.ch n).clampHeld) = true ∧ a = 0 ∧ (l.ch n).conducts = true) ∧
    (∃ (l : Live) (n a : Nat),
      a ≤ 2 ∧ l.dieLost (n / 24) = false ∧ l.pwr.mode ≠ Mode.drain ∧ (l.ch n).lowest = n ∧ l.fade n = none ∧ l.withdraw
      (Source.load n) = l ∧ n < l.load.ch.length ∧ (l.ch n).latch = false ∧ ((l.ch n).shed || (l.ch n).dropped || (l.ch n).state
      == 5 || (l.ch n).state == 6 || (l.ch n).state == 7 || (l.ch n).clampHeld) = false ∧ (l.ch n).sw = Switch.off ∧ a = 0) ∧
    (∃ (l : Live) (n a : Nat),
      a ≤ 2 ∧ l.dieLost (n / 24) = false ∧ l.pwr.mode ≠ Mode.drain ∧ (l.ch n).lowest = n ∧ l.fade n = none ∧ l.withdraw
      (Source.load n) = l ∧ n < l.load.ch.length ∧ (l.ch n).latch = false ∧ ((l.ch n).shed || (l.ch n).dropped || (l.ch n).state
      == 5 || (l.ch n).state == 6 || (l.ch n).state == 7 || (l.ch n).clampHeld) = false ∧ (l.ch n).sw = Switch.clamp ∧ a = 0) :=
  ⟨⟨(onCh47 fun c => { c with latch := true }).live, 47, by decide +kernel⟩,
   ⟨(onCh47 fun c => { c with latch := true }).live, 47, by decide +kernel⟩,
   ⟨on.live, 47, by decide +kernel⟩,
   ⟨(onCh47 fun c => { c with latch := true }).live, 47, 1, by decide +kernel⟩,
   ⟨(onCh47 fun c => { c with latch := true }).live, 47, 0, by decide +kernel⟩,
   ⟨(onCh47 fun c => { c with cmd := .on, tlatch := true }).live, 47, 2, by decide +kernel⟩,
   ⟨(onCh47 fun c => { c with cmd := .on, tlatch := true }).live, 47, 0, by decide +kernel⟩,
   ⟨(onCh47 fun c => { c with sw := .on, cmd := .on, shed := true }).live, 47, 0, by decide +kernel⟩,
   ⟨on.live, 47, 0, by decide +kernel⟩,
   ⟨(onCh47 fun c => { c with sw := .clamp }).live, 47, 0, by decide +kernel⟩⟩

theorem witness_LoadCommandRows_3 :
    (∃ (l : Live) (n a : Nat),
      a ≤ 2 ∧ l.dieLost (n / 24) = false ∧ l.pwr.mode ≠ Mode.drain ∧ (l.ch n).lowest = n ∧ l.fade n = none ∧ l.withdraw
      (Source.load n) = l ∧ n < l.load.ch.length ∧ (l.ch n).latch = false ∧ ((l.ch n).shed || (l.ch n).dropped || (l.ch n).state
      == 5 || (l.ch n).state == 6 || (l.ch n).state == 7 || (l.ch n).clampHeld) = false ∧ ((l.ch n).sw = Switch.off ∨ (l.ch
      n).sw = Switch.clamp) ∧ a ≠ 0) ∧
    (∃ (l : Live) (n a : Nat),
      a ≤ 2 ∧ l.dieLost (n / 24) = false ∧ l.pwr.mode ≠ Mode.drain ∧ (l.ch n).lowest = n ∧ l.fade n = none ∧ l.withdraw
      (Source.load n) = l ∧ n < l.load.ch.length ∧ (l.ch n).latch = false ∧ ((l.ch n).shed || (l.ch n).dropped || (l.ch n).state
      == 5 || (l.ch n).state == 6 || (l.ch n).state == 7 || (l.ch n).clampHeld) = false ∧ (l.ch n).conducts = true ∧ a = 0) ∧
    (∃ (l : Live) (n a : Nat),
      a ≤ 2 ∧ l.dieLost (n / 24) = false ∧ l.pwr.mode ≠ Mode.drain ∧ (l.ch n).lowest = n ∧ l.fade n = none ∧ l.withdraw
      (Source.load n) = l ∧ n < l.load.ch.length ∧ (l.ch n).latch = false ∧ ((l.ch n).shed || (l.ch n).dropped || (l.ch n).state
      == 5 || (l.ch n).state == 6 || (l.ch n).state == 7 || (l.ch n).clampHeld) = false ∧ (l.ch n).sw = Switch.slew ∧ a ≠ 0) ∧
    (∃ (l : Live) (n a d : Nat),
      a ≤ 2 ∧ l.dieLost (n / 24) = false ∧ l.pwr.mode ≠ Mode.drain ∧ (l.ch n).lowest = n ∧ l.fade n = none ∧ l.withdraw
      (Source.load n) = l ∧ n < l.load.ch.length ∧ (l.ch n).latch = false ∧ ((l.ch n).shed || (l.ch n).dropped || (l.ch n).state
      == 5 || (l.ch n).state == 6 || (l.ch n).state == 7 || (l.ch n).clampHeld) = false ∧ (l.ch n).conducts = true ∧ (l.ch n).sw
      ≠ Switch.slew ∧ a ≠ 0 ∧ (l.ch n).cmd = cmdOf a d) ∧
    (∃ (l : Live) (n a d : Nat),
      a ≤ 2 ∧ l.dieLost (n / 24) = false ∧ l.pwr.mode ≠ Mode.drain ∧ (l.ch n).lowest = n ∧ l.fade n = none ∧ l.withdraw
      (Source.load n) = l ∧ n < l.load.ch.length ∧ (l.ch n).latch = false ∧ ((l.ch n).shed || (l.ch n).dropped || (l.ch n).state
      == 5 || (l.ch n).state == 6 || (l.ch n).state == 7 || (l.ch n).clampHeld) = false ∧ (l.ch n).conducts = true ∧ (l.ch n).sw
      ≠ Switch.slew ∧ a ≠ 0 ∧ (l.ch n).cmd ≠ cmdOf a d) ∧
    (∃ (l : Live) (n : Nat) (st : Status),
      l.turnOnRefused n = some st) ∧
    (∃ (l : Live) (n : Nat),
      l.turnOnRefused n = none ∧ ((l.ch n).tlatch = true ∨ (l.ch n).uvhold = true)) ∧
    (∃ (l : Live) (n : Nat) (cmd : LoadCmd),
      l.turnOnRefused n = none ∧ (l.ch n).tlatch = false ∧ (l.ch n).uvhold = false ∧ (cmd = LoadCmd.on ∨ ((l.sagDefers ||
      l.shedDelays) && !l.urgent (l.ch n).cfg.prio) = true)) ∧
    (∃ (l : Live) (n : Nat) (cmd : LoadCmd),
      l.turnOnRefused n = none ∧ (l.ch n).tlatch = false ∧ (l.ch n).uvhold = false ∧ cmd ≠ LoadCmd.on ∧ ((l.sagDefers ||
      l.shedDelays) && !l.urgent (l.ch n).cfg.prio) = false) ∧
    (∃ (l : Live),
      l.pwr.overvolt = true) :=
  ⟨⟨on.live, 47, 1, by decide +kernel⟩,
   ⟨(onCh47 fun c => { c with cmd := .on, sw := .on }).live, 47, 0, by decide +kernel⟩,
   ⟨(onCh47 fun c => { c with cmd := .on, sw := .slew }).live, 47, 2, by decide +kernel⟩,
   ⟨(onCh47 fun c => { c with cmd := .on, sw := .on }).live, 47, 1, 0, by decide +kernel⟩,
   ⟨(onCh47 fun c => { c with cmd := .on, sw := .on }).live, 47, 2, 100, by decide +kernel⟩,
   ⟨(onWith fun l => l.setPwr fun p => { p with overvolt := true }).live, 47, .state, by decide +kernel⟩,
   ⟨(onCh47 fun c => { c with tlatch := true }).live, 47, by decide +kernel⟩,
   ⟨on.live, 47, .on, by decide +kernel⟩,
   ⟨on.live, 47, .pwm 100, by decide +kernel⟩,
   ⟨(onWith fun l => l.setPwr fun p => { p with overvolt := true }).live, by decide +kernel⟩⟩

theorem witness_LoadCommandRows_4 :
    (∃ (l : Live) (n : Nat),
      l.pwr.overvolt = false ∧ (l.ch n).clampHot = false ∧ (l.die (n / 24)).stale = true) ∧
    (∃ (m : MbRef) (b : Mailbox) (s : State),
      Waits s 4098 m b ∧ firstBad (s.live.loadSetChecks b.payload) = none ∧ b.staged = false) ∧
    (∃ (m : MbRef) (b : Mailbox) (s : State),
      Waits s 4098 m b ∧
      let p := b.payload
      firstBad (s.live.loadSetChecks p) = none ∧ b.staged = true ∧ 256 < s.live.host.staged.length + (loadEntries p).length) ∧
    (∃ (m : MbRef) (b : Mailbox) (s : State),
      Waits s 4098 m b ∧
      let p := b.payload
      firstBad (s.live.loadSetChecks p) = none ∧ b.staged = true ∧ s.live.host.staged.length + (loadEntries p).length ≤ 256) :=
  ⟨⟨(onWith fun l => l.setDie 1 fun d => { d with stale := true }).live, 47, by decide +kernel⟩,
   ⟨(.host 0), (box 0x1002 [1, 0, 0, 0, 47, 1, 0, 0]), (asks 0x1002 [1, 0, 0, 0, 47, 1, 0, 0]), by decide +kernel⟩,
   ⟨(.host 0), (box 0x1002 [1, 0, 0, 0, 47, 1, 0, 0] 1), (asks 0x1002 [1, 0, 0, 0, 47, 1, 0, 0] (fun l => full 256 l) 1),
     by decide +kernel⟩,
   ⟨(.host 0), (box 0x1002 [1, 0, 0, 0, 47, 1, 0, 0] 1), (asks 0x1002 [1, 0, 0, 0, 47, 1, 0, 0] (fun l => full 255 l) 1),
     by decide +kernel⟩⟩

theorem witness_EdgeLife :
    (∃ (id : Nat) (e : Edge) (s : State), s.live.edge id = some e ∧ e.phase = .placed ∧ e.tick * tickNs ≤ s.live.mt.now ∧
      s.live.clamping e.work.src = false ∧ e.work.restarts = true) ∧
    (∃ (id : Nat) (e : Edge) (s : State),
      s.live.sup.phase = StartPhase.running ∧ s.live.edge id = some e ∧ e.phase = EdgePhase.arriving ∧ (e.work.commanded = true
      → s.live.dieCut (sourceDie e.work.src) = false) ∧ s.live.unanswered e = false ∧ 128 ≤ (List.filter (fun x => x.id != e.id
      && x.phase != EdgePhase.placed) s.live.plan.edges).length ∧ e.work.commanded = true) ∧
    (∃ (id : Nat) (e : Edge) (s : State),
      s.live.sup.phase = StartPhase.running ∧ s.live.edge id = some e ∧ e.phase = EdgePhase.arriving ∧ (e.work.commanded = true
      → s.live.dieCut (sourceDie e.work.src) = false) ∧ s.live.unanswered e = false ∧ ((List.filter (fun x => x.id != e.id &&
      x.phase != EdgePhase.placed) s.live.plan.edges).length < 128 ∨ e.work.commanded = false) ∧ s.live.holds e = true) ∧
    (∃ (id : Nat) (e : Edge) (s : State),
      s.live.sup.phase = StartPhase.running ∧ s.live.edge id = some e ∧ e.phase = EdgePhase.arriving ∧ (e.work.commanded = true
      → s.live.dieCut (sourceDie e.work.src) = false) ∧ s.live.unanswered e = false ∧ ((List.filter (fun x => x.id != e.id &&
      x.phase != EdgePhase.placed) s.live.plan.edges).length < 128 ∨ e.work.commanded = false) ∧ s.live.holds e = false ∧
      s.live.asksSlot e.work = true) ∧
    (∃ (id : Nat) (e : Edge) (s : State),
      s.live.sup.phase = StartPhase.running ∧ s.live.edge id = some e ∧ e.phase = EdgePhase.arriving ∧ (e.work.commanded = true
      → s.live.dieCut (sourceDie e.work.src) = false) ∧ s.live.unanswered e = false ∧ ((List.filter (fun x => x.id != e.id &&
      x.phase != EdgePhase.placed) s.live.plan.edges).length < 128 ∨ e.work.commanded = false) ∧ s.live.holds e = false ∧
      s.live.asksSlot e.work = false) ∧
    (∃ (id : Nat) (e : Edge) (s : State),
      s.live.sup.phase = StartPhase.running ∧ s.live.edge id = some e ∧ e.phase = EdgePhase.delayed ∧ e.tick * tickNs ≤
      s.live.mt.now ∧ ((s.live.sagDefers || s.live.shedDelays) && !s.live.urgent e.prio) = false) ∧
    (∃ (id : Nat) (e : Edge) (s : State),
      s.live.sup.phase = StartPhase.running ∧ s.live.edge id = some e ∧ e.phase = EdgePhase.delayed ∧ e.tick * tickNs ≤
      s.live.mt.now ∧ ((s.live.sagDefers || s.live.shedDelays) && !s.live.urgent e.prio) = true) ∧
    (∃ (id : Nat) (e : Edge) (s : State),
      s.live.sup.phase = StartPhase.running ∧ s.live.edge id = some e ∧ e.phase = EdgePhase.held ∧ ((s.live.sagDefers ||
      s.live.shedDelays) && !s.live.urgent e.prio) = false ∧ e.bySag = false ∧ e.byShed = false) ∧
    (∃ (id : Nat) (e : Edge) (s : State) (t : Nat),
      s.live.sup.phase = StartPhase.running ∧ s.live.edge id = some e ∧ (e.phase = EdgePhase.delayed ∨ e.phase = EdgePhase.held
      ∧ e.byShed = true) ∧ e.work.restarts = false ∧ e.heldAt = some t ∧ t + ms s.live.plan.cfg.delayMax ≤ s.live.mt.now) ∧
    (∃ (id : Nat) (e : Edge) (s : State),
      s.live.sup.phase = StartPhase.running ∧ s.live.edge id = some e ∧ e.work.restarts = true) :=
  ⟨⟨5, { edge0 .placed with work := .restart 0 }, (onWith fun l =>
     { l with plan := { l.plan with edges := [{ edge0 .placed with work := .restart 0 }] } }), by decide +kernel⟩,
   ⟨5, (edge0 .arriving),
     (onWith fun l => { l with plan := { l.plan with edges := edge0 .arriving :: List.replicate 128 { edge0 .delayed with id := 6 } } }),
     by decide +kernel⟩,
   ⟨5, (edge0 .arriving),
     (onWith fun l => ({ l with plan := { l.plan with edges := [edge0 .arriving] } }).setSag fun g => { g with active := true }),
     by decide +kernel⟩,
   ⟨5, { edge0 .arriving with work := .load 0 100 true },
     (onWith fun l => ({ l with plan := { l.plan with edges := [{ edge0 .arriving with work := .load 0 100 true }] } }).setCh 0 fun c => { c with cfg := { c.cfg with freq := 13 } }),
     by decide +kernel⟩,
   ⟨5, (edge0 .arriving), (onWith fun l => { l with plan := { l.plan with edges := [edge0 .arriving] } }),
     by decide +kernel⟩,
   ⟨5, (edge0 .delayed), (onWith fun l => { l with plan := { l.plan with edges := [edge0 .delayed] } }), by decide +kernel⟩,
   ⟨5, (edge0 .delayed),
     (onWith fun l => ({ l with plan := { l.plan with edges := [edge0 .delayed] } }).setSag fun g => { g with active := true }),
     by decide +kernel⟩,
   ⟨5, (edge0 .held), (onWith fun l => { l with plan := { l.plan with edges := [edge0 .held] } }), by decide +kernel⟩,
   ⟨5, { edge0 .delayed with heldAt := some 0 },
     (onWith fun l => { l with plan := { l.plan with edges := [{ edge0 .delayed with heldAt := some 0 }] } }), 0,
     by decide +kernel⟩,
   ⟨5, { edge0 .held with work := .restart 0 },
     (onWith fun l => { l with plan := { l.plan with edges := [{ edge0 .held with work := .restart 0 }] } }),
     by decide +kernel⟩⟩

theorem witness_EdgeLife_2 :
    (∃ (id : Nat) (e : Edge) (s : State),
      s.live.edge id = some e ∧ e.phase = EdgePhase.placed ∧ e.tick * tickNs ≤ s.live.mt.now ∧ s.live.clamping e.work.src =
      false ∧ e.work.restarts = false) ∧
    (∃ (src : Source) (s : State),
      s.live.sup.phase = StartPhase.running ∧ s.live.sourceOn src = false ∧ s.live.conductsNow src = false ∧
      (s.live.plan.stand.any fun x => x.src == src && Standing.onAt s.live.plan.cfg.dither x s.live.mt.now) = true) ∧
    (∃ (src : Source) (s : State),
      s.live.sup.phase = StartPhase.running ∧ s.live.sourceOn src = false ∧ s.live.conductsNow src = false ∧
      (s.live.plan.stand.any fun x => x.src == src && Standing.onAt s.live.plan.cfg.dither x s.live.mt.now) = false) ∧
    (∃ (l : Live) (src : Source),
      (l.hasPlaced src = true ∨ l.bookedOf src ≤ 0)) ∧
    (∃ (l : Live) (src : Source),
      l.hasPlaced src = false ∧ 0 < l.bookedOf src) :=
  ⟨⟨5, (edge0 .placed), (onWith fun l => { l with plan := { l.plan with edges := [edge0 .placed] } }), by decide +kernel⟩,
   ⟨.load 47,
     (onWith fun l => { l with plan := { l.plan with stand := [{ src := .load 47, group := 3, prio := 4, cls := 2, i := 10, period := 1000000, offset := 0, onNs := 999999 }] } }),
     by decide +kernel⟩,
   ⟨.load 47, on, by decide +kernel⟩,
   ⟨on.live, .load 47, by decide +kernel⟩,
   ⟨(onWith fun l => { l with plan := { l.plan with book := [(.load 47, 3, 100)] } }).live, .load 47, by decide +kernel⟩⟩

theorem witness_LoadExecutes :
    (∃ (l : Live) (n : Nat), n < l.load.ch.length ∧ (l.ch n).latch = true) ∧
    (∃ (l : Live) (n : Nat), n < l.load.ch.length ∧ (l.ch n).latch = false ∧ (l.ch n).conducts = false ∧ ((l.ch n).tlatch = true ∨
      (l.ch n).uvhold = true ∨ (l.ch n).fpend = true ∨ (l.ch n).whold = true)) ∧
    (∃ (l : Live) (n : Nat), n < l.load.ch.length ∧ (l.ch n).latch = false ∧ (l.ch n).conducts = false ∧ (l.ch n).tlatch = false ∧
      (l.ch n).uvhold = false ∧ (l.ch n).fpend = false ∧ (l.ch n).whold = false) ∧
    (∃ (l : Live) (n : Nat), n < l.load.ch.length ∧ (l.ch n).conducts = true) ∧
    (∃ (l : Live) (n : Nat), n < l.load.ch.length ∧ (l.ch n).conducts = true ∧ (l.ch n).cmd ≠ .off ∧ l.plan.edges = []) ∧
    (∃ (l : Live) (n : Nat),
      n < l.load.ch.length ∧ (l.ch n).conducts = true ∧ (l.ch n).cmd ≠ LoadCmd.off ∧ l.plan.edges = [] ∧ (l.ch n).retriesLeft =
      0) ∧
    (∃ (l : Live) (n : Nat),
      n < l.load.ch.length ∧ (l.ch n).conducts = true ∧ (l.ch n).cmd ≠ LoadCmd.off ∧ l.plan.edges = [] ∧ (l.ch n).retriesLeft ≠
      0) ∧
    (∃ (l : Live) (n k : Nat),
      n < l.load.ch.length ∧ (l.ch n).conducts = true ∧ (l.ch n).cmd ≠ LoadCmd.off ∧ l.plan.edges = [] ∧ k ≠ n) :=
  ⟨⟨(onWith fun l => l.setCh 47 fun c => { c with latch := true }).live, 47, by decide +kernel⟩,
   ⟨(onWith fun l => l.setCh 47 fun c => { c with whold := true }).live, 47, by decide +kernel⟩,
   ⟨on.live, 47, by decide +kernel⟩,
   ⟨(onWith fun l => l.setCh 47 fun c => { c with sw := .on }).live, 47, by decide +kernel⟩,
   ⟨(onWith fun l => l.setCh 47 fun c => { c with sw := .on, cmd := .on }).live, 47, by decide +kernel⟩,
   ⟨(onCh47 fun c => { c with sw := .on, cmd := .on, retriesLeft := 0 }).live, 47, by decide +kernel⟩,
   ⟨(onCh47 fun c => { c with sw := .on, cmd := .on, retriesLeft := 1 }).live, 47, by decide +kernel⟩,
   ⟨(onCh47 fun c => { c with sw := .on, cmd := .on }).live, 47, 46, by decide +kernel⟩⟩

theorem witness_LoadReports :
    (∃ (n t : Nat) (s : State), (s.live.ch n).sw = .on ∧ (s.live.ch n).rampEnd = some t ∧ t ≤ s.live.mt.now) ∧
    (∃ (n v : Nat) (s : State), (s.live.ch n).sw = .slew ∧ s.live.groupMv (n / 12) ≤ v + 500) ∧
    (∃ (n f : Nat) (cs : List Int) (s : State), (s.live.ch n).cfg.par ≠ 0 ∧ (s.live.ch n).sw = .on ∧ (s.live.ch n).lowest = n ∧ (∃
      i ∈ cs, (sumInt cs).natAbs < 4 * ((cs.length : Int) * i - sumInt cs).natAbs) ∧ (((s.live.ch n).openThreshold n : Nat) : Int)
      < 100 * sumInt cs ∧ ms 10 ≤ f ∧ (s.live.ch n).imbalance = false) ∧
    (∃ (n : Nat) (s : State),
      s.live.plan.changes = [] ∧ (s.live.ch n).pulsed = true) ∧
    (∃ (n : Nat) (s : State),
      s.live.plan.changes = [] ∧ (s.live.ch n).pulsed = false) ∧
    (∃ (src : Source) (is : List (Int × Bool)) (vs : List Nat) (tjs : List Int) (fs : List Nat) (s : State) (n : Nat),
      readbacks is vs tjs fs ≠ [] ∧ sourceDie src < s.live.load.dies.length ∧ src = .load n ∧ n < s.live.load.ch.length) ∧
    (∃ (src : Source) (is : List (Int × Bool)) (vs : List Nat) (tjs : List Int) (fs : List Nat) (s : State) (k : Nat),
      readbacks is vs tjs fs ≠ [] ∧ sourceDie src < s.live.load.dies.length ∧ src = .leg k ∧ k < s.live.load.br.length ∧
      s.live.bridgeOfLeg k = k) ∧
    (∃ (src : Source) (is : List (Int × Bool)) (vs : List Nat) (tjs : List Int) (fs : List Nat) (s : State) (v : Nat),
      readbacks is vs tjs fs ≠ [] ∧ sourceDie src < s.live.load.dies.length ∧ src = .valve v ∧ v < s.live.valve.valves.length) ∧
    (∃ (src : Source) (is : List (Int × Bool)) (vs : List Nat) (tjs : List Int) (fs : List Nat) (s : State) (b : Nat),
      readbacks is vs tjs fs ≠ [] ∧ sourceDie src < s.live.load.dies.length ∧ src = .bank b ∧ b < s.live.valve.banks.length) ∧
    (∃ (src : Source) (is : List (Int × Bool)) (vs : List Nat) (tjs : List Int) (fs : List Nat) (s : State) (n : Nat),
      readbacks is vs tjs fs ≠ [] ∧ sourceDie src < s.live.load.dies.length ∧ src = .fio n ∧ n < s.live.fio.ch.length) ∧
    (∃ (n i f : Nat) (s : State),
      bit (s.live.ch n).cfg.olMode 2 = true ∧ (s.live.ch n).sw = Switch.on ∧ (s.live.ch n).lowest = n ∧ ms (s.live.ch
      n).cfg.olOnMs ≤ f ∧ (bit (s.live.ch n).cfg.olMode 3 = true → i < 250) ∧ (s.live.ch n).openOn = false ∧ i < (s.live.ch
      n).openThreshold n) ∧
    (∃ (n i f : Nat) (s : State),
      bit (s.live.ch n).cfg.olMode 2 = true ∧ (s.live.ch n).sw = Switch.on ∧ (s.live.ch n).lowest = n ∧ ms (s.live.ch
      n).cfg.olOnMs ≤ f ∧ (bit (s.live.ch n).cfg.olMode 3 = true → i < 250) ∧ (s.live.ch n).openOn = true ∧ (s.live.ch
      n).openThreshold n < i) ∧
    (∃ (n i f : Nat) (s : State),
      bit (s.live.ch n).cfg.olMode 2 = true ∧ (s.live.ch n).sw = Switch.on ∧ (s.live.ch n).lowest = n ∧ ms (s.live.ch
      n).cfg.olOnMs ≤ f ∧ (bit (s.live.ch n).cfg.olMode 3 = true → i < 250) ∧ i = (s.live.ch n).openThreshold n) ∧
    (∃ (n : Nat) (s : State),
      n < s.live.load.ch.length ∧ (s.live.ch n).sw = Switch.off ∧ (s.live.ch n).state = 0 ∧ (s.live.ch n).lowest = n ∧
      (s.live.ch n).cfg.olMode % 4 ≠ 0 ∧ s.live.pwr.mode = Mode.run ∧ (s.live.ch n).testDue ≤ s.live.mt.now ∧ (s.live.ch
      n).tests = []) :=
  ⟨⟨47, 1, (onWith fun l => l.setCh 47 fun c => { c with sw := .on, rampEnd := some 1 }), by decide +kernel⟩,
   ⟨47, 23500, (onWith fun l => l.setCh 47 fun c => { c with sw := .slew }), by decide +kernel⟩,
   ⟨0, ms 10, [100, 200], (onWith fun l => l.setCh 0 fun c => { c with cfg := { c.cfg with par := 1 }, sw := .on }),
     by decide +kernel⟩,
   ⟨47, (onCh47 fun c => { c with sw := .on, cmd := .pwm 100 }), by decide +kernel⟩,
   ⟨47, on, by decide +kernel⟩,
   ⟨.load 47, [(1, true)], [2], [3], [4], on, 47, by decide +kernel⟩,
   ⟨.leg 6, [(1, true)], [2], [3], [4], on, 6, by decide +kernel⟩,
   ⟨.valve 11, [(1, true)], [2], [3], [4], on, 11, by decide +kernel⟩,
   ⟨.bank 3, [(1, true)], [2], [3], [4], on, 3, by decide +kernel⟩,
   ⟨.fio 31, [(1, true)], [2], [3], [4], on, 31, by decide +kernel⟩,
   ⟨47, 0, ms 10, (onCh47 fun c => { c with sw := .on }), by decide +kernel⟩,
   ⟨47, 101, ms 10, (onCh47 fun c => { c with sw := .on, openOn := true }), by decide +kernel⟩,
   ⟨47, 100, ms 10, (onCh47 fun c => { c with sw := .on }), by decide +kernel⟩,
   ⟨47, (onCh47 fun c => { c with cfg := { c.cfg with olMode := 1 } }), by decide +kernel⟩⟩

theorem witness_LoadReports_2 :
    (∃ (n : Nat) (s : State),
      n < s.live.fio.ch.length ∧ (s.live.fioCh n).cfg.olOff = true ∧ (s.live.fioCh n).state = 3 ∧ (s.live.fioCh n).lowest = n ∧
      s.live.pwr.mode = Mode.run ∧ (s.live.fioCh n).testDue ≤ s.live.mt.now ∧ (s.live.fioCh n).tests = []) ∧
    (∃ (a b c : Nat),
      a = c ∧ b = c) ∧
    (∃ (a b c : Nat),
      a ≠ c ∧ b ≠ c) ∧
    (∃ (a b c : Nat),
      (a = c) ≠ (b = c)) :=
  ⟨⟨31, (onFio31 fun c => { c with cfg := { c.cfg with mode := 2, olOff := true } }), by decide +kernel⟩,
   ⟨1, 1, 1, by decide +kernel⟩,
   ⟨0, 2, 1, by decide +kernel⟩,
   ⟨1, 2, 1, by decide +kernel⟩⟩

theorem witness_LoadProtection :
    (∃ (g mv : Nat) (s : State), mv < 7000 ∧ s.live.pwr.uv.getD g true = false) ∧
    (∃ (g mv t : Nat) (s : State), 7500 < mv ∧ ms 2 ≤ t ∧ s.live.pwr.uv.getD g false = true ∧ g < s.live.pwr.uv.length ∧ g <
      s.live.pwr.vbat.length) ∧
    (∃ (k i : Nat) (s : State),
      (s.live.ch k).lowest < s.live.load.ch.length ∧ k < s.live.load.ch.length ∧ (s.live.ch (s.live.ch k).lowest).sw = Switch.on
      ∧ 10 * (s.live.ch (s.live.ch k).lowest).cfg.ilim ≤ s.live.shareOf k i) ∧
    (∃ (k i f : Nat) (ramp : Bool) (s : State),
      (s.live.ch (s.live.ch k).lowest).sw = Switch.limit ramp ∧ s.live.shareOf k i < 9 * (s.live.ch (s.live.ch
      k).lowest).cfg.ilim ∧ us 100 ≤ f) ∧
    (∃ (k : Nat) (ramp : Bool) (s : State),
      (s.live.ch (s.live.ch k).lowest).sw = Switch.limit ramp ∧ (s.live.ch (s.live.ch k).lowest).limitAt + ms (limitMax
      (loadClass (s.live.ch k).lowest)) ≤ s.live.mt.now) ∧
    (∃ (k i : Nat) (s : State),
      (s.live.ch (s.live.ch k).lowest).conducts = true ∧ 15 * (s.live.ch (s.live.ch k).lowest).cfg.ilim < s.live.shareOf k i) ∧
    (∃ (k : Nat) (s : State),
      ((s.live.ch (s.live.ch k).lowest).sw = Switch.slew ∨ (s.live.ch (s.live.ch k).lowest).sw = Switch.limit true) ∧ (s.live.ch
      (s.live.ch k).lowest).slewAt + (s.live.ch (s.live.ch k).lowest).slewNs * 3 / 2 + ms 2 ≤ s.live.mt.now) ∧
    (∃ (k : Nat) (tj : Int) (s : State),
      (s.live.ch k).lowest < s.live.load.ch.length ∧ (s.live.ch (s.live.ch k).lowest).tlatch = false ∧ 1700 ≤ tj ∧ (s.live.ch
      (s.live.ch k).lowest).conducts = true) ∧
    (∃ (k : Nat) (tj : Int) (s : State),
      (s.live.ch k).lowest < s.live.load.ch.length ∧ (s.live.ch (s.live.ch k).lowest).tlatch = false ∧ 1700 ≤ tj ∧ (s.live.ch
      (s.live.ch k).lowest).conducts = false ∧ (s.live.ch (s.live.ch k).lowest).latch = false) ∧
    (∃ (n : Nat) (tj : Int) (s : State),
      (s.live.ch n).lowest = n ∧ (s.live.ch n).members = 1 ∧ n < s.live.load.ch.length ∧ (s.live.ch n).tlatch = true ∧ tj <
      ↑(min 1500 (s.live.ch n).trs)) :=
  ⟨⟨3, 6999, on, by decide +kernel⟩,
   ⟨3, 7501, ms 2, (onWith fun l => l.setPwr fun p => { p with uv := [false, false, false, true] }), by decide +kernel⟩,
   ⟨47, 750, (onCh47 fun c => { c with sw := .on }), by decide +kernel⟩,
   ⟨47, 674, us 100, true, (onCh47 fun c => { c with sw := .limit true }), by decide +kernel⟩,
   ⟨47, false, (onCh47 fun c => { c with sw := .limit false }), by decide +kernel⟩,
   ⟨47, 1126, (onCh47 fun c => { c with sw := .on }), by decide +kernel⟩,
   ⟨47, (onCh47 fun c => { c with sw := .slew }), by decide +kernel⟩,
   ⟨47, 1700, (onCh47 fun c => { c with sw := .on }), by decide +kernel⟩,
   ⟨47, 1700, on, by decide +kernel⟩,
   ⟨47, 1499, (onCh47 fun c => { c with tlatch := true }), by decide +kernel⟩⟩

theorem witness_LoadProtection_2 :
    (∃ (k : Nat) (tj : Int) (s : State),
      (s.live.ch k).lowest < s.live.load.ch.length ∧ k ≠ (s.live.ch k).lowest ∧ (s.live.ch (s.live.ch k).lowest).tlatch = true ∧
      tj < ↑(min 1500 (s.live.ch (s.live.ch k).lowest).trs) ∧ (∃ j ∈ s.live.groupOf (s.live.ch k).lowest, j ≠ k ∧ ↑(min 1500
      (s.live.ch (s.live.ch k).lowest).trs) ≤ (s.live.ch j).tj)) ∧
    (∃ (k e t : Nat) (s : State),
      (s.live.ch k).lowest < s.live.load.ch.length ∧ (s.live.ch (s.live.ch k).lowest).sw = Switch.clamp ∧ ((s.live.ch (s.live.ch
      k).lowest).clampMax < e ∨ (s.live.ch (s.live.ch k).lowest).clampFree = true ∧ us 10 < t)) ∧
    (∃ (k e t : Nat) (s : State),
      (s.live.ch k).lowest < s.live.load.ch.length ∧ (s.live.ch (s.live.ch k).lowest).sw = Switch.clamp ∧ e ≤ (s.live.ch
      (s.live.ch k).lowest).clampMax ∧ ((s.live.ch (s.live.ch k).lowest).clampFree = true → t ≤ us 10) ∧ (s.live.ch (s.live.ch
      k).lowest).clampTl = false) ∧
    (∃ (k : Nat) (s : State),
      (s.live.ch (s.live.ch k).lowest).clampHot = false ∧ 60 * clampPower (loadClass (s.live.ch k).lowest) * (s.live.ch
      (s.live.ch k).lowest).members < sumNat (List.map (fun x => x.2) (List.filter (fun x => decide (s.live.mt.now < x.1 + ms
      60000)) (s.live.ch (s.live.ch k).lowest).clamps))) :=
  ⟨⟨47, 1499,
     (onWith fun l => ((l.setCh 46 fun c => { c with cfg := { c.cfg with par := 1 }, tlatch := true, tj := 1600 }).setCh 47 fun c => { c with lowest := 46 })),
     by decide +kernel⟩,
   ⟨47, 1000000, 0, (onCh47 fun c => { c with sw := .clamp, clampMax := 999999 }), by decide +kernel⟩,
   ⟨47, 0, 0, (onCh47 fun c => { c with sw := .clamp }), by decide +kernel⟩,
   ⟨47, (onCh47 fun c => { c with clamps := [(999000000000, 100000000000)] }), by decide +kernel⟩⟩

theorem witness_RetriesAndOrphans :
    (∃ (n t : Nat) (s : State), (s.live.ch n).rdelay = some t ∧ t ≤ s.live.mt.now) ∧
    (∃ (g n : Nat) (s : State), s.live.orphanSlot g = true ∧ (s.live.lowestOf g).find? (fun n => (s.live.ch n).orphanDue) = some
      n) ∧
    (∃ (n t : Nat) (s : State),
      t ≤ s.live.mt.now ∧ (s.live.fioCh n).rdelay = some t) ∧
    (∃ (t : Nat) (s : State),
      t ≤ s.live.mt.now) ∧
    (∃ (n : Nat) (s : State),
      (s.live.ch n).restartDue = true ∧ (s.live.sagDefers = false ∧ s.live.shedDelays = false ∨ s.live.urgent (s.live.ch
      n).cfg.prio = true ∨ (s.live.ch n).restartWork n = EdgeWork.uvRestart n) ∧ (s.live.die (n / 24)).orphan = false ∧
      s.live.dieLost (n / 24) = false ∧ ((s.live.die (n / 24)).stale = false ∨ (s.live.ch n).restartWork n = EdgeWork.uvRestart
      n) ∧ (s.live.ch n).lowest = n ∧ (∀ e ∈ s.live.plan.edges, e.work.src ≠ Source.load n)) ∧
    (∃ (n : Nat) (s : State),
      (s.live.fioCh n).restartDue = true ∧ s.live.sagDefers = false ∧ s.live.shedDelays = false ∧ (s.live.die 0).orphan = false
      ∧ s.live.dieLost 0 = false ∧ (s.live.die 0).stale = false ∧ (s.live.fioCh n).lowest = n ∧ (∀ e ∈ s.live.plan.edges,
      e.work.src ≠ Source.fio n)) ∧
    (∃ (c : LoadCh),
      c.fpend = true) ∧
    (∃ (c : LoadCh),
      c.fpend = false ∧ c.uvOff = true) ∧
    (∃ (c : LoadCh),
      c.fpend = false ∧ c.uvOff = false) ∧
    (∃ (n : Nat) (s : State),
      (max (ms 10000) (10 * ms (s.live.ch n).cfg.retryMs) ≤ (s.live.ch n).onAcc + if (s.live.ch n).conducts = true then
      s.live.mt.now - (s.live.ch n).onAt else 0)) :=
  ⟨⟨47, 1, (onWith fun l => l.setCh 47 fun c => { c with rdelay := some 1 }), by decide +kernel⟩,
   ⟨3, 47, (onWith fun l => (l.setCh 47 fun c => { c with cmd := .on, fpend := true }).setDie 1 fun d =>
     { d with orphan := true }), by decide +kernel⟩,
   ⟨31, 1, (onFio31 fun c => { c with rdelay := some 1 }), by decide +kernel⟩,
   ⟨0, on, by decide +kernel⟩,
   ⟨47, (onCh47 fun c => { c with cmd := .on, fpend := true }), by decide +kernel⟩,
   ⟨31, (onFio31 fun c => { c with cfg := { c.cfg with mode := 2 }, cmd := true, fpend := true }), by decide +kernel⟩,
   ⟨{ LoadCh.init 47 with fpend := true }, by decide +kernel⟩,
   ⟨{ LoadCh.init 47 with uvOff := true }, by decide +kernel⟩,
   ⟨LoadCh.init 47, by decide +kernel⟩,
   ⟨47, (onCh47 fun c => { c with onAcc := ms 10000 }), by decide +kernel⟩⟩

theorem witness_RetriesAndOrphans_2 :
    (∃ (n : Nat) (s : State),
      (ms 10000 ≤ (s.live.fioCh n).onAcc + if (s.live.fioCh n).conducts = true then s.live.mt.now - (s.live.fioCh n).onAt else
      0)) ∧
    (∃ (d : Die) (s : State),
      s.live.pwr.mode ≠ Mode.park ∧ (s.live.sup.resetLine = true ∨ (s.live.die (dieIndex d)).lastHb + ms 5 ≤ s.live.mt.now)) ∧
    (∃ (l : Live) (d : Nat),
      (l.die d).orphan = true) ∧
    (∃ (g n : Nat) (s : State),
      s.live.orphanSlot g = true ∧ List.find? (fun n => (s.live.ch n).orphanDue) (s.live.lowestOf g) = none ∧ g < 2 ∧ List.find?
      (fun n => (s.live.fioCh n).orphanDue) (s.live.fioLowest g) = some n) ∧
    (∃ (k i dt : Nat) (s : State),
      (s.live.ch k).lowest < s.live.load.ch.length ∧ (s.live.die ((s.live.ch k).lowest / 24)).orphan = true ∧ (s.live.ch
      (s.live.ch k).lowest).conducts = true ∧ 10 * (s.live.ch (s.live.ch k).lowest).iSafe < i ∧ (s.live.ch (s.live.ch
      k).lowest).iSafe ≠ 65535 ∧ (s.live.ch (s.live.ch k).lowest).qMargin ≤ ↑i * ↑i * ↑dt / 10000000 - ↑(100 * (s.live.ch
      (s.live.ch k).lowest).iSafe * (s.live.ch (s.live.ch k).lowest).iSafe) * ↑dt / 10000000) ∧
    (∃ (k i dt : Nat) (s : State),
      (s.live.ch k).lowest < s.live.load.ch.length ∧ (s.live.die ((s.live.ch k).lowest / 24)).orphan = true ∧ (s.live.ch
      (s.live.ch k).lowest).conducts = true ∧ 10 * (s.live.ch (s.live.ch k).lowest).iSafe < i ∧ ↑i * ↑i * ↑dt / 10000000 - ↑(100
      * (s.live.ch (s.live.ch k).lowest).iSafe * (s.live.ch (s.live.ch k).lowest).iSafe) * ↑dt / 10000000 < (s.live.ch
      (s.live.ch k).lowest).qMargin) ∧
    (∃ (d : Die) (s : State),
      (s.live.die (dieIndex d)).orphan = true ∧ (s.live.die (dieIndex d)).offDone = false ∧ (s.live.die (dieIndex d)).offS ≠ 0 ∧
      (s.live.die (dieIndex d)).orphanAt + ms (1000 * (s.live.die (dieIndex d)).offS) ≤ s.live.mt.now ∧ dieIndex d <
      s.live.load.dies.length) :=
  ⟨⟨31, (onFio31 fun c => { c with onAcc := ms 10000 }), by decide +kernel⟩,
   ⟨.s, on, by decide +kernel⟩,
   ⟨(onWith fun l => l.setDie 1 fun d => { d with orphan := true }).live, 1, by decide +kernel⟩,
   ⟨1, 31,
     (onWith fun l => ((l.setFio 31 fun c => { c with cfg := { c.cfg with mode := 2 }, cmd := true, fpend := true }).setDie 0 fun d => { d with orphan := true })),
     by decide +kernel⟩,
   ⟨47, 1000, 10000000000,
     (onWith fun l => ((l.setCh 47 fun c => { c with sw := .on, iSafe := 50, qMargin := 1 }).setDie 1 fun d => { d with orphan := true })),
     by decide +kernel⟩,
   ⟨47, 1000, 1,
     (onWith fun l => ((l.setCh 47 fun c => { c with sw := .on, iSafe := 50, qMargin := 1 }).setDie 1 fun d => { d with orphan := true })),
     by decide +kernel⟩,
   ⟨.s, (onWith fun l => l.setDie 1 fun d => { d with orphan := true, offS := 1 }), by decide +kernel⟩⟩

theorem witness_BridgeCommands :
    (∃ (m : MbRef) (b : Mailbox) (s : State),
      Waits s 0x1101 m b ∧
      (
      let p := b.payload
      let c := BridgeCfg.ofBytes p
      byteAt p 0 ≤ 6 ∧ byteAt p 0 % 2 = 0 ∧ byteAt p 1 ≤ 1 ∧ c.decay ≤ 2 ∧ c.orphan ≤ 2 ∧ inRange 1000 25000 c.pwmHz = true ∧
      inRange 250 3000 c.deadNs = true ∧ c.deadNs % 25 = 0 ∧ inRange 5 40 c.ilimA = true ∧ c.prio ≤ 7 ∧ c.rampMs ≤ 5000 ∧
      inRange 10 2000 c.dirBrakeMax = true ∧ inRange 20 200 c.latUs = true ∧ c.edgeClass ≤ 3 ∧ byteAt p 17 < 4 ∧
      (resv b 18 2).2 = true) ∧
      let k := byteAt b.payload 0
      s.live.dieLost (sourceDie (.leg k)) = false ∧
      s.live.pwr.mode ≠ .drain ∧
      (s.live.bridge k).idle = true ∧
      (s.live.bridge (k + 1)).idle = true) ∧
    (∃ (m : MbRef) (b : Mailbox) (s : State), Waits s 0x1103 m b ∧ s.live.brOk (byteAt b.payload 0) = true) ∧
    (∃ (m : MbRef) (b : Mailbox) (s : State), Waits s 0x1104 m b ∧ s.live.brOk (byteAt b.payload 0) = true ∧ s.live.dieLost
      (sourceDie (.leg (byteAt b.payload 0))) = false ∧ (s.live.bridge (byteAt b.payload 0)).st = .latched) ∧
    (∃ (m : MbRef) (b : Mailbox) (s : State), Waits s 0x1104 m b ∧ s.live.brOk (byteAt b.payload 0) = true ∧ s.live.dieLost
      (sourceDie (.leg (byteAt b.payload 0))) = false ∧ (s.live.bridge (byteAt b.payload 0)).st ≠ .latched) ∧
    (∃ (b : Bridge), (b.st = .latched ∨ b.st = .thermalOff)) ∧
    (∃ (b : Bridge) (a : Nat), (b.st = .float ∨ b.st = .brake) ∧ 2 ≤ a) ∧
    (∃ (b : Bridge) (a : Nat), b.st = .forward ∧ a = 3) ∧
    (∃ (b : Bridge) (a : Nat), (b.st = .forward ∨ b.st = .reverse ∨ b.st = .level ∨ b.st = .reversing) ∧ a < 2) ∧
    (∃ (b : Bridge) (a : Nat), b.st = .forward ∧ a = 2) ∧
    (∃ (l : Live) (k : Nat),
      k / 2 < l.load.brCfg.length) :=
  ⟨⟨(.host 0), (box 0x1101 ([6, 0, 2, 1] ++ le 2 25000 ++ le 2 250 ++ [40, 7] ++ le 2 5000 ++ le 2 10 ++ le 2 20 ++ [3, 2, 0,
    0])), (asks 0x1101 ([6, 0, 2, 1] ++ le 2 25000 ++ le 2 250 ++ [40, 7] ++ le 2 5000 ++ le 2 10 ++ le 2 20 ++ [3, 2, 0, 0])),
    by decide +kernel⟩,
   ⟨(.host 0), (box 0x1103 [6, 0, 0, 0]), (asks 0x1103 [6, 0, 0, 0]), by decide +kernel⟩,
   ⟨(.host 0), (box 0x1104 [6, 0, 0, 0]), (asks 0x1104 [6, 0, 0, 0] (fun l => l.setBr 6 fun b => { b with st := .latched })),
     by decide +kernel⟩,
   ⟨(.host 0), (box 0x1104 [6, 0, 0, 0]), (asks 0x1104 [6, 0, 0, 0]), by decide +kernel⟩,
   ⟨{ Bridge.init with st := .thermalOff }, by decide +kernel⟩,
   ⟨Bridge.init, 2, by decide +kernel⟩,
   ⟨{ Bridge.init with st := .forward }, 3, by decide +kernel⟩,
   ⟨{ Bridge.init with st := .reversing }, 1, by decide +kernel⟩,
   ⟨{ Bridge.init with st := .forward }, 2, by decide +kernel⟩,
   ⟨on.live, 7, by decide +kernel⟩⟩

theorem witness_BridgeCommands_2 :
    (∃ (l : Live) (k : Nat) (c : BridgeCfg),
      k / 2 < l.load.brCfg.length ∧ (l.brc k).half = c.half) ∧
    (∃ (m : MbRef) (b : Mailbox) (s : State),
      Waits s 4354 m b ∧
      let p := b.payload
      let k := byteAt p 0
      let a := byteAt p 1
      k ≤ 7 ∧ ((s.live.brc k).half = true ∨ k % 2 = 0) ∧ a ≤ 4 ∧ ((s.live.brc k).half = true → a ≠ 2 ∧ a ≠ 3) ∧ ((s.live.brc
      k).half = false → a ≠ 4) ∧ (rd p 4 2 ≤ 5000 ∨ rd p 4 2 = 65535) ∧ (resv b 6 2).2 = true ∧ s.live.dieLost (sourceDie
      (Source.leg k)) = false ∧ s.live.pwr.mode ≠ Mode.drain ∧ ((s.live.bridge k).st = BrState.latched ∨ (s.live.bridge k).st =
      BrState.thermalOff)) ∧
    (∃ (m : MbRef) (b : Mailbox) (s : State),
      Waits s 4354 m b ∧
      let p := b.payload
      let k := byteAt p 0
      let a := byteAt p 1
      k ≤ 7 ∧ ((s.live.brc k).half = true ∨ k % 2 = 0) ∧ a ≤ 4 ∧ ((s.live.brc k).half = true → a ≠ 2 ∧ a ≠ 3) ∧ ((s.live.brc
      k).half = false → a ≠ 4) ∧ (rd p 4 2 ≤ 5000 ∨ rd p 4 2 = 65535) ∧ (resv b 6 2).2 = true ∧ s.live.dieLost (sourceDie
      (Source.leg k)) = false ∧ s.live.pwr.mode ≠ Mode.drain ∧ ((s.live.bridge k).st = BrState.float ∨ (s.live.bridge k).st =
      BrState.brake) ∧ 2 ≤ a ∧ s.live.pwr.overvolt = true) ∧
    (∃ (m : MbRef) (b : Mailbox) (s : State),
      Waits s 4354 m b ∧
      let p := b.payload
      let k := byteAt p 0
      let a := byteAt p 1
      k ≤ 7 ∧ ((s.live.brc k).half = true ∨ k % 2 = 0) ∧ a ≤ 4 ∧ ((s.live.brc k).half = true → a ≠ 2 ∧ a ≠ 3) ∧ ((s.live.brc
      k).half = false → a ≠ 4) ∧ (rd p 4 2 ≤ 5000 ∨ rd p 4 2 = 65535) ∧ (resv b 6 2).2 = true ∧ s.live.dieLost (sourceDie
      (Source.leg k)) = false ∧ s.live.pwr.mode ≠ Mode.drain ∧ ((s.live.bridge k).st = BrState.float ∨ (s.live.bridge k).st =
      BrState.brake) ∧ 2 ≤ a ∧ s.live.pwr.overvolt = false ∧ (s.live.die (sourceDie (Source.leg k))).stale = true) ∧
    (∃ (m : MbRef) (b : Mailbox) (s : State),
      Waits s 4354 m b ∧
      let p := b.payload
      let k := byteAt p 0
      let a := byteAt p 1
      k ≤ 7 ∧ ((s.live.brc k).half = true ∨ k % 2 = 0) ∧ a ≤ 4 ∧ ((s.live.brc k).half = true → a ≠ 2 ∧ a ≠ 3) ∧ ((s.live.brc
      k).half = false → a ≠ 4) ∧ (rd p 4 2 ≤ 5000 ∨ rd p 4 2 = 65535) ∧ (resv b 6 2).2 = true ∧ s.live.dieLost (sourceDie
      (Source.leg k)) = false ∧ s.live.pwr.mode ≠ Mode.drain ∧ (s.live.bridge k).st ≠ BrState.latched ∧ (s.live.bridge k).st ≠
      BrState.thermalOff ∧ (a < 2 ∨ (s.live.bridge k).runs = true ∨ s.live.pwr.overvolt = false ∧ (s.live.die (sourceDie
      (Source.leg k))).stale = false) ∧ b.staged = true ∧ s.live.host.staged.length < 256 ∧ s.live.driveFits k a (rd p 2 2) =
      true ∧ s.live.reserveFits (Source.leg k) (s.live.bridgeReserve k a).1 (s.live.bridgeReserve k a).2 = true) ∧
    (∃ (m : MbRef) (b : Mailbox) (s : State),
      Waits s 4354 m b ∧
      let p := b.payload
      let k := byteAt p 0
      let a := byteAt p 1
      k ≤ 7 ∧ ((s.live.brc k).half = true ∨ k % 2 = 0) ∧ a ≤ 4 ∧ ((s.live.brc k).half = true → a ≠ 2 ∧ a ≠ 3) ∧ ((s.live.brc
      k).half = false → a ≠ 4) ∧ (rd p 4 2 ≤ 5000 ∨ rd p 4 2 = 65535) ∧ (resv b 6 2).2 = true ∧ s.live.dieLost (sourceDie
      (Source.leg k)) = false ∧ s.live.pwr.mode ≠ Mode.drain ∧ (s.live.bridge k).st ≠ BrState.latched ∧ (s.live.bridge k).st ≠
      BrState.thermalOff ∧ (a < 2 ∨ (s.live.bridge k).runs = true ∨ s.live.pwr.overvolt = false ∧ (s.live.die (sourceDie
      (Source.leg k))).stale = false) ∧ b.staged = false ∧ ((s.live.bridge k).st = BrState.uvWait ∨ 2 ≤ a ∧ s.live.isDropped
      (Source.leg k) = true)) ∧
    (∃ (m : MbRef) (b : Mailbox) (s : State),
      Waits s 4354 m b ∧
      let p := b.payload
      let k := byteAt p 0
      let a := byteAt p 1
      k ≤ 7 ∧ ((s.live.brc k).half = true ∨ k % 2 = 0) ∧ a ≤ 4 ∧ ((s.live.brc k).half = true → a ≠ 2 ∧ a ≠ 3) ∧ ((s.live.brc
      k).half = false → a ≠ 4) ∧ (rd p 4 2 ≤ 5000 ∨ rd p 4 2 = 65535) ∧ (resv b 6 2).2 = true ∧ s.live.dieLost (sourceDie
      (Source.leg k)) = false ∧ s.live.pwr.mode ≠ Mode.drain ∧ (s.live.bridge k).st ≠ BrState.latched ∧ (s.live.bridge k).st ≠
      BrState.thermalOff ∧ (a < 2 ∨ (s.live.bridge k).runs = true ∨ s.live.pwr.overvolt = false ∧ (s.live.die (sourceDie
      (Source.leg k))).stale = false) ∧ b.staged = false ∧ (s.live.bridge k).st ≠ BrState.uvWait ∧ (a < 2 ∨ s.live.isDropped
      (Source.leg k) = false)) :=
  ⟨⟨on.live, 6, (on.live.brc 6), by decide +kernel⟩,
   ⟨(.host 0), (box 0x1102 ([6, 3] ++ le 2 100 ++ le 2 5000 ++ [0, 0])),
     (asks 0x1102 ([6, 3] ++ le 2 100 ++ le 2 5000 ++ [0, 0]) (fun l => l.setBr 6 fun b => { b with st := .latched })),
     by decide +kernel⟩,
   ⟨(.host 0), (box 0x1102 ([6, 3] ++ le 2 100 ++ le 2 5000 ++ [0, 0])),
     (asks 0x1102 ([6, 3] ++ le 2 100 ++ le 2 5000 ++ [0, 0]) (fun l => l.setPwr fun p => { p with overvolt := true })),
     by decide +kernel⟩,
   ⟨(.host 0), (box 0x1102 ([6, 2] ++ le 2 100 ++ le 2 5000 ++ [0, 0])),
     (asks 0x1102 ([6, 2] ++ le 2 100 ++ le 2 5000 ++ [0, 0]) (fun l => l.setDie 1 fun d => { d with stale := true })),
     by decide +kernel⟩,
   ⟨(.host 0), (box 0x1102 ([6, 1] ++ le 2 100 ++ le 2 5000 ++ [0, 0]) 1),
     (asks 0x1102 ([6, 1] ++ le 2 100 ++ le 2 5000 ++ [0, 0]) (fun l => full 255 l) 1), by decide +kernel⟩,
   ⟨(.host 0), (box 0x1102 ([6, 3] ++ le 2 100 ++ le 2 5000 ++ [0, 0])),
     (asks 0x1102 ([6, 3] ++ le 2 100 ++ le 2 5000 ++ [0, 0]) (fun l => l.setBr 6 fun b => { b with st := .uvWait })),
     by decide +kernel⟩,
   ⟨(.host 0), (box 0x1102 ([6, 3] ++ le 2 100 ++ le 2 5000 ++ [0, 0])),
     (asks 0x1102 ([6, 3] ++ le 2 100 ++ le 2 5000 ++ [0, 0])), by decide +kernel⟩⟩

theorem witness_BridgeEvents :
    (∃ (k : Nat) (s : State), (s.live.bridge k).dirStep = 1 ∧ (s.live.bridge k).dutyAt s.live.mt.now = 0) ∧
    (∃ (k : Nat) (s : State), (s.live.bridge k).dirStep = 2 ∧ (s.live.bridge k).dirAt + ms (s.live.brc k).dirBrakeMax ≤
      s.live.mt.now) ∧
    (∃ (leg i t : Nat) (s : State), (s.live.bridge (s.live.bridgeOfLeg leg)).runs = true ∧ 100 * (s.live.brc (s.live.bridgeOfLeg
      leg)).ilimA < i ∧ (s.live.bridge (s.live.bridgeOfLeg leg)).limitRaised = none ∧ t < ms 100) ∧
    (∃ (leg i t : Nat) (s : State), (s.live.bridge (s.live.bridgeOfLeg leg)).runs = true ∧ 100 * (s.live.brc (s.live.bridgeOfLeg
      leg)).ilimA < i ∧ (s.live.bridge (s.live.bridgeOfLeg leg)).limitRaised = none ∧ ms 100 ≤ t) ∧
    (∃ (k i t : Nat) (s : State), ms 100 ≤ t ∧ (s.live.bridge k).openLoad = false ∧ (s.live.bridge k).runs = true ∧ i < 20 ∧ 16384
      ≤ (s.live.bridge k).dutyAt s.live.mt.now) ∧
    (∃ (k i t : Nat) (s : State), ms 100 ≤ t ∧ (s.live.bridge k).openLoad = true ∧ 20 < i) ∧
    (∃ (k i t : Nat) (s : State),
      (s.live.bridge k).dirStep = 2 ∧ i < 50 ∧ ms 1 ≤ t ∧ s.live.mt.now ≤ (s.live.bridge k).dirAt + ms (s.live.brc
      k).dirBrakeMax) ∧
    (∃ (leg i v : Nat) (s : State),
      (s.live.bridge (s.live.bridgeOfLeg leg)).st ≠ BrState.latched ∧ (6000 < i ∨ 3000 < v ∧ (s.live.bridge (s.live.bridgeOfLeg
      leg)).conducts = true)) ∧
    (∃ (leg : Nat) (tj : Int) (s : State),
      1700 ≤ tj ∧ (s.live.bridge (s.live.bridgeOfLeg leg)).st = BrState.forward) ∧
    (∃ (leg : Nat) (tj : Int) (s : State),
      (s.live.bridge (s.live.bridgeOfLeg leg)).st = BrState.thermalOff ∧ leg < s.live.load.br.length ∧ tj < 1500 ∧ (∀ j ∈
      s.live.legsOf (s.live.bridgeOfLeg leg), j ≠ leg → (s.live.bridge j).tj < 1500)) :=
  ⟨⟨6, (onWith fun l => l.setBr 6 fun b => { b with dirStep := 1 }), by decide +kernel⟩,
   ⟨6, (onWith fun l => l.setBr 6 fun b => { b with dirStep := 2 }), by decide +kernel⟩,
   ⟨7, 3001, 0, (onWith fun l => l.setBr 6 fun b => { b with st := .reverse }), by decide +kernel⟩,
   ⟨7, 3001, ms 100, (onWith fun l => l.setBr 6 fun b => { b with st := .reverse }), by decide +kernel⟩,
   ⟨6, 19, ms 100, (onWith fun l => l.setBr 6 fun b => { b with st := .forward, fromDuty := 16384, toDuty := 16384 }),
     by decide +kernel⟩,
   ⟨6, 21, ms 100, (onWith fun l => l.setBr 6 fun b => { b with openLoad := true }), by decide +kernel⟩,
   ⟨6, 49, ms 1, (onWith fun l => l.setBr 6 fun b => { b with dirStep := 2, dirAt := 1000000000000 }), by decide +kernel⟩,
   ⟨7, 0, 3001, (onWith fun l => l.setBr 6 fun b => { b with st := .forward }), by decide +kernel⟩,
   ⟨7, 1700, (onWith fun l => l.setBr 6 fun b => { b with st := .forward }), by decide +kernel⟩,
   ⟨7, 1499, (onWith fun l => l.setBr 6 fun b => { b with st := .thermalOff }), by decide +kernel⟩⟩

theorem witness_BridgeEvents_2 :
    (∃ (k : Nat) (s : State),
      s.live.brOk k = true ∧ s.live.pwr.uv.getD (sourceGroup (Source.leg k)) false = true ∧ (s.live.bridge k).st =
      BrState.forward) ∧
    (∃ (k : Nat) (s : State),
      s.live.brOk k = true ∧ s.live.pwr.uv.getD (sourceGroup (Source.leg k)) false = false ∧ (s.live.bridge k).st =
      BrState.uvWait ∧ (s.live.bridge k).action < 2) ∧
    (∃ (k : Nat) (s : State),
      s.live.brOk k = true ∧ s.live.pwr.uv.getD (sourceGroup (Source.leg k)) false = false ∧ (s.live.bridge k).st =
      BrState.uvWait ∧ 2 ≤ (s.live.bridge k).action ∧ k < s.live.load.br.length) :=
  ⟨⟨6,
     (onWith fun l => { l with pwr := { l.pwr with uv := List.replicate 4 true }, load := { l.load with br := l.load.br.map fun b => { b with st := .forward, action := 2 } } }),
     by decide +kernel⟩,
   ⟨6,
     (onWith fun l => { l with pwr := { l.pwr with uv := List.replicate 4 false }, load := { l.load with br := l.load.br.map fun b => { b with st := .uvWait, action := 1 } } }),
     by decide +kernel⟩,
   ⟨6,
     (onWith fun l => { l with pwr := { l.pwr with uv := List.replicate 4 false }, load := { l.load with br := l.load.br.map fun b => { b with st := .uvWait, action := 3 } } }),
     by decide +kernel⟩⟩

theorem witness_PlanFramesAndCommands :
    (∃ (s : State), s.live.sup.phase = .running ∧ s.live.plan.frame < s.live.mt.now / frameNs) ∧
    (∃ (q : Nat) (s : State), s.live.sup.phase = .running ∧ s.live.plan.dirty = some q ∧ q + us 200 < s.live.mt.now / frameNs *
      frameNs) ∧
    (∃ (n : Nat) (s : State), s.live.sup.phase = .running ∧ s.live.plan.dirty.isSome = true ∧ 50 < n) ∧
    (∃ (m : MbRef) (b : Mailbox) (s : State),
      Waits s 0x1201 m b ∧
      (
      let p := b.payload
      byteAt p 4 ≤ 40 ∧ byteAt p 5 < 2 ∧ inRange 10 10000 (rd p 6 2) = true ∧
      (∀ g, g < 4 → inRange 1 45 (byteAt p (8 + g)) = true ∧ inRange 1 80 (byteAt p (12 + g)) = true) ∧ (resv b 16 4).2 = true)) ∧
    (∃ (m : MbRef) (b : Mailbox) (s : State),
      Waits s 0x1202 m b ∧
      byteAt b.payload 0 = 0 ∧
      let p := b.payload
      let k := byteAt p 1
      k ≤ 47 ∧
      inRange 1 (s.live.ch k).cfg.ilim (rd p 2 2) = true ∧
      (rd p 4 2 = 0 ∧ rd p 6 2 = 0 ∨ rd p 4 2 ≠ 0 ∧ inRange (rd p 2 2) (s.live.ch k).cfg.ilim (rd p 4 2) = true ∧ rd p 6 2 ≤ 5000)
        ∧
      byteAt p 8 < 2 ∧
      (resv b 9 3).2 = true ∧
      (s.live.pwr.mode = .drain ∨ (s.live.ch k).idle = false)) ∧
    (∃ (m : MbRef) (b : Mailbox) (s : State),
      Waits s 0x1202 m b ∧
      byteAt b.payload 0 = 0 ∧
      let p := b.payload
      let k := byteAt p 1
      k ≤ 47 ∧
      inRange 1 (s.live.ch k).cfg.ilim (rd p 2 2) = true ∧
      (rd p 4 2 = 0 ∧ rd p 6 2 = 0 ∨ rd p 4 2 ≠ 0 ∧ inRange (rd p 2 2) (s.live.ch k).cfg.ilim (rd p 4 2) = true ∧ rd p 6 2 ≤ 5000)
        ∧
      byteAt p 8 < 2 ∧
      (resv b 9 3).2 = true ∧
      s.live.pwr.mode ≠ .drain ∧
      (s.live.ch k).idle = true ∧
      (s.live.ch k).lowest = k) ∧
    (∃ (m : MbRef) (b : Mailbox) (s : State), Waits s 0x1203 m b) ∧
    (∃ (m : MbRef) (b : Mailbox) (s : State), Waits s 0x1204 m b ∧ rd b.payload 0 2 < s.live.standList.length ∧ inRange 1 60
      (byteAt b.payload 2) = true ∧ (resv b 3 1).2 = true) ∧
    (∃ (m : MbRef) (b : Mailbox) (s : State),
      Waits s 4610 m b ∧
      let p := b.payload
      let a := byteAt p 1
      byteAt p 0 = 1 ∧ s.live.brOk a = true ∧ inRange 1 (10 * (s.live.brc a).ilimA) (rd p 2 2) = true ∧ (rd p 4 2 = 0 ∧ rd p 6 2
      = 0 ∨ rd p 4 2 ≠ 0 ∧ inRange (rd p 2 2) (10 * (s.live.brc a).ilimA) (rd p 4 2) = true ∧ rd p 6 2 ≤ 5000) ∧ byteAt p 8 < 2
      ∧ (resv b 9 3).2 = true ∧ s.live.pwr.mode ≠ Mode.drain ∧ (s.live.bridge (a / 2 * 2)).idle = true ∧ (s.live.bridge (a / 2 *
      2 + 1)).idle = true) :=
  ⟨⟨on, by decide +kernel⟩,
   ⟨0, (onWith fun l => { l with plan := { l.plan with dirty := some 0 } }), by decide +kernel⟩,
   ⟨51, (onWith fun l => { l with plan := { l.plan with dirty := some 0 } }), by decide +kernel⟩,
   ⟨(.host 0), (box 0x1201 (le 4 0 ++ [40, 1] ++ le 2 10000 ++ [1, 45, 45, 45] ++ [80, 1, 80, 1] ++ zs 4)), (asks 0x1201 (le 4 0
     ++ [40, 1] ++ le 2 10000 ++ [1, 45, 45, 45] ++ [80, 1, 80, 1] ++ zs 4)), by decide +kernel⟩,
   ⟨(.host 0), (box 0x1202 ([0, 47] ++ le 2 75 ++ le 2 75 ++ le 2 5000 ++ [1, 0, 0, 0])), (asks 0x1202 ([0, 47] ++ le 2 75 ++ le 2
     75 ++ le 2 5000 ++ [1, 0, 0, 0]) (fun l => l.setCh 47 fun c => { c with sw := .on })), by decide +kernel⟩,
   ⟨(.host 0), (box 0x1202 ([0, 47] ++ le 2 1 ++ zs 8)), (asks 0x1202 ([0, 47] ++ le 2 1 ++ zs 8)), by decide +kernel⟩,
   ⟨(.host 0), (box 0x1203 []), (asks 0x1203 []), by decide +kernel⟩,
   ⟨(.host 0), (box 0x1204 (le 2 0 ++ [60, 0])), (asks 0x1204 (le 2 0 ++ [60, 0]) (fun l =>
     { l with plan := { l.plan with stand := [{ src := .load 47, group := 3, prio := 4, cls := 2, i := 10, period := 1000000, offset := 0, onNs := 500000 }] } })),
     by decide +kernel⟩,
   ⟨(.host 0), (box 0x1202 ([1, 6] ++ le 2 75 ++ le 2 75 ++ le 2 5000 ++ [1, 0, 0, 0])),
     (asks 0x1202 ([1, 6] ++ le 2 75 ++ le 2 75 ++ le 2 5000 ++ [1, 0, 0, 0])), by decide +kernel⟩⟩

theorem witness_ThermalAndWireLedger :
    (∃ (s : State), s.live.sup.phase = .running) ∧
    (∃ (d : Die) (s : State), s.live.sup.phase = .running ∧ (s.live.die (dieIndex d)).stale = false ∧ (s.live.die (dieIndex
      d)).fresh + ms 5 ≤ s.live.mt.now) ∧
    (∃ (q : Nat) (s : State), s.live.sup.phase = .running ∧ s.live.shedFree = true ∧ s.live.ledger.overSince = some q ∧ q ≤
      s.live.mt.now ∧ s.live.ledger.level = 0 ∧ s.live.ledger.stepping = false) ∧
    (∃ (s : State), s.live.sup.phase = .running ∧ s.live.shedFree = true ∧ s.live.ledger.level = 1 ∧ s.live.ledger.stepping =
      false ∧ s.live.ledger.stepAt + ms 100 ≤ s.live.mt.now) ∧
    (∃ (n : Nat) (s : State), s.live.sup.phase = .running ∧ s.live.shedFree = true ∧ s.live.ledger.level = 3 ∧
      s.live.ledger.stepping = false ∧ s.live.ledger.stepAt + ms 500 ≤ s.live.mt.now ∧ s.live.shedChoice = some n ∧ (s.live.ch
      n).conducts = true) ∧
    (∃ (m : MbRef) (b : Mailbox) (s : State),
      Waits s 0x1301 m b ∧
      (
      let p := b.payload
      let c := WireCfg.ofBytes p
      byteAt p 0 ≤ 47 ∧ c.section_ ≤ 9 ∧ inRange 1 1000 c.length = true ∧ inRange 70 250 c.tIns = true ∧
      inRange 5 30 c.margin = true ∧ inRange 5 50 c.hyst = true ∧ -40 ≤ c.tAmb ∧ c.tAmb ≤ 125 ∧ inRange 100 300 c.bundle = true ∧
      inRange 90 150 c.restC = true ∧ byteAt p 11 < 4 ∧ (resv b 12 4).2 = true ∧ c.tAmb < c.tTrip - c.hyst) ∧
      let n := byteAt b.payload 0
      (s.live.ch n).lowest = n ∧
      (s.live.ch n).idle = true) ∧
    (∃ (m : MbRef) (b : Mailbox) (s : State),
      Waits s 0x1301 m b ∧
      (
      let p := b.payload
      let c := WireCfg.ofBytes p
      byteAt p 0 ≤ 47 ∧ c.section_ ≤ 9 ∧ inRange 1 1000 c.length = true ∧ inRange 70 250 c.tIns = true ∧
      inRange 5 30 c.margin = true ∧ inRange 5 50 c.hyst = true ∧ -40 ≤ c.tAmb ∧ c.tAmb ≤ 125 ∧ inRange 100 300 c.bundle = true ∧
      inRange 90 150 c.restC = true ∧ byteAt p 11 < 4 ∧ (resv b 12 4).2 = true ∧ c.tAmb < c.tTrip - c.hyst) ∧
      let n := byteAt b.payload 0
      ((s.live.ch n).lowest ≠ n ∨ (s.live.ch n).idle = false)) ∧
    (∃ (m : MbRef) (b : Mailbox) (s : State), Waits s 0x1302 m b ∧ byteAt b.payload 0 ≤ 7 ∧ byteAt b.payload 2 < 4 ∧ (resv b 3
      1).2 = true ∧ inRange 100 10000 (rd b.payload 4 2) = true ∧ (resv b 6 2).2 = true) ∧
    (∃ (m : MbRef) (b : Mailbox) (s : State), Waits s 0x1303 m b ∧ byteAt b.payload 0 ≤ 47 ∧ inRange 1 48 (byteAt b.payload 1) =
      true ∧ byteAt b.payload 0 + byteAt b.payload 1 ≤ 48) ∧
    (∃ (l : Live) (n : Nat),
      n < l.load.ch.length ∧ n < l.ledger.wires.length ∧ (l.ch n).lowest = n ∧ (l.ch n).conducts = true ∧ (l.ch n).cfg.wireRetry
      = false ∧ (l.wireCfg n).off = false ∧ l.offThisFrame n = none ∧ (l.wireCfg n).tTrip * nano ≤ (l.wireCfg n).step
      (l.ledger.wires.getD n (Wire.init n)).tw (l.wireCurrent n)) :=
  ⟨⟨on, by decide +kernel⟩,
   ⟨.s, on, by decide +kernel⟩,
   ⟨1000000000000, (onWith fun l => l.setLedger fun g => { g with overSince := some 1000000000000 }), by decide +kernel⟩,
   ⟨(onWith fun l => l.setLedger fun g => { g with level := 1 }), by decide +kernel⟩,
   ⟨47, (onWith fun l => (l.setLedger fun g => { g with level := 3 }).setCh 47 fun c => { c with sw := .on, cmd := .on }),
     by decide +kernel⟩,
   ⟨(.host 0), (box 0x1301 ([47, 9] ++ le 2 1000 ++ [250, 30, 50, 125] ++ le 2 300 ++ [90, 3, 0, 0, 0, 0])), (asks 0x1301 ([47, 9]
     ++ le 2 1000 ++ [250, 30, 50, 125] ++ le 2 300 ++ [90, 3, 0, 0, 0, 0])), by decide +kernel⟩,
   ⟨(.host 0), (box 0x1301 ([47, 9] ++ le 2 1000 ++ [250, 30, 50, 125] ++ le 2 300 ++ [90, 3, 0, 0, 0, 0])), (asks 0x1301 ([47, 9]
     ++ le 2 1000 ++ [250, 30, 50, 125] ++ le 2 300 ++ [90, 3, 0, 0, 0, 0]) (fun l => l.setCh 47 fun c => { c with sw := .on })),
     by decide +kernel⟩,
   ⟨(.host 0), (box 0x1302 ([7, 0, 3, 0] ++ le 2 10000 ++ [0, 0])), (asks 0x1302 ([7, 0, 3, 0] ++ le 2 10000 ++ [0, 0])),
     by decide +kernel⟩,
   ⟨(.host 0), (box 0x1303 [0, 48]), (asks 0x1303 [0, 48]), by decide +kernel⟩,
   ⟨(onWith fun l => (l.setCh 47 fun c => { c with sw := .on, cmd := .on }).setLedger fun g => { g with wires := g.wires.map fun w => { w with tw := 200000000000 } }).live,
     47, by decide +kernel⟩⟩

theorem witness_ThermalAndWireLedger_2 :
    (∃ (src : Source) (i t : Nat) (s : State),
      s.live.sup.phase = StartPhase.running ∧ s.live.sourceOn src = true ∧ ms 10 ≤ t ∧ 11 * s.live.bookingInForce src < i ∧
      s.live.plan.exceeded.contains src = false) ∧
    (∃ (q : Nat) (s : State),
      s.live.sup.phase = StartPhase.running ∧ s.live.shedFree = true ∧ s.live.ledger.level = 2 ∧ s.live.ledger.stepping = false
      ∧ s.live.ledger.underSince = some q ∧ q + ms 5000 ≤ s.live.mt.now) :=
  ⟨⟨.load 47, 100000, ms 10, (onCh47 fun c => { c with sw := .on, cmd := .on }), by decide +kernel⟩,
   ⟨995000000000, (onWith fun l => l.setLedger fun g => { g with level := 2, underSince := some 995000000000 }),
     by decide +kernel⟩⟩

theorem witness_PdMaxTable :
    (∃ (l : Live), l.ledger.tLid ≤ 700) ∧
    (∃ (l : Live), l.ledger.tLid = 840) ∧
    (∃ (l : Live), l.ledger.tLid = 980) ∧
    (∃ (l : Live), l.ledger.tLid = 1120) ∧
    (∃ (l : Live), l.ledger.tLid = 1200) ∧
    (∃ (l : Live), l.ledger.tLid = 1260) ∧
    (∃ (l : Live), 1400 ≤ l.ledger.tLid) ∧
    (∃ (l : Live), 700 ≤ l.ledger.tLid ∧ l.ledger.tLid ≤ 1400) :=
  ⟨⟨(onWith fun l => l.setLedger fun g => { g with tLid := 700 }).live, by decide +kernel⟩,
   ⟨(onWith fun l => l.setLedger fun g => { g with tLid := 840 }).live, by decide +kernel⟩,
   ⟨(onWith fun l => l.setLedger fun g => { g with tLid := 980 }).live, by decide +kernel⟩,
   ⟨(onWith fun l => l.setLedger fun g => { g with tLid := 1120 }).live, by decide +kernel⟩,
   ⟨(onWith fun l => l.setLedger fun g => { g with tLid := 1200 }).live, by decide +kernel⟩,
   ⟨(onWith fun l => l.setLedger fun g => { g with tLid := 1260 }).live, by decide +kernel⟩,
   ⟨(onWith fun l => l.setLedger fun g => { g with tLid := 1400 }).live, by decide +kernel⟩,
   ⟨(onWith fun l => l.setLedger fun g => { g with tLid := 1400 }).live, by decide +kernel⟩⟩

theorem witness_ValveCommands :
    (∃ (m : MbRef) (b : Mailbox) (s : State), Waits s 0x2001 m b ∧ firstBad (valveCfgChecks b) = none ∧ s.live.dieLost 1 = false ∧
      s.live.pwr.mode ≠ .drain ∧ (s.live.valve' (byteAt b.payload 0)).idle = true) ∧
    (∃ (m : MbRef) (b : Mailbox) (s : State), Waits s 0x2001 m b ∧ firstBad (valveCfgChecks b) = none ∧ s.live.dieLost 1 = false ∧
      s.live.pwr.mode ≠ .drain ∧ (s.live.valve' (byteAt b.payload 0)).idle = false) ∧
    (∃ (m : MbRef) (b : Mailbox) (s : State), Waits s 0x2002 m b ∧ byteAt b.payload 0 ≤ 3 ∧ byteAt b.payload 1 < 2 ∧ rd b.payload
      2 2 ≤ 1000 ∧ inRange 1 12 (byteAt b.payload 4) = true ∧ (resv b 5 3).2 = true ∧ s.live.dieLost 1 = false ∧ s.live.pwr.mode ≠
      .drain ∧ (∀ v ∈ bankValves (byteAt b.payload 0), (s.live.valve' v).idle = true)) ∧
    (∃ (m : MbRef) (b : Mailbox) (s : State), Waits s 0x2005 m b ∧ byteAt b.payload 0 ≤ 11) ∧
    (∃ (m : MbRef) (b : Mailbox) (s : State),
      Waits s 8195 m b ∧
      let p := b.payload
      let k := byteAt p 0
      let a := byteAt p 1
      k ≤ 11 ∧ a ≤ 1 ∧ (a = 1 → (s.live.valve' k).cfg.interlock ≠ 1) ∧ (a = 1 ↔ rd p 2 2 ≠ 0) ∧ rd p 4 4 ≤ 55000 ∧
      s.live.dieLost 1 = false ∧ s.live.pwr.mode ≠ Mode.drain ∧ s.live.pwr.overvolt = false ∧ (s.live.die 1).stale = false ∧
      (s.live.valve' k).phase = ValvePhase.latched) ∧
    (∃ (m : MbRef) (b : Mailbox) (s : State),
      Waits s 8195 m b ∧
      let p := b.payload
      let k := byteAt p 0
      let a := byteAt p 1
      k ≤ 11 ∧ a ≤ 1 ∧ (a = 1 → (s.live.valve' k).cfg.interlock ≠ 1) ∧ (a = 1 ↔ rd p 2 2 ≠ 0) ∧ rd p 4 4 ≤ 55000 ∧
      s.live.dieLost 1 = false ∧ s.live.pwr.mode ≠ Mode.drain ∧ s.live.pwr.overvolt = false ∧ (s.live.die 1).stale = false ∧
      ((s.live.valve' k).phase = ValvePhase.peak ∨ (s.live.valve' k).phase = ValvePhase.hold)) ∧
    (∃ (m : MbRef) (b : Mailbox) (s : State),
      Waits s 8195 m b ∧
      let p := b.payload
      let k := byteAt p 0
      let a := byteAt p 1
      k ≤ 11 ∧ a ≤ 1 ∧ (a = 1 → (s.live.valve' k).cfg.interlock ≠ 1) ∧ (a = 1 ↔ rd p 2 2 ≠ 0) ∧ rd p 4 4 ≤ 55000 ∧
      s.live.dieLost 1 = false ∧ s.live.pwr.mode ≠ Mode.drain ∧ s.live.pwr.overvolt = false ∧ (s.live.die 1).stale = false ∧
      (s.live.valve' k).phase = ValvePhase.idle ∧ (s.live.valve' k).decaying = false ∧ (s.live.valve' k).fire = none ∧
      ((s.live.valve' k).cfg.interlock = 2 → s.live.chimeOk k = true)) ∧
    (∃ (m : MbRef) (b : Mailbox) (s : State),
      Waits s 8195 m b ∧
      let p := b.payload
      let k := byteAt p 0
      let a := byteAt p 1
      k ≤ 11 ∧ a ≤ 1 ∧ (a = 1 → (s.live.valve' k).cfg.interlock ≠ 1) ∧ (a = 1 ↔ rd p 2 2 ≠ 0) ∧ rd p 4 4 ≤ 55000 ∧
      s.live.dieLost 1 = false ∧ s.live.pwr.mode ≠ Mode.drain ∧ s.live.pwr.overvolt = false ∧ (s.live.die 1).stale = false ∧
      ((s.live.valve' k).phase = ValvePhase.decay ∨ (s.live.valve' k).phase = ValvePhase.offTime ∧ (s.live.valve' k).offUntil ≤
      s.live.mt.now + us (if rd p 4 4 = 0 then 55000 else rd p 4 4)) ∧ (s.live.valve' k).fire = none ∧ ((s.live.valve'
      k).cfg.interlock = 2 → s.live.chimeOk k = true)) ∧
    (∃ (m : MbRef) (b : Mailbox) (s : State),
      Waits s 8196 m b ∧
      let p := b.payload
      let k := byteAt p 0
      k ≤ 11 ∧ s.live.dieLost 1 = false ∧ (s.live.valve' k).fire = none ∧ s.live.isDropped (Source.valve k) = false ∧
      ((s.live.valve' k).phase = ValvePhase.idle ∨ (s.live.valve' k).phase = ValvePhase.decay ∨ (s.live.valve' k).phase =
      ValvePhase.offTime)) ∧
    (∃ (m : MbRef) (b : Mailbox) (s : State),
      Waits s 8196 m b ∧
      let p := b.payload
      let k := byteAt p 0
      k ≤ 11 ∧ s.live.dieLost 1 = false ∧ (s.live.valve' k).fire = none ∧ s.live.isDropped (Source.valve k) = false ∧
      (s.live.valve' k).phase = ValvePhase.latched) :=
  ⟨⟨(.host 0), (box 0x2001 (valveCfg11)), (asks 0x2001 (valveCfg11)), by decide +kernel⟩,
   ⟨(.host 0), (box 0x2001 (valveCfg11)), (asks 0x2001 (valveCfg11) (fun l => l.setValve 11 fun v => { v with phase := .hold })),
     by decide +kernel⟩,
   ⟨(.host 0), (box 0x2002 ([3, 1] ++ le 2 1000 ++ [12, 0, 0, 0])), (asks 0x2002 ([3, 1] ++ le 2 1000 ++ [12, 0, 0, 0])),
     by decide +kernel⟩,
   ⟨(.host 0), (box 0x2005 [11, 0, 0, 0]), (asks 0x2005 [11, 0, 0, 0]), by decide +kernel⟩,
   ⟨(.host 0), (box 0x2003 ([11, 1] ++ le 2 10 ++ le 4 55000)),
     (asks 0x2003 ([11, 1] ++ le 2 10 ++ le 4 55000) (fun l => l.setValve 11 fun v => { v with phase := .latched })),
     by decide +kernel⟩,
   ⟨(.host 0), (box 0x2003 ([11, 0] ++ le 2 0 ++ le 4 0)),
     (asks 0x2003 ([11, 0] ++ le 2 0 ++ le 4 0) (fun l => l.setValve 11 fun v => { v with phase := .hold })),
     by decide +kernel⟩,
   ⟨(.host 0), (box 0x2003 ([11, 1] ++ le 2 1 ++ le 4 0)), (asks 0x2003 ([11, 1] ++ le 2 1 ++ le 4 0)), by decide +kernel⟩,
   ⟨(.host 0), (box 0x2003 ([11, 1] ++ le 2 10 ++ le 4 55000)),
     (asks 0x2003 ([11, 1] ++ le 2 10 ++ le 4 55000) (fun l => l.setValve 11 fun v => { v with phase := .offTime, offUntil := 1000055000000 })),
     by decide +kernel⟩,
   ⟨(.host 0), (box 0x2004 [11, 0, 0, 0]),
     (asks 0x2004 [11, 0, 0, 0] (fun l => l.setValve 11 fun v => { v with phase := .offTime })), by decide +kernel⟩,
   ⟨(.host 0), (box 0x2004 [11, 0, 0, 0]),
     (asks 0x2004 [11, 0, 0, 0] (fun l => l.setValve 11 fun v => { v with phase := .latched })), by decide +kernel⟩⟩

theorem witness_ValveCommands_2 :
    (∃ (m : MbRef) (b : Mailbox) (s : State),
      Waits s 8196 m b ∧
      let p := b.payload
      let k := byteAt p 0
      k ≤ 11 ∧ s.live.dieLost 1 = false ∧ (s.live.valve' k).fire = none ∧ s.live.isDropped (Source.valve k) = false ∧
      ((s.live.valve' k).phase = ValvePhase.peak ∨ (s.live.valve' k).phase = ValvePhase.hold) ∧ ((s.live.valve' k).cfg.interlock
      = 1 → s.live.chimeOk k = true)) ∧
    (∃ (m : MbRef) (b : Mailbox) (s : State),
      Waits s 8196 m b ∧
      let p := b.payload
      let k := byteAt p 0
      k ≤ 11 ∧ s.live.dieLost 1 = false ∧ (s.live.valve' k).fire = none ∧ s.live.isDropped (Source.valve k) = false ∧
      ((s.live.valve' k).phase = ValvePhase.peak ∨ (s.live.valve' k).phase = ValvePhase.hold) ∧ (s.live.valve' k).cfg.interlock
      = 1 ∧ s.live.chimeOk k = false) ∧
    (∃ (m : MbRef) (b : Mailbox) (s : State),
      Waits s 8196 m b ∧
      let p := b.payload
      let k := byteAt p 0
      k ≤ 11 ∧ s.live.dieLost 1 = false ∧ (s.live.valve' k).fire = none ∧ s.live.isDropped (Source.valve k) = false ∧
      (s.live.valve' k).phase = ValvePhase.uvWait ∧ ((s.live.valve' k).cfg.interlock = 1 → s.live.chimeOk k = true)) ∧
    (∃ (m : MbRef) (b : Mailbox) (s : State) (v : Nat),
      Waits s 8198 m b ∧ rd b.payload 0 4 = 2 ^ v ∧ v < 12 ∧ s.live.dieLost 1 = false) :=
  ⟨⟨(.host 0), (box 0x2004 [11, 0, 0, 0]),
     (asks 0x2004 [11, 0, 0, 0] (fun l => l.setValve 11 fun v => { v with phase := .peak })), by decide +kernel⟩,
   ⟨(.host 0), (box 0x2004 [11, 0, 0, 0]),
     (asks 0x2004 [11, 0, 0, 0] (fun l => l.setValve 11 fun v => { v with phase := .hold, cfg := { v.cfg with interlock := 1 } })),
     by decide +kernel⟩,
   ⟨(.host 0), (box 0x2004 [11, 0, 0, 0]),
     (asks 0x2004 [11, 0, 0, 0] (fun l => l.setValve 11 fun v => { v with phase := .uvWait })), by decide +kernel⟩,
   ⟨(.host 0), (box 0x2006 (le 4 2048)), (asks 0x2006 (le 4 2048)), 11, by decide +kernel⟩⟩

theorem witness_ValveMovement :
    (∃ (v : Nat) (s : State), (s.live.valve' v).phase = .peak ∧ (s.live.valve' v).fireMt + (s.live.valve' v).cfg.tPeak * 100000 ≤
      s.live.mt.now) ∧
    (∃ (v i : Nat) (s : State), (s.live.valve' v).phase = .drop ∧ i ≤ 100 * (s.live.valve' v).cfg.ihold) ∧
    (∃ (v p : Nat) (s : State), (s.live.valve' v).phase = .hold ∧ (s.live.valve' v).pulse = some p ∧ (s.live.valve' v).fireMt + p
      * 100000 ≤ s.live.mt.now) ∧
    (∃ (v i : Nat) (s : State), v < s.live.valve.valves.length ∧ (s.live.valve' v).phase = .decay ∧ i < 50) ∧
    (∃ (v : Nat) (f : FireWait) (s : State), (s.live.valve' v).fire = some f ∧ f.tick = none ∧ (s.live.valve' v).phase = .offTime
      ∧ (s.live.valve' v).offUntil ≤ s.live.mt.now ∧ (s.live.valve' v).decaying = false) ∧
    (∃ (b : Nat) (s : State), (s.live.bank b).st = .on ∧ (∀ v ∈ bankValves b, (s.live.valve' v).active = false) ∧ (s.live.bank
      b).quietAt + us 20 ≤ s.live.mt.now) ∧
    (∃ (v i : Nat) (s : State),
      v < s.live.valve.valves.length ∧
      (s.live.valve' v).phase = .peak ∧
      (s.live.valve' v).det.regulated = false ∧
      (s.live.valve' v).det.land = none ∧
      let d0 := (s.live.valve' v).det.sample i
      d0.confirms (10 * (s.live.valve' v).cfg.dipMin) i = false) ∧
    (∃ (v : Nat) (s : State), v < s.live.valve.valves.length ∧ (s.live.valve' v).phase = .hold) ∧
    (∃ (v : Nat) (s : State), (s.live.valve' v).phase = .peak ∧ (s.live.valve' v).det.land = none ∧ (s.live.valve' v).det.missed =
      false ∧ (s.live.valve' v).fireMt + (s.live.valve' v).cfg.winEnd * 100000 ≤ s.live.mt.now) ∧
    (∃ (v p : Nat) (s : State), (s.live.valve' v).phase = .land ∧ (s.live.valve' v).predicted = some p ∧ p + us (s.live.valve'
      v).cfg.landLead ≤ s.live.mt.now) :=
  ⟨⟨11, (onWith fun l => l.setValve 11 fun v => { v with phase := .peak }), by decide +kernel⟩,
   ⟨11, 500, (onWith fun l => l.setValve 11 fun v => { v with phase := .drop }), by decide +kernel⟩,
   ⟨11, 10, (onWith fun l => l.setValve 11 fun v => { v with phase := .hold, pulse := some 10 }), by decide +kernel⟩,
   ⟨11, 49, (onWith fun l => l.setValve 11 fun v => { v with phase := .decay }), by decide +kernel⟩,
   ⟨11, fire11, (onWith fun l => l.setValve 11 fun v => { v with phase := .offTime, fire := some fire11 }), by decide +kernel⟩,
   ⟨3, (onWith fun l => l.setBank 3 fun b => { b with st := .on }), by decide +kernel⟩,
   ⟨11, 100, (onWith fun l => l.setValve 11 fun v => { v with phase := .peak }), by decide +kernel⟩,
   ⟨11, (onWith fun l => l.setValve 11 fun v => { v with phase := .hold }), by decide +kernel⟩,
   ⟨11, (onWith fun l => l.setValve 11 fun v => { v with phase := .peak }), by decide +kernel⟩,
   ⟨11, 200000, (onWith fun l => l.setValve 11 fun v =>
     { v with phase := .land, learned := 4, tTravel := 100, det := { v.det with onset := some 0 }, cfg := { v.cfg with landing := true } }),
     by decide +kernel⟩⟩

theorem witness_ValveMovement_2 :
    (∃ (v u : Nat) (f : FireWait) (s : State),
      v < s.live.valve.valves.length ∧ (s.live.valve' v).fire = some f ∧ f.tick = some u ∧ u * tickNs ≤ s.live.mt.now ∧
      (s.live.valve' v).active = false ∧ (s.live.valve' v).phase ≠ ValvePhase.latched ∧ ((s.live.bank (v / 3)).st = BankPhase.on
      ∨ (s.live.bank (v / 3)).st = BankPhase.off) ∧ v / 3 < s.live.valve.banks.length) ∧
    (∃ (v : Nat) (s : State),
      (s.live.valve' v).phase = ValvePhase.offTime ∧ (s.live.valve' v).decaying = false ∧ (s.live.valve' v).offUntil ≤
      s.live.mt.now) ∧
    (∃ (v p : Nat) (s : State),
      (s.live.valve' v).cfg.landing = true ∧ 4 ≤ (s.live.valve' v).learned ∧ (s.live.valve' v).phase = ValvePhase.peak ∧
      (s.live.valve' v).det.land = none ∧ (s.live.valve' v).det.landed = false ∧ (s.live.valve' v).predicted = some p ∧ p ≤
      s.live.mt.now + us (s.live.valve' v).cfg.landLead ∧ us (s.live.valve' v).cfg.landLead < 2000 * (s.live.valve' v).tTravel) :=
  ⟨⟨11, 4, { fire11 with tick := some 4 },
     (onWith fun l => (l.setBank 3 fun b => { b with st := .on }).setValve 11 fun v => { v with fire := some { fire11 with tick := some 4 } }),
     by decide +kernel⟩,
   ⟨11, (onValve11 fun v => { v with phase := .offTime }), by decide +kernel⟩,
   ⟨11, 200000,
     (onValve11 fun v => { v with phase := .peak, learned := 4, tTravel := 100, det := { v.det with onset := some 0 }, cfg := { v.cfg with landing := true, landLead := 100 } }),
     by decide +kernel⟩⟩

theorem witness_ValveProtection :
    (∃ (v mw : Nat) (s : State), v < s.live.valve.valves.length ∧ mw ≤ 1500) ∧
    (∃ (v i : Nat) (s : State), (s.live.valve' v).phase = .peak ∧ i < 10 * (s.live.valve' v).cfg.ipeak ∧ (s.live.valve' v).fireMt
      + (s.live.valve' v).cfg.tPeak * 50000 ≤ s.live.mt.now) ∧
    (∃ (b : Nat) (tj : Int) (s : State), ((s.live.bank b).st = .on ∨ (s.live.bank b).st = .off) ∧ 1700 ≤ tj) ∧
    (∃ (b i : Nat) (s : State), (s.live.bank b).exceeded = false ∧ (s.live.bank b).st = .on ∧ 1100 * (s.live.bank b).icont < i) ∧
    (∃ (b : Nat) (s : State), s.live.pwr.uv.getD (sourceGroup (.bank b)) false = true ∧ (s.live.bank b).st = .on ∧ (∀ v ∈
      bankValves b, (s.live.valve' v).fire = none ∧ (s.live.valve' v).active = false) ∧ b < s.live.valve.banks.length) ∧
    (∃ (v mw : Nat) (s : State),
      v < s.live.valve.valves.length ∧ 1500 < mw ∧ (s.live.valve' v).inEvent = true ∧ (s.live.valve' v).forcedSlow = false) ∧
    (∃ (v i : Nat) (s : State),
      (s.live.valve' v).inEvent = true ∧ 150 * (s.live.valve' v).cfg.ipeak < i) ∧
    (∃ (v : Nat) (tj : Int) (s : State),
      (s.live.valve' v).inEvent = true ∧ 1700 ≤ tj) ∧
    (∃ (b i vds : Nat) (s : State),
      s.live.bankOn b = true ∧ (36000 < i ∨ 3000 < vds)) :=
  ⟨⟨11, 1500, on, by decide +kernel⟩,
   ⟨11, 199, (onWith fun l => l.setValve 11 fun v => { v with phase := .peak }), by decide +kernel⟩,
   ⟨3, 1700, on, by decide +kernel⟩,
   ⟨3, 13201, (onWith fun l => l.setBank 3 fun b => { b with st := .on }), by decide +kernel⟩,
   ⟨3, (onWith fun l => (l.setPwr fun p => { p with uv := List.replicate 4 true }).setBank 3 fun b => { b with st := .on }),
     by decide +kernel⟩,
   ⟨11, 1501, (onValve11 fun v => { v with phase := .decay }), by decide +kernel⟩,
   ⟨11, 3001, (onValve11 fun v => { v with phase := .hold }), by decide +kernel⟩,
   ⟨11, 1700, (onValve11 fun v => { v with phase := .hold }), by decide +kernel⟩,
   ⟨3, 36001, 0, (onWith fun l => l.setBank 3 fun b => { b with st := .on }), by decide +kernel⟩⟩

theorem witness_LedScan :
    (∃ (row : Nat) (s : State), (s.live.die 1).orphan = false ∧ s.live.sup.phase = .running ∧ row < max 1 s.live.led.cfg.rows) ∧
    (∃ (s : State), s.live.led.slot < s.live.mt.now / slotNs) ∧
    (∃ (s : State), s.live.sup.phase = .running ∧ s.live.led.frame < s.live.mt.now / s.live.led.period) ∧
    (∃ (row at_ : Nat) (s : State), (s.live.led.rowOff.find? fun x => x.1 == row) = some (row, at_) ∧ at_ + ms 1000 ≤
      s.live.mt.now ∧ s.live.led.dark = false) ∧
    (∃ (x : LedBuild) (xs : List LedBuild) (s : State), s.live.sup.phase = .running ∧ s.live.led.builds = x :: xs ∧ x.doneAt =
      none) ∧
    (∃ (s : State), s.live.sup.phase = .running ∧ s.live.led.cfg.patina = true ∧ s.live.led.shown = true ∧
      s.live.led.cfg.measInterval * 1000000000 ≤ s.live.led.shownNs + (s.live.mt.now - s.live.led.shownAt)) :=
  ⟨⟨15, on, by decide +kernel⟩,
   ⟨on, by decide +kernel⟩,
   ⟨on, by decide +kernel⟩,
   ⟨15, 0, (onWith fun l => l.setLed fun d => { d with rowOff := [(15, 0)] }), by decide +kernel⟩,
   ⟨{ tables := LedTables.default, patina := false, owner := none, doneAt := none }, [], (onWith fun l => l.setLed fun d =>
     { d with builds := [{ tables := LedTables.default, patina := false, owner := none, doneAt := none }] }), by decide +kernel⟩,
   ⟨(onWith fun l => l.setLed fun d => { d with page := 127, cfg := { d.cfg with patina := true, measInterval := 1000 } }),
     by decide +kernel⟩⟩

theorem witness_LedCommands :
    (∃ (m : MbRef) (b : Mailbox) (s : State) (n d1 f : Nat), Waits s 0x2810 m b ∧ firstBad (s.live.lightChecks b.payload) = none ∧
      lightEntries b.payload = [(n, d1, f)] ∧ b.staged = false ∧ f = 0) ∧
    (∃ (m : MbRef) (b : Mailbox) (s : State) (n d1 f : Nat), Waits s 0x2810 m b ∧ firstBad (s.live.lightChecks b.payload) = none ∧
      lightEntries b.payload = [(n, d1, f)] ∧ b.staged = false ∧ f ≠ 0 ∧ s.live.dieLost (sourceDie (.load n)) = false ∧
      s.live.pwr.mode ≠ .drain) ∧
    (∃ (m : MbRef) (b : Mailbox) (s : State) (n d1 f : Nat), Waits s 0x2810 m b ∧ firstBad (s.live.lightChecks b.payload) = none ∧
      lightEntries b.payload = [(n, d1, f)] ∧ b.staged = true ∧ 256 ≤ s.live.host.staged.length) ∧
    (∃ (m : MbRef) (b : Mailbox) (s : State), Waits s 0x2809 m b ∧ byteAt b.payload 3 < 2 ∧ s.live.led.shown = true) ∧
    (∃ (m : MbRef) (b : Mailbox) (s : State), Waits s 0x2809 m b ∧ byteAt b.payload 3 < 2 ∧ s.live.led.shown = false) ∧
    (∃ (m : MbRef) (b : Mailbox) (s : State),
      Waits s 0x2802 m b ∧
      firstBad (ledFrameChecks b.payload) = none ∧
      let page := byteAt b.payload 0
      s.live.led.page = page) ∧
    (∃ (m : MbRef) (b : Mailbox) (s : State),
      Waits s 0x2802 m b ∧
      firstBad (ledFrameChecks b.payload) = none ∧
      let page := byteAt b.payload 0
      s.live.led.page ≠ page ∧
      s.live.stagedPage page = true) ∧
    (∃ (m : MbRef) (b : Mailbox) (s : State),
      Waits s 0x2802 m b ∧
      firstBad (ledFrameChecks b.payload) = none ∧
      let page := byteAt b.payload 0
      s.live.led.page ≠ page ∧
      s.live.stagedPage page = false) ∧
    (∃ (m : MbRef) (b : Mailbox) (s : State), Waits s 0x2804 m b ∧ byteAt b.payload 0 ≤ 3 ∧ byteAt b.payload 1 ≤ 1 ∧ byteAt
      b.payload 2 < 4 ∧ (resv b 3 1).2 = true ∧ (∀ i, i < 128 → rd b.payload (4 + 2 * i) 2 ≤ 4096)) ∧
    (∃ (m : MbRef) (b : Mailbox) (s : State), Waits s 0x2805 m b ∧ byteAt b.payload 0 ≤ 15 ∧ byteAt b.payload 1 < 4 ∧ (resv b 2
      2).2 = true) :=
  ⟨⟨(.host 0), (box 0x2810 ([1, 0, 0, 0, 47, 0] ++ le 2 65535 ++ le 2 0 ++ [0, 0])), (asks 0x2810 ([1, 0, 0, 0, 47, 0] ++ le 2
    65535 ++ le 2 0 ++ [0, 0]) (fun l => l.setCh 47 fun c => { c with cfg := { c.cfg with role := 2, freq := 13 } })), 47, 65535,
    default, by decide +kernel⟩,
   ⟨(.host 0), (box 0x2810 ([1, 0, 0, 0, 47, 0] ++ le 2 65535 ++ le 2 60000 ++ [0, 0])), (asks 0x2810 ([1, 0, 0, 0, 47, 0] ++ le 2
     65535 ++ le 2 60000 ++ [0, 0]) (fun l => l.setCh 47 fun c => { c with cfg := { c.cfg with role := 2, freq := 13 } })), 47,
     65535, 60000, by decide +kernel⟩,
   ⟨(.host 0), (box 0x2810 ([1, 0, 0, 0, 47, 0] ++ le 2 65535 ++ le 2 60000 ++ [0, 0]) 1), (asks 0x2810 ([1, 0, 0, 0, 47, 0] ++ le
     2 65535 ++ le 2 60000 ++ [0, 0]) (fun l =>
     { l with host := { l.host with staged := List.replicate 256 { seq := 0, since := 0, change := .show_ 0, group := 0, amount := 0, rate := 0, struck := false } } }.setCh
     47 fun c => { c with cfg := { c.cfg with role := 2, freq := 13 } }) 1), 47, 65535, 60000, by decide +kernel⟩,
   ⟨(.host 0), (box 0x2809 (le 2 0xFFFF ++ [255, 1])), (asks 0x2809 (le 2 0xFFFF ++ [255, 1]) (fun l => l.setLed fun d =>
     { d with page := 0 })), by decide +kernel⟩,
   ⟨(.host 0), (box 0x2809 (le 2 0xFFFF ++ [255, 1])), (asks 0x2809 (le 2 0xFFFF ++ [255, 1])), by decide +kernel⟩,
   ⟨(.host 0), (box 0x2802 ([127, 0] ++ le 2 1023 ++ le 2 1 ++ [0, 0] ++ [5])), (asks 0x2802 ([127, 0] ++ le 2 1023 ++ le 2 1 ++
     [0, 0] ++ [5]) (fun l => l.setLed fun d => { d with page := 127 })), by decide +kernel⟩,
   ⟨(.host 0), (box 0x2802 ([127, 0] ++ le 2 1023 ++ le 2 1 ++ [0, 0] ++ [5])), (asks 0x2802 ([127, 0] ++ le 2 1023 ++ le 2 1 ++
     [0, 0] ++ [5]) (fun l => l.setLed fun d => { d with shows := [{ page := 127, at_ := 0, struck := true, owner := none }] })),
     by decide +kernel⟩,
   ⟨(.host 0), (box 0x2802 ([127, 1] ++ le 2 0 ++ [0, 1, 1, 0] ++ [5])), (asks 0x2802 ([127, 1] ++ le 2 0 ++ [0, 1, 1, 0] ++
    [5])), by decide +kernel⟩,
   ⟨(.host 0), (box 0x2804 ([3, 1, 3, 0] ++ (List.replicate 128 (le 2 4096)).flatten)), (asks 0x2804 ([3, 1, 3, 0] ++
     (List.replicate 128 (le 2 4096)).flatten)), by decide +kernel⟩,
   ⟨(.host 0), (box 0x2805 ([15, 3, 0, 0] ++ zs 64)), (asks 0x2805 ([15, 3, 0, 0] ++ zs 64)), by decide +kernel⟩⟩

theorem witness_LedCommands_2 :
    (∃ (m : MbRef) (b : Mailbox) (s : State), Waits s 0x2806 m b ∧ (resv b 1 3).2 = true ∧ byteAt b.payload 0 = 0) ∧
    (∃ (m : MbRef) (b : Mailbox) (s : State), Waits s 0x2807 m b) ∧
    (∃ (m : MbRef) (b : Mailbox) (s : State), Waits s 0x2808 m b ∧ s.live.led.faults.length ≤ rd b.payload 0 2) ∧
    (∃ (m : MbRef) (b : Mailbox) (s : State), Waits s 0x2808 m b ∧ rd b.payload 0 2 < s.live.led.faults.length) ∧
    (∃ (m : MbRef) (b : Mailbox) (s : State) (n d1 f : Nat),
      Waits s 10256 m b ∧
      let p := b.payload
      firstBad (s.live.lightChecks p) = none ∧ lightEntries p = [(n, d1, f)] ∧ b.staged = true ∧ s.live.host.staged.length < 256
      ∧ s.live.dieLost (sourceDie (Source.load n)) = false ∧ s.live.pwr.mode ≠ Mode.drain ∧ (s.live.ch n).latch = false ∧
      s.live.turnOnRefused n = none ∧ (f = 0 ∨ d1 ≠ 0)) ∧
    (∃ (m : MbRef) (b : Mailbox) (s : State) (n d1 f : Nat),
      Waits s 10256 m b ∧
      let p := b.payload
      firstBad (s.live.lightChecks p) = none ∧ lightEntries p = [(n, d1, f)] ∧ b.staged = true ∧ s.live.host.staged.length < 256
      ∧ s.live.dieLost (sourceDie (Source.load n)) = false ∧ s.live.pwr.mode ≠ Mode.drain ∧ (s.live.ch n).latch = false ∧
      s.live.turnOnRefused n = none ∧ f ≠ 0 ∧ d1 = 0) ∧
    (∃ (m : MbRef) (b : Mailbox) (s : State),
      Waits s 10241 m b ∧ firstBad (ledCfgChecks b.payload) = none ∧ s.live.dieLost 1 = false ∧ s.live.led.shown = true) ∧
    (∃ (m : MbRef) (b : Mailbox) (s : State),
      Waits s 10241 m b ∧ firstBad (ledCfgChecks b.payload) = none ∧ s.live.dieLost 1 = false ∧ s.live.led.shown = false) ∧
    (∃ (m : MbRef) (b : Mailbox) (s : State),
      Waits s 10243 m b ∧
      let p := b.payload
      (byteAt p 0 ≤ 127 ∨ byteAt p 0 = 255) ∧ (resv b 1 3).2 = true ∧ s.live.dieLost 1 = false ∧ s.live.pwr.mode = Mode.drain) ∧
    (∃ (m : MbRef) (b : Mailbox) (s : State),
      Waits s 10243 m b ∧
      let p := b.payload
      (byteAt p 0 ≤ 127 ∨ byteAt p 0 = 255) ∧ (resv b 1 3).2 = true ∧ s.live.dieLost 1 = false ∧ s.live.pwr.mode ≠ Mode.drain ∧
      b.staged = true ∧ s.live.host.staged.length < 256) :=
  ⟨⟨(.host 0), (box 0x2806 (zs 4)), (asks 0x2806 (zs 4)), by decide +kernel⟩,
   ⟨(.host 0), (box 0x2807 []), (asks 0x2807 []), by decide +kernel⟩,
   ⟨(.host 0), (box 0x2808 [0, 0]), (asks 0x2808 [0, 0]), by decide +kernel⟩,
   ⟨(.host 0), (box 0x2808 [0, 0]), (asks 0x2808 [0, 0] (fun l => l.setLed fun d =>
     { d with faults := [{ kind := 0, idx := 0, found := 0 }] })), by decide +kernel⟩,
   ⟨(.host 0), (box 0x2810 ([1, 0, 0, 0, 47, 0] ++ le 2 65535 ++ le 2 60000 ++ [0, 0]) 1),
     (asks 0x2810 ([1, 0, 0, 0, 47, 0] ++ le 2 65535 ++ le 2 60000 ++ [0, 0]) (fun l => (full 255 l).setCh 47 fun c => { c with cfg := { c.cfg with role := 2, freq := 13 } }) 1),
     47, 65535, 60000, by decide +kernel⟩,
   ⟨(.host 0), (box 0x2810 ([1, 0, 0, 0, 47, 0] ++ le 2 0 ++ le 2 60000 ++ [0, 0]) 1),
     (asks 0x2810 ([1, 0, 0, 0, 47, 0] ++ le 2 0 ++ le 2 60000 ++ [0, 0]) (fun l => (full 255 l).setCh 47 fun c => { c with cfg := { c.cfg with role := 2, freq := 13 } }) 1),
     47, 0, 60000, by decide +kernel⟩,
   ⟨(.host 0), (box 0x2801 ledCfgMax), (asks 0x2801 ledCfgMax (fun l => l.setLed fun d => { d with page := 127 })),
     by decide +kernel⟩,
   ⟨(.host 0), (box 0x2801 ledCfgMax), (asks 0x2801 ledCfgMax), by decide +kernel⟩,
   ⟨(.host 0), (box 0x2803 [127, 0, 0, 0]),
     (asks 0x2803 [127, 0, 0, 0] (fun l => l.setPwr fun p => { p with mode := .drain })), by decide +kernel⟩,
   ⟨(.host 0), (box 0x2803 [255, 0, 0, 0] 1), (asks 0x2803 [255, 0, 0, 0] (fun l => full 255 l) 1), by decide +kernel⟩⟩

theorem witness_LedCommands_3 :
    (∃ (m : MbRef) (b : Mailbox) (s : State),
      Waits s 10243 m b ∧
      let p := b.payload
      (byteAt p 0 ≤ 127 ∨ byteAt p 0 = 255) ∧ (resv b 1 3).2 = true ∧ s.live.dieLost 1 = false ∧ s.live.pwr.mode ≠ Mode.drain ∧
      b.staged = true ∧ 256 ≤ s.live.host.staged.length) ∧
    (∃ (m : MbRef) (b : Mailbox) (s : State),
      Waits s 10243 m b ∧
      let p := b.payload
      (byteAt p 0 ≤ 127 ∨ byteAt p 0 = 255) ∧ (resv b 1 3).2 = true ∧ s.live.dieLost 1 = false ∧ s.live.pwr.mode ≠ Mode.drain ∧
      b.staged = false) ∧
    (∃ (m : MbRef) (b : Mailbox) (s : State),
      Waits s 10246 m b ∧ (resv b 1 3).2 = true ∧ byteAt b.payload 0 = 1 ∧ s.live.dieLost 1 = false ∧ s.live.led.shown = true ∧
      s.live.led.cfg.patina = true) ∧
    (∃ (m : MbRef) (b : Mailbox) (s : State),
      Waits s 10246 m b ∧ (resv b 1 3).2 = true ∧ byteAt b.payload 0 = 1 ∧ s.live.dieLost 1 = false ∧ (s.live.led.shown = false
      ∨ s.live.led.cfg.patina = false)) ∧
    (∃ (m : MbRef) (b : Mailbox) (s : State),
      Waits s 10246 m b ∧
      let p := b.payload
      (resv b 1 3).2 = true ∧ (byteAt p 0 = 2 ∨ byteAt p 0 = 3)) :=
  ⟨⟨(.host 0), (box 0x2803 [127, 0, 0, 0] 1), (asks 0x2803 [127, 0, 0, 0] (fun l => full 256 l) 1), by decide +kernel⟩,
   ⟨(.host 0), (box 0x2803 [127, 0, 0, 0]), (asks 0x2803 [127, 0, 0, 0]), by decide +kernel⟩,
   ⟨(.host 0), (box 0x2806 [1, 0, 0, 0]),
     (asks 0x2806 [1, 0, 0, 0] (fun l => l.setLed fun d => { d with page := 0, cfg := { d.cfg with patina := true } })),
     by decide +kernel⟩,
   ⟨(.host 0), (box 0x2806 [1, 0, 0, 0]), (asks 0x2806 [1, 0, 0, 0]), by decide +kernel⟩,
   ⟨(.host 0), (box 0x2806 [3, 0, 0, 0]), (asks 0x2806 [3, 0, 0, 0]), by decide +kernel⟩⟩

theorem witness_FieldIo :
    (∃ (n : Nat) (s : State), n < s.live.fio.ch.length ∧ (s.live.fioCh n).cfg.mode = 2 ∧ (s.live.fioCh n).lowest = n ∧ (s.live.die
      0).orphan = true ∧ (s.live.fioCh n).safe = false ∧ (s.live.die 0).lastHb + ms (s.live.fioCh n).cfg.silenceMs ≤
      s.live.mt.now) ∧
    (∃ (n : Nat) (s : State),
      n < s.live.fio.ch.length ∧ (s.live.fioCh n).cfg.mode = 1 ∧ s.live.fioPowered = true) ∧
    (∃ (n : Nat) (s : State),
      n < s.live.fio.ch.length ∧ (s.live.fioCh n).cfg.mode = 1 ∧ (s.live.fioCh n).cfg.wireBreak = true ∧ (s.live.fioCh n).high =
      false ∧ s.live.fioPowered = true) ∧
    (∃ (s : State),
      s.live.fioPowered = true) ∧
    (∃ (k i : Nat) (s : State),
      (s.live.fioCh k).lowest < s.live.fio.ch.length ∧ k < s.live.fio.ch.length ∧ (s.live.fioCh (s.live.fioCh k).lowest).sw =
      FioSwitch.on ∧ 800 ≤ i) ∧
    (∃ (k i forNs : Nat) (s : State),
      (s.live.fioCh k).lowest < s.live.fio.ch.length ∧ k < s.live.fio.ch.length ∧ (s.live.fioCh (s.live.fioCh k).lowest).sw =
      FioSwitch.limit ∧ i < 720 ∧ us 100 ≤ forNs) ∧
    (∃ (k i : Nat) (s : State),
      (s.live.fioCh k).lowest < s.live.fio.ch.length ∧ ((s.live.fioCh (s.live.fioCh k).lowest).sw = FioSwitch.limit ∧
      (s.live.fioCh (s.live.fioCh k).lowest).limitAt + ms 5 ≤ s.live.mt.now ∨ (s.live.fioCh (s.live.fioCh k).lowest).conducts =
      true ∧ 1200 < i)) ∧
    (∃ (k : Nat) (s : State),
      (s.live.fioCh k).lowest < s.live.fio.ch.length ∧ k < s.live.fio.ch.length ∧ (s.live.fioCh (s.live.fioCh
      k).lowest).cfg.mode = 2) ∧
    (∃ (k e : Nat) (s : State),
      (s.live.fioCh k).lowest < s.live.fio.ch.length ∧ (s.live.fioCh (s.live.fioCh k).lowest).cfg.mode = 2 ∧ s.live.fioPowered =
      true ∧ 15000 * (s.live.fioCh (s.live.fioCh k).lowest).members < e) ∧
    (∃ (n : Nat) (s : State),
      n < s.live.fio.ch.length ∧ (s.live.fioCh n).cfg.mode = 2 ∧ (s.live.fioCh n).lowest = n) :=
  ⟨⟨31, (onWith fun l => (l.setFio 31 fun c => { c with cfg := { c.cfg with mode := 2 } }).setDie 0 fun d =>
     { d with orphan := true }), by decide +kernel⟩,
   ⟨31, (onFio31 fun c => { c with cfg := { c.cfg with mode := 1 } }), by decide +kernel⟩,
   ⟨31, (onFio31 fun c => { c with cfg := { c.cfg with mode := 1, wireBreak := true } }), by decide +kernel⟩,
   ⟨on, by decide +kernel⟩,
   ⟨31, 800, (onFio31 fun c => { c with sw := .on }), by decide +kernel⟩,
   ⟨31, 719, us 100, (onFio31 fun c => { c with sw := .limit }), by decide +kernel⟩,
   ⟨31, 1201, (onFio31 fun c => { c with sw := .limit }), by decide +kernel⟩,
   ⟨31, (onFio31 fun c => { c with cfg := { c.cfg with mode := 2 }, sw := .on }), by decide +kernel⟩,
   ⟨31, 15001, (onFio31 fun c => { c with cfg := { c.cfg with mode := 2 } }), by decide +kernel⟩,
   ⟨31, (onFio31 fun c => { c with cfg := { c.cfg with mode := 2 }, sw := .on }), by decide +kernel⟩⟩

theorem witness_FieldIo_2 :
    (∃ (n i forNs : Nat) (s : State),
      n < s.live.fio.ch.length ∧ (s.live.fioCh n).cfg.olOn = true ∧ (s.live.fioCh n).sw = FioSwitch.on ∧ (s.live.fioCh n).lowest
      = n ∧ ms 10 ≤ forNs ∧ (s.live.fioCh n).openOn = decide (i < 5 * (s.live.fioCh n).members)) ∧
    (∃ (n i forNs : Nat) (s : State),
      n < s.live.fio.ch.length ∧ (s.live.fioCh n).cfg.olOn = true ∧ (s.live.fioCh n).sw = FioSwitch.on ∧ (s.live.fioCh n).lowest
      = n ∧ ms 10 ≤ forNs ∧ (s.live.fioCh n).openOn ≠ decide (i < 5 * (s.live.fioCh n).members)) :=
  ⟨⟨31, 5, ms 10, (onFio31 fun c => { c with cfg := { c.cfg with olOn := true }, sw := .on }), by decide +kernel⟩,
   ⟨31, 4, ms 10, (onFio31 fun c => { c with cfg := { c.cfg with olOn := true }, sw := .on }), by decide +kernel⟩⟩

theorem witness_FieldCommands :
    (∃ (m : MbRef) (b : Mailbox) (s : State), Waits s 0x3001 m b ∧ firstBad (s.live.fioCfgChecks b) = none ∧ s.live.dieLost 0 =
      true) ∧
    (∃ (m : MbRef) (b : Mailbox) (s : State),
      Waits s 0x3001 m b ∧
      firstBad (s.live.fioCfgChecks b) = none ∧
      let n := byteAt b.payload 0
      s.live.dieLost 0 = false ∧
      (s.live.pwr.mode = .drain ∨ (s.live.fioCh n).lowest ≠ n)) ∧
    (∃ (m : MbRef) (b : Mailbox) (s : State),
      Waits s 0x3001 m b ∧
      firstBad (s.live.fioCfgChecks b) = none ∧
      let n := byteAt b.payload 0
      let after := (List.range (if byteAt b.payload 1 = 2 then parMembers (byteAt b.payload 7) else 1)).map (n + ·)
      s.live.dieLost 0 = false ∧
      s.live.pwr.mode ≠ .drain ∧
      (s.live.fioCh n).lowest = n ∧
      (∀ k ∈ after ++ (List.range (s.live.fioCh n).members).map (n + ·),
      (s.live.fioCh (s.live.fioCh k).lowest).idle = true) ∧
      (byteAt b.payload 1 = 2 → ∀ k ∈ after, (s.live.fioCh k).cfg.mode = 1 → (s.live.fioCh k).cfg.role = 0) ∧
      (∀ k ∈ after, k = n ∨ (s.live.fioCh k).lowest = n ∨ ((s.live.fioCh k).lowest = k ∧ (s.live.fioCh k).cfg.par = 0))) ∧
    (∃ (m : MbRef) (b : Mailbox) (s : State) (n : Nat), Waits s 0x3002 m b ∧ bitsOf 32 (rd b.payload 0 4) = [n] ∧ (s.live.fioCh
      n).lowest = n ∧ (s.live.fioCh n).cfg.mode ≠ 2) ∧
    (∃ (m : MbRef) (b : Mailbox) (s : State) (n : Nat), Waits s 0x3002 m b ∧ bitsOf 32 (rd b.payload 0 4) = [n] ∧ (s.live.fioCh
      n).lowest = n ∧ (s.live.fioCh n).cfg.mode = 2 ∧ b.staged = false) ∧
    (∃ (m : MbRef) (b : Mailbox) (s : State) (n : Nat), Waits s 0x3002 m b ∧ bitsOf 32 (rd b.payload 0 4) = [n] ∧ (s.live.fioCh
      n).lowest = n ∧ (s.live.fioCh n).cfg.mode = 2 ∧ b.staged = true ∧ s.live.host.staged.length < 256) ∧
    (∃ (m : MbRef) (b : Mailbox) (s : State) (n : Nat),
      Waits s 0x3002 m b ∧
      bitsOf 32 (rd b.payload 0 4) = [n] ∧
      (s.live.fioCh n).lowest = n ∧
      let on := bit (rd b.payload 4 4) n
      on = true ∧
      ((s.live.fioCh n).state = 4 ∨ (s.live.fioCh n).state = 5) ∧
      s.live.dieLost 0 = false ∧
      s.live.pwr.mode ≠ .drain) ∧
    (∃ (m : MbRef) (b : Mailbox) (s : State) (n : Nat),
      Waits s 0x3002 m b ∧
      bitsOf 32 (rd b.payload 0 4) = [n] ∧
      (s.live.fioCh n).lowest = n ∧
      let on := bit (rd b.payload 4 4) n
      on = true ∧
      (s.live.fioCh n).state = 8 ∧
      s.live.dieLost 0 = false ∧
      s.live.pwr.mode ≠ .drain) ∧
    (∃ (m : MbRef) (b : Mailbox) (s : State), Waits s 0x3003 m b) ∧
    (∃ (m : MbRef) (b : Mailbox) (s : State), Waits s 0x3005 m b ∧ byteAt b.payload 0 ≤ 15 ∧ byteAt b.payload 1 ≤ 1 ∧ byteAt
      b.payload 2 ≤ 2 ∧ byteAt b.payload 3 ≤ 5 ∧ byteAt b.payload 4 ≤ 3 ∧ 1 ≤ byteAt b.payload 5 ∧ byteAt b.payload 6 < 4 ∧ (resv
      b 7 1).2 = true) :=
  ⟨⟨(.host 0), (box 0x3001 (fioCfg28)), (asks 0x3001 (fioCfg28) (fun l =>
    { l with sup := { l.sup with unadopted := [true, false] } })), by decide +kernel⟩,
   ⟨(.host 0), (box 0x3001 (fioCfg28)), (asks 0x3001 (fioCfg28) (fun l => l.setPwr fun p => { p with mode := .drain })),
     by decide +kernel⟩,
   ⟨(.host 0), (box 0x3001 (fioCfg28)), (asks 0x3001 (fioCfg28)), by decide +kernel⟩,
   ⟨(.host 0), (box 0x3002 (le 4 0x80000000 ++ le 4 0x80000000)), (asks 0x3002 (le 4 0x80000000 ++ le 4 0x80000000)), 31,
     by decide +kernel⟩,
   ⟨(.host 0), (box 0x3002 (le 4 0x80000000 ++ le 4 0x80000000)), (asks 0x3002 (le 4 0x80000000 ++ le 4 0x80000000) (fun l =>
     l.setFio 31 fun c => { c with cfg := { c.cfg with mode := 2 } })), 31, by decide +kernel⟩,
   ⟨(.host 0), (box 0x3002 (le 4 0x80000000 ++ le 4 0x80000000) 1), (asks 0x3002 (le 4 0x80000000 ++ le 4 0x80000000) (fun l =>
     { l with host := { l.host with staged := List.replicate 255 { seq := 0, since := 0, change := .show_ 0, group := 0, amount := 0, rate := 0, struck := false } } }.setFio
     31 fun c => { c with cfg := { c.cfg with mode := 2 } }) 1), 31, by decide +kernel⟩,
   ⟨(.host 0), (box 0x3002 (le 4 0x80000000 ++ le 4 0x80000000)), (asks 0x3002 (le 4 0x80000000 ++ le 4 0x80000000) (fun l =>
     l.setFio 31 fun c => { c with cfg := { c.cfg with mode := 2 }, sw := .on })), 31, by decide +kernel⟩,
   ⟨(.host 0), (box 0x3002 (le 4 0x80000000 ++ le 4 0x80000000)), (asks 0x3002 (le 4 0x80000000 ++ le 4 0x80000000) (fun l =>
     l.setFio 31 fun c => { c with cfg := { c.cfg with mode := 2 }, latch := true })), 31, by decide +kernel⟩,
   ⟨(.host 0), (box 0x3003 []), (asks 0x3003 []), by decide +kernel⟩,
   ⟨(.host 0), (box 0x3005 [15, 1, 2, 5, 3, 1, 3, 0]), (asks 0x3005 [15, 1, 2, 5, 3, 1, 3, 0]), by decide +kernel⟩⟩

theorem witness_FieldCommands_2 :
    ∃ (m : MbRef) (b : Mailbox) (s : State) (n : Nat),
      Waits s 12292 m b ∧ bitsOf 32 (rd b.payload 0 4) = [n] ∧ n < s.live.fio.ch.length ∧ s.live.dieLost 0 = false ∧
      (s.live.fioCh n).cfg.mode = 2 ∧ (s.live.fioCh n).latch = true :=
  ⟨(.host 0), (box 0x3004 (le 4 0x80000000)),
     (asks 0x3004 (le 4 0x80000000) (fun l => l.setFio 31 fun c => { c with cfg := { c.cfg with mode := 2 }, latch := true })),
     31, by decide +kernel⟩

theorem witness_AudioEvents :
    (∃ (n : Nat) (p : Playing) (s : State), n < s.live.audio.zones.length ∧ s.live.sup.phase = .running ∧ (s.live.zone n).playing
      = some p ∧ p.started = false ∧ p.fade = none ∧ p.prog.startMt ≤ s.live.mt.now) ∧
    (∃ (n : Nat) (p : Playing) (s : State), n < s.live.audio.zones.length ∧ (s.live.zone n).playing = some p ∧ p.fade = none ∧
      p.finished s.kept.flash = true) ∧
    (∃ (n : Nat) (p : Playing) (s : State) (f : Nat × Nat), n < s.live.audio.zones.length ∧ (s.live.zone n).playing = some p ∧
      p.fade = some f ∧ f.1 + ms 10 ≤ s.live.mt.now) ∧
    (∃ (n : Nat) (p : Playing) (s : State), n < s.live.audio.zones.length ∧ (s.live.zone n).playing = some p ∧ (s.live.zone
      n).next = none ∧ (s.live.zone n).queue = []) ∧
    (∃ (n : Nat) (p : Playing) (s : State) (q : Programme) (qs : List Programme), n < s.live.audio.zones.length ∧ (s.live.zone
      n).playing = some p ∧ (s.live.zone n).next = none ∧ (s.live.zone n).queue = q :: qs) ∧
    (∃ (n : Nat) (p : Playing) (s : State) (q : Programme), n < s.live.audio.zones.length ∧ (s.live.zone n).playing = some p ∧
      (s.live.zone n).next = some q) ∧
    (∃ (c missing : Nat) (s : State), s.live.sup.phase = .running ∧ c < s.live.audio.lost.length ∧ ms 10 ≤ missing) ∧
    (∃ (c missing : Nat) (s : State), s.live.sup.phase = .running ∧ c < s.live.audio.lost.length ∧ missing = 0) ∧
    (∃ (n : Nat) (ws : List (Nat × Nat)) (s : State), n < s.live.audio.zones.length ∧ s.live.sup.phase = .running ∧ (s.live.zone
      n).cal = some ws ∧ 10 ≤ ws.length) ∧
    (∃ (n : Nat) (s : State),
      n < s.live.audio.zones.length ∧ s.live.sup.phase = StartPhase.running ∧ (s.live.zone n).cfg.supervise = true ∧
      s.live.mutedLately n = false) :=
  ⟨⟨7, playing7, (onWith fun l =>
    { l with audio := { l.audio with zones := l.audio.zones.map fun z => { z with playing := some playing7 } } }),
    by decide +kernel⟩,
   ⟨7, { playing7 with prog := { tdm7 with kind := 0, src := 5 }, passes := 1 },
     { (onWith fun l => { l with audio := { l.audio with zones := l.audio.zones.map fun z => { z with playing := some { playing7 with prog := { tdm7 with kind := 0, src := 5 }, passes := 1 } } } }) with kept := { on.kept with flash := [(0xC00000, 5), (0xC00001, 0)] } },
     by decide +kernel⟩,
   ⟨7, { playing7 with fade := some (0, 2) }, (onWith fun l =>
     { l with audio := { l.audio with zones := l.audio.zones.map fun z => { z with playing := some { playing7 with fade := some (0, 2) } } } }),
     (0, 2), by decide +kernel⟩,
   ⟨7, playing7, (onWith fun l =>
     { l with audio := { l.audio with zones := l.audio.zones.map fun z => { z with playing := some playing7 } } }),
     by decide +kernel⟩,
   ⟨7, playing7, (onWith fun l =>
     { l with audio := { l.audio with zones := l.audio.zones.map fun z => { z with playing := some playing7, queue := [tdm7] } } }),
     tdm7, [], by decide +kernel⟩,
   ⟨7, playing7, (onWith fun l =>
     { l with audio := { l.audio with zones := l.audio.zones.map fun z => { z with playing := some playing7, next := some tdm7 } } }),
     tdm7, by decide +kernel⟩,
   ⟨7, ms 10, on, by decide +kernel⟩,
   ⟨7, 0, on, by decide +kernel⟩,
   ⟨7, List.replicate 10 (100, 10), (onWith fun l =>
     { l with audio := { l.audio with zones := l.audio.zones.map fun z => { z with cal := some (List.replicate 10 (100, 10)) } } }),
     by decide +kernel⟩,
   ⟨7,
     (onWith fun l => { l with audio := { l.audio with zones := l.audio.zones.map fun z => { z with cfg := { z.cfg with supervise := true } } } }),
     by decide +kernel⟩⟩

theorem witness_AudioCommands :
    (∃ (m : MbRef) (b : Mailbox) (s : State), Waits s 0x3801 m b ∧ byteAt b.payload 0 ≤ 7 ∧ byteAt b.payload 1 < 8 ∧ byteAt
      b.payload 2 ≤ 127 ∧ byteAt b.payload 3 ≤ 127 ∧ inRange 5 50 (byteAt b.payload 4) = true ∧ inRange 500 5000 (rd b.payload 5
      2) = true ∧ (resv b 7 1).2 = true) ∧
    (∃ (m : MbRef) (b : Mailbox) (s : State),
      Waits s 0x3802 m b ∧
      let kind := byteAt b.payload 1
      let src := rd b.payload 2 2
      byteAt b.payload 0 ≠ 0 ∧
      kind ≤ 2 ∧
      (kind = 0 → ∃ c ∈ clips s.kept.flash, c.id = src) ∧
      (kind ≠ 0 → src ≤ 7) ∧
      byteAt b.payload 4 ≤ 7 ∧
      byteAt b.payload 5 < 4 ∧
      (resv b 7 1).2 = true ∧
      s.live.pwr.mode = .drain) ∧
    (∃ (m : MbRef) (b : Mailbox) (s : State),
      Waits s 0x3802 m b ∧
      let kind := byteAt b.payload 1
      let src := rd b.payload 2 2
      byteAt b.payload 0 ≠ 0 ∧
      kind ≤ 2 ∧
      (kind = 0 → ∃ c ∈ clips s.kept.flash, c.id = src) ∧
      (kind ≠ 0 → src ≤ 7) ∧
      byteAt b.payload 4 ≤ 7 ∧
      byteAt b.payload 5 < 4 ∧
      (resv b 7 1).2 = true ∧
      s.live.pwr.mode ≠ .drain ∧
      kind = 0 ∧
      src ∈ s.live.audio.bad) ∧
    (∃ (m : MbRef) (b : Mailbox) (s : State) (n : Nat),
      Waits s 0x3802 m b ∧
      let kind := byteAt b.payload 1
      let src := rd b.payload 2 2
      byteAt b.payload 0 ≠ 0 ∧
      kind ≤ 2 ∧
      (kind = 0 → ∃ c ∈ clips s.kept.flash, c.id = src) ∧
      (kind ≠ 0 → src ≤ 7) ∧
      byteAt b.payload 4 ≤ 7 ∧
      byteAt b.payload 5 < 4 ∧
      (resv b 7 1).2 = true ∧
      s.live.pwr.mode ≠ .drain ∧
      (kind = 0 → src ∉ s.live.audio.bad) ∧
      bitsOf 8 (byteAt b.payload 0) = [n] ∧
      n < s.live.audio.zones.length ∧
      (s.live.zone n).playing = none) ∧
    (∃ (m : MbRef) (b : Mailbox) (s : State) (n : Nat), Waits s 0x3803 m b ∧ bitsOf 8 (byteAt b.payload 0) = [n] ∧ byteAt
      b.payload 0 ≠ 0 ∧ byteAt b.payload 1 ≤ 1 ∧ (resv b 2 2).2 = true ∧ n < s.live.audio.zones.length) ∧
    (∃ (m : MbRef) (b : Mailbox) (s : State), Waits s 0x3804 m b ∧ byteAt b.payload 0 ≤ 7 ∧ (byteAt b.payload 1 ≤ 7 ∨ byteAt
      b.payload 1 = 0xFF) ∧ (resv b 2 2).2 = true ∧ s.live.link.cascaded = false) ∧
    (∃ (m : MbRef) (b : Mailbox) (s : State), Waits s 0x3804 m b ∧ byteAt b.payload 0 ≤ 7 ∧ (byteAt b.payload 1 ≤ 7 ∨ byteAt
      b.payload 1 = 0xFF) ∧ (resv b 2 2).2 = true ∧ s.live.link.cascaded = true) ∧
    (∃ (m : MbRef) (b : Mailbox) (s : State), Waits s 0x3805 m b ∧ byteAt b.payload 0 ≤ 7 ∧ (resv b 1 3).2 = true ∧ ((s.live.zone
      (byteAt b.payload 0)).cfg.supervise = false ∨ s.live.muteLow (byteAt b.payload 0) = true)) ∧
    (∃ (m : MbRef) (b : Mailbox) (s : State), Waits s 0x3805 m b ∧ byteAt b.payload 0 ≤ 7 ∧ (resv b 1 3).2 = true ∧ (s.live.zone
      (byteAt b.payload 0)).cfg.supervise = true ∧ s.live.muteLow (byteAt b.payload 0) = false) ∧
    (∃ (m : MbRef) (b : Mailbox) (s : State), Waits s 0x3806 m b) :=
  ⟨⟨(.host 0), (box 0x3801 ([7, 7, 127, 127, 50] ++ le 2 5000 ++ [0])), (asks 0x3801 ([7, 7, 127, 127, 50] ++ le 2 5000 ++ [0])),
    by decide +kernel⟩,
   ⟨(.host 0), (box 0x3802 ([0x80, 2] ++ le 2 7 ++ [7, 3, 0, 0] ++ le 8 0)), (asks 0x3802 ([0x80, 2] ++ le 2 7 ++ [7, 3, 0, 0] ++
     le 8 0) (fun l => l.setPwr fun p => { p with mode := .drain })), by decide +kernel⟩,
   ⟨(.host 0), (box 0x3802 ([0x80, 0] ++ le 2 5 ++ [7, 3, 0, 0] ++ le 8 0)),
     { (asks 0x3802 ([0x80, 0] ++ le 2 5 ++ [7, 3, 0, 0] ++ le 8 0) (fun l => { l with audio := { l.audio with bad := [5] } })) with kept := { on.kept with flash := [(0xC00000, 5), (0xC00001, 0)] } },
     by decide +kernel⟩,
   ⟨(.host 0), (box 0x3802 ([0x80, 0] ++ le 2 5 ++ [7, 3, 0, 0] ++ le 8 0)),
     { (asks 0x3802 ([0x80, 0] ++ le 2 5 ++ [7, 3, 0, 0] ++ le 8 0)) with kept := { on.kept with flash := [(0xC00000, 5), (0xC00001, 0)] } },
     7, by decide +kernel⟩,
   ⟨(.host 0), (box 0x3803 [0x80, 1, 0, 0]), (asks 0x3803 [0x80, 1, 0, 0]), 7, by decide +kernel⟩,
   ⟨(.host 0), (box 0x3804 [7, 255, 0, 0]), (asks 0x3804 [7, 255, 0, 0]), by decide +kernel⟩,
   ⟨(.host 0), (box 0x3804 [7, 7, 0, 0]), (asks 0x3804 [7, 7, 0, 0] (fun l => l.setLink fun k => { k with cascaded := true })),
     by decide +kernel⟩,
   ⟨(.host 0), (box 0x3805 [7, 0, 0, 0]), (asks 0x3805 [7, 0, 0, 0]), by decide +kernel⟩,
   ⟨(.host 0), (box 0x3805 [7, 0, 0, 0]), (asks 0x3805 [7, 0, 0, 0] (fun l =>
     { l with audio := { l.audio with zones := l.audio.zones.map fun z => { z with cfg := { z.cfg with supervise := true } } } })),
     by decide +kernel⟩,
   ⟨(.host 0), (box 0x3806 []), (asks 0x3806 []), by decide +kernel⟩⟩

theorem witness_CanBus :
    (∃ (n : Nat) (f : CanFrame) (s : State), n < s.live.can.chans.length ∧ n ≤ 3 ∧ s.live.sup.phase = .running ∧ (s.live.chan
      n).listens = true ∧ f.echo = none ∧ f.res = false ∧ (keyFdf f.key = true → (s.live.chan n).cfg.fd = true)) ∧
    (∃ (n : Nat) (e : List Byte) (r : List (List Byte)) (s : State),
      n < s.live.can.chans.length ∧
      n ≤ 3 ∧
      s.live.sup.phase = .running ∧
      (s.live.chan n).ring = e :: r ∧
      (s.live.chan n).tail < 256 ∧
      let c := s.live.chan n
      c.locked = true ∧
      c.filtered = false) ∧
    (∃ (x : FilterBuild) (xs : List FilterBuild) (s : State), s.live.sup.phase = .running ∧ s.live.can.builds = x :: xs) ∧
    (∃ (n k dl : Nat) (b : TxBuf) (s : State), s.live.sup.phase = .running ∧ s.live.txBuf n k = some b ∧ b.deadline = some dl ∧ dl
      ≤ s.live.mt.now) ∧
    (∃ (n : Nat) (s : State), n ≤ 3 ∧ s.live.sup.phase = .running ∧ (s.live.chan n).mode ≠ 0) ∧
    (∃ (n : Nat) (s : State), s.live.sup.phase = .running ∧ (s.live.chan n).errState = 3 ∧ (s.live.chan n).cfg.autoRecover = true
      ∧ (s.live.chan n).busoffAt + ms (s.live.chan n).cfg.busoffHold ≤ s.live.mt.now) ∧
    (∃ (n forNs : Nat) (dom : Bool) (s : State), n ≤ 3 ∧ s.live.sup.phase = .running ∧ (s.live.chan n).mode ≠ 0 ∧ (if dom then ms
      10 else ms 1) ≤ forNs) ∧
    (∃ (n : Nat) (e : List Byte) (r : List (List Byte)) (s : State),
      n < s.live.can.chans.length ∧ n ≤ 3 ∧ s.live.sup.phase = StartPhase.running ∧ (s.live.chan n).ring = e :: r ∧ (s.live.chan
      n).tail < 256) ∧
    (∃ (n : Nat) (e : List Byte) (r : List (List Byte)) (s : State),
      n < s.live.can.chans.length ∧ n ≤ 3 ∧ s.live.sup.phase = StartPhase.running ∧ (s.live.chan n).ring = e :: r ∧ (s.live.chan
      n).tail < 256 ∧ (s.live.chan n).locked = true) ∧
    (∃ (n k tag : Nat) (b : TxBuf) (s : State),
      s.live.sup.phase = StartPhase.running ∧ s.live.txBuf n k = some b ∧ b.owner = TxOwner.send tag ∧ (s.live.chan n).sends =
      true ∧ (s.live.chan n).mayRun k = true) :=
  ⟨⟨3, { frame3 with ch := 3 }, (onWith fun l => l.setChan 3 fun c => { c with mode := 4 }), by decide +kernel⟩,
   ⟨3, (zs 80), [], (onWith fun l => l.setChan 3 fun c => { c with ring := [zs 80], locked := true }), by decide +kernel⟩,
   ⟨{ rules := [(0, zs 16)], owner := .host 0, persist := [] }, [], (onWith fun l => l.setCan fun c =>
     { c with builds := [{ rules := [(0, zs 16)], owner := .host 0, persist := [] }] }), by decide +kernel⟩,
   ⟨3, 2, 0, txBuf0, (onWith fun l => l.setChan 3 fun c => { c with mode := 1, tx := [none, none, some txBuf0] }),
     by decide +kernel⟩,
   ⟨3, (onWith fun l => l.setChan 3 fun c => { c with mode := 1 }), by decide +kernel⟩,
   ⟨3, (onWith fun l => l.setChan 3 fun c => { c with errState := 3 }), by decide +kernel⟩,
   ⟨3, ms 10, true, (onWith fun l => l.setChan 3 fun c => { c with mode := 1 }), by decide +kernel⟩,
   ⟨3, (zs 80), [], (onWith fun l => l.setChan 3 fun c => { c with ring := [zs 80] }), by decide +kernel⟩,
   ⟨3, (zs 80), [], (onWith fun l => l.setChan 3 fun c => { c with ring := [zs 80], locked := true }), by decide +kernel⟩,
   ⟨3, 2, 7, txBuf0,
     (onWith fun l => l.setChan 3 fun c => { c with mode := 1, tx := [none, none, some txBuf0], cur := some 2 }),
     by decide +kernel⟩⟩

theorem witness_CanBus_2 :
    ∃ (n k dl : Nat) (b : TxBuf) (s : State),
      s.live.sup.phase = StartPhase.running ∧ s.live.txBuf n k = some b ∧ b.deadline = some dl ∧ dl ≤ s.live.mt.now ∧
      (s.live.chan n).mayRun k = true :=
  ⟨3, 2, 0, txBuf0,
     (onWith fun l => l.setChan 3 fun c => { c with mode := 1, tx := [none, none, some txBuf0], cur := some 2 }),
     by decide +kernel⟩

theorem witness_CanTimeAndSpeed :
    (∃ (f : CanFrame) (t0 : TimeSource) (s : State), s.live.sup.phase = .running ∧ s.live.can.source = some t0 ∧ t0.ch = f.ch ∧
      f.key = t0.refId ∧ f.dlc = 8 ∧ (s.live.chan f.ch).listens = true) ∧
    (∃ (f : CanFrame) (v : SpeedSignal) (s : State), s.live.sup.phase = .running ∧ s.live.can.speed = some v ∧ v.ch = f.ch ∧ v.key
      = f.key ∧ (s.live.chan f.ch).listens = true) ∧
    (∃ (v : SpeedSignal) (s : State), s.live.sup.phase = .running ∧ s.live.can.speed = some v) ∧
    (∃ (m : MbRef) (b : Mailbox) (s : State),
      Waits s 0x4007 m b ∧
      let p := b.payload
      let role := byteAt p 0
      let ch := byteAt p 1
      let heldM := s.live.can.master.any fun t => t.ch == ch
      let heldS := s.live.can.source.any fun t => t.ch == ch
      role ≤ 2 ∧
      ch ≤ 3 ∧
      inRange 10 500 (rd p 2 2) = true ∧
      keyRtr (rd p 4 4) = false ∧
      keyFdf (rd p 4 4) = false ∧
      (keyIde (rd p 4 4) = true ∨ rd p 4 4 % 2 ^ 18 = 0) ∧
      -1000 ≤ rdInt p 8 2 ∧
      rdInt p 8 2 ≤ 1000 ∧
      byteAt p 10 < 2 ∧
      byteAt p 11 = 0 ∧
      role ≠ 0 ∧
      (heldM = true ∨ heldS = true)) ∧
    (∃ (m : MbRef) (b : Mailbox) (s : State),
      Waits s 0x4007 m b ∧
      let p := b.payload
      let role := byteAt p 0
      let ch := byteAt p 1
      role ≤ 2 ∧
      ch ≤ 3 ∧
      inRange 10 500 (rd p 2 2) = true ∧
      keyRtr (rd p 4 4) = false ∧
      keyFdf (rd p 4 4) = false ∧
      (keyIde (rd p 4 4) = true ∨ rd p 4 4 % 2 ^ 18 = 0) ∧
      -1000 ≤ rdInt p 8 2 ∧
      rdInt p 8 2 ≤ 1000 ∧
      byteAt p 10 < 2 ∧
      byteAt p 11 = 0 ∧
      role = 1 ∧
      s.live.can.master.isSome = true) ∧
    (∃ (m : MbRef) (b : Mailbox) (s : State),
      Waits s 0x4007 m b ∧
      let p := b.payload
      let role := byteAt p 0
      let ch := byteAt p 1
      role ≤ 2 ∧
      ch ≤ 3 ∧
      inRange 10 500 (rd p 2 2) = true ∧
      keyRtr (rd p 4 4) = false ∧
      keyFdf (rd p 4 4) = false ∧
      (keyIde (rd p 4 4) = true ∨ rd p 4 4 % 2 ^ 18 = 0) ∧
      -1000 ≤ rdInt p 8 2 ∧
      rdInt p 8 2 ≤ 1000 ∧
      byteAt p 10 < 2 ∧
      byteAt p 11 = 0 ∧
      role = 2 ∧
      s.live.can.source.isSome = true) ∧
    (∃ (m : MbRef) (b : Mailbox) (s : State),
      Waits s 0x4007 m b ∧
      let p := b.payload
      let role := byteAt p 0
      let ch := byteAt p 1
      let heldM := s.live.can.master.any fun t => t.ch == ch
      let heldS := s.live.can.source.any fun t => t.ch == ch
      role ≤ 2 ∧
      ch ≤ 3 ∧
      inRange 10 500 (rd p 2 2) = true ∧
      keyRtr (rd p 4 4) = false ∧
      keyFdf (rd p 4 4) = false ∧
      (keyIde (rd p 4 4) = true ∨ rd p 4 4 % 2 ^ 18 = 0) ∧
      -1000 ≤ rdInt p 8 2 ∧
      rdInt p 8 2 ≤ 1000 ∧
      byteAt p 10 < 2 ∧
      byteAt p 11 = 0 ∧
      (role = 0 ∨ (role = 1 ∧ s.live.can.master = none ∧ heldS = false ∧
      ((s.live.txBuf ch 0).isSome = true → s.live.txb0Reserved ch = true)) ∨
      (role = 2 ∧ s.live.can.source = none ∧ heldM = false))) ∧
    (∃ (m : MbRef) (b : Mailbox) (s : State),
      Waits s 0x4009 m b ∧
      let p := b.payload
      (byteAt p 0 ≤ 3 ∨ byteAt p 0 = 0xFF) ∧
      byteAt p 1 ≤ 1 ∧
      inRange 1 16 (byteAt p 4) = true ∧
      byteAt p 5 < 2 ∧
      1 ≤ rd p 6 2 ∧
      inRange 20 5000 (rd p 12 2) = true ∧
      rd p 14 2 = 0 ∧
      rd p 2 2 + byteAt p 4 ≤ 512 ∧
      (byteAt p 1 = 1 → rd p 2 2 % 8 = 0 ∧ byteAt p 4 % 8 = 0)) ∧
    (∃ (t0 : TimeMaster) (s : State),
      s.live.sup.phase = StartPhase.running ∧ s.live.can.master = some t0 ∧ t0.period < s.live.mt.now / ms (max 1 t0.refMs) ∧
      (s.live.chan t0.ch).mode = 1 ∧ (s.live.chan t0.ch).errState < 3 ∧ 0 < (s.live.chan t0.ch).tx.length ∧ s.live.txBuf t0.ch 0
      = none ∧ t0.waits = false) :=
  ⟨⟨frame3, source0, (onWith fun l => (onBus l).setCan fun c => { c with source := some source0 }), by decide +kernel⟩,
   ⟨frame3, speed0, (onWith fun l => (onBus l).setCan fun c => { c with speed := some speed0 }), by decide +kernel⟩,
   ⟨speed0, (onWith fun l => l.setCan fun c => { c with speed := some speed0 }), by decide +kernel⟩,
   ⟨(.host 0), (box 0x4007 ([2, 0] ++ le 2 500 ++ le 4 (0x503 * 2 ^ 18) ++ leInt 2 1000 ++ [1, 0])), (asks 0x4007 ([2, 0] ++ le 2
     500 ++ le 4 (0x503 * 2 ^ 18) ++ leInt 2 1000 ++ [1, 0]) (fun l => l.setCan fun c => { c with master := some master0 })),
     by decide +kernel⟩,
   ⟨(.host 0), (box 0x4007 ([1, 3] ++ le 2 500 ++ le 4 (0x503 * 2 ^ 18) ++ leInt 2 (-1000) ++ [1, 0])), (asks 0x4007 ([1, 3] ++ le
     2 500 ++ le 4 (0x503 * 2 ^ 18) ++ leInt 2 (-1000) ++ [1, 0]) (fun l => l.setCan fun c => { c with master := some master0 })),
     by decide +kernel⟩,
   ⟨(.host 0), (box 0x4007 ([2, 3] ++ le 2 500 ++ le 4 (0x503 * 2 ^ 18) ++ leInt 2 1000 ++ [1, 0])), (asks 0x4007 ([2, 3] ++ le 2
     500 ++ le 4 (0x503 * 2 ^ 18) ++ leInt 2 1000 ++ [1, 0]) (fun l => l.setCan fun c => { c with source := some source0 })),
     by decide +kernel⟩,
   ⟨(.host 0), (box 0x4007 ([2, 3] ++ le 2 500 ++ le 4 (0x503 * 2 ^ 18) ++ leInt 2 1000 ++ [1, 0])), (asks 0x4007 ([2, 3] ++ le 2
     500 ++ le 4 (0x503 * 2 ^ 18) ++ leInt 2 1000 ++ [1, 0]) (fun l => l.setCan fun c => { c with master := some master0 })),
     by decide +kernel⟩,
   ⟨(.host 0), (box 0x4009 ([255, 1] ++ le 2 496 ++ [16, 1] ++ le 2 1 ++ le 4 0 ++ le 2 5000 ++ le 2 0)), (asks 0x4009 ([255, 1]
     ++ le 2 496 ++ [16, 1] ++ le 2 1 ++ le 4 0 ++ le 2 5000 ++ le 2 0)), by decide +kernel⟩,
   ⟨master0, (onWith fun l => (onBus l).setCan fun c => { c with master := some master0 }), by decide +kernel⟩⟩

theorem witness_CanCommands :
    (∃ (m : MbRef) (b : Mailbox) (s : State), Waits s 0x4001 m b ∧ firstBad (canCfgChecks b.payload) = none ∧ (s.live.chan (byteAt
      b.payload 0)).mode ≠ 0) ∧
    (∃ (m : MbRef) (b : Mailbox) (s : State), Waits s 0x4001 m b ∧ firstBad (canCfgChecks b.payload) = none ∧ (s.live.chan (byteAt
      b.payload 0)).mode = 0) ∧
    (∃ (m : MbRef) (b : Mailbox) (s : State), Waits s 0x4002 m b ∧ byteAt b.payload 0 ≤ 3 ∧ byteAt b.payload 1 ≤ 4 ∧ (resv b 2
      2).2 = true ∧ byteAt b.payload 0 < s.live.can.chans.length) ∧
    (∃ (m : MbRef) (b : Mailbox) (s : State),
      Waits s 0x4003 m b ∧
      let p := b.payload
      let n := byteAt p 0
      let t := byteAt p 1
      let key := rd p 2 4
      let len := if keyRtr key then 0 else dlcLen (keyFdf key) (byteAt p 6)
      n ≤ 3 ∧
      (t ≤ 2 ∨ t = 0xFF) ∧
      ¬ (keyRtr key = true ∧ keyFdf key = true) ∧
      (keyIde key = true ∨ key % 2 ^ 18 = 0) ∧
      (keyFdf key = true → (s.live.chan n).cfg.fd = true) ∧
      byteAt p 6 ≤ 15 ∧
      byteAt p 7 < 2 ∧
      (byteAt p 7 = 1 → keyFdf key = true ∧ (s.live.chan n).cfg.brs = true) ∧
      rd p 10 2 = 0 ∧
      b.len ≠ 12 + len) ∧
    (∃ (m : MbRef) (b : Mailbox) (s : State),
      Waits s 0x4003 m b ∧
      let p := b.payload
      let n := byteAt p 0
      let t := byteAt p 1
      let key := rd p 2 4
      let len := if keyRtr key then 0 else dlcLen (keyFdf key) (byteAt p 6)
      let free := (if s.live.txb0Reserved n then [1, 2] else [0, 1, 2]).filter fun k => (s.live.txBuf n k).isNone
      n ≤ 3 ∧
      (t ≤ 2 ∨ t = 0xFF) ∧
      ¬ (keyRtr key = true ∧ keyFdf key = true) ∧
      (keyIde key = true ∨ key % 2 ^ 18 = 0) ∧
      (keyFdf key = true → (s.live.chan n).cfg.fd = true) ∧
      byteAt p 6 ≤ 15 ∧
      byteAt p 7 < 2 ∧
      (byteAt p 7 = 1 → keyFdf key = true ∧ (s.live.chan n).cfg.brs = true) ∧
      rd p 10 2 = 0 ∧
      b.len = 12 + len ∧
      (s.live.chan n).mode ≠ 0 ∧
      (s.live.chan n).mode ≠ 2 ∧
      (t = 0 → s.live.txb0Reserved n = false) ∧
      t = 0xFF ∧
      free = []) ∧
    (∃ (m : MbRef) (b : Mailbox) (s : State),
      Waits s 0x4003 m b ∧
      let p := b.payload
      let n := byteAt p 0
      let t := byteAt p 1
      let key := rd p 2 4
      let len := if keyRtr key then 0 else dlcLen (keyFdf key) (byteAt p 6)
      let free := (if s.live.txb0Reserved n then [1, 2] else [0, 1, 2]).filter fun k => (s.live.txBuf n k).isNone
      n ≤ 3 ∧
      (t ≤ 2 ∨ t = 0xFF) ∧
      ¬ (keyRtr key = true ∧ keyFdf key = true) ∧
      (keyIde key = true ∨ key % 2 ^ 18 = 0) ∧
      (keyFdf key = true → (s.live.chan n).cfg.fd = true) ∧
      byteAt p 6 ≤ 15 ∧
      byteAt p 7 < 2 ∧
      (byteAt p 7 = 1 → keyFdf key = true ∧ (s.live.chan n).cfg.brs = true) ∧
      rd p 10 2 = 0 ∧
      b.len = 12 + len ∧
      (s.live.chan n).mode ≠ 0 ∧
      (s.live.chan n).mode ≠ 2 ∧
      (t = 0 → s.live.txb0Reserved n = false) ∧
      t ≠ 0xFF ∧
      t ∉ free) ∧
    (∃ (m : MbRef) (b : Mailbox) (s : State), Waits s 0x4005 m b ∧ inRange 1 6 (byteAt b.payload 0) = true ∧ fromF1 m = false) ∧
    (∃ (m : MbRef) (b : Mailbox) (s : State), Waits s 0x4005 m b ∧ inRange 1 6 (byteAt b.payload 0) = true ∧ fromF1 m = true) ∧
    (∃ (m : MbRef) (b : Mailbox) (s : State),
      Waits s 0x4006 m b ∧
      let p := b.payload
      let first := rd p 0 2
      let n := byteAt p 2
      let rule := fun i => (p.drop (4 + 16 * i)).take 16
      first ≤ 1023 ∧
      n ≤ 30 ∧
      first + n ≤ 1024 ∧
      byteAt p 3 < 8 ∧
      (∀ i, i < n → byteAt (rule i) 8 < 16 ∧ byteAt (rule i) 9 < 32 ∧ byteAt (rule i) 10 ≤ 63 ∧ byteAt (rule i) 11 = 0 ∧
      rd (rule i) 12 2 ≤ 60000 ∧ rd (rule i) 14 2 = 0) ∧
      bit (byteAt p 3) 0 = false ∧
      bit (byteAt p 3) 1 = false) ∧
    (∃ (m : MbRef) (b : Mailbox) (s : State),
      Waits s 0x4006 m b ∧
      let p := b.payload
      let first := rd p 0 2
      let n := byteAt p 2
      let rule := fun i => (p.drop (4 + 16 * i)).take 16
      first ≤ 1023 ∧
      n ≤ 30 ∧
      first + n ≤ 1024 ∧
      byteAt p 3 < 8 ∧
      (∀ i, i < n → byteAt (rule i) 8 < 16 ∧ byteAt (rule i) 9 < 32 ∧ byteAt (rule i) 10 ≤ 63 ∧ byteAt (rule i) 11 = 0 ∧
      rd (rule i) 12 2 ≤ 60000 ∧ rd (rule i) 14 2 = 0) ∧
      bit (byteAt p 3) 0 = true) :=
  ⟨⟨(.host 0), (box 0x4001 ([3, 127] ++ le 2 1 ++ le 2 127 ++ [32, 32, 1, 31, 8, 8, 127, 127, 1, 15] ++ le 2 10000 ++ [1, 0])),
    (asks 0x4001 ([3, 127] ++ le 2 1 ++ le 2 127 ++ [32, 32, 1, 31, 8, 8, 127, 127, 1, 15] ++ le 2 10000 ++ [1, 0]) (fun l =>
    l.setChan 3 fun c => { c with mode := 1 })), by decide +kernel⟩,
   ⟨(.host 0), (box 0x4001 ([3, 127] ++ le 2 1 ++ le 2 127 ++ [32, 32, 1, 31, 8, 8, 127, 127, 1, 15] ++ le 2 10000 ++ [1, 0])),
     (asks 0x4001 ([3, 127] ++ le 2 1 ++ le 2 127 ++ [32, 32, 1, 31, 8, 8, 127, 127, 1, 15] ++ le 2 10000 ++ [1, 0])),
     by decide +kernel⟩,
   ⟨(.host 0), (box 0x4002 [3, 4, 0, 0]), (asks 0x4002 [3, 4, 0, 0]), by decide +kernel⟩,
   ⟨(.host 0), (box 0x4003 ([3, 2] ++ le 4 0x40000000 ++ [15, 1] ++ le 2 0 ++ le 2 0 ++ zs 63)), (asks 0x4003 ([3, 2] ++ le 4
     0x40000000 ++ [15, 1] ++ le 2 0 ++ le 2 0 ++ zs 63)), by decide +kernel⟩,
   ⟨(.host 0), (box 0x4003 ([3, 255] ++ le 4 0x40000000 ++ [15, 1] ++ le 2 0 ++ le 2 0 ++ zs 64)), (asks 0x4003 ([3, 255] ++ le 4
     0x40000000 ++ [15, 1] ++ le 2 0 ++ le 2 0 ++ zs 64) (fun l => l.setChan 3 fun c =>
     { c with mode := 1, tx := [some txBuf0, some txBuf0, some txBuf0] })), by decide +kernel⟩,
   ⟨(.host 0), (box 0x4003 ([3, 2] ++ le 4 0x40000000 ++ [15, 1] ++ le 2 0 ++ le 2 0 ++ zs 64)), (asks 0x4003 ([3, 2] ++ le 4
     0x40000000 ++ [15, 1] ++ le 2 0 ++ le 2 0 ++ zs 64) (fun l => l.setChan 3 fun c =>
     { c with mode := 1, tx := [some txBuf0, some txBuf0, some txBuf0] })), by decide +kernel⟩,
   ⟨(.host 0), (box 0x4005 [6, 0, 0, 0]), (asks 0x4005 [6, 0, 0, 0]), by decide +kernel⟩,
   ⟨(.loc 0), (box 0x4005 [6, 0, 0, 0]), (on.onLive fun l =>
     { l with host := { l.host with lmb := box 0x4005 [6, 0, 0, 0] :: List.replicate 7 Mailbox.empty } }), by decide +kernel⟩,
   ⟨(.host 0), (box 0x4006 (le 2 1023 ++ [1, 0] ++ zs 8 ++ [15, 31, 63, 0] ++ le 2 60000 ++ le 2 0)), (asks 0x4006 (le 2 1023 ++
     [1, 0] ++ zs 8 ++ [15, 31, 63, 0] ++ le 2 60000 ++ le 2 0)), by decide +kernel⟩,
   ⟨(.host 0), (box 0x4006 (le 2 1023 ++ [1, 1] ++ zs 8 ++ [15, 31, 63, 0] ++ le 2 60000 ++ le 2 0)), (asks 0x4006 (le 2 1023 ++
     [1, 1] ++ zs 8 ++ [15, 31, 63, 0] ++ le 2 60000 ++ le 2 0)), by decide +kernel⟩⟩

theorem witness_CanCommands_2 :
    (∃ (m : MbRef) (b : Mailbox) (s : State), Waits s 0x4008 m b ∧ byteAt b.payload 0 ≤ 3) ∧
    (∃ (m : MbRef) (b : Mailbox) (s : State),
      Waits s 16387 m b ∧
      let p := b.payload
      let k := byteAt p 0
      let a := byteAt p 1
      k ≤ 3 ∧ (a ≤ 2 ∨ a = 255) ∧ ¬(keyRtr (rd p 2 4) = true ∧ keyFdf (rd p 2 4) = true) ∧ (keyIde (rd p 2 4) = true ∨ rd p 2 4
      % 2 ^ 18 = 0) ∧ (keyFdf (rd p 2 4) = true → (s.live.chan k).cfg.fd = true) ∧ byteAt p 6 ≤ 15 ∧ byteAt p 7 < 2 ∧ (byteAt p
      7 = 1 → keyFdf (rd p 2 4) = true ∧ (s.live.chan k).cfg.brs = true) ∧ rd p 10 2 = 0 ∧ (b.len = 12 + if keyRtr (rd p 2 4) =
      true then 0 else dlcLen (keyFdf (rd p 2 4)) (byteAt p 6)) ∧ ((s.live.chan k).mode = 0 ∨ (s.live.chan k).mode = 2 ∨ a = 0 ∧
      s.live.txb0Reserved k = true)) ∧
    (∃ (m : MbRef) (b : Mailbox) (s : State) (k : Nat),
      Waits s 16387 m b ∧
      let p := b.payload
      let a := byteAt p 1
      byteAt p 0 ≤ 3 ∧ (a ≤ 2 ∨ a = 255) ∧ ¬(keyRtr (rd p 2 4) = true ∧ keyFdf (rd p 2 4) = true) ∧ (keyIde (rd p 2 4) = true ∨
      rd p 2 4 % 2 ^ 18 = 0) ∧ (keyFdf (rd p 2 4) = true → (s.live.chan (byteAt p 0)).cfg.fd = true) ∧ byteAt p 6 ≤ 15 ∧ byteAt
      p 7 < 2 ∧ (byteAt p 7 = 1 → keyFdf (rd p 2 4) = true ∧ (s.live.chan (byteAt p 0)).cfg.brs = true) ∧ rd p 10 2 = 0 ∧ (b.len
      = 12 + if keyRtr (rd p 2 4) = true then 0 else dlcLen (keyFdf (rd p 2 4)) (byteAt p 6)) ∧ (s.live.chan (byteAt p 0)).mode
      ≠ 0 ∧ (s.live.chan (byteAt p 0)).mode ≠ 2 ∧ (a = 0 → s.live.txb0Reserved (byteAt p 0) = false) ∧ (a = 255 ∧ (List.filter
      (fun k => (s.live.txBuf (byteAt p 0) k).isNone) (if s.live.txb0Reserved (byteAt p 0) = true then [1, 2] else [0, 1,
      2])).head? = some k ∨ a = k ∧ k ∈ List.filter (fun k => (s.live.txBuf (byteAt p 0) k).isNone) (if s.live.txb0Reserved
      (byteAt p 0) = true then [1, 2] else [0, 1, 2]))) ∧
    (∃ (m : MbRef) (b : Mailbox) (s : State) (k tag : Nat) (x : TxBuf) (underway : Nat),
      Waits s 16388 m b ∧
      let p := b.payload
      byteAt p 0 ≤ 3 ∧ byteAt p 1 = 2 ^ k ∧ k < 3 ∧ s.live.txBuf (byteAt p 0) k = some x ∧ x.owner = TxOwner.send tag ∧ (bit
      underway k = false ∨ (s.live.chan (byteAt p 0)).mayRun k = false)) ∧
    (∃ (m : MbRef) (b : Mailbox) (s : State) (k tag : Nat) (x : TxBuf) (underway : Nat),
      Waits s 16388 m b ∧
      let p := b.payload
      byteAt p 0 ≤ 3 ∧ byteAt p 1 = 2 ^ k ∧ k < 3 ∧ s.live.txBuf (byteAt p 0) k = some x ∧ x.owner = TxOwner.send tag ∧ bit
      underway k = true ∧ (s.live.chan (byteAt p 0)).mayRun k = true) :=
  ⟨⟨(.host 0), (box 0x4008 [3, 0, 0, 0]), (asks 0x4008 [3, 0, 0, 0]), by decide +kernel⟩,
   ⟨(.host 0), (box 0x4003 ([3, 255] ++ le 4 0x40000000 ++ [15, 1] ++ le 2 0 ++ le 2 0 ++ zs 64)),
     (asks 0x4003 ([3, 255] ++ le 4 0x40000000 ++ [15, 1] ++ le 2 0 ++ le 2 0 ++ zs 64)), by decide +kernel⟩,
   ⟨(.host 0), (box 0x4003 ([3, 2] ++ le 4 0x40000000 ++ [15, 1] ++ le 2 0 ++ le 2 0 ++ zs 64)),
     (asks 0x4003 ([3, 2] ++ le 4 0x40000000 ++ [15, 1] ++ le 2 0 ++ le 2 0 ++ zs 64) (fun l => l.setChan 3 fun c => { c with mode := 1 })),
     2, by decide +kernel⟩,
   ⟨(.host 0), (box 0x4004 [3, 4, 0, 0]),
     (asks 0x4004 [3, 4, 0, 0] (fun l => l.setChan 3 fun c => { c with mode := 1, tx := [some txBuf0, some txBuf0, some txBuf0], cur := some 1 })),
     2, 7, txBuf0, 4, by decide +kernel⟩,
   ⟨(.host 0), (box 0x4004 [3, 4, 0, 0]),
     (asks 0x4004 [3, 4, 0, 0] (fun l => l.setChan 3 fun c => { c with mode := 1, tx := [some txBuf0, some txBuf0, some txBuf0], cur := some 2 })),
     2, 7, txBuf0, 4, by decide +kernel⟩⟩

theorem witness_SleepRing :
    (∃ (node t0 : Nat) (x : NmNode) (s : State), s.live.sup.phase = .running ∧ s.live.nm.nodes.find? (fun y => y.id == node) =
      some x ∧ x.since = some t0 ∧ (∀ k ∈ s.live.nm.keepers, k.node = node → k.closed ≠ none) ∧ s.live.consents = true ∧ t0 + ms
      (1000 * s.live.nm.cfg.keeperS) ≤ s.live.mt.now) ∧
    (∃ (at_ : Nat) (s : State), s.live.sup.phase = .running ∧ s.live.nm.sendAt = some at_ ∧ at_ ≤ s.live.mt.now ∧ s.live.pwr.mode
      = .run ∧ s.live.nmSilent = false ∧ s.live.nm.cfg.on = true ∧ 0 < (s.live.chan s.live.nm.cfg.ch).tx.length ∧ s.live.txBuf
      s.live.nm.cfg.ch 0 = none) ∧
    (∃ (s : State), s.live.sup.phase = .running ∧ s.live.nm.lastRing + 3 * ms s.live.nm.cfg.ringMax ≤ s.live.mt.now ∧
      s.live.nm.cfg.on = true ∧ s.live.nmSilent = false ∧ s.live.pwr.mode = .run) ∧
    (∃ (s : State), s.live.sup.phase = .running ∧ s.live.nm.byRing = true ∧ s.live.nm.commitAt ≤ s.live.mt.now) ∧
    (∃ (f : CanFrame) (node : Nat) (s : State), s.live.ringSender f = some node ∧ (s.live.chan f.ch).listens = true ∧
      s.live.pwr.mode = .wakeCheck) ∧
    (∃ (f : CanFrame) (node : Nat) (s : State), s.live.ringSender f = some node ∧ (s.live.chan f.ch).listens = true ∧
      s.live.pwr.mode = .run ∧ s.live.sup.phase = .running ∧ node = s.live.nm.cfg.node) ∧
    (∃ (f : CanFrame) (node : Nat) (s : State), s.live.ringSender f = some node ∧ (s.live.chan f.ch).listens = true ∧
      s.live.pwr.mode = .run ∧ s.live.sup.phase = .running ∧ node ≠ s.live.nm.cfg.node ∧ byteAt f.data 1 = 1) ∧
    (∃ (m : MbRef) (b : Mailbox) (s : State),
      Waits s 0x4401 m b ∧
      let p := b.payload
      (byteAt p 0 ≤ 3 ∨ byteAt p 0 = 0xFF) ∧
      byteAt p 1 ≤ 63 ∧
      byteAt p 2 < 2 ∧
      rd p 4 2 ≤ 0x7C0 ∧
      rd p 4 2 % 64 = 0 ∧
      inRange 20 1000 (rd p 6 2) = true ∧
      inRange 50 5000 (rd p 8 2) = true ∧
      2 * rd p 6 2 ≤ rd p 8 2 ∧
      inRange 100 10000 (rd p 10 2) = true ∧
      10 ≤ rd p 12 2 ∧
      (resv b 14 2).2 = true ∧
      byteAt p 16 % 128 ≠ 0 ∧
      byteAt p 17 < 16 ∧
      (s.live.nm.st = .indicating ∨ s.live.nm.st = .commit)) ∧
    (∃ (m : MbRef) (b : Mailbox) (s : State),
      Waits s 0x4401 m b ∧
      let p := b.payload
      (byteAt p 0 ≤ 3 ∨ byteAt p 0 = 0xFF) ∧
      byteAt p 1 ≤ 63 ∧
      byteAt p 2 < 2 ∧
      rd p 4 2 ≤ 0x7C0 ∧
      rd p 4 2 % 64 = 0 ∧
      inRange 20 1000 (rd p 6 2) = true ∧
      inRange 50 5000 (rd p 8 2) = true ∧
      2 * rd p 6 2 ≤ rd p 8 2 ∧
      inRange 100 10000 (rd p 10 2) = true ∧
      10 ≤ rd p 12 2 ∧
      (resv b 14 2).2 = true ∧
      byteAt p 16 % 128 ≠ 0 ∧
      byteAt p 17 < 16 ∧
      s.live.nm.st ≠ .indicating ∧
      s.live.nm.st ≠ .commit) ∧
    (∃ (m : MbRef) (b : Mailbox) (s : State), Waits s 0x4403 m b) :=
  ⟨⟨3, 0, { id := 3, consent := false, reason := 5, since := some 0, away := 0 }, (onWith fun l => l.setNm fun n =>
    { n with nodes := [{ id := 3, consent := false, reason := 5, since := some 0, away := 0 }], consent := true }), by decide +kernel⟩,
   ⟨0, (onWith fun l => (onRing l).setNm fun n => { n with sendAt := some 0 }), by decide +kernel⟩,
   ⟨(onWith fun l => onRing l), by decide +kernel⟩,
   ⟨(onWith fun l => l.setNm fun n => { n with byRing := true }), by decide +kernel⟩,
   ⟨frame3, 3, (onWith fun l => (onRing l).setMode .wakeCheck), by decide +kernel⟩,
   ⟨frame3, 3, (onWith fun l => (onRing l).setNm fun n => { n with cfg := { n.cfg with node := 3 } }), by decide +kernel⟩,
   ⟨frame3, 3, (onWith fun l => onRing l), by decide +kernel⟩,
   ⟨(.host 0), (box 0x4401 ([255, 63, 1, 0] ++ le 2 0x7C0 ++ le 2 1000 ++ le 2 2000 ++ le 2 10000 ++ le 2 10 ++ [0, 0] ++ [0xFF,
     15] ++ le 2 0 ++ le 4 0)), (asks 0x4401 ([255, 63, 1, 0] ++ le 2 0x7C0 ++ le 2 1000 ++ le 2 2000 ++ le 2 10000 ++ le 2 10 ++
     [0, 0] ++ [0xFF, 15] ++ le 2 0 ++ le 4 0) (fun l => l.setNm fun n => { n with st := .commit })), by decide +kernel⟩,
   ⟨(.host 0), (box 0x4401 ([255, 63, 1, 0] ++ le 2 0x7C0 ++ le 2 1000 ++ le 2 2000 ++ le 2 10000 ++ le 2 10 ++ [0, 0] ++ [0xFF,
     15] ++ le 2 0 ++ le 4 0)), (asks 0x4401 ([255, 63, 1, 0] ++ le 2 0x7C0 ++ le 2 1000 ++ le 2 2000 ++ le 2 10000 ++ le 2 10 ++
     [0, 0] ++ [0xFF, 15] ++ le 2 0 ++ le 4 0)), by decide +kernel⟩,
   ⟨(.host 0), (box 0x4403 []), (asks 0x4403 []), by decide +kernel⟩⟩

theorem witness_SleepRing_2 :
    (∃ (m : MbRef) (b : Mailbox) (s : State), Waits s 0x4404 m b ∧ byteAt b.payload 0 < 2) ∧
    (∃ (m : MbRef) (b : Mailbox) (s : State), Waits s 0x4405 m b ∧ byteAt b.payload 0 = 0) ∧
    (∃ (m : MbRef) (b : Mailbox) (s : State), Waits s 0x4405 m b ∧ byteAt b.payload 0 = 1) ∧
    (∃ (d : Nat) (s : State),
      s.live.sup.phase = StartPhase.running ∧ s.live.nm.waitFor = some d ∧ s.live.nm.sentAt + ms s.live.nm.cfg.ringMax ≤
      s.live.mt.now ∧ s.live.pwr.mode = Mode.run ∧ s.live.nmSilent = false ∧ s.live.txBuf s.live.nm.cfg.ch 0 = none) ∧
    (∃ (f : CanFrame) (node : Nat) (s : State),
      s.live.ringSender f = some node ∧ (s.live.chan f.ch).listens = true ∧ s.live.pwr.mode = Mode.run ∧ s.live.sup.phase =
      StartPhase.running ∧ node ≠ s.live.nm.cfg.node) ∧
    (∃ (m : MbRef) (b : Mailbox) (s : State),
      Waits s 17410 m b ∧
      let p := b.payload
      let a := byteAt p 1
      (byteAt p 0 = 1 ∧ a = 0 ∨ byteAt p 0 = 0 ∧ 1 ≤ a ∧ a ≤ 239) ∧ (resv b 2 2).2 = true ∧ s.live.nm.st = NmPhase.off) ∧
    (∃ (m : MbRef) (b : Mailbox) (s : State),
      Waits s 17410 m b ∧
      let p := b.payload
      let a := byteAt p 1
      (byteAt p 0 = 1 ∧ a = 0 ∨ byteAt p 0 = 0 ∧ 1 ≤ a ∧ a ≤ 239) ∧ (resv b 2 2).2 = true ∧ s.live.nm.st ≠ NmPhase.off) :=
  ⟨⟨(.host 0), (box 0x4404 [1, 0, 0, 0]), (asks 0x4404 [1, 0, 0, 0]), by decide +kernel⟩,
   ⟨(.host 0), (box 0x4405 (zs 4)), (asks 0x4405 (zs 4)), by decide +kernel⟩,
   ⟨(.host 0), (box 0x4405 [1, 0, 0, 0]), (asks 0x4405 [1, 0, 0, 0]), by decide +kernel⟩,
   ⟨3, (onWith fun l => (onRing l).setNm fun n => { n with waitFor := some 3 }), by decide +kernel⟩,
   ⟨frame3, 3, (onWith fun l => onRing l), by decide +kernel⟩,
   ⟨(.host 0), (box 0x4402 [0, 239, 0, 0]), (asks 0x4402 [0, 239, 0, 0]), by decide +kernel⟩,
   ⟨(.host 0), (box 0x4402 [1, 0, 0, 0]), (asks 0x4402 [1, 0, 0, 0] (fun l => l.setNm fun n => { n with st := .awake })),
     by decide +kernel⟩⟩

theorem witness_LinkCyclesAndStrikes :
    (∃ (d : Sync) (s : State),
      let p := d.port % 2
      let bs := d.bytes
      let good := bs.length = cycleLen ∧ rd bs 62 2 = (crc16 ((bs.drop 1).take 61)).toNat
      good ∧
      s.live.linkRuns = true ∧
      p < s.live.link.ports.length ∧
      byteAt bs 1 = 1) ∧
    (∃ (d : Sync) (s : State),
      let bs := d.bytes
      let good := bs.length = cycleLen ∧ rd bs 62 2 = (crc16 ((bs.drop 1).take 61)).toNat
      good ∧
      s.live.linkRuns = true ∧
      byteAt bs 1 = 2) ∧
    (∃ (d : Sync) (s : State),
      let bs := d.bytes
      let good := bs.length = cycleLen ∧ rd bs 62 2 = (crc16 ((bs.drop 1).take 61)).toNat
      good ∧
      s.live.linkRuns = true ∧
      byteAt bs 1 = 3) ∧
    (∃ (d : Sync) (s : State),
      let p := d.port % 2
      let bs := d.bytes
      let good := bs.length = cycleLen ∧ rd bs 62 2 = (crc16 ((bs.drop 1).take 61)).toNat
      good ∧
      s.live.linkRuns = true ∧
      byteAt bs 1 = 0 ∧
      p = s.live.primaryPort ∧
      s.live.acting = false) ∧
    (∃ (d : Sync) (s : State),
      let p := d.port % 2
      let bs := d.bytes
      let good := bs.length = cycleLen ∧ rd bs 62 2 = (crc16 ((bs.drop 1).take 61)).toNat
      good ∧
      s.live.linkRuns = true ∧
      byteAt bs 1 = 0 ∧
      p = s.live.primaryPort ∧
      s.live.acting = true ∧
      byteAt bs 2 = s.live.link.position) ∧
    (∃ (s : State), s.live.sup.phase = .running ∧ s.live.link.st = .forming ∧ s.live.link.master = s.live.link.position) ∧
    (∃ (ms_ : List Member) (s : State) (x : RosterEntry), s.live.sup.phase = .running ∧ s.live.acting = false ∧
      s.live.link.cascaded = true ∧ (s.live.link.ringAuth = true → s.live.link.authOk = true) ∧ (ms_.map s.live.rosterEntry).find?
      (fun r => r.serial == Config.serial) = some x) ∧
    (∃ (a : StrikeAnn) (s : State), s.live.link.strike = some a ∧ a.target * cycleNs ≤ s.live.mt.now ∧ s.live.commandLayer = true) ∧
    (∃ (x : Nat) (s : State), s.live.sup.phase = .running ∧ s.live.link.strikeLow = some x ∧ x + us 2 ≤ s.live.mt.now) ∧
    (∃ (s : State), s.live.sup.phase = .running) :=
  ⟨⟨{ port := 1, bytes := cycleOf 1 0 }, on, by decide +kernel⟩,
   ⟨{ port := 1, bytes := cycleOf 2 0 }, on, by decide +kernel⟩,
   ⟨{ port := 1, bytes := cycleOf 3 0 }, on, by decide +kernel⟩,
   ⟨{ port := 0, bytes := cycleOf 0 0 }, on, by decide +kernel⟩,
   ⟨{ port := 0, bytes := cycleOf 0 0 }, (onWith fun l => onLink (fun k => { k with st := .master }) l), by decide +kernel⟩,
   ⟨(onWith fun l => l.setLink fun k => { k with st := .forming }), by decide +kernel⟩,
   ⟨[{ pos := 5, serial := Config.serial, role := 0, hopNs := 0 }], (onWith fun l => l.setLink fun k =>
     { k with st := .forming, cascaded := true, master := 1 }),
     { pos := 5, serial := Config.serial, role := 0, hopNs := 0, alive := true, auth := false }, by decide +kernel,
     by decide +kernel, by decide +kernel, by decide +kernel, by simp [Live.rosterEntry, onWith, on, State.onLive, Live.setLink,
     State.reset, Live.init, LinkState.init]⟩,
   ⟨{ target := 8, seq := 7 }, (onWith fun l => onLink (fun k => { k with strike := some { target := 8, seq := 7 } }) l),
     by decide +kernel⟩,
   ⟨0, (onWith fun l => l.setLink fun k => { k with strikeLow := some 0 }), by decide +kernel⟩,
   ⟨on, by decide +kernel⟩⟩

theorem witness_LinkCyclesAndStrikes_2 :
    (∃ (r : StrikeReq) (s : State), s.live.sup.phase = .running ∧ s.live.link.strikeReq = some r ∧ s.live.acting = true ∧
      s.live.link.strike = none) ∧
    (∃ (m : MbRef) (b : Mailbox) (s : State), Waits s 0x4803 m b ∧ (rd b.payload 0 2 = 0 ∨ inRange 4 8000 (rd b.payload 0 2) =
      true) ∧ (resv b 2 2).2 = true ∧ (s.live.link.cascaded = false ∨ s.live.acting = true) ∧ (s.live.link.strike ≠ none ∨
      s.live.link.strikeReq ≠ none)) ∧
    (∃ (m : MbRef) (b : Mailbox) (s : State), Waits s 0x4803 m b ∧ (rd b.payload 0 2 = 0 ∨ inRange 4 8000 (rd b.payload 0 2) =
      true) ∧ (resv b 2 2).2 = true ∧ s.live.link.cascaded = true ∧ s.live.acting = true ∧ s.live.link.strike = none ∧
      s.live.link.strikeReq = none) ∧
    (∃ (m : MbRef) (b : Mailbox) (s : State), Waits s 0x4803 m b ∧ (rd b.payload 0 2 = 0 ∨ inRange 4 8000 (rd b.payload 0 2) =
      true) ∧ (resv b 2 2).2 = true ∧ s.live.link.cascaded = false ∧ s.live.link.strike = none ∧ s.live.link.strikeReq = none) ∧
    (∃ (m : MbRef) (b : Mailbox) (s : State), Waits s 0x4801 m b ∧ byteAt b.payload 0 < 8 ∧ byteAt b.payload 1 ≤ 63 ∧ inRange 4
      800 (rd b.payload 2 2) = true ∧ inRange 1 3600 (rd b.payload 4 2) = true ∧ (resv b 6 2).2 = true) ∧
    (∃ (m : MbRef) (b : Mailbox) (s : State), Waits s 0x4802 m b) ∧
    (∃ (m : MbRef) (b : Mailbox) (s : State), Waits s 0x4804 m b ∧ byteAt b.payload 0 ≤ 63) ∧
    (∃ (m : MbRef) (b : Mailbox) (s : State), Waits s 0x4805 m b ∧ (resv b 0 4).2 = true ∧ s.live.acting = false ∧
      s.live.link.strap ≠ 1) ∧
    (∃ (m : MbRef) (b : Mailbox) (s : State), Waits s 0x4805 m b ∧ (resv b 0 4).2 = true ∧ (s.live.acting = true ∨
      s.live.link.strap = 1)) ∧
    (∃ (m : MbRef) (b : Mailbox) (s : State), Waits s 0x4806 m b ∧ (resv b 0 4).2 = true) :=
  ⟨⟨{ target := 8000016, owner := .host 0 }, (onWith fun l => onLink (fun k =>
     { k with st := .master, strikeReq := some { target := 8000016, owner := .host 0 } }) l), by decide +kernel⟩,
   ⟨(.host 0), (box 0x4803 (le 2 8000 ++ [0, 0])), (asks 0x4803 (le 2 8000 ++ [0, 0]) (fun l => onLink (fun k =>
     { k with st := .master, strike := some { target := 8, seq := 7 } }) l)), by decide +kernel⟩,
   ⟨(.host 0), (box 0x4803 (le 2 8000 ++ [0, 0])), (asks 0x4803 (le 2 8000 ++ [0, 0]) (fun l => onLink (fun k =>
     { k with st := .master }) l)), by decide +kernel⟩,
   ⟨(.host 0), (box 0x4803 (le 2 8000 ++ [0, 0])), (asks 0x4803 (le 2 8000 ++ [0, 0])), by decide +kernel⟩,
   ⟨(.host 0), (box 0x4801 ([7, 63] ++ le 2 800 ++ le 2 3600 ++ [0, 0])), (asks 0x4801 ([7, 63] ++ le 2 800 ++ le 2 3600 ++ [0,
     0])), by decide +kernel⟩,
   ⟨(.host 0), (box 0x4802 []), (asks 0x4802 []), by decide +kernel⟩,
   ⟨(.host 0), (box 0x4804 [63]), (asks 0x4804 [63]), by decide +kernel⟩,
   ⟨(.host 0), (box 0x4805 (zs 4)), (asks 0x4805 (zs 4)), by decide +kernel⟩,
   ⟨(.host 0), (box 0x4805 (zs 4)), (asks 0x4805 (zs 4) (fun l => l.setLink fun k => { k with strap := 1 })), by decide +kernel⟩,
   ⟨(.host 0), (box 0x4806 (zs 4)), (asks 0x4806 (zs 4)), by decide +kernel⟩⟩

theorem witness_LinkCyclesAndStrikes_3 :
    (∃ (s : State),
      s.live.acting = true ∧ s.live.linkRuns = true ∧ s.live.listening = false ∧ s.live.link.cycle < s.live.cycleNo) ∧
    (∃ (d : Sync),
      ¬(d.bytes.length = cycleLen ∧ rd d.bytes 62 2 = (crc16 (List.take 61 (List.drop 1 d.bytes))).toNat)) ∧
    (∃ (port : Nat),
      port % 2 = 0) ∧
    (∃ (port : Nat),
      port % 2 = 1) ∧
    (∃ (m : MbRef) (b : Mailbox) (s : State),
      Waits s 18435 m b ∧
      let p := b.payload
      (rd p 0 2 = 0 ∨ inRange 4 8000 (rd p 0 2) = true) ∧ (resv b 2 2).2 = true ∧ s.live.link.cascaded = true ∧ s.live.acting =
      false ∧ s.live.pathOut 3 = false ∧ s.live.relayFits (16 + b.len) 24 s.live.link.master = true) :=
  ⟨⟨(onWith fun l => l.setLink fun k => { k with st := .master }), by decide +kernel⟩,
   ⟨{ port := 1, bytes := [] }, by decide +kernel⟩,
   ⟨0, by decide +kernel⟩,
   ⟨1, by decide +kernel⟩,
   ⟨(.host 0), (box 0x4803 (le 2 8000 ++ [0, 0])),
     (asks 0x4803 (le 2 8000 ++ [0, 0]) (fun l => onLink (fun k => { k with st := .member }) l)), by decide +kernel⟩⟩

theorem witness_LinkFailures :
    (∃ (port : Nat) (s : State), port % 2 < s.live.link.ports.length ∧ (s.live.port (port % 2)).lock = true) ∧
    (∃ (port v : Nat) (s : State), port % 2 < s.live.link.ports.length ∧ (s.live.port (port % 2)).wrapped = true ∧ ms 100 ≤ v ∧
      s.live.cycleNo % 64 = 0) ∧
    (∃ (port v : Nat) (s : State), port % 2 < s.live.link.ports.length ∧ (s.live.port (port % 2)).lock = false ∧ ms 10 ≤ v ∧
      s.live.link.wakeTx = none) ∧
    (∃ (w : Nat) (s : State), s.live.link.wakeTx = some w) ∧
    (∃ (s : State), s.live.sup.phase = .running ∧ s.live.link.ports.any (·.lock) = false ∧ s.live.pwr.mode = .run ∧
      s.live.link.runAt + ms 100 ≤ s.live.mt.now) ∧
    (∃ (k : Nat) (s : State), s.live.altRank = some k ∧ s.live.link.st = .member ∧ s.live.pwr.mode ≠ .drain ∧ s.live.commandLayer
      = true ∧ s.live.link.lastSync + 4 * (k + 1) * cycleNs ≤ s.live.mt.now) ∧
    (∃ (a : AuthData) (s : State), s.live.link.cascaded = true ∧ s.live.acting = true ∧ a.inTime = false) ∧
    (∃ (a : AuthData) (s : State) (k : _), s.live.link.cascaded = true ∧ s.live.acting = true ∧ a.inTime = true ∧ s.serviceKdf
      s.live.link.cfg.keySlot "ZZ-LKMBR" (le 8 a.serial) = some k ∧ cmac k (a.masterChal ++ le 8 a.serial ++ le 1 a.pos) = a.mac) ∧
    (∃ (a : AuthData) (s : State) (k : List Byte), s.live.link.cascaded = true ∧ s.live.acting = false ∧ a.inTime = true ∧
      s.serviceKdf s.live.link.cfg.keySlot "ZZ-LKMBR" (le 8 Config.serial) = some k ∧ cmac k (a.memberChal ++ le 8 a.serial) =
        a.mac) ∧
    (∃ (a : AuthData) (s : State), s.live.link.cascaded = true ∧ s.live.acting = false ∧ a.inTime = false) :=
  ⟨⟨1, (onWith fun l => l.setLink fun k => { k with ports := [LinkPort.init, { LinkPort.init with lock := true }] }),
     by decide +kernel⟩,
   ⟨1, ms 100, (onWith fun l => l.setLink fun k => { k with ports := [LinkPort.init, { LinkPort.init with wrapped := true }] }),
     by decide +kernel⟩,
   ⟨1, ms 10, on, by decide +kernel⟩,
   ⟨0, (onWith fun l => l.setLink fun k => { k with wakeTx := some 0 }), by decide +kernel⟩,
   ⟨on, by decide +kernel⟩,
   ⟨0, (onWith fun l => l.setLink fun k => { k with strap := 1, st := .member }), by decide +kernel⟩,
   ⟨{ auth0 [] with inTime := false }, (onWith fun l => onLink (fun k => { k with st := .master }) l), by decide +kernel⟩,
   ⟨auth9, auth9State, (memberKey auth9State 9), by decide +kernel⟩,
   (by
  obtain ⟨k, h⟩ := memberKey_some (le 8 Config.serial)
  exact ⟨auth0 (cmac k (zs 16 ++ le 8 9)), memberState, k, by decide +kernel, by decide +kernel, rfl, h, rfl⟩),
   ⟨{ auth0 [] with inTime := false }, (onWith fun l => onLink (fun k => { k with st := .member }) l), by decide +kernel⟩⟩

theorem witness_LinkFailures_2 :
    (∃ (s : State), s.live.sup.phase = .running ∧ s.live.link.st = .guest ∧ s.live.link.authNext ≠ 0 ∧ s.live.link.authNext ≤
      s.live.mt.now) ∧
    (∃ (s : State), s.live.mt.source = .link ∧ s.live.link.lastSync + 4 * cycleNs ≤ s.live.mt.now) ∧
    (∃ (s : State) (c : _), s.live.mt.source = .can ∧ s.live.can.source = some c ∧ c.lastRef + ms (3 * c.refMs) ≤ s.live.mt.now) ∧
    (∃ (pos n : Nat) (far : Bool) (s : State),
      s.live.sup.phase = StartPhase.running ∧ s.live.isMember pos = true ∧ 8 ≤ n ∧ ((if far = true then s.live.beyondBreak pos
      else s.live.acting) = true) ∧ pos ∉ s.live.link.silent) ∧
    (∃ (pos n : Nat) (s : State),
      s.live.sup.phase = StartPhase.running ∧ s.live.isMember pos = true ∧ n = 0 ∧ pos ∈ s.live.link.silent) :=
  ⟨⟨(onWith fun l => l.setLink fun k => { k with st := .guest, authNext := 1 }), by decide +kernel⟩,
   ⟨(onWith fun l => { l with mt := { l.mt with source := .link } }), by decide +kernel⟩,
   ⟨(onWith fun l => ({ l with mt := { l.mt with source := .can } }).setCan fun c => { c with source := some source0 }), source0,
     by decide +kernel⟩,
   ⟨63, 8, false, (onWith fun l => onLink (fun k => { k with st := .master }) l), by decide +kernel⟩,
   ⟨63, 0, (onWith fun l => onLink (fun k => { k with st := .master, silent := [63] }) l), by decide +kernel⟩⟩

theorem witness_Tokens :
    (∃ (a : Nat) (s : State), a < s.live.token.ants.length ∧ a ≤ 1 ∧ s.live.searchDue a = true ∧ (s.live.ant a).attempt = none ∧
      (a = 1 → (s.live.ant 0).attempt = none)) ∧
    (∃ (a : Nat) (x : TokenAttempt) (s : State), (s.live.ant a).attempt = some x ∧ x.nextAt ≤ s.live.mt.now ∧ s.live.commandLayer
      = true) ∧
    (∃ (a : Nat) (s : State), (s.live.ant a).grants ≠ [] ∧ (s.live.ant a).trackAt ≤ s.live.mt.now ∧ s.live.pwr.mode = .run ∧
      s.live.commandLayer = true) ∧
    (∃ (a slot : Nat) (w : TokenWait) (s : State), s.live.sup.phase = .running ∧ (s.live.ant a).waits.find? (fun w => w.slot ==
      slot && decide (w.since + ms 5 ≤ s.live.mt.now)) = some w) ∧
    (∃ (m : MbRef) (b : Mailbox) (s : State),
      Waits s 0x5001 m b ∧
      let p := b.payload
      let k := s.kept.cells.slot (byteAt p 4)
      byteAt p 0 < 4 ∧
      byteAt p 1 ≤ 3 ∧
      byteAt p 2 ≤ 3 ∧
      inRange 1 3 (byteAt p 3) = true ∧
      byteAt p 4 ≤ 63 ∧
      inRange 2 16 (byteAt p 5) = true ∧
      inRange 10 200 (rd p 6 2) = true ∧
      (rd p 12 2 = 0 ∨ inRange 100 10000 (rd p 12 2) = true) ∧
      inRange 250 8000 (rd p 14 2) = true ∧
      (rd p 16 2 = 0 ∨ rd p 16 2 < rd p 12 2) ∧
      inRange 100 5000 (rd p 18 2) = true ∧
      inRange 10 100 (byteAt p 20) = true ∧
      (resv b 21 3).2 = true ∧
      k.filled = true ∧
      k.attr ≠ 3) ∧
    (∃ (m : MbRef) (b : Mailbox) (s : State),
      Waits s 0x5001 m b ∧
      let p := b.payload
      let k := s.kept.cells.slot (byteAt p 4)
      byteAt p 0 < 4 ∧
      byteAt p 1 ≤ 3 ∧
      byteAt p 2 ≤ 3 ∧
      inRange 1 3 (byteAt p 3) = true ∧
      byteAt p 4 ≤ 63 ∧
      inRange 2 16 (byteAt p 5) = true ∧
      inRange 10 200 (rd p 6 2) = true ∧
      (rd p 12 2 = 0 ∨ inRange 100 10000 (rd p 12 2) = true) ∧
      inRange 250 8000 (rd p 14 2) = true ∧
      (rd p 16 2 = 0 ∨ rd p 16 2 < rd p 12 2) ∧
      inRange 100 5000 (rd p 18 2) = true ∧
      inRange 10 100 (byteAt p 20) = true ∧
      (resv b 21 3).2 = true ∧
      (k.filled = false ∨ k.attr = 3)) ∧
    (∃ (m : MbRef) (b : Mailbox) (s : State) (z : _),
      Waits s 0x5002 m b ∧
      let p := b.payload
      byteAt p 0 ≤ 1 ∧
      byteAt p 1 < 2 ∧
      rd p 2 2 ≤ 10000 ∧
      (∀ z, z < 8 → rd p (4 + 4 * z) 2 ≤ rd p (6 + 4 * z) 2 ∧ rd p (6 + 4 * z) 2 ≤ 2500) ∧
      byteAt p 0 < s.live.token.ants.length ∧
      z < 8) ∧
    (∃ (m : MbRef) (b : Mailbox) (s : State),
      Waits s 0x5003 m b ∧
      let id := rd b.payload 0 4
      let a := byteAt b.payload 6
      a ≤ 1 ∧
      (resv b 7 5).2 = true ∧
      s.live.pwr.mode ≠ .drain ∧
      (s.live.recOf id).isSome = true) ∧
    (∃ (m : MbRef) (b : Mailbox) (s : State),
      Waits s 0x5003 m b ∧
      let id := rd b.payload 0 4
      let a := byteAt b.payload 6
      let busy := s.live.token.ants.any fun x => x.attempt.any fun y => y.enrol.isSome
      a ≤ 1 ∧
      (resv b 7 5).2 = true ∧
      s.live.pwr.mode ≠ .drain ∧
      s.live.recOf id = none ∧
      (s.live.token.recs.all Option.isSome = true ∨ busy = true)) ∧
    (∃ (m : MbRef) (b : Mailbox) (s : State),
      Waits s 0x5003 m b ∧
      let id := rd b.payload 0 4
      let a := byteAt b.payload 6
      let busy := s.live.token.ants.any fun x => x.attempt.any fun y => y.enrol.isSome
      a ≤ 1 ∧
      (resv b 7 5).2 = true ∧
      s.live.pwr.mode ≠ .drain ∧
      s.live.recOf id = none ∧
      s.live.token.recs.all Option.isSome = false ∧
      busy = false ∧
      s.kept.cells.slotState s.live.token.cfg.keySlot ≠ 1) :=
  ⟨⟨1, (onWith fun l => l.setAnt 1 fun x => { x with asked := true }), by decide +kernel⟩,
   ⟨1, attempt0, (onWith fun l => l.setAnt 1 fun x => { x with attempt := some attempt0 }), by decide +kernel⟩,
   ⟨1, (onWith fun l => l.setAnt 1 fun x => { x with grants := [grant0] }), by decide +kernel⟩,
   ⟨1, 15, wait0, (onWith fun l => l.setAnt 1 fun x => { x with waits := [wait0] }), by decide +kernel⟩,
   ⟨(.host 0), (box 0x5001 ([3, 3, 3, 3, 63, 16] ++ le 2 200 ++ zs 4 ++ le 2 10000 ++ le 2 8000 ++ le 2 9999 ++ le 2 5000 ++ [100,
     0, 0, 0])),
     { (asks 0x5001 ([3, 3, 3, 3, 63, 16] ++ le 2 200 ++ zs 4 ++ le 2 10000 ++ le 2 8000 ++ le 2 9999 ++ le 2 5000 ++ [100, 0, 0, 0])) with kept := owned fun x => x.set 63 (keySlot 0 0) },
     by decide +kernel⟩,
   ⟨(.host 0), (box 0x5001 ([3, 3, 3, 3, 63, 16] ++ le 2 200 ++ zs 4 ++ le 2 10000 ++ le 2 8000 ++ le 2 9999 ++ le 2 5000 ++ [100,
     0, 0, 0])), (asks 0x5001 ([3, 3, 3, 3, 63, 16] ++ le 2 200 ++ zs 4 ++ le 2 10000 ++ le 2 8000 ++ le 2 9999 ++ le 2 5000 ++
     [100, 0, 0, 0])), by decide +kernel⟩,
   ⟨(.host 0), (box 0x5002 ([1, 1] ++ le 2 10000 ++ (List.replicate 16 (le 2 2500)).flatten)), (asks 0x5002 ([1, 1] ++ le 2 10000
     ++ (List.replicate 16 (le 2 2500)).flatten)), 7, by decide +kernel⟩,
   ⟨(.host 0), (box 0x5003 (le 4 9 ++ [0, 0, 1] ++ zs 5)), (asks 0x5003 (le 4 9 ++ [0, 0, 1] ++ zs 5) (fun l => l.setToken fun k
     => { k with recs := some token9 :: List.replicate 31 none })), by decide +kernel⟩,
   ⟨(.host 0), (box 0x5003 (le 4 8 ++ [0, 0, 1] ++ zs 5)), (asks 0x5003 (le 4 8 ++ [0, 0, 1] ++ zs 5) (fun l => l.setToken fun k
     => { k with recs := List.replicate 32 (some token9) })), by decide +kernel⟩,
   ⟨(.host 0), (box 0x5003 (le 4 8 ++ [0, 0, 1] ++ zs 5)), (asks 0x5003 (le 4 8 ++ [0, 0, 1] ++ zs 5) (fun l => l.setToken fun k
     => { k with recs := some token9 :: List.replicate 31 none })), by decide +kernel⟩⟩

theorem witness_Tokens_2 :
    (∃ (m : MbRef) (b : Mailbox) (s : State),
      Waits s 0x5003 m b ∧
      let id := rd b.payload 0 4
      let a := byteAt b.payload 6
      let busy := s.live.token.ants.any fun x => x.attempt.any fun y => y.enrol.isSome
      a ≤ 1 ∧
      (resv b 7 5).2 = true ∧
      s.live.pwr.mode ≠ .drain ∧
      s.live.recOf id = none ∧
      s.live.token.recs.all Option.isSome = false ∧
      busy = false ∧
      s.kept.cells.slotState s.live.token.cfg.keySlot = 1 ∧
      a < s.live.token.ants.length) ∧
    (∃ (m : MbRef) (b : Mailbox) (s : State), Waits s 0x5004 m b ∧ s.live.recOf (rd b.payload 0 4) = none) ∧
    (∃ (m : MbRef) (b : Mailbox) (s : State) (r : _), Waits s 0x5004 m b ∧ s.live.recOf (rd b.payload 0 4) = some r) ∧
    (∃ (m : MbRef) (b : Mailbox) (s : State),
      Waits s 0x5005 m b ∧
      byteAt b.payload 0 ≤ 1 ∧
      (resv b 1 1).2 = true ∧
      let a := byteAt b.payload 0
      (s.live.pwr.mode = .drain ∨ bit s.live.token.cfg.antEn a = false)) ∧
    (∃ (m : MbRef) (b : Mailbox) (s : State),
      Waits s 0x5005 m b ∧
      byteAt b.payload 0 ≤ 1 ∧
      (resv b 1 1).2 = true ∧
      let a := byteAt b.payload 0
      s.live.pwr.mode ≠ .drain ∧
      bit s.live.token.cfg.antEn a = true ∧
      (s.live.ant a).attempt.isSome = true) ∧
    (∃ (m : MbRef) (b : Mailbox) (s : State),
      Waits s 0x5005 m b ∧
      byteAt b.payload 0 ≤ 1 ∧
      (resv b 1 1).2 = true ∧
      let a := byteAt b.payload 0
      s.live.pwr.mode ≠ .drain ∧
      bit s.live.token.cfg.antEn a = true ∧
      (s.live.ant a).attempt = none) ∧
    (∃ (m : MbRef) (b : Mailbox) (s : State), Waits s 0x5006 m b ∧ byteAt b.payload 0 ≤ 31) ∧
    (∃ (m : MbRef) (b : Mailbox) (s : State), Waits s 0x5007 m b) ∧
    (∃ (m : MbRef) (b : Mailbox) (s : State),
      Waits s 20482 m b ∧
      let p := b.payload
      byteAt p 0 ≤ 1 ∧ byteAt p 1 < 2 ∧ rd p 2 2 ≤ 10000 ∧ (∀ z < 8, rd p (4 + 4 * z) 2 ≤ rd p (6 + 4 * z) 2 ∧ rd p (6 + 4 * z)
      2 ≤ 2500)) :=
  ⟨⟨(.host 0), (box 0x5003 (le 4 8 ++ [0, 0, 1] ++ zs 5)),
    { (asks 0x5003 (le 4 8 ++ [0, 0, 1] ++ zs 5) (fun l => l.setToken fun k => { k with recs := some token9 :: List.replicate 31 none })) with kept := owned fun x => x.set 0 (keySlot 0 3) },
    by decide +kernel⟩,
   ⟨(.host 0), (box 0x5004 (le 4 9)), (asks 0x5004 (le 4 9)), by decide +kernel⟩,
   ⟨(.host 0), (box 0x5004 (le 4 9)), (asks 0x5004 (le 4 9) (fun l => l.setToken fun k =>
     { k with recs := some token9 :: List.replicate 31 none })), 0, by decide +kernel⟩,
   ⟨(.host 0), (box 0x5005 [1, 0]), (asks 0x5005 [1, 0] (fun l => l.setPwr fun p => { p with mode := .drain })),
     by decide +kernel⟩,
   ⟨(.host 0), (box 0x5005 [1, 0]), (asks 0x5005 [1, 0] (fun l => (l.setAnt 1 fun x =>
     { x with attempt := some attempt0 }).setToken fun k => { k with cfg := { k.cfg with antEn := 2 } })), by decide +kernel⟩,
   ⟨(.host 0), (box 0x5005 [1, 0]), (asks 0x5005 [1, 0] (fun l => l.setToken fun k =>
     { k with cfg := { k.cfg with antEn := 2 } })), by decide +kernel⟩,
   ⟨(.host 0), (box 0x5006 [31]), (asks 0x5006 [31]), by decide +kernel⟩,
   ⟨(.host 0), (box 0x5007 []), (asks 0x5007 []), by decide +kernel⟩,
   ⟨(.host 0), (box 0x5002 ([1, 1] ++ le 2 10000 ++ (List.replicate 8 (le 2 2499 ++ le 2 2500)).flatten)),
     (asks 0x5002 ([1, 1] ++ le 2 10000 ++ (List.replicate 8 (le 2 2499 ++ le 2 2500)).flatten)), by decide +kernel⟩⟩

theorem witness_KeySlots :
    (∃ (s : State), s.live.secureHeld = true) ∧
    (∃ (m : MbRef) (b : Mailbox) (s : State), Waits s 0x5802 m b ∧ byteAt b.payload 0 ≤ 63) ∧
    (∃ (m : MbRef) (b : Mailbox) (s : State) (bs l : _),
      Waits s 0x5803 m b ∧
      s.live.secureHeld = false ∧
      let i := byteAt b.payload 0
      let type := byteAt b.payload 1
      i ≤ 63 ∧
      firstBad (fillChecks 1 type (byteAt b.payload 2) (byteAt b.payload 3) 3) = none ∧
      s.fillCheck i true = none ∧
      s.live.random (if type = 3 then 40 else materialLen type) = (some bs, l) ∧
      s.kept.cells.slots.length = 64) ∧
    (∃ (m : MbRef) (b : Mailbox) (s : State),
      Waits s 0x5804 m b ∧
      s.live.secureHeld = false ∧
      byteAt b.payload 1 = 0 ∧
      let i := byteAt b.payload 0
      let p := b.payload
      i ≤ 63 ∧
      firstBad (fillChecks 3 (byteAt p 3) (byteAt p 4) (byteAt p 5) 4) = none ∧
      (resv b 6 2).2 = true ∧
      s.fillCheck i false = none ∧
      s.kept.cells.slots.length = 64) :=
  ⟨⟨(onWith fun l => l.setPwr fun p => { p with sag := { p.sag with active := true, undo := 1 } }), by decide +kernel⟩,
   ⟨(.host 0), (box 0x5802 [63]), (asks 0x5802 [63]), by decide +kernel⟩,
   ⟨(.host 0), (box 0x5803 [63, 3, 3, 0]), ({ asks 0x5803 ([63, 3, 3, 0]) (fun l => drbg l) with kept := owned id }), (draw
     (onWith drbg) 40), (State.live ({ asks 0x5803 ([63, 3, 3, 0]) (fun l => drbg l) with kept := owned id }) |>.random 40).2,
     by decide +kernel⟩,
   ⟨(.host 0), (box 0x5804 ([63, 0, 0, 4, 3, 1, 0, 0] ++ zs 64)),
     { (asks 0x5804 ([63, 0, 0, 4, 3, 1, 0, 0] ++ zs 64)) with kept := owned id }, by decide +kernel⟩⟩

theorem witness_KeySlots_2 :
    (∃ (m : MbRef) (b : Mailbox) (s : State),
      Waits s 0x5805 m b ∧
      let i := byteAt b.payload 0
      let w := byteAt b.payload 1
      let k := s.kept.cells.slot i
      i ≤ 63 ∧
      w ≤ 63 ∧
      s.useCheck m 0x5805 w 1 [0, 1] 2 = none ∧
      k.filled = true ∧
      k.domain = s.kept.cells.liveDomain ∧
      (s.kept.cells.slot w).domain = k.domain ∧
      bit k.flags 0 = false) ∧
    (∃ (m : MbRef) (b : Mailbox) (s : State),
      Waits s 0x5805 m b ∧
      let i := byteAt b.payload 0
      let w := byteAt b.payload 1
      let k := s.kept.cells.slot i
      i ≤ 63 ∧
      w ≤ 63 ∧
      s.useCheck m 0x5805 w 1 [0, 1] 2 = none ∧
      k.filled = true ∧
      k.domain = s.kept.cells.liveDomain ∧
      (s.kept.cells.slot w).domain = k.domain ∧
      bit k.flags 0 = true) ∧
    (∃ (m : MbRef) (b : Mailbox) (s : State),
      Waits s 0x5806 m b ∧
      s.live.secureHeld = false ∧
      byteAt b.payload 0 ≤ 63 ∧
      s.kept.cells.liveDomain ≠ 0 ∧
      let i := byteAt b.payload 0
      (s.kept.cells.slot i).filled = true ∧
      (s.kept.cells.slot i).domain = s.kept.cells.liveDomain ∧
      s.live.slotNamed i = true) ∧
    (∃ (m : MbRef) (b : Mailbox) (s : State),
      Waits s 0x5806 m b ∧
      s.live.secureHeld = false ∧
      byteAt b.payload 0 ≤ 63 ∧
      s.kept.cells.liveDomain ≠ 0 ∧
      let i := byteAt b.payload 0
      (s.kept.cells.slot i).filled = true ∧
      (s.kept.cells.slot i).domain = s.kept.cells.liveDomain ∧
      s.live.slotNamed i = false) :=
  ⟨⟨(.host 0), (box 0x5805 [63, 2]), { (asks 0x5805 [63, 2]) with kept := slot63 (keySlot 0 0) }, by decide +kernel⟩,
   ⟨(.host 0), (box 0x5805 [63, 2]), { (asks 0x5805 [63, 2]) with kept := slot63 (keySlot 0 0 1) }, by decide +kernel⟩,
   ⟨(.host 0), (box 0x5806 [0]), { (asks 0x5806 [0]) with kept := owned fun x => x.set 0 (keySlot 0 0) }, by decide +kernel⟩,
   ⟨(.host 0), (box 0x5806 [63]), { (asks 0x5806 [63]) with kept := slot63 (keySlot 0 0) }, by decide +kernel⟩⟩

theorem witness_KeySlots_3 :
    (∃ (m : MbRef) (b : Mailbox) (s : State) (pt : List Byte),
      Waits s 22532 m b ∧
      let p := b.payload
      let k := byteAt p 0
      s.live.secureHeld = false ∧ byteAt p 1 = 1 ∧ k ≤ 63 ∧ byteAt p 2 ≤ 63 ∧ (resv b 3 5).2 = true ∧ s.useCheck m 22532 (byteAt
      p 2) 2 [0, 1] 2 = none ∧ (s.kept.cells.slot (byteAt p 2)).domain = s.kept.cells.liveDomain ∧ s.barred k = false ∧
      s.fillCheck k false = none ∧ kwUnwrap (s.kept.cells.slot (byteAt p 2)).material (List.drop 8 p) = some pt ∧ byteAt pt 0 ≤
      4 ∧ materialLen (byteAt pt 0) + 8 = pt.length ∧ byteAt pt 1 ≤ 3 ∧ byteAt pt 2 = s.kept.cells.liveDomain ∧
      s.kept.cells.slots.length = 64 ∧ k ≠ byteAt p 2) ∧
    (∃ (m : MbRef) (b : Mailbox) (s : State),
      Waits s 22535 m b ∧
      let p := b.payload
      let a := byteAt p 1
      s.live.secureHeld = false ∧ byteAt p 0 ≤ 63 ∧ a ≤ 63 ∧ firstBad (fillChecks 2 (byteAt p 2) (byteAt p 3) (byteAt p 4) 2) =
      none ∧ (resv b 7 1).2 = true ∧ s.barred a = false ∧ s.useCheck m 22535 (byteAt p 0) 0 [0, 1, 2] 3 = none ∧ s.fillCheck a
      true = none ∧ s.kept.cells.slots.length = 64) :=
  ⟨⟨(.host 0), (box 0x5804 ([63, 1, 2, 0, 0, 0, 0, 0] ++ kwWrap (zs 16) blob63)),
     { (asks 0x5804 ([63, 1, 2, 0, 0, 0, 0, 0] ++ kwWrap (zs 16) blob63)) with kept := slot63 KeySlot.empty }, blob63,
     by decide +kernel⟩,
   ⟨(.host 0), (box 0x5807 ([2, 63, 2, 3, 0, 8, 8, 0] ++ zs 16)),
     { (asks 0x5807 ([2, 63, 2, 3, 0, 8, 8, 0] ++ zs 16)) with kept := slot63 KeySlot.empty (keySlot 0 3) },
     by decide +kernel⟩⟩

theorem witness_KeyOperations :
    (∃ (m : MbRef) (b : Mailbox) (s : State),
      Waits s 0x5808 m b ∧
      let p := b.payload
      let i := byteAt p 0
      i ≤ 63 ∧
      byteAt p 2 ≤ 1 ∧
      byteAt p 3 ≤ 64 ∧
      (resv b 6 2).2 = true ∧
      s.useCheck m 0x5808 i 0 [0, 1] (if byteAt p 2 = 1 then 1 else 0) = none ∧
      byteAt p 1 = 0 ∧
      rd p 4 2 % 16 = 0) ∧
    (∃ (m : MbRef) (b : Mailbox) (s : State),
      Waits s 0x5808 m b ∧
      let p := b.payload
      let i := byteAt p 0
      i ≤ 63 ∧
      byteAt p 2 ≤ 1 ∧
      byteAt p 3 ≤ 64 ∧
      (resv b 6 2).2 = true ∧
      s.useCheck m 0x5808 i 0 [0, 1] (if byteAt p 2 = 1 then 1 else 0) = none ∧
      byteAt p 1 = 1) ∧
    (∃ (m : MbRef) (b : Mailbox) (s : State),
      Waits s 0x5808 m b ∧
      let p := b.payload
      let i := byteAt p 0
      i ≤ 63 ∧
      byteAt p 2 ≤ 1 ∧
      byteAt p 3 ≤ 64 ∧
      (resv b 6 2).2 = true ∧
      s.useCheck m 0x5808 i 0 [0, 1] (if byteAt p 2 = 1 then 1 else 0) = none ∧
      byteAt p 1 = 2 ∧
      byteAt p 2 = 0) ∧
    (∃ (m : MbRef) (b : Mailbox) (s : State),
      Waits s 0x5808 m b ∧
      let p := b.payload
      let i := byteAt p 0
      let key := (s.kept.cells.slot i).material
      let iv := (p.drop 8).take 16
      let data := (p.drop (24 + byteAt p 3)).take (rd p 4 2)
      i ≤ 63 ∧
      byteAt p 2 ≤ 1 ∧
      byteAt p 3 ≤ 64 ∧
      (resv b 6 2).2 = true ∧
      s.useCheck m 0x5808 i 0 [0, 1] (if byteAt p 2 = 1 then 1 else 0) = none ∧
      byteAt p 1 = 2 ∧
      byteAt p 2 = 1 ∧
      gcmTag key (iv.take 12) ((p.drop 24).take (byteAt p 3)) data ≠
      (p.drop (24 + byteAt p 3 + rd p 4 2)).take 16) ∧
    (∃ (m : MbRef) (b : Mailbox) (s : State),
      Waits s 0x5809 m b ∧
      let p := b.payload
      let i := byteAt p 0
      i ≤ 63 ∧
      byteAt p 1 ≤ 1 ∧
      (resv b 3 1).2 = true ∧
      rd p 4 2 ≤ 448 ∧
      (resv b 6 2).2 = true ∧
      s.useCheck m 0x5809 i 0 [0, 1, 2] 0 = none ∧
      byteAt p 1 = 0) ∧
    (∃ (m : MbRef) (b : Mailbox) (s : State),
      Waits s 0x5809 m b ∧
      let p := b.payload
      let i := byteAt p 0
      let h := byteAt p 2
      i ≤ 63 ∧
      byteAt p 1 ≤ 1 ∧
      (resv b 3 1).2 = true ∧
      rd p 4 2 ≤ 448 ∧
      (resv b 6 2).2 = true ∧
      s.useCheck m 0x5809 i 0 [0, 1, 2] 0 = none ∧
      byteAt p 1 = 1 ∧
      (h = 0xFF ∨ s.live.challenge h = true)) ∧
    (∃ (m : MbRef) (b : Mailbox) (s : State),
      Waits s 0x5809 m b ∧
      let p := b.payload
      let i := byteAt p 0
      let h := byteAt p 2
      i ≤ 63 ∧
      byteAt p 1 ≤ 1 ∧
      (resv b 3 1).2 = true ∧
      rd p 4 2 ≤ 448 ∧
      (resv b 6 2).2 = true ∧
      s.useCheck m 0x5809 i 0 [0, 1, 2] 0 = none ∧
      byteAt p 1 = 1 ∧
      h ≠ 0xFF ∧
      s.live.challenge h = false) ∧
    (∃ (m : MbRef) (b : Mailbox) (s : State),
      Waits s 0x580A m b ∧
      let p := b.payload
      let i := byteAt p 0
      i ≤ 63 ∧
      (resv b 2 2).2 = true ∧
      byteAt p 1 = 1 ∧
      s.useCheck m 0x580A i 0 [3, 4] 1 = none) ∧
    (∃ (m : MbRef) (b : Mailbox) (s : State) (bs l : _),
      Waits s 0x580A m b ∧
      let p := b.payload
      let i := byteAt p 0
      i ≤ 63 ∧
      (resv b 2 2).2 = true ∧
      byteAt p 1 = 0 ∧
      s.useCheck m 0x580A i 0 [3] 0 = none ∧
      s.live.random 40 = (some bs, l)) ∧
    (∃ (m : MbRef) (b : Mailbox) (s : State), Waits s 0x580B m b ∧ byteAt b.payload 0 ≤ 3 ∧ (resv b 1 3).2 = true ∧ byteAt
      b.payload 0 = 3) :=
  ⟨⟨(.host 0), (box 0x5808 ([63, 0, 1, 64] ++ le 2 16 ++ [0, 0] ++ zs 112)),
    { (asks 0x5808 ([63, 0, 1, 64] ++ le 2 16 ++ [0, 0] ++ zs 112)) with kept := slot63 (keySlot 0 1) }, by decide +kernel⟩,
   ⟨(.host 0), (box 0x5808 ([63, 1, 1, 64] ++ le 2 16 ++ [0, 0] ++ zs 112)),
     { (asks 0x5808 ([63, 1, 1, 64] ++ le 2 16 ++ [0, 0] ++ zs 112)) with kept := slot63 (keySlot 0 1) }, by decide +kernel⟩,
   ⟨(.host 0), (box 0x5808 ([63, 2, 0, 64] ++ le 2 16 ++ [0, 0] ++ zs 112)),
     { (asks 0x5808 ([63, 2, 0, 64] ++ le 2 16 ++ [0, 0] ++ zs 112)) with kept := slot63 (keySlot 0 0) }, by decide +kernel⟩,
   ⟨(.host 0), (box 0x5808 ([63, 2, 1, 64] ++ le 2 16 ++ [0, 0] ++ zs 112)),
     { (asks 0x5808 ([63, 2, 1, 64] ++ le 2 16 ++ [0, 0] ++ zs 112)) with kept := slot63 (keySlot 0 1) }, by decide +kernel⟩,
   ⟨(.host 0), (box 0x5809 ([63, 0, 255, 0] ++ le 2 448 ++ [0, 0] ++ zs 464)),
     { (asks 0x5809 ([63, 0, 255, 0] ++ le 2 448 ++ [0, 0] ++ zs 464)) with kept := slot63 (keySlot 2 0) }, by decide +kernel⟩,
   ⟨(.host 0), (box 0x5809 ([63, 1, 255, 0] ++ le 2 448 ++ [0, 0] ++ zs 464)),
     { (asks 0x5809 ([63, 1, 255, 0] ++ le 2 448 ++ [0, 0] ++ zs 464)) with kept := slot63 (keySlot 2 0) }, by decide +kernel⟩,
   ⟨(.host 0), (box 0x5809 ([63, 1, 0, 0] ++ le 2 448 ++ [0, 0] ++ zs 464)),
     { (asks 0x5809 ([63, 1, 0, 0] ++ le 2 448 ++ [0, 0] ++ zs 464)) with kept := slot63 (keySlot 2 0) }, by decide +kernel⟩,
   ⟨(.host 0), (box 0x580A ([63, 1, 0, 0] ++ zs 96)),
    { (asks 0x580A ([63, 1, 0, 0] ++ zs 96)) with kept := slot63 (keySlot 4 1) }, by decide +kernel⟩,
   ⟨(.host 0), (box 0x580A ([63, 0, 0, 0] ++ zs 32)),
     ({ asks 0x580A ([63, 0, 0, 0] ++ zs 32) (fun l => drbg l) with kept := slot63 (keySlot 3 0) }), (draw (onWith drbg) 40),
     (State.live ({ asks 0x580A ([63, 0, 0, 0] ++ zs 32) (fun l => drbg l) with kept := slot63 (keySlot 3 0) }) |>.random 40).2,
     by decide +kernel⟩,
   ⟨(.host 0), (box 0x580B [3, 0, 0, 0]), (asks 0x580B [3, 0, 0, 0]), by decide +kernel⟩⟩

theorem witness_KeyOperations_2 :
    (∃ (m : MbRef) (b : Mailbox) (s : State), Waits s 0x580B m b ∧ byteAt b.payload 0 ≤ 3 ∧ (resv b 1 3).2 = true ∧ byteAt
      b.payload 0 = 1) ∧
    (∃ (m : MbRef) (b : Mailbox) (s : State),
      Waits s 0x580B m b ∧
      byteAt b.payload 0 ≤ 3 ∧
      (resv b 1 3).2 = true ∧
      let old := s.live.key.hashes.find? fun h => h.source == hashSource m
      (byteAt b.payload 0 = 0 ∨ byteAt b.payload 0 = 2) ∧
      old = none) ∧
    (∃ (m : MbRef) (b : Mailbox) (s : State) (x : HashSession),
      Waits s 0x580B m b ∧
      byteAt b.payload 0 ≤ 3 ∧
      (resv b 1 3).2 = true ∧
      let old := s.live.key.hashes.find? fun h => h.source == hashSource m
      byteAt b.payload 0 = 2 ∧
      old = some x) ∧
    (∃ (m : MbRef) (b : Mailbox) (s : State), Waits s 0x580C m b ∧ 1 ≤ byteAt b.payload 0 ∧ s.live.key.drbgRunning = false) ∧
    (∃ (m : MbRef) (b : Mailbox) (s : State), Waits s 0x580C m b ∧ 1 ≤ byteAt b.payload 0 ∧ s.live.key.drbgRunning = true) ∧
    (∃ (m : MbRef) (b : Mailbox) (s : State), Waits s 0x580D m b ∧ s.live.key.drbgRunning = true) ∧
    (∃ (m : MbRef) (b : Mailbox) (s : State), Waits s 0x5811 m b ∧ rd b.payload 0 2 ≤ Config.attestCert.length) ∧
    (∃ (m : MbRef) (b : Mailbox) (s : State), Waits s 0x5801 m b) ∧
    (∃ (n : Nat) (s : State), s.live.sup.phase = .running ∧ s.live.key.drbgRunning = false ∧ s.live.key.samples + 1024 ≤ n) ∧
    (∃ (s : State), s.live.sup.phase = .running ∧ s.live.key.drbgRunning = true ∧ (1024 ≤ s.live.key.drbgRequests ∨
      s.live.key.drbgSeeded + ms 10000 ≤ s.live.mt.now)) :=
  ⟨⟨(.host 0), (box 0x580B [1, 0, 0, 0]), (asks 0x580B [1, 0, 0, 0]), by decide +kernel⟩,
   ⟨(.host 0), (box 0x580B [0, 0, 0, 0]), (asks 0x580B [0, 0, 0, 0]), by decide +kernel⟩,
   ⟨(.host 0), (box 0x580B [2, 0, 0, 0]), (asks 0x580B [2, 0, 0, 0] (fun l => l.setKey fun k =>
     { k with hashes := [{ source := 0, fed := [] }] })), { source := 0, fed := [] }, by decide +kernel⟩,
   ⟨(.host 0), (box 0x580C [1]), (asks 0x580C [1]), by decide +kernel⟩,
   ⟨(.host 0), (box 0x580C [1]), (asks 0x580C [1] (fun l => drbg l)), by decide +kernel⟩,
   ⟨(.host 0), (box 0x580D []), (asks 0x580D [] (fun l => drbg l)), by decide +kernel⟩,
   ⟨(.host 0), (box 0x5811 [0, 0, 0, 0]), (asks 0x5811 [0, 0, 0, 0]), by decide +kernel⟩,
   ⟨(.host 0), (box 0x5801 []), (asks 0x5801 []), by decide +kernel⟩,
   ⟨1024, on, by decide +kernel⟩,
   ⟨(onWith fun l => (drbg l).setKey fun k => { k with drbgRequests := 1024 }), by decide +kernel⟩⟩

theorem witness_KeyOperations_3 :
    ∃ (s : State),
      s.live.sup.phase = StartPhase.running :=
  ⟨on, by decide +kernel⟩

theorem witness_LifeCycleAndPeers :
    (∃ (m : MbRef) (b : Mailbox) (s : State),
      Waits s 0x5812 m b ∧
      s.live.secureHeld = false ∧
      let target := byteAt b.payload 0
      target ≤ 4 ∧
      (resv b 1 3).2 = true ∧
      (target ≠ 3 → allZero ((b.payload.drop 4).take 64) = true)) ∧
    (∃ (m : MbRef) (b : Mailbox) (s : State),
      Waits s 0x5810 m b ∧
      let proof := byteAt b.payload 0
      let slot := byteAt b.payload 1
      proof ≤ 1 ∧
      (proof = 1 → slot ≤ 63) ∧
      (resv b 2 2).2 = true ∧
      (s.kept.cells.lcs = 4 ∨ s.kept.cells.rootOk 0 = false)) ∧
    (∃ (m : MbRef) (b : Mailbox) (s : State),
      Waits s 0x5810 m b ∧
      let proof := byteAt b.payload 0
      let slot := byteAt b.payload 1
      proof ≤ 1 ∧
      (proof = 1 → slot ≤ 63) ∧
      (resv b 2 2).2 = true ∧
      s.kept.cells.lcs ≠ 4 ∧
      s.kept.cells.rootOk 0 = true ∧
      proof = 0) ∧
    (∃ (m : MbRef) (b : Mailbox) (s : State),
      Waits s 0x580E m b ∧
      let p := b.payload
      byteAt p 3 < 2 ∧
      (resv b 7 1).2 = true ∧
      byteAt p 0 = 0xFF) ∧
    (∃ (m : MbRef) (b : Mailbox) (s : State),
      Waits s 0x580E m b ∧
      let p := b.payload
      let k := s.kept.cells.slot (byteAt p 2)
      byteAt p 3 < 2 ∧
      (resv b 7 1).2 = true ∧
      byteAt p 0 ≤ 3 ∧
      byteAt p 1 ≤ 63 ∧
      byteAt p 2 ≤ 63 ∧
      rd p 4 2 ≤ 0x7C0 ∧
      inRange 1 100 (byteAt p 6) = true ∧
      s.kept.cells.liveDomain ≠ 0 ∧
      s.kept.cells.slotState (byteAt p 2) ≠ 2 ∧
      (k.filled = true → k.type ≤ 2 ∧ k.attr = 3) ∧
      (s.live.chan (byteAt p 0)).cfg.fd = true) ∧
    (∃ (m : MbRef) (b : Mailbox) (s : State) (c : PeerConfig),
      Waits s 0x580F m b ∧
      byteAt b.payload 0 ≤ 63 ∧
      s.live.key.peer = some c ∧
      s.live.pwr.mode ≠ .drain ∧
      let peer := byteAt b.payload 0
      (s.live.exchange peer).isSome = true) ∧
    (∃ (m : MbRef) (b : Mailbox) (s : State) (c : PeerConfig) (ca l : _),
      Waits s 0x580F m b ∧
      byteAt b.payload 0 ≤ 63 ∧
      s.live.key.peer = some c ∧
      s.live.pwr.mode ≠ .drain ∧
      let peer := byteAt b.payload 0
      s.live.exchange peer = none ∧
      (s.pairKey c peer).isSome = true ∧
      s.live.random 16 = (some ca, l)) ∧
    (∃ (f : CanFrame) (c : PeerConfig) (peer : Nat) (e : PeerExchange) (key : List Byte) (s : State), s.live.key.peer = some c ∧
      s.live.commandLayer = true ∧ s.live.pwr.mode ≠ .drain ∧ (s.live.chan c.ch).listens = true ∧ byteAt f.data 1 = c.ownId ∧
      c.sender f = some peer ∧ s.live.exchange peer = some e ∧ s.pairKey c peer = some key ∧ byteAt f.data 0 = 3 ∧ e.initiator =
      false) ∧
    (∃ (f : CanFrame) (c : PeerConfig) (peer : Nat) (e : PeerExchange) (key : List Byte) (s : State), s.live.key.peer = some c ∧
      s.live.commandLayer = true ∧ s.live.pwr.mode ≠ .drain ∧ (s.live.chan c.ch).listens = true ∧ byteAt f.data 1 = c.ownId ∧
      c.sender f = some peer ∧ s.live.exchange peer = some e ∧ s.pairKey c peer = some key ∧ byteAt f.data 0 = 2 ∧ e.initiator =
      true) ∧
    (∃ (peer : Nat) (c : PeerConfig) (e : PeerExchange) (s : State), s.live.sup.phase = .running ∧ s.live.key.peer = some c ∧
      s.live.exchange peer = some e ∧ e.lastStep + ms (10 * c.tmo) ≤ s.live.mt.now) :=
  ⟨⟨(.host 0), (box 0x5812 ([4, 0, 0, 0] ++ zs 64)), (asks 0x5812 ([4, 0, 0, 0] ++ zs 64)), by decide +kernel⟩,
   ⟨(.host 0), (box 0x5810 ([1, 63, 0, 0] ++ zs 48)),
     { (asks 0x5810 ([1, 63, 0, 0] ++ zs 48)) with kept := { on.kept with cells := { on.kept.cells with lcs := 4 } } },
     by decide +kernel⟩,
   ⟨(.host 0), (box 0x5810 ([0, 63, 0, 0] ++ zs 48)), (asks 0x5810 ([0, 63, 0, 0] ++ zs 48)), by decide +kernel⟩,
   ⟨(.host 0), (box 0x580E [0xFF, 0, 0, 1, 0, 0, 0, 0]), (asks 0x580E [0xFF, 0, 0, 1, 0, 0, 0, 0]), by decide +kernel⟩,
   ⟨(.host 0), (box 0x580E ([3, 63, 63, 0] ++ le 2 0x7C0 ++ [100, 0])),
    { (asks 0x580E ([3, 63, 63, 0] ++ le 2 0x7C0 ++ [100, 0]) (fun l => l.setChan 3 fun c => { c with cfg := { c.cfg with fd := true } })) with kept := owned id },
    by decide +kernel⟩,
   ⟨(.host 0), (box 0x580F [5]), (asks 0x580F [5] (fun l => peering true l)), peerCfg, by decide +kernel⟩,
   ⟨(.host 0), (box 0x580F [5]),
     ({ asks 0x580F ([5]) (fun l => (drbg l).setKey fun k => { k with peer := some peerCfg }) with kept := owned fun x => x.set 0 (keySlot 0 3) }),
     peerCfg, (draw (onWith drbg) 16), (State.live
     ({ asks 0x580F ([5]) (fun l => (drbg l).setKey fun k => { k with peer := some peerCfg }) with kept := owned fun x => x.set 0 (keySlot 0 3) })
     |>.random 16).2, by decide +kernel⟩,
   ⟨(peerFrame5 3), peerCfg, 5, (exchange5 false), ((State.pairKey
     ({ onWith (peering false) with kept := owned fun x => x.set 0 (keySlot 0 3) }) peerCfg 5).getD []),
     ({ onWith (peering false) with kept := owned fun x => x.set 0 (keySlot 0 3) }), by decide +kernel⟩,
   ⟨(peerFrame5 2), peerCfg, 5, (exchange5 true), ((State.pairKey
     ({ onWith (peering true) with kept := owned fun x => x.set 0 (keySlot 0 3) }) peerCfg 5).getD []),
     ({ onWith (peering true) with kept := owned fun x => x.set 0 (keySlot 0 3) }), by decide +kernel⟩,
   ⟨5, peerCfg, (exchange5 true), (onWith fun l => peering true l), by decide +kernel⟩⟩

theorem witness_LifeCycleAndPeers_2 :
    (∃ (m : MbRef) (b : Mailbox) (s : State),
      Waits s 22544 m b ∧
      let p := b.payload
      let k := byteAt p 0
      let a := byteAt p 1
      k ≤ 1 ∧ (k = 1 → a ≤ 63) ∧ (resv b 2 2).2 = true ∧ s.kept.cells.lcs ≠ 4 ∧ s.kept.cells.rootOk 0 = true ∧ k = 1 ∧
      s.kept.cells.liveDomain ≠ 0 ∧ s.kept.cells.slotState a ≠ 2 ∧ ((s.kept.cells.slot a).filled = false ∨ bit
      (s.kept.cells.slot a).flags 3 = false)) ∧
    (∃ (m : MbRef) (b : Mailbox) (s : State),
      Waits s 22544 m b ∧
      let p := b.payload
      let k := byteAt p 0
      let a := byteAt p 1
      k ≤ 1 ∧ (k = 1 → a ≤ 63) ∧ (resv b 2 2).2 = true ∧ s.kept.cells.lcs ≠ 4 ∧ s.kept.cells.rootOk 0 = true ∧ k = 1 ∧
      s.kept.cells.liveDomain ≠ 0 ∧ s.kept.cells.slotState a ≠ 2 ∧ (s.kept.cells.slot a).filled = true ∧ bit (s.kept.cells.slot
      a).flags 3 = true ∧ List.take 16 (List.drop 36 p) = hallmarkTag (s.kept.cells.slot a) (List.take 32 (List.drop 4 p))) :=
  ⟨⟨(.host 0), (box 0x5810 ([1, 63, 0, 0] ++ zs 48)),
     { (asks 0x5810 ([1, 63, 0, 0] ++ zs 48)) with kept := slot63 KeySlot.empty }, by decide +kernel⟩,
   (by
  refine ⟨.host 0, box 0x5810 hallReq, hallState, asked_waits _ 52 _ _ hallReq_length (by decide +kernel) (by decide +kernel), ?_⟩
  have k : (hallState).kept = slot63 (keySlot 0 0 8) := rfl
  have c : (slot63 (keySlot 0 0 8)).cells.slot 63 = keySlot 0 0 8 := by decide +kernel
  obtain ⟨h0, h1, h2, h4⟩ := hall_fields hallTag
  change byteAt hallReq 0 = 1 at h0
  change byteAt hallReq 1 = 63 at h1
  change allZero ((hallReq.drop 2).take 2) = true at h2
  change (hallReq.drop 4).take 32 = zs 32 at h4
  simp only [resv, hall_payload, k, h0, h1, h2, h4, hall_tag, c]
  exact ⟨by decide, fun _ => by decide, trivial, by decide +kernel, by decide +kernel, trivial, by decide +kernel, by decide +kernel, by decide +kernel,
    by decide +kernel, rfl⟩)⟩

theorem witness_WriteUnits :
    (∃ (u : WriteUnit) (us_ : List WriteUnit) (s : State), s.live.sup.phase = .running ∧ s.live.param.active = none ∧
      s.live.param.queue = u :: us_ ∧ (u.force = true ∨ s.live.blocked (u.kind.pages s.live.param.shadowApp) = none)) ∧
    (∃ (u : WriteUnit) (us_ : List WriteUnit) (s : State), s.live.sup.phase = .running ∧ s.live.param.active = none ∧
      s.live.param.queue = u :: us_ ∧ u.force = false ∧ s.live.blocked (u.kind.pages s.live.param.shadowApp) ≠ none) ∧
    (∃ (u : WriteUnit) (m : MbRef) (s : State), s.live.sup.phase = .running ∧ u.owner = some m ∧ s.live.param.queue.find? (fun x
      => x.owner.isSome && (decide (x.since + ms 40 ≤ s.live.mt.now) ||   decide (4 ≤ s.live.pwr.drain.step)) && !x.force) = some
      u) ∧
    (∃ (u : WriteUnit) (s : State), s.live.param.active = some u ∧ (∀ n b, u.kind ≠ .repair n b) ∧ u.kind ≠ .shadow) ∧
    (∃ (u : WriteUnit) (n : Nat) (b : Bool) (s : State), s.live.param.active = some u ∧ u.kind = .repair n b) ∧
    (∃ (u : WriteUnit) (s : State), s.live.param.active = some u ∧ u.kind = .shadow) :=
  ⟨⟨{ unitOf (.delete 639) with force := true }, [], (onWith fun l =>
    { l with param := { l.param with queue := [{ unitOf (.delete 639) with force := true }] } }), by decide +kernel⟩,
   ⟨(unitOf (.delete 639)), [], (onWith fun l => { l with param := { l.param with queue := [unitOf (.delete 639)] } }),
     by decide +kernel⟩,
   ⟨{ unitOf (.delete 639) with owner := some (.host 0) }, (.host 0), (onWith fun l =>
     { l with param := { l.param with queue := [{ unitOf (.delete 639) with owner := some (.host 0) }] } }), by decide +kernel⟩,
   ⟨(unitOf (.add 127 65535)), (onWith fun l => { l with param := { l.param with active := some (unitOf (.add 127 65535)) } }),
     by decide +kernel, (fun _ _ h => nomatch h), by decide +kernel⟩,
   ⟨(unitOf (.repair 639 true)), 639, true, (onWith fun l =>
     { l with param := { l.param with active := some (unitOf (.repair 639 true)) } }), by decide +kernel⟩,
   ⟨(unitOf .shadow), (onWith fun l => { l with param := { l.param with active := some (unitOf .shadow) } }), by decide +kernel⟩⟩

theorem witness_ParamCommands :
    (∃ (m : MbRef) (b : Mailbox) (s : State), Waits s 0x6001 m b ∧ rd b.payload 0 2 ≤ 639 ∧ (resv b 2 2).2 = true ∧ (recState
      s.kept.store (rd b.payload 0 2)).1 = .empty) ∧
    (∃ (m : MbRef) (b : Mailbox) (s : State), Waits s 0x6001 m b ∧ rd b.payload 0 2 ≤ 639 ∧ (resv b 2 2).2 = true ∧ (recState
      s.kept.store (rd b.payload 0 2)).1 = .lost) ∧
    (∃ (m : MbRef) (b : Mailbox) (s : State) (w : List Byte) (a : Option Bool), Waits s 0x6001 m b ∧ rd b.payload 0 2 ≤ 639 ∧
      (resv b 2 2).2 = true ∧ recState s.kept.store (rd b.payload 0 2) = (.valid, w, a) ∧ 12 ≤ w.length) ∧
    (∃ (m : MbRef) (b : Mailbox) (s : State),
      Waits s 0x6002 m b ∧
      let n := rd b.payload 0 2
      n ≤ 639 ∧
      byteAt b.payload 5 ≤ 240 ∧
      byteAt b.payload 6 < 4 ∧
      (resv b 7 1).2 = true ∧
      bit (byteAt b.payload 6) 1 = true ∧
      ledgerOpen s.kept.store = false) ∧
    (∃ (m : MbRef) (b : Mailbox) (s : State),
      Waits s 0x6002 m b ∧
      let n := rd b.payload 0 2
      n ≤ 639 ∧
      byteAt b.payload 5 ≤ 240 ∧
      byteAt b.payload 6 < 4 ∧
      (resv b 7 1).2 = true ∧
      bit (byteAt b.payload 6) 1 = false ∧
      n < 256) ∧
    (∃ (m : MbRef) (b : Mailbox) (s : State),
      Waits s 0x6002 m b ∧
      let n := rd b.payload 0 2
      n ≤ 639 ∧
      byteAt b.payload 5 ≤ 240 ∧
      byteAt b.payload 6 < 4 ∧
      (resv b 7 1).2 = true ∧
      bit (byteAt b.payload 6) 1 = false ∧
      256 ≤ n) ∧
    (∃ (m : MbRef) (b : Mailbox) (s : State),
      Waits s 0x6002 m b ∧
      let n := rd b.payload 0 2
      n ≤ 639 ∧
      byteAt b.payload 5 ≤ 240 ∧
      byteAt b.payload 6 < 4 ∧
      (resv b 7 1).2 = true ∧
      bit (byteAt b.payload 6) 1 = true ∧
      ledgerOpen s.kept.store = true ∧
      256 ≤ n ∧
      (ledgerEntries s.kept.store).length < 256) ∧
    (∃ (m : MbRef) (b : Mailbox) (s : State), Waits s 0x6003 m b ∧ rd b.payload 0 2 ≤ 639 ∧ (resv b 2 2).2 = true ∧ rd b.payload 0
      2 < 256) ∧
    (∃ (m : MbRef) (b : Mailbox) (s : State), Waits s 0x6003 m b ∧ rd b.payload 0 2 ≤ 639 ∧ (resv b 2 2).2 = true ∧ 256 ≤ rd
      b.payload 0 2) ∧
    (∃ (m : MbRef) (b : Mailbox) (s : State) (cd : CounterDef),
      Waits s 0x6004 m b ∧
      (resv b 3 1).2 = true ∧
      let op := byteAt b.payload 0
      let c := byteAt b.payload 1
      counterDef (s.live.counterDefs s.kept.counters) c = some cd ∧
      byteAt b.payload 2 = 0 ∧
      64 ≤ c ∧
      op = 1 ∧
      inRange 1 65535 (rd b.payload 4 4) = true) :=
  ⟨⟨(.host 0), (box 0x6001 (le 2 639 ++ [0, 0])), (asks 0x6001 (le 2 639 ++ [0, 0])), by decide +kernel⟩,
   ⟨(.host 0), (box 0x6001 (le 2 639 ++ [0, 0])), { (asks 0x6001 (le 2 639 ++ [0, 0])) with kept := storing lost639 },
     by decide +kernel⟩,
   ⟨(.host 0), (box 0x6001 (le 2 639 ++ [0, 0])), { (asks 0x6001 (le 2 639 ++ [0, 0])) with kept := storing store639 }, (recCopy store639 639 true), (some false), by decide +kernel, by decide +kernel, by decide +kernel, by rw [show rd (box 0x6001 (le 2 639 ++ [0, 0])).payload 0 2 = 639 by decide +kernel]; exact recState639, by decide +kernel⟩,
   ⟨(.host 0), (box 0x6002 (le 2 639 ++ le 2 65535 ++ [255, 240, 3, 0] ++ zs 240)), (asks 0x6002 (le 2 639 ++ le 2 65535 ++ [255,
     240, 3, 0] ++ zs 240)), by decide +kernel⟩,
   ⟨(.host 0), (box 0x6002 (le 2 255 ++ le 2 65535 ++ [255, 240, 1, 0] ++ zs 240)), (asks 0x6002 (le 2 255 ++ le 2 65535 ++ [255,
     240, 1, 0] ++ zs 240)), by decide +kernel⟩,
   ⟨(.host 0), (box 0x6002 (le 2 639 ++ le 2 65535 ++ [255, 240, 1, 0] ++ zs 240)), (asks 0x6002 (le 2 639 ++ le 2 65535 ++ [255,
     240, 1, 0] ++ zs 240)), by decide +kernel⟩,
   ⟨(.host 0), (box 0x6002 (le 2 639 ++ le 2 65535 ++ [255, 240, 3, 0] ++ zs 240)),
     { (asks 0x6002 (le 2 639 ++ le 2 65535 ++ [255, 240, 3, 0] ++ zs 240)) with kept := storing (openLedger []) },
     by decide +kernel⟩,
   ⟨(.host 0), (box 0x6003 (le 2 255 ++ [0, 0])), (asks 0x6003 (le 2 255 ++ [0, 0])), by decide +kernel⟩,
   ⟨(.host 0), (box 0x6003 (le 2 639 ++ [0, 0])), (asks 0x6003 (le 2 639 ++ [0, 0])), by decide +kernel⟩,
   ⟨(.host 0), (box 0x6004 ([1, 127, 0, 0] ++ le 4 65535)),
     { (asks 0x6004 ([1, 127, 0, 0] ++ le 4 65535)) with kept := counting }, counter127, by decide +kernel⟩⟩

theorem witness_ParamCommands_2 :
    (∃ (m : MbRef) (b : Mailbox) (s : State) (cd : CounterDef),
      Waits s 0x6004 m b ∧
      (resv b 3 1).2 = true ∧
      let op := byteAt b.payload 0
      let c := byteAt b.payload 1
      counterDef (s.live.counterDefs s.kept.counters) c = some cd ∧
      byteAt b.payload 2 = 0 ∧
      64 ≤ c ∧
      op = 2 ∧
      rd b.payload 4 4 = 0) ∧
    (∃ (m : MbRef) (b : Mailbox) (s : State) (cd : CounterDef),
      Waits s 0x6004 m b ∧
      (resv b 3 1).2 = true ∧
      let op := byteAt b.payload 0
      let c := byteAt b.payload 1
      counterDef (s.live.counterDefs s.kept.counters) c = some cd ∧
      byteAt b.payload 2 = 0 ∧
      64 ≤ c ∧
      op = 4 ∧
      rd b.payload 4 4 = 0) ∧
    (∃ (m : MbRef) (b : Mailbox) (s : State) (cd : CounterDef),
      Waits s 0x6004 m b ∧
      (resv b 3 1).2 = true ∧
      let op := byteAt b.payload 0
      let c := byteAt b.payload 1
      counterDef (s.live.counterDefs s.kept.counters) c = some cd ∧
      byteAt b.payload 2 = 0 ∧
      64 ≤ c ∧
      op = 0 ∧
      rd b.payload 4 4 = 0 ∧
      (counterCells s.kept.store cd).isEmpty = false) ∧
    (∃ (m : MbRef) (b : Mailbox) (s : State) (first : Nat),
      Waits s 0x6004 m b ∧
      (resv b 3 1).2 = true ∧
      let op := byteAt b.payload 0
      let c := byteAt b.payload 1
      counterDef (s.live.counterDefs s.kept.counters) c = none ∧
      op = 3 ∧
      inRange 4 64 (byteAt b.payload 2) = true ∧
      rd b.payload 4 4 = 0 ∧
      64 ≤ c ∧
      freeRun (s.live.counterDefs s.kept.counters) (byteAt b.payload 2) = some first) ∧
    (∃ (m : MbRef) (b : Mailbox) (s : State),
      Waits s 0x6004 m b ∧
      (resv b 3 1).2 = true ∧
      let op := byteAt b.payload 0
      let c := byteAt b.payload 1
      counterDef (s.live.counterDefs s.kept.counters) c = none ∧
      op = 1 ∧
      byteAt b.payload 2 = 0 ∧
      inRange 1 65535 (rd b.payload 4 4) = true) ∧
    (∃ (m : MbRef) (b : Mailbox) (s : State),
      Waits s 0x6005 m b ∧
      (resv b 1 1).2 = true ∧
      (resv b 6 2).2 = true ∧
      let op := byteAt b.payload 0
      op = 0) ∧
    (∃ (m : MbRef) (b : Mailbox) (s : State),
      Waits s 0x6005 m b ∧
      (resv b 1 1).2 = true ∧
      (resv b 6 2).2 = true ∧
      let op := byteAt b.payload 0
      let off := rd b.payload 2 2
      let n := rd b.payload 4 2
      op = 1 ∧
      inRange 1 480 n = true ∧
      off + n ≤ s.live.param.shadowApp) ∧
    (∃ (m : MbRef) (b : Mailbox) (s : State),
      Waits s 0x6005 m b ∧
      (resv b 1 1).2 = true ∧
      (resv b 6 2).2 = true ∧
      let op := byteAt b.payload 0
      let off := rd b.payload 2 2
      let n := rd b.payload 4 2
      op = 2 ∧
      inRange 1 480 n = true ∧
      off + n ≤ s.live.param.shadowApp) ∧
    (∃ (m : MbRef) (b : Mailbox) (s : State),
      Waits s 0x6005 m b ∧
      (resv b 1 1).2 = true ∧
      (resv b 6 2).2 = true ∧
      let op := byteAt b.payload 0
      let saving := s.live.param.active.any fun u => u.kind == .shadow
      op = 3 ∧
      saving = false) ∧
    (∃ (m : MbRef) (b : Mailbox) (s : State),
      Waits s 0x6005 m b ∧
      (resv b 1 1).2 = true ∧
      (resv b 6 2).2 = true ∧
      let op := byteAt b.payload 0
      let saving := s.live.param.active.any fun u => u.kind == .shadow
      op = 3 ∧
      saving = true) :=
  ⟨⟨(.host 0), (box 0x6004 ([2, 127, 0, 0] ++ le 4 0)), { (asks 0x6004 ([2, 127, 0, 0] ++ le 4 0)) with kept := counting },
    counter127, by decide +kernel⟩,
   ⟨(.host 0), (box 0x6004 ([4, 127, 0, 0] ++ le 4 0)), { (asks 0x6004 ([4, 127, 0, 0] ++ le 4 0)) with kept := counting },
     counter127, by decide +kernel⟩,
   ⟨(.host 0), (box 0x6004 ([0, 127, 0, 0] ++ le 4 0)), { (asks 0x6004 ([0, 127, 0, 0] ++ le 4 0)) with kept := counting },
     counter127, by decide +kernel⟩,
   ⟨(.host 0), (box 0x6004 ([3, 127, 64, 0] ++ le 4 0)), (asks 0x6004 ([3, 127, 64, 0] ++ le 4 0)), 256, by decide +kernel⟩,
   ⟨(.host 0), (box 0x6004 ([1, 127, 0, 0] ++ le 4 65535)), (asks 0x6004 ([1, 127, 0, 0] ++ le 4 65535)), by decide +kernel⟩,
   ⟨(.host 0), (box 0x6005 ([0, 0] ++ le 2 0 ++ le 2 0 ++ [0, 0])), (asks 0x6005 ([0, 0] ++ le 2 0 ++ le 2 0 ++ [0, 0])),
     by decide +kernel⟩,
   ⟨(.host 0), (box 0x6005 ([1, 0] ++ le 2 0 ++ le 2 480 ++ [0, 0])), (asks 0x6005 ([1, 0] ++ le 2 0 ++ le 2 480 ++ [0, 0]) (fun l
     => { l with param := { l.param with shadowApp := 480 } })), by decide +kernel⟩,
   ⟨(.host 0), (box 0x6005 ([2, 0] ++ le 2 0 ++ le 2 480 ++ [0, 0] ++ zs 480)), (asks 0x6005 ([2, 0] ++ le 2 0 ++ le 2 480 ++ [0,
     0] ++ zs 480) (fun l => { l with param := { l.param with shadowApp := 480 } })), by decide +kernel⟩,
   ⟨(.host 0), (box 0x6005 ([3, 0] ++ le 2 0 ++ le 2 0 ++ [0, 0])), (asks 0x6005 ([3, 0] ++ le 2 0 ++ le 2 0 ++ [0, 0])),
     by decide +kernel⟩,
   ⟨(.host 0), (box 0x6005 ([3, 0] ++ le 2 0 ++ le 2 0 ++ [0, 0])), (asks 0x6005 ([3, 0] ++ le 2 0 ++ le 2 0 ++ [0, 0]) (fun l =>
     { l with param := { l.param with active := some (unitOf .shadow) } })), by decide +kernel⟩⟩

theorem witness_ParamCommands_3 :
    (∃ (m : MbRef) (b : Mailbox) (s : State),
      Waits s 0x6005 m b ∧
      (resv b 1 1).2 = true ∧
      (resv b 6 2).2 = true ∧
      let op := byteAt b.payload 0
      let n := rd b.payload 4 2
      let saving := s.live.param.active.any fun u => u.kind == .shadow
      op = 4 ∧
      n ≤ 112 ∧
      saving = true) ∧
    (∃ (m : MbRef) (b : Mailbox) (s : State),
      Waits s 0x6005 m b ∧
      (resv b 1 1).2 = true ∧
      (resv b 6 2).2 = true ∧
      let op := byteAt b.payload 0
      let n := rd b.payload 4 2
      let saving := s.live.param.active.any fun u => u.kind == .shadow
      op = 4 ∧
      n ≤ 112 ∧
      saving = false) ∧
    (∃ (m : MbRef) (b : Mailbox) (s : State), Waits s 0x6006 m b) ∧
    (∃ (m : MbRef) (b : Mailbox) (s : State), Waits s 0x6007 m b ∧ byteAt b.payload 0 < 16 ∧ (resv b 1 3).2 = true) :=
  ⟨⟨(.host 0), (box 0x6005 ([4, 0] ++ le 2 0 ++ le 2 112 ++ [0, 0])), (asks 0x6005 ([4, 0] ++ le 2 0 ++ le 2 112 ++ [0, 0]) (fun l
    => { l with param := { l.param with active := some (unitOf .shadow) } })), by decide +kernel⟩,
   ⟨(.host 0), (box 0x6005 ([4, 0] ++ le 2 0 ++ le 2 112 ++ [0, 0])), (asks 0x6005 ([4, 0] ++ le 2 0 ++ le 2 112 ++ [0, 0])),
     by decide +kernel⟩,
   ⟨(.host 0), (box 0x6006 []), (asks 0x6006 []), by decide +kernel⟩,
   ⟨(.host 0), (box 0x6007 [15, 0, 0, 0]), (asks 0x6007 [15, 0, 0, 0]), by decide +kernel⟩⟩

theorem witness_UpdateCommands :
    (∃ (m : MbRef) (b : Mailbox) (s : State) (r : Reply),
      Waits s 0x6801 m b ∧
      let kind := byteAt b.payload 0
      let total := rd b.payload 4 4
      kind ≤ 2 ∧
      (resv b 1 3).2 = true ∧
      inRange 528 (largestLen kind) total = true ∧
      total % 16 = 0 ∧
      (resv b 12 4).2 = true ∧
      s.beginRefusal kind = some r) ∧
    (∃ (m : MbRef) (b : Mailbox) (s : State),
      Waits s 0x6801 m b ∧
      let kind := byteAt b.payload 0
      let total := rd b.payload 4 4
      kind ≤ 2 ∧
      (resv b 1 3).2 = true ∧
      inRange 528 (largestLen kind) total = true ∧
      total % 16 = 0 ∧
      (resv b 12 4).2 = true ∧
      s.beginRefusal kind = none) ∧
    (∃ (m : MbRef) (b : Mailbox) (s : State),
      Waits s 0x6802 m b ∧
      let p := b.payload
      let off := rd p 0 4
      let len := rd p 4 2
      let segOff := rd p 6 2
      let segLen := rd p 8 2
      off % 16 = 0 ∧
      inRange 16 4096 len = true ∧
      len % 16 = 0 ∧
      segOff + 16 ≤ len ∧
      segOff % 16 = 0 ∧
      inRange 16 480 segLen = true ∧
      segLen % 16 = 0 ∧
      segOff + segLen ≤ len ∧
      (resv b 10 2).2 = true ∧
      s.live.fwu.session = none) ∧
    (∃ (m : MbRef) (b : Mailbox) (s : State) (u : UpdSession),
      Waits s 0x6802 m b ∧
      let p := b.payload
      let off := rd p 0 4
      let len := rd p 4 2
      let segOff := rd p 6 2
      let segLen := rd p 8 2
      off % 16 = 0 ∧
      inRange 16 4096 len = true ∧
      len % 16 = 0 ∧
      segOff + 16 ≤ len ∧
      segOff % 16 = 0 ∧
      inRange 16 480 segLen = true ∧
      segLen % 16 = 0 ∧
      segOff + segLen ≤ len ∧
      (resv b 10 2).2 = true ∧
      s.live.fwu.session = some u ∧
      u.total < off + len) ∧
    (∃ (m : MbRef) (b : Mailbox) (s : State) (u : UpdSession),
      Waits s 0x6802 m b ∧
      let p := b.payload
      let off := rd p 0 4
      let len := rd p 4 2
      let segOff := rd p 6 2
      let segLen := rd p 8 2
      let crc := rd p 12 4
      off % 16 = 0 ∧
      inRange 16 4096 len = true ∧
      len % 16 = 0 ∧
      segOff + 16 ≤ len ∧
      segOff % 16 = 0 ∧
      inRange 16 480 segLen = true ∧
      segLen % 16 = 0 ∧
      segOff + segLen ≤ len ∧
      (resv b 10 2).2 = true ∧
      s.live.fwu.session = some u ∧
      off + len ≤ u.total ∧
      (off, len, crc) ∈ u.written) ∧
    (∃ (m : MbRef) (b : Mailbox) (s : State) (u : UpdSession),
      Waits s 0x6802 m b ∧
      let p := b.payload
      let off := rd p 0 4
      let len := rd p 4 2
      let segOff := rd p 6 2
      let segLen := rd p 8 2
      let crc := rd p 12 4
      off % 16 = 0 ∧
      inRange 16 4096 len = true ∧
      len % 16 = 0 ∧
      segOff + 16 ≤ len ∧
      segOff % 16 = 0 ∧
      inRange 16 480 segLen = true ∧
      segLen % 16 = 0 ∧
      segOff + segLen ≤ len ∧
      (resv b 10 2).2 = true ∧
      s.live.fwu.session = some u ∧
      off + len ≤ u.total ∧
      (off, len, crc) ∉ u.written ∧
      (∃ w ∈ u.written, w.1 < off + len ∧ off < w.1 + w.2.1)) ∧
    (∃ (m : MbRef) (b : Mailbox) (s : State) (u : UpdSession),
      Waits s 0x6802 m b ∧
      let p := b.payload
      let off := rd p 0 4
      let len := rd p 4 2
      let segOff := rd p 6 2
      let segLen := rd p 8 2
      let crc := rd p 12 4
      off % 16 = 0 ∧
      inRange 16 4096 len = true ∧
      len % 16 = 0 ∧
      segOff + 16 ≤ len ∧
      segOff % 16 = 0 ∧
      inRange 16 480 segLen = true ∧
      segLen % 16 = 0 ∧
      segOff + segLen ≤ len ∧
      (resv b 10 2).2 = true ∧
      s.live.fwu.session = some u ∧
      off + len ≤ u.total ∧
      (off, len, crc) ∉ u.written ∧
      (∀ w ∈ u.written, off + len ≤ w.1 ∨ w.1 + w.2.1 ≤ off)) ∧
    (∃ (u : UpdSession) (len crc : Nat) (data : List Byte), u.buf = none ∧ data.length = len ∧ len % 16 = 0 ∧ (crc32 data).toNat =
      crc) ∧
    (∃ (m : MbRef) (b : Mailbox) (s : State), Waits s 0x6803 m b ∧ byteAt b.payload 0 ≤ 1 ∧ (resv b 1 3).2 = true ∧
      s.live.fwu.session = none) ∧
    (∃ (m : MbRef) (b : Mailbox) (s : State) (u : UpdSession) (d : Nat), Waits s 0x6803 m b ∧ byteAt b.payload 0 ≤ 1 ∧ (resv b 1
      3).2 = true ∧ s.live.fwu.session = some u ∧ endFault s.kept.flash u = some d) :=
  ⟨⟨(.host 0), (box 0x6801 ([2, 0, 0, 0] ++ le 4 4194304 ++ le 4 0 ++ zs 4)), (asks 0x6801 ([2, 0, 0, 0] ++ le 4 4194304 ++ le 4 0
    ++ zs 4)), (refuse .locked), by decide +kernel⟩,
   ⟨(.host 0), (box 0x6801 ([0, 0, 0, 0] ++ le 4 1572864 ++ le 4 0 ++ zs 4)), (asks 0x6801 ([0, 0, 0, 0] ++ le 4 1572864 ++ le 4 0
     ++ zs 4) (fun l => l.setFwu fun f => { f with cfg := { f.cfg with noMotion := true } })), by decide +kernel⟩,
   ⟨(.host 0), (box 0x6802 (le 4 0 ++ le 2 4096 ++ le 2 3616 ++ le 2 480 ++ [0, 0] ++ le 4 7 ++ zs 480)), (asks 0x6802 (le 4 0 ++
     le 2 4096 ++ le 2 3616 ++ le 2 480 ++ [0, 0] ++ le 4 7 ++ zs 480)), by decide +kernel⟩,
   ⟨(.host 0), (box 0x6802 (le 4 0 ++ le 2 4096 ++ le 2 3616 ++ le 2 480 ++ [0, 0] ++ le 4 7 ++ zs 480)), (asks 0x6802 (le 4 0 ++
     le 2 4096 ++ le 2 3616 ++ le 2 480 ++ [0, 0] ++ le 4 7 ++ zs 480) (fun l => inSession { session0 [] with total := 4095 } l)),
     { session0 [] with total := 4095 }, by decide +kernel⟩,
   ⟨(.host 0), (box 0x6802 (le 4 0 ++ le 2 4096 ++ le 2 3616 ++ le 2 480 ++ [0, 0] ++ le 4 7 ++ zs 480)), (asks 0x6802 (le 4 0 ++
     le 2 4096 ++ le 2 3616 ++ le 2 480 ++ [0, 0] ++ le 4 7 ++ zs 480) (fun l => inSession (session0 [(0, 4096, 7)]) l)),
     (session0 [(0, 4096, 7)]), by decide +kernel⟩,
   ⟨(.host 0), (box 0x6802 (le 4 0 ++ le 2 4096 ++ le 2 3616 ++ le 2 480 ++ [0, 0] ++ le 4 7 ++ zs 480)), (asks 0x6802 (le 4 0 ++
     le 2 4096 ++ le 2 3616 ++ le 2 480 ++ [0, 0] ++ le 4 7 ++ zs 480) (fun l => inSession (session0 [(4095, 16, 7)]) l)),
     (session0 [(4095, 16, 7)]), by decide +kernel⟩,
   ⟨(.host 0), (box 0x6802 (le 4 0 ++ le 2 4096 ++ le 2 3616 ++ le 2 480 ++ [0, 0] ++ le 4 7 ++ zs 480)), (asks 0x6802 (le 4 0 ++
     le 2 4096 ++ le 2 3616 ++ le 2 480 ++ [0, 0] ++ le 4 7 ++ zs 480) (fun l => inSession (session0 [(4096, 16, 7)]) l)),
     (session0 [(4096, 16, 7)]), by decide +kernel⟩,
   ⟨(session0 []), 16, (crc32 (zs 16)).toNat, (zs 16), by decide +kernel⟩,
   ⟨(.host 0), (box 0x6803 [1, 0, 0, 0]), (asks 0x6803 [1, 0, 0, 0]), by decide +kernel⟩,
   ⟨(.host 0), (box 0x6803 [1, 0, 0, 0]), (asks 0x6803 [1, 0, 0, 0] (fun l => inSession (session0 []) l)), (session0 []), 1,
     by decide +kernel⟩⟩

theorem witness_UpdateCommands_2 :
    (∃ (m : MbRef) (b : Mailbox) (s : State) (u : UpdSession), Waits s 0x6803 m b ∧ byteAt b.payload 0 ≤ 1 ∧ (resv b 1 3).2 = true
      ∧ s.live.fwu.session = some u ∧ endFault s.kept.flash u = none) ∧
    (∃ (m : MbRef) (b : Mailbox) (s : State), Waits s 0x6804 m b ∧ (resv b 0 4).2 = true ∧ s.live.fwu.session = none ∧
      s.kept.updPending = none) ∧
    (∃ (m : MbRef) (b : Mailbox) (s : State), Waits s 0x6804 m b ∧ (resv b 0 4).2 = true ∧ (s.live.fwu.session ≠ none ∨
      s.kept.updPending ≠ none)) ∧
    (∃ (m : MbRef) (b : Mailbox) (s : State), Waits s 0x6805 m b) ∧
    (∃ (m : MbRef) (b : Mailbox) (s : State),
      Waits s 0x6806 m b ∧
      let p := b.payload
      inRange 18000 28000 (rd p 0 2) = true ∧
      byteAt p 2 ≤ 3 ∧
      (byteAt p 3 ≤ 63 ∨ byteAt p 3 = 0xFF) ∧
      (resv b 4 4).2 = true ∧
      (byteAt p 3 ≠ 0xFF → s.ownerSlotCheck m (byteAt p 3) = none)) ∧
    (∃ (m : MbRef) (b : Mailbox) (s : State),
      Waits s 0x0103 m b ∧
      byteAt b.payload 0 ≤ 1 ∧
      (resv b 1 3).2 = true ∧
      let kind := byteAt b.payload 0
      s.kept.assay ≠ some kind) ∧
    (∃ (m : MbRef) (b : Mailbox) (s : State),
      Waits s 0x0103 m b ∧
      byteAt b.payload 0 ≤ 1 ∧
      (resv b 1 3).2 = true ∧
      let kind := byteAt b.payload 0
      s.kept.assay = some kind ∧
      s.assayExpired = true) ∧
    (∃ (m : MbRef) (b : Mailbox) (s : State),
      Waits s 0x0103 m b ∧
      byteAt b.payload 0 ≤ 1 ∧
      (resv b 1 3).2 = true ∧
      let kind := byteAt b.payload 0
      s.kept.assay = some kind ∧
      s.assayExpired = false ∧
      (kind = 0 → s.startCheck = true)) ∧
    (∃ (s : State), s.live.pwr.mode = .run ∧ s.live.sup.phase = .running ∧ (∀ g, s.live.fwu.gate = some g → g.mt + ms 10 ≤
      s.live.mt.now)) ∧
    (∃ (u : UpdSession) (s : State), s.live.sup.phase = .running ∧ s.live.fwu.session = some u ∧ u.lastBlock + ms 60000 ≤
      s.live.mt.now) :=
  ⟨⟨(.host 0), (box 0x6803 [1, 0, 0, 0]),
    { (asks 0x6803 [1, 0, 0, 0] (fun l => inSession session2 l)) with kept := { on.kept with flash := staged2 } }, session2,
    by decide +kernel, by decide +kernel, by decide +kernel, asks_session _ _ _ _, endFault2⟩,
   ⟨(.host 0), (box 0x6804 (zs 4)), (asks 0x6804 (zs 4)), by decide +kernel⟩,
   ⟨(.host 0), (box 0x6804 (zs 4)), (asks 0x6804 (zs 4) (fun l => inSession (session0 []) l)), by decide +kernel⟩,
   ⟨(.host 0), (box 0x6805 []), (asks 0x6805 []), by decide +kernel⟩,
   ⟨(.host 0), (box 0x6806 (le 2 28000 ++ [3, 63, 0, 0, 0, 0])), (asks 0x6806 (le 2 28000 ++ [3, 63, 0, 0, 0, 0])),
     by decide +kernel⟩,
   ⟨(.host 0), (box 0x0103 [1, 0, 0, 0]), (asks 0x0103 [1, 0, 0, 0]), by decide +kernel⟩,
   ⟨(.host 0), (box 0x0103 [1, 0, 0, 0]),
     { (asks 0x0103 [1, 0, 0, 0] (fun l => l.setFwu fun f => { f with expired := true })) with kept := storing store17 },
     by decide +kernel, by decide +kernel, by decide +kernel, assay17 _ rfl, by decide +kernel⟩,
   ⟨(.host 0), (box 0x0103 [1, 0, 0, 0]),
     { (asks 0x0103 [1, 0, 0, 0] (fun l => { l with sup := { l.sup with adopted := [true, true] } })) with kept := storing store17 },
     by decide +kernel, by decide +kernel, by decide +kernel, assay17 _ rfl, by decide +kernel, by decide +kernel⟩,
   ⟨on, by decide +kernel⟩,
   ⟨(session0 []), (onWith fun l => inSession (session0 []) l), by decide +kernel⟩⟩

theorem witness_UpdateCommands_3 :
    (∃ (kind : Nat) (s : State), s.kept.assay = some kind ∧ s.live.pwr.mode = .run ∧ ms 10000 ≤ s.live.countTime.fwu.runPart) :=
  ⟨1, { (onWith fun l => l.setFwu fun f => { f with runPart := ms 10000 }) with kept := storing store17 }, assay17 _ rfl,
    by decide +kernel, by decide +kernel⟩

theorem witness_DvorgilAlu :
    (∃ (p : Prefixes) (b : AluOperand) (s : State) (u : PfxUse) (next v : Nat),
      let c := s.live.f1
      Fetches s p b.len allowAluSat u next ∧
      aluValue c.k u.bits .signed b = some v) ∧
    (∃ (p : Prefixes) (b : AluOperand) (s : State) (u : PfxUse) (next v : Nat),
      let c := s.live.f1
      Fetches s p b.len allowSize u next ∧
      aluValue c.k u.bits .signed b = some v) ∧
    (∃ (p : Prefixes) (b : AluOperand) (s : State) (u : PfxUse) (next v : Nat),
      let c := s.live.f1
      Fetches s p b.len allowSize u next ∧
      aluValue c.k u.bits .zero b = some v) ∧
    (∃ (p : Prefixes) (b : AluOperand) (s : State) (u : PfxUse) (next v : Nat),
      let c := s.live.f1
      Fetches s p b.len allowSize u next ∧
      aluValue c.k u.bits .count b = some v) ∧
    (∃ (p : Prefixes) (s : State) (u : PfxUse) (next : Nat), Fetches s p 2 allowSize u next) ∧
    (∃ (p : Prefixes) (s : State) (u : PfxUse) (next : Nat), Fetches s p 2 allowAluSat u next) ∧
    (∃ (p : Prefixes) (s : State) (u : PfxUse) (next : Nat), Fetches s p 2 allowExtend u next) ∧
    (∃ (p : Prefixes) (b : KReg) (s : State) (u : PfxUse) (next : Nat),
      let c := s.live.f1
      Fetches s p 2 allowNone u next ∧
      c.reg b ≠ 0) ∧
    (∃ (p : Prefixes) (s : State) (u : PfxUse) (next : Nat),
      Fetches s p 2 allowNone u next) ∧
    (∃ (s : State) (a : KReg),
      ↑a < s.live.f1.k.length) :=
  ⟨⟨[0xE0, 0xE3], (.imm .i1 0x80), (coreAt (core0 0xFFF80)), (use_ 8 false true false), 0x180005, 128, by decide +kernel⟩,
   ⟨[0xE1], (.imm .i1 0x80), (coreAt (core0 0xFFF80)), (use_ 16 false false false), 0x180004, 65408, by decide +kernel⟩,
   ⟨[0xE1], (.imm .i1 0x80), (coreAt (core0 0xFFF80)), (use_ 16 false false false), 0x180004, 128, by decide +kernel⟩,
   ⟨[0xE1], (.imm .i1 0x3F), (coreAt (core0 0xFFF80)), (use_ 16 false false false), 0x180004, 31, by decide +kernel⟩,
   ⟨[0xE0], (coreAt (core0 0xFFF80)), (use_ 8 false false false), 0x180003, by decide +kernel⟩,
   ⟨[0xE3], (coreAt (core0 0xFFF80)), (use_ 32 false true false), 0x180003, by decide +kernel⟩,
   ⟨[0xE1], (coreAt (core0 0xFFF80)), (use_ 16 false false false), 0x180003, by decide +kernel⟩,
   ⟨[], 5, (coreAt (core0 0xFFF80)), (use_ 32 false false false), 0x180002, by decide +kernel⟩,
   ⟨[], (coreAt (core0 0xFFF80)), (use_ 32 false false false), 0x180002, by decide +kernel⟩,
   ⟨on, 15, by decide +kernel⟩⟩

theorem witness_DvorgilAlu_2 :
    ∃ (a j : KReg),
      j ≠ a :=
  ⟨0, 15, by decide +kernel⟩

theorem witness_DvorgilArithmetic :
    (∃ (n x v cin : Nat), (n = 8 ∨ n = 16 ∨ n = 32) ∧ x < 2 ^ n ∧ v < 2 ^ n ∧ cin ≤ 1) ∧
    (∃ (n x k : Nat), (n = 8 ∨ n = 16 ∨ n = 32) ∧ x < 2 ^ n ∧ k < 32 ∧ k = 0) ∧
    (∃ (n x k : Nat), (n = 8 ∨ n = 16 ∨ n = 32) ∧ x < 2 ^ n ∧ k < 32 ∧ 1 ≤ k ∧ k ≤ n) ∧
    (∃ (n x k : Nat), (n = 8 ∨ n = 16 ∨ n = 32) ∧ x < 2 ^ n ∧ k < 32 ∧ k % n = 0) ∧
    (∃ (x y : Nat), x < 2 ^ 32 ∧ y < 2 ^ 32 ∧ y ≠ 0 ∧ (x ≠ 2 ^ 31 ∨ y ≠ 2 ^ 32 - 1)) ∧
    (∃ (n x k : Nat),
      (n = 8 ∨ n = 16 ∨ n = 32) ∧ x < 2 ^ n ∧ k < 32) ∧
    (∃ (x y : Nat),
      x < 2 ^ 32 ∧ y < 2 ^ 32 ∧ y ≠ 0) :=
  ⟨⟨8, 255, 255, 1, by decide +kernel⟩,
   ⟨8, 255, 0, by decide +kernel⟩,
   ⟨8, 255, 8, by decide +kernel⟩,
   ⟨8, 255, 16, by decide +kernel⟩,
   ⟨2 ^ 31, 1, by decide +kernel⟩,
   ⟨32, 0xFFFFFFFF, 31, by decide +kernel⟩,
   ⟨0xFFFFFFFF, 1, by decide +kernel⟩⟩

theorem witness_DvorgilMemory :
    (∃ (p : Prefixes) (b : KReg) (dsz : DispSize) (disp : Word) (s : State) (u : PfxUse) (next : Nat),
      let c := s.live.f1
      let ad := dispAddr (c.reg b) dsz disp
      Fetches s p (2 + dsz.len) allowLd u next ∧
      ad % (u.bits / 8) = 0 ∧
      inDataSpace ad = true ∧
      u.lock = false) ∧
    (∃ (p : Prefixes) (b : KReg) (dsz : DispSize) (disp : Word) (s : State) (u : PfxUse) (next : Nat),
      let c := s.live.f1
      let ad := dispAddr (c.reg b) dsz disp
      Fetches s p (2 + dsz.len) allowLd u next ∧
      ad % (u.bits / 8) = 0 ∧
      inDataSpace ad = true ∧
      u.lock = true) ∧
    (∃ (p : Prefixes) (b : KReg) (dsz : DispSize) (disp : Word) (s : State) (u : PfxUse) (next : Nat),
      let c := s.live.f1
      let ad := dispAddr (c.reg b) dsz disp
      Fetches s p (2 + dsz.len) allowExtend u next ∧
      ad % (u.bits / 8) = 0 ∧
      inDataSpace ad = true) ∧
    (∃ (p : Prefixes) (b : KReg) (dsz : DispSize) (disp : Word) (s : State) (u : PfxUse) (next : Nat),
      let c := s.live.f1
      let ad := dispAddr (c.reg b) dsz disp
      Fetches s p (2 + dsz.len) allowSize u next ∧
      ad % (u.bits / 8) = 0 ∧
      inLdcSpace ad = true ∧
      inLdcSpace (ad + u.bits / 8 - 1) = true) ∧
    (∃ (p : Prefixes) (b : KReg) (dsz : DispSize) (disp : Word) (s : State) (u : PfxUse) (next : Nat),
      let c := s.live.f1
      let ad := dispAddr (c.reg b) dsz disp
      Fetches s p (2 + dsz.len) allowSt u next ∧
      u.lock = true ∧
      ad % 4 = 0 ∧
      inDataSpace ad = true) ∧
    (∃ (p : Prefixes) (b : KReg) (dsz : DispSize) (disp : Word) (s : State) (u : PfxUse) (next : Nat),
      let c := s.live.f1
      let ad := dispAddr (c.reg b) dsz disp
      Fetches s p (2 + dsz.len) allowSt u next ∧
      u.lock = false ∧
      u.rep = false ∧
      ad % (u.bits / 8) = 0 ∧
      inDataSpace ad = true) ∧
    (∃ (p : Prefixes) (dsz : DispSize) (s : State) (u : PfxUse) (next : Nat),
      let c := s.live.f1
      Fetches s p (2 + dsz.len) allowSt u next ∧
      u.lock = false ∧
      u.rep = true ∧
      c.reg 2 = 0) ∧
    (∃ (p : Prefixes) (b : KReg) (dsz : DispSize) (disp : Word) (s : State) (u : PfxUse) (next : Nat),
      let c := s.live.f1
      let ad := dispAddr (c.reg b) dsz disp
      Fetches s p (2 + dsz.len) allowSt u next ∧
      u.lock = false ∧
      u.rep = true ∧
      c.reg 2 ≠ 0 ∧
      ad % (u.bits / 8) = 0 ∧
      inDataSpace ad = true) ∧
    (∃ (p : Prefixes) (dsz : DispSize) (isz : ImmSize) (s : State) (u : PfxUse) (next : Nat), Fetches s p (2 + dsz.len + isz.len)
      allowCopy u next ∧ isz.len ≤ u.bits / 8 ∧ u.rep = true ∧ s.live.f1.reg 2 = 0) ∧
    (∃ (p : Prefixes) (b : KReg) (dsz : DispSize) (disp : Word) (isz : ImmSize) (s : State) (u : PfxUse) (next : Nat),
      let ad := dispAddr (s.live.f1.reg b) dsz disp
      Fetches s p (2 + dsz.len + isz.len) allowCopy u next ∧
      isz.len ≤ u.bits / 8 ∧
      ad % (u.bits / 8) = 0 ∧
      inDataSpace ad = true ∧
      u.rep = false) :=
  ⟨⟨[0xE0], 5, .d1, 0x7F, (coreAt (core0 0xFFF80)), (use_ 8 false false false), 0x180004, by decide +kernel⟩,
   ⟨[0xE2], 5, .d1, 0x7C, (coreAt (core0 0xFFF80)), (use_ 32 true false false), 0x180004, by decide +kernel⟩,
   ⟨[0xE1], 5, .d1, 0x7E, (coreAt (core0 0xFFF80)), (use_ 16 false false false), 0x180004, by decide +kernel⟩,
   ⟨[0xE0], 5, .d1, 0x7F, (coreAt (core0 0x3FFF80)), (use_ 8 false false false), 0x180004, by decide +kernel⟩,
   ⟨[0xE2], 5, .d1, 0x7C, (coreAt (core0 0xFFF80)), (use_ 32 true false false), 0x180004, by decide +kernel⟩,
   ⟨[0xE0], 5, .d1, 0x7F, (coreAt (core0 0xFFF80)), (use_ 8 false false false), 0x180004, by decide +kernel⟩,
   ⟨[0xE4], .d1, (coreAt (core0 0xFFF80)), (use_ 32 false false true), 0x180004, by decide +kernel⟩,
   ⟨[0xE4], 5, .d1, 0x7C, (coreAt (core0 0xFFF80 1)), (use_ 32 false false true), 0x180004, by decide +kernel⟩,
   ⟨[0xE4], .d4, .i4, (coreAt (core0 0xFFF80)), (use_ 32 false false true), 0x18000B, by decide +kernel⟩,
   ⟨[], 5, .d4, 0x7C, .i4, (coreAt (core0 0xFFF80)), (use_ 32 false false false), 0x18000A, by decide +kernel⟩⟩

theorem witness_DvorgilMemory_2 :
    (∃ (p : Prefixes) (b : KReg) (dsz : DispSize) (disp : Word) (isz : ImmSize) (s : State) (u : PfxUse) (next : Nat),
      let ad := dispAddr (s.live.f1.reg b) dsz disp
      Fetches s p (2 + dsz.len + isz.len) allowCopy u next ∧
      isz.len ≤ u.bits / 8 ∧
      ad % (u.bits / 8) = 0 ∧
      inDataSpace ad = true ∧
      u.rep = true ∧
      s.live.f1.reg 2 ≠ 0) ∧
    (∃ (p : Prefixes) (s : State) (u : PfxUse) (next : Nat), Fetches s p 6 allowNone u next) ∧
    (∃ (p : Prefixes) (b : KReg) (s : State) (u : PfxUse) (next : Nat),
      let c := s.live.f1
      let src := (c.reg b).toNat
      Fetches s p 2 allowNone u next ∧
      src % 4 = 0 ∧
      inDataSpace src = true) ∧
    (∃ (p : Prefixes) (a b : KReg) (s : State) (u : PfxUse) (next : Nat),
      let c := s.live.f1
      let src := (c.reg b).toNat
      let dst := (c.reg a).toNat
      let n := u.bits / 8
      Fetches s p 2 allowCopy u next ∧
      dst % n = 0 ∧
      inDataSpace dst = true ∧
      src % n = 0 ∧
      inDataSpace src = true ∧
      u.rep = false) ∧
    (∃ (p : Prefixes) (a b : KReg) (s : State) (u : PfxUse) (next : Nat),
      let c := s.live.f1
      let src := (c.reg b).toNat
      let dst := (c.reg a).toNat
      let n := u.bits / 8
      Fetches s p 2 allowCopy u next ∧
      dst % n = 0 ∧
      inDataSpace dst = true ∧
      src % n = 0 ∧
      inDataSpace src = true ∧
      u.rep = true ∧
      c.reg 2 ≠ 0) ∧
    (∃ (p : Prefixes) (a b : KReg) (s : State) (u : PfxUse) (next : Nat),
      let c := s.live.f1
      let src := (c.reg b).toNat
      let dst := (c.reg a).toNat
      let n := u.bits / 8
      Fetches s p 2 allowCopy u next ∧
      dst % n = 0 ∧
      inDataSpace dst = true ∧
      inLdcSpace src = true ∧
      inLdcSpace (src + n - 1) = true ∧
      u.rep = false) ∧
    (∃ (p : Prefixes) (a b : KReg) (s : State) (u : PfxUse) (next : Nat),
      let c := s.live.f1
      let src := (c.reg b).toNat
      let dst := (c.reg a).toNat
      let n := u.bits / 8
      Fetches s p 2 allowCopy u next ∧
      dst % n = 0 ∧
      inDataSpace dst = true ∧
      inLdcSpace src = true ∧
      inLdcSpace (src + n - 1) = true ∧
      u.rep = true ∧
      c.reg 2 ≠ 0) ∧
    (∃ (p : Prefixes) (s : State) (u : PfxUse) (next : Nat),
      let c := s.live.f1
      let sp := (c.reg 0).toNat
      Fetches s p 2 allowNone u next ∧
      sp % 4 = 0 ∧
      4 ≤ sp ∧
      c.dsLo ≤ sp - 4 ∧
      inDataSpace (sp - 4) = true) ∧
    (∃ (p : Prefixes) (s : State) (u : PfxUse) (next : Nat),
      let c := s.live.f1
      let sp := (c.reg 0).toNat
      Fetches s p 2 allowNone u next ∧
      sp % 4 = 0 ∧
      sp + 4 ≤ c.dsHi ∧
      inDataSpace sp = true) ∧
    (∃ (p : Prefixes) (s : State) (u : PfxUse) (next : Nat),
      let c := s.live.f1
      Fetches s p 2 allowNone u next ∧
      c.rsLim + 4 ≤ c.rsp) :=
  ⟨⟨[0xE4], 5, .d4, 0x7C, .i4, (coreAt (core0 0xFFF80 1)), (use_ 32 false false true), 0x18000B, by decide +kernel⟩,
   ⟨[], (coreAt (core0 0xFFF80)), (use_ 32 false false false), 0x180006, by decide +kernel⟩,
   ⟨[], 5, (coreAt (core0 0xFFF80)), (use_ 32 false false false), 0x180002, by decide +kernel⟩,
   ⟨[0xE0], 4, 5, (coreAt (core0 0xFFF80)), (use_ 8 false false false), 0x180003, by decide +kernel⟩,
   ⟨[0xE4], 4, 5, (coreAt (core0 0xFFF80 1)), (use_ 32 false false true), 0x180003, by decide +kernel⟩,
   ⟨[0xE0], 4, 5, (coreAt (core0 0x3FFFFF)), (use_ 8 false false false), 0x180003, by decide +kernel⟩,
   ⟨[0xE4], 4, 5, (coreAt (core0 0x3FFFFC 1)), (use_ 32 false false true), 0x180003, by decide +kernel⟩,
   ⟨[], (coreAt (core0 0xFFF80)), (use_ 32 false false false), 0x180002, by decide +kernel⟩,
   ⟨[], (coreAt (core0 0xFFF80)), (use_ 32 false false false), 0x180002, by decide +kernel⟩,
   ⟨[], (coreAt (core0 0xFFF80)), (use_ 32 false false false), 0x180002, by decide +kernel⟩⟩

theorem witness_DvorgilMemory_3 :
    (∃ (p : Prefixes) (s : State) (u : PfxUse) (next : Nat) (w : Word) (rest : List (Word × Bool)),
      let c := s.live.f1
      Fetches s p 2 allowNone u next ∧
      c.rs = (w, false) :: rest) ∧
    (∃ (p : Prefixes) (imm : BitVec 8) (s : State) (u : PfxUse) (next : Nat) (w : Word) (tag : Bool), Fetches s p 3 allowNone u
      next ∧ s.live.f1.rs[(imm : BitVec 8).toNat]? = some (w, tag)) ∧
    (∃ (c : F1State), Memory.wf 0 c.dmem = true) ∧
    (∃ (p : Prefixes) (s : State) (u : PfxUse) (next : Nat) (imm : BitVec 8) (slot : CrcSlot),
      imm.toNat ≤ 3 ∧ s.live.f1.crc[imm.toNat]? = some slot ∧ Fetches s p 3 allowCrc u next ∧ u.rep = false) ∧
    (∃ (p : Prefixes) (b : KReg) (s : State) (u : PfxUse) (next : Nat) (imm : BitVec 8) (slot : CrcSlot),
      imm.toNat ≤ 3 ∧ s.live.f1.crc[imm.toNat]? = some slot ∧ Fetches s p 3 allowCrc u next ∧ u.rep = true ∧ s.live.f1.reg 2 ≠ 0
      ∧ BitVec.toNat (s.live.f1.reg b) % (u.bits / 8) = 0 ∧ inDataSpace (BitVec.toNat (s.live.f1.reg b)) = true) ∧
    (∃ (p : Prefixes) (s : State) (u : PfxUse) (next : Nat),
      Fetches s p 2 allowNone u next) ∧
    (∃ (c : F1State) (a n k : Nat),
      Memory.wf 0 c.dmem = true ∧ (k < a ∨ a + n ≤ k)) :=
  ⟨⟨[], (coreAt { core0 0 with rs := [(7, false)] }), (use_ 32 false false false), 0x180002, 7, [], by decide +kernel⟩,
   ⟨[], 1, (coreAt { core0 0 with rs := [(5, false), (7, true)] }), (use_ 32 false false false), 0x180003, 7, true,
     by decide +kernel⟩,
   ⟨(core0 0), by decide +kernel⟩,
   ⟨[0xE0], (coreAt (core0 0xFFF80)), (use_ 8 false false false), 0x180004, 3,
     { poly := 0x1EDC6F41, reflect := true, width := 2 }, by decide +kernel⟩,
   ⟨[0xE0, 0xE4], 5, (coreAt (core0 0xFFF80 1)), (use_ 8 false false true), 0x180005, 3,
     { poly := 0x1EDC6F41, reflect := true, width := 2 }, by decide +kernel⟩,
   ⟨[], (coreAt (core0 0)), (use_ 32 false false false), 0x180002, by decide +kernel⟩,
   ⟨on.live.f1, 0x1000, 4, 0xFFF, by decide +kernel⟩⟩

theorem witness_DvorgilControl :
    (∃ (p : Prefixes) (s : State) (u : PfxUse) (next : Nat), Fetches s p 1 allowNone u next) ∧
    (∃ (p : Prefixes) (n : BitVec 8) (s : State) (u : PfxUse) (next : Nat), Fetches s p 2 allowNone u next ∧ n.toNat ≤ 15) ∧
    (∃ (p : Prefixes) (wide : Bool) (s : State) (u : PfxUse) (next : Nat), Fetches s p (if wide then 3 else 2) allowNone u next) ∧
    (∃ (p : Prefixes) (t : JumpTarget) (s : State) (u : PfxUse) (next : Nat), Fetches s p t.len allowNone u next) ∧
    (∃ (p : Prefixes) (t : CallTarget) (mask : BitVec 16) (s : State) (u : PfxUse) (next : Nat), Fetches s p t.len allowNone u
      next ∧ s.live.f1.rsLim + 8 + 4 * popcount 16 (mask : BitVec 16).toNat ≤ s.live.f1.rsp) ∧
    (∃ (p : Prefixes) (s : State) (u : PfxUse) (next : Nat) (c0 : F1State) (kind ret : Nat) (rest : List (Word × Bool)), Fetches s
      p 1 allowNone u next ∧ (kind = 1 ∨ kind = 2) ∧ c0.k.length = 16 ∧ s.live.f1.k.length = 16 ∧ c0.rpl < 8 ∧ ret < 2 ^ 24 ∧
      s.live.f1.rs = c0.entryFrame kind ret ++ rest) ∧
    (∃ (s : State) (vector target : Nat),
      let c := s.live.f1
      c.vbar ≠ 0 ∧
      c.rsLim + 72 ≤ c.rsp ∧
      vectorTarget s.kept.flash c.vbar vector = some target) ∧
    (∃ (s : State),
      let c := s.live.f1
      c.vbar = 0) ∧
    (∃ (line target : Nat) (s : State), s.live.f1.run = .running ∧ s.live.f1.ie = true ∧ s.live.nextLine = some line ∧
      s.live.f1.rsLim + 72 ≤ s.live.f1.rsp ∧ vectorTarget s.kept.flash s.live.f1.vbar (16 + line) = some target) ∧
    (∃ (s : State), s.live.f1.run = .running ∧ (s.live.f1.waiting = true → s.live.irqWakes = true) ∧ inAppSlot s.live.f1.pc =
      false) :=
  ⟨⟨[], (coreAt (core0 0xFFF80)), (use_ 32 false false false), 0x180001, by decide +kernel⟩,
   ⟨[], 15, (coreAt (core0 0xFFF80)), (use_ 32 false false false), 0x180002, by decide +kernel⟩,
   ⟨[], true, (coreAt (core0 0xFFF80)), (use_ 32 false false false), 0x180003, by decide +kernel⟩,
   ⟨[], (.rel 0), (coreAt (core0 0xFFF80)), (use_ 32 false false false), 0x180005, by decide +kernel⟩,
   ⟨[], (.rel4 0), 0xFFFF, (coreAt (core0 0xFFF80)), (use_ 32 false false false), 0x180007, by decide +kernel⟩,
   ⟨[], (coreAt { core0 0 with rs := (core0 0).entryFrame 2 0xFFFFFF }), (use_ 32 false false false), 0x180001, (core0 0), 2,
     0xFFFFFF, [], by decide +kernel⟩,
   ⟨{ coreAt { core0 0 with vbar := 0x180100 } with kept := { on.kept with flash := [(0x180108, 0), (0x180109, 0), (0x18010A, 0x18)] } },
     2, 0x180000, by decide +kernel⟩,
   ⟨(coreAt (core0 0)), by decide +kernel⟩,
   ⟨9, 0x180000,
     { coreAt { core0 0 with vbar := 0x180100, ie := true, edgePend := 2 ^ 9, irqEn := 2 ^ 9 } with kept := { on.kept with flash := [(0x180164, 0), (0x180165, 0), (0x180166, 0x18)] } },
     by decide +kernel⟩,
   ⟨(coreAt { core0 0 with pc := 0x17FFFF }), by decide +kernel⟩⟩

theorem witness_DvorgilControl_2 :
    (∃ (p : Prefixes) (b : AluOperand) (s : State), s.live.f1.run = .running ∧ (s.live.f1.waiting = true → s.live.irqWakes = true)
      ∧ inAppSlot s.live.f1.pc = true ∧ inAppSlot (s.live.f1.pc + p.length + b.len - 1) = true ∧ usePrefixes allowAluSat p = none)
      ∧
    (∃ (p : Prefixes) (b : AluOperand) (s : State) (u : PfxUse) (next : Nat), Fetches s p (AluOperand.len b) allowAluSat u next ∧
      aluValue s.live.f1.k u.bits .signed b = none) ∧
    (∃ (p : Prefixes) (b : KReg) (s : State) (u : PfxUse) (next : Nat), Fetches s p 2 allowNone u next ∧ s.live.f1.reg b = 0) ∧
    (∃ (p : Prefixes) (b : KReg) (dsz : DispSize) (disp : Word) (s : State) (u : PfxUse) (next : Nat),
      Fetches s p (2 + DispSize.len dsz) allowLd u next ∧
      let ad := dispAddr (s.live.f1.reg b) dsz disp
      ad % (u.bits / 8) ≠ 0) ∧
    (∃ (p : Prefixes) (b : KReg) (dsz : DispSize) (disp : Word) (s : State) (u : PfxUse) (next : Nat),
      Fetches s p (2 + DispSize.len dsz) allowLd u next ∧
      let ad := dispAddr (s.live.f1.reg b) dsz disp
      ad % (u.bits / 8) = 0 ∧
      inDataSpace ad = false) ∧
    (∃ (p : Prefixes) (s : State) (u : PfxUse) (next : Nat), Fetches s p 2 allowNone u next ∧ s.live.f1.rsp < s.live.f1.rsLim + 4)
      ∧
    (∃ (p : Prefixes) (s : State) (u : PfxUse) (next : Nat), Fetches s p 2 allowNone u next ∧ s.live.f1.rs = []) ∧
    (∃ (p : Prefixes) (s : State) (u : PfxUse) (next : Nat) (w : Word) (rest : List (Word × Bool)), Fetches s p 2 allowNone u next
      ∧ s.live.f1.rs = (w, true) :: rest) ∧
    (∃ (p : Prefixes) (n : BitVec 8) (s : State) (u : PfxUse) (next : Nat), Fetches s p 2 allowNone u next ∧ 15 < n.toNat) :=
  ⟨⟨[0xE2], (.reg 5), (coreAt (core0 0)), by decide +kernel⟩,
   ⟨[0xE0], (.imm .i2 0), (coreAt (core0 0xFFF80)), (use_ 8 false false false), 0x180005, by decide +kernel⟩,
   ⟨[], 5, (coreAt (core0 0)), (use_ 32 false false false), 0x180002, by decide +kernel⟩,
   ⟨[], 5, .d1, 1, (coreAt (core0 0xFFF80)), (use_ 32 false false false), 0x180003, by decide +kernel⟩,
   ⟨[], 5, .d0, 0, (coreAt (core0 0x100000)), (use_ 32 false false false), 0x180002, by decide +kernel⟩,
   ⟨[], (coreAt { core0 0 with rsLim := 0x10000 }), (use_ 32 false false false), 0x180002, by decide +kernel⟩,
   ⟨[], (coreAt (core0 0xFFF80)), (use_ 32 false false false), 0x180002, by decide +kernel⟩,
   ⟨[], (coreAt { core0 0 with rs := [(7, true)] }), (use_ 32 false false false), 0x180002, 7, [], by decide +kernel⟩,
   ⟨[], 16, (coreAt (core0 0xFFF80)), (use_ 32 false false false), 0x180002, by decide +kernel⟩⟩

theorem witness_DvorgilDecodeEncode :
    (∃ (i : Instr) (bs : List Byte), i.wf = true ∧ f1Encode i = some bs) :=
  ⟨(.sti [0xE4] 5 .d4 0x10000000 .i4 0xA5A5A5A5), [0xE4, 0x4C, 0xE5, 0, 0, 0, 0x10, 0xA5, 0xA5, 0xA5, 0xA5], by decide +kernel⟩

theorem witness_F1Ports :
    (∃ (p : Prefixes) (port : PortOperand) (s : State) (u : PfxUse) (next v : Nat) (l : Live),
      Fetches s p (PortOperand.len port) allowNone u next ∧
      let n := s.live.f1.portOf port
      portRead n s.awake.live = some (v, l)) ∧
    (∃ (p : Prefixes) (port : PortOperand) (s : State) (u : PfxUse) (next : Nat),
      Fetches s p (PortOperand.len port) allowNone u next ∧
      let n := s.live.f1.portOf port
      portRead n s.awake.live = none) ∧
    (∃ (p : Prefixes) (a : KReg) (port : PortOperand) (s : State) (u : PfxUse) (next : Nat) (t : State),
      Fetches s p (PortOperand.len port) allowNone u next ∧
      let n := s.live.f1.portOf port
      portWrite n (s.live.f1.reg a).toNat s.awake = .done t) ∧
    (∃ (p : Prefixes) (a : KReg) (port : PortOperand) (s : State) (u : PfxUse) (next c : Nat),
      Fetches s p (PortOperand.len port) allowNone u next ∧
      let n := s.live.f1.portOf port
      portWrite n (s.live.f1.reg a).toNat s.awake = .fault c) ∧
    (∃ (s : State) (n : Nat), s.live.f1.run = .running ∧ n < s.live.f1.timers.length) ∧
    (∃ (v : Word) (s : State) (port : Nat) (t : State), s.live.f1.run = .running ∧ port < 2 ^ 16 ∧ portWrite port v.toNat s =
      .done t) ∧
    (∃ (v : Word) (s : State) (port c : Nat), s.live.f1.run = .running ∧ port < 2 ^ 16 ∧ portWrite port v.toNat s = .fault c) ∧
    (∃ (n : Nat) (x : F1Timer) (s : State), s.live.sup.phase = .running ∧ s.live.f1.timers[n]? = some x ∧ x.en = true ∧ x.cmp ≤
      s.live.mt.now) ∧
    (∃ (s : State),
      s.live.f1.run = F1Run.running) :=
  ⟨⟨[], (.imm 0x10), (coreAt (core0 0xFFF80)), (use_ 32 false false false), 0x180004, 0, (coreAt (core0 0xFFF80)).awake.live,
    by decide +kernel⟩,
   ⟨[], (.imm 0xFFFF), (coreAt (core0 0xFFF80)), (use_ 32 false false false), 0x180004, by decide +kernel⟩,
   ⟨[], 15, (.imm 0x10), (coreAt (core0 0xFFF80)), (use_ 32 false false false), 0x180004, ((coreAt (core0 0xFFF80)).awake.onF1 fun
     c => { c with dsLo := 1 }), by decide +kernel⟩,
   ⟨[], 15, (.imm 0), (coreAt (core0 0xFFF80)), (use_ 32 false false false), 0x180004, 1, by decide +kernel⟩,
   ⟨(coreAt (core0 0)), 3, by decide +kernel⟩,
   ⟨7, (coreAt (core0 0)), 0x10, ((coreAt (core0 0)).onF1 fun c => { c with dsLo := 7 }), by decide +kernel⟩,
   ⟨7, (coreAt (core0 0)), 0, 1, by decide +kernel⟩,
   ⟨3, { cmp := 0, period := 1000, missed := 0, periodic := true, en := true }, (coreAt
     { core0 0 with timers := List.replicate 4 { cmp := 0, period := 1000, missed := 0, periodic := true, en := true } }),
     by decide +kernel⟩,
   ⟨(coreAt (core0 0)), by decide +kernel⟩⟩

theorem witness_KeptStaysInForm :
    (∃ (s t : State), s.kept.ok ∧ step s = .next t) :=
  ⟨on, (match step on with | .next t => t | _ => on), by decide +kernel, rfl⟩

theorem witness_SaturatedResults :
    (∃ (p : Prefixes) (b : AluOperand) (s : State) (u : PfxUse) (next v : Nat),
      let c := s.live.f1
      let n := u.bits
      Fetches s p (AluOperand.len b) allowAluSat u next ∧
      u.sat = true ∧
      aluValue c.k n .signed b = some v) ∧
    (∃ (p : Prefixes) (b : AluOperand) (s : State) (u : PfxUse) (next : Nat) (d : KReg), Fetches s p (AluOperand.len b)
      allowAluSat u next ∧ u.sat = true ∧ b = .reg d) :=
  ⟨⟨[0xE0, 0xE3], (.imm .i1 0x80), (coreAt (core0 0xFFF80)), (use_ 8 false true false), 0x180005, 128, by decide +kernel⟩,
   ⟨[0xE0, 0xE3], (.reg 5), (coreAt (core0 0xFFF80)), (use_ 8 false true false), 0x180004, 5, by decide +kernel⟩⟩

end Sys2Proof.Tests
end

section
/-! The host event queue (R84 to R86): what driving EVENT_N and answering a control word leave of the host interface, what a
write of ACK_SEQ consumes, and what the entry of a record does to the queue. -/

namespace Sys2Proof.Machine

/-! ### What driving EVENT_N and the data lanes leaves of the host interface -/

@[simp] theorem Live.driveEventN_evq (l : Live) : l.driveEventN.host.evq = l.host.evq := rfl
@[simp] theorem Live.driveEventN_headSeq (l : Live) : l.driveEventN.host.headSeq = l.host.headSeq := rfl
@[simp] theorem Live.driveEventN_drops (l : Live) : l.driveEventN.host.drops = l.host.drops := rfl
@[simp] theorem Live.driveEventN_mb (l : Live) : l.driveEventN.host.mb = l.host.mb := rfl

@[simp] theorem Live.result_evq (l : Live) (r : Nat) : (l.result r).host.evq = l.host.evq := rfl
@[simp] theorem Live.result_headSeq (l : Live) (r : Nat) : (l.result r).host.headSeq = l.host.headSeq := rfl
@[simp] theorem Live.result_drops (l : Live) (r : Nat) : (l.result r).host.drops = l.host.drops := rfl
@[simp] theorem Live.result_mb (l : Live) (r : Nat) : (l.result r).host.mb = l.host.mb := rfl

/-! ### A control word while the command layer runs (R66, R70) -/

/-- A control word written while the command layer runs takes effect and is answered with "accepted". -/
theorem State.wordWrite_of_commandLayer {s : State} (f : State → State) (h : s.live.commandLayer = true) :
    s.wordWrite f = (f s).onLive fun l => l.result resAccepted := by
  simp [State.wordWrite, h]

/-! ### A write of ACK_SEQ (R86) -/

/-- The number of records that a write of ACK_SEQ at distance `d` from HEAD_SEQ consumes of `count` waiting ones, by the three
rows of R86's table in their order. -/
def ackedCount (d count : Nat) : Nat :=
  if d ≤ count then d else if d < 32768 then count else 0

/-- A distance from 32768 on lies beyond a queue of at most 256 records, so the model's order of the cases (the ignored write
first) is that of the table. -/
theorem ackedCount_eq {count : Nat} (d : Nat) (hcount : count ≤ 256) :
    (if 32768 ≤ d then 0 else min d count) = ackedCount d count := by
  unfold ackedCount
  split <;> split
  · omega
  · simp only [if_neg (show ¬ d < 32768 by omega)]
  · exact min_eq_left ‹_›
  · rw [if_pos (by omega), min_eq_right (by omega)]

/-- A write of ACK_SEQ removes the oldest records and advances HEAD_SEQ by their number. -/
theorem Live.evqAck_evq_headSeq (l : Live) (v : Nat) (hcount : l.host.evq.length ≤ 256) :
    let k := ackedCount ((v % 65536 + 65536 - l.host.headSeq) % 65536) l.host.evq.length
    (l.evqAck v).host.evq = l.host.evq.drop k ∧ (l.evqAck v).host.headSeq = (l.host.headSeq + k) % 65536 := by
  simp only [Live.evqAck, driveEventN_evq, driveEventN_headSeq, ackedCount_eq _ hcount, and_self]

@[simp] theorem Live.evqAck_mb (l : Live) (v : Nat) : (l.evqAck v).host.mb = l.host.mb := rfl
@[simp] theorem Live.evqAck_drops (l : Live) (v : Nat) : (l.evqAck v).host.drops = l.host.drops := rfl

/-- While the command layer runs, EVQ_ACK acknowledges in the event queue and is answered with "accepted". -/
theorem exec_evqAck_of_commandLayer (v : BitVec 32) {s : State} (h : s.live.commandLayer = true) :
    exec (.evqAck v) s = .next ((s.onLive fun l => l.evqAck v.toNat).onLive fun l => l.result resAccepted) :=
  congrArg Host.Outcome.next (State.wordWrite_of_commandLayer _ h)

/-! ### Entry of a record (R84, R85) -/

/-- A record that finds room enters at the end of the queue; nothing is dropped. -/
theorem Live.enterHost_of_room {l : Live} (r : EventRec) (h : l.host.evq.length < 256) :
    l.enterHost r = Live.driveEventN { l with host := { l.host with evq := l.host.evq ++ [r] } } := by
  simp only [Live.enterHost, if_pos h]

/-- A record that finds no room displaces the oldest one, which HEAD_SEQ passes over and DROPS counts up to its end. -/
theorem Live.enterHost_of_full {l : Live} (r : EventRec) (h : 256 ≤ l.host.evq.length) :
    l.enterHost r = Live.driveEventN { l with host := { l.host with
      evq := l.host.evq.drop 1 ++ [r], headSeq := (l.host.headSeq + 1) % 65536, drops := min 0xFFFF (l.host.drops + 1) } } := by
  simp only [Live.enterHost, if_neg (Nat.not_lt.mpr h)]

end Sys2Proof.Machine

open Sys2Proof Sys2Proof.Machine

/-- Settles O5: the model's count of consumed records is the table's, as at most 256 records wait. -/
theorem evqAckConsumes : Obligations.EvqAckConsumes := by
  intro v s hlayer hcount _
  obtain ⟨hevq, hhead⟩ := Live.evqAck_evq_headSeq s.live v.toNat hcount
  exact ⟨_, exec_evqAck_of_commandLayer v hlayer, ⟨hevq, hhead⟩, rfl, by simp, by simp⟩

/-- Settles O7, by the two cases of an entry into the host queue. -/
theorem fullQueueDropsOldest : Obligations.FullQueueDropsOldest := by
  intro l r
  constructor
  case left =>
    intro hfull
    simp [Live.enterHost_of_full r hfull.ge]
  case right =>
    intro hroom
    simp [Live.enterHost_of_room r hroom]
end

section
/-! The saturated results of F1's arithmetic (R489), and what an ALU instruction that F1 fetches does to the state. -/

namespace Sys2Proof.Machine

/-! ### The low bits of an integer as a signed number -/

theorem lowBits_lt (n : Nat) (i : Int) : lowBits n i < 2 ^ n := by
  have hpos : (0 : Int) < (2 ^ n : Nat) := by positivity
  have hnonneg := Int.emod_nonneg i hpos.ne'
  have hlt := Int.emod_lt_of_pos i hpos
  unfold lowBits
  omega

theorem fitsSigned_iff (n : Nat) (i : Int) :
    fitsSigned n i = true ↔ -(2 ^ (n - 1) : Int) ≤ i ∧ i < (2 ^ (n - 1) : Int) := by
  simp [fitsSigned]

/-- The signed range of n bits is read back from the low n bits. -/
theorem signedAt_lowBits {n : Nat} {i : Int} (hn : 0 < n) (hfits : fitsSigned n i = true) :
    signedAt n (lowBits n i) = i := by
  obtain ⟨hlo, hhi⟩ := (fitsSigned_iff n i).mp hfits
  have hhalf : 2 ^ n = 2 * 2 ^ (n - 1) := (Nat.two_pow_pred_mul_two hn).symm.trans (Nat.mul_comm _ _)
  have hcast : ((2 ^ (n - 1) : Nat) : Int) = 2 ^ (n - 1) := by push_cast; rfl
  rw [← hcast] at hlo hhi
  have hlow : (lowBits n i : Int) = if 0 ≤ i then i else i + (2 ^ n : Nat) := by
    unfold lowBits
    split
    case isTrue h0 => rw [Int.emod_eq_of_lt h0 (by omega)]; omega
    case isFalse h0 => rw [← Int.add_emod_right, Int.emod_eq_of_lt (by omega) (by omega)]; omega
  rw [signedAt, Nat.mod_eq_of_lt (lowBits_lt n i)]
  split at hlow <;> split <;> omega

/-- The top bit of a number of n bits marks its upper half. -/
theorem bit_top_iff {n r : Nat} (hn : 0 < n) (hr : r < 2 ^ n) : bit r (n - 1) = true ↔ 2 ^ (n - 1) ≤ r := by
  refine ⟨Nat.ge_two_pow_of_testBit, fun h => ?_⟩
  exact Nat.testBit_of_two_pow_le_and_two_pow_add_one_gt h (by rwa [Nat.sub_add_cancel hn])

/-! ### The clamped result and its flags (R489) -/

theorem clampSigned_eq (n : Nat) (i : Int) :
    clampSigned n i = max (-(2 ^ (n - 1) : Int)) (min i (2 ^ (n - 1) - 1)) := by
  simp [clampSigned]

theorem fitsSigned_clampSigned (n : Nat) (i : Int) : fitsSigned n (clampSigned n i) = true := by
  have hpos : (0 : Int) < 2 ^ (n - 1) := by positivity
  rw [fitsSigned_iff, clampSigned_eq]
  omega

/-- R489 of the result r of an operation with that exact signed value: r is the value clamped to n signed bits, V marks the
clamping, C is that of the result `plain` of the unclamped operation, and Z, N and P are those of r. -/
def Saturates (n : Nat) (exact : Int) (plain r : AluResult) : Prop :=
  r.1 < 2 ^ n ∧ signedAt n r.1 = max (-(2 ^ (n - 1) : Int)) (min exact (2 ^ (n - 1) - 1)) ∧
  (r.2.v = true ↔ exact < -(2 ^ (n - 1) : Int) ∨ (2 ^ (n - 1) : Int) ≤ exact) ∧ r.2.c = plain.2.c ∧
  (r.2.z = true ↔ r.1 = 0) ∧ (r.2.n = true ↔ 2 ^ (n - 1) ≤ r.1) ∧ r.2.p = oddOnes n r.1

/-- Every operation that `arith` computes saturates under SAT. -/
theorem arith_saturates {n : Nat} {sat : Bool} (hn : 0 < n) (hsat : sat = true) (f : Flags) (x : Int) (c : Bool) :
    Saturates n x (arith f n false x c) (arith f n sat x c) := by
  subst hsat
  have hlt := lowBits_lt n (clampSigned n x)
  refine ⟨hlt, ?value, ?overflow, rfl, ?zero, bit_top_iff hn hlt, rfl⟩
  case value => exact (signedAt_lowBits hn (fitsSigned_clampSigned n x)).trans (clampSigned_eq n x)
  case overflow =>
    rw [← not_lt, ← not_le, ← not_and_or, ← fitsSigned_iff]
    simp [arith]
  case zero => exact beq_iff_eq

section
variable {n : Nat} {sat : Bool} (hn : 0 < n) (hsat : sat = true) (f : Flags) (a b cin : Nat)
include hn hsat

theorem aluAdd_saturates :
    Saturates n (signedAt n a + signedAt n b + cin) (aluAdd f n false a b cin) (aluAdd f n sat a b cin) :=
  arith_saturates hn hsat f _ _

theorem aluSub_saturates :
    Saturates n (signedAt n a - signedAt n b - cin) (aluSub f n false a b cin) (aluSub f n sat a b cin) :=
  arith_saturates hn hsat f _ _

theorem aluMul_saturates :
    Saturates n (signedAt n a * signedAt n b) (aluMul f n false a b) (aluMul f n sat a b) :=
  arith_saturates hn hsat f _ _

/-- An addition without carry in. -/
theorem aluAdd_zero_saturates :
    Saturates n (signedAt n a + signedAt n b) (aluAdd f n false a b 0) (aluAdd f n sat a b 0) := by
  simpa using aluAdd_saturates hn hsat f a b 0

/-- A subtraction without borrow in. -/
theorem aluSub_zero_saturates :
    Saturates n (signedAt n a - signedAt n b) (aluSub f n false a b 0) (aluSub f n sat a b 0) := by
  simpa using aluSub_saturates hn hsat f a b 0

/-- A negation is the subtraction of the register's low bits from 0. -/
theorem aluSub_neg_saturates :
    Saturates n (-signedAt n b) (aluSub f n false 0 (b % 2 ^ n) 0) (aluSub f n sat 0 (b % 2 ^ n) 0) := by
  have hzero : signedAt n 0 = 0 := by simp [signedAt]
  have hmod : signedAt n (b % 2 ^ n) = signedAt n b := by simp only [signedAt, Nat.mod_mod]
  simpa only [hzero, hmod, zero_sub] using aluSub_zero_saturates hn hsat f 0 (b % 2 ^ n)

end

/-! ### An instruction that F1 fetches -/

/-- The operation size is 8, 16 or 32 bits. -/
theorem usePrefixes_bits {al : PfxAllow} {p : Prefixes} {u : PfxUse} (h : usePrefixes al p = some u) :
    u.bits = 8 ∨ u.bits = 16 ∨ u.bits = 32 := by
  simp only [usePrefixes, Option.ite_none_left_eq_some, Option.some.injEq] at h
  obtain ⟨-, -, -, rfl⟩ := h
  dsimp only
  split
  · exact .inl rfl
  · split
    · exact .inr (.inl rfl)
    · exact .inr (.inr rfl)

theorem Fetches.bits_pos {s : State} {p : Prefixes} {len : Nat} {al : PfxAllow} {u : PfxUse} {next : Nat}
    (h : Fetches s p len al u next) : 0 < u.bits := by
  obtain ⟨-, -, -, -, hpfx, -⟩ := h
  rcases usePrefixes_bits hpfx with hb | hb | hb <;> omega

theorem aluOperand_len_pos (b : AluOperand) : 0 < b.len := by
  cases b <;> simp [AluOperand.len]

/-- The body of a fetched instruction runs, on the state out of a WFI wait. -/
theorem f1Exec_of_fetches {s : State} {p : Prefixes} {len : Nat} {al : PfxAllow} {u : PfxUse} {next : Nat}
    (h : Fetches s p len al u next) (hlen : 0 < len) (body : PfxUse → Nat → State → State) :
    f1Exec s p len al body = body u next s.awake := by
  obtain ⟨hrun, hwait, hfirst, hlast, hpfx, rfl⟩ := h
  have hgo : (s.live.f1.run != .running || (s.live.f1.waiting && !s.live.irqWakes)) = false := by
    cases hw : s.live.f1.waiting <;> simp_all
  have hend : s.live.f1.pc + p.length + len - 1 + 1 = s.live.f1.pc + p.length + len := by omega
  simp only [f1Exec, hgo, State.onF1_live, Live.onF1_f1, hfirst, hlast, hpfx, hend]
  rfl

/-- A fetched ALU operation writes its result and its flags. -/
theorem f1Alu_of_fetches {s : State} {p : Prefixes} {b : AluOperand} {al : PfxAllow} {u : PfxUse} {next v : Nat} {ext : ImmExt}
    (h : Fetches s p b.len al u next) (hv : aluValue s.live.f1.k u.bits ext b = some v) (a : KReg)
    (op : Flags → PfxUse → Nat → Nat → AluResult) :
    f1Alu s p a b al ext true op =
      s.f1Writes next a (op s.live.f1.flags u ((s.live.f1.reg a).toNat % 2 ^ u.bits) v) := by
  have hawake : aluValue s.awake.live.f1.k u.bits ext b = some v := hv
  rw [f1Alu, f1Exec_of_fetches h (aluOperand_len_pos b)]
  simp only [hawake]
  rfl

/-- A fetched operation of one source register writes its result and its flags. -/
theorem f1Unary_of_fetches {s : State} {p : Prefixes} {al : PfxAllow} {u : PfxUse} {next : Nat}
    (h : Fetches s p 2 al u next) (a b : KReg) (op : Flags → PfxUse → Nat → AluResult) :
    f1Unary s p a b al op =
      s.f1Writes next a (op s.live.f1.flags u ((s.live.f1.reg b).toNat % 2 ^ u.bits)) := by
  rw [f1Unary, f1Exec_of_fetches h two_pos]
  rfl

end Sys2Proof.Machine

open Sys2Proof Sys2Proof.Machine

/-- Settles O60: the size is positive, so what `arith` computes saturates, and each instruction that takes SAT writes such a
result. -/
theorem saturatedResults : Obligations.SaturatedResults := by
  intro p a b s u next v c n x i j hfetch hsat
  have hn : 0 < n := Fetches.bits_pos hfetch
  constructor
  case left =>
    intro hv
    have halu (op : Flags → PfxUse → Nat → Nat → AluResult) :
        f1Alu s p a b allowAluSat .signed true op = s.f1Writes next a (op c.flags u x v) :=
      f1Alu_of_fetches hfetch hv a op
    exact ⟨⟨_, congrArg Host.Outcome.next (halu _), aluAdd_zero_saturates hn hsat c.flags x v⟩,
      ⟨_, congrArg Host.Outcome.next (halu _), aluAdd_saturates hn hsat c.flags x v (b2n c.flags.c)⟩,
      ⟨_, congrArg Host.Outcome.next (halu _), aluSub_zero_saturates hn hsat c.flags x v⟩,
      ⟨_, congrArg Host.Outcome.next (halu _), aluSub_saturates hn hsat c.flags x v (b2n c.flags.c)⟩,
      ⟨_, congrArg Host.Outcome.next (halu _), aluMul_saturates hn hsat c.flags x v⟩⟩
  case right =>
    rintro d rfl
    exact ⟨_, congrArg Host.Outcome.next (f1Unary_of_fetches hfetch a d _),
      aluSub_neg_saturates hn hsat c.flags (c.reg d).toNat⟩
end

section
/-! PD_MAX as a function of the lid temperature (R571): flat up to 70 °C, a straight line down to 140 °C, and 0 from there. -/

namespace Sys2Proof.Machine

theorem Live.pdMax_of_cool {l : Live} (h : l.ledger.tLid ≤ 700) : l.pdMax = 28000 := if_pos h

theorem Live.pdMax_of_hot {l : Live} (h : 1400 ≤ l.ledger.tLid) : l.pdMax = 0 := by
  rw [Live.pdMax, if_neg (by omega), if_neg (by omega)]

/-- The model's division by the 70 K of the slope leaves no remainder: PD_MAX falls by exactly 40 mW in each 0.1 °C. The line
meets both flat parts, so it holds at its two ends as well. -/
theorem Live.pdMax_of_sloped {l : Live} (hlo : 700 ≤ l.ledger.tLid) (hhi : l.ledger.tLid ≤ 1400) :
    (l.pdMax : Int) = (1400 - l.ledger.tLid) * 40 := by
  rcases hlo.eq_or_lt with hcool | hwarm
  · rw [pdMax_of_cool hcool.ge, ← hcool]
    rfl
  rcases hhi.eq_or_lt with hhot | hbelow
  · rw [pdMax_of_hot hhot.ge, hhot]
    rfl
  · rw [Live.pdMax, if_neg (not_le.mpr hwarm), if_pos hbelow]
    omega

/-- A lid temperature on the slope gives the row of R571 that lies on the line. -/
theorem Live.pdMax_eq_of_row {l : Live} {t : Int} {p : Nat} (hrow : 700 ≤ t ∧ t ≤ 1400 ∧ (p : Int) = (1400 - t) * 40)
    (hlid : l.ledger.tLid = t) : l.pdMax = p := by
  subst hlid
  obtain ⟨hlo, hhi, hline⟩ := hrow
  exact Int.ofNat_inj.mp ((pdMax_of_sloped hlo hhi).trans hline.symm)

end Sys2Proof.Machine

open Sys2Proof Sys2Proof.Machine

/-- Settles O30: the rows between 70 °C and 140 °C are points of the line. -/
theorem pdMaxTable : Obligations.PdMaxTable := by
  intro l
  exact ⟨Live.pdMax_of_cool, Live.pdMax_eq_of_row (by decide), Live.pdMax_eq_of_row (by decide),
    Live.pdMax_eq_of_row (by decide), Live.pdMax_eq_of_row (by decide), Live.pdMax_eq_of_row (by decide),
    Live.pdMax_of_hot, Live.pdMax_of_sloped⟩
end

section
open Sys2Proof Sys2Proof.Machine

/-- Settles O1: the queue's front and its rest are what `step` matches on. -/
theorem stepRunsFront : Obligations.StepRunsFront := by
  intro c rest s
  rfl
end

section
/-! F1's encoding (R483 to R487): the decoder reads back the prefixes, the opcode, the register byte and each little-endian field that
the encoder writes. -/

namespace Sys2Proof.Machine

/-! Little-endian fields. -/

theorem byteAt_append_left {bs cs : List Byte} {i : Nat} (h : i < bs.length) : byteAt (bs ++ cs) i = byteAt bs i := by
  simp only [byteAt, List.getD_append _ _ _ _ h]

theorem byteAt_append_right {bs cs : List Byte} {i : Nat} : byteAt (bs ++ cs) (bs.length + i) = byteAt cs i := by
  simp only [byteAt, List.getD_append_right _ _ _ _ (Nat.le_add_right _ _), Nat.add_sub_cancel_left]

@[simp] theorem length_le (k n : Nat) : (le k n).length = k := by simp [le]

theorem byteAt_le {k n i : Nat} (h : i < k) : byteAt (le k n) i = n / 256 ^ i % 256 := by
  simp [byteAt, le, List.getD_eq_getElem?_getD, h]

theorem rd_succ (bs : List Byte) (off k : Nat) : rd bs off (k + 1) = rd bs off k + byteAt bs (off + k) * 256 ^ k := by
  simp [rd, List.range_succ]

/-- A field reads the same wherever its bytes are the same. -/
theorem rd_congr {as bs : List Byte} {i j k : Nat} (h : ∀ x, x < k → byteAt as (i + x) = byteAt bs (j + x)) :
    rd as i k = rd bs j k := by
  induction k with
  | zero => rfl
  | succ k ih => rw [rd_succ, rd_succ, ih fun x hx => h x (by omega), h k (by omega)]

theorem rd_append_right (pre bs : List Byte) (k : Nat) : rd (pre ++ bs) pre.length k = rd bs 0 k :=
  rd_congr fun x _ => by rw [byteAt_append_right, Nat.zero_add]

/-- A little-endian field reads back the number written to it, as far as the field holds it. -/
theorem rd_le_append (k n : Nat) (rest : List Byte) : rd (le k n ++ rest) 0 k = n % 256 ^ k := by
  suffices h : ∀ j, j ≤ k → rd (le k n ++ rest) 0 j = n % 256 ^ j from h k (le_refl k)
  intro j hj
  induction j with
  | zero => simp [rd, Nat.mod_one]
  | succ j ih =>
    rw [rd_succ, ih (by omega), Nat.zero_add, byteAt_append_left (by simpa using hj), byteAt_le hj, pow_succ, Nat.mod_mul]
    ring

theorem rd_cons_le_append (b : Byte) (k n : Nat) (rest : List Byte) : rd (b :: (le k n ++ rest)) 1 k = n % 256 ^ k :=
  (rd_append_right [b] _ k).trans (rd_le_append k n rest)

theorem rd_le_append_le (j m k n : Nat) (rest : List Byte) : rd (le j m ++ (le k n ++ rest)) j k = n % 256 ^ k := by
  have h := rd_append_right (le j m) (le k n ++ rest) k
  rwa [length_le, rd_le_append] at h

/-! The operand fields of an instruction. -/

@[simp] theorem hiReg_regByte (a b : KReg) : hiReg (regByte a b) = a := by
  apply Fin.ext
  simp only [hiReg, regByte, BitVec.toNat_ofNat]
  omega

@[simp] theorem loReg_regByte (a b : KReg) : loReg (regByte a b) = b := by
  apply Fin.ext
  simp only [loReg, regByte, BitVec.toNat_ofNat]
  omega

@[simp] theorem isizeOf_code (sz : ImmSize) : isizeOf (ImmSize_code sz) = some sz := by cases sz <;> rfl

@[simp] theorem dsizeOf_code (d : DispSize) : dsizeOf (DispSize_code d) = d := by cases d <;> rfl

theorem ImmSize_code_lt (sz : ImmSize) : ImmSize_code sz < 4 := by cases sz <;> decide

theorem DispSize_code_lt (d : DispSize) : DispSize_code d < 4 := by cases d <;> decide

theorem toNat_mod_of_dispOk {d : DispSize} {v : Word} (h : dispOk d v = true) : v.toNat % 256 ^ d.len = v.toNat := by
  have hv := v.isLt
  cases d <;> simp only [dispOk, beq_iff_eq, decide_eq_true_eq] at h <;> simp only [DispSize.len]
  · simp [h]
  all_goals omega

theorem toNat_mod_of_immOk {sz : ImmSize} {v : Word} (h : immOk sz v = true) : v.toNat % 256 ^ sz.len = v.toNat := by
  have hv := v.isLt
  cases sz <;> simp only [immOk, decide_eq_true_eq] at h <;> simp only [ImmSize.len] <;> omega

theorem wordOf_of_rd {bs : List Byte} {off n : Nat} {v : Word} (h : rd bs off n = v.toNat) : wordOf bs off n = v := by
  rw [wordOf, h, BitVec.ofNat_toNat, BitVec.setWidth_eq]

theorem wordOf_disp {b : Byte} {d : DispSize} {v : Word} (rest : List Byte) (h : dispOk d v = true) :
    wordOf (b :: (le d.len v.toNat ++ rest)) 1 d.len = v :=
  wordOf_of_rd ((rd_cons_le_append b _ _ rest).trans (toNat_mod_of_dispOk h))

theorem wordOf_imm {b : Byte} {sz : ImmSize} {v : Word} (rest : List Byte) (h : immOk sz v = true) :
    wordOf (b :: (le sz.len v.toNat ++ rest)) 1 sz.len = v :=
  wordOf_of_rd ((rd_cons_le_append b _ _ rest).trans (toNat_mod_of_immOk h))

/-- The immediate of STI stands behind its displacement. -/
theorem wordOf_imm_after {b : Byte} {d : DispSize} {sz : ImmSize} {v i : Word} (rest : List Byte) (h : immOk sz i = true) :
    wordOf (b :: (le d.len v.toNat ++ (le sz.len i.toNat ++ rest))) (1 + d.len) sz.len = i := by
  have hpre := rd_append_right (b :: le d.len v.toNat) (le sz.len i.toNat ++ rest) sz.len
  rw [List.length_cons, length_le, Nat.add_comm, rd_le_append, toNat_mod_of_immOk h] at hpre
  exact wordOf_of_rd hpre

theorem ofNat16_rd {bs : List Byte} {off k : Nat} {v : BitVec 16} (h : rd bs off k = v.toNat) : BitVec.ofNat 16 (rd bs off k) = v := by
  rw [h, BitVec.ofNat_toNat, BitVec.setWidth_eq]

/-! The prefixes and the opcode. -/

theorem isPrefix_of_prefixesOk {p : Prefixes} (h : prefixesOk p = true) : ∀ b ∈ p, isPrefix b = true := by
  rw [prefixesOk, Bool.and_eq_true, List.all_eq_true] at h
  exact h.2

/-- The decoder takes the prefixes off and reads the opcode behind them. -/
theorem f1Decode_append {p : Prefixes} {op : Byte} (bs : List Byte) (hp : prefixesOk p = true) (hop : isPrefix op = false) :
    f1Decode (p ++ op :: bs) = decodeOp p op.toNat bs := by
  have htake : (p ++ op :: bs).takeWhile isPrefix = p := by
    rw [List.takeWhile_append_of_pos (isPrefix_of_prefixesOk hp), List.takeWhile_cons_of_neg (by simp [hop]), List.append_nil]
  have hlen : p.length ≤ 2 := by
    simp only [prefixesOk, Bool.and_eq_true, decide_eq_true_eq] at hp
    exact hp.1
  simp only [f1Decode, htake, if_neg (Nat.not_lt.mpr hlen), List.drop_left, byteAt, List.getD_cons_zero, List.drop_succ_cons,
    List.drop_zero]

theorem f1Decode_opcode {p : Prefixes} {op : Nat} (bs : List Byte) (hp : prefixesOk p = true) (hop : op < 0xE0) :
    f1Decode (p ++ BitVec.ofNat 8 op :: bs) = decodeOp p op bs := by
  have hval : (BitVec.ofNat 8 op).toNat = op := by rw [BitVec.toNat_ofNat, Nat.mod_eq_of_lt (by omega)]
  rw [f1Decode_append bs hp (by rw [isPrefix, hval, inRange, decide_eq_false (by omega), Bool.false_and]), hval]

/-! The encodings of one shape. -/

theorem f1Decode_encRR {p : Prefixes} {op : Nat} (a b : KReg) (rest : List Byte) (hp : prefixesOk p = true) (hop : op < 0xE0) :
    f1Decode (encRR p op a b ++ rest) = decodeOp p op (regByte a b :: rest) := by
  rw [encRR, List.append_assoc]
  exact f1Decode_opcode (regByte a b :: rest) hp hop

theorem decodeOp_alu_reg (p : Prefixes) {i : Nat} (hi : i < 16) (bs : List Byte) :
    decodeOp p (0x10 + i) bs = .instr (aluInstr p i (hiReg (bs.getD 0 0)) (.reg (loReg (bs.getD 0 0)))) := by
  unfold decodeOp
  rw [if_pos (by omega), Nat.add_mod_left, Nat.mod_eq_of_lt hi]

theorem decodeOp_alu_imm (p : Prefixes) {i : Nat} {sz : ImmSize} (hi : i < 16) (bs : List Byte)
    (hzero : (bs.getD 0 0).toNat / 4 % 4 = 0) (hsz : isizeOf ((bs.getD 0 0).toNat % 4) = some sz) :
    decodeOp p (0x20 + i) bs = .instr (aluInstr p i (hiReg (bs.getD 0 0)) (.imm sz (wordOf bs 1 sz.len))) := by
  have hmod : (0x20 + i) % 16 = i := by omega
  unfold decodeOp
  simp only [hzero, hsz, hmod]
  rw [if_neg (by omega), if_pos (by omega)]
  rfl

theorem f1Decode_encAlu {p : Prefixes} {i : Nat} {a : KReg} {b : AluOperand} (rest : List Byte) (hp : prefixesOk p = true)
    (hi : i < 16) (hb : aluOk b = true) : f1Decode (encAlu p i a b ++ rest) = .instr (aluInstr p i a b) := by
  cases b with
  | reg r =>
    rw [encAlu, List.append_assoc, List.cons_append, f1Decode_opcode _ hp (by omega), decodeOp_alu_reg p hi]
    simp
  | imm sz v =>
    have hcode := ImmSize_code_lt sz
    have ha := a.isLt
    have hval : (BitVec.ofNat 8 (16 * a.val + ImmSize_code sz)).toNat = 16 * a.val + ImmSize_code sz := by
      rw [BitVec.toNat_ofNat, Nat.mod_eq_of_lt (by omega)]
    have hreg : hiReg (BitVec.ofNat 8 (16 * a.val + ImmSize_code sz)) = a := by
      apply Fin.ext
      simp only [hiReg, hval]
      omega
    have hsz : isizeOf ((16 * a.val + ImmSize_code sz) % 4) = some sz := by
      rw [show (16 * a.val + ImmSize_code sz) % 4 = ImmSize_code sz by omega, isizeOf_code]
    simp only [encAlu, List.append_assoc, List.cons_append, List.nil_append]
    rw [f1Decode_opcode _ hp (by omega), decodeOp_alu_imm p (sz := sz) hi _ (by simp only [List.getD_cons_zero, hval]; omega)
      (by simpa only [List.getD_cons_zero, hval] using hsz), wordOf_imm rest hb, List.getD_cons_zero, hreg]

/-- The bytes of a load or store behind its prefixes: an opcode whose low two bits are the size of the displacement. -/
theorem f1Decode_encMem {p : Prefixes} {op : Nat} (a b : KReg) (d : DispSize) (v : Word) (rest : List Byte)
    (hp : prefixesOk p = true) (hop : op < 0xD0) :
    f1Decode (encMem p op a b d v ++ rest) =
      decodeOp p (op + DispSize_code d) (regByte a b :: (le d.len v.toNat ++ rest)) := by
  have hd := DispSize_code_lt d
  simp only [encMem, List.append_assoc, List.cons_append, List.nil_append]
  exact f1Decode_opcode _ hp (by omega)

/-- The size and the displacement that the decoder reads of a load or store whose opcode row begins at a multiple of 4. -/
theorem disp_of_encMem {op : Nat} {d : DispSize} {v : Word} (b : Byte) (rest : List Byte) (hop : op % 4 = 0) (h : dispOk d v = true) :
    dsizeOf ((op + DispSize_code d) % 4) = d ∧
      wordOf (b :: (le d.len v.toNat ++ rest)) 1 (dsizeOf ((op + DispSize_code d) % 4)).len = v := by
  have hd := DispSize_code_lt d
  rw [show (op + DispSize_code d) % 4 = DispSize_code d by omega, dsizeOf_code]
  exact ⟨rfl, wordOf_disp rest h⟩

/-- A load or store reads back through its displacement size d, where its opcode row takes the constructor c. -/
theorem f1Decode_load {p : Prefixes} {op : Nat} {c : KReg → KReg → DispSize → Word → Instr} {a b : KReg} {d : DispSize} {v : Word}
    (rest : List Byte) (hp : prefixesOk p = true) (hv : dispOk d v = true) (hop : op < 0xD0) (halign : op % 4 = 0)
    (hrow : ∀ k bs, k < 4 → decodeOp p (op + k) bs = .instr (c (hiReg (bs.getD 0 0)) (loReg (bs.getD 0 0)) (dsizeOf ((op + k) % 4))
      (wordOf bs 1 (dsizeOf ((op + k) % 4)).len))) :
    f1Decode (encMem p op a b d v ++ rest) = .instr (c a b d v) := by
  obtain ⟨hd, hw⟩ := disp_of_encMem (regByte a b) rest halign hv
  rw [f1Decode_encMem a b d v rest hp hop, hrow _ _ (DispSize_code_lt d), hw, hd, List.getD_cons_zero, hiReg_regByte, loReg_regByte]

/-- STI's operand byte holds both sizes and the register. -/
theorem f1Decode_sti {p : Prefixes} {b : KReg} {d : DispSize} {v : Word} {sz : ImmSize} {i : Word} (rest : List Byte)
    (hp : prefixesOk p = true) (hv : dispOk d v = true) (hi : immOk sz i = true) :
    f1Decode (p ++ [0x4C, BitVec.ofNat 8 (64 * DispSize_code d + 16 * ImmSize_code sz + b.val)] ++ le d.len v.toNat ++
      le sz.len i.toNat ++ rest) = .instr (.sti p b d v sz i) := by
  have hdc := DispSize_code_lt d
  have hsc := ImmSize_code_lt sz
  have hb := b.isLt
  have hval : (BitVec.ofNat 8 (64 * DispSize_code d + 16 * ImmSize_code sz + b.val)).toNat =
      64 * DispSize_code d + 16 * ImmSize_code sz + b.val := by
    rw [BitVec.toNat_ofNat]
    cases d <;> cases sz <;> simp only [DispSize_code, ImmSize_code] <;> omega
  have hdsz : dsizeOf ((64 * DispSize_code d + 16 * ImmSize_code sz + b.val) / 64) = d := by
    rw [show (64 * DispSize_code d + 16 * ImmSize_code sz + b.val) / 64 = DispSize_code d by omega, dsizeOf_code]
  have hisz : isizeOf ((64 * DispSize_code d + 16 * ImmSize_code sz + b.val) / 16 % 4) = some sz := by
    rw [show (64 * DispSize_code d + 16 * ImmSize_code sz + b.val) / 16 % 4 = ImmSize_code sz by omega, isizeOf_code]
  have hreg : loReg (BitVec.ofNat 8 (64 * DispSize_code d + 16 * ImmSize_code sz + b.val)) = b := by
    apply Fin.ext
    simp only [loReg, hval]
    omega
  simp only [List.append_assoc, List.cons_append, List.nil_append]
  rw [f1Decode_append _ hp (by decide)]
  simp [decodeOp, hval, hdsz, hisz, hreg, wordOf_disp _ hv, wordOf_imm_after _ hi]

theorem f1Decode_bcc {p : Prefixes} {cc : BitVec 4} {wide : Bool} {d : BitVec 16} (rest : List Byte) (hp : prefixesOk p = true)
    (hd : wide = true ∨ d.toNat < 256) :
    f1Decode ((if wide then p ++ [BitVec.ofNat 8 (0x70 + cc.toNat)] ++ le 2 d.toNat
      else p ++ [BitVec.ofNat 8 (0x60 + cc.toNat)] ++ le 1 d.toNat) ++ rest) = .instr (.bcc p cc wide d) := by
  have hcc := cc.isLt
  have hd16 := d.isLt
  have hback : ∀ k : Nat, BitVec.ofNat 4 (16 * k + cc.toNat) = cc := fun k => by
    apply BitVec.eq_of_toNat_eq
    rw [BitVec.toNat_ofNat]
    omega
  cases wide
  case true =>
    simp only [if_true, List.append_assoc, List.cons_append, List.nil_append]
    rw [f1Decode_opcode _ hp (by omega)]
    have hrd : rd (le 2 d.toNat ++ rest) 0 2 = d.toNat := (rd_le_append _ _ _).trans (Nat.mod_eq_of_lt hd16)
    unfold decodeOp
    simp only []
    rw [if_neg (by omega), if_neg (by omega), if_neg (by omega), if_pos (by omega), hback 7, ofNat16_rd hrd]
  case false =>
    simp only [Bool.false_eq_true, if_false, List.append_assoc, List.cons_append, List.nil_append]
    rw [f1Decode_opcode _ hp (by omega)]
    have hrd : rd (le 1 d.toNat ++ rest) 0 1 = d.toNat := (rd_le_append _ _ _).trans (Nat.mod_eq_of_lt (by simpa using hd))
    unfold decodeOp
    simp only []
    rw [if_neg (by omega), if_neg (by omega), if_pos (by omega), hback 6, ofNat16_rd hrd]

/-- A two-byte field reads back a 16-bit value at once, or behind a field of j bytes or behind the operand byte. -/
theorem ofNat16_le {v : BitVec 16} (rest : List Byte) : BitVec.ofNat 16 (rd (le 2 v.toNat ++ rest) 0 2) = v :=
  ofNat16_rd ((rd_le_append _ _ _).trans (Nat.mod_eq_of_lt v.isLt))

theorem ofNat16_cons_le {b : Byte} {v : BitVec 16} (rest : List Byte) :
    BitVec.ofNat 16 (rd (b :: (le 2 v.toNat ++ rest)) 1 2) = v :=
  ofNat16_rd ((rd_cons_le_append _ _ _ _).trans (Nat.mod_eq_of_lt v.isLt))

theorem ofNat16_le_le (j m : Nat) {v : BitVec 16} (rest : List Byte) :
    BitVec.ofNat 16 (rd (le j m ++ (le 2 v.toNat ++ rest)) j 2) = v :=
  ofNat16_rd ((rd_le_append_le _ _ _ _ _).trans (Nat.mod_eq_of_lt v.isLt))

theorem wordOf_le {v : Word} (rest : List Byte) : wordOf (le 4 v.toNat ++ rest) 0 4 = v :=
  wordOf_of_rd ((rd_le_append _ _ _).trans (Nat.mod_eq_of_lt v.isLt))

theorem wordOf_cons_le {b : Byte} {v : Word} (rest : List Byte) : wordOf (b :: (le 4 v.toNat ++ rest)) 1 4 = v :=
  wordOf_of_rd ((rd_cons_le_append _ _ _ _).trans (Nat.mod_eq_of_lt v.isLt))

end Sys2Proof.Machine

open Sys2Proof Sys2Proof.Machine

/-- Settles O57, shape by shape of the encoding: the ALU instructions, the loads and stores, the branches and STI by their lemmas,
and the instructions of one opcode by what the decoder makes of that opcode. -/
theorem dvorgilDecodeEncode : Obligations.DvorgilDecodeEncode := by
  intro i bs rest hwf henc
  cases i
  case mov p a b | add p a b | adc p a b | sub p a b | sbc p a b | cmp p a b | and p a b | or p a b | xor p a b | tst p a b |
      shl p a b | shr p a b | sar p a b | ror p a b | mul p a b | mulh p a b =>
    obtain ⟨hp, hb⟩ := Bool.and_eq_true_iff.mp hwf
    cases henc
    exact f1Decode_encAlu rest hp (by decide) hb
  case not p a b | neg p a b | inc p a b | dec p a b | par p a b | brev p a b | clz p a b | sext p a b | zext p a b | divu p a b |
      divs p a b | remu p a b | rems p a b | mff p a b | mtf p a b | xchg p a b | copy p a b | push p a b | pop p a b |
      rspush p a b | rspop p a b | rspget p a b | copyc p a b =>
    cases henc
    rw [f1Decode_encRR a b rest hwf (by decide)]
    simp [decodeOp]
  case crcstep p a b imm | rspeek p a b imm =>
    cases henc
    rw [List.append_assoc, f1Decode_encRR a b _ hwf (by decide)]
    simp [decodeOp]
  case nop p | wfi p | brk p | ret p | reti p | ei p | di p | fence p | trap p n =>
    cases henc
    rw [List.append_assoc]
    exact f1Decode_append _ hwf (by decide)
  case ld p a b d v | st p a b d v | lds p a b d v | ldc p a b d v =>
    obtain ⟨hp, hv⟩ := Bool.and_eq_true_iff.mp hwf
    cases henc
    refine f1Decode_load rest hp hv (by decide) (by decide) fun k bs hk => ?_
    interval_cases k <;> rfl
  case sti p b d v sz imm =>
    obtain ⟨hpv, hi⟩ := Bool.and_eq_true_iff.mp hwf
    obtain ⟨hp, hv⟩ := Bool.and_eq_true_iff.mp hpv
    cases henc
    exact f1Decode_sti rest hp hv hi
  case lea p a b v =>
    cases henc
    rw [List.append_assoc, f1Decode_encRR a b _ hwf (by decide)]
    simp [decodeOp, wordOf_cons_le]
  case bcc p cc wide d =>
    obtain ⟨hp, hd⟩ := Bool.and_eq_true_iff.mp hwf
    cases henc
    exact f1Decode_bcc rest hp ((Bool.or_eq_true_iff.mp hd).imp_right of_decide_eq_true)
  case jmp p t =>
    cases t <;> cases henc
    case rel d =>
      rw [List.append_assoc, List.append_assoc, List.singleton_append, f1Decode_append _ hwf (by decide)]
      simp [decodeOp, wordOf_le]
    case reg b =>
      rw [f1Decode_encRR 0 b rest hwf (by decide)]
      simp [decodeOp]
  case call p t mask =>
    cases t <;> cases henc
    case rel4 d | rel2 d =>
      simp only [List.append_assoc, List.cons_append, List.nil_append]
      rw [f1Decode_append _ hwf (by decide)]
      simp [decodeOp, wordOf_le, ofNat16_le, ofNat16_le_le]
    case reg b =>
      rw [List.append_assoc, f1Decode_encRR 0 b _ hwf (by decide)]
      simp [decodeOp, ofNat16_cons_le]
  case inPort p a port | outPort p a port =>
    cases port <;> cases henc
    case imm n =>
      rw [List.append_assoc, f1Decode_encRR a 0 _ hwf (by decide)]
      simp [decodeOp, ofNat16_cons_le]
    case reg b =>
      rw [f1Decode_encRR a b rest hwf (by decide)]
      simp [decodeOp]
  all_goals cases henc
end

section
/-! What every command keeps: the rest of the queue, and the form of what is without power (R412, R427, R573). -/

namespace Sys2Proof.Machine

/-! ### Memories and kept cells stay in form -/

theorem memAbove_filter {d : Byte} {p : Host.Cell → Bool} {m : Memory} {k : Nat} (hk : memAbove k m = true)
    (hw : Memory.wf d m = true) : memAbove k (m.filter p) = true := by
  induction m generalizing k with
  | nil => rfl
  | cons x m ih =>
    obtain ⟨a, v⟩ := x
    simp only [Memory.wf, Bool.and_eq_true] at hw
    obtain ⟨⟨-, ha⟩, hm⟩ := hw
    have hka : k < a := of_decide_eq_true hk
    have hkm : memAbove k m = true := by
      cases m with
      | nil => rfl
      | cons y m => exact decide_eq_true (hka.trans (of_decide_eq_true ha))
    rw [List.filter_cons]
    split
    · exact hk
    · exact ih hkm hm

/-- Erasing cells keeps the canonical form. -/
theorem Memory.wf_filter {d : Byte} {p : Host.Cell → Bool} {m : Memory} (hw : Memory.wf d m = true) :
    Memory.wf d (m.filter p) = true := by
  induction m with
  | nil => rfl
  | cons x m ih =>
    have hcons := hw
    obtain ⟨a, v⟩ := x
    simp only [Memory.wf, Bool.and_eq_true] at hcons
    obtain ⟨⟨hv, ha⟩, hm⟩ := hcons
    rw [List.filter_cons]
    split
    · simp only [Memory.wf, Bool.and_eq_true]
      exact ⟨⟨hv, memAbove_filter ha hm⟩, ih hm⟩
    · exact ih hm

/-- A loop of writes keeps the canonical form when each of its writes does. -/
theorem wf_foldl {α : Type} {d : Byte} {f : Memory → α → Memory} (xs : List α)
    (hf : ∀ m x, Memory.wf d m = true → Memory.wf d (f m x) = true) {m : Memory} (hm : Memory.wf d m = true) :
    Memory.wf d (xs.foldl f m) = true :=
  List.foldlRecOn xs f hm fun m hm x _ => hf m x hm

section store
variable {st : Memory} (hw : Memory.wf 0 st = true)
include hw

theorem wf_recWrite (n t f : Nat) (c : Bool) (p : List Byte) : Memory.wf 0 (recWrite st n t f c p) = true :=
  memWriteN_wf 0 _ _ _ (memWriteN_wf 0 _ _ _ hw)

theorem wf_recDelete (n : Nat) : Memory.wf 0 (recDelete st n) = true :=
  memWriteN_wf 0 _ _ _ (memWriteN_wf 0 _ _ _ hw)

theorem wf_recRepair (n : Nat) : Memory.wf 0 (recRepair st n) = true := by
  unfold recRepair
  split
  · exact memWriteN_wf 0 _ _ _ hw
  · exact hw

theorem wf_configWrite (o i : Nat) (p : List Byte) : Memory.wf 0 (configWrite st o i p) = true := by
  unfold configWrite
  split
  · exact hw
  · exact wf_recWrite hw ..

theorem wf_counterNext (cd : CounterDef) (f : Nat → Nat) : Memory.wf 0 (counterNext st cd f) = true :=
  memWriteN_wf 0 _ _ _ hw

theorem wf_hdrWrite (e n : Nat) (o : Bool) : Memory.wf 0 (hdrWrite st e n o) = true :=
  memWriteN_wf 0 _ _ _ (memWriteN_wf 0 _ _ _ hw)

theorem wf_shadowWrite (image : List Byte) : Memory.wf 0 (shadowWrite st image) = true := by
  unfold shadowWrite
  refine wf_hdrWrite (wf_foldl _ (fun m p h => ?_) hw) ..
  exact memWriteN_wf 0 _ _ _ (memWriteN_wf 0 _ _ _ h)

theorem wf_keepRecord (n : Nat) : Memory.wf 0 (keepRecord st n) = true := by
  unfold keepRecord
  dsimp only
  split
  · exact hw
  · split
    · exact memWriteN_wf 0 _ _ _ (memWriteN_wf 0 _ _ _ hw)
    · exact memWriteN_wf 0 _ _ _ (memWriteN_wf 0 _ _ _ hw)
    · exact hw

theorem wf_releaseKept : Memory.wf 0 (releaseKept st) = true := by
  unfold releaseKept
  refine wf_hdrWrite (wf_foldl _ (fun m e h => ?_) hw) ..
  exact memWriteN_wf 0 _ _ _ (memWriteN_wf 0 _ _ _ h)

theorem wf_restoreKept : Memory.wf 0 (restoreKept st) = true := by
  unfold restoreKept
  exact wf_releaseKept (wf_foldl _ (fun m e h => wf_recWrite h ..) hw)

end store

theorem Kept.ok.withStore {k : Kept} {st : Memory} (h : k.ok) (hst : Memory.wf 0 st = true) : ({ k with store := st } : Kept).ok :=
  ⟨hst, h.2⟩

theorem Kept.ok.withSlots {k : Kept} {c : SecureCells} (h : k.ok) (hc : c.slots.length = 64) : ({ k with cells := c } : Kept).ok := by
  obtain ⟨hst, hfl, -, her⟩ := h
  exact ⟨hst, hfl, hc, her⟩

theorem Kept.ok.withFlash {k : Kept} {fl : Memory} (h : k.ok) (hfl : Memory.wf 0xFF fl = true) : ({ k with flash := fl } : Kept).ok := by
  obtain ⟨hst, -, hsl, her⟩ := h
  exact ⟨hst, hfl, hsl, her⟩

/-- The form says nothing of which images are the foundry's. -/
theorem Kept.ok.withFactory {k : Kept} (h : k.ok) (fw fb : Bool) : ({ k with factoryFw := fw, factoryFb := fb } : Kept).ok := h

theorem Kept.ok.withPending {k : Kept} (h : k.ok) (u : Option Nat) : ({ k with updPending := u } : Kept).ok := h

section kept
variable {k : Kept} (h : k.ok)
include h

theorem Kept.ok.setJournal (j : Option InstJournal) : (k.setJournal j).ok := h.withStore (wf_recWrite h.1 ..)

theorem Kept.ok.setAssay (kind : Option Nat) : (k.setAssay kind).ok := h.withStore (wf_recWrite h.1 ..)

theorem Kept.ok.counterAdd (c d : Nat) : (k.counterAdd c d).ok := by
  unfold Kept.counterAdd
  split
  · exact h
  · exact h.withStore (wf_counterNext h.1 ..)

theorem Kept.ok.counterClear (c : Nat) : (k.counterClear c).ok := by
  unfold Kept.counterClear
  split
  · exact h
  · exact h.withStore (wf_counterNext h.1 ..)

theorem Kept.ok.eraseSectors (ss : List Nat) : (k.eraseSectors ss).ok := by
  obtain ⟨hst, hfl, hsl, her⟩ := h
  refine ⟨hst, Memory.wf_filter hfl, hsl, ?_⟩
  exact List.foldlRecOn (motive := fun e : List Nat => e.length = 256) ss _ her fun e he i _ => (List.length_modify _ _ _).trans he

theorem Kept.ok.copyImage (a b c d n : Nat) : (k.copyImage a b c d n).ok := by
  have he := h.eraseSectors (sectorsOf c 512 ++ sectorsOf d n).eraseDups
  exact he.withFlash (memWriteN_wf 0xFF _ _ _ (memWriteN_wf 0xFF _ _ _ he.2.1))

theorem Kept.ok.saveFallback (kind : Nat) : (k.saveFallback kind).ok := by
  unfold Kept.saveFallback
  split
  · exact h
  · split
    · exact h.eraseSectors _
    · have hc := h.copyImage (activeHdr kind) (activeBody kind) (fallbackAt kind) (fallbackAt kind + 512)
        (imgBodyLen (imgHdr k.flash (activeHdr kind)))
      dsimp only
      split
      · exact hc.withFactory _ false
      · exact hc

theorem Kept.ok.installActive (kind : Nat) : (k.installActive kind).ok := by
  unfold Kept.installActive
  have hc := h.copyImage stagingAt (stagingAt + 512) (activeHdr kind) (activeBody kind) (imgBodyLen (imgHdr k.flash stagingAt))
  dsimp only
  split
  · exact hc.withFlash (memWriteN_wf 0xFF _ _ _ hc.2.1)
  · exact hc

theorem Kept.ok.takeFallback (kind : Nat) : (k.takeFallback kind).ok := by
  unfold Kept.takeFallback
  split
  · exact h.eraseSectors _
  · split
    · have hc := h.copyImage (fallbackAt kind) (fallbackAt kind + 512) (activeHdr kind) (activeBody kind)
        (imgBodyLen (imgHdr k.flash (fallbackAt kind)))
      dsimp only
      split
      · exact hc.withFactory false _
      · exact hc
    · exact h.eraseSectors _

theorem Kept.ok.stageBlock (u : UpdSession) (off : Nat) (data : List Byte) : (stageBlock k u off data).1.ok := by
  have he := h.eraseSectors ((sectorsOf (stagingAt + off) data.length).filter fun i => !u.erased.contains i)
  exact he.withFlash (memWriteN_wf 0xFF _ _ _ he.2.1)

/-- What a write unit leaves in the store (R431 to R447). -/
theorem Kept.ok.apply (image : List Byte) (u : UnitKind) : (u.apply image k).ok := by
  cases u with
  | record n t f c p => exact h.withStore (wf_recWrite h.1 ..)
  | config o i p => exact h.withStore (wf_configWrite h.1 ..)
  | delete n => exact h.withStore (wf_recDelete h.1 _)
  | add c d =>
    simp only [UnitKind.apply]
    split
    · exact h
    · exact h.withStore (wf_counterNext h.1 ..)
  | clear c =>
    simp only [UnitKind.apply]
    split
    · exact h
    · exact h.withStore (wf_counterNext h.1 ..)
  | cell i b => exact h.withStore (memWriteN_wf 0 _ _ _ h.1)
  | define c first n => exact h
  | remove c => exact h
  | shadow => exact h.withStore (wf_shadowWrite h.1 _)
  | repair n toA =>
    refine h.withStore ?_
    split
    · split
      · exact memWriteN_wf 0 _ _ _ (memWriteN_wf 0 _ _ _ h.1)
      · exact h.1
    · exact wf_recRepair h.1 n
  | zero off => exact h.withStore (memWriteN_wf 0 _ _ _ h.1)
  | keep n => exact h.withStore (wf_keepRecord h.1 n)
  | erased scope => exact h
  | assayed kind epoch => exact h.withStore (wf_releaseKept (wf_recWrite (wf_recWrite h.1 ..) ..))

end kept

theorem transitionCells_slots_length {c : SecureCells} (old target : Nat) (ra rb : List Byte) (h : c.slots.length = 64) :
    (transitionCells c old target ra rb).slots.length = 64 := by
  unfold transitionCells
  dsimp only
  split
  · exact List.length_replicate
  · split
    · exact List.length_replicate
    · split
      · exact List.length_replicate
      · exact h

/-! ### What a state change keeps -/

/-- The queue is untouched and what is kept without power stays in form. -/
def State.Keeps (s t : State) : Prop := t.pending = s.pending ∧ (s.kept.ok → t.kept.ok)

/-- The same of a command's body, which also gives the reply. -/
def State.KeepsBody (s : State) (r : Reply × State) : Prop := s.Keeps r.2

namespace State.Keeps

theorem refl (s : State) : s.Keeps s := ⟨rfl, id⟩

theorem trans {s t u : State} (hst : s.Keeps t) (htu : t.Keeps u) : s.Keeps u :=
  ⟨htu.1.trans hst.1, htu.2 ∘ hst.2⟩

/-- Whatever a command makes of the live state. -/
theorem live (s : State) (l : Live) : s.Keeps { s with live := l } := ⟨rfl, id⟩

theorem withKept {s : State} (k : Kept) (l : Live) (hk : s.kept.ok → k.ok) : s.Keeps { s with kept := k, live := l } := ⟨rfl, hk⟩

theorem byLive (s : State) (f : Live → Live) : s.Keeps (s.onLive f) := ⟨rfl, id⟩

theorem of_same {s t : State} (hp : t.pending = s.pending) (hk : t.kept = s.kept) : s.Keeps t := ⟨hp, fun h => hk ▸ h⟩

theorem onLive {s t : State} (h : s.Keeps t) (f : Live → Live) : s.Keeps (t.onLive f) := h.trans (live t _)

theorem onF1 {s t : State} (h : s.Keeps t) (f : F1State → F1State) : s.Keeps (t.onF1 f) := h.onLive _

theorem ite {s t u : State} {c : Prop} [Decidable c] (ht : s.Keeps t) (hu : s.Keeps u) : s.Keeps (if c then t else u) := by
  split
  · exact ht
  · exact hu

theorem iter {f : State → State} (hf : ∀ s : State, s.Keeps (f s)) (n : Nat) (s : State) : s.Keeps (iter f n s) := by
  induction n generalizing s with
  | zero => exact refl s
  | succ n ih => exact (hf s).trans (ih (f s))

theorem foldl {α : Type} {f : State → α → State} (hf : ∀ (s : State) x, s.Keeps (f s x)) (xs : List α) (s : State) :
    s.Keeps (xs.foldl f s) :=
  List.foldlRecOn xs f (refl s) fun t ht x _ => ht.trans (hf t x)

/-- A command that the host side checks field by field keeps what its body keeps: a failed check changes nothing. -/
theorem checked {s : State} {cs : List (Nat × Bool)} {x : Reply × State} (hx : s.KeepsBody x) :
    s.KeepsBody (checked cs x fun r => (r, s)) := by
  unfold Machine.checked
  split
  · exact refl s
  · exact hx

theorem commandK {s : State} {opc : Nat} {body : MbRef → Mailbox → State → Reply × State} (hb : ∀ m b, s.KeepsBody (body m b s)) :
    s.Keeps (s.commandK opc body) := by
  unfold State.commandK
  split
  · exact refl s
  · split
    · exact live s _
    · exact (hb _ _).trans (live _ _)

/-! ### The core F1 -/

theorem f1Next (s : State) (next : Nat) (f : F1State → F1State) : s.Keeps (f1Next s next f) := live s _

theorem f1Exception (s : State) (vector cause addr ret : Nat) : s.Keeps (f1Exception s vector cause addr ret) := by
  unfold Machine.f1Exception
  dsimp only
  refine ite (live s _) (ite (live s _) ?_)
  split
  · exact live s _
  · exact live s _

theorem f1Illegal (s : State) (cause : Nat) : s.Keeps (f1Illegal s cause) := f1Exception ..

theorem accessFault (s : State) (cause addr vector : Nat) (x ret : Nat) :
    s.Keeps (Machine.f1Exception (s.accessEvent cause addr) vector 0 x ret) :=
  (live s _).trans (f1Exception ..)

theorem f1Access {s : State} {a n : Nat} {isStore : Bool} {go : State → State} (hgo : ∀ s : State, s.Keeps (go s)) :
    s.Keeps (f1Access s a n isStore go) :=
  ite (f1Exception ..) (ite (accessFault ..) (hgo s))

theorem f1CodeRead {s : State} {a n : Nat} {aligned : Bool} {go : State → State} (hgo : ∀ s : State, s.Keeps (go s)) :
    s.Keeps (f1CodeRead s a n aligned go) :=
  ite (f1Exception ..) (ite (accessFault ..) (hgo s))

theorem f1Exec {s : State} {p : Prefixes} {len : Nat} {al : PfxAllow} {body : PfxUse → Nat → State → State}
    (hb : ∀ u n (s : State), s.Keeps (body u n s)) : s.Keeps (f1Exec s p len al body) := by
  unfold Machine.f1Exec
  refine ite (refl s) (ite ((live s _).trans (accessFault ..)) ?_)
  split
  · exact (live s _).trans (f1Illegal ..)
  · exact (live s _).trans (hb ..)

theorem f1Alu (s : State) (p : Prefixes) (a : KReg) (b : AluOperand) (al : PfxAllow) (ext : ImmExt) (writes : Bool)
    (op : Flags → PfxUse → Nat → Nat → AluResult) : s.Keeps (f1Alu s p a b al ext writes op) := by
  refine f1Exec fun u n s => ?_
  split
  · exact f1Illegal ..
  · exact f1Next ..

theorem f1Unary (s : State) (p : Prefixes) (a b : KReg) (al : PfxAllow) (op : Flags → PfxUse → Nat → AluResult) :
    s.Keeps (f1Unary s p a b al op) :=
  f1Exec fun _ _ _ => f1Next ..

theorem f1Divide (s : State) (p : Prefixes) (a b : KReg) (op : Flags → Nat → Nat → AluResult) : s.Keeps (f1Divide s p a b op) :=
  f1Exec fun _ _ _ => ite (f1Exception ..) (f1Next ..)

theorem f1Repeat {s : State} {rep : Bool} {next : Nat} {one : State → (State → State) → State} {adv : F1State → F1State}
    (hone : ∀ (s : State) go, (∀ s : State, s.Keeps (go s)) → s.Keeps (one s go)) : s.Keeps (f1Repeat s rep next one adv) := by
  unfold Machine.f1Repeat
  refine ite (hone _ _ fun s => f1Next ..) (ite (f1Next ..) (hone _ _ fun s => live s _))

theorem f1Return (s : State) (ok : Nat → Bool) (fin : Nat → F1State → F1State) : s.Keeps (f1Return s ok fin) := by
  unfold Machine.f1Return
  dsimp only
  split
  · exact f1Exception ..
  · refine ite (f1Exception ..) (ite (f1Exception ..) ?_)
    split
    · exact f1Exception ..
    · refine ite (f1Exception ..) ?_
      split
      · exact f1Exception ..
      · exact live s _

theorem interruptEntry (s : State) : s.Keeps (interruptEntry s) := by
  unfold Machine.interruptEntry
  dsimp only
  split
  · exact refl s
  · refine ite (refl s) (ite (f1Exception ..) ?_)
    split
    · exact live s _
    · exact live s _

/-! ### Mailboxes -/

theorem presenceCheck (s : State) (m : MbRef) (b : Mailbox) : s.Keeps (s.presenceCheck m b) := by
  unfold State.presenceCheck
  split
  · exact live s _
  · exact ite (live s _) (ite (live s _) (ite (live s _) (live s _)))

theorem accept (s : State) (m : MbRef) (whole : Bool) : s.Keeps (s.accept m whole) := by
  unfold State.accept
  split
  · exact refl s
  · split
    · exact live s _
    · exact ite ((live s _).trans (presenceCheck ..)) (ite (live s _) (presenceCheck ..))

theorem ringOne (s : State) (m : MbRef) (n by_ : Nat) : s.Keeps (s.ringOne m n by_) := by
  unfold State.ringOne
  split
  · exact refl s
  · split
    · exact (live s _).trans (accept ..)
    · exact live s _
    · exact live s _

theorem lmbDoorbell (s : State) (v : Nat) : s.Keeps (s.lmbDoorbell v) := foldl (fun s _ => ringOne s ..) _ _

theorem startF1 (s : State) : s.Keeps s.startF1 := by
  unfold State.startF1
  exact ite (refl s) (ite (byLive s _) (byLive s _))

theorem hostWakes (s : State) : s.Keeps s.hostWakes := ite ((live s _).trans (startF1 _)) (refl s)

theorem doorbell (s : State) (v : Nat) : s.Keeps (s.doorbell v) :=
  ite (refl s) ((hostWakes s).trans (foldl (fun s _ => ringOne s ..) _ _))

theorem wordWrite {s : State} {f : State → State} (hf : s.Keeps (f s)) : s.Keeps (s.wordWrite f) :=
  ite (hf.onLive _) (live s _)

theorem controlWord {s t : State} {addr v : Nat} (h : s.controlWord addr v = some t) : s.Keeps t := by
  unfold State.controlWord at h
  split at h
  · cases h; exact doorbell ..
  split at h
  · cases h; exact live s _
  split at h
  · cases h; exact live s _
  split at h
  · cases h; exact live s _
  split at h
  · cases h; exact live s _
  · cases h

theorem hostWrite (i : Byte) (addr len : Nat) (data : List Byte) (crc : BitVec 32) (whole : Bool) (s : State) :
    s.Keeps (hostWrite i addr len data crc whole s) := by
  refine ite (live s _) (ite (live s _) (ite (live s _) ?_))
  unfold State.applyWrite
  refine ite (live s _) ?_
  split
  · exact live s _
  · split
    next t ht =>
      refine onLive ?_ _
      split at ht
      · exact controlWord ht
      · cases ht
    · exact live s _

theorem uartFrameIn (bytes : List Byte) (s : State) : s.Keeps (uartFrameIn bytes s) := by
  refine ite (refl s) (ite (live s _) (ite ?_ (refl s)))
  exact ite (live s _) (ite (live s _) (ite ((live s _).trans (accept ..)) (live s _)))

theorem relayRequest (s : State) (m : LinkMsg) : s.Keeps (s.relayRequest m) := by
  unfold State.relayRequest
  dsimp only
  split
  · exact ite (live s _) (live s _)
  · exact (live s _).trans (accept ..)

theorem relayedMessage (s : State) : s.Keeps (relayedMessage s) := by
  unfold Machine.relayedMessage
  refine ite (refl s) ?_
  split
  · exact refl s
  · exact (byLive s _).trans (ite (byLive ..) (ite (relayRequest ..) (ite (byLive ..) (ite (byLive ..) (refl _)))))

theorem portWrite {s t : State} {port v : Nat} (h : portWrite port v s = .done t) : s.Keeps t := by
  unfold Machine.portWrite at h
  split at h
  · unfold lmbWrite at h
    split at h
    · cases h
    · split at h
      · cases h
      · cases h; exact byLive s _
  · repeat' split at h
    all_goals cases h
    any_goals exact byLive s _
    exact lmbDoorbell ..

theorem f1PortWrite (port v : Nat) (s : State) : s.Keeps (f1PortWrite port v s) := by
  unfold Machine.f1PortWrite
  split
  next t ht => exact portWrite ht
  · exact f1Exception ..

theorem byF1 {s : State} {f : State → State} (hf : s.Keeps (f s)) : s.Keeps (s.byF1 f) := ite hf (refl s)

/-! ### Resets, the start and adoption -/

theorem finishUnit (s : State) : s.Keeps s.finishUnit := by
  unfold State.finishUnit
  split
  · exact refl s
  · exact withKept _ _ fun h => h.apply ..

theorem assertReset (s : State) (cause sub : Nat) : s.Keeps (s.assertReset cause sub) := (finishUnit s).onLive _

theorem resetIf (s : State) (ok : Bool) (cause sub : Nat) : s.Keeps (s.resetIf ok cause sub) := ite (assertReset ..) (refl s)

theorem sealTest (s : State) (kohm : Nat) : s.Keeps (s.sealTest kohm) :=
  ite (withKept _ _ fun h => h.withSlots h.2.2.1) (live s _)

theorem transition (s : State) (old target cause : Nat) : s.Keeps (s.transition old target cause) :=
  withKept _ _ fun h => h.withSlots (transitionCells_slots_length _ _ _ _ h.2.2.1)

theorem resumeTransition (s : State) : s.Keeps s.resumeTransition := by
  unfold State.resumeTransition
  split
  · exact refl s
  · exact transition ..

theorem journal (s : State) {k : Kept} (j : Option InstJournal) (hk : s.kept.ok → k.ok) : s.Keeps (s.journal k j) :=
  withKept _ _ fun h => (hk h).setJournal j

theorem stagingEmpty (s : State) (f : Live → Live) : s.Keeps (({ s with kept := s.kept.stagingEmpty } : State).onLive f) :=
  withKept _ _ fun h => h.withPending none

theorem enterRecovery (s : State) (failed : Nat) : s.Keeps (s.enterRecovery failed) := withKept _ _ fun h => h.setJournal none

theorem installStep (s : State) (d : StartData) (j : InstJournal) : s.Keeps (s.installStep d j) := by
  unfold State.installStep
  dsimp only
  split
  · refine journal s _ fun h => ?_
    split
    · exact h
    · exact h.saveFallback _
  · exact journal s _ fun h => h.installActive _
  · refine ite (journal s _ id) (ite (journal s _ id) (onLive (journal s _ fun h => ?_) _))
    split
    · exact h
    · exact h.takeFallback _
  · refine onLive (journal s _ fun h => ?_) _
    split
    · exact h.withPending none
    · exact (((h.setAssay _).counterClear 12).counterClear 13).withPending none

theorem fallbackStep (s : State) (d : StartData) (j : InstJournal) : s.Keeps (s.fallbackStep d j) := by
  unfold State.fallbackStep
  dsimp only
  split
  · exact ite (enterRecovery ..) (journal s _ fun h => h.takeFallback _)
  · exact ite (journal s _ id) (ite (journal s _ id) (ite (enterRecovery ..) (journal s _ fun h => h.eraseSectors _)))
  · exact onLive (journal s _ fun h => h.withStore (wf_restoreKept h.1)) _
  · exact onLive (journal s _ fun h => (h.setAssay none).withPending none) _

theorem countBoot (s : State) : s.Keeps s.countBoot := by
  unfold State.countBoot
  split
  · exact refl s
  · refine ite (withKept _ _ fun h => ?_) (withKept _ _ fun h => h.counterAdd ..)
    have hk := h.counterAdd 12 1
    exact hk.withStore (wf_hdrWrite hk.1 ..)

theorem startFirmware (s : State) : s.Keeps s.startFirmware := by
  unfold State.startFirmware State.appCheck
  exact onLive (onLive (countBoot s) _) _

/-! A check of a staged image stays closed in the two proofs below, each a lemma about any such check: the kernel would compute it. -/

theorem beginInstall (s : State) (d : StartData) (kind : Nat) : s.Keeps (s.beginInstall d kind) := by
  unfold State.beginInstall
  generalize s.stagedBad = bad
  as_aux_lemma =>
    refine ite ((byLive s _).trans (startFirmware _)) ?_
    split
    · exact (stagingEmpty s _).trans (startFirmware _)
    · exact onLive (journal s _ id) _

theorem decideStart (s : State) (d : StartData) : s.Keeps (s.decideStart d) := by
  unfold State.decideStart
  refine ite (onLive (journal s _ id) _) (ite (live s _) ?_)
  split
  · exact beginInstall ..
  · exact ite (startFirmware s) (journal s _ id)

theorem recoveryStep (s : State) : s.Keeps s.recoveryStep := by
  unfold State.recoveryStep
  generalize s.stagedBad = bad
  as_aux_lemma =>
    split
    · exact refl s
    · split
      · exact stagingEmpty s _
      · exact onLive (journal s _ id) _

theorem bootStep (d : StartData) (s : State) : s.Keeps (s.bootStep d) := by
  unfold State.bootStep
  dsimp only
  refine ite (refl s) ?_
  split
  · refine ite ((byLive s _).onLive _) (ite ((byLive s _).onLive _) ?_)
    split
    · exact ((byLive s _).onLive _).trans (ite (installStep ..) (fallbackStep ..))
    · exact (byLive s _).trans (decideStart ..)
  · split
    · exact ite (installStep ..) (fallbackStep ..)
    · exact ite (startFirmware s) (enterRecovery ..)
  · exact recoveryStep s
  · exact refl s

theorem startChecks (s : State) (kohm : Nat) : s.Keeps (s.startChecks kohm) := by
  unfold State.startChecks
  have h := fun f g => (((byLive s f).onLive g).trans (resumeTransition _)).trans (sealTest _ kohm)
  exact ite (h _ _) ((h _ _).trans (startF1 _))

theorem adoptEnds (s : State) (kohm : Nat) (cl : List Nat) : s.Keeps (s.adoptEnds kohm cl) := by
  unfold State.adoptEnds
  exact ((byLive s _).trans (startChecks ..)).onLive _

theorem adoptGoesOn (s : State) (kohm : Nat) (cl : List Nat) : s.Keeps (s.adoptGoesOn kohm cl) :=
  ite (byLive s _) (adoptEnds ..)

theorem adoption (d : StartData) (s : State) : s.Keeps (adoption d s) := by
  unfold Machine.adoption
  split
  · unfold State.adoptAll
    exact ite (refl s) ((byLive s _).trans (adoptGoesOn ..))
  · exact byLive s _
  · exact refl s

theorem adoptionRetry (d : Nat) (r : DieRead) (s : State) : s.Keeps (adoptionRetry d r s) := by
  unfold Machine.adoptionRetry
  refine ite (refl s) ?_
  split
  · exact (byLive s _).trans (adoptGoesOn ..)
  · exact byLive s _
  · exact refl s

theorem runStart (s : State) (d : StartData) : s.Keeps (s.runStart d) := (iter (bootStep d) 16 s).trans (adoption d _)

theorem logicReset (cause sub : Nat) (d : StartData) (s : State) : s.Keeps (logicReset cause sub d s) :=
  ite ((assertReset ..).trans (runStart ..)) (refl s)

theorem powerUp (s : State) (d : StartData) : s.Keeps (s.powerUp d) := by
  unfold State.powerUp State.loadShadow
  exact ((byLive s _).onLive _).onLive _

theorem powerOn (d : StartData) (s : State) : s.Keeps (powerOn d s) :=
  ite (refl s) (ite ((powerUp s d).trans (runStart ..)) (ite ((live s _).trans (runStart ..)) (refl s)))

/-! ### The parameter store, updates and the clocks -/

theorem recordWriteDone (s : State) : s.Keeps (recordWriteDone s) := by
  unfold Machine.recordWriteDone
  split
  · exact refl s
  · split
    · exact refl s
    · exact refl s
    · exact withKept _ _ fun h => h.apply ..

theorem repairDone (s : State) : s.Keeps (repairDone s) := by
  unfold Machine.repairDone
  split
  · exact refl s
  next u _ =>
    cases u.kind with
    | repair n toA => exact withKept _ _ fun h => h.apply ..
    | _ => exact refl s

theorem shadowSave (s : State) : s.Keeps (shadowSave s) := by
  unfold Machine.shadowSave
  split
  · exact refl s
  next u _ =>
    cases u.kind with
    | shadow => exact withKept _ _ fun h => h.apply ..
    | _ => exact refl s

theorem paramRead (b : Mailbox) (s : State) : s.KeepsBody (paramRead b s) := by
  refine checked ?_
  extract_lets t answer
  have ht : s.Keeps t := byLive s _
  split
  · exact ht
  · exact ht
  · exact ht
  · exact ht

theorem paramWrite (m : MbRef) (b : Mailbox) (s : State) : s.KeepsBody (paramWrite m b s) := by
  refine checked ?_
  split
  · exact refl s
  · split
    · exact refl s
    · split
      · exact refl s
      · exact live s _

theorem paramCounter (m : MbRef) (b : Mailbox) (s : State) : s.KeepsBody (paramCounter m b s) := by
  refine checked ?_
  split
  · split
    · exact refl s
    · split
      · exact refl s
      · split
        · exact refl s
        · exact live s _
  · split
    · exact refl s
    · split
      · exact ite (byLive s _) (refl s)
      · split
        · exact refl s
        · exact live s _

theorem paramShadow (m : MbRef) (b : Mailbox) (s : State) : s.KeepsBody (paramShadow m b s) := by
  refine checked ?_
  split
  · exact refl s
  · exact refl s
  · exact byLive s _
  · split
    · exact byLive s _
    · exact byLive s _
  · split
    · exact refl s
    · exact live s _

theorem updBegin (b : Mailbox) (s : State) : s.KeepsBody (updBegin b s) := by
  refine checked ?_
  split
  · exact refl s
  · exact withKept _ _ fun h => h.withPending none

theorem takeSegment (s : State) (u : UpdSession) (off len crc segOff : Nat) (data : List Byte) :
    s.KeepsBody (takeSegment s u off len crc segOff data) := by
  unfold Machine.takeSegment
  extract_lets now old x
  split
  · exact byLive s _
  · split
    · exact byLive s _
    · split
      · exact byLive s _
      · exact withKept _ _ fun h => h.stageBlock ..

theorem updBlock (b : Mailbox) (s : State) : s.KeepsBody (updBlock b s) := by
  refine checked ?_
  split
  · exact refl s
  · split
    · exact refl s
    · split
      · exact byLive s _
      · split
        · exact byLive s _
        · exact takeSegment ..

theorem updEnd (b : Mailbox) (s : State) : s.KeepsBody (updEnd b s) := by
  refine checked ?_
  split
  · exact refl s
  · split
    · exact refl s
    · exact withKept _ _ fun h => h.withPending _

theorem updAbort (b : Mailbox) (s : State) : s.KeepsBody (updAbort b s) := by
  refine checked ?_
  split
  · exact refl s
  · exact withKept _ _ fun h => h.withPending none

theorem ownerSlotCheck {s : State} {m : MbRef} {i : Nat} {r : Reply × State} (h : s.ownerSlotCheck m i = some r) : s.Keeps r.2 := by
  unfold State.ownerSlotCheck at h
  dsimp only at h
  repeat' split at h
  all_goals cases h
  · exact byLive s _
  · exact refl s
  · exact byLive s _

theorem updConfig (m : MbRef) (b : Mailbox) (s : State) : s.KeepsBody (updConfig m b s) := by
  refine checked ?_
  split
  next r hr =>
    split at hr
    · cases hr
    · exact ownerSlotCheck hr
  · exact live s _

theorem sysAssay (m : MbRef) (b : Mailbox) (s : State) : s.KeepsBody (sysAssay m b s) := by
  refine checked ?_
  generalize s.startCheck = c
  as_aux_lemma =>
    split
    · exact refl s
    · split
      · exact refl s
      · split
        · exact refl s
        · exact byLive s _

theorem assayRunStep (s : State) : s.Keeps (assayRunStep s) := by
  unfold Machine.assayRunStep
  split
  · exact refl s
  · exact ite (refl s) (live s _)

theorem hoursIncrement (park : Bool) (s : State) : s.Keeps (hoursIncrement park s) := by
  unfold Machine.hoursIncrement
  have h := byLive s Live.countTime
  refine ite h (ite ((h.onLive _).onLive _) ((h.onLive _).trans (withKept _ _ fun hk => hk.counterAdd ..)))

theorem restartGateCheck (s : State) : s.Keeps (restartGateCheck s) := by
  unfold Machine.restartGateCheck
  refine ite (refl s) (ite (resetIf ..) ?_)
  split
  · exact ite (refl s) (ite (resetIf ..) (ite (byLive s _) (byLive s _)))
  · exact refl s

/-! ### Modes, resets and F1's restart -/

theorem wakes (s : State) (src idx : Nat) (x : WakeData) : s.Keeps (s.wakes src idx x) := by
  unfold State.wakes
  exact ite ((byLive s _).trans (sealTest ..)) (byLive s _)

theorem wakeValidated (src idx : Nat) (s : State) : s.Keeps (wakeValidated src idx s) := by
  unfold Machine.wakeValidated
  exact ite (refl s) ((live s _).trans (startF1 _))

theorem failedRestartTimeout (s : State) : s.Keeps (failedRestartTimeout s) := by
  unfold Machine.failedRestartTimeout
  exact ite (refl s) (live s _)

theorem limpExit (t : Nat) (s : State) : s.Keeps (limpExit t s) := ite (refl s) ((assertReset ..).onLive _)

theorem brownout (v : Nat) (s : State) : s.Keeps (brownout v s) := ite (refl s) ((assertReset ..).onLive _)

theorem powerRemoved (s : State) : s.Keeps (powerRemoved s) := ite (refl s) (live s _)

theorem restartF1 (s : State) : s.Keeps s.restartF1 := by
  unfold State.restartF1
  exact ite (byLive s _) ((byLive s _).trans (startF1 _))

theorem f1Restart (s : State) : s.Keeps (f1Restart s) := by
  unfold Machine.f1Restart
  exact ite (refl s) ((byLive s _).trans (restartF1 _))

theorem clockCheck (island : Nat) (dev : Int) (s : State) : s.Keeps (clockCheck island dev s) := by
  unfold Machine.clockCheck
  have h := fun f => byLive s f
  exact ite (refl s) (ite (h _) (ite ((h _).trans (resetIf ..)) (ite ((h _).onLive _) (h _))))

theorem islandReset (island cause : Nat) (s : State) : s.Keeps (islandReset island cause s) := by
  unfold Machine.islandReset
  exact ite (refl s) (ite (resetIf ..) (ite (byLive s _) (ite (byLive s _) (refl s))))

theorem sysReset (m : MbRef) (b : Mailbox) (s : State) : s.KeepsBody (sysReset m b s) := by
  refine checked ?_
  split
  · exact refl s
  · split
    · exact refl s
    · split
      · exact (byLive s _).trans (restartF1 _)
      · exact byLive s _

theorem privTestmode (b : Mailbox) (s : State) : s.KeepsBody (privTestmode b s) := by
  refine checked ?_
  split
  · exact refl s
  · split
    · exact refl s
    · exact withKept _ _ fun h => h.withSlots h.2.2.1

/-! ### Audio, tokens and the link -/

theorem programmeEnd (n : Nat) (s : State) : s.Keeps (programmeEnd n s) := by
  unfold Machine.programmeEnd
  split
  · exact refl s
  · split
    · exact ite (byLive s _) (refl s)
    · exact ite (byLive s _) (refl s)

theorem serviceRefused (s : State) (slot opc : Nat) : s.Keeps (s.serviceRefused slot opc) :=
  ite (refl s) (ite (byLive s _) (ite (byLive s _) (refl s)))

theorem membershipAuth (a : AuthData) (s : State) : s.Keeps (membershipAuth a s) := by
  unfold Machine.membershipAuth State.authMember State.authMaster
  exact ite (refl s) (ite ((serviceRefused ..).onLive _) ((serviceRefused ..).onLive _))

theorem unjudged (s : State) (res : List (Nat × Nat × SlotOutcome)) : s.Keeps (s.unjudged res) :=
  ite (serviceRefused ..) (refl s)

theorem tokenRound (a : Nat) (rs : List SlotResp) (s : State) : s.Keeps (tokenRound a rs s) := by
  unfold Machine.tokenRound
  split
  · exact refl s
  · exact ite (refl s) (((live s _).trans (unjudged ..)).onLive _)

theorem trackingRound (a : Nat) (rs : List SlotResp) (s : State) : s.Keeps (trackingRound a rs s) := by
  unfold Machine.trackingRound
  refine ite (refl s) ?_
  extract_lets d t
  have ht : s.Keeps t := live s _
  split
  · exact ht
  · exact (ht.trans (unjudged ..)).onLive _

theorem tokenConfig (m : MbRef) (b : Mailbox) (s : State) : s.KeepsBody (tokenConfig m b s) := by
  refine checked ?_
  split
  · exact refl s
  · exact live s _

theorem tokenEnrol (m : MbRef) (b : Mailbox) (s : State) : s.KeepsBody (tokenEnrol m b s) := by
  refine checked ?_
  split
  · exact refl s
  · split
    · exact refl s
    · split
      · exact refl s
      · split
        · exact refl s
        · exact byLive s _

/-! ### Keys and peers -/

theorem setSlot (s : State) (i : Nat) (k : KeySlot) : s.Keeps (s.setSlot i k) :=
  withKept _ _ fun h => h.withSlots ((List.length_set ..).trans h.2.2.1)

theorem useSlot (s : State) (i : Nat) : s.Keeps (s.useSlot i) := setSlot ..

theorem slotEvent (s : State) (cause i : Nat) : s.Keeps (s.slotEvent cause i) := byLive s _

theorem usageEvent (s : State) (cause slot opc source : Nat) : s.Keeps (s.usageEvent cause slot opc source) := byLive s _

theorem useCheck {s : State} {m : MbRef} {opc i off : Nat} {types : List Nat} {attr : Nat} {r : Reply × State}
    (h : s.useCheck m opc i off types attr = some r) : s.Keeps r.2 := by
  unfold State.useCheck at h
  dsimp only at h
  repeat' split at h
  all_goals cases h
  any_goals exact refl s
  all_goals exact byLive s _

theorem keyGenerate (b : Mailbox) (s : State) : s.KeepsBody (keyGenerate b s) := by
  refine checked ?_
  split
  · exact refl s
  · split
    · exact refl s
    · exact ((live s _).trans (setSlot ..)).trans (slotEvent ..)

theorem importBlob (s : State) (i : Nat) (blob wrapKey : List Byte) : s.KeepsBody (importBlob s i blob wrapKey) := by
  unfold Machine.importBlob
  split
  · exact refl s
  · extract_lets type attr domain flags
    split
    · exact refl s
    · split
      · exact refl s
      · exact (setSlot ..).trans (slotEvent ..)

theorem keyImport (m : MbRef) (b : Mailbox) (s : State) : s.KeepsBody (keyImport m b s) := by
  unfold Machine.keyImport
  extract_lets p i form w
  split
  · refine checked ?_
    split
    · exact refl s
    · exact (setSlot ..).trans (slotEvent ..)
  · refine checked ?_
    split
    · exact refl s
    · split
      next r hr => exact useCheck hr
      · split
        · exact refl s
        · exact (useSlot ..).trans (importBlob ..)

theorem keyExport (m : MbRef) (b : Mailbox) (s : State) : s.KeepsBody (keyExport m b s) := by
  refine checked ?_
  split
  · exact refl s
  · split
    next r hr => exact useCheck hr
    · extract_lets c k
      split
      · exact refl s
      · exact (useSlot ..).trans (slotEvent ..)

theorem keyDelete (b : Mailbox) (s : State) : s.KeepsBody (keyDelete b s) := by
  refine checked ?_
  extract_lets c k
  split
  · exact refl s
  · split
    · exact refl s
    · split
      · exact refl s
      · split
        · exact refl s
        · exact (slotEvent ..).trans (setSlot ..)

theorem keyDerive (m : MbRef) (b : Mailbox) (s : State) : s.KeepsBody (keyDerive m b s) := by
  refine checked ?_
  split
  · exact refl s
  · split
    · exact refl s
    · split
      next r hr => exact useCheck hr
      · split
        · exact refl s
        · exact ((useSlot ..).trans (setSlot ..)).trans (slotEvent ..)

theorem keyCipher (m : MbRef) (b : Mailbox) (s : State) : s.KeepsBody (keyCipher m b s) := by
  refine checked ?_
  split
  next r hr => exact useCheck hr
  · extract_lets key iv aad data t out
    have ht : s.Keeps t := useSlot ..
    split
    · exact ht
    · exact ht
    · split
      · split
        · exact ht
        · exact ht
      · exact ht

theorem keyMac (m : MbRef) (b : Mailbox) (s : State) : s.KeepsBody (keyMac m b s) := by
  refine checked ?_
  split
  next r hr => exact useCheck hr
  · extract_lets tag t
    have ht : s.Keeps t := (useSlot ..).onLive _
    split
    · exact useSlot ..
    · split
      · exact byLive s _
      · split
        · exact ht
        · exact ht

theorem keySign (m : MbRef) (b : Mailbox) (s : State) : s.KeepsBody (keySign m b s) := by
  refine checked ?_
  split
  next r hr => exact useCheck hr
  · extract_lets k
    split
    · split
      · exact useSlot ..
      · exact useSlot ..
    · split
      · exact refl s
      · exact (live s _).trans (useSlot ..)

theorem keyTransition (b : Mailbox) (s : State) : s.KeepsBody (keyTransition b s) := by
  refine onLive (checked ?_) _
  split
  · exact refl s
  · split
    · exact refl s
    · split
      · exact refl s
      · exact transition ..

theorem hallmark (s : State) (proof slot : Nat) (nonce : List Byte) : s.KeepsBody (s.hallmark proof slot nonce) := by
  unfold State.hallmark
  split
  · exact refl s
  · exact live s _

theorem keyHallmark (m : MbRef) (b : Mailbox) (s : State) : s.KeepsBody (keyHallmark m b s) := by
  refine checked ?_
  split
  · exact refl s
  · split
    · exact hallmark ..
    · split
      · exact refl s
      · split
        · exact usageEvent ..
        · split
          · exact refl s
          · split
            · exact (useSlot ..).onLive _
            · exact (useSlot ..).trans (hallmark ..)

theorem peerFrame (f : CanFrame) (s : State) : s.Keeps (peerFrame f s) := by
  unfold Machine.peerFrame
  split
  · exact refl s
  · refine ite (refl s) ?_
    split
    · exact refl s
    · extract_lets cb tag
      split
      · unfold State.peerChallenged
        refine ite (refl s) ?_
        extract_lets t
        have ht : s.Keeps t := byLive s _
        split
        · exact (ht.trans (serviceRefused ..)).onLive _
        · split
          · exact ht
          · exact ht.trans (live t _)
      · refine ite ?_ (refl s)
        unfold State.peerResponds
        split
        · exact (serviceRefused ..).onLive _
        · exact ite (byLive s _) (byLive s _)
      · refine ite (refl s) ?_
        unfold State.peerConfirms
        split
        · exact (serviceRefused ..).onLive _
        · exact ite (byLive s _) (byLive s _)
      · exact refl s

theorem keyPeer (m : MbRef) (b : Mailbox) (s : State) : s.KeepsBody (keyPeer m b s) := by
  refine checked ?_
  split
  · exact refl s
  · split
    · exact refl s
    · split
      · exact usageEvent ..
      · split
        · exact refl s
        · exact live s _

theorem keyPeerAuth (b : Mailbox) (s : State) : s.KeepsBody (keyPeerAuth b s) := by
  refine checked ?_
  split
  · exact refl s
  · split
    · exact refl s
    · split
      · exact refl s
      · split
        · exact (serviceRefused ..).onLive _
        · split
          · exact refl s
          · exact live s _

end State.Keeps

/-- Every command ends in a next state, which keeps the queue and the form. -/
theorem exec_keeps (i : Instr) (s : State) : ∃ t, exec i s = .next t ∧ s.Keeps t := by
  cases i
  -- The instructions of F1.
  case mov p a b | add p a b | adc p a b | sub p a b | sbc p a b | cmp p a b | and p a b | or p a b | xor p a b |
      tst p a b | shl p a b | shr p a b | sar p a b | ror p a b | mul p a b | mulh p a b =>
    exact ⟨_, rfl, .f1Alu ..⟩
  case not p a b | neg p a b | inc p a b | dec p a b | par p a b | brev p a b | clz p a b | sext p a b | zext p a b =>
    exact ⟨_, rfl, .f1Unary ..⟩
  case divu p a b | divs p a b | remu p a b | rems p a b =>
    exact ⟨_, rfl, .f1Divide ..⟩
  case nop p | fence p | wfi p | ei p | di p | lea p a b disp | bcc p cc wide disp | jmp p t =>
    exact ⟨_, rfl, .f1Exec fun _ _ _ => .f1Next ..⟩
  case mff p a b | mtf p a b | rspget p a b =>
    exact ⟨_, rfl, .f1Exec fun _ _ _ => .ite (.f1Illegal ..) (.f1Next ..)⟩
  case ld p a b dsz disp | lds p a b dsz disp | xchg p a b =>
    exact ⟨_, rfl, .f1Exec fun _ _ _ => .f1Access fun _ => .f1Next ..⟩
  case ldc p a b dsz disp =>
    exact ⟨_, rfl, .f1Exec fun _ _ _ => .f1CodeRead fun _ => .f1Next ..⟩
  case st p a b dsz disp =>
    exact ⟨_, rfl, .f1Exec fun _ _ _ => .ite (.f1Access fun _ => .f1Next ..)
          (.f1Repeat fun _ _ hgo => .f1Access fun _ => (State.Keeps.live ..).trans (hgo _))⟩
  case sti p b dsz disp isz imm =>
    exact ⟨_, rfl, .f1Exec fun _ _ _ => .ite (.f1Illegal ..)
          (.f1Repeat fun _ _ hgo => .f1Access fun _ => (State.Keeps.live ..).trans (hgo _))⟩
  case copy p a b =>
    exact ⟨_, rfl, .f1Exec fun _ _ _ => .f1Repeat fun _ _ hgo =>
          .f1Access fun _ => .f1Access fun _ => (State.Keeps.live ..).trans (hgo _)⟩
  case copyc p a b =>
    exact ⟨_, rfl, .f1Exec fun _ _ _ => .f1Repeat fun _ _ hgo =>
          .f1CodeRead fun _ => .f1Access fun _ => (State.Keeps.live ..).trans (hgo _)⟩
  case crcstep p a b imm =>
    exact ⟨_, rfl, .f1Exec fun _ _ _ => .ite (.f1Illegal ..) (.ite
          (.f1Repeat fun _ _ hgo => .f1Access fun _ => (State.Keeps.live ..).trans (hgo _)) (.f1Next ..))⟩
  case push p a b =>
    exact ⟨_, rfl, .f1Exec fun _ _ _ => .ite (.f1Illegal ..) (.ite (.f1Exception ..) (.ite (.f1Exception ..)
          (.f1Access fun _ => .f1Next ..)))⟩
  case pop p a b =>
    exact ⟨_, rfl, .f1Exec fun _ _ _ => .ite (.f1Illegal ..) (.ite (.f1Exception ..) (.ite (.f1Exception ..)
          (.f1Access fun _ => .f1Next ..)))⟩
  case rspush p a b =>
    exact ⟨_, rfl, .f1Exec fun _ _ _ => .ite (.f1Illegal ..) (.ite (.f1Exception ..) (.f1Next ..))⟩
  case rspop p a b =>
    refine ⟨_, rfl, .f1Exec fun _ _ _ => .ite (.f1Illegal ..) ?_⟩
    split
    · exact .f1Exception ..
    · exact .ite (.f1Exception ..) (.f1Next ..)
  case rspeek p a b imm =>
    refine ⟨_, rfl, .f1Exec fun _ _ _ => .ite (.f1Illegal ..) ?_⟩
    split
    · exact .f1Exception ..
    · exact .f1Next ..
  case call p t mask =>
    exact ⟨_, rfl, .f1Exec fun _ _ _ => .ite (.f1Exception ..) (.f1Next ..)⟩
  case ret p | reti p =>
    exact ⟨_, rfl, .f1Exec fun _ _ _ => .f1Return ..⟩
  case brk p =>
    exact ⟨_, rfl, .f1Exec fun _ _ _ => .f1Exception ..⟩
  case trap p n =>
    exact ⟨_, rfl, .f1Exec fun _ _ _ => .ite (.f1Illegal ..) (.f1Exception ..)⟩
  case inPort p a port =>
    refine ⟨_, rfl, .f1Exec fun _ _ s => ?_⟩
    dsimp only
    split
    · exact .f1Exception ..
    · exact (State.Keeps.live s _).trans (.f1Next ..)
  case outPort p a port =>
    refine ⟨_, rfl, .f1Exec fun _ _ s => ?_⟩
    dsimp only
    split
    · exact .f1Exception ..
    next ht => exact (State.Keeps.portWrite ht).trans (.f1Next ..)
  case interruptEntry =>
    exact ⟨_, rfl, .interruptEntry s⟩
  -- The ports of F1.
  case lmbAck v | evqRec0Read | mtSnapLoRead | heartbeatPort v | irqPendClear v | irqSwi v | timnCtlWrite n v =>
    exact ⟨_, rfl, .byF1 (.live s _)⟩
  case lmbDoorbell v =>
    exact ⟨_, rfl, .byF1 (.lmbDoorbell ..)⟩
  case f1PortWrite port v =>
    exact ⟨_, rfl, .byF1 (.f1PortWrite ..)⟩
  -- The host's transactions, the service UART and the relay.
  case hostWrite i addr len data crc whole =>
    exact ⟨_, rfl, .hostWrite ..⟩
  case instructionByteUnknown i =>
    exact ⟨_, rfl, .ite (.refl s) (.byLive s _)⟩
  case doorbell v =>
    exact ⟨_, rfl, .wordWrite (.doorbell ..)⟩
  case mbAck v | evqAck v | restartedClear v =>
    exact ⟨_, rfl, .wordWrite (.byLive s _)⟩
  case sealTest kohm =>
    exact ⟨_, rfl, .ite (.sealTest ..) (.refl s)⟩
  case serviceUartFrame bytes =>
    exact ⟨_, rfl, .uartFrameIn ..⟩
  case relayedMessage =>
    exact ⟨_, rfl, .relayedMessage s⟩
  -- Commands that may change what is kept.
  case paramRead =>
    exact ⟨_, rfl, .commandK fun _ _ => .paramRead ..⟩
  case paramWrite =>
    exact ⟨_, rfl, .commandK fun _ _ => .paramWrite ..⟩
  case paramCounter =>
    exact ⟨_, rfl, .commandK fun _ _ => .paramCounter ..⟩
  case paramShadow =>
    exact ⟨_, rfl, .commandK fun _ _ => .paramShadow ..⟩
  case keyExport =>
    exact ⟨_, rfl, .commandK fun _ _ => .keyExport ..⟩
  case keyCipher =>
    exact ⟨_, rfl, .commandK fun _ _ => .keyCipher ..⟩
  case keyMac =>
    exact ⟨_, rfl, .commandK fun _ _ => .keyMac ..⟩
  case keySign =>
    exact ⟨_, rfl, .commandK fun _ _ => .keySign ..⟩
  case tokenConfig =>
    exact ⟨_, rfl, .commandK fun _ _ => .tokenConfig ..⟩
  case tokenEnrol =>
    exact ⟨_, rfl, .commandK fun _ _ => .tokenEnrol ..⟩
  case keyPeer =>
    exact ⟨_, rfl, .commandK fun _ _ => .keyPeer ..⟩
  case keyPeerAuth =>
    exact ⟨_, rfl, .commandK fun _ _ => .keyPeerAuth ..⟩
  case updBegin =>
    exact ⟨_, rfl, .commandK fun _ _ => .updBegin ..⟩
  case updBlock =>
    exact ⟨_, rfl, .commandK fun _ _ => .updBlock ..⟩
  case updEnd =>
    exact ⟨_, rfl, .commandK fun _ _ => .updEnd ..⟩
  case updAbort =>
    exact ⟨_, rfl, .commandK fun _ _ => .updAbort ..⟩
  case updConfig =>
    exact ⟨_, rfl, .commandK fun _ _ => .updConfig ..⟩
  case sysAssay =>
    exact ⟨_, rfl, .commandK fun _ _ => .sysAssay ..⟩
  case sysReset =>
    exact ⟨_, rfl, .commandK fun _ _ => .sysReset ..⟩
  case keyHallmark =>
    exact ⟨_, rfl, .commandK fun _ _ => .keyHallmark ..⟩
  case paramStatus | keyStatus | updStatus | sysIdentity =>
    exact ⟨_, rfl, .commandK fun _ _ => .refl s⟩
  case valveStatus | keySlotInfo =>
    exact ⟨_, rfl, .commandK fun _ _ => .checked (.refl s)⟩
  case keyGenerate =>
    exact ⟨_, rfl, .ite (.refl s) (.commandK fun _ _ => .keyGenerate ..)⟩
  case keyImport =>
    exact ⟨_, rfl, .ite (.refl s) (.commandK fun _ _ => .keyImport ..)⟩
  case keyDelete =>
    exact ⟨_, rfl, .ite (.refl s) (.commandK fun _ _ => .keyDelete ..)⟩
  case keyDerive =>
    exact ⟨_, rfl, .ite (.refl s) (.commandK fun _ _ => .keyDerive ..)⟩
  case keyTransition =>
    exact ⟨_, rfl, .ite (.refl s) (.commandK fun _ _ => .keyTransition ..)⟩
  case privTestmode =>
    exact ⟨_, rfl, (State.Keeps.commandK fun _ _ => .privTestmode ..).trans (.resetIf ..)⟩
  -- Events that may change what is kept.
  case recordWriteDone =>
    exact ⟨_, rfl, .recordWriteDone ..⟩
  case repairDone =>
    exact ⟨_, rfl, .repairDone ..⟩
  case shadowSave =>
    exact ⟨_, rfl, .shadowSave ..⟩
  case assayRunStep =>
    exact ⟨_, rfl, .assayRunStep ..⟩
  case hoursIncrement park =>
    exact ⟨_, rfl, .hoursIncrement ..⟩
  case restartGateCheck =>
    exact ⟨_, rfl, .restartGateCheck ..⟩
  case programmeEnd n =>
    exact ⟨_, rfl, .programmeEnd ..⟩
  case membershipAuth a =>
    exact ⟨_, rfl, .membershipAuth ..⟩
  case tokenRound a rs =>
    exact ⟨_, rfl, .tokenRound ..⟩
  case trackingRound a rs =>
    exact ⟨_, rfl, .trackingRound ..⟩
  case peerFrame f =>
    exact ⟨_, rfl, .peerFrame ..⟩
  case wakeValidated src idx =>
    exact ⟨_, rfl, .wakeValidated ..⟩
  case failedRestartTimeout =>
    exact ⟨_, rfl, .failedRestartTimeout ..⟩
  case limpExit t =>
    exact ⟨_, rfl, .limpExit ..⟩
  case brownout v =>
    exact ⟨_, rfl, .brownout ..⟩
  case powerRemoved =>
    exact ⟨_, rfl, .powerRemoved ..⟩
  case adoption d =>
    exact ⟨_, rfl, .adoption ..⟩
  case adoptionRetry die r =>
    exact ⟨_, rfl, .adoptionRetry ..⟩
  case logicReset cause sub d =>
    exact ⟨_, rfl, .logicReset ..⟩
  case powerOn d =>
    exact ⟨_, rfl, .powerOn ..⟩
  case f1Restart =>
    exact ⟨_, rfl, .f1Restart ..⟩
  case clockCheck island dev =>
    exact ⟨_, rfl, .clockCheck ..⟩
  case islandReset island cause =>
    exact ⟨_, rfl, .islandReset ..⟩
  case bootDecision d =>
    exact ⟨_, rfl, .bootStep ..⟩
  case wakeSourceFire src idx x | hwakeNLow x =>
    exact ⟨_, rfl, .wakes ..⟩
  case anvilF0Timeout | backstopExpiry | logicRailHigh mv forNs =>
    exact ⟨_, rfl, .resetIf ..⟩
  case sysResetAssert =>
    refine ⟨_, rfl, ?_⟩
    split
    · exact .refl s
    · exact .resetIf ..
  case unadoptedRetry die r =>
    exact ⟨_, rfl, .of_same (State.onLogic_pending ..) (State.onLogic_kept ..)⟩
  case tdmFrame rx =>
    exact ⟨_, rfl, .live s _⟩
  case valveFire =>
    refine ⟨_, rfl, ?_⟩
    split
    · exact .refl s
    · exact .byLive s _
  -- Every other command changes the live state only.
  all_goals exact ⟨_, rfl, .of_same (by simp) (by simp)⟩

theorem f1Program_keeps {s t : State} (h : f1Program s = .next t) : s.Keeps t := by
  unfold f1Program at h
  split at h
  · cases h; exact .refl s
  · split at h
    · cases h; exact .interruptEntry s
    · split at h
      next i _ =>
        obtain ⟨u, hu, hk⟩ := exec_keeps i s
        cases hu.symm.trans h
        exact hk
      · cases h; exact .f1Exec fun _ _ _ => .f1Illegal ..

theorem tick_keeps {s t : State} (h : tick s = .next t) : s.Keeps t := by
  unfold tick at h
  split at h
  · cases h; exact .refl s
  · exact (State.Keeps.byLive s _).trans (f1Program_keeps h)

/-- A step takes the command at the front of the queue, and keeps the form. -/
theorem step_takes_front {s t : State} (h : step s = .next t) : t.pending = s.pending.tail ∧ (s.kept.ok → t.kept.ok) := by
  unfold step at h
  split at h
  next hp =>
    have hk := tick_keeps h
    exact ⟨by rw [hk.1, hp, List.tail_nil], hk.2⟩
  next c rest hp =>
    obtain ⟨u, hu, hk⟩ := exec_keeps c { s with pending := rest }
    cases hu.symm.trans h
    exact ⟨by rw [hk.1, hp, List.tail_cons], hk.2⟩

end Sys2Proof.Machine

open Sys2Proof Sys2Proof.Machine

/-- Settles O2: no command touches the queue, and each of them ends in a next state. -/
theorem stepKeepsQueue : Obligations.StepKeepsQueue := by
  refine ⟨fun s t h => (step_takes_front h).1, fun i s => ?_⟩
  obtain ⟨t, ht, hkeeps⟩ := exec_keeps i s
  exact ⟨t, ht, hkeeps.1⟩

/-- Settles O59: each command keeps the form, and the empty memories of the reset state have it. -/
theorem keptStaysInForm : Obligations.KeptStaysInForm :=
  ⟨fun _ _ hok h => (step_takes_front h).2 hok, reset_memory_wf.1, reset_memory_wf.2.1, List.length_replicate, List.length_replicate⟩
end

section
/-! The assertion of the logic reset line: what the parts of the reset leave of the host interface, MT, the supervisor, F1
and the orphan flags of the dies. -/

namespace Sys2Proof.Machine

/-- The logic is lost: no mailbox holds a command, and the supervisor is in reset. -/
structure Live.Lost (l : Live) : Prop where
  mb : l.host.mb = List.replicate 8 Mailbox.empty
  lmb : l.host.lmb = List.replicate 8 Mailbox.empty
  uart : l.host.uart = Mailbox.empty
  phase : l.sup.phase = .reset

/-- The host interface, MT, the supervisor, F1 and the dies' orphan flags are as they were. -/
structure Live.Calm (l l' : Live) : Prop where
  host : l'.host = l.host
  mt : l'.mt = l.mt
  sup : l'.sup = l.sup
  f1 : l'.f1 = l.f1
  orphans : l'.load.dies.map (·.orphan) = l.load.dies.map (·.orphan)

theorem Live.Calm.refl (l : Live) : l.Calm l := ⟨rfl, rfl, rfl, rfl, rfl⟩

theorem Live.Calm.trans {a b c : Live} (h : a.Calm b) (k : b.Calm c) : a.Calm c :=
  ⟨k.host.trans h.host, k.mt.trans h.mt, k.sup.trans h.sup, k.f1.trans h.f1, k.orphans.trans h.orphans⟩

theorem Live.Lost.calm {l l' : Live} (h : l.Lost) (k : l.Calm l') : l'.Lost :=
  ⟨by rw [k.host, h.mb], by rw [k.host, h.lmb], by rw [k.host, h.uart], by rw [k.sup, h.phase]⟩

/-- One part of the reset after another. -/
theorem Live.Lost.then {a b c : Live} (h : a.Lost) (k : a.Calm b) (k2 : b.Lost → b.Calm c) : a.Calm c :=
  k.trans (k2 (h.calm k))

/-- Steps of a fold that each keep the calm keep it together. -/
theorem Live.Lost.foldl {α : Type} {f : Live → α → Live} (hf : ∀ (l : Live) (x : α), l.Lost → l.Calm (f l x)) (xs : List α) :
    ∀ l : Live, l.Lost → l.Calm (xs.foldl f l) := by
  induction xs with
  | nil => exact fun l _ => .refl l
  | cons x xs ih => exact fun l h => (hf l x h).trans (ih _ (h.calm (hf l x h)))

/-- No mailbox of the module is BUSY when the logic is lost; only a relayed command can be. -/
theorem Live.Lost.box_free {l : Live} (h : l.Lost) {m : MbRef} {b : Mailbox} (hb : l.box m = some b) (hm : ∀ id, m ≠ .relay id) :
    b.st = .free := by
  have hfree : Mailbox.empty.st = .free := rfl
  cases m with
  | host n =>
    simp only [Live.box, h.mb, List.getElem?_replicate, Option.ite_none_right_eq_some, Option.some.injEq] at hb
    rw [← hb.2, hfree]
  | loc n =>
    simp only [Live.box, h.lmb, List.getElem?_replicate, Option.ite_none_right_eq_some, Option.some.injEq] at hb
    rw [← hb.2, hfree]
  | uart =>
    simp only [Live.box, h.uart, Option.some.injEq] at hb
    rw [← hb, hfree]
  | relay id => exact absurd rfl (hm id)

@[simp] theorem Live.deliver_relay_host (l : Live) (id : Nat) (r : List Byte) : (l.deliver (.relay id) r).host = l.host := by
  unfold Live.deliver; split <;> rfl

@[simp] theorem Live.gatherAnswer_relay_host (l : Live) (id p st : Nat) : (l.gatherAnswer (.relay id) p st).host = l.host := by
  unfold Live.gatherAnswer
  split
  · rfl
  next g hg =>
    have howner : g.owner = .relay id := by simpa using List.find?_some hg
    simp only [howner]
    split
    · simp only [Live.endGather, howner]
      split
      · rfl
      · split <;> simp
    · rfl

/-- A command that ends while the logic is lost leaves no trace in the host interface. -/
theorem Live.Lost.complete_host {l : Live} (h : l.Lost) (m : MbRef) (st : Status) (d : Nat) (p : List Byte) :
    (l.complete m st d p).host = l.host := by
  unfold Live.complete
  split
  · rfl
  next b hb =>
    by_cases hm : ∀ id, m ≠ .relay id
    · simp [h.box_free hb hm]
    · obtain ⟨id, rfl⟩ := by simpa using hm
      split
      · rfl
      · split <;> simp

theorem Live.Lost.complete {l : Live} (h : l.Lost) (m : MbRef) (st : Status) (d : Nat) (p : List Byte) :
    l.Calm (l.complete m st d p) :=
  ⟨h.complete_host m st d p, by simp, by simp, by simp, by simp⟩

theorem Live.Lost.entryDone {l : Live} (h : l.Lost) (o : Option (MbRef × Nat)) (st : Status) : l.Calm (l.entryDone o st) := by
  unfold Live.entryDone
  split
  · exact .refl l
  · split
    · exact .refl l
    · split
      · exact .refl l
      · unfold Live.closeCmd
        split
        · exact ⟨rfl, rfl, rfl, rfl, rfl⟩
        · show l.Calm (Live.complete _ _ _ _ _)
          refine h.then ?_ fun h' => h'.complete _ _ _ _
          exact ⟨rfl, rfl, rfl, rfl, rfl⟩

/-- A change of a die that leaves its orphan flag alone. -/
theorem Live.Calm.setDie (l : Live) (d : Nat) (f : DieState → DieState) (hf : ∀ x, (f x).orphan = x.orphan) :
    l.Calm (l.setDie d f) := by
  refine ⟨rfl, rfl, rfl, rfl, ?_⟩
  apply List.ext_getElem?
  intro i
  simp only [Live.setDie, upd, List.getElem?_map, List.getElem?_modify]
  cases l.load.dies[i]? with
  | none => rfl
  | some x => simp only [Option.map_some]; split <;> simp [hf]

/-- While the logic is away a die logs its events, and raises none. -/
theorem Live.Lost.dieRaise {l : Live} (h : l.Lost) (d id sev c : Nat) (p : List Byte) : l.Calm (l.dieRaise d id sev c p) := by
  have hcond : ((l.die d).orphan || l.sup.phase != .running) = true := by simp [h.phase]
  simp only [Live.dieRaise, Live.dieRaiseAt, hcond, if_true]
  exact .setDie l d _ fun _ => rfl

theorem Live.Lost.endFade {l : Live} (h : l.Lost) (n c : Nat) : l.Calm (l.endFade n c) := by
  unfold Live.endFade
  split
  · exact .refl l
  · show l.Calm (Live.dieRaise (List.foldl _ _ _) _ _ _ _ _)
    refine h.then (h.then ?_ fun h' => Live.Lost.foldl (fun _ _ hl => hl.entryDone _ _) _ _ h') fun h' => h'.dieRaise _ _ _ _ _
    exact ⟨rfl, rfl, rfl, rfl, rfl⟩

theorem Live.Lost.fadesOrphan {l : Live} (h : l.Lost) (d : Nat) : l.Calm (l.fadesOrphan d) :=
  Live.Lost.foldl (fun _ _ hl => hl.endFade _ _) _ _ h

theorem Live.Calm.changed (l : Live) (src : Source) : l.Calm (l.changed src) := .setDie l _ _ fun _ => rfl

theorem Live.Calm.bridgeStops (l : Live) (k : Nat) (st : BrState) : l.Calm (l.bridgeStops k st) := by
  have h : l.Calm ((l.changed (.leg k)).dropSlot (.leg k)) :=
    (Live.Calm.changed l (.leg k)).trans ⟨by simp, by simp, by simp, by simp, by simp⟩
  exact h.trans ⟨rfl, rfl, rfl, rfl, rfl⟩

theorem Live.Calm.bridgeOrphan (l : Live) (k : Nat) : l.Calm (l.bridgeOrphan k) := by
  have hends : ∀ (c : Bool) (st : BrState) (f : Bridge → Bridge), l.Calm ((if c then l.bridgeStops k st else l).setBr k f) := by
    intro c st f
    cases c
    · exact ⟨rfl, rfl, rfl, rfl, rfl⟩
    · exact (Live.Calm.bridgeStops l k st).trans ⟨rfl, rfl, rfl, rfl, rfl⟩
  unfold Live.bridgeOrphan
  dsimp only
  split
  · exact hends _ _ _
  · split
    · exact .refl l
    · split
      · exact hends _ _ _
      · split
        · exact hends _ _ _
        · exact .refl l

theorem Live.Calm.dropFire (l : Live) (v : Nat) : l.Calm (l.dropFire v) := by
  unfold Live.dropFire
  split
  · exact .refl l
  · split <;> exact ⟨rfl, rfl, rfl, rfl, rfl⟩

theorem Live.Lost.valvesOrphan {l : Live} (h : l.Lost) : l.Calm l.valvesOrphan := by
  refine Live.Lost.foldl (fun l v hl => ?_) _ _ h
  dsimp only
  split
  · exact hl.then (.dropFire l v) fun h' => h'.complete _ _ _ _
  · exact .dropFire l v

/-- What follows the entry of a die into orphan mode. -/
theorem Live.Lost.orphanRest {l : Live} (h : l.Lost) (d : Nat) (bs : List Nat) :
    l.Calm (bs.foldl (fun l k => if sourceDie (.leg k) = d then l.bridgeOrphan k else l) (l.fadesOrphan d)) := by
  refine h.then (h.fadesOrphan d) fun h' => Live.Lost.foldl (fun l k _ => ?_) bs _ h'
  split
  · exact .bridgeOrphan l k
  · exact .refl l

theorem Live.orphanDie_calm {l : Live} (h : l.Lost) (d : Nat) (hd : (l.die d).orphan = false) :
    (l.setDie d fun x => { x with
      orphan := true, orphanAt := l.mt.now, turnOns := [0, 0], offDone := false, tries := 0, mustReinit := false }).Calm
      (l.orphanDie d) := by
  unfold Live.orphanDie
  simp only [hd, Bool.false_eq_true, if_false]
  have h' : (l.setDie d fun x => { x with
      orphan := true, orphanAt := l.mt.now, turnOns := [0, 0], offDone := false, tries := 0, mustReinit := false }).Lost :=
    ⟨h.mb, h.lmb, h.uart, h.phase⟩
  refine h'.then ?_ fun k => Live.Lost.foldl (fun _ o hl => hl.entryDone o .internal) _ _ k
  exact ⟨rfl, rfl, rfl, rfl, rfl⟩

/-- A die enters orphan mode: its flag is set, nothing else of what the reset reports moves. -/
theorem Live.Lost.orphan {l : Live} (h : l.Lost) (d : Nat) :
    (l.orphan d).host = l.host ∧ (l.orphan d).mt = l.mt ∧ (l.orphan d).sup = l.sup ∧ (l.orphan d).f1 = l.f1 ∧
      (l.orphan d).load.dies.map (·.orphan) = (l.load.dies.map (·.orphan)).set d true := by
  unfold Live.orphan
  by_cases hd : (l.die d).orphan = true
  · refine ⟨by simp [hd], by simp [hd], by simp [hd], by simp [hd], ?_⟩
    rw [if_pos hd]
    refine (List.ext_getElem? fun i => ?_).symm
    rw [List.getElem?_set]
    split
    next hi =>
      subst hi
      simp only [Live.die, List.getD_eq_getElem?_getD] at hd
      cases hx : l.load.dies[d]? with
      | none =>
        have := List.getElem?_eq_none_iff.mp hx
        simp [hx]; omega
      | some x =>
        have hlt := (List.getElem?_eq_some_iff.mp hx).1
        simp_all
    · rfl
  · rw [if_neg hd]
    have hd' : (l.die d).orphan = false := by simpa using hd
    have k1 := Live.orphanDie_calm h d hd'
    have h1 : (l.orphanDie d).Lost := Live.Lost.calm (l := l.setDie d _) ⟨h.mb, h.lmb, h.uart, h.phase⟩ k1
    have k2 := h1.orphanRest d (List.range 8)
    have k3 : (l.setDie d fun x => { x with
        orphan := true, orphanAt := l.mt.now, turnOns := [0, 0], offDone := false, tries := 0, mustReinit := false }).Calm
        (if d = 1 then ((List.range 8).foldl (fun l k => if sourceDie (.leg k) = d then l.bridgeOrphan k else l)
          ((l.orphanDie d).fadesOrphan d)).valvesOrphan else
          (List.range 8).foldl (fun l k => if sourceDie (.leg k) = d then l.bridgeOrphan k else l)
          ((l.orphanDie d).fadesOrphan d)) := by
      split
      · exact (k1.trans k2).trans (h1.calm k2).valvesOrphan
      · exact k1.trans k2
    refine ⟨k3.host, k3.mt, k3.sup, k3.f1, k3.orphans.trans ?_⟩
    refine List.ext_getElem? fun i => ?_
    simp only [Live.setDie, upd, List.getElem?_map, List.getElem?_modify, List.getElem?_set, List.length_map]
    by_cases hi : d = i
    · subst hi
      by_cases hlt : d < l.load.dies.length <;> simp [hlt]
    · simp [hi]

/-- The host interface, MT, the supervisor, F1 and the dies with their flags are as they were, MT's source aside. -/
structure Live.Front (l l' : Live) : Prop where
  host : l'.host = l.host
  now : l'.mt.now = l.mt.now
  sup : l'.sup = l.sup
  f1 : l'.f1 = l.f1
  orphans : l'.load.dies.map (·.orphan) = l.load.dies.map (·.orphan)

theorem Live.Calm.front {l l' : Live} (h : l.Calm l') : l.Front l' := ⟨h.host, by rw [h.mt], h.sup, h.f1, h.orphans⟩

theorem Live.Front.trans {a b c : Live} (h : a.Front b) (k : b.Front c) : a.Front c :=
  ⟨k.host.trans h.host, k.now.trans h.now, k.sup.trans h.sup, k.f1.trans h.f1, k.orphans.trans h.orphans⟩

theorem Live.Lost.front {l l' : Live} (h : l.Lost) (k : l.Front l') : l'.Lost :=
  ⟨by rw [k.host, h.mb], by rw [k.host, h.lmb], by rw [k.host, h.uart], by rw [k.sup, h.phase]⟩

theorem Live.Lost.tokensEnd {l : Live} (h : l.Lost) : l.Calm l.tokensEnd := by
  unfold Live.tokensEnd
  refine h.then (b := l.token.ants.foldl (fun l (x : TokenAnt) => match x.attempt with
    | some at_ => l.endEnrol at_ .timeout
    | none => l) l) (Live.Lost.foldl (fun l x hl => ?_) _ _ h) fun _ => ⟨rfl, rfl, rfl, rfl, rfl⟩
  split
  · unfold Live.endEnrol
    split
    · exact .refl l
    · exact hl.complete _ _ _ _
  · exact .refl l

/-- What the loss of the logic does to the outputs after both dies have entered orphan mode. -/
def Live.outputsLeft (l : Live) : Live :=
  { l with
    plan := { l.plan with
      edges := (l.plan.edges.filter fun (e : Edge) => e.phase == .placed).map fun (e : Edge) => { e with owner := none },
      changes := (l.plan.changes.filter fun (c : SlotChange) => c.admitted).map fun (c : SlotChange) => { c with owner := none },
      dropped := [], refused := 0, exceeded := [], dirty := none },
    load := { l.load with
      ch := l.load.ch.map fun (c : LoadCh) => { c with adopted := false },
      br := l.load.br.map fun (b : Bridge) => { b with adopted := false } },
    fio := { l.fio with ch := l.fio.ch.map fun (c : FioCh) => { c with adopted := false }, speedEdges := [], speed := 0 },
    valve := { l.valve with
      valves := l.valve.valves.map fun (v : Valve) => { v with adopted := false },
      banks := l.valve.banks.map fun (b : Bank) => { b with adopted := false } } }

theorem Live.outputsReset_eq (l : Live) : l.outputsReset =
    ((Live.orphan { l with plan := { l.plan with openCmds := [] } } 0).orphan 1).fallBudgets.outputsLeft := rfl

theorem Live.fallBudgets_front (l : Live) : l.Front l.fallBudgets := ⟨rfl, rfl, rfl, rfl, rfl⟩
theorem Live.outputsLeft_front (l : Live) : l.Front l.outputsLeft := ⟨rfl, rfl, rfl, rfl, rfl⟩

theorem Live.Lost.outputsReset {l : Live} (h : l.Lost) :
    l.outputsReset.host = l.host ∧ l.outputsReset.mt.now = l.mt.now ∧ l.outputsReset.sup = l.sup ∧ l.outputsReset.f1 = l.f1 ∧
      l.outputsReset.load.dies.map (·.orphan) = ((l.load.dies.map (·.orphan)).set 0 true).set 1 true := by
  have ha : Live.Lost { l with plan := { l.plan with openCmds := [] } } := ⟨h.mb, h.lmb, h.uart, h.phase⟩
  rw [l.outputsReset_eq]
  obtain ⟨h0, t0, s0, f0, o0⟩ := ha.orphan 0
  have hb : (Live.orphan { l with plan := { l.plan with openCmds := [] } } 0).Lost :=
    ⟨by rw [h0, h.mb], by rw [h0, h.lmb], by rw [h0, h.uart], by rw [s0, h.phase]⟩
  generalize Live.orphan { l with plan := { l.plan with openCmds := [] } } 0 = l1 at *
  obtain ⟨h1, t1, s1, f1, o1⟩ := hb.orphan 1
  have k := (l1.orphan 1).fallBudgets_front.trans (Live.outputsLeft_front _)
  exact ⟨k.host.trans (h1.trans h0), k.now.trans (by rw [t1, t0]), k.sup.trans (s1.trans s0), k.f1.trans (f1.trans f0),
    k.orphans.trans (by rw [o1, o0])⟩

/-- The state when the host interface, MT's source, the links and the supplies are as a reset leaves them. -/
def Live.logicLostFirst (l : Live) : Live :=
  ({ l with sup := { l.sup with phase := .reset }, fwu := { l.fwu with engineKey := none } }).hostReset.clockReset.supplyReset

theorem Live.logicLostFirst_lost (l : Live) : l.logicLostFirst.Lost := ⟨rfl, rfl, rfl, rfl⟩

/-- What follows the outputs: the front ends, CAN, the sleep of the network, the link and the stores. -/
def Live.logicLostLast (l : Live) : Live := l.frontReset.canReset.driveTrx.nmReset.linkReset.storeReset

theorem Live.storeReset_front (l : Live) : l.endKeySessions.tokensEnd.Front l.storeReset := ⟨rfl, rfl, rfl, rfl, rfl⟩

theorem Live.frontReset_front (l : Live) : l.Front l.frontReset := ⟨rfl, rfl, rfl, rfl, rfl⟩
theorem Live.canReset_front (l : Live) : l.Front l.canReset := ⟨rfl, rfl, rfl, rfl, rfl⟩
theorem Live.driveTrx_front (l : Live) : l.Front l.driveTrx := ⟨rfl, rfl, rfl, rfl, rfl⟩
theorem Live.nmReset_front (l : Live) : l.Front l.nmReset := ⟨rfl, rfl, rfl, rfl, rfl⟩
theorem Live.linkReset_front (l : Live) : l.Front l.linkReset := ⟨rfl, rfl, rfl, rfl, rfl⟩

theorem Live.Lost.storeReset {l : Live} (h : l.Lost) : l.Front l.storeReset := by
  have h1 : l.Front l.endKeySessions := ⟨rfl, rfl, rfl, rfl, rfl⟩
  exact (h1.trans (h.front h1).tokensEnd.front).trans l.storeReset_front

theorem Live.Lost.logicLostLast {l : Live} (h : l.Lost) : l.Front l.logicLostLast := by
  have k : l.Front l.frontReset.canReset.driveTrx.nmReset.linkReset :=
    (((l.frontReset_front.trans (Live.canReset_front _)).trans (Live.driveTrx_front _)).trans (Live.nmReset_front _)).trans
      (Live.linkReset_front _)
  exact k.trans (h.front k).storeReset

theorem Live.logicLost_eq (l : Live) : l.logicLost = l.logicLostFirst.outputsReset.logicLostLast.f1Reset := rfl

/-- The parts of the state that the assertion of the line is asked for, after the loss of the logic. -/
theorem Live.logicLost_keeps (l : Live) :
    l.logicLost.host = l.logicLostFirst.host ∧ l.logicLost.mt.now = l.mt.now ∧
      l.logicLost.sup = { l.sup with phase := .reset } ∧ l.logicLost.f1 = { F1State.init with dmem := l.f1.dmem } ∧
      l.logicLost.load.dies.map (·.orphan) = ((l.load.dies.map (·.orphan)).set 0 true).set 1 true := by
  have h := l.logicLostFirst_lost
  obtain ⟨hh, ht, hs, hf, ho⟩ := h.outputsReset
  have h' : l.logicLostFirst.outputsReset.Lost :=
    ⟨by rw [hh]; exact h.mb, by rw [hh]; exact h.lmb, by rw [hh]; exact h.uart, by rw [hs]; exact h.phase⟩
  have k := h'.logicLostLast
  rw [l.logicLost_eq]
  refine ⟨k.host.trans hh, k.now.trans (ht.trans rfl), k.sup.trans (hs.trans rfl), ?_, k.orphans.trans ho⟩
  show ({ F1State.init with dmem := l.logicLostFirst.outputsReset.logicLostLast.f1.dmem } : F1State) = _
  rw [k.f1, hf]
  rfl

theorem Live.logicLost_active (l : Live) : l.logicLost.param.active = none := rfl

/-- The live state that a reset starts from is the one it found: finishing a write unit touches only what is kept. -/
@[simp] theorem State.finishUnit_live (s : State) : s.finishUnit.live = s.live := by
  unfold State.finishUnit; split <;> rfl

@[simp] theorem State.finishUnit_pending (s : State) : s.finishUnit.pending = s.pending := by
  unfold State.finishUnit; split <;> rfl

theorem State.finishUnit_idle (s : State) (h : s.live.param.active = none) : s.finishUnit = s := by
  unfold State.finishUnit; rw [h]

@[simp] theorem State.assertReset_pending (s : State) (c sub : Nat) : (s.assertReset c sub).pending = s.pending := by
  simp [State.assertReset]

theorem State.assertReset_kept (s : State) (c sub : Nat) : (s.assertReset c sub).kept = s.finishUnit.kept := rfl

theorem State.assertReset_live (s : State) (c sub : Nat) : (s.assertReset c sub).live = s.live.logicLost.noteReset c sub := by
  simp [State.assertReset]

/-- The entry of the reset in the supervisor's record. -/
theorem Live.noteReset_keeps (l : Live) (c sub : Nat) :
    (l.noteReset c sub).host = l.host ∧ (l.noteReset c sub).f1 = l.f1 ∧ (l.noteReset c sub).load = l.load ∧
      (l.noteReset c sub).param = l.param ∧ (l.noteReset c sub).sup.phase = l.sup.phase ∧
      (l.noteReset c sub).sup.resetLine = true ∧ (l.noteReset c sub).sup.cause = c ∧ (l.noteReset c sub).sup.subcause = sub ∧
      (l.noteReset c sub).sup.resetMt = l.mt.now ∧ (l.noteReset c sub).sup.restarts = (l.sup.restarts + 1) % 2 ^ 32 :=
  ⟨rfl, rfl, rfl, rfl, rfl, rfl, rfl, rfl, rfl, rfl⟩

end Sys2Proof.Machine

open Sys2Proof Sys2Proof.Machine

/-- Settles O14: the loss of the logic leaves the host interface as its reset has put it, and the record of the reset is made
last. -/
theorem resetLeaves : Obligations.ResetLeaves := by
  intro c sub s d0 d1 hd
  dsimp only
  rw [s.assertReset_pending, s.assertReset_kept, s.assertReset_live]
  obtain ⟨hh, hn, hs, hf, ho⟩ := s.live.logicLost_keeps
  obtain ⟨kh, kf, kl, kp, kph, kline, kc, ksub, kmt, kre⟩ := s.live.logicLost.noteReset_keeps c sub
  have hflags : (s.live.logicLost.load.dies.map (·.orphan)) = [true, true] := by rw [ho, hd]; rfl
  refine ⟨by rw [kph, hs], kline, kc, ksub, by rw [kmt, hn], by rw [kre, hs], ?_⟩
  refine ⟨by rw [kh, hh]; rfl, by rw [kh, hh]; rfl, by rw [kh, hh]; rfl, by rw [kh, hh]; rfl, by rw [kh, hh]; rfl,
    by rw [kh, hh]; rfl, by rw [kf, hf]; rfl, by rw [kf, hf], ?_, by rw [kp]; exact s.live.logicLost_active, rfl,
    fun h => by rw [s.finishUnit_idle h]⟩
  intro d hmem
  rw [kl] at hmem
  have := List.mem_map_of_mem (f := fun x : DieState => x.orphan) hmem
  rw [hflags] at this
  simpa using this
end

section
/-! What the entry of an event record leaves of the host interface, of the link and of F1: everything but the event queues with
their counts, EVENT_N and the pending lines. -/

namespace Sys2Proof.Machine

/-- The host interface without its event queues. -/
def HostState.unqueued (h : HostState) : HostState :=
  { h with evq := [], headSeq := 0, drops := 0, f1q := [], f1Drops := 0, svcq := [], eventLow := false }

/-- A field that is none of the queues reads alike in interfaces that differ in their queues. -/
theorem HostState.read_unqueued {α : Type} (f : HostState → α) (hf : ∀ h : HostState, f h.unqueued = f h) {a b : HostState}
    (h : a.unqueued = b.unqueued) : f a = f b := by
  rw [← hf a, ← hf b, h]

/-- The link without its queue of events. -/
def LinkState.unqueued (k : LinkState) : LinkState :=
  { k with evtQueue := [], evtDropped := 0, evtTotal := 0, evtDropRaised := none }

theorem Live.enterHost_unqueued (l : Live) (r : EventRec) : (l.enterHost r).host.unqueued = l.host.unqueued := by
  simp only [Live.enterHost]; split <;> rfl

theorem Live.enterF1_unqueued (l : Live) (r : EventRec) : (l.enterF1 r).host.unqueued = l.host.unqueued := by
  simp only [Live.enterF1]; split <;> rfl

theorem Live.enter_unqueued (l : Live) (r : EventRec) : (l.enter r).host.unqueued = l.host.unqueued := by
  have h1 : (if l.host.minSev ≤ r.sev then l.enterHost r else l).host.unqueued = l.host.unqueued := by
    split
    · exact l.enterHost_unqueued r
    · rfl
  simp only [Live.enter]
  generalize (if l.host.minSev ≤ r.sev then l.enterHost r else l) = l1 at *
  have h2 : (if l1.host.f1MinSev ≤ r.sev then l1.enterF1 r else l1).host.unqueued = l.host.unqueued := by
    split
    · exact (l1.enterF1_unqueued r).trans h1
    · exact h1
  generalize (if l1.host.f1MinSev ≤ r.sev then l1.enterF1 r else l1) = l2 at *
  split
  · exact Eq.trans rfl h2
  · exact h2

theorem Live.enterLink_unqueued (l : Live) (r : EventRec) :
    (l.enterLink r).host.unqueued = l.host.unqueued ∧ (l.enterLink r).link.unqueued = l.link.unqueued := by
  have hdrop : ∀ (k : LinkState) (x : EventRec), k.unqueued = l.link.unqueued →
      (Live.enter { l with link := k } x).host.unqueued = l.host.unqueued ∧
        (Live.enter { l with link := k } x).link.unqueued = l.link.unqueued :=
    fun k x hk => ⟨Live.enter_unqueued _ x, by rw [Live.enter_link]; exact hk⟩
  unfold Live.enterLink
  split
  · exact ⟨rfl, rfl⟩
  · split
    · exact ⟨rfl, rfl⟩
    · simp only
      split
      · split
        · exact ⟨rfl, rfl⟩
        · exact hdrop _ _ rfl
      · exact hdrop _ _ rfl

theorem Live.raise_unqueued (l : Live) (id sev c : Nat) (p : List Byte) :
    (l.raise id sev c p).host.unqueued = l.host.unqueued :=
  (Live.enterLink_unqueued _ _).1.trans (l.enter_unqueued _)

theorem Live.raiseAt_unqueued (l : Live) (t id sev c : Nat) (p : List Byte) :
    (l.raiseAt t id sev c p).host.unqueued = l.host.unqueued :=
  (Live.enterLink_unqueued _ _).1.trans (l.enter_unqueued _)

theorem Live.raise_link_unqueued (l : Live) (id sev c : Nat) (p : List Byte) :
    (l.raise id sev c p).link.unqueued = l.link.unqueued := by
  rw [Live.raise, (Live.enterLink_unqueued _ _).2, Live.enter_link]

@[simp] theorem Live.raise_mb (l : Live) (id sev c : Nat) (p : List Byte) : (l.raise id sev c p).host.mb = l.host.mb :=
  HostState.read_unqueued HostState.mb (fun _ => rfl) (l.raise_unqueued id sev c p)
@[simp] theorem Live.raise_lmb (l : Live) (id sev c : Nat) (p : List Byte) : (l.raise id sev c p).host.lmb = l.host.lmb :=
  HostState.read_unqueued HostState.lmb (fun _ => rfl) (l.raise_unqueued id sev c p)
@[simp] theorem Live.raise_uart (l : Live) (id sev c : Nat) (p : List Byte) : (l.raise id sev c p).host.uart = l.host.uart :=
  HostState.read_unqueued HostState.uart (fun _ => rfl) (l.raise_unqueued id sev c p)
@[simp] theorem Live.raise_hifErrs (l : Live) (id sev c : Nat) (p : List Byte) :
    (l.raise id sev c p).host.hifErrs = l.host.hifErrs :=
  HostState.read_unqueued HostState.hifErrs (fun _ => rfl) (l.raise_unqueued id sev c p)
@[simp] theorem Live.raise_sealOpen (l : Live) (id sev c : Nat) (p : List Byte) :
    (l.raise id sev c p).host.sealOpen = l.host.sealOpen :=
  HostState.read_unqueued HostState.sealOpen (fun _ => rfl) (l.raise_unqueued id sev c p)
@[simp] theorem Live.raise_sealKohm (l : Live) (id sev c : Nat) (p : List Byte) :
    (l.raise id sev c p).host.sealKohm = l.host.sealKohm :=
  HostState.read_unqueued HostState.sealKohm (fun _ => rfl) (l.raise_unqueued id sev c p)
@[simp] theorem Live.raise_staged (l : Live) (id sev c : Nat) (p : List Byte) :
    (l.raise id sev c p).host.staged = l.host.staged :=
  HostState.read_unqueued HostState.staged (fun _ => rfl) (l.raise_unqueued id sev c p)

end Sys2Proof.Machine
end

section
/-! Transactions of the quad-SPI interface: which branch of the window each one takes. -/

namespace Sys2Proof.Machine

theorem Live.hifError_hifErrs (l : Live) (addr : Nat) : (l.hifError 1 addr).host.hifErrs = min 255 (l.host.hifErrs + 1) := by
  unfold Live.hifError
  dsimp only
  split
  · split <;> simp
  · simp

theorem hostWrite_whole {i : Byte} (hi : i = 0x02 ∨ i = 0x32) {addr len : Nat} {data : List Byte} (crc : BitVec 32) (s : State)
    (hlen : data.length = len) : hostWrite i addr len data crc true s =
      if !s.live.commandLayer then s.onLive fun l => l.result resNotReady
      else if crc32 (spiBytes i addr len data) != crc then s.onLive fun l => (l.hifError 0 addr).result resCrc
      else s.applyWrite addr len data := by
  have hw : isWrite i = true := by rcases hi with rfl | rfl <;> rfl
  simp [hostWrite, hw, hlen]

/-- The result bytes as they are driven. -/
theorem Live.result_bytes (l : Live) : l.result resAccepted = l.spi [0xA0] ∧ l.result resCrc = l.spi [0xA1] ∧
    l.result resBusy = l.spi [0xA2] ∧ l.result resNotReady = l.spi [0xA4] := ⟨rfl, rfl, rfl, rfl⟩

theorem hostRead_whole {i : Byte} (hi : i = 0x0B ∨ i = 0x6B) (addr len : Nat) (l : Live) : hostRead i addr len true l =
      if !l.commandLayer then l.spi (List.replicate (len + 4) 0xFF)
      else match l.hostWindow addr len with
        | some bs => l.spi (bs ++ le 4 (crc32 (spiBytes i addr len bs)).toNat)
        | none =>
          let zeros := List.replicate len 0
          (l.hifError 1 addr).spi (zeros ++ le 4 (~~~ (crc32 (spiBytes i addr len zeros))).toNat) := by
  have hw : isRead i = true := by rcases hi with rfl | rfl <;> rfl
  simp only [hostRead, hw]
  rfl

/-- A write while the command layer runs, by its CRC. -/
theorem hostWrite_running {i : Byte} (hi : i = 0x02 ∨ i = 0x32) {addr len : Nat} {data : List Byte} {crc : BitVec 32} {s : State}
    (hlen : data.length = len) (hc : s.live.commandLayer = true) : hostWrite i addr len data crc true s =
      if crc32 (spiBytes i addr len data) = crc then s.applyWrite addr len data
      else s.onLive fun l => (l.hifError 0 addr).spi [0xA1] := by
  rw [hostWrite_whole hi crc s hlen, hc]
  by_cases h : crc32 (spiBytes i addr len data) = crc
  · rw [if_pos h, if_neg (by simp), if_neg (by simp [h])]
  · rw [if_neg h, if_neg (by simp), if_pos (by simp [h])]
    rfl

/-- A write within one mailbox. -/
theorem State.applyWrite_mailbox {addr len : Nat} (data : List Byte) (s : State) (h4 : addr % 4 = 0) (hl4 : len % 4 = 0)
    (hl : 4 ≤ len) (ha : addr < 0x1000) (hr : addr % 512 + len ≤ 512) :
    s.applyWrite addr len data = s.onLive fun l => l.mailboxWrite (addr / 512) (addr % 512) data := by
  have hal : spiAligned addr len = true := by
    simp only [spiAligned, h4, hl4, hl]
    simp; omega
  have hmb : mailboxAt addr len = some (addr / 512) := if_pos ⟨ha, hr⟩
  unfold State.applyWrite
  rw [hal, hmb]
  rfl

/-- A write into a mailbox, by its state. -/
theorem Live.mailboxWrite_of_box {l : Live} {n : Nat} {b : Mailbox} (off : Nat) (data : List Byte) (hb : l.host.mb[n]? = some b) :
    l.mailboxWrite n off data = if b.st = .free
      then (l.setBox (.host n) { b with bytes := requestBytes (splice b.bytes off data) }).spi [0xA0] else l.spi [0xA2] := by
  unfold Live.mailboxWrite
  rw [hb]
  by_cases h : b.st = .free <;> simp [h] <;> rfl

theorem State.controlWord_hifConfig (s : State) (v : Nat) :
    s.controlWord 0x1014 v = some (s.onLive fun l => l.hifConfig v) := by
  simp only [State.controlWord, Nat.reduceEqDiff, if_false, if_true]

/-- A write of one control word. -/
theorem State.applyWrite_word {addr : Nat} (data : List Byte) (s : State) (hal : spiAligned addr 4 = true)
    (hmb : mailboxAt addr 4 = none) : s.applyWrite addr 4 data =
    match s.controlWord addr (rd data 0 4) with
      | some s => s.onLive fun l => l.result resAccepted
      | none => s.onLive fun l => l.result resAddress := by
  unfold State.applyWrite
  rw [hal, hmb]
  rfl

theorem State.hifConfig_accepted (s : State) (v : Nat) : ((s.onLive fun l => l.hifConfig v).onLive fun l => l.result resAccepted) =
    s.onLive fun l => (l.hifConfig v).spi [0xA0] := rfl

/-- A write of HIF_CONFIG. -/
theorem State.applyWrite_hifConfig (data : List Byte) (s : State) : s.applyWrite 0x1014 4 data =
    s.onLive fun l => (l.hifConfig (rd data 0 4)).spi [0xA0] := by
  rw [State.applyWrite_word data s (by decide) (by decide), State.controlWord_hifConfig]
  exact s.hifConfig_accepted (rd data 0 4)

end Sys2Proof.Machine

open Sys2Proof Sys2Proof.Machine

/-- Settles O3: of a whole transaction only the command layer, the CRC, the alignment and the region decide. -/
theorem hostTransactions : Obligations.HostTransactions := by
  refine ⟨fun i s h1 h2 h3 h4 hc => ⟨?_, s.live.hifError_hifErrs 0⟩, fun i addr len data crc s hi hlen => ⟨?_, ?_, ?_, ?_⟩,
    fun i addr len s hi => ⟨?_, ?_, ?_⟩⟩
  · have hw : isWrite i = false := by simpa [isWrite] using And.intro h1 h2
    have hr : isRead i = false := by simpa [isRead] using And.intro h3 h4
    refine congrArg Host.Outcome.next ?_
    simp [hw, hr, State.onLive, Live.framing, hc]
  · intro hc
    refine congrArg Host.Outcome.next ?_
    rw [hostWrite_whole hi crc s hlen, hc]
    rfl
  · intro hc hcrc
    exact congrArg Host.Outcome.next ((hostWrite_running hi hlen hc).trans (if_neg hcrc))
  · intro hc hcrc h4 hl4 hl ha hr b hb
    have hrun : exec (.hostWrite i addr len data crc true) s =
        .next (s.onLive fun l => l.mailboxWrite (addr / 512) (addr % 512) data) :=
      congrArg Host.Outcome.next (((hostWrite_running hi hlen hc).trans (if_pos hcrc)).trans
        (s.applyWrite_mailbox data h4 hl4 hl ha hr))
    rw [hrun]
    simp only [State.onLive, Live.mailboxWrite_of_box _ data hb]
    exact ⟨fun hf => by rw [if_pos hf], fun hf => by rw [if_neg hf]⟩
  · rintro hc hcrc rfl rfl
    exact congrArg Host.Outcome.next (((hostWrite_running hi hlen hc).trans (if_pos hcrc)).trans (s.applyWrite_hifConfig data))
  · intro hc
    refine congrArg Host.Outcome.next (congrArg (fun l => { s with live := l }) ?_)
    rw [hostRead_whole hi]
    simp [hc]
  · intro hc bs hbs
    refine congrArg Host.Outcome.next (congrArg (fun l => { s with live := l }) ?_)
    rw [hostRead_whole hi]
    simp [hc, hbs]
  · intro hc hbs
    refine congrArg Host.Outcome.next (congrArg (fun l => { s with live := l }) ?_)
    rw [hostRead_whole hi]
    simp [hc, hbs]
end

section
/-! Doorbells and mailbox acknowledgements: the doorbell word of one mailbox, and the request that a ring leaves to the checks. -/

namespace Sys2Proof.Machine

/-- The mailboxes that the doorbell word of one mailbox rings. -/
theorem bitsOf_two_pow {n : Nat} (h : n < 8) : bitsOf 8 ((BitVec.ofNat 32 (2 ^ n)).toNat) = [n] := by
  interval_cases n <;> decide

/-- Ringing one mailbox outside WAKE-CHECK. -/
theorem State.doorbell_one {n : Nat} (h : n < 8) (s : State) (hm : s.live.pwr.mode ≠ .wakeCheck) :
    s.doorbell (BitVec.ofNat 32 (2 ^ n)).toNat = s.ringOne (.host n) n 0 := by
  have hw : s.hostWakes = s := by simp [State.hostWakes, hm]
  simp only [State.doorbell, bitsOf_two_pow h, hw]
  rfl

/-- A written control word as the transaction's result shows it. -/
theorem State.wordWrite_accepted (s : State) (f : State → State) (h : s.live.commandLayer = true) :
    s.wordWrite f = (f s).onLive fun l => l.spi [0xA0] := by
  rw [State.wordWrite_of_commandLayer f h]
  rfl

/-- The checks of a request look at its bytes only. -/
theorem requestFault_of_bytes {b c : Mailbox} (whole : Bool) (h : b.bytes = c.bytes) :
    requestFault b whole = requestFault c whole := by
  cases b
  cases c
  cases h
  rfl

/-- The mailbox that a ring makes BUSY. -/
theorem Live.ring_box {l : Live} {n : Nat} {b : Mailbox} (bs : List Byte) (h : l.host.mb[n]? = some b) :
    (l.ring (.host n) bs).box (.host n) =
      some { st := .busy, stage := .none, bytes := bs, seq := l.host.ringSeq, rungAt := l.mt.now } := by
  have hlt := (List.getElem?_eq_some_iff.mp h).1
  simp [Live.ring, Live.setBox, Live.box, hlt]

/-- A request that passes its checks, is for this module and needs no presence is admitted. -/
theorem State.accept_admits {s : State} {m : MbRef} {b : Mailbox} (hb : s.live.box m = some b)
    (hf : requestFault b true = none) (hdev : b.dev = 0x7E) (hp : s.proofOf b = none) :
    s.accept m true = s.onLive fun l => l.setStage m .admitted := by
  simp [State.accept, hb, hf, hdev, State.presenceCheck, hp]

theorem Live.mbAck_mb (l : Live) (v n : Nat) (b : Mailbox) (h : l.host.mb[n]? = some b) :
    (l.mbAck v).host.mb[n]? = some (if bit v n = true ∧ n < 8 ∧ b.st = .done then Mailbox.empty else b) := by
  simp [Live.mbAck, h, and_assoc]

end Sys2Proof.Machine

open Sys2Proof Sys2Proof.Machine

/-- Settles O4: the doorbell rings one mailbox, which answers by its state; an acknowledgement is taken mailbox by mailbox. -/
theorem doorbellsAndAcks : Obligations.DoorbellsAndAcks := by
  refine ⟨fun n s b hn hc hm hb => ?_, fun v s hc hlen => ?_⟩
  · have hrun : exec (.doorbell (BitVec.ofNat 32 (2 ^ n))) s =
        .next ((s.ringOne (.host n) n 0).onLive fun l => l.spi [0xA0]) :=
      congrArg Host.Outcome.next (by rw [s.wordWrite_accepted _ hc, s.doorbell_one hn hm])
    rw [hrun]
    have hbox : s.live.box (.host n) = some b := hb
    refine ⟨fun hst hf hdev hp => ?_, fun hst => ?_, fun hst => ?_⟩
    · have hr : (s.onLive fun l => l.ring (.host n) b.bytes).live.box (.host n) = _ := Live.ring_box b.bytes hb
      have ha := State.accept_admits hr ((requestFault_of_bytes true rfl).trans hf) hdev hp
      simp only [State.ringOne, hbox, hst, ha]
      rfl
    · simp only [State.ringOne, hbox, hst]
      rfl
    · simp only [State.ringOne, hbox, hst]
      rfl
  · refine ⟨_, congrArg Host.Outcome.next (s.wordWrite_accepted _ hc), rfl, ?_, fun n b hb => ?_⟩
    · show (List.map _ s.live.host.mb.zipIdx).length = 8
      simpa using hlen
    · exact s.live.mbAck_mb v.toNat n b hb
end

section
/-! The control words of the host window, and EVENT_N at the end of its holdoff. -/

namespace Sys2Proof.Machine

/-- EVENT_N is due exactly while a mailbox is DONE or a record calls for the host. -/
theorem Live.eventDue_iff (l : Live) : l.eventDue = true ↔
    (∃ b ∈ l.host.mb, b.st = .done) ∨
      (∃ r ∈ l.host.evq, warn ≤ r.sev ∨ r.entered + us (100 * l.host.holdoff) ≤ l.mt.now) := by
  simp [Live.eventDue, Live.calls]

end Sys2Proof.Machine

open Sys2Proof Sys2Proof.Machine

/-- Settles O6: only bit 3 of the word acts, and EVENT_N is driven by its condition. -/
theorem hostControlWords : Obligations.HostControlWords := by
  refine ⟨fun v s hc => ?_, fun s hrun => ?_⟩
  · refine congrArg Host.Outcome.next ((s.wordWrite_accepted _ hc).trans ?_)
    have hbit : bit v.toNat 3 = v.getLsbD 3 := rfl
    unfold State.onLive Live.clearRestarted
    rw [hbit]
    cases v.getLsbD 3
    · simp [Live.spi]
    · simp [Live.spi]
  · exact ⟨_, congrArg Host.Outcome.next (s.onLogic_running _ hrun), rfl, rfl, s.live.eventDue_iff⟩
end

section
/-! The response frame of a completed command, byte by byte. -/

namespace Sys2Proof.Machine

/-- The low byte of a number. -/
def lowByte (n : Nat) : Byte := BitVec.ofNat 8 n

theorem lowByte_toNat (n : Nat) : (lowByte n).toNat = n % 256 := by simp [lowByte]

theorem le_one (n : Nat) : le 1 n = [lowByte n] := by
  show [BitVec.ofNat 8 (n / 256 ^ 0)] = _
  simp [lowByte]

theorem le_two (n : Nat) : le 2 n = [lowByte n, lowByte (n / 256)] := by
  show [BitVec.ofNat 8 (n / 256 ^ 0), BitVec.ofNat 8 (n / 256 ^ 1)] = _
  simp [lowByte]

/-- A list of at least nine bytes shows its first nine. -/
theorem exists_nine (bs : List Byte) (h : 9 ≤ bs.length) :
    ∃ a0 a1 a2 a3 a4 a5 a6 a7 a8 rest, bs = a0 :: a1 :: a2 :: a3 :: a4 :: a5 :: a6 :: a7 :: a8 :: rest := by
  rcases bs with _ | ⟨a0, _ | ⟨a1, _ | ⟨a2, _ | ⟨a3, _ | ⟨a4, _ | ⟨a5, _ | ⟨a6, _ | ⟨a7, _ | ⟨a8, rest⟩⟩⟩⟩⟩⟩⟩⟩⟩
  case cons.cons.cons.cons.cons.cons.cons.cons.cons => exact ⟨a0, a1, a2, a3, a4, a5, a6, a7, a8, rest, rfl⟩
  all_goals simp at h

/-- The bytes of a response: those of the request it echoes, its own fields, its payload, and zeros. -/
theorem respBytes_cons (a0 a1 a2 a3 a4 a5 a6 a7 a8 : Byte) (rest : List Byte) (dev : Nat) (st : Status) (d : Nat) (p : List Byte)
    (hp : p.length ≤ 496) :
    respBytes (a0 :: a1 :: a2 :: a3 :: a4 :: a5 :: a6 :: a7 :: a8 :: rest) dev st d p =
      [a0, a1, a2, a3, lowByte p.length, lowByte (p.length / 256), lowByte dev, a7, lowByte (a8.toNat % 2 + 0x8000),
        lowByte ((a8.toNat % 2 + 0x8000) / 256), lowByte st.code, lowByte d, 0, 0, 0, 0] ++ p ++
        List.replicate (496 - p.length) 0 := by
  have h4 : le 4 0 = [0, 0, 0, 0] := by decide
  have h8 : byteAt (a0 :: a1 :: a2 :: a3 :: a4 :: a5 :: a6 :: a7 :: a8 :: rest) 8 = a8.toNat := rfl
  simp only [respBytes, padTo, le_one, le_two, h4, h8]
  rw [List.take_of_length_le]
  · simp
  · simp
    omega

/-- The fields of a response frame. -/
theorem respBytes_fields {req : List Byte} (hreq : 9 ≤ req.length) (dev : Nat) (st : Status) (d : Nat) (p : List Byte)
    (hp : p.length ≤ 496) :
    let c := respBytes req dev st d p
    c.length = 512 ∧ c.take 4 = req.take 4 ∧ rd c 4 2 = p.length ∧ byteAt c 6 = dev % 256 ∧ byteAt c 7 = byteAt req 7 ∧
      rd c 8 2 = byteAt req 8 % 2 + 0x8000 ∧ byteAt c 10 = st.code ∧ byteAt c 11 = d % 256 ∧
      (c.drop 16).take p.length = p ∧ allZero (c.drop (16 + p.length)) = true := by
  obtain ⟨a0, a1, a2, a3, a4, a5, a6, a7, a8, rest, rfl⟩ := exists_nine req hreq
  dsimp only
  rw [respBytes_cons _ _ _ _ _ _ _ _ _ _ _ _ _ _ hp]
  have hst : st.code < 256 := by cases st <;> decide
  refine ⟨?_, rfl, ?_, ?_, rfl, ?_, ?_, ?_, ?_, ?_⟩
  · simp
    omega
  · show 0 + (lowByte p.length).toNat * 256 ^ 0 + (lowByte (p.length / 256)).toNat * 256 ^ 1 = p.length
    rw [lowByte_toNat, lowByte_toNat]
    omega
  · exact lowByte_toNat dev
  · show 0 + (lowByte (a8.toNat % 2 + 0x8000)).toNat * 256 ^ 0 + (lowByte ((a8.toNat % 2 + 0x8000) / 256)).toNat * 256 ^ 1 =
      a8.toNat % 2 + 0x8000
    rw [lowByte_toNat, lowByte_toNat]
    omega
  · exact (lowByte_toNat _).trans (Nat.mod_eq_of_lt hst)
  · exact lowByte_toNat d
  · show List.take p.length (p ++ List.replicate (496 - p.length) 0) = p
    simp
  · rw [show 16 + p.length = ([a0, a1, a2, a3, lowByte p.length, lowByte (p.length / 256), lowByte dev, a7,
        lowByte (a8.toNat % 2 + 0x8000), lowByte ((a8.toNat % 2 + 0x8000) / 256), lowByte st.code, lowByte d, 0, 0, 0, 0] ++
        p).length by simp; omega, List.drop_left]
    simp [allZero]

/-- A command that ends in a host mailbox, and is no broadcast. -/
theorem Live.complete_host {l : Live} {n : Nat} {b : Mailbox} (st : Status) (d : Nat) (p : List Byte)
    (hb : l.host.mb[n]? = some b) (hst : b.st = .busy) (hdev : b.dev ≠ 0x7F)
    (hg : l.link.gathers.any (fun g => g.owner == MbRef.host n) = false) :
    l.complete (.host n) st d p = (l.setBox (.host n) { b with
      st := .done, stage := .none, bytes := respBytes b.bytes l.link.position st d p }).driveEventN := by
  have hbox : l.box (.host n) = some b := hb
  simp only [Live.complete, hbox, hst, hg, Live.deliver, beq_iff_eq, hdev]
  rfl

end Sys2Proof.Machine

open Sys2Proof Sys2Proof.Machine

/-- Settles O8: the mailbox takes the response frame, whose fields are read off byte by byte. -/
theorem completionFrame : Obligations.CompletionFrame := by
  intro l n b st d p hb hst hlen hdev hp hg
  obtain ⟨hclen, htake, hrd, h6, h7, h8, h10, h11, hpay, hzero⟩ :=
    respBytes_fields (by omega : 9 ≤ b.bytes.length) l.link.position st d p hp
  have hlt := (List.getElem?_eq_some_iff.mp hb).1
  rw [Live.complete_host st d p hb hst hdev hg]
  have hmb : ((l.setBox (.host n) { b with st := .done, stage := .none, bytes := respBytes b.bytes l.link.position st d p }).driveEventN).host.mb
      = l.host.mb.set n { b with st := .done, stage := .none, bytes := respBytes b.bytes l.link.position st d p } := rfl
  refine ⟨{ b with st := .done, stage := .none, bytes := respBytes b.bytes l.link.position st d p }, ?_, ?_, rfl, hclen, htake, hrd, h6,
    h7, h8, h10, h11, hpay, hzero, fun k hk => ?_⟩
  · rw [hmb, List.getElem?_set_self hlt]
  · exact (Live.eventDue_iff _).mpr (.inl ⟨_, List.mem_set hlt _, rfl⟩)
  · rw [hmb, List.getElem?_set_ne (Ne.symm hk)]
end

section
/-! Physical presence: the proven button, its time-out and the test of the seal loop. -/

open Sys2Proof Sys2Proof.Machine

/-- Settles O9: each row acts exactly within its window, and only an opening of the loop is logged. -/
theorem presence : Obligations.Presence := by
  refine ⟨fun t s w hw ht h1 h2 => ?_, fun s w hw h => ?_, fun k s hc => ?_⟩
  · refine congrArg Host.Outcome.next (congrArg (fun l => { s with live := l }) ?_)
    have hin : (decide (t < ms 2000) || decide (s.live.mt.now < w.since + ms 2000) ||
        decide (w.since + ms 30000 < s.live.mt.now)) = false := by
      simp only [Bool.or_eq_false_iff, decide_eq_false_iff_not]
      omega
    simp only [buttonProven, hw, hin, Bool.false_eq_true, if_false]
    rfl
  · refine congrArg Host.Outcome.next (congrArg (fun l => { s with live := l }) ?_)
    simp only [presenceTimeout, hw, if_neg (Nat.not_lt.mpr h)]
  · refine ⟨s.sealTest k, congrArg Host.Outcome.next (if_pos hc), ?_⟩
    unfold State.sealTest
    by_cases hk : 10 < k
    · cases ho : s.live.host.sealOpen <;> simp [hk]
    · simp [hk]
end

section
/-! The service UART and relayed commands: what a frame of the UART reads as, and which branch of the relay's rows is taken. -/

namespace Sys2Proof.Machine

/-- The fields of a UART frame, as the receiver reads them. -/
theorem uartFrame_fields (body : List Byte) (hlen : body.length < 65536) :
    byteAt (uartFrame 1 body) 0 = 0x5C ∧ byteAt (uartFrame 1 body) 1 = 1 ∧ rd (uartFrame 1 body) 2 2 = body.length ∧
      (uartFrame 1 body).length = body.length + 8 ∧ ((uartFrame 1 body).drop 4).take body.length = body ∧
      rd (uartFrame 1 body) (body.length + 4) 4 = (crc32 (((uartFrame 1 body).drop 1).take (body.length + 3))).toNat := by
  have hshape : uartFrame 1 body =
      [0x5C, 1, lowByte body.length, lowByte (body.length / 256)] ++ body ++
        le 4 (crc32 ([1, lowByte body.length, lowByte (body.length / 256)] ++ body)).toNat := by
    have h1 : lowByte 1 = 1 := rfl
    simp only [uartFrame, le_one, le_two, h1]
    simp
  have hinner : ((uartFrame 1 body).drop 1).take (body.length + 3) =
      [1, lowByte body.length, lowByte (body.length / 256)] ++ body := by
    rw [hshape]
    simp
  rw [hinner]
  generalize hcrc : crc32 ([1, lowByte body.length, lowByte (body.length / 256)] ++ body) = crc at *
  rw [hshape]
  refine ⟨rfl, rfl, ?_, by simp, by simp, ?_⟩
  · show 0 + (lowByte body.length).toNat * 256 ^ 0 + (lowByte (body.length / 256)).toNat * 256 ^ 1 = body.length
    rw [lowByte_toNat, lowByte_toNat]
    omega
  · have hpre : body.length + 4 = ([0x5C, 1, lowByte body.length, lowByte (body.length / 256)] ++ body).length := by simp
    rw [hpre, rd_append_right]
    have := rd_le_append 4 crc.toNat []
    rw [List.append_nil] at this
    rw [this, Nat.mod_eq_of_lt]
    exact crc.isLt

/-- A command frame with a good CRC is taken as a command. -/
theorem uartFrameIn_command {s : State} (body : List Byte) (hans : s.live.uartAnswers = true) (hlen : body.length < 65536) :
    uartFrameIn (uartFrame 1 body) s = s.uartCommand body := by
  obtain ⟨h0, h1, h2, hl, hd, hc⟩ := uartFrame_fields body hlen
  simp only [uartFrameIn, hans, h0, h1, h2, hl, hd, hc]
  simp

/-- The oldest copy of a request that its sequence number finds. -/
theorem OutMsg.mseq_of_find {out : List OutMsg} {q : Nat} {o : OutMsg}
    (h : (out.find? fun (x : OutMsg) => x.mseq == q) = some o) : o.mseq = q := by
  simpa using List.find?_some h

@[simp] theorem Live.queueRequest_out (l : Live) (o : OutMsg) : (l.queueRequest o).link.out = l.link.out := by
  unfold Live.queueRequest; split <;> rfl
@[simp] theorem Live.queueRequest_host (l : Live) (o : OutMsg) : (l.queueRequest o).host = l.host := by
  unfold Live.queueRequest; split <;> rfl

/-- A request that no ACK has answered, by its age and its resends. -/
theorem relayAckTimeout_unacked {q : Nat} {l : Live} {o : OutMsg}
    (hf : (l.link.out.find? fun (x : OutMsg) => x.mseq == q) = some o) (ha : o.acked = false) (hold : o.sentCycle + 8 ≤ l.cycleNo) :
    relayAckTimeout q l = if 2 ≤ o.resends then l.relayTimeout o
      else (l.setLink fun k => { k with out := k.out.map fun (x : OutMsg) => if x.mseq == q
        then { o with resends := o.resends + 1, sentCycle := l.cycleNo } else x }).queueRequest
          { o with resends := o.resends + 1, sentCycle := l.cycleNo } := by
  simp only [relayAckTimeout, hf, ha, Bool.false_eq_true, if_false, if_neg (Nat.not_lt.mpr hold)]

end Sys2Proof.Machine

open Sys2Proof Sys2Proof.Machine

/-- Settles O10: the frame's fields read as they were written, and each row takes one branch. -/
theorem serviceAndRelayedCommands : Obligations.ServiceAndRelayedCommands := by
  refine ⟨fun g s hans hg => ?_, fun body s hans hlen h16 => ⟨fun hst => ?_, fun hst hacc => ?_⟩, fun s ho hl => ?_,
    fun m rest s hc hin ht => ?_, fun q o s hrun hf ha hold => ⟨fun h2 => ?_, fun h2 => ?_⟩⟩
  · refine congrArg Host.Outcome.next (congrArg (fun l => { s with live := l }) ?_)
    simp only [uartGap, hans, hg, decide_true, Bool.and_self, if_true]
    rfl
  · refine congrArg Host.Outcome.next ((uartFrameIn_command body hans hlen).trans ?_)
    have hb : (s.live.host.uart.st != .free) = true := by simpa using hst
    simp only [State.uartCommand, hb, if_true]
    rfl
  · refine congrArg Host.Outcome.next ((uartFrameIn_command body hans hlen).trans ?_)
    have hb : (s.live.host.uart.st != .free) = false := by simpa using hst
    have hacc' : Live.uartAccepts { s.live with host := { s.live.host with uartOpen := true, uartLast := s.live.mt.now } }
        (rd body 0 2) = true := hacc
    simp only [State.uartCommand, hb, Bool.false_eq_true, if_false, if_neg (Nat.not_lt.mpr h16), hacc', if_true]
    rfl
  · refine congrArg Host.Outcome.next (congrArg (fun l => { s with live := l }) ?_)
    simp only [uartClose, ho, hl, decide_true, Bool.and_self, if_true]
  · refine congrArg Host.Outcome.next ?_
    simp only [relayedMessage, hc, hin, ht]
    rfl
  · refine congrArg Host.Outcome.next ((s.onLogic_running _ hrun).trans (congrArg (fun l => { s with live := l }) ?_))
    rw [relayAckTimeout_unacked hf ha hold, if_pos h2]
  · refine ⟨_, congrArg Host.Outcome.next (s.onLogic_running _ hrun), rfl, ?_⟩
    simp only [State.onLive_live, relayAckTimeout_unacked hf ha hold, if_neg (Nat.not_le.mpr h2), Live.queueRequest_host,
      Live.queueRequest_out]
    exact ⟨rfl, rfl⟩
end

section
/-! How a command that waits ends: by its body, by an answer that changes nothing else, and by its field checks. -/

namespace Sys2Proof.Machine

/-- The field checks pass when each of them does. -/
theorem checked_pass {α : Type} {cs : List (Nat × Bool)} (h : cs.all (·.2) = true) (x : α) (bad : Reply → α) :
    checked cs x bad = x := by
  have hnone : firstBad cs = none := by
    induction cs with
    | nil => rfl
    | cons c cs ih =>
      rw [List.all_cons, Bool.and_eq_true] at h
      simp only [firstBad, h.1, if_true, ih h.2]
  simp only [checked, hnone]

theorem State.command_ends {s : State} {opc : Nat} {m : MbRef} {b : Mailbox} (h : Waits s opc m b)
    (g : MbRef → Mailbox → Live → Reply × Live) : s.command opc g = s.ends m (g m b s.live) :=
  s.command_eq opc g m b h

theorem State.commandK_endsK {s : State} {opc : Nat} {m : MbRef} {b : Mailbox} (h : Waits s opc m b)
    (g : MbRef → Mailbox → State → Reply × State) : s.commandK opc g = s.endsK m (g m b s) :=
  s.commandK_eq opc g m b h

/-- A body that only replies: the command is answered, and nothing else changes. -/
theorem State.command_answer {s : State} {opc : Nat} {m : MbRef} {b : Mailbox} (h : Waits s opc m b)
    {g : MbRef → Mailbox → Live → Reply × Live} {st : Status} {d : Nat} {p : List Byte}
    (hg : g m b s.live = (.done st d p, s.live)) : s.command opc g = s.answer m st d p := by
  rw [State.command_ends h, hg]
  rfl

theorem State.commandK_answer {s : State} {opc : Nat} {m : MbRef} {b : Mailbox} (h : Waits s opc m b)
    {g : MbRef → Mailbox → State → Reply × State} {st : Status} {d : Nat} {p : List Byte}
    (hg : g m b s = (.done st d p, s)) : s.commandK opc g = s.answer m st d p := by
  rw [State.commandK_endsK h, hg]
  rfl

end Sys2Proof.Machine
end

section
/-! The SYS and PRIV commands: their bodies with legal fields, and what turning every output off leaves of the supervisor. -/

namespace Sys2Proof.Machine

/-! ### The supervisor stands when outputs are turned off and reinitialised -/

theorem foldl_sup {α : Type} {f : Live → α → Live} (hf : ∀ (l : Live) (x : α), (f l x).sup = l.sup) (xs : List α) :
    ∀ l : Live, (xs.foldl f l).sup = l.sup := by
  induction xs with
  | nil => exact fun _ => rfl
  | cons x xs ih => exact fun l => (ih _).trans (hf l x)

@[simp] theorem Live.closeCmd_sup (l : Live) (c : OpenCmd) : (l.closeCmd c).sup = l.sup := by
  unfold Live.closeCmd; split <;> simp
@[simp] theorem Live.entryDone_sup (l : Live) (o : Option (MbRef × Nat)) (st : Status) : (l.entryDone o st).sup = l.sup := by
  unfold Live.entryDone
  repeat' split
  all_goals simp
@[simp] theorem Live.dropEdges_sup (l : Live) (src : Source) (p : EdgeWork → Bool) : (l.dropEdges src p).sup = l.sup :=
  foldl_sup (fun l e => by simp) _ l
@[simp] theorem Live.dropChanges_sup (l : Live) (src : Source) : (l.dropChanges src).sup = l.sup :=
  foldl_sup (fun l (c : SlotChange) => l.entryDone_sup c.owner .ok) _ _
@[simp] theorem Live.withdraw_sup (l : Live) (src : Source) : (l.withdraw src).sup = l.sup := by simp [Live.withdraw]
@[simp] theorem Live.withdrawAll_sup (l : Live) (src : Source) : (l.withdrawAll src).sup = l.sup := by simp [Live.withdrawAll]
@[simp] theorem Live.endSlot_sup (l : Live) (src : Source) : (l.endSlot src).sup = l.sup := l.dropSlot_sup src
@[simp] theorem Live.dieRaise_sup (l : Live) (d id sev c : Nat) (p : List Byte) : (l.dieRaise d id sev c p).sup = l.sup := by
  unfold Live.dieRaise Live.dieRaiseAt
  split
  · rfl
  · simp
@[simp] theorem Live.changed_sup (l : Live) (src : Source) : (l.changed src).sup = l.sup := rfl
@[simp] theorem Live.loadEvent_sup (l : Live) (n c : Nat) : (l.loadEvent n c).sup = l.sup := by
  unfold Live.loadEvent; split <;> simp
@[simp] theorem Live.loadOff_sup (l : Live) (n : Nat) (cl : Bool) (c : Option Nat) : (l.loadOff n cl c).sup = l.sup := rfl
@[simp] theorem Live.loadOffCommanded_sup (l : Live) (n : Nat) (cl : Bool) : (l.loadOffCommanded n cl).sup = l.sup := by
  unfold Live.loadOffCommanded; dsimp only; split <;> simp
@[simp] theorem Live.executeOff_sup (l : Live) (n : Nat) (cl : Bool) : (l.executeOff n cl).sup = l.sup := by
  unfold Live.executeOff; dsimp only; split <;> simp
@[simp] theorem Live.cancelHeld_sup (l : Live) (n : Nat) : (l.cancelHeld n).sup = l.sup := by
  exact (Live.dropSlot_sup _ _).trans (l.dropEdges_sup _ _)
@[simp] theorem Live.giveBack_sup (l : Live) (src : Source) : (l.giveBack src).sup = l.sup := by
  unfold Live.giveBack; split <;> simp
@[simp] theorem Live.bridgeStops_sup (l : Live) (k : Nat) (st : BrState) : (l.bridgeStops k st).sup = l.sup := by
  simp [Live.bridgeStops]
@[simp] theorem Live.forgetDropped_sup (l : Live) (src : Source) : (l.forgetDropped src).sup = l.sup := rfl
@[simp] theorem Live.dropFire_sup (l : Live) (v : Nat) : (l.dropFire v).sup = l.sup := by
  unfold Live.dropFire
  split
  · rfl
  · split <;> simp
@[simp] theorem Live.enterPhase_sup (l : Live) (v : Nat) (ph : ValvePhase) : (l.enterPhase v ph).sup = l.sup := rfl
@[simp] theorem Live.bankQuiet_sup (l : Live) (b : Nat) : (l.bankQuiet b).sup = l.sup := by
  unfold Live.bankQuiet; split <;> rfl
@[simp] theorem Live.endStroke_sup (l : Live) (v : Nat) : (l.endStroke v).sup = l.sup := rfl
@[simp] theorem Live.rebook_sup (l : Live) (v t : Nat) (a : Int) : (l.rebook v t a).sup = l.sup := by simp [Live.rebook]
@[simp] theorem Live.endDrive_sup (l : Live) (v : Nat) (ph : ValvePhase) (r f : Bool) : (l.endDrive v ph r f).sup = l.sup := by
  unfold Live.endDrive
  dsimp only
  rw [Live.bankQuiet_sup, Live.setValve_sup, Live.enterPhase_sup, Live.rebook_sup, Live.endSlot_sup]
  split <;> rfl
@[simp] theorem Live.fioEvent_sup (l : Live) (n c f : Nat) : (l.fioEvent n c f).sup = l.sup := by simp [Live.fioEvent]
@[simp] theorem Live.fioEdge_sup (l : Live) (n : Nat) (on : Bool) : (l.fioEdge n on).sup = l.sup := by
  unfold Live.fioEdge
  split
  · simp [Live.fioOn]
  · simp [Live.fioOff]
@[simp] theorem Live.unbookSource_sup (l : Live) (src : Source) : (l.unbookSource src).sup = l.sup := rfl

theorem Live.restoring_sup (l : Live) (st : Memory) (opc obj : Nat) {f : List Byte → Live → Live}
    (hf : ∀ p (l : Live), (f p l).sup = l.sup) : (l.restoring st opc obj f).sup = l.sup := by
  unfold Live.restoring
  split
  · exact hf _ _
  · rfl

@[simp] theorem Live.applyLoadCfg_sup (l : Live) (n : Nat) (c : LoadCfg) : (l.applyLoadCfg n c).sup = l.sup := by
  unfold Live.applyLoadCfg
  refine (Live.setCh_sup _ _ _).trans ((foldl_sup (fun l i => ?_) _ _).trans
    ((foldl_sup (fun l i => ?_) _ _).trans (foldl_sup (fun l i => ?_) _ _)))
  · rfl
  · split <;> simp
  · split <;> simp

@[simp] theorem Live.applyFioCfg_sup (l : Live) (n : Nat) (p : List Byte) : (l.applyFioCfg n p).sup = l.sup := by
  unfold Live.applyFioCfg
  extract_lets cfg gone l1 old l2 members l3 src l4
  have h1 : l1.sup = l.sup := foldl_sup (fun l k => l.withdraw_sup (.fio k)) _ _
  have h2 : l2.sup = l1.sup := foldl_sup (fun l i => by split <;> rfl) _ _
  have h3 : l3.sup = l2.sup := foldl_sup (fun l i => by split <;> rfl) _ _
  have h4 : l4.sup = l.sup := (Live.setFio_sup _ _ _).trans (h3.trans (h2.trans h1))
  split
  · exact h4
  · exact h4

@[simp] theorem Live.fioAllOff_sup (l : Live) : l.fioAllOff.sup = l.sup := by
  refine foldl_sup (fun l n => ?_) _ _
  dsimp only
  repeat' split
  all_goals simp

@[simp] theorem Live.reinitLoads_sup (l : Live) (d : Nat) (cl : List Nat) : (l.reinitLoads d cl).sup = l.sup := by
  refine foldl_sup (fun l n => ?_) _ _
  dsimp only
  repeat' split
  all_goals simp

@[simp] theorem Live.reinitBridge_sup (l : Live) (k : Nat) : (l.reinitBridge k).sup = l.sup := by
  unfold Live.reinitBridge
  dsimp only
  split <;> simp

@[simp] theorem Live.reinitBridges_sup (l : Live) (st : Memory) (d : Nat) : (l.reinitBridges st d).sup = l.sup := by
  refine (foldl_sup (fun l p => ?_) _ _).trans (foldl_sup (fun l k => ?_) _ _)
  · repeat' split
    all_goals rfl
  · split <;> simp

@[simp] theorem Live.restoreLoads_sup (l : Live) (st : Memory) (d : Nat) : (l.restoreLoads st d).sup = l.sup := by
  refine (foldl_sup (fun l n => ?_) _ _).trans (foldl_sup (fun l n => ?_) _ _)
  · split
    · exact l.restoring_sup st _ _ fun _ _ => by simp
    · rfl
  · rfl

@[simp] theorem Live.restoreFio_sup (l : Live) (st : Memory) : (l.restoreFio st).sup = l.sup := by
  refine (foldl_sup (fun l n => ?_) _ _).trans (foldl_sup (fun l n => ?_) _ _)
  · split
    · exact l.restoring_sup st _ _ fun _ _ => by simp
    · rfl
  · rfl

@[simp] theorem Live.restoreBanks_sup (l : Live) (st : Memory) : (l.restoreBanks st).sup = l.sup := by
  refine foldl_sup (fun l b => ?_) _ _
  rfl

@[simp] theorem Live.reinitValve_sup (l : Live) (st : Memory) (v : Nat) : (l.reinitValve st v).sup = l.sup := by
  unfold Live.reinitValve
  dsimp only
  repeat' split
  all_goals simp [Live.releaseValve]

@[simp] theorem Live.reinitOutputs_sup (l : Live) (st : Memory) (d : Nat) (cl : List Nat) :
    (l.reinitOutputs st d cl).sup = l.sup := by
  unfold Live.reinitOutputs
  dsimp only
  split
  · simp
  · refine (Live.setLed_sup _ _).trans ((Live.restoreBanks_sup _ _).trans ((foldl_sup (fun l v => ?_) _ _).trans ?_))
    · exact l.reinitValve_sup st v
    · simp

theorem Live.testOff_sup (l : Live) (st : Memory) : (l.testOff st).sup = l.sup := by simp [Live.testOff]

/-! ### Records -/

@[simp] theorem padTo_length (n : Nat) (bs : List Byte) : (padTo n bs).length = n := by
  simp [padTo]
  omega

theorem byteAt_le_one_append {pre : List Byte} {i n : Nat} (h : pre.length = i) (rest : List Byte) :
    byteAt (pre ++ (le 1 n ++ rest)) i = n % 256 := by
  rw [← h, ← Nat.add_zero pre.length, byteAt_append_right, le_one]
  exact lowByte_toNat n

theorem mtSource_code_lt (x : MtSource) : x.code < 256 := by cases x <;> decide

/-- A write unit that is finished leaves the secure cells. -/
theorem UnitKind.apply_cells (im : List Byte) (k : Kept) (u : UnitKind) : (u.apply im k).cells = k.cells := by
  cases u <;> simp only [UnitKind.apply] <;> repeat' split
  all_goals rfl

theorem State.finishUnit_cells (s : State) : s.finishUnit.kept.cells = s.kept.cells := by
  unfold State.finishUnit
  split
  · rfl
  · exact UnitKind.apply_cells _ _ _

theorem State.resetIf_testMode (s : State) (ok : Bool) (c sub : Nat) :
    (s.resetIf ok c sub).live.sup.testMode = s.live.sup.testMode ∧ (s.resetIf ok c sub).kept.cells = s.kept.cells := by
  unfold State.resetIf
  split
  · refine ⟨?_, s.finishUnit_cells⟩
    rw [s.assertReset_live]
    show s.live.logicLost.sup.testMode = _
    rw [s.live.logicLost_keeps.2.2.1]
  · exact ⟨rfl, rfl⟩

/-! ### The bodies with legal fields -/

theorem sysReset_legal {m : MbRef} {b : Mailbox} {s : State} (h0 : byteAt b.payload 0 ≤ 1) (h1 : byteAt b.payload 1 ≤ 2)
    (h01 : byteAt b.payload 0 = 1 → byteAt b.payload 1 = 0) (hr : (resv b 2 2).2 = true) : sysReset m b s =
      if s.live.draining || (decide (byteAt b.payload 0 = 1) && !s.kept.activePresent 1) then (refuse .state, s)
      else if s.live.fwu.session.isSome || s.kept.cells.journal.isSome then (refuse .busy, s)
      else if byteAt b.payload 0 = 1 then
        (okReply, (s.onLive fun l => { l with sup := { l.sup with f1Held := false } }).restartF1)
      else (okReply, s.onLive fun l => { l with sup := { l.sup with
        ordered := some { cause := if isRelay m then 6 else 5, mode := byteAt b.payload 1, at_ := l.mt.now } } }) := by
  unfold sysReset
  dsimp only
  rw [checked_pass]
  by_cases h : byteAt b.payload 0 = 1
  · simp [h, h01 h, hr]
  · simp [h, h0, h1, hr]

theorem sysSupervise_legal {m : MbRef} {b : Mailbox} {l : Live} (h0 : bit (byteAt b.payload 0) 0 = false)
    (h1 : byteAt b.payload 1 ≤ 1) (h2 : rd b.payload 2 2 = 0 ∨ inRange 10 10000 (rd b.payload 2 2) = true)
    (h4 : byteAt b.payload 4 ≤ 15) (hr : (resv b 5 1).2 = true) (h6 : rd b.payload 6 2 ≤ 3600) :
    sysSupervise m b l = (l.applySupervise b.payload).endConfig m (bit (byteAt b.payload 1) 0) 0x0105 0 b.payload := by
  unfold sysSupervise
  dsimp only
  rw [checked_pass]
  simp [h0, h1, h2, h4, hr, h6]

theorem privTestmode_legal {b : Mailbox} {s : State} (h0 : inRange 1 15 (byteAt b.payload 0) = true)
    (hr : (resv b 1 3).2 = true) : privTestmode b s =
      if s.kept.cells.lcs ≠ 3 then (refuse .locked, s)
      else if !ecdsaVerify Config.returnKey ((b.payload.drop 4).take 64)
          (authDigest "ZZ-TEST" s.live.key.tnonce (le 1 (byteAt b.payload 0))) then (refuse .crc, s)
      else (okReply, { s with
        kept := { s.kept with cells := { s.kept.cells with testLog := s.kept.cells.testLog ++ [s.live.mt.now] } },
        live := (Live.raise { s.live with sup := { s.live.sup with testMode := byteAt b.payload 0 } }
          0x1D7 crit (byteAt b.payload 0) (le 8 Config.serial)).testOff s.kept.store }) := by
  unfold privTestmode
  dsimp only
  rw [checked_pass]
  simp [h0, hr]

end Sys2Proof.Machine

open Sys2Proof Sys2Proof.Machine

/-- Settles O11: each command's body with legal fields is one of its branches. -/
theorem systemCommands : Obligations.SystemCommands := by
  refine ⟨fun m b s h => ?_, fun m b s h => ?_, fun m b s h => ?_, fun m b s h => ⟨?_, padTo_length 64 _⟩,
    fun m b s h h0 h1 h01 hr => ⟨fun hm => ?_, fun hm hp hbusy => ?_, fun hm hf hj => ⟨fun hz => ?_, fun hone hp => ?_⟩⟩,
    fun m b s h h0 h1 h2 h4 hr h6 => ?_, fun m b s h h0 hr => ⟨fun hl ht => ?_, fun hl hv => ?_⟩⟩
  · exact congrArg Host.Outcome.next (State.command_answer h rfl)
  · refine ⟨_, congrArg Host.Outcome.next (State.command_answer h rfl), ?_, ?_, ?_, ?_⟩
    · simp
    · simp
    · rw [List.append_assoc, List.append_assoc, List.append_assoc, byteAt_le_one_append (length_le 8 _),
        Nat.mod_eq_of_lt (mtSource_code_lt _)]
    · rw [List.append_assoc, List.append_assoc, byteAt_le_one_append (by simp)]
  · refine ⟨_, congrArg Host.Outcome.next (State.command_answer h rfl), ?_, ?_, ?_, ?_, ?_, ?_⟩
    · simp
    · simp only [List.append_assoc]
      exact byteAt_le_one_append (pre := []) rfl _
    · simp only [List.append_assoc]
      exact byteAt_le_one_append (length_le 1 _) _
    · rw [List.append_assoc, List.append_assoc, List.append_assoc, List.append_assoc, List.append_assoc, List.append_assoc,
        byteAt_le_one_append (by simp)]
    · simp [le_one]
    · simp [le_one]
  · exact congrArg Host.Outcome.next (State.commandK_answer h rfl)
  · refine congrArg Host.Outcome.next (State.commandK_answer h ?_)
    rw [sysReset_legal h0 h1 h01 hr, if_pos (by simp [Live.draining, hm])]
    rfl
  · refine congrArg Host.Outcome.next (State.commandK_answer h ?_)
    have hd : ¬ (s.live.draining || (decide (byteAt b.payload 0 = 1) && !s.kept.activePresent 1)) = true := by
      simp only [Live.draining, Bool.or_eq_true, Bool.and_eq_true, decide_eq_true_eq, beq_iff_eq, Bool.not_eq_true']
      rintro (h | ⟨h, h'⟩)
      · exact hm h
      · simp [hp h] at h'
    rw [sysReset_legal h0 h1 h01 hr, if_neg hd, if_pos (by simpa using hbusy)]
    rfl
  · refine congrArg Host.Outcome.next ((State.commandK_endsK h _).trans ?_)
    rw [sysReset_legal h0 h1 h01 hr, if_neg (by simp [Live.draining, hm, hz]), if_neg (by simp [hf, hj]), if_neg (by simp [hz])]
    rfl
  · refine congrArg Host.Outcome.next ((State.commandK_endsK h _).trans ?_)
    rw [sysReset_legal h0 h1 h01 hr, if_neg (by simp [Live.draining, hm, hp]), if_neg (by simp [hf, hj]), if_pos hone]
  · refine congrArg Host.Outcome.next ((State.command_ends h _).trans ?_)
    rw [sysSupervise_legal h0 h1 h2 h4 hr h6]
    rfl
  · have hans : s.commandK 0x7F01 (fun _ b s => privTestmode b s) = s.answer m .locked 0 [] :=
      State.commandK_answer h (by rw [privTestmode_legal h0 hr, if_pos hl]; rfl)
    have htest : (s.answer m .locked 0 []).live.sup.testMode = 0 := by simp [State.answer, ht]
    show Host.Outcome.next (State.resetIf _ _ 4 2) = _
    rw [hans]
    simp [State.resetIf, htest]
  · refine ⟨_, rfl, ?_⟩
    obtain ⟨hmode, hcells⟩ := State.resetIf_testMode (s.commandK 0x7F01 fun _ b s => privTestmode b s)
      ((s.commandK 0x7F01 fun _ b s => privTestmode b s).live.sup.testMode ≠ 0 &&
        (s.commandK 0x7F01 fun _ b s => privTestmode b s).live.sup.phase == .running) 4 2
    rw [hmode, hcells, State.commandK_endsK h, privTestmode_legal h0 hr, if_neg (by simp [hl]), if_neg (by simp [hv])]
    simp [State.endsK, Live.testOff]
end

section
/-! Who asserts the logic reset line: each row's condition, and the record of failed restarts. -/

namespace Sys2Proof.Machine

/-- A condition that holds, where a logic reset can occur, asserts the line. -/
theorem State.resetIf_asserts {s : State} {ok : Bool} (hok : ok = true) (h : s.live.resettable = true) (c sub : Nat) :
    s.resetIf ok c sub = s.assertReset c sub := by
  simp [State.resetIf, hok, h]

/-- A failed restart joins those of the last 10 s. -/
theorem Live.failedNow_cons (l : Live) :
    Live.failedNow { l with sup := { l.sup with counted := true, failed := l.mt.now :: l.failedNow } } = l.mt.now :: l.failedNow := by
  have hms : 0 < ms 10000 := by decide
  simp [Live.failedNow, hms]

/-- A start that is late is counted, and the third within 10 s leads to LIMP. -/
theorem failedRestartTimeout_counts {s : State} (hp : s.live.sup.phase = .firmware) (hr : s.live.resettable = true)
    (hc : s.live.sup.counted = false) (h2 : 2 ≤ s.live.sup.cause) (hl : s.live.sup.resetMt + us 100 + ms 200 ≤ s.live.mt.now) :
    failedRestartTimeout s = { s with live :=
      let l := { s.live with sup := { s.live.sup with counted := true, failed := s.live.mt.now :: s.live.failedNow } }
      if s.live.failedNow.length < 2 ∨ s.kept.assay.isSome then l else l.enterLimp } := by
  have hcond : (!(s.live.sup.phase == .reset || s.live.sup.phase == .firmware) || !s.live.resettable || s.live.sup.counted ||
      decide (s.live.sup.cause < 2) || decide (s.live.mt.now < s.live.sup.resetMt + us 100 + ms 200)) = false := by
    simp [hp, hr, hc, hl]
    omega
  have hlen : (s.live.mt.now :: s.live.failedNow).length < 3 ↔ s.live.failedNow.length < 2 := by
    rw [List.length_cons]
    omega
  simp only [failedRestartTimeout, hcond, Bool.false_eq_true, if_false, Live.failedNow_cons, Bool.or_eq_true, decide_eq_true_eq,
    hlen]

end Sys2Proof.Machine

open Sys2Proof Sys2Proof.Machine

/-- Settles O13: each row's guard holds under its conditions. -/
theorem resetAndLimp : Obligations.ResetAndLimp := by
  refine ⟨fun s hr => ⟨fun hp ha hh => ?_, fun hs => ?_, fun mv t ha hmv ht => ?_, fun o ho hat => ?_, fun mv hu hmv => ?_,
    fun c sub d hc => ?_⟩, fun s hp hr hc h2 hl => ?_, fun t s hm hp ht => ?_⟩
  · exact congrArg Host.Outcome.next (State.resetIf_asserts (by simp [hp, ha, Live.overdue, hh]) hr 3 0)
  · exact congrArg Host.Outcome.next (State.resetIf_asserts (by simp [Live.overdue, hs]) hr 2 0)
  · exact congrArg Host.Outcome.next (State.resetIf_asserts (by simp [ha, hmv, ht]) hr 3 2)
  · refine congrArg Host.Outcome.next ?_
    rw [ho]
    exact State.resetIf_asserts (by simp [Live.overdue, hat]) hr o.cause 0
  · refine congrArg Host.Outcome.next (if_neg ?_)
    simp only [hu, hr, Bool.not_true, Bool.false_or, Bool.or_false, decide_eq_true_eq]
    omega
  · exact congrArg Host.Outcome.next (if_pos (by simp [hr, hc]))
  · refine ⟨_, congrArg Host.Outcome.next (failedRestartTimeout_counts hp hr hc h2 hl), rfl, ?_⟩
    by_cases h : s.live.failedNow.length < 2 ∨ s.kept.assay.isSome = true
    · simp only [h, if_true]
      exact ⟨trivial, trivial, trivial⟩
    · simp only [h, if_false]
      exact ⟨rfl, rfl, rfl⟩
  · refine congrArg Host.Outcome.next (if_neg ?_)
    simp only [hm, hp, bne_self_eq_false, Bool.not_true, Bool.false_or, decide_eq_true_eq]
    omega
end

section
/-! Power-on and the boot ROM: the branch that one step of the boot takes. -/

namespace Sys2Proof.Machine

theorem powerRemoved_powered {s : State} (h : s.live.pwr.powered = true) : powerRemoved s =
    { s with live := { Live.init with
        key := { KeyState.init with entropyUsed := s.live.key.entropyUsed },
        sup := { SupState.init with limpAt := if (s.live.pwr.mode == .limp) = true then s.live.sup.limpAt else 0 } } } := by
  simp [powerRemoved, h]

/-- A boot step of a powered module that is not held up, in reset. -/
theorem State.bootStep_reset {s : State} (d : StartData) (hp : s.live.pwr.powered = true) (hh : s.live.pwr.holdup = false)
    (hr : s.live.sup.phase = .reset) : s.bootStep d =
      let s := s.onLive fun l => l.measured d
      if s.live.sup.testMode ≠ 0 then s.onLive fun l => { l with sup := { l.sup with phase := .monitor, resetLine := false } }
      else if s.kept.cells.lcs = 4 then s.onLive fun l => { l with sup := { l.sup with phase := .retired, resetLine := false } }
      else match instJournal s.kept.store with
        | some j =>
          let s := s.onLive fun l => l.installEvent 1 j.kind j.step s.kept.stagedVersion
          if j.mode = 1 then s.installStep d j else s.fallbackStep d j
        | none => s.decideStart d := by
  unfold State.bootStep
  dsimp only
  rw [if_neg (by simp [hp, hh]), hr]
  rfl

theorem State.bootStep_decides {s : State} (d : StartData) (hp : s.live.pwr.powered = true) (hh : s.live.pwr.holdup = false)
    (hr : s.live.sup.phase = .reset) (ht : s.live.sup.testMode = 0) (hl : s.kept.cells.lcs ≠ 4)
    (hj : instJournal s.kept.store = none) : s.bootStep d = (s.onLive fun l => l.measured d).decideStart d := by
  rw [s.bootStep_reset d hp hh hr]
  dsimp only
  rw [if_neg (show ¬ (s.onLive fun l => l.measured d).live.sup.testMode ≠ 0 from not_not.mpr ht),
    if_neg (show ¬ (s.onLive fun l => l.measured d).kept.cells.lcs = 4 from hl)]
  simp only [State.onLive_kept, hj]

/-- The boot ROM's decision where no update is pending. -/
theorem State.decideStart_none {s : State} (d : StartData) (ha : s.assayLost = false) (hf : s.live.failedNow.length < 3)
    (hu : s.kept.updPending = none) : s.decideStart d =
      if s.foundryGood then s.startFirmware else s.journal s.kept (some (fallbackJournal 0 2)) := by
  simp only [State.decideStart, ha, Bool.false_eq_true, if_false, if_neg (Nat.not_le.mpr hf), hu]

theorem State.decideStart_some {s : State} (d : StartData) {kind : Nat} (ha : s.assayLost = false)
    (hf : s.live.failedNow.length < 3) (hu : s.kept.updPending = some kind) : s.decideStart d = s.beginInstall d kind := by
  simp only [State.decideStart, ha, Bool.false_eq_true, if_false, if_neg (Nat.not_le.mpr hf), hu]

theorem State.recoveryStep_bad {s : State} {kind c : Nat} (hu : s.kept.updPending = some kind) (hb : s.stagedBad kind = some c) :
    s.recoveryStep = ({ s with kept := s.kept.stagingEmpty } : State).onLive fun l =>
      l.installEvent c kind 0 s.kept.stagedVersion := by
  unfold State.recoveryStep
  generalize s.stagedBad = bad at hb ⊢
  generalize s.kept.stagedVersion = v
  generalize s.kept.stagingEmpty = k
  as_aux_lemma =>
    split
    next h => rw [hu] at h; cases h
    next k' h =>
      rw [hu] at h
      cases h
      split
      next c' h' =>
        rw [hb] at h'
        cases h'
        rfl
      next h' => rw [hb] at h'; cases h'

end Sys2Proof.Machine

open Sys2Proof Sys2Proof.Machine

/-- Settles O15: the boot ROM's branches, each under its conditions. -/
theorem powerOnAndBoot : Obligations.PowerOnAndBoot := by
  refine ⟨fun s hp => ?_, fun d s hmv => ⟨fun hp => ?_, fun hp hh hr hc => ?_⟩, fun d s hp hh => ⟨fun hr ht => ?_, fun hr ht hl => ?_,
    fun hr ht hl hj => ?_, fun kind c hr hu hb => ?_⟩⟩
  · refine ⟨_, congrArg Host.Outcome.next (powerRemoved_powered hp), rfl, rfl, rfl, rfl, rfl, rfl, rfl, fun hm => ?_⟩
    have hlimp : ¬ (s.live.pwr.mode == .limp) = true := by simpa using hm
    simp only [if_neg hlimp]
    rfl
  · refine congrArg Host.Outcome.next ?_
    rw [powerOn, if_neg (by omega), if_pos (by simp [hp])]
  · refine congrArg Host.Outcome.next ?_
    rw [powerOn, if_neg (by omega), if_neg (by simp [hp]), if_pos (by simp [hh, hr, hc])]
    rfl
  · refine ⟨_, congrArg Host.Outcome.next ((s.bootStep_reset d hp hh hr).trans (if_pos ht)), rfl, rfl, rfl⟩
  · exact ⟨_, congrArg Host.Outcome.next ((s.bootStep_reset d hp hh hr).trans ((if_neg (not_not.mpr ht)).trans (if_pos hl))),
      rfl, rfl, rfl⟩
  · intro s' ha
    have hrun : exec (.bootDecision d) s = .next (s'.decideStart d) :=
      congrArg Host.Outcome.next (s.bootStep_decides d hp hh hr ht hl hj)
    rw [hrun]
    refine ⟨fun h3 => ?_, fun h3 hu hg => ?_, fun h3 hu hg => ?_, fun kind h3 hu => ?_⟩
    · simp only [State.decideStart, ha, Bool.false_eq_true, if_false, if_pos h3]
    · rw [State.decideStart_none d ha h3 hu, if_pos hg]
    · rw [State.decideStart_none d ha h3 hu, if_neg (by simp [hg])]
    · rw [State.decideStart_some d ha h3 hu]
  · refine congrArg Host.Outcome.next ?_
    have hnot : ¬ (!s.live.pwr.powered || (s.live.pwr.holdup && decide (s.live.sup.cause = 1))) = true := by simp [hp, hh]
    rw [State.bootStep]
    dsimp only
    rw [if_neg hnot, hr]
    exact State.recoveryStep_bad hu hb
end

section
/-! Adoption of the dies: one try at a die by what was read of it. -/

namespace Sys2Proof.Machine

theorem upd_upd {α : Type} (xs : List α) (i : Nat) (f g : α → α) : upd (upd xs i f) i g = upd xs i fun x => g (f x) := by
  refine List.ext_getElem? fun k => ?_
  by_cases h : i = k <;> simp [upd, List.getElem?_modify, h, Function.comp_def]

theorem upd_getD {α : Type} {xs : List α} {i : Nat} (f : α → α) (x : α) (h : i < xs.length) :
    (upd xs i f).getD i x = f (xs.getD i x) := by
  simp [upd, List.getD_eq_getElem?_getD, h]

theorem Live.setDie_setDie (l : Live) (d : Nat) (f g : DieState → DieState) :
    (l.setDie d f).setDie d g = l.setDie d fun x => g (f x) := by
  simp only [Live.setDie, upd_upd]

theorem Live.setDie_die {l : Live} {d : Nat} (f : DieState → DieState) (h : d < l.load.dies.length) :
    (l.setDie d f).die d = f (l.die d) := upd_getD f _ h

theorem Live.readDie_accepts {l : Live} {d : Nat} (r : DieRead) (h : d < l.load.dies.length) :
    (l.readDie d r).dieAccepts d = decide (r.moved = 0) := by
  simp only [Live.dieAccepts, Live.readDie, Live.setDie_die _ h]
  by_cases hm : r.moved = 0 <;> simp [hm]

theorem Live.readDie_dieCut (l : Live) (d k : Nat) (r : DieRead) : (l.readDie d r).dieCut k = l.dieCut k := rfl

theorem Live.leaveDie_die {l : Live} {d : Nat} (c : Nat) (h : d < l.load.dies.length) :
    (l.leaveDie d c).die d = { l.die d with tries := 0, lastTry := l.mt.now } :=
  (congrArg (fun x : LoadState => x.dies.getD d DieState.init) (Live.raise_load _ _ _ _ _)).trans (upd_getD _ _ h)

/-- A try at a die that is reached and readable. -/
theorem Live.tryDie_readable {l : Live} (st : Memory) {d : Nat} {r : DieRead} (h : d < l.load.dies.length)
    (hr : r.readable = true) (hc : l.dieCut d = false) : l.tryDie st d r =
      if r.moved = 0 then (l.readDie d r).takeDie st d r
      else if 2 ≤ (l.die d).tries then (l.readDie d r).leaveDie d 1
      else l.setDie d fun x =>
        { x with readChanges := x.changes, changes := x.changes + r.moved, tries := x.tries + 1, lastTry := l.mt.now } := by
  have htries : ((l.readDie d r).die d).tries = (l.die d).tries := by rw [Live.readDie, Live.setDie_die _ h]
  unfold Live.tryDie
  rw [if_neg (by simp [hr, hc])]
  dsimp only
  rw [Live.readDie_accepts r h, htries]
  by_cases hm : r.moved = 0
  · rw [if_pos (by simpa using hm), if_pos hm]
  · rw [if_neg (by simpa using hm), if_neg hm]
    refine congrArg _ ?_
    exact l.setDie_setDie d _ _

/-- A retry of a die that was left. -/
theorem unadoptedRetry_due {d : Nat} (r : DieRead) {s : State} (hrun : s.live.sup.phase = .running)
    (hu : s.live.dieUnadopted d = true) (hl : (s.live.die d).lastTry + ms 100 ≤ s.live.mt.now)
    (h : d < s.live.load.dies.length) : unadoptedRetry d r s = s.onLive fun l =>
      if r.readable && !l.dieCut d && decide (r.moved = 0)
      then l.generationFor (((l.readDie d r).takeDie s.kept.store d r).raise 0x1D5 notice 2 (le 1 d))
      else l.setDie d fun x => { x with readChanges := x.changes, changes := x.changes + r.moved, lastTry := l.mt.now } := by
  have hdue : ¬ (!s.live.dieUnadopted d || decide (s.live.mt.now < (s.live.die d).lastTry + ms 100)) = true := by
    simp [hu]
    omega
  rw [unadoptedRetry, s.onLogic_running _ hrun]
  simp only [State.onLive]
  rw [if_neg hdue, Live.readDie_accepts r h, Live.readDie_dieCut]
  split
  · rfl
  · exact congrArg (fun l => { s with live := l }) (s.live.setDie_setDie d _ _)

end Sys2Proof.Machine

open Sys2Proof Sys2Proof.Machine

/-- Settles O16: whether a die accepts is whether its counter has moved; each row then takes one branch. -/
theorem adoptionOfDies : Obligations.AdoptionOfDies := by
  refine ⟨fun l st d r h => ⟨fun hbad => ?_, fun hr hc hm => ?_, fun hr hc hm ht => ?_, fun hr hc hm ht => ?_⟩,
    fun l d hu h => ⟨?_, ?_, ?_⟩, fun x s hrun h0 h1 hw hu ht => ?_, fun x s hf h0 h1 => ?_, fun d r s hw hrun => ?_,
    fun d r s hrun hu hl h => ⟨fun hr hc hm => ?_, fun hbad => ?_⟩, fun l l' h => ?_, fun l => ⟨?_, ?_⟩⟩
  · have hcond : (!r.readable || l.dieCut d) = true := by
      rcases hbad with hb | hb <;> simp [hb]
    rw [Live.tryDie, if_pos hcond]
  · rw [Live.tryDie_readable st h hr hc, if_pos hm]
  · rw [Live.tryDie_readable st h hr hc, if_neg hm, if_pos ht]
  · rw [Live.tryDie_readable st h hr hc, if_neg hm, if_neg (by omega)]
  · simp only [Live.leaveDie, Live.dieUnadopted, Live.raise_sup]
    show (setMask l.sup.unadopted d true).getD d false = true
    simp [setMask, List.getD_eq_getElem?_getD, hu]
  · rw [Live.leaveDie_die 0 h]
  · rw [Live.leaveDie_die 0 h]
  · refine congrArg Host.Outcome.next ?_
    simp only [adoption, hrun, State.onLive, List.foldl_cons, List.foldl_nil, h0, hw, hu, Bool.not_false, Bool.and_self, if_true,
      ht, Bool.false_and, Bool.false_eq_true, if_false]
  · refine congrArg Host.Outcome.next ?_
    simp only [adoption, hf, h0, h1, Bool.or_self, Bool.false_eq_true, if_false]
  · refine congrArg Host.Outcome.next ?_
    simp only [adoptionRetry, hw, hrun, Bool.not_true, Bool.false_eq_true, if_false]
  · refine congrArg Host.Outcome.next ((unadoptedRetry_due r hrun hu hl h).trans (congrArg (fun l => { s with live := l }) ?_))
    exact if_pos (by simp [hr, hc, hm])
  · refine congrArg Host.Outcome.next ((unadoptedRetry_due r hrun hu hl h).trans (congrArg (fun l => { s with live := l }) ?_))
    refine if_neg ?_
    rcases hbad with hb | hb | hb <;> simp [hb]
  · refine if_neg ?_
    have k0 := h 0 (by decide)
    have k1 := h 1 (by decide)
    rcases k0 with k0 | k0 <;> rcases k1 with k1 | k1 <;> simp [k0, k1]
  · simp [Live.newGeneration]
  · simp [Live.newGeneration]
end

section
/-! PWR.PARK, the drain steps, wake sources and wake inputs: what the mode change, the loss of the supply and the polls leave. -/

namespace Sys2Proof.Machine

/-- A field that each step of a fold keeps is kept by the fold. -/
theorem foldl_keeps {α β : Type} (g : Live → β) {f : Live → α → Live} (hf : ∀ (l : Live) (x : α), g (f l x) = g l) (xs : List α) :
    ∀ l : Live, g (xs.foldl f l) = g l := by
  induction xs with
  | nil => exact fun _ => rfl
  | cons x xs ih => exact fun l => (ih _).trans (hf l x)

/-! ### F1 while events are raised -/

/-- F1 without its pending lines. -/
def F1State.unpended (c : F1State) : F1State := { c with edgePend := 0 }

theorem Live.enter_unpended (l : Live) (r : EventRec) : (l.enter r).f1.unpended = l.f1.unpended := by
  simp only [Live.enter, Live.enterHost, Live.enterF1, Live.driveEventN]
  split <;> split <;> split <;> (try split) <;> (try split) <;> rfl

theorem Live.enterLink_unpended (l : Live) (r : EventRec) : (l.enterLink r).f1.unpended = l.f1.unpended := by
  have hdrop : ∀ (k : LinkState) (x : EventRec), (Live.enter { l with link := k } x).f1.unpended = l.f1.unpended :=
    fun k x => Live.enter_unpended _ x
  unfold Live.enterLink
  split
  · rfl
  · split
    · rfl
    · simp only
      split
      · split
        · rfl
        · exact hdrop _ _
      · exact hdrop _ _

theorem Live.raise_unpended (l : Live) (id sev c : Nat) (p : List Byte) : (l.raise id sev c p).f1.unpended = l.f1.unpended :=
  (Live.enterLink_unpended _ _).trans (l.enter_unpended _)

theorem F1State.read_unpended {α : Type} (f : F1State → α) (hf : ∀ c : F1State, f c.unpended = f c) {a b : F1State}
    (h : a.unpended = b.unpended) : f a = f b := by
  rw [← hf a, ← hf b, h]

@[simp] theorem Live.raise_f1_run (l : Live) (id sev c : Nat) (p : List Byte) : (l.raise id sev c p).f1.run = l.f1.run :=
  F1State.read_unpended F1State.run (fun _ => rfl) (l.raise_unpended id sev c p)

/-! ### The mode -/

/-- A mode change leaves the supply state but for the mode. -/
theorem Live.setMode_pwr (l : Live) (md : Mode) : (l.setMode md).pwr = { l.pwr with mode := md } := by
  unfold Live.setMode
  split
  next h =>
    have : l.pwr.mode = md := by simpa using h
    subst this
    rfl
  · exact Live.raise_pwr _ _ _ _ _

@[simp] theorem Live.setMode_mt (l : Live) (md : Mode) : (l.setMode md).mt = l.mt := by
  unfold Live.setMode
  split
  · rfl
  · exact Live.raise_mt _ _ _ _ _

/-! ### Entry to PARK -/

@[simp] theorem Live.endEnrol_pwr (l : Live) (a : TokenAttempt) (st : Status) : (l.endEnrol a st).pwr = l.pwr := by
  unfold Live.endEnrol; split <;> simp
@[simp] theorem Live.endEnrol_mt (l : Live) (a : TokenAttempt) (st : Status) : (l.endEnrol a st).mt = l.mt := by
  unfold Live.endEnrol; split <;> simp
@[simp] theorem Live.tokensEnd_pwr (l : Live) : l.tokensEnd.pwr = l.pwr :=
  foldl_keeps Live.pwr (fun l (x : TokenAnt) => by split <;> simp) _ _
@[simp] theorem Live.tokensEnd_mt (l : Live) : l.tokensEnd.mt = l.mt :=
  foldl_keeps Live.mt (fun l (x : TokenAnt) => by split <;> simp) _ _
@[simp] theorem Live.nmFollow_pwr (l : Live) : l.nmFollow.pwr = l.pwr := by
  unfold Live.nmFollow; dsimp only; split <;> simp
@[simp] theorem Live.nmFollow_mt (l : Live) : l.nmFollow.mt = l.mt := by
  unfold Live.nmFollow; dsimp only; split <;> simp
@[simp] theorem Live.nmFollow_sup (l : Live) : l.nmFollow.sup = l.sup := by
  unfold Live.nmFollow; dsimp only; split <;> simp
@[simp] theorem Live.nmFollow_f1_run (l : Live) : l.nmFollow.f1.run = l.f1.run := by
  unfold Live.nmFollow; dsimp only; split <;> simp

/-- What the loss of the logic's supply leaves of the supply state, of MT, the start phase and F1. -/
theorem Live.logicOff_keeps (l : Live) : l.logicOff.pwr.mode = l.pwr.mode ∧ l.logicOff.mt = l.mt ∧
    l.logicOff.sup.phase = .off ∧ l.logicOff.f1.run = .halted := by
  refine ⟨?_, l.unpowerOutputs.tokensEnd_mt, rfl, rfl⟩
  show l.unpowerOutputs.tokensEnd.pwr.mode = _
  rw [Live.tokensEnd_pwr]
  rfl

/-! ### The save before PARK -/

/-- After a forced shadow save is asked for, one waits or runs. -/
theorem Live.forceShadow_busy (l : Live) : l.forceShadow.shadowBusy = true := by
  unfold Live.forceShadow
  dsimp only
  split
  next h =>
    rw [Live.shadowBusy, List.any_append, Bool.or_eq_true]
    right
    simpa [List.any_eq_true, Option.any_eq_true] using h
  · have hkind : ∀ (ws : List WriteUnit) (u : WriteUnit), u.kind = .shadow → (∀ w ∈ ws, w.kind = .shadow) →
        (ws.headD u).kind = .shadow := by
      intro ws u hu hws
      cases ws with
      | nil => exact hu
      | cons w ws => exact hws w (List.mem_cons_self ..)
    rw [Live.shadowBusy, List.cons_append, List.any_cons, Bool.or_eq_true]
    left
    refine beq_iff_eq.mpr (hkind _ _ rfl fun w hw => ?_)
    simpa using (List.mem_filter.mp hw).2

theorem Live.forceShadow_pwr (l : Live) : l.forceShadow.pwr = l.pwr := by
  unfold Live.forceShadow; dsimp only; split <;> rfl
theorem Live.forceShadow_mt (l : Live) : l.forceShadow.mt = l.mt := by
  unfold Live.forceShadow; dsimp only; split <;> rfl

/-! ### Arming -/

@[simp] theorem Live.wkEvent_pwr (l : Live) (n sev c : Nat) (r : Bool) : (l.wkEvent n sev c r).pwr = l.pwr := by
  simp [Live.wkEvent]
@[simp] theorem Live.wkEvent_fio (l : Live) (n sev c : Nat) (r : Bool) : (l.wkEvent n sev c r).fio = l.fio := by
  simp [Live.wkEvent]

@[simp] theorem Live.armInput_pwr (l : Live) (n : Nat) : (l.armInput n).pwr = l.pwr := by
  unfold Live.armInput
  dsimp only
  repeat' split
  all_goals simp

@[simp] theorem Live.canEvent_pwr (l : Live) (n k sev c b : Nat) (p : List Byte) : (l.canEvent n k sev c b p).pwr = l.pwr := by
  simp [Live.canEvent]
@[simp] theorem Live.abandon_pwr (l : Live) (n k c : Nat) : (l.abandon n k c).pwr = l.pwr := by
  unfold Live.abandon
  repeat' split
  all_goals simp
@[simp] theorem Live.abandonAll_pwr (l : Live) (n c : Nat) : (l.abandonAll n c).pwr = l.pwr :=
  foldl_keeps Live.pwr (fun l k => l.abandon_pwr n k c) _ _

/-! ### The wake -/

@[simp] theorem Live.parkCooled_pwr (l : Live) : l.parkCooled.pwr = l.pwr := by
  unfold Live.parkCooled
  dsimp only
  rw [Live.raise_pwr]
  exact foldl_keeps Live.pwr (fun l n => by rfl) _ _
@[simp] theorem Live.parkCooled_sup (l : Live) : l.parkCooled.sup = l.sup := by
  unfold Live.parkCooled
  dsimp only
  rw [Live.raise_sup]
  exact foldl_keeps Live.sup (fun l n => by rfl) _ _
@[simp] theorem Live.wakeLoads_pwr (l : Live) (tj : List Int) : (l.wakeLoads tj).pwr = l.pwr := by
  unfold Live.wakeLoads
  split
  · rfl
  · exact foldl_keeps Live.pwr (fun l n => by rfl) _ _
@[simp] theorem Live.wakeLoads_sup (l : Live) (tj : List Int) : (l.wakeLoads tj).sup = l.sup := by
  unfold Live.wakeLoads
  split
  · rfl
  · exact foldl_keeps Live.sup (fun l n => by rfl) _ _

@[simp] theorem Live.wakeFio_pwr (l : Live) : l.wakeFio.pwr = l.pwr := rfl
@[simp] theorem Live.wakeFio_sup (l : Live) : l.wakeFio.sup = l.sup := rfl
@[simp] theorem Live.driveReady_pwr (l : Live) : l.driveReady.pwr = l.pwr := rfl
@[simp] theorem Live.driveReady_sup (l : Live) : l.driveReady.sup = l.sup := rfl
@[simp] theorem Live.startAttempt_pwr (l : Live) (a : Nat) (e : Option EnrolJob) : (l.startAttempt a e).pwr = l.pwr := rfl
@[simp] theorem Live.startAttempt_sup (l : Live) (a : Nat) (e : Option EnrolJob) : (l.startAttempt a e).sup = l.sup := rfl

/-- WAKE-CHECK is entered, the logic runs, and VHOLD is as measured. -/
theorem Live.wakeCheck_enters (l : Live) (src idx : Nat) (tj : List Int) (mv : Nat) :
    (l.wakeCheck src idx tj mv).pwr.mode = .wakeCheck ∧ (l.wakeCheck src idx tj mv).sup.phase = .running ∧
      (l.wakeCheck src idx tj mv).pwr.vholdMv = mv := by
  unfold Live.wakeCheck
  extract_lets _ l1 l2 l3 l4 l5
  have hmode : l4.pwr.mode = .wakeCheck := by
    show (l.setMode .wakeCheck).pwr.mode = .wakeCheck
    rw [Live.setMode_pwr]
  have hphase : l4.sup.phase = .running := rfl
  have hmv : l4.pwr.vholdMv = mv := rfl
  clear_value l4
  have h5 : l5.pwr.mode = .wakeCheck ∧ l5.sup.phase = .running ∧ l5.pwr.vholdMv = mv := by
    simp only [l5, Live.driveReady_pwr, Live.driveReady_sup, Live.wakeFio_pwr, Live.wakeFio_sup, Live.wakeLoads_pwr,
      Live.wakeLoads_sup, Live.parkCooled_pwr, Live.parkCooled_sup]
    exact ⟨hmode, hphase, hmv⟩
  split
  · simpa only [Live.startAttempt_pwr, Live.startAttempt_sup] using h5
  · exact h5

/-! ### The rows -/

/-- PWR.PARK with legal fields. -/
theorem pwrPark_legal {b : Mailbox} {l : Live} (h0 : byteAt b.payload 0 &&& 0x7F ≠ 0) (h1 : byteAt b.payload 1 < 16)
    (h8 : byteAt b.payload 8 ≤ 1) (hm : l.pwr.mode ≠ .drain) : pwrPark b l =
      if l.pwr.mode != .run then (refuse .state, l)
      else if l.doorHeld then (refuse .state 0x02, l)
      else if l.nm.cfg.on && byteAt b.payload 8 = 0 then (refuse .state 0x01, l)
      else (okReply, (l.setWake fun w => { w with
        mask := byteAt b.payload 0 ||| 0x80, canMask := byteAt b.payload 1, wkMask := rd b.payload 2 2,
        alarmS := rd b.payload 4 4, force := byteAt b.payload 8 == 1 }).drainEntry) := by
  unfold pwrPark
  dsimp only
  rw [checked_pass (by simp [h0, h1, h8]), if_neg (by simp [hm])]

theorem parkEntry_parks {l : Live} (hm : l.pwr.mode = .drain) (hs : l.pwr.drain.step = 5) (ht : ms 1 ≤ l.sinceStep) :
    (parkEntry l).pwr.mode = .park ∧ (parkEntry l).sup.phase = .off ∧ (parkEntry l).f1.run = .halted ∧
      (parkEntry l).pwr.wake.parkAt = l.mt.now ∧ (parkEntry l).pwr.wake.latched = 0 ∧ (parkEntry l).host.readyLow = false := by
  unfold parkEntry
  rw [if_neg (by simp [hm, hs, ht])]
  extract_lets l1 l2
  obtain ⟨hmode, hmt, hphase, hrun⟩ := (l.setMode .park).logicOff_keeps
  have k1 : l1.pwr.mode = .park ∧ l1.sup.phase = .off ∧ l1.f1.run = .halted ∧ l1.mt = l.mt :=
    ⟨hmode.trans (by rw [Live.setMode_pwr]), hphase, hrun, hmt.trans (by simp)⟩
  clear_value l1
  have k2 : l2.pwr.mode = .park ∧ l2.sup.phase = .off ∧ l2.f1.run = .halted ∧ l2.mt = l.mt := by
    simp only [l2, Live.nmFollow_pwr, Live.nmFollow_sup, Live.nmFollow_f1_run, Live.nmFollow_mt]
    exact k1
  clear_value l2
  obtain ⟨km, kp, kr, kt⟩ := k2
  refine ⟨km, kp, kr, congrArg MtState.now kt, rfl, ?_⟩
  show (l2.sup.phase == .running && _) = false
  rw [kp]
  rfl

theorem wakeCheckExpiry_parks {l : Live} (hm : l.pwr.mode = .wakeCheck)
    (ht : l.pwr.wake.checkAt + ms l.pwr.cfg.wakeCheckMax ≤ l.mt.now) :
    (wakeCheckExpiry l).pwr.mode = .park ∧ (wakeCheckExpiry l).sup.phase = .off ∧ (wakeCheckExpiry l).pwr.wake.latched = 0 ∧
      (wakeCheckExpiry l).pwr.wake.indices = [] ∧ (wakeCheckExpiry l).host.readyLow = false := by
  unfold wakeCheckExpiry
  rw [if_neg (by simp [hm, ht])]
  extract_lets l1 l2 _ l3
  clear_value l1
  obtain ⟨hmode, _, hphase, _⟩ := (l1.saveLedger.setMode .park).logicOff_keeps
  have k2 : l2.pwr.mode = .park ∧ l2.sup.phase = .off := ⟨hmode.trans (by rw [Live.setMode_pwr]), hphase⟩
  have k3 : l3.pwr.mode = .park ∧ l3.sup.phase = .off := k2
  clear_value l3
  refine ⟨k3.1, k3.2, rfl, rfl, ?_⟩
  show (l3.sup.phase == .running && _) = false
  rw [k3.2]
  rfl

theorem drainArm_arms {l : Live} (hm : l.pwr.mode = .drain) (hs : l.pwr.drain.step = 4) (ht : ms 5 ≤ l.sinceStep)
    (hb : l.shadowBusy = false) : (drainArm l).pwr.drain.step = 5 ∧ (drainArm l).pwr.v5On = false := by
  unfold drainArm
  rw [if_neg (by simp [hm, hs, ht, hb])]
  extract_lets l1 l2
  have k1 : l1.pwr.drain.step = 5 :=
    congrArg (fun p : PwrState => p.drain.step) (foldl_keeps Live.pwr (fun l n => l.armInput_pwr n) _ _)
  clear_value l1
  have k2 : l2.pwr = l1.pwr := foldl_keeps Live.pwr (fun l n => l.abandonAll_pwr n 3) _ _
  clear_value l2
  exact ⟨(congrArg (fun p : PwrState => p.drain.step) k2).trans k1, rfl⟩

theorem drainSave_saves {l : Live} (hm : l.pwr.mode = .drain) (hs : l.pwr.drain.step = 3) (ht : ms 1 ≤ l.sinceStep)
    (hb : l.nm.byRing = false) : (drainSave l).pwr.drain.step = 4 ∧ (drainSave l).pwr.drain.at_ = l.mt.now ∧
      (drainSave l).link.parkTx = some (l.mt.now + ms 1) ∧ (∀ p ∈ (drainSave l).link.ports, p.quiet = true) ∧
      (drainSave l).shadowBusy = true ∧ (drainSave l).pwr.mode = .drain := by
  unfold drainSave
  rw [if_neg (by simp [hm, hs, ht, hb])]
  extract_lets l1 l2
  have k1 : l1.pwr.drain.step = 4 ∧ l1.pwr.drain.at_ = l.mt.now ∧ l1.mt = l.mt ∧ l1.pwr.mode = .drain := ⟨rfl, rfl, rfl, hm⟩
  clear_value l1
  obtain ⟨kstep, kat, kmt, kmode⟩ := k1
  have hpwr : l2.pwr = l1.pwr := Live.forceShadow_pwr _
  refine ⟨(congrArg (fun p : PwrState => p.drain.step) hpwr).trans kstep,
    (congrArg (fun p : PwrState => p.drain.at_) hpwr).trans kat, ?_, ?_, Live.forceShadow_busy _,
    (congrArg PwrState.mode hpwr).trans kmode⟩
  · exact congrArg (fun t : MtState => some (t.now + ms 1)) kmt
  · intro p hp
    obtain ⟨q, _, rfl⟩ := List.mem_map.mp hp
    rfl

theorem Live.setWk_wkIn {l : Live} {n : Nat} (f : WakeInput → WakeInput) (h : n < l.fio.wk.length) :
    (l.setWk n f).wkIn n = f (l.wkIn n) := upd_getD f _ h

@[simp] theorem Live.wkEvent_wkIn (l : Live) (n k sev c : Nat) (r : Bool) : (l.wkEvent n sev c r).wkIn k = l.wkIn k := by
  simp [Live.wkIn]

theorem wakePollPark_reads {n : Nat} (mv : Nat) {l : Live} (hn : n < l.fio.wk.length) (he : l.wkEnabled n = true)
    (hm : l.pwr.mode = .park) (ht : (l.wkIn n).polledAt + ms (l.parkInterval n) ≤ l.mt.now) :
    (wakePollPark n mv l).host = l.host ∧ (wakePollPark n mv l).pwr = l.pwr ∧
      (let w := l.wkIn n
       let r := w.read w.inForce mv
       ((wakePollPark n mv l).wkIn n).closed = r ∧ ((wakePollPark n mv l).wkIn n).mv = mv ∧
       ((wakePollPark n mv l).wkIn n).polledAt = l.mt.now ∧
       ((wakePollPark n mv l).wkIn n).cand = if w.armed && w.fires w.inForce r then max 1 w.cand else w.cand) := by
  unfold wakePollPark
  dsimp only
  rw [if_neg (by simp [he, hm, ht]), Live.setWk_wkIn _ hn]
  exact ⟨rfl, rfl, rfl, rfl, rfl, rfl⟩

theorem wakeQualifyPoll_reads {n : Nat} (mv : Nat) {l : Live} (hn : n < l.fio.wk.length) (he : l.wkEnabled n = true)
    (hm : l.pwr.mode = .wakeCheck) (ht : (l.wkIn n).polledAt + ms 4 ≤ l.mt.now) :
    let w := l.wkIn n
    let r := w.read w.inForce mv
    ((wakeQualifyPoll n mv l).wkIn n).closed = r ∧
      ((wakeQualifyPoll n mv l).wkIn n).cand = if w.fires w.inForce r then (if w.armed then w.cand + 1 else 0) else 0 := by
  unfold wakeQualifyPoll
  dsimp only
  rw [if_neg (by simp [he, hm, ht])]
  have hcand : ∀ f a : Bool, ∀ k : Nat, (if (!f) = true then 0 else if a = true then k + 1 else 0) =
      if f = true then (if a = true then k + 1 else 0) else 0 := by
    intro f a k
    cases f <;> rfl
  split
  · rw [Live.wkEvent_wkIn, Live.setWk_wkIn _ hn]
    exact ⟨rfl, hcand _ _ _⟩
  · rw [Live.setWk_wkIn _ hn]
    exact ⟨rfl, hcand _ _ _⟩

/-- A filtered change keeps the reading of the input. -/
theorem Live.wkChange_reading {l : Live} {n : Nat} (c : Bool) (hn : n < l.fio.wk.length) :
    n < (l.wkChange n c).fio.wk.length ∧ ((l.wkChange n c).wkIn n).closed = (l.wkIn n).closed ∧
      ((l.wkChange n c).wkIn n).mv = (l.wkIn n).mv ∧ ((l.wkChange n c).wkIn n).fresh = (l.wkIn n).fresh := by
  unfold Live.wkChange
  extract_lets l1 cfg
  have k1 : n < l1.fio.wk.length ∧ (l1.wkIn n).closed = (l.wkIn n).closed ∧ (l1.wkIn n).mv = (l.wkIn n).mv ∧
      (l1.wkIn n).fresh = (l.wkIn n).fresh := by
    simp only [l1]
    split
    · exact ⟨hn, rfl, rfl, rfl⟩
    · rw [Live.wkEvent_wkIn, Live.setWk_wkIn _ hn, Live.wkEvent_fio]
      exact ⟨by simpa [Live.setWk, upd] using hn, rfl, rfl, rfl⟩
  clear_value l1
  obtain ⟨kn, kc, kmv, kf⟩ := k1
  split
  · rw [Live.setWk_wkIn _ kn]
    exact ⟨by simpa [Live.setWk, upd] using kn, kc, kmv, kf⟩
  · exact ⟨kn, kc, kmv, kf⟩

theorem wakePollRun_reads {n : Nat} (mv : Nat) {l : Live} (hn : n < l.fio.wk.length) (h15 : n ≤ 15) (hm : l.pwr.mode = .run) :
    ((wakePollRun n mv l).wkIn n).closed = (l.wkIn n).read (l.wkIn n).cfg mv ∧ ((wakePollRun n mv l).wkIn n).mv = mv ∧
      ((wakePollRun n mv l).wkIn n).fresh = false := by
  unfold wakePollRun
  rw [if_neg (by simp [hm, h15])]
  extract_lets w r k f l1 l2
  have k1 : n < l1.fio.wk.length ∧ (l1.wkIn n).closed = r ∧ (l1.wkIn n).mv = mv ∧ (l1.wkIn n).fresh = false := by
    refine ⟨by simpa [l1, Live.setWk, upd] using hn, ?_⟩
    simp only [l1]
    rw [Live.setWk_wkIn _ hn]
    exact ⟨rfl, rfl, rfl⟩
  clear_value l1
  have k2 : n < l2.fio.wk.length ∧ (l2.wkIn n).closed = r ∧ (l2.wkIn n).mv = mv ∧ (l2.wkIn n).fresh = false := by
    obtain ⟨kn, kc, kmv, kf⟩ := k1
    simp only [l2]
    split
    · obtain ⟨jn, jc, jmv, jf⟩ := l1.wkChange_reading f kn
      exact ⟨jn, jc.trans kc, jmv.trans kmv, jf.trans kf⟩
    · exact ⟨kn, kc, kmv, kf⟩
  clear_value l2
  obtain ⟨kn, kc, kmv, kf⟩ := k2
  split
  · exact ⟨kc, kmv, kf⟩
  · rw [Live.wkEvent_wkIn, Live.setWk_wkIn _ kn]
    exact ⟨kc, kmv, kf⟩

/-- A source that may fire in PARK starts WAKE-CHECK and tests the seal. -/
theorem State.wakes_parked {s : State} {src idx : Nat} (x : WakeData) (h : s.live.mayFire src idx = true)
    (hm : s.live.pwr.mode = .park) :
    s.wakes src idx x = (s.onLive fun l => l.wakeCheck src idx x.tj x.vholdMv).sealTest x.sealKohm := by
  have hfire : s.live.fireSource src idx x.tj x.vholdMv = s.live.wakeCheck src idx x.tj x.vholdMv := by
    rw [Live.fireSource, if_neg (by simp [h, hm]), hm]
  have hmode := (s.live.wakeCheck_enters src idx x.tj x.vholdMv).1
  simp only [State.wakes, State.onLive, hfire, hm, hmode, BEq.rfl, Bool.and_self, if_true]

/-- Elsewhere a source that may fire does so without a test of the seal. -/
theorem State.wakes_awake {s : State} {src idx : Nat} (x : WakeData) (hm : s.live.pwr.mode ≠ .park) :
    s.wakes src idx x = s.onLive fun l => l.fireSource src idx x.tj x.vholdMv := by
  have hpark : (s.live.pwr.mode == .park) = false := by simpa using hm
  simp only [State.wakes, hpark, Bool.false_and, Bool.false_eq_true, if_false]

end Sys2Proof.Machine

open Sys2Proof Sys2Proof.Machine

/-- Settles O17: each row takes the branch of its conditions, and the mode outlives what the row does after it. -/
theorem parkDrainAndWake : Obligations.ParkDrainAndWake := by
  refine ⟨fun m b s h h0 h1 h8 => ⟨fun hm => ?_, fun hm hd => ?_, fun hm hd hn hf => ?_, fun hm hn hd => ?_⟩,
    fun s hrun hm => ⟨fun hs ht => ?_, fun hs ht => ?_, fun hs ht hb => ?_, fun hs ht hb => ?_, fun hs ht => ?_⟩,
    fun src idx x s h => ⟨fun hm => ?_, fun hm hrun => ?_, fun hm hrun hs hb => ?_, fun hm hrun hs hl => ?_⟩,
    fun x s hm hb => ?_, fun src idx tj mv l => l.wakeCheck_enters src idx tj mv, fun src idx s hrun hm hb hv => ?_,
    fun s hrun hm ht => ?_, fun n mv s hn he hm ht => ?_, fun n mv s hrun hn he hm ht => ?_, fun n mv s hn h15 hm => ?_⟩
  · refine congrArg Host.Outcome.next (State.command_answer h ?_)
    rw [pwrPark_legal h0 h1 h8 (by simp [hm]), if_pos (by simp [hm])]
    rfl
  · refine congrArg Host.Outcome.next (State.command_answer h ?_)
    rw [pwrPark_legal h0 h1 h8 (by simp [hm]), if_neg (by simp [hm]), if_pos hd]
    rfl
  · refine congrArg Host.Outcome.next (State.command_answer h ?_)
    rw [pwrPark_legal h0 h1 h8 (by simp [hm]), if_neg (by simp [hm]), if_neg (by simp [hd]), if_pos (by simp [hn, hf])]
    rfl
  · refine congrArg Host.Outcome.next ((State.command_ends h _).trans ?_)
    rw [pwrPark_legal h0 h1 h8 (by simp [hm]), if_neg (by simp [hm]), if_neg (by simp [hd]), if_neg]
    rcases hn with hn | hn <;> simp [hn]
  · refine congrArg Host.Outcome.next ((s.onLogic_running _ hrun).trans (congrArg (fun l => { s with live := l }) ?_))
    rw [drainOutputsOff, if_neg (by simp [hm, hs, ht])]
  · refine congrArg Host.Outcome.next ((s.onLogic_running _ hrun).trans (congrArg (fun l => { s with live := l }) ?_))
    unfold drainMaxExpiry
    dsimp only
    rw [if_neg]
    rcases ht with ht | ht <;> simp [hm, hs, ht]
  · exact ⟨_, congrArg Host.Outcome.next (s.onLogic_running _ hrun), rfl, drainSave_saves hm hs ht hb⟩
  · exact ⟨_, congrArg Host.Outcome.next (s.onLogic_running _ hrun), rfl, drainArm_arms hm hs ht hb⟩
  · exact ⟨_, congrArg Host.Outcome.next (s.onLogic_running _ hrun), rfl, parkEntry_parks hm hs ht⟩
  · exact congrArg Host.Outcome.next (State.wakes_parked x h hm)
  · refine congrArg Host.Outcome.next ((State.wakes_awake x (by simp [hm])).trans (congrArg (fun l => { s with live := l }) ?_))
    show s.live.fireSource src idx x.tj x.vholdMv = _
    rw [Live.fireSource, if_neg (by simp [h, hrun]), hm]
  · refine congrArg Host.Outcome.next ((State.wakes_awake x (by simp [hm])).trans (congrArg (fun l => { s with live := l }) ?_))
    show s.live.fireSource src idx x.tj x.vholdMv = _
    rw [Live.fireSource, if_neg (by simp [h, hrun]), hm]
    simp only [Live.fireInDrain, Live.mayAbort, hm, hs, BEq.rfl, decide_true, Bool.and_self, if_true, hb, Bool.false_eq_true,
      if_false]
  · refine congrArg Host.Outcome.next ((State.wakes_awake x (by simp [hm])).trans (congrArg (fun l => { s with live := l }) ?_))
    show s.live.fireSource src idx x.tj x.vholdMv = _
    rw [Live.fireSource, if_neg (by simp [h, hrun]), hm]
    simp only [Live.fireInDrain, Live.mayAbort, hm, Nat.not_lt.mpr hs, BEq.rfl, decide_false, Bool.and_false, hl,
      Bool.false_eq_true, if_false]
  · refine congrArg Host.Outcome.next (State.wakes_parked x ?_ hm)
    simp [Live.mayFire, hb]
  · refine congrArg Host.Outcome.next ?_
    unfold wakeValidated
    dsimp only
    rw [if_neg (by simp [hrun, hm, hb, hv])]
    rfl
  · exact ⟨_, congrArg Host.Outcome.next (s.onLogic_running _ hrun), rfl, wakeCheckExpiry_parks hm ht⟩
  · obtain ⟨hhost, hpwr, hreads⟩ := wakePollPark_reads mv hn he hm ht
    exact ⟨_, rfl, rfl, hhost, hpwr, hreads⟩
  · exact ⟨_, congrArg Host.Outcome.next (s.onLogic_running _ hrun), rfl, wakeQualifyPoll_reads mv hn he hm ht⟩
  · exact ⟨_, rfl, rfl, wakePollRun_reads mv hn h15 hm⟩
end

section
/-! Sags, supply thresholds, hold-up, PWR.STATUS and PWR.CONFIG: the branch that each row takes. -/

namespace Sys2Proof.Machine

theorem exists_of_any {α : Type} {o : Option α} {p : α → Bool} (h : o.any p = true) : ∃ a, o = some a ∧ p a = true := by
  cases o with
  | none => cases h
  | some a => exact ⟨a, rfl, h⟩

/-- A condition on the time at which something began, when it began at `a`. -/
theorem any_of_some {α : Type} {o : Option α} {p : α → Bool} {a : α} (h : o = some a) (hp : p a = true) : o.any p = true := by
  rw [h]
  exact hp

/-- A sag that starts, or starts again during its undoing. -/
theorem sagStart_starts {l : Live} {c : Nat} (hc : l.sagCause = some c) (hp : l.sup.phase = .running)
    (ha : l.pwr.sag.active = false ∨ l.pwr.sag.undo ≠ 0) : sagStart l =
      (l.setSag fun s => { s with
        active := true, undo := 0, cause := c, start := if s.active then s.start else l.mt.now,
        minMv := if s.active then min s.minMv l.vbat else l.vbat, qualSince := none,
        row := if s.active then s.row else 0, lastRise := if s.active then s.lastRise else l.mt.now, undoFrames := 0 }).coreDown.raise
          0x020 notice c (le 2 l.vbat) := by
  unfold sagStart
  dsimp only
  rw [hc]
  exact if_neg (by rcases ha with ha | ha <;> simp [hp, ha])

/-- While every turn-on that a sag holds is within SAG_DEFER_MAX, none is dropped. -/
theorem sagDeferExpiry_waits {l : Live} (h : ∀ e ∈ l.plan.edges, e.phase ≠ .held ∨ e.bySag = false ∨ e.work.restarts = true ∨
    ∀ t, e.deferAt = some t → l.mt.now < t + ms l.pwr.cfg.sagDeferMax) : sagDeferExpiry l = l := by
  unfold sagDeferExpiry
  rw [List.filter_eq_nil_iff.mpr, List.foldl_nil]
  intro e he
  rw [Bool.and_eq_true, Bool.and_eq_true, Bool.and_eq_true]
  rintro ⟨⟨⟨hph, hb⟩, hr⟩, hd⟩
  obtain ⟨t, ht, hl⟩ := exists_of_any hd
  rcases h e he with h | h | h | h
  · exact h (beq_iff_eq.mp hph)
  · rw [h] at hb
    cases hb
  · rw [h] at hr
    cases hr
  · exact absurd (of_decide_eq_true hl) (Nat.not_le.mpr (h t ht))

/-- A turn-on that a sag has held for SAG_DEFER_MAX is dropped. -/
theorem sagDeferExpiry_drops {l : Live} {e : Edge} {t : Nat} (he : l.plan.edges = [e]) (hph : e.phase = .held)
    (hb : e.bySag = true) (hr : e.work.restarts = false) (hd : e.deferAt = some t)
    (hl : t + ms l.pwr.cfg.sagDeferMax ≤ l.mt.now) : sagDeferExpiry l =
      (((l.unbookEdge e.id).removeEdge e.id).dropCommand e.work.src).raise 0x029 warn 0
        (le 1 (sourceId e.work.src) ++ le 1 e.prio) := by
  unfold sagDeferExpiry
  rw [he, List.filter_cons_of_pos, List.filter_nil, List.foldl_cons, List.foldl_nil]
  rw [hph, hb, hr, hd, Option.any_some, decide_eq_true hl]
  rfl

/-- What a sample does to a sag touches only the sag and the CORE step. -/
theorem Live.sagSample_keeps (l : Live) (was : Bool) : (l.sagSample was).pwr.vbat = l.pwr.vbat ∧
    (l.sagSample was).pwr.railMv = l.pwr.railMv ∧ (l.sagSample was).pwr.present = l.pwr.present ∧
    (l.sagSample was).host = l.host ∧ (l.sagSample was).load = l.load := by
  unfold Live.sagSample
  split
  · exact ⟨rfl, rfl, rfl, rfl, rfl⟩
  · dsimp only
    split <;> exact ⟨rfl, rfl, rfl, rfl, rfl⟩

theorem pwrRecord_length (l : Live) : l.pwrRecord.length = 26 := by
  simp [Live.pwrRecord]

theorem pwrRecord_mode (l : Live) : byteAt l.pwrRecord 0 = l.pwr.mode.code := by
  have hlt : l.pwr.mode.code < 256 := by cases l.pwr.mode <;> decide
  simp only [Live.pwrRecord, List.append_assoc]
  exact (byteAt_le_one_append (pre := []) (n := l.pwr.mode.code) rfl _).trans (Nat.mod_eq_of_lt hlt)

/-- The CORE step that sag control allows when the logic does not run from VHOLD. -/
theorem Live.coreAllowed_supplied {l : Live} (h : l.pwr.holdup = false) : l.coreAllowed =
    if (l.sup.phase = .running ∨ l.sup.phase = .firmware) ∧ l.pwr.mode ≠ .wakeCheck
    then (if l.pwr.sag.active then l.pwr.sag.row else 0) else 3 := by
  by_cases hp : l.sup.phase = .running ∨ l.sup.phase = .firmware
  · have hb : (l.sup.phase == .running || l.sup.phase == .firmware) = true := by simpa using hp
    by_cases hm : l.pwr.mode = .wakeCheck <;> simp [Live.coreAllowed, h, hp, hb, hm]
  · have hb : (l.sup.phase == .running || l.sup.phase == .firmware) = false := by simpa [not_or] using hp
    simp [Live.coreAllowed, hp, hb]

end Sys2Proof.Machine

open Sys2Proof Sys2Proof.Machine

/-- Settles O18: each row's guard decides its branch; sampling a sag leaves the voltages as they were measured. -/
theorem supplySagsAndConfig : Obligations.SupplySagsAndConfig := by
  refine ⟨fun c s hc hp ha => ?_, fun c s hc hp ha hu => ?_, fun q s hp ha hu hq hl hr => ?_,
    fun s hp ha hl => ⟨fun hu => ?_, fun hu hr => ?_, fun hu hr => ?_⟩,
    fun s hp => ⟨congrArg Host.Outcome.next (s.onLogic_running _ hp), fun h => ?_, fun e t he hph hb hr hd hl => ?_⟩,
    fun mv rail s hp => ?_, fun s ho hv => ?_, fun q s ho hq hl => ?_, fun t s hv ht => ?_, fun s hv hn hl => ?_,
    fun mv s hmv hd => ?_, fun mv t s hmv ht hd hr => ?_, fun t s hc => ⟨fun h => ?_, fun h => ?_⟩, fun mv s => ?_,
    fun mv s hmv hh hp => ?_, fun mv s hmv hh hv => ?_, fun m b s h => ⟨?_, pwrRecord_length _, pwrRecord_mode _⟩,
    fun m b s h hf => ?_, fun l p => ?_, fun l m opc obj p => ⟨rfl, rfl⟩⟩
  · refine ⟨s.onLive sagStart, rfl, rfl, ?_⟩
    simp only [State.onLive_live, sagStart_starts hc hp (.inl ha), Live.raise_pwr, Live.raise_plan, Live.raise_load]
    refine ⟨rfl, rfl, ?_, ?_, rfl, rfl, ?_, rfl, rfl⟩
    · show (if s.live.pwr.sag.active = true then _ else _) = _
      simp [ha]
    · show (if s.live.pwr.sag.active = true then _ else _) = _
      simp [ha]
    · show max (if s.live.pwr.sag.active = true then _ else 0) s.live.coreRow = _
      simp [ha]
  · refine ⟨s.onLive sagStart, rfl, rfl, ?_⟩
    simp only [State.onLive_live, sagStart_starts hc hp (.inr hu), Live.raise_pwr]
    refine ⟨rfl, rfl, ?_, rfl, ?_⟩
    · show (if s.live.pwr.sag.active = true then _ else _) = _
      simp [ha]
    · show (if s.live.pwr.sag.active = true then _ else _) = _
      simp [ha]
  · refine congrArg Host.Outcome.next ((s.onLogic_running _ hp).trans (congrArg (fun l => { s with live := l }) ?_))
    exact if_pos (by rw [any_of_some hq (decide_eq_true hl), decide_eq_true hr, ha, hu]; rfl)
  · refine congrArg Host.Outcome.next ((s.onLogic_running _ hp).trans (congrArg (fun l => { s with live := l }) ?_))
    unfold sagUndoStep
    dsimp only
    rw [if_neg (by simp [ha, hu, hl]), if_pos hu]
  · refine congrArg Host.Outcome.next ((s.onLogic_running _ hp).trans (congrArg (fun l => { s with live := l }) ?_))
    unfold sagUndoStep
    dsimp only
    rw [if_neg (by simp [ha, hl]; omega), if_neg (by omega), if_pos hr]
    by_cases hcond : s.live.pwr.mode = .wakeCheck ∨ s.live.pwr.holdup = true
    · rcases hcond with hcond | hcond <;> simp [Live.setSag, Live.setPwr, Live.coreAllowed, hp, hcond]
    · have hm : ¬ s.live.pwr.mode = .wakeCheck := fun h => hcond (.inl h)
      have hh : ¬ s.live.pwr.holdup = true := fun h => hcond (.inr h)
      simp [Live.setSag, Live.setPwr, Live.coreAllowed, hp, hm, hh, ha]
  · refine congrArg Host.Outcome.next ((s.onLogic_running _ hp).trans (congrArg (fun l => { s with live := l }) ?_))
    unfold sagUndoStep
    dsimp only
    rw [if_neg (by simp [ha, hl]; omega), if_neg (by omega), if_neg (by simp [hr])]
  · exact sagDeferExpiry_waits h
  · exact congrArg Host.Outcome.next ((s.onLogic_running _ hp).trans
      (congrArg (fun l => { s with live := l }) (sagDeferExpiry_drops he hph hb hr hd hl)))
  · refine ⟨s.onLive (vbatSample mv rail), rfl, rfl, ?_⟩
    simp only [State.onLive_live]
    unfold vbatSample
    rw [if_neg (by simp [hp])]
    extract_lets now was present v l1
    obtain ⟨kv, kr, kp, kh, kl⟩ := l1.sagSample_keeps was
    refine ⟨kv, kr, fun g hg => ?_, kh, kl⟩
    rw [kp]
    show present.getD g false = _
    simp [present, List.getD_eq_getElem?_getD, hg]
  · refine congrArg Host.Outcome.next (congrArg (fun l => { s with live := l }) ?_)
    exact if_neg (by simp [ho, hv])
  · refine congrArg Host.Outcome.next (congrArg (fun l => { s with live := l }) ?_)
    exact if_pos (by rw [any_of_some hq (decide_eq_true hl), ho]; rfl)
  · refine congrArg Host.Outcome.next (congrArg (fun l => { s with live := l }) ?_)
    exact if_neg (by simp [hv, ht])
  · refine congrArg Host.Outcome.next (congrArg (fun l => { s with live := l }) ?_)
    exact if_neg (by simp [hv, hn, hl])
  · refine congrArg Host.Outcome.next (congrArg (fun l => { s with live := l }) ?_)
    unfold vledLow
    dsimp only
    rw [if_neg (by omega), if_neg (by simp [hd])]
  · refine congrArg Host.Outcome.next (congrArg (fun l => { s with live := l }) ?_)
    have hcond : (s.live.led.darkVled && !s.live.led.resume) = true := by simp [hd, hr]
    unfold vledRestored
    rw [if_neg (by simp [ht]; omega)]
    exact if_pos hcond
  · refine congrArg Host.Outcome.next (congrArg (fun l => { s with live := l }) ?_)
    unfold cMeasDone
    dsimp only
    rw [if_neg (by simp [hc]), if_neg (by omega)]
  · refine congrArg Host.Outcome.next (congrArg (fun l => { s with live := l }) ?_)
    unfold cMeasDone
    dsimp only
    rw [if_neg (by simp [hc]), if_pos h]
  · exact ⟨s.onLive (energyEvaluation mv), rfl, rfl, rfl, rfl, rfl, rfl, rfl, rfl⟩
  · refine congrArg Host.Outcome.next (congrArg (fun l => { s with live := l }) ?_)
    exact if_neg (by simp [hmv, hh, hp])
  · refine congrArg Host.Outcome.next (congrArg (fun l => { s with live := l }) ?_)
    unfold vbatLRecover
    dsimp only
    rw [if_neg (by simp [hh]; omega)]
    refine congrArg (fun l : Live => l.raise 0x024 warn 1 (le 2 s.live.pwr.vholdMv)) ?_
    refine congrArg (fun n : Nat => Live.setPwr s.live fun p => { p with
      holdup := false, vlGoodSince := some s.live.mt.now, vbat := p.vbat.set 4 mv, coreStep := n }) ?_
    exact Live.coreAllowed_supplied rfl
  · exact congrArg Host.Outcome.next (State.command_answer h rfl)
  · refine congrArg Host.Outcome.next ((State.command_ends h _).trans ?_)
    obtain ⟨h0, h0', h2, h4, h5, h6, h8, h12, h16, h18, h20⟩ := hf
    unfold pwrConfig
    dsimp only
    rw [checked_pass]
    simp only [List.all_append, Bool.and_eq_true]
    refine ⟨⟨⟨?_, ?_⟩, ?_⟩, ?_⟩
    · simp [h0, h0', h2, h4, h5, h6]
    · simpa using fun g hg => h8 g hg
    · simpa using fun g hg => h12 g hg
    · simp [h16, h18, h20]
  · unfold Live.applyPwrCfg
    dsimp only
    split
    next ha => exact ⟨rfl, rfl, rfl, rfl, fun h => absurd ((show l.pwr.sag.active = true from ha).symm.trans h) (by decide)⟩
    next => exact ⟨rfl, rfl, rfl, rfl, fun _ => rfl⟩
end

section
/-! Die-to-die links, heartbeats and crossings: what a flit, a heartbeat and a time-out leave of them. -/

namespace Sys2Proof.Machine

theorem Live.setD2d_setD2d (l : Live) (i : Nat) (f g : D2dLink → D2dLink) :
    (l.setD2d i f).setD2d i g = l.setD2d i fun x => g (f x) := by
  simp only [Live.setD2d, upd_upd]

theorem Live.setD2d_at {l : Live} {i : Nat} {d : D2dLink} (f : D2dLink → D2dLink) (h : l.arch.d2d[i]? = some d) :
    (l.setD2d i f).arch.d2d[i]? = some (f d) := by
  simp [Live.setD2d, upd, List.getElem?_modify, h]

/-- A flit with a good CRC ends its lane's run of bad ones; a write flit is acknowledged, and applied when it is new. -/
theorem d2dFlit_good {l : Live} {k dir lane : Nat} {f : BitVec 64} {d : D2dLink} (hd : l.arch.d2d[2 * k + dir]? = some d)
    (hr : d.retired.getD lane true = false) (hdir : dir ≤ 1) (hf : flitOk f = true) :
    d2dFlit k dir lane f l = l.setD2d (2 * k + dir) fun x =>
      let x := { x with badRun := x.badRun.set lane 0 }
      if Config.d2dWrite (flitType f) = false then x
      else if d.isNew (flitSeq f) then
        { x with lastSeq := some (flitSeq f), lastWord := flitWord f, acked := some (flitSeq f) }
      else { x with acked := some (flitSeq f) } := by
  have hg : ¬ ((d.retired.getD lane true || decide (1 < dir)) = true) := by rw [hr]; simp [hdir]
  unfold d2dFlit
  dsimp only
  rw [hd]
  dsimp only
  rw [if_neg hg, if_pos hf]
  cases hw : Config.d2dWrite (flitType f)
  · rfl
  · cases hn : d.isNew (flitSeq f) <;> exact Live.setD2d_setD2d _ _ _ _

/-- A flit with a bad CRC lengthens its lane's run of them; the third in a row retires the lane. -/
theorem d2dFlit_bad {l : Live} {k dir lane : Nat} {f : BitVec 64} {d : D2dLink} (hd : l.arch.d2d[2 * k + dir]? = some d)
    (hr : d.retired.getD lane true = false) (hdir : dir ≤ 1) (hf : flitOk f = false) :
    d2dFlit k dir lane f l =
      if d.badRun.getD lane 0 < 2
      then l.setD2d (2 * k + dir) fun x => { x with badRun := x.badRun.set lane (d.badRun.getD lane 0 + 1) }
      else (l.setD2d (2 * k + dir) fun x => { x with
          badRun := x.badRun.set lane (d.badRun.getD lane 0 + 1), retired := x.retired.set lane true }).raise 0x006 warn lane
        (le 1 k ++ le 1 dir ++ le 1 ((d.retired.set lane true).filter (!·)).length) := by
  have hg : ¬ ((d.retired.getD lane true || decide (1 < dir)) = true) := by rw [hr]; simp [hdir]
  unfold d2dFlit
  dsimp only
  rw [hd]
  dsimp only
  rw [if_neg hg, if_neg (by simp [hf])]
  by_cases hn : d.badRun.getD lane 0 < 2
  · rw [if_pos (by omega), if_pos hn]
  · rw [if_neg (by omega), if_neg hn, Live.setD2d_setD2d]

/-- What the heartbeat brings the channels of a die leaves everything but those channels. -/
theorem logicHeartbeat_beats {l : Live} {d : Nat} (ho : (l.die d).orphan = false) (hc : l.dieCut d = false)
    (hp : l.sup.phase = .running) (hb : (l.die d).lastHb + ms 1 ≤ l.mt.now) (hd : d < l.load.dies.length) :
    ((logicHeartbeat d l).die d).lastHb = l.mt.now ∧ ((logicHeartbeat d l).die d).offS = l.sup.cfg.orphanOffS ∧
      (logicHeartbeat d l).host = l.host ∧ (logicHeartbeat d l).plan = l.plan := by
  have hg : ¬ (((l.die d).orphan || l.dieCut d || l.sup.phase != .running || decide (l.mt.now < (l.die d).lastHb + ms 1)) = true) := by
    rw [ho, hc, hp, decide_eq_false (Nat.not_lt.mpr hb)]
    decide
  unfold logicHeartbeat
  rw [if_neg hg]
  extract_lets l1
  have kd : l1.load.dies = l.load.dies := foldl_keeps (fun l => l.load.dies) (fun l i => by rfl) _ l
  have km : l1.mt = l.mt := foldl_keeps Live.mt (fun l i => by rfl) _ l
  have ks : l1.sup = l.sup := foldl_keeps Live.sup (fun l i => by rfl) _ l
  have kh : l1.host = l.host := foldl_keeps Live.host (fun l i => by rfl) _ l
  have kp : l1.plan = l.plan := foldl_keeps Live.plan (fun l i => by rfl) _ l
  clear_value l1
  rw [Live.setDie_die _ (by rw [kd]; exact hd), km, ks]
  exact ⟨rfl, rfl, kh, kp⟩

/-- A transfer whose requester waits for its whole command ends that command with INTERNAL. -/
theorem Live.failWork_command {l : Live} {m : MbRef} (i : Nat) (h : l.plan.openCmds.any (fun c => c.m == m) = false) :
    l.failWork (some (m, i)) = (l.disown m).complete m .internal 0 [] := by
  unfold Live.failWork
  exact if_neg (by rw [h]; decide)

/-- A time-out of a crossing that has not failed: what R19 does with it. -/
theorem crossingTimeout_counts {l : Live} {x y n kind : Nat} (work : Option (MbRef × Nat)) (shown : Bool)
    (hf : (l.crossing x y n).failed = false) (hk : kind ≤ 2) : crossingTimeout x y n kind work shown l =
      let c := l.crossing x y n
      let ts := l.mt.now :: c.timeouts.filter fun t => decide (l.mt.now ≤ t + ms 1)
      let there := shown && inRange 5 6 y && inRange 1 2 kind
      let again := !there && decide (ts.length < 3) && l.retries c kind
      let l := (l.setCrossing { c with
        timeouts := ts, retry := if again then some l.mt.now else none, failed := decide (3 ≤ ts.length), badRetests := 0,
        lastTest := l.mt.now }).raise 0x004 warn kind c.bytes
      let l := if 3 ≤ ts.length then l.raise 0x005 sevFault 0 c.bytes else l
      if there || again then l else l.failWork work := by
  have hn (k : Nat) : (!decide (3 ≤ k)) = decide (k < 3) := by by_cases h : 3 ≤ k <;> simp [h] <;> omega
  have hg : ¬ (((l.crossing x y n).failed || decide (2 < kind)) = true) := by
    rw [hf, decide_eq_false (Nat.not_lt.mpr hk)]
    decide
  unfold crossingTimeout
  dsimp only
  rw [if_neg hg]
  simp only [hn, decide_eq_true_eq]
  rfl

theorem Live.retries_iff {c : Crossing} (h : c.retry = none) (l : Live) (kind : Nat) :
    l.retries c kind = true ↔ kind = 0 ∨ (5 ≤ c.rcv ∧ c.rcv ≤ 7 ∧ 1 ≤ kind ∧ kind ≤ 2) := by
  unfold Live.retries
  rw [h, Option.any_none]
  simp [inRange, and_assoc]

/-- A die-to-die link of a power die with no lane left in one direction cuts the die off. -/
theorem Live.dieCut_of_retired {l : Live} {k dir : Nat} {d : D2dLink} (hd : l.arch.d2d[2 * k + dir]? = some d) (hdir : dir ≤ 1)
    (hk : k < 2) (hr : d.retired.all id = true) : l.dieCut k = true := by
  have hl : l.linkDead k = true := List.any_eq_true.mpr ⟨2 * k + dir, by simp; omega, by rw [hd]; exact hr⟩
  have h5 : inRange 5 7 (5 + k) = true := by simp [inRange]; omega
  unfold Live.dieCut Live.pathOut
  rw [Nat.add_sub_cancel_left, hl, h5]
  exact Bool.or_true _

end Sys2Proof.Machine

open Sys2Proof Sys2Proof.Machine

/-- Settles O19: a flit, a heartbeat, a time-out and a retest each by the branch that its row names. -/
theorem linksAndCrossings : Obligations.LinksAndCrossings := by
  refine ⟨fun k dir lane f d s hd hdir hr hlane => ⟨fun hf hw hn => ?_, fun hf hw hn => ?_, fun hf hw => ?_, fun hf hn => ?_,
      fun hf hn => ?_⟩, fun k dir d l hd hdir hk hr => Live.dieCut_of_retired hd hdir hk hr,
    fun d s => ⟨fun ho hc hp hb hd => ?_, fun h => ?_⟩,
    fun x y n kind work shown s => ⟨fun hf hk => ?_, fun hf => ?_⟩, fun l c kind hc => Live.retries_iff hc l kind,
    fun l m i => ⟨rfl, Live.failWork_command i⟩, fun x y n s hf ht => ⟨?_, ?_⟩, fun i c s => ?_⟩
  · refine ⟨s.onLive (d2dFlit k dir lane f), rfl, ?_⟩
    rw [State.onLive_live, d2dFlit_good hd hr hdir hf]
    exact ⟨(Live.setD2d_at _ hd).trans (by simp [hw, hn]), rfl⟩
  · refine ⟨s.onLive (d2dFlit k dir lane f), rfl, ?_⟩
    rw [State.onLive_live, d2dFlit_good hd hr hdir hf]
    exact ⟨(Live.setD2d_at _ hd).trans (by simp [hw, hn]), rfl⟩
  · refine ⟨s.onLive (d2dFlit k dir lane f), rfl, ?_⟩
    rw [State.onLive_live, d2dFlit_good hd hr hdir hf]
    exact ⟨(Live.setD2d_at _ hd).trans (by simp [hw]), rfl⟩
  · refine ⟨s.onLive (d2dFlit k dir lane f), rfl, ?_⟩
    rw [State.onLive_live, d2dFlit_bad hd hr hdir hf, if_pos hn]
    exact ⟨Live.setD2d_at _ hd, rfl⟩
  · refine ⟨s.onLive (d2dFlit k dir lane f), rfl, ?_⟩
    rw [State.onLive_live, d2dFlit_bad hd hr hdir hf, if_neg (by omega), Live.raise_arch]
    exact Live.setD2d_at _ hd
  · obtain ⟨hb', ho', hh, hpl⟩ := logicHeartbeat_beats ho hc hp hb hd
    exact ⟨s.onLive (logicHeartbeat (dieIndex d)), rfl, hb', ho', rfl, hh, hpl⟩
  · refine congrArg Host.Outcome.next (congrArg (fun l => { s with live := l }) ?_)
    exact if_pos (by rcases h with h | h <;> simp [h])
  · exact congrArg Host.Outcome.next (congrArg (fun l => { s with live := l }) (crossingTimeout_counts work shown hf hk))
  · refine congrArg Host.Outcome.next (congrArg (fun l => { s with live := l }) ?_)
    exact if_pos (by rw [hf]; rfl)
  · refine congrArg Host.Outcome.next (congrArg (fun l => { s with live := l }) ?_)
    have hg : ¬ ((!(s.live.crossing x y n).failed ||
        decide (s.live.mt.now < (s.live.crossing x y n).lastTest + ms 100)) = true) := by
      rw [hf, decide_eq_false (Nat.not_lt.mpr ht)]
      decide
    exact (if_neg hg).trans rfl
  · refine congrArg Host.Outcome.next (congrArg (fun l => { s with live := l }) ?_)
    have hg : ¬ ((!(s.live.crossing x y n).failed ||
        decide (s.live.mt.now < (s.live.crossing x y n).lastTest + ms 100)) = true) := by
      rw [hf, decide_eq_false (Nat.not_lt.mpr ht)]
      decide
    exact (if_neg hg).trans rfl
  · exact ⟨s.onLive (timestampPairing i c), rfl, rfl, List.mem_append_right _ (List.mem_singleton.mpr rfl), rfl, rfl⟩
end

section
/-! The load channels: what an update of one reads back, and which operations leave all of them as they are. -/

namespace Sys2Proof.Machine

/-! ### Reading a channel after an update -/

theorem Live.setCh_ch {l : Live} {n : Nat} (f : LoadCh → LoadCh) (h : n < l.load.ch.length) :
    (l.setCh n f).ch n = f (l.ch n) := upd_getD f _ h

theorem Live.setCh_ch_ne {l : Live} {n k : Nat} (f : LoadCh → LoadCh) (h : k ≠ n) : (l.setCh n f).ch k = l.ch k := by
  simp [Live.setCh, Live.ch, upd, List.getD_eq_getElem?_getD, List.getElem?_modify, Ne.symm h]

/-- Channels are read alike where the load state holds the same ones. -/
theorem Live.ch_congr {l l' : Live} (h : l'.load.ch = l.load.ch) (n : Nat) : l'.ch n = l.ch n := by
  rw [Live.ch, h, Live.ch]

@[simp] theorem Live.setCh_length (l : Live) (n : Nat) (f : LoadCh → LoadCh) :
    (l.setCh n f).load.ch.length = l.load.ch.length := List.length_modify ..

theorem sourceDie_load (n : Nat) : sourceDie (.load n) = n / 24 := Nat.div_div_eq_div_mul n 12 2

/-! ### Operations that leave the loads -/

@[simp] theorem Live.closeCmd_load (l : Live) (c : OpenCmd) : (l.closeCmd c).load = l.load := by
  unfold Live.closeCmd
  split
  · rfl
  · exact Live.complete_load ..

@[simp] theorem Live.entryDone_load (l : Live) (o : Option (MbRef × Nat)) (st : Status) :
    (l.entryDone o st).load = l.load := by
  unfold Live.entryDone
  split
  · rfl
  · split
    · rfl
    · split
      · rfl
      · exact Live.closeCmd_load ..

@[simp] theorem Live.dropEdges_load (l : Live) (src : Source) (p : EdgeWork → Bool) : (l.dropEdges src p).load = l.load :=
  foldl_keeps Live.load (fun l e => by simp) _ l

@[simp] theorem Live.dropChanges_load (l : Live) (src : Source) : (l.dropChanges src).load = l.load :=
  foldl_keeps Live.load (fun l (c : SlotChange) => l.entryDone_load c.owner .ok) _ _

@[simp] theorem Live.withdraw_load (l : Live) (src : Source) : (l.withdraw src).load = l.load := by
  simp [Live.withdraw]

@[simp] theorem Live.withdrawAll_load (l : Live) (src : Source) : (l.withdrawAll src).load = l.load := by
  simp [Live.withdrawAll]

@[simp] theorem Live.endSlot_load (l : Live) (src : Source) : (l.endSlot src).load = l.load := l.dropSlot_load src

@[simp] theorem Live.giveBack_load (l : Live) (src : Source) : (l.giveBack src).load = l.load := by
  unfold Live.giveBack
  split <;> simp

/-! ### Operations that leave the channels -/

@[simp] theorem Live.changed_ch (l : Live) (src : Source) : (l.changed src).load.ch = l.load.ch := rfl

@[simp] theorem Live.setDie_ch (l : Live) (d : Nat) (f : DieState → DieState) : (l.setDie d f).load.ch = l.load.ch := rfl

@[simp] theorem Live.dieRaise_ch (l : Live) (d id sev c : Nat) (p : List Byte) : (l.dieRaise d id sev c p).load.ch = l.load.ch := by
  unfold Live.dieRaise Live.dieRaiseAt
  split
  · rfl
  · rw [Live.raiseAt_load]

@[simp] theorem Live.loadEvent_ch (l : Live) (n c : Nat) : (l.loadEvent n c).load.ch = l.load.ch := by
  unfold Live.loadEvent
  split
  · rfl
  · exact Live.dieRaise_ch ..

@[simp] theorem Live.endFade_ch (l : Live) (n c : Nat) : (l.endFade n c).load.ch = l.load.ch := by
  unfold Live.endFade
  split
  · rfl
  · dsimp only
    rw [Live.dieRaise_ch]
    exact foldl_keeps (fun l => l.load.ch) (fun l (c : SlotChange) => by rw [Live.entryDone_load]) _ _

theorem Live.endFade_of_none {l : Live} {n : Nat} (h : l.fade n = none) (c : Nat) : l.endFade n c = l := by
  unfold Live.endFade
  rw [h]

end Sys2Proof.Machine
end

section
/-! The LOAD commands with legal fields. -/

namespace Sys2Proof.Machine

theorem checked_of_firstBad {α : Type} {cs : List (Nat × Bool)} (h : firstBad cs = none) (x : α) (bad : Reply → α) :
    checked cs x bad = x := by
  unfold checked
  rw [h]

theorem find?_dieLost {l : Live} {sel : List Nat} (h : ∀ n ∈ sel, l.dieLost (n / 24) = false) :
    sel.find? (fun n => l.dieLost (sourceDie (.load n))) = none := by
  refine List.find?_eq_none.mpr fun n hn => ?_
  rw [sourceDie_load, h n hn]
  decide

/-- LOAD.CONFIG of a channel on a die that is adopted and reached, outside DRAIN. -/
theorem loadConfig_passes {m : MbRef} {b : Mailbox} {l : Live} (hf : firstBad (loadCfgChecks b.payload) = none)
    (hd : l.dieLost (byteAt b.payload 0 / 24) = false) (hm : l.pwr.mode ≠ .drain) :
    loadConfig m b l =
      let n := byteAt b.payload 0
      let cfg := LoadCfg.ofBytes b.payload
      let after := (List.range (parMembers cfg.par)).map (n + ·)
      match (if cfg.par = 0 then none else after.find? (l.otherGroup n)) with
      | some k => (refuse .state (l.ch k).lowest, l)
      | none =>
        if (l.ch n).lowest != n || (after ++ l.groupOf n).any (fun k => !(l.ch (l.ch k).lowest).idle) then (refuse .state, l)
        else (l.applyLoadCfg n cfg).endConfig m (bit (byteAt b.payload 17) 2) 0x1001 n (loadKeep b.payload) := by
  unfold loadConfig
  dsimp only
  exact (checked_of_firstBad hf _ _).trans ((if_neg (by rw [sourceDie_load, hd]; decide)).trans
    (if_neg (by simpa [Live.draining] using hm)))

/-- LOAD.CLEAR with its reserved bytes 0 and every selected channel on a die that is adopted and reached. -/
theorem loadClear_passes {b : Mailbox} {l : Live} {sel : List Nat} (hs : bitsOf 48 (rd b.payload 0 6) = sel)
    (hr : (resv b 6 2).2 = true) (hd : ∀ n ∈ sel, l.dieLost (n / 24) = false) :
    loadClear b l = match sel.find? (fun n => (l.ch n).lowest != n) with
      | some n => (refuse .state n, l)
      | none =>
        let r := sel.foldl (fun (r : Nat × Live) n =>
          let x := r.2.clearChannel n
          (if x.1 then r.1 + 2 ^ n else r.1, x.2)) (0, l)
        (.done .ok 0 (le 6 r.1), r.2) := by
  unfold loadClear
  show checked [resv b 6 2] _ _ = _
  rw [hs, checked_pass (by rw [List.all_cons, hr]; rfl)]
  have hnone := find?_dieLost hd
  revert hnone
  generalize sel.find? (fun n => l.dieLost (sourceDie (.load n))) = o
  rintro rfl
  rfl

/-- What clearing a LATCHED channel leaves. -/
theorem Live.clearChannel_latched {l : Live} {n : Nat} (h : (l.ch n).state = 8) : l.clearChannel n =
    (true, ((l.endFade n 1).setCh n fun c => { c with
      latch := false, latchCause := 0, fpend := false, uvOff := false, cmd := .off, rdelay := none,
      retriesLeft := c.cfg.retries }).changed (.load n)) := if_pos h

theorem Live.clearChannel_unlatched {l : Live} {n : Nat} (h : (l.ch n).state ≠ 8) : l.clearChannel n =
    (false, l.setCh n fun c => { c with retriesLeft := c.cfg.retries }) := if_neg h

end Sys2Proof.Machine

open Sys2Proof Sys2Proof.Machine

/-- Settles O20: each command's body with its checks passed, and each entry by the present state of its channel. -/
theorem loadCommandRows : Obligations.LoadCommandRows := by
  refine ⟨fun m b s h hf => ⟨fun hd => ?_, fun hd hm => ?_, fun hd hm => ⟨fun k hk => ?_, fun ho => ⟨fun hl hi => ?_, fun hb => ?_⟩⟩⟩,
    fun m b s h h0 h1 h2 => ?_, fun m b s h hr hd => ⟨fun n hn => ?_, fun hl => ?_⟩, fun l n hn => ⟨?_, ?_, ?_, ?_, ?_⟩,
    fun l o n a d ha hd hm hl hfade hw hn => ?_, fun l o n cmd => ⟨?_, ?_, ?_, ?_⟩,
    fun m b s h hf => ⟨fun hs => ?_, fun hs hq => ?_, fun hs hq => ?_⟩⟩
  · refine congrArg Host.Outcome.next (State.command_answer h ?_)
    unfold loadConfig
    dsimp only
    rw [checked_of_firstBad hf, sourceDie_load, if_pos hd]
    rfl
  · refine congrArg Host.Outcome.next (State.command_answer h ?_)
    unfold loadConfig
    dsimp only
    rw [checked_of_firstBad hf, sourceDie_load, if_neg (by rw [hd]; decide), if_pos (by simp [Live.draining, hm])]
    rfl
  · refine congrArg Host.Outcome.next (State.command_answer h ?_)
    rw [loadConfig_passes hf hd hm]
    dsimp only
    rw [hk]
    rfl
  · refine congrArg Host.Outcome.next ((State.command_ends h _).trans (congrArg (s.ends m) ?_))
    rw [loadConfig_passes hf hd hm]
    dsimp only
    rw [ho]
    refine if_neg ?_
    rw [Bool.or_eq_true, not_or]
    refine ⟨by simp [hl], fun ha => ?_⟩
    obtain ⟨k, hk, hk'⟩ := List.any_eq_true.mp ha
    rw [hi k hk] at hk'
    cases hk'
  · refine congrArg Host.Outcome.next (State.command_answer h ?_)
    rw [loadConfig_passes hf hd hm]
    dsimp only
    rw [ho]
    refine if_pos ?_
    rcases hb with hb | ⟨k, hk, hb⟩
    · simp [hb]
    · rw [Bool.or_eq_true]
      exact .inr (List.any_eq_true.mpr ⟨k, hk, by simp [hb]⟩)
  · refine congrArg Host.Outcome.next (State.command_answer h ?_)
    exact checked_pass (by simp [h0, h1, h2]) _ _
  · refine congrArg Host.Outcome.next (State.command_answer h ?_)
    rw [loadClear_passes rfl hr hd, hn]
    rfl
  · refine congrArg Host.Outcome.next ((State.command_ends h _).trans (congrArg (s.ends m) ?_))
    rw [loadClear_passes rfl hr hd, List.find?_eq_none.mpr fun n hn => by rw [hl n hn, bne_self_eq_false]; decide]
  · by_cases h8 : (l.ch n).state = 8
    · rw [Live.clearChannel_latched h8, decide_eq_true h8]
    · rw [Live.clearChannel_unlatched h8, decide_eq_false h8]
  · by_cases h8 : (l.ch n).state = 8
    · rw [Live.clearChannel_latched h8]
      dsimp only
      rw [Live.ch_congr (Live.changed_ch ..), Live.setCh_ch _ (by rwa [Live.endFade_ch]), Live.ch_congr (Live.endFade_ch ..)]
    · rw [Live.clearChannel_unlatched h8]
      dsimp only
      rw [Live.setCh_ch _ hn]
  · intro h8
    rw [Live.clearChannel_latched h8]
    dsimp only
    rw [Live.ch_congr (Live.changed_ch ..), Live.setCh_ch _ (by rwa [Live.endFade_ch])]
    refine ⟨rfl, rfl, rfl, rfl, rfl, fun hfade => ?_⟩
    rw [Live.endFade_of_none hfade]
    exact ⟨rfl, rfl⟩
  · intro h8
    rw [Live.clearChannel_unlatched h8]
  · intro k hk
    by_cases h8 : (l.ch n).state = 8
    · rw [Live.clearChannel_latched h8]
      dsimp only
      rw [Live.ch_congr (Live.changed_ch ..), Live.setCh_ch_ne _ hk, Live.ch_congr (Live.endFade_ch ..)]
    · rw [Live.clearChannel_unlatched h8]
      exact Live.setCh_ch_ne _ hk
  · dsimp only
    generalize hr : l.loadEntry o n a d = r
    unfold Live.loadEntry at hr
    dsimp only at hr
    rw [sourceDie_load, if_neg (by rw [hd]; decide), if_neg (by simp [Live.draining, hm, hl]), Live.endFade_of_none hfade, hw] at hr
    refine ⟨fun hlat h => ?_, fun hlat h => ?_, fun hlat hheld => ⟨fun h => ?_, fun h hc => ?_, fun h hc => ?_⟩,
      fun hlat hheld => ⟨fun hc h => ?_, fun hc h => ?_, fun hc h => ?_, fun hc h => ?_, fun hc h => ?_, fun hc hs h hcmd => ?_,
        fun hc hs h hcmd => ?_⟩⟩
    · rw [← hr, if_pos hlat, if_neg (by simpa using h)]
    · rw [← hr, if_pos hlat, if_pos (by simpa using h)]
    · rw [← hr, if_neg (by simp [hlat]), if_pos hheld, if_pos (by simpa using h)]
    · rw [← hr, if_neg (by simp [hlat]), if_pos hheld, if_neg (by simpa using h), if_neg (by simp [hc])]
    · rw [← hr, if_neg (by simp [hlat]), if_pos hheld, if_neg (by simpa using h), if_pos hc]
    all_goals rw [← hr, if_neg (by simp [hlat]), if_neg (by rw [hheld]; decide)]
    · rw [hc]
      exact if_pos (by simpa using h)
    · rw [hc]
      exact if_pos (by simpa using h)
    · rcases hc with hc | hc <;> rw [hc] <;> exact if_neg (by simpa using h)
    · cases hsw : (l.ch n).sw <;> rw [LoadCh.conducts, hsw] at hc
      case off => cases hc
      case clamp => cases hc
      all_goals exact if_pos (by simpa using h)
    · rw [hc]
      exact if_neg (by simpa using h)
    · cases hsw : (l.ch n).sw <;> rw [LoadCh.conducts, hsw] at hc
      case off => cases hc
      case clamp => cases hc
      case slew => exact absurd hsw hs
      all_goals exact (if_neg (by simpa using h)).trans (if_pos (by simpa using hcmd))
    · cases hsw : (l.ch n).sw <;> rw [LoadCh.conducts, hsw] at hc
      case off => cases hc
      case clamp => cases hc
      case slew => exact absurd hsw hs
      all_goals exact (if_neg (by simpa using h)).trans (if_neg (by simpa using hcmd))
  · intro st hst
    unfold Live.commandOn
    dsimp only
    rw [hst]
  · intro hst
    unfold Live.commandOn
    dsimp only
    rw [hst]
    refine ⟨fun h => if_pos (by simpa using h), fun ht hu => ⟨fun h => ?_, fun h hb => ?_⟩⟩
    · refine (if_neg (by simp [ht, hu])).trans (if_neg ?_)
      rcases h with h | h
      · simp [h]
      · rw [h]
        simp
    · refine (if_neg (by simp [ht, hu])).trans (if_pos ?_)
      rw [hb]
      simpa using h
  · exact fun h => if_pos h
  · intro ho hc hs
    unfold Live.turnOnRefused
    dsimp only
    rw [if_neg (by rw [ho]; decide), if_neg (by rw [hc, Bool.false_and]; decide), sourceDie_load, if_pos hs]
  · refine congrArg Host.Outcome.next ((State.command_ends h _).trans (congrArg (s.ends m) ?_))
    unfold loadSet
    dsimp only
    rw [checked_of_firstBad hf, if_neg (by rw [hs]; decide)]
  · refine congrArg Host.Outcome.next (State.command_answer h ?_)
    unfold loadSet
    dsimp only
    rw [checked_of_firstBad hf, if_pos hs, if_pos hq]
    rfl
  · refine congrArg Host.Outcome.next ((State.command_ends h _).trans (congrArg (s.ends m) ?_))
    unfold loadSet
    dsimp only
    rw [checked_of_firstBad hf, if_pos hs, if_neg (by omega)]
end

section
/-! The life of a sporadic edge: the branch that each row takes for the edge it names. -/

namespace Sys2Proof.Machine

/-- An arriving edge that its die can take and that has not waited too long. -/
theorem edgeArrival_looked {l : Live} {id : Nat} {e : Edge} (he : l.edge id = some e) (hp : e.phase = .arriving)
    (hc : e.work.commanded = true → l.dieCut (sourceDie e.work.src) = false) (hu : l.unanswered e = false) :
    edgeArrival id l =
      let others := (l.plan.edges.filter fun (x : Edge) => x.id != e.id && x.phase != EdgePhase.placed).length
      if 128 ≤ others ∧ e.work.commanded = true then l.refuseEdge e 2 .busy
      else if l.holds e = true then l.holdEdge e l.sagDefers l.shedDelays
      else if l.asksSlot e.work = true then l.slotEdge e
      else l.placeEdge e := by
  have hcut : (e.work.commanded && l.dieCut (sourceDie e.work.src)) = false := by
    cases hw : e.work.commanded
    · rfl
    · rw [hc hw]
      rfl
  unfold edgeArrival
  rw [he]
  dsimp only
  rw [if_neg (by rw [hp]; decide), if_neg (by rw [hcut]; decide), if_neg (by rw [hu]; decide)]
  simp only [Bool.and_eq_true, decide_eq_true_eq]

/-- A turn-on that has been delayed for DELAY_MAX is dropped. -/
theorem delayMaxExpiry_drops {l : Live} {id t : Nat} {e : Edge} (he : l.edge id = some e)
    (hp : e.phase = .delayed ∨ e.phase = .held ∧ e.byShed = true) (hr : e.work.restarts = false) (ht : e.heldAt = some t)
    (hl : t + ms l.plan.cfg.delayMax ≤ l.mt.now) : delayMaxExpiry id l =
      (((l.unbookEdge id).removeEdge id).dropCommand e.work.src).raise 0x084 warn 0 (le 2 (sourceId e.work.src)) := by
  have hd : (e.phase == .delayed || (e.phase == .held && e.byShed)) = true := by
    rcases hp with hp | ⟨hp, hb⟩
    · rw [hp]
      rfl
    · rw [hp, hb]
      rfl
  unfold delayMaxExpiry
  rw [he]
  dsimp only
  rw [if_neg (by rw [hd, hr, any_of_some ht (decide_eq_true hl)]; decide)]

/-- A placed edge of a command or of shedding at its tick. -/
theorem edgeExecute_executes {l : Live} {id : Nat} {e : Edge} (clamps : Bool) (he : l.edge id = some e) (hp : e.phase = .placed)
    (ht : e.tick * tickNs ≤ l.mt.now) (hc : l.clamping e.work.src = false) (hr : e.work.restarts = false) :
    edgeExecute id clamps l =
      let r := l.executeWork e.work clamps
      let l := r.2.removeEdge id
      (if e.work.rises = true ∧ r.1 ≠ .ok then l.unbookEdge id else l).entryDone e.owner r.1 := by
  unfold edgeExecute
  rw [he]
  dsimp only
  rw [if_neg (by rw [hp, hr, hc, decide_eq_false (Nat.not_lt.mpr ht)]; decide)]
  simp only [Bool.and_eq_true, bne_iff_ne]

theorem restartEdge_restarts {l : Live} {id : Nat} {e : Edge} (he : l.edge id = some e) (hp : e.phase = .placed)
    (ht : e.tick * tickNs ≤ l.mt.now) (hc : l.clamping e.work.src = false) (hr : e.work.restarts = true) :
    restartEdge id l =
      let l := (l.restartWork' e.work).removeEdge id
      if l.conductsNow e.work.src then l else l.unbookEdge id := by
  unfold restartEdge
  rw [he]
  dsimp only
  rw [if_neg (by rw [hp, hr, hc, decide_eq_false (Nat.not_lt.mpr ht)]; decide)]

theorem protectionOffReport_off {l : Live} {src : Source} (hs : l.sourceOn src = false) (hc : l.conductsNow src = false) :
    protectionOffReport src l =
      (if l.plan.stand.any fun s => s.src == src && s.onAt l.plan.cfg.dither l.mt.now then l.endSlot src
      else { l.dropSlot src with plan := { (l.dropSlot src).plan with
        stand := l.plan.stand.filter (·.src != src) } } : Live).giveBack src := by
  unfold protectionOffReport
  rw [if_neg (by rw [hs, hc]; decide)]

end Sys2Proof.Machine

open Sys2Proof Sys2Proof.Machine

/-- Settles O21: the edge's phase and what holds turn-ons back decide each row's branch. -/
theorem edgeLife : Obligations.EdgeLife := by
  refine ⟨fun id e s hp he hph hc hu => ⟨fun ho hw => ?_, fun h => ⟨fun hh => ?_, fun hh ha => ?_, fun hh ha => ?_⟩⟩,
    fun id e s hp he => ⟨fun hph ht hb => ?_, fun hph ht hb => ?_, fun hph hb hs hd => ?_, fun t hph hr ht hl => ?_, fun hr => ?_⟩,
    fun id clamps e s he hph ht hc => ⟨fun hr => ?_, fun hr => ?_⟩,
    fun src s hp hs hc => ⟨fun hi => ?_, fun hi => ?_⟩, fun l src => ⟨fun h => ?_, fun h hb => ?_⟩⟩
  · refine congrArg Host.Outcome.next ((s.onLogic_running _ hp).trans (congrArg (fun l => { s with live := l }) ?_))
    rw [edgeArrival_looked he hph hc hu]
    exact if_pos ⟨ho, hw⟩
  · refine congrArg Host.Outcome.next ((s.onLogic_running _ hp).trans (congrArg (fun l => { s with live := l }) ?_))
    rw [edgeArrival_looked he hph hc hu]
    exact (if_neg fun g => h.elim (Nat.not_lt.mpr g.1) fun hw => absurd (hw.symm.trans g.2) (by decide)).trans (if_pos hh)
  · refine congrArg Host.Outcome.next ((s.onLogic_running _ hp).trans (congrArg (fun l => { s with live := l }) ?_))
    rw [edgeArrival_looked he hph hc hu]
    exact (if_neg fun g => h.elim (Nat.not_lt.mpr g.1) fun hw => absurd (hw.symm.trans g.2) (by decide)).trans
      ((if_neg (by rw [hh]; decide)).trans (if_pos ha))
  · refine congrArg Host.Outcome.next ((s.onLogic_running _ hp).trans (congrArg (fun l => { s with live := l }) ?_))
    rw [edgeArrival_looked he hph hc hu]
    exact (if_neg fun g => h.elim (Nat.not_lt.mpr g.1) fun hw => absurd (hw.symm.trans g.2) (by decide)).trans
      ((if_neg (by rw [hh]; decide)).trans (if_neg (by rw [ha]; decide)))
  · refine congrArg Host.Outcome.next ((s.onLogic_running _ hp).trans (congrArg (fun l => { s with live := l }) ?_))
    unfold delayedTurnOn
    rw [he]
    dsimp only
    rw [hph]
    exact (if_neg (Nat.not_lt.mpr ht)).trans (if_neg (by rw [hb]; decide))
  · refine congrArg Host.Outcome.next ((s.onLogic_running _ hp).trans (congrArg (fun l => { s with live := l }) ?_))
    unfold delayedTurnOn
    rw [he]
    dsimp only
    rw [hph]
    exact (if_neg (Nat.not_lt.mpr ht)).trans (if_pos hb)
  · refine congrArg Host.Outcome.next ((s.onLogic_running _ hp).trans (congrArg (fun l => { s with live := l }) ?_))
    unfold delayedTurnOn
    rw [he]
    dsimp only
    rw [hph]
    exact if_neg (by rw [hb, hs, hd]; decide)
  · exact congrArg Host.Outcome.next ((s.onLogic_running _ hp).trans
      (congrArg (fun l => { s with live := l }) (delayMaxExpiry_drops he hph hr ht hl)))
  · refine congrArg Host.Outcome.next ((s.onLogic_running _ hp).trans (congrArg (fun l => { s with live := l }) ?_))
    unfold delayMaxExpiry
    rw [he]
    exact if_pos (by rw [hr, Bool.or_true, Bool.true_or])
  · exact congrArg Host.Outcome.next (congrArg (fun l => { s with live := l }) (edgeExecute_executes clamps he hph ht hc hr))
  · exact congrArg Host.Outcome.next (congrArg (fun l => { s with live := l }) (restartEdge_restarts he hph ht hc hr))
  · refine congrArg Host.Outcome.next ((s.onLogic_running _ hp).trans (congrArg (fun l => { s with live := l }) ?_))
    rw [protectionOffReport_off hs hc, if_pos hi]
  · refine congrArg Host.Outcome.next ((s.onLogic_running _ hp).trans (congrArg (fun l => { s with live := l }) ?_))
    rw [protectionOffReport_off hs hc, if_neg (by rw [hi]; decide)]
  · refine if_pos ?_
    rcases h with h | h
    · rw [h]
      rfl
    · rw [decide_eq_true h]
      exact Bool.or_true _
  · exact if_neg (by rw [h, decide_eq_false (Int.not_le.mpr hb)]; decide)
end

section
/-! Turn-on, turn-off and fault turn-off of a load channel. -/

namespace Sys2Proof.Machine

@[simp] theorem Live.dieRaise_mt (l : Live) (d id sev c : Nat) (p : List Byte) : (l.dieRaise d id sev c p).mt = l.mt := by
  unfold Live.dieRaise Live.dieRaiseAt
  split <;> simp

@[simp] theorem Live.dieRaise_plan (l : Live) (d id sev c : Nat) (p : List Byte) : (l.dieRaise d id sev c p).plan = l.plan := by
  unfold Live.dieRaise Live.dieRaiseAt
  split <;> simp

@[simp] theorem Live.loadEvent_mt (l : Live) (n c : Nat) : (l.loadEvent n c).mt = l.mt := by
  unfold Live.loadEvent
  split <;> simp

@[simp] theorem Live.loadEvent_plan (l : Live) (n c : Nat) : (l.loadEvent n c).plan = l.plan := by
  unfold Live.loadEvent
  split <;> simp

/-! ### Turn-on -/

theorem Live.pwmRestarted_load (l : Live) (n : Nat) : (l.pwmRestarted n).load = l.load := by
  unfold Live.pwmRestarted
  split
  · split
    · exact Live.askSlot_load ..
    · rfl
  · rfl

theorem Live.pwmRestarted_host (l : Live) (n : Nat) : (l.pwmRestarted n).host = l.host := by
  unfold Live.pwmRestarted
  split
  · split <;> rfl
  · rfl

theorem Live.loadOn_host (l : Live) (n : Nat) (cmd : LoadCmd) : (l.loadOn n cmd).host = l.host := by
  unfold Live.loadOn
  dsimp only
  split <;> rfl

/-- A channel that is turned on conducts under its command. -/
theorem Live.loadOn_ch {l : Live} {n : Nat} (cmd : LoadCmd) (hn : n < l.load.ch.length) :
    ((l.loadOn n cmd).ch n).conducts = true ∧ ((l.loadOn n cmd).ch n).cmd = cmd := by
  unfold Live.loadOn
  dsimp only
  split <;> rw [Live.setCh_ch _ (by exact hn)] <;> exact ⟨rfl, rfl⟩

/-! ### Turn-off -/

/-- What a turn-off makes of its channel. -/
def LoadCh.turnedOff (c : LoadCh) (n now : Nat) (clamps : Bool) (cause : Option Nat) : LoadCh :=
  { c with
    sw := if clamps then .clamp else .off, clampCause := cause, clampTl := false,
    clampMax := clampEnergy (loadClass n) * c.members, clampFree := c.cfg.freewheel, rampEnd := none,
    onAcc := c.onAcc + (now - c.onAt), offAt := now, tests := [], testAt := none, duty := 0, pulse := 0, pulseAcc := 0,
    imbClear := if c.imbalance then some (c.imbClear.getD now) else c.imbClear }

theorem Live.loadOff_ch {l : Live} {n : Nat} (clamps : Bool) (cause : Option Nat) (hn : n < l.load.ch.length) :
    (l.loadOff n clamps cause).ch n = (l.ch n).turnedOff n l.mt.now clamps cause :=
  Live.setCh_ch (l := l.changed (.load n)) _ hn

theorem Live.loadOff_ch_ne {l : Live} {n k : Nat} (clamps : Bool) (cause : Option Nat) (hk : k ≠ n) :
    (l.loadOff n clamps cause).ch k = l.ch k :=
  Live.setCh_ch_ne (l := l.changed (.load n)) _ hk

@[simp] theorem Live.loadOff_length (l : Live) (n : Nat) (clamps : Bool) (cause : Option Nat) :
    (l.loadOff n clamps cause).load.ch.length = l.load.ch.length :=
  Live.setCh_length (l.changed (.load n)) n _

theorem Live.loadOffCommanded_ch (l : Live) (n : Nat) (clamps : Bool) :
    (l.loadOffCommanded n clamps).load.ch = (l.loadOff n clamps none).load.ch := by
  unfold Live.loadOffCommanded
  dsimp only
  split
  · rw [Live.dropSlot_load]
  · rw [Live.loadEvent_ch, Live.dropSlot_load]

/-- A commanded turn-off of a conducting channel. -/
theorem Live.executeOff_ch {l : Live} {n : Nat} (clamps : Bool) (hn : n < l.load.ch.length) (hc : (l.ch n).conducts = true) :
    (l.executeOff n clamps).ch n =
      ({ l.ch n with cmd := .off, fpend := false, uvOff := false } : LoadCh).turnedOff n l.mt.now clamps none := by
  have hset := Live.setCh_ch (l := l) (n := n) (fun c => { c with cmd := .off, fpend := false, uvOff := false }) hn
  have hcond : ((l.setCh n fun c => { c with cmd := .off, fpend := false, uvOff := false }).ch n).conducts = true := by
    rw [hset]
    exact hc
  have hoff : l.executeOff n clamps =
      ((l.setCh n fun c => { c with cmd := .off, fpend := false, uvOff := false }).endSlot (.load n)).loadOffCommanded n clamps :=
    if_pos hcond
  have hmt (l : Live) (src : Source) : (l.endSlot src).mt = l.mt := Live.dropSlot_mt ..
  rw [hoff, Live.ch_congr (Live.loadOffCommanded_ch ..),
    Live.loadOff_ch _ _ (by rw [Live.endSlot_load, Live.setCh_length]; exact hn), hmt,
    Live.ch_congr (congrArg LoadState.ch (Live.endSlot_load ..)), hset]
  rfl

/-! ### Fault turn-off -/

/-- A conducting channel with nothing placed goes off under its cause and then waits for its retry, or is LATCHED. -/
theorem Live.faultOff_conducting {l : Live} {n : Nat} (cause : Nat) (clamps : Bool) (hn : n < l.load.ch.length)
    (hc : (l.ch n).conducts = true) (hcmd : (l.ch n).cmd ≠ .off) (he : l.plan.edges = []) :
    l.faultOff n cause clamps =
      (((l.loadOff n clamps (some cause)).setCh n fun c => { c with onAcc := 0 }).loadEvent n cause).faultPend n cause := by
  have hnone : (((l.loadOff n clamps (some cause)).setCh n fun c => { c with onAcc := 0 }).loadEvent n cause).offThisFrame n =
      none := by
    unfold Live.offThisFrame
    rw [Live.loadEvent_plan, Live.setCh_plan, show (l.loadOff n clamps (some cause)).plan = l.plan from rfl, he]
    rfl
  have hkeep : ((((l.loadOff n clamps (some cause)).setCh n fun c => { c with onAcc := 0 }).loadEvent n cause).ch n).cmd ≠
      .off := by
    rw [Live.ch_congr (Live.loadEvent_ch ..), Live.setCh_ch _ (by rw [Live.loadOff_length]; exact hn), Live.loadOff_ch _ _ hn]
    exact hcmd
  unfold Live.faultOff
  dsimp only
  rw [if_pos hc, hnone]
  exact if_neg (by rw [beq_eq_false_iff_ne.mpr hkeep]; decide)

theorem Live.latchCh_ch {l : Live} {n : Nat} (cause : Nat) (hn : n < l.load.ch.length) : (l.latchCh n cause).ch n =
    { l.ch n with latch := true, latchCause := cause, fpend := false, rdelay := none, uvOff := false } := by
  unfold Live.latchCh
  rw [Live.ch_congr (Live.loadEvent_ch ..)]
  exact Live.setCh_ch (l := l.changed (.load n)) _ hn

/-- What a fault leaves of its channel. -/
theorem Live.faultPend_ch {l : Live} {n : Nat} (cause : Nat) (hn : n < l.load.ch.length) : (l.faultPend n cause).ch n =
    if (l.ch n).retriesLeft = 0
    then { l.ch n with latch := true, latchCause := cause, fpend := false, rdelay := none, uvOff := false }
    else { l.ch n with fpend := true, rdelay := some (l.mt.now + ms (l.ch n).cfg.retryMs) } := by
  unfold Live.faultPend
  dsimp only
  split
  · exact Live.latchCh_ch cause hn
  · exact Live.setCh_ch _ hn

theorem Live.faultPend_ch_ne {l : Live} {n k : Nat} (cause : Nat) (hk : k ≠ n) : (l.faultPend n cause).ch k = l.ch k := by
  unfold Live.faultPend
  dsimp only
  split
  · unfold Live.latchCh
    rw [Live.ch_congr (Live.loadEvent_ch ..)]
    exact Live.setCh_ch_ne (l := l.changed (.load n)) _ hk
  · exact Live.setCh_ch_ne _ hk

end Sys2Proof.Machine

open Sys2Proof Sys2Proof.Machine

/-- Settles O22: what each operation makes of the channel it names, read back after it. -/
theorem loadExecutes : Obligations.LoadExecutes := by
  refine ⟨fun l n d hn => ⟨fun hl => ?_, fun hl hc => ⟨fun h => ?_, fun ht hu hf hw => ?_⟩⟩, fun l n clamps hn hc => ?_,
    fun l n cause clamps hn hc hcmd he => ?_, fun l n d => ?_⟩
  · exact if_pos hl
  · refine (if_neg (by rw [hl]; decide)).trans ((if_neg (by rw [hc]; decide)).trans (if_pos ?_))
    rcases h with h | h | h | h <;> simp [h]
  · have he : l.executeOn n d = (.ok, (l.loadOn n (if d = 65535 then .on else .pwm d)).pwmRestarted n) :=
      (if_neg (by rw [hl]; decide)).trans ((if_neg (by rw [hc]; decide)).trans (if_neg (by rw [ht, hu, hf, hw]; decide)))
    obtain ⟨hon, hcm⟩ := Live.loadOn_ch (if d = 65535 then .on else .pwm d) hn
    rw [he]
    dsimp only
    rw [Live.ch_congr (congrArg LoadState.ch (Live.pwmRestarted_load ..)), Live.pwmRestarted_host, Live.loadOn_host]
    exact ⟨rfl, hon, hcm, rfl⟩
  · rw [Live.executeOff_ch clamps hn hc]
    exact ⟨rfl, rfl, rfl, rfl⟩
  · have hn' : n < (((l.loadOff n clamps (some cause)).setCh n fun c => { c with onAcc := 0 }).loadEvent n cause).load.ch.length := by
      rw [Live.loadEvent_ch, Live.setCh_length, Live.loadOff_length]
      exact hn
    have hch : (((l.loadOff n clamps (some cause)).setCh n fun c => { c with onAcc := 0 }).loadEvent n cause).ch n =
        { (l.ch n).turnedOff n l.mt.now clamps (some cause) with onAcc := 0 } := by
      rw [Live.ch_congr (Live.loadEvent_ch ..), Live.setCh_ch _ (by rw [Live.loadOff_length]; exact hn), Live.loadOff_ch _ _ hn]
    dsimp only
    rw [Live.faultOff_conducting cause clamps hn hc hcmd he, Live.faultPend_ch cause hn', hch, Live.loadEvent_mt]
    refine ⟨by split <;> rfl, by split <;> rfl, fun h0 => ?_, fun h0 => ?_, fun k hk => ?_⟩
    · rw [if_pos (by exact h0)]
      exact ⟨rfl, rfl, rfl⟩
    · rw [if_neg (by exact h0)]
      exact ⟨rfl, rfl, rfl⟩
    · rw [Live.faultPend_ch_ne cause hk, Live.ch_congr (Live.loadEvent_ch ..), Live.setCh_ch_ne _ hk, Live.loadOff_ch_ne _ _ hk]
  · by_cases hr : (l.ch n).cfg.role = 1 ∨ (l.ch n).cfg.role = 2
    · rw [if_pos hr]
      exact if_pos (by rcases hr with hr | hr <;> rw [LoadCh.lighting, hr] <;> rfl)
    · rw [if_neg hr]
      exact if_neg (by simpa [LoadCh.lighting] using hr)
end

section
/-! What the dies report of their outputs. -/

namespace Sys2Proof.Machine

/-! ### Reading an output after an update -/

theorem upd_getD_ne {α : Type} {xs : List α} {i k : Nat} (f : α → α) (x : α) (h : k ≠ i) : (upd xs i f).getD k x = xs.getD k x := by
  simp [upd, List.getD_eq_getElem?_getD, List.getElem?_modify, Ne.symm h]

/-- Updates agree when they agree on the element that they change. -/
theorem upd_congr {α : Type} {xs : List α} {i : Nat} {f g : α → α} {x : α} (hi : i < xs.length)
    (h : f (xs.getD i x) = g (xs.getD i x)) : upd xs i f = upd xs i g := by
  refine List.ext_getElem? fun k => ?_
  by_cases hk : i = k
  · subst hk
    have hx : xs.getD i x = xs[i] := by simp [List.getD_eq_getElem?_getD, hi]
    rw [hx] at h
    simp [upd, List.getElem?_modify, hi, h]
  · simp [upd, List.getElem?_modify, hk]

theorem Live.setCh_congr {l : Live} {n : Nat} {f g : LoadCh → LoadCh} (hn : n < l.load.ch.length) (h : f (l.ch n) = g (l.ch n)) :
    l.setCh n f = l.setCh n g :=
  congrArg (fun cs => { l with load := { l.load with ch := cs } }) (upd_congr hn h)

theorem Live.setFio_congr {l : Live} {n : Nat} {f g : FioCh → FioCh} (hn : n < l.fio.ch.length)
    (h : f (l.fioCh n) = g (l.fioCh n)) : l.setFio n f = l.setFio n g :=
  congrArg (fun cs => { l with fio := { l.fio with ch := cs } }) (upd_congr hn h)

theorem Live.setBr_bridge {l : Live} {k : Nat} (f : Bridge → Bridge) (h : k < l.load.br.length) :
    (l.setBr k f).bridge k = f (l.bridge k) := upd_getD f _ h

theorem Live.setBr_bridge_ne {l : Live} {k j : Nat} (f : Bridge → Bridge) (h : j ≠ k) : (l.setBr k f).bridge j = l.bridge j :=
  upd_getD_ne f _ h

theorem Live.setFio_fioCh {l : Live} {n : Nat} (f : FioCh → FioCh) (h : n < l.fio.ch.length) :
    (l.setFio n f).fioCh n = f (l.fioCh n) := upd_getD f _ h

theorem Live.setFio_fioCh_ne {l : Live} {n k : Nat} (f : FioCh → FioCh) (h : k ≠ n) : (l.setFio n f).fioCh k = l.fioCh k :=
  upd_getD_ne f _ h

theorem Live.setValve_valve {l : Live} {v : Nat} (f : Valve → Valve) (h : v < l.valve.valves.length) :
    (l.setValve v f).valve' v = f (l.valve' v) := upd_getD f _ h

theorem Live.setValve_valve_ne {l : Live} {v k : Nat} (f : Valve → Valve) (h : k ≠ v) : (l.setValve v f).valve' k = l.valve' k :=
  upd_getD_ne f _ h

theorem Live.setBank_bank {l : Live} {b : Nat} (f : Bank → Bank) (h : b < l.valve.banks.length) :
    (l.setBank b f).bank b = f (l.bank b) := upd_getD f _ h

/-! ### Readback -/

/-- The readings taken into the output that they are of. -/
def Live.readOut (l : Live) (src : Source) (xs : List Readback) : Live :=
  match src with
  | .load n => loadReadback n xs l
  | .leg k => legReadback k xs l
  | .valve v => valveReadback v xs l
  | .bank b => bankReadback b xs l
  | .fio n => fioReadback n xs l
  | .rows => l

/-- Readings are taken into their output, and the die's data are fresh. -/
theorem readbackSample_takes {src : Source} {xs : List Readback} {l : Live} (hx : xs ≠ []) :
    readbackSample src xs l =
      (l.readOut src xs).setDie (sourceDie src) fun d => { d with fresh := (l.readOut src xs).mt.now } := by
  unfold readbackSample
  rw [if_neg (by simpa using hx)]
  cases src <;> rfl

/-- A reading touches nothing of the host, the plan, the dies' own state or MT. -/
theorem Live.readOut_keeps (l : Live) (src : Source) (xs : List Readback) :
    (l.readOut src xs).host = l.host ∧ (l.readOut src xs).plan = l.plan ∧ (l.readOut src xs).mt = l.mt ∧
      (l.readOut src xs).load.dies = l.load.dies := by
  cases src with
  | leg k =>
    show (legReadback k xs l).host = _ ∧ (legReadback k xs l).plan = _ ∧ (legReadback k xs l).mt = _ ∧
      (legReadback k xs l).load.dies = _
    unfold legReadback
    dsimp only
    split <;> exact ⟨rfl, rfl, rfl, rfl⟩
  | _ => exact ⟨rfl, rfl, rfl, rfl⟩

/-- A reading of a leg keeps the state of its bridge, and a leg that stands for a bridge takes its current. -/
theorem legReadback_bridge {l : Live} {k : Nat} (xs : List Readback) (hk : k < l.load.br.length) :
    ((legReadback k xs l).bridge k).tj = clip (-500) 2000 (meanOf (·.tj) xs) ∧
      ((legReadback k xs l).bridge k).st = (l.bridge k).st ∧
      (l.bridgeOfLeg k = k → ((legReadback k xs l).bridge k).i = meanOf (·.i) xs) := by
  have hlen : k < (l.setBr k fun b => { b with tj := clip (-500) 2000 (meanOf (·.tj) xs) }).load.br.length := by
    simpa [Live.setBr, upd] using hk
  unfold legReadback
  dsimp only
  split
  next h =>
    rw [← h, Live.setBr_bridge _ hlen, Live.setBr_bridge _ hk]
    exact ⟨rfl, rfl, fun _ => rfl⟩
  next h =>
    rw [Live.setBr_bridge_ne _ h, Live.setBr_bridge _ hk]
    exact ⟨rfl, rfl, fun hb => absurd hb.symm h⟩

theorem clip_toNat (x : Int) : ((clip 0 40000 x).toNat : Int) = clip 0 40000 x :=
  Int.toNat_of_nonneg (Int.le_max_left ..)

end Sys2Proof.Machine

open Sys2Proof Sys2Proof.Machine

/-- Settles O23: each report by its guard; a reading is taken into the output that it names. -/
theorem loadReports : Obligations.LoadReports := by
  refine ⟨fun n t s hs hr ht => ?_, fun n s hc => ⟨fun hp => ?_, fun hp => ?_⟩, fun k s => rfl, fun n v s hs hv => ?_,
    fun src is vs tjs fs s hx hd => ?_, fun n f cs s hp hs hl ⟨i, hi, hd⟩ ho hf hb => ?_,
    fun n i f s hm hs hl hf hb => ⟨fun ho hi => ?_, fun ho hi => ?_, fun hi => ?_⟩,
    fun n v0 v1 s hn hs hst hl hm hr ht hx => ?_, fun n v0 v1 s hn hm hst hl hr ht hx => ?_, fun a b c was => ⟨?_, ?_, ?_⟩⟩
  · refine congrArg Host.Outcome.next (congrArg (fun l => { s with live := l }) ?_)
    exact if_pos (by rw [hs, any_of_some hr (decide_eq_true ht)]; rfl)
  · refine congrArg Host.Outcome.next (congrArg (fun l => { s with live := l }) ?_)
    have h0 : s.live.slotStarts n = s.live := by
      unfold Live.slotStarts
      rw [hc]
      rfl
    show (if ((s.live.slotStarts n).ch n).pulsed = true then _ else _) = _
    rw [h0]
    exact if_pos hp
  · refine congrArg Host.Outcome.next (congrArg (fun l => { s with live := l }) ?_)
    have h0 : s.live.slotStarts n = s.live := by
      unfold Live.slotStarts
      rw [hc]
      rfl
    show (if ((s.live.slotStarts n).ch n).pulsed = true then _ else _) = _
    rw [h0]
    exact if_neg (by rw [hp]; decide)
  · refine congrArg Host.Outcome.next (congrArg (fun l => { s with live := l }) ?_)
    exact if_pos (by rw [hs, decide_eq_true hv]; rfl)
  · refine ⟨s.onLive (readbackSample src (readbacks is vs tjs fs)), rfl, rfl, ?_⟩
    rw [State.onLive_live]
    generalize readbacks is vs tjs fs = xs at hx ⊢
    obtain ⟨kh, kp, km, kd⟩ := s.live.readOut_keeps src xs
    rw [readbackSample_takes hx]
    refine ⟨kh, kp, ?_, ?_, ?_, ?_, ?_, ?_⟩
    · rw [Live.setDie_die _ (by rw [kd]; exact hd)]
      exact congrArg MtState.now km
    · rintro n rfl hn
      have hch : (s.live.readOut (.load n) xs).ch n = _ := Live.setCh_ch _ hn
      rw [Live.ch_congr (Live.setDie_ch ..), hch]
      refine ⟨rfl, rfl, clip_toNat _, rfl, rfl, fun k hk => ?_⟩
      rw [Live.ch_congr (Live.setDie_ch ..)]
      exact Live.setCh_ch_ne _ hk
    · rintro k rfl hk
      exact legReadback_bridge xs hk
    · rintro v rfl hv
      have hval : (s.live.readOut (.valve v) xs).valve' v = _ := Live.setValve_valve _ hv
      show ((s.live.readOut (.valve v) xs).valve' v).i = _ ∧ ((s.live.readOut (.valve v) xs).valve' v).phase = _
      rw [hval]
      exact ⟨rfl, rfl⟩
    · rintro b rfl hb
      have hbank : (s.live.readOut (.bank b) xs).bank b = _ := Live.setBank_bank _ hb
      show ((s.live.readOut (.bank b) xs).bank b).i = _ ∧ ((s.live.readOut (.bank b) xs).bank b).st = _
      rw [hbank]
      exact ⟨rfl, rfl⟩
    · rintro n rfl hn
      have hf : (s.live.readOut (.fio n) xs).fioCh n = _ := Live.setFio_fioCh _ hn
      show ((s.live.readOut (.fio n) xs).fioCh n).i = _ ∧ (((s.live.readOut (.fio n) xs).fioCh n).v : Int) = _ ∧
        ((s.live.readOut (.fio n) xs).fioCh n).sw = _
      rw [hf]
      exact ⟨rfl, clip_toNat _, rfl⟩
  · refine congrArg Host.Outcome.next (congrArg (fun l => { s with live := l }) ?_)
    have hdiff : cs.any (fun i => decide ((sumInt cs).natAbs < 4 * ((cs.length : Int) * i - sumInt cs).natAbs)) = true :=
      List.any_eq_true.mpr ⟨i, hi, decide_eq_true hd⟩
    unfold imbalanceCheck
    dsimp only
    rw [if_neg (by rw [hs, hl, bne_self_eq_false n, decide_eq_false hp]; decide), hb, hdiff, decide_eq_true ho, decide_eq_true hf]
    rfl
  · refine congrArg Host.Outcome.next (congrArg (fun l => { s with live := l }) ?_)
    have h250 : (bit (s.live.ch n).cfg.olMode 3 && decide (250 ≤ i)) = false := by
      cases h3 : bit (s.live.ch n).cfg.olMode 3
      · rfl
      · rw [decide_eq_false (Nat.not_le.mpr (hb h3))]
        rfl
    unfold openOnQualified
    dsimp only
    rw [if_neg (by rw [hm, hs, hl, bne_self_eq_false n, decide_eq_false (Nat.not_lt.mpr hf), ho, h250, decide_eq_true hi]; simp),
      h250, decide_eq_true hi]
    rfl
  · refine congrArg Host.Outcome.next (congrArg (fun l => { s with live := l }) ?_)
    unfold openOnQualified
    dsimp only
    rw [if_neg (by rw [hm, hs, hl, bne_self_eq_false n, decide_eq_false (Nat.not_lt.mpr hf), ho, decide_eq_true hi]; simp),
      decide_eq_false (Nat.not_lt.mpr (Nat.le_of_lt hi))]
    rfl
  · refine congrArg Host.Outcome.next (congrArg (fun l => { s with live := l }) ?_)
    have h250 : (bit (s.live.ch n).cfg.olMode 3 && decide (250 ≤ i)) = false := by
      cases h3 : bit (s.live.ch n).cfg.olMode 3
      · rfl
      · rw [decide_eq_false (Nat.not_le.mpr (hb h3))]
        rfl
    have hlt : ¬ i < (s.live.ch n).openThreshold n := by omega
    have hgt : ¬ (s.live.ch n).openThreshold n < i := by omega
    unfold openOnQualified
    dsimp only
    rw [if_pos]
    rw [h250, decide_eq_false hlt, decide_eq_false hgt]
    simp
  · refine congrArg Host.Outcome.next (congrArg (fun l => { s with live := l }) ?_)
    show loadOffTest n v0 v1 s.live = _
    unfold loadOffTest
    dsimp only
    rw [if_neg (by rw [hs, hst, hl, hr, bne_self_eq_false n, decide_eq_false hm, decide_eq_false (Nat.not_lt.mpr ht)]; decide), hx]
    exact Live.setCh_congr hn (by rw [hx]; rfl)
  · refine congrArg Host.Outcome.next (congrArg (fun l => { s with live := l }) ?_)
    show fioOffTest n v0 v1 s.live = _
    unfold fioOffTest
    dsimp only
    rw [if_neg (by rw [hm, hst, hl, hr, bne_self_eq_false n, decide_eq_false (Nat.not_lt.mpr ht)]; decide), hx]
    exact Live.setFio_congr hn (by rw [hx]; rfl)
  · rintro rfl rfl
    simp [afterTests]
  · intro ha hb
    simp [afterTests, ha, hb]
  · intro h
    by_cases ha : a = c <;> by_cases hb : b = c <;> simp_all [afterTests]
end

section
/-! Current limit, thermal latch, clamps and undervoltage of load channels. -/

namespace Sys2Proof.Machine

/-- Two updates of channels read back at the second one's channel. -/
theorem Live.setCh_setCh_ch {l : Live} {k n : Nat} (f g : LoadCh → LoadCh) (hn : n < l.load.ch.length) :
    ((l.setCh k f).setCh n g).ch n = g (if k = n then f (l.ch n) else l.ch n) := by
  rw [Live.setCh_ch _ (by rw [Live.setCh_length]; exact hn)]
  split
  next h => rw [h, Live.setCh_ch _ hn]
  next h => rw [Live.setCh_ch_ne _ (Ne.symm h)]

/-- A channel that conducts fully and regulates at ILIM from now on. -/
def Live.limited (l : Live) (k n i : Nat) (due : Bool) : Live :=
  ((l.changed (.load n)).setCh k fun c => { c with i := i }).setCh n fun c => { c with
    sw := .limit false, limitAt := l.mt.now, limitRaised := if due then some l.mt.now else c.limitRaised }

theorem currentLimit_limits {l : Live} {k i : Nat} (hs : (l.ch (l.ch k).lowest).sw = .on)
    (hi : 10 * (l.ch (l.ch k).lowest).cfg.ilim ≤ l.shareOf k i) : currentLimit k i l =
      let n := (l.ch k).lowest
      let due := !(l.ch n).limitRaised.any fun t => decide (l.mt.now < t + ms 1000)
      if due then (l.limited k n i due).loadEvent n 5 else l.limited k n i due := by
  unfold currentLimit
  dsimp only
  rw [hs, decide_eq_true hi, if_pos (by decide)]
  rfl

theorem Live.limited_ch {l : Live} {k n : Nat} (i : Nat) (due : Bool) (hn : n < l.load.ch.length) (hk : k < l.load.ch.length) :
    ((l.limited k n i due).ch n).sw = .limit false ∧ ((l.limited k n i due).ch n).limitAt = l.mt.now ∧
      ((l.limited k n i due).ch k).i = i := by
  have hat : (l.limited k n i due).ch n = _ := Live.setCh_setCh_ch (l := l.changed (.load n)) _ _ hn
  refine ⟨by rw [hat], by rw [hat], ?_⟩
  by_cases hkn : k = n
  · subst hkn
    rw [hat, if_pos rfl]
  · unfold Live.limited
    rw [Live.setCh_ch_ne _ hkn, Live.setCh_ch _ (by exact hk)]

/-- What the thermal latch makes of a channel, before any turn-off. -/
def Live.thermalHeld (l : Live) (k n : Nat) (tj : Int) : Live :=
  ((l.changed (.load n)).setCh k fun c => { c with tj := tj }).setCh n fun c => { c with
    tlatch := true, clampTl := c.sw == .clamp }

theorem Live.thermalHeld_ch {l : Live} {k n : Nat} (tj : Int) (hn : n < l.load.ch.length) :
    ((l.thermalHeld k n tj).ch n).sw = (l.ch n).sw ∧ ((l.thermalHeld k n tj).ch n).latch = (l.ch n).latch := by
  unfold Live.thermalHeld
  rw [Live.setCh_setCh_ch (l := l.changed (.load n)) _ _ hn]
  split <;> exact ⟨rfl, rfl⟩

theorem LoadCh.conducts_congr {c d : LoadCh} (h : c.sw = d.sw) : c.conducts = d.conducts := by
  rw [LoadCh.conducts, h, LoadCh.conducts]

theorem thermalLatch_sets {l : Live} {k : Nat} {tj : Int} (clamps : Bool) (ht : (l.ch (l.ch k).lowest).tlatch = false)
    (hj : 1700 ≤ tj) : thermalLatch k tj clamps l =
      let n := (l.ch k).lowest
      let h := l.thermalHeld k n tj
      if (h.ch n).conducts then h.faultOff n 7 clamps
      else if (h.ch n).latch && (h.ch n).latchCause == 10 && decide (h.mt.now ≤ (h.ch n).offAt + ms 1) then h.loadEvent n 7 else h := by
  have hlt : ¬ tj < 1700 := by omega
  exact if_neg (by rw [ht, decide_eq_false hlt]; decide)

/-- The group of channels that release a thermal latch, after one of them has a new temperature. -/
theorem Live.groupOf_setTj (l : Live) (k n : Nat) (tj : Int) :
    (l.setCh k fun c => { c with tj := tj }).groupOf n = l.groupOf n := by
  have hm : ((l.setCh k fun c => { c with tj := tj }).ch n).members = (l.ch n).members := by
    by_cases hkn : n = k
    · subst hkn
      by_cases hl : n < l.load.ch.length
      · rw [Live.setCh_ch _ hl]
        rfl
      · simp [Live.setCh, Live.ch, upd, List.getD_eq_getElem?_getD, hl]
    · rw [Live.setCh_ch_ne _ hkn]
  unfold Live.groupOf
  rw [hm]

theorem thermalRelease_cools {l : Live} {k : Nat} {tj : Int} (ht : (l.ch (l.ch k).lowest).tlatch = true)
    (hj : tj < (min 1500 (l.ch (l.ch k).lowest).trs : Nat)) : thermalRelease k tj l =
      let n := (l.ch k).lowest
      let h := l.setCh k fun c => { c with tj := tj }
      if (l.groupOf n).all fun j => decide ((h.ch j).tj < (min 1500 (l.ch n).trs : Nat))
      then (h.changed (.load n)).setCh n fun c => { c with tlatch := false } else h := by
  dsimp only
  rw [← Live.groupOf_setTj l k (l.ch k).lowest tj]
  exact if_pos (by rw [ht, decide_eq_true hj]; rfl)

/-- The clamp that ends, with its energy noted. -/
def Live.clampNoted (l : Live) (n e : Nat) : Live :=
  l.setCh n fun c => { c with
    clamps := (c.clamps.filter fun x => decide (l.mt.now < x.1 + ms 60000)) ++ [(l.mt.now, e)],
    clampHot := c.clampHot && decide (c.clampLimit n * 8 ≤ c.clampSum l.mt.now * 10) }

theorem Live.clampNoted_ch {l : Live} {n : Nat} (e : Nat) (hn : n < l.load.ch.length) :
    ((l.clampNoted n e).ch n).latch = (l.ch n).latch := by
  unfold Live.clampNoted
  rw [Live.setCh_ch _ hn]

theorem clampEnd_tooMuch {l : Live} {k e t : Nat} (hs : (l.ch (l.ch k).lowest).sw = .clamp)
    (h : (l.ch (l.ch k).lowest).clampMax < e ∨ ((l.ch (l.ch k).lowest).clampFree = true ∧ us 10 < t)) :
    clampEnd k e t l =
      let n := (l.ch k).lowest
      (((((l.clampNoted n e).changed (.load n)).setCh n fun c => { c with
        sw := .off, clampCause := none, clampTl := false, offAt := l.mt.now, duty := 0, latch := true, latchCause := 12,
        fpend := false, rdelay := none, uvOff := false, rampEnd := none }).loadEvent n 12).loadEvent n 9) := by
  have hpw : ((l.ch (l.ch k).lowest).sw == .on && (l.ch (l.ch k).lowest).pulsed) = false := by
    rw [hs]
    rfl
  have htm : (decide ((l.ch (l.ch k).lowest).clampMax < e) || ((l.ch (l.ch k).lowest).clampFree && decide (us 10 < t))) = true := by
    rcases h with h | ⟨h, ht⟩
    · rw [decide_eq_true h, Bool.true_or]
    · rw [h, decide_eq_true ht, Bool.and_true, Bool.or_true]
  unfold clampEnd
  dsimp only
  rw [hpw, if_neg (by rw [hs]; decide), if_neg Bool.false_ne_true, if_neg Bool.false_ne_true, if_pos htm]
  rfl

theorem clampEnd_within {l : Live} {k e t : Nat} (hs : (l.ch (l.ch k).lowest).sw = .clamp)
    (he : e ≤ (l.ch (l.ch k).lowest).clampMax) (hf : (l.ch (l.ch k).lowest).clampFree = true → t ≤ us 10)
    (ht : (l.ch (l.ch k).lowest).clampTl = false) :
    clampEnd k e t l =
      let n := (l.ch k).lowest
      let h := ((l.clampNoted n e).changed (.load n)).setCh n fun c => { c with sw := .off, clampCause := none, offAt := l.mt.now }
      if (l.ch n).clampCause.isNone then h.loadEvent n 1 else h := by
  have hpw : ((l.ch (l.ch k).lowest).sw == .on && (l.ch (l.ch k).lowest).pulsed) = false := by
    rw [hs]
    rfl
  have htm : (decide ((l.ch (l.ch k).lowest).clampMax < e) || ((l.ch (l.ch k).lowest).clampFree && decide (us 10 < t))) = false := by
    rw [decide_eq_false (Nat.not_lt.mpr he)]
    cases hc : (l.ch (l.ch k).lowest).clampFree
    · rfl
    · rw [decide_eq_false (Nat.not_lt.mpr (hf hc))]
      rfl
  unfold clampEnd
  dsimp only
  rw [hpw, if_neg (by rw [hs]; decide), if_neg Bool.false_ne_true, if_neg Bool.false_ne_true,
    if_neg (by rw [htm]; decide), if_neg Bool.false_ne_true, if_neg (by rw [ht]; decide)]
  rfl

/-- The end of an undervoltage takes the group's voltage and leaves the host. -/
theorem uvRecover_recovers {l : Live} {g mv t : Nat} (hmv : 7500 < mv) (ht : ms 2 ≤ t) (hu : l.pwr.uv.getD g false = true) :
    (uvRecover g mv t l).pwr = { l.pwr with
      uv := l.pwr.uv.set g false, vbat := l.pwr.vbat.set g mv, present := l.pwr.present.set g true } ∧
    (uvRecover g mv t l).host = l.host := by
  unfold uvRecover
  rw [if_neg (by rw [hu, decide_eq_false (Nat.not_le.mpr hmv), decide_eq_false (Nat.not_lt.mpr ht)]; decide)]
  extract_lets _ l1
  refine ⟨(foldl_keeps Live.pwr (fun l n => ?_) _ l1).trans rfl, (foldl_keeps Live.host (fun l n => ?_) _ l1).trans rfl⟩
  · dsimp only
    split <;> rfl
  · dsimp only
    split <;> rfl

end Sys2Proof.Machine

open Sys2Proof Sys2Proof.Machine

/-- Settles O24: each row's guard, and what its branch makes of the channel that it names. -/
theorem loadProtection : Obligations.LoadProtection := by
  refine ⟨fun k i s hn hk hs hi => ?_, fun k i f ramp s hs hi hf => ?_, fun k ramp clamps s hs ht => ?_, fun k i clamps s hc hi => ?_,
    fun k clamps s hs ht => ?_, fun k tj clamps s hn ht hj => ⟨fun hc => ?_, fun hc hl => ?_⟩,
    fun n tj s hl hm hn ht hj => ?_, fun k tj s hn hk ht hj ⟨j, hjg, hjk, hjt⟩ => ?_,
    fun k e t s hn hs => ⟨fun h => ?_, fun he hf ht => ?_⟩, fun k s hh hc => ?_, fun g mv cl s hmv hu => ?_,
    fun g mv t s hmv ht hu hg hv => ?_⟩
  · refine ⟨s.onLive (currentLimit k i), rfl, rfl, ?_⟩
    rw [State.onLive_live, currentLimit_limits hs hi]
    dsimp only
    generalize hd : (!(s.live.ch (s.live.ch k).lowest).limitRaised.any fun t => decide (s.live.mt.now < t + ms 1000)) = due
    obtain ⟨hsw, hat, hik⟩ := Live.limited_ch i due hn hk
    have hch (h : Live) (n j : Nat) : (if due then h.loadEvent n 5 else h).ch j = h.ch j := by
      split
      · exact Live.ch_congr (Live.loadEvent_ch ..) j
      · rfl
    have hpl (h : Live) (n : Nat) : (if due then h.loadEvent n 5 else h).plan = h.plan := by
      split
      · exact Live.loadEvent_plan ..
      · rfl
    rw [hch, hch, hpl]
    refine ⟨hsw, hat, hik, rfl, fun r hr hlt => ?_⟩
    rw [any_of_some hr (decide_eq_true hlt)] at hd
    rw [← hd]
    rfl
  · refine congrArg Host.Outcome.next (congrArg (fun l => { s with live := l }) ?_)
    unfold limitRelease
    dsimp only
    rw [hs]
    exact if_pos (by rw [decide_eq_true hi, decide_eq_true hf]; rfl)
  · refine congrArg Host.Outcome.next (congrArg (fun l => { s with live := l }) ?_)
    unfold limitMaxExpiry
    dsimp only
    rw [hs]
    exact if_pos ht
  · refine congrArg Host.Outcome.next (congrArg (fun l => { s with live := l }) ?_)
    exact if_pos (by rw [hc, decide_eq_true hi]; rfl)
  · refine congrArg Host.Outcome.next (congrArg (fun l => { s with live := l }) ?_)
    refine if_pos ?_
    rw [decide_eq_true ht]
    rcases hs with hs | hs <;> rw [hs] <;> rfl
  · refine congrArg Host.Outcome.next (congrArg (fun l => { s with live := l }) ?_)
    rw [thermalLatch_sets clamps ht hj]
    exact if_pos ((LoadCh.conducts_congr (Live.thermalHeld_ch tj hn).1).trans hc)
  · refine congrArg Host.Outcome.next (congrArg (fun l => { s with live := l }) ?_)
    rw [thermalLatch_sets clamps ht hj]
    exact (if_neg (by rw [LoadCh.conducts_congr (Live.thermalHeld_ch tj hn).1, hc]; decide)).trans
      (if_neg (by rw [(Live.thermalHeld_ch tj hn).2, hl, Bool.false_and, Bool.false_and]; decide))
  · refine ⟨s.onLive (thermalRelease n tj), rfl, rfl, ?_⟩
    have hg : s.live.groupOf n = [n] := by
      unfold Live.groupOf
      rw [hm]
      rfl
    rw [State.onLive_live, thermalRelease_cools (by rw [hl]; exact ht) (by rw [hl]; exact hj)]
    dsimp only
    rw [hl, hg, if_pos (by simpa [Live.setCh_ch _ hn] using hj),
      Live.setCh_ch (l := (s.live.setCh n _).changed _) _ (by exact (Live.setCh_length ..).symm ▸ hn),
      Live.ch_congr (Live.changed_ch ..), Live.setCh_ch _ hn]
    exact ⟨rfl, rfl, rfl, rfl⟩
  · refine congrArg Host.Outcome.next (congrArg (fun l => { s with live := l }) ?_)
    rw [thermalRelease_cools ht hj]
    refine if_neg fun ha => ?_
    have hlt := of_decide_eq_true (List.all_eq_true.mp ha j hjg)
    rw [Live.setCh_ch_ne _ hjk] at hlt
    omega
  · refine ⟨s.onLive (clampEnd k e t), rfl, rfl, ?_⟩
    rw [State.onLive_live, clampEnd_tooMuch hs h]
    dsimp only
    rw [Live.ch_congr (Live.loadEvent_ch ..), Live.ch_congr (Live.loadEvent_ch ..),
      Live.setCh_ch (l := (s.live.clampNoted _ e).changed _) _ (by exact (Live.setCh_length ..).symm ▸ hn)]
    exact ⟨rfl, rfl, rfl⟩
  · refine ⟨s.onLive (clampEnd k e t), rfl, rfl, ?_⟩
    have hkeep (c : Bool) (n : Nat) (h : Live) : (if c then h.loadEvent n 1 else h).ch n = h.ch n := by
      cases c
      · rfl
      · exact Live.ch_congr (Live.loadEvent_ch ..) n
    rw [State.onLive_live, clampEnd_within hs he hf ht]
    dsimp only
    rw [hkeep, Live.setCh_ch (l := (s.live.clampNoted _ e).changed _) _ (by exact (Live.setCh_length ..).symm ▸ hn)]
    exact ⟨rfl, Live.clampNoted_ch e hn, rfl⟩
  · refine congrArg Host.Outcome.next (congrArg (fun l => { s with live := l }) ?_)
    exact if_neg (by rw [hh, Bool.or_false]; exact fun h => absurd (of_decide_eq_true h) (Nat.not_le.mpr hc))
  · refine congrArg Host.Outcome.next (congrArg (fun l => { s with live := l }) ?_)
    exact if_neg (by rw [hu, decide_eq_false (Nat.not_le.mpr hmv)]; decide)
  · obtain ⟨hp, hh⟩ := uvRecover_recovers hmv ht hu
    refine ⟨s.onLive (uvRecover g mv t), rfl, rfl, ?_, ?_, hh⟩
    · exact congrArg PwrState.uv hp
    · exact congrArg PwrState.vbat hp
end

section
/-! Retries after a fault, and what a die does in orphan mode. -/

namespace Sys2Proof.Machine

/-! ### The mark that the outputs of a die have gone off for orphan mode -/

/-- A die has turned its outputs off after ORPHAN_OFF_S. -/
def Live.offDone (l : Live) (d : Nat) : Bool := (l.die d).offDone

/-- A change of a die that leaves its mark leaves all marks. -/
theorem Live.setDie_offDone (l : Live) (e d : Nat) {f : DieState → DieState} (hf : ∀ x, (f x).offDone = x.offDone) :
    (l.setDie e f).offDone d = l.offDone d := by
  unfold Live.offDone Live.die Live.setDie
  by_cases h : e = d
  · subst h
    by_cases hl : e < l.load.dies.length
    · exact (congrArg DieState.offDone (upd_getD f _ hl)).trans (hf _)
    · simp [upd, List.getD_eq_getElem?_getD, hl]
  · exact congrArg DieState.offDone (upd_getD_ne f _ (Ne.symm h))

theorem Live.offDone_congr {l l' : Live} (h : l'.load.dies = l.load.dies) (d : Nat) : l'.offDone d = l.offDone d := by
  rw [Live.offDone, Live.die, h, Live.offDone, Live.die]

theorem Live.dieRaise_offDone (l : Live) (e id sev c : Nat) (p : List Byte) (d : Nat) :
    (l.dieRaise e id sev c p).offDone d = l.offDone d := by
  unfold Live.dieRaise Live.dieRaiseAt
  split
  · exact Live.setDie_offDone _ _ _ fun _ => rfl
  · exact Live.offDone_congr (by rw [Live.raiseAt_load]) d

theorem Live.changed_offDone (l : Live) (src : Source) (d : Nat) : (l.changed src).offDone d = l.offDone d :=
  Live.setDie_offDone l _ d fun _ => rfl

theorem Live.loadOffCommanded_offDone (l : Live) (n : Nat) (cl : Bool) (d : Nat) :
    (l.loadOffCommanded n cl).offDone d = l.offDone d := by
  have hoff : ((l.loadOff n cl none).dropSlot (.load n)).offDone d = l.offDone d :=
    (Live.offDone_congr (l := l.loadOff n cl none) (by rw [Live.dropSlot_load]) d).trans (Live.changed_offDone l (.load n) d)
  unfold Live.loadOffCommanded
  dsimp only
  split
  · exact hoff
  · refine Eq.trans ?_ hoff
    unfold Live.loadEvent
    split
    · rfl
    · exact Live.dieRaise_offDone ..

theorem Live.cancelHeld_offDone (l : Live) (n d : Nat) : (l.cancelHeld n).offDone d = l.offDone d :=
  Live.offDone_congr (l' := (l.dropEdges (.load n) fun w => !w.commanded).dropSlot (.load n))
    (by rw [Live.dropSlot_load, Live.dropEdges_load]) d

theorem Live.bridgeStops_offDone (l : Live) (k : Nat) (st : BrState) (d : Nat) : (l.bridgeStops k st).offDone d = l.offDone d :=
  (Live.offDone_congr (l := l.changed (.leg k)) (l' := (l.changed (.leg k)).dropSlot (.leg k)) (by rw [Live.dropSlot_load]) d).trans
    (Live.changed_offDone l (.leg k) d)

theorem Live.fioEdge_offDone (l : Live) (n : Nat) (on : Bool) (d : Nat) : (l.fioEdge n on).offDone d = l.offDone d := by
  unfold Live.fioEdge
  split <;> exact (Live.dieRaise_offDone ..).trans (Live.setDie_offDone l _ d fun _ => rfl)

theorem Live.fioAllOff_offDone (l : Live) (d : Nat) : l.fioAllOff.offDone d = l.offDone d := by
  refine foldl_keeps (fun l => l.offDone d) (fun l n => ?_) _ l
  dsimp only
  split
  · exact l.fioEdge_offDone n false d
  · split <;> rfl

/-- After ORPHAN_OFF_S the outputs of the die have gone off. -/
theorem orphanOffExpiry_offDone {l : Live} {d : Nat} (cl : List Nat) (ho : (l.die d).orphan = true) (hd : (l.die d).offDone = false)
    (hs : (l.die d).offS ≠ 0) (ht : (l.die d).orphanAt + ms (1000 * (l.die d).offS) ≤ l.mt.now) (hl : d < l.load.dies.length) :
    (orphanOffExpiry d cl l).offDone d = true := by
  have hmark : (l.setDie d fun x => { x with offDone := true }).offDone d = true :=
    congrArg DieState.offDone (Live.setDie_die (fun x => { x with offDone := true }) hl)
  unfold orphanOffExpiry
  dsimp only
  rw [if_neg (by rw [ho, decide_eq_false hs, decide_eq_false (Nat.not_lt.mpr ht)]; decide), if_neg (by rw [hd]; decide)]
  refine Eq.trans ?_ hmark
  have hload : ∀ l : Live, ((List.range 24).foldl (fun l i =>
      if (l.ch (24 * d + i)).lowest != 24 * d + i then l
      else if (l.ch (24 * d + i)).conducts
      then (l.setCh (24 * d + i) fun c => { c with cmd := .off }).loadOffCommanded (24 * d + i) (cl.contains (24 * d + i))
      else l.cancelHeld (24 * d + i)) l).offDone d = l.offDone d := by
    refine foldl_keeps (fun l => l.offDone d) (fun l i => ?_) _
    split
    · rfl
    · split
      · exact (Live.loadOffCommanded_offDone ..).trans rfl
      · exact Live.cancelHeld_offDone ..
  have hbr : ∀ l : Live, ((List.range 8).foldl (fun l k => if sourceDie (.leg k) = d && (l.bridge k).runs
      then (l.bridgeStops k .brake).setBr k fun b => { b with action := 1 } else l) l).offDone d = l.offDone d := by
    refine foldl_keeps (fun l => l.offDone d) (fun l k => ?_) _
    split
    · exact (Live.bridgeStops_offDone l k .brake d :)
    · rfl
  split
  · exact (Live.fioAllOff_offDone ..).trans ((hbr _).trans (hload _))
  · exact (hbr _).trans (hload _)

/-! ### Retries -/

theorem none_src {l : Live} {src : Source} (h : ∀ e ∈ l.plan.edges, e.work.src ≠ src) :
    l.plan.edges.any (fun e => e.work.src == src) = false := by
  simpa using h

/-- A load channel's restart that nothing holds is asked for. -/
theorem loadRestartRequest_asks {l : Live} {n : Nat} (hr : (l.ch n).restartDue = true)
    (hh : l.sagDefers = false ∧ l.shedDelays = false ∨ l.urgent (l.ch n).cfg.prio = true ∨ (l.ch n).restartWork n = .uvRestart n)
    (ho : (l.die (n / 24)).orphan = false) (hd : l.dieLost (n / 24) = false)
    (hs : (l.die (n / 24)).stale = false ∨ (l.ch n).restartWork n = .uvRestart n) (hl : (l.ch n).lowest = n)
    (he : ∀ e ∈ l.plan.edges, e.work.src ≠ .load n) :
    loadRestartRequest n l = l.sendEdge ((l.ch n).restartWork n) (l.ch n).cfg.prio (l.ch n).cfg.latUs none := by
  have hheld : ((l.sagDefers || l.shedDelays) && !l.urgent (l.ch n).cfg.prio && (l.ch n).restartWork n != .uvRestart n) = false := by
    rcases hh with ⟨h1, h2⟩ | h | h
    · rw [h1, h2]
      rfl
    · rw [h, Bool.not_true, Bool.and_false, Bool.false_and]
    · rw [h, bne_self_eq_false, Bool.and_false]
  have hstale : ((l.die (n / 24)).stale && (l.ch n).restartWork n != .uvRestart n) = false := by
    rcases hs with h | h
    · rw [h, Bool.false_and]
    · rw [h, bne_self_eq_false, Bool.and_false]
  unfold loadRestartRequest
  dsimp only
  rw [sourceDie_load, hr, hheld, ho, hd, hstale, bne_eq_false_iff_eq.mpr hl, none_src he]
  exact if_neg (by decide)

/-- A field output's restart that nothing holds is asked for. -/
theorem fioRestartRequest_asks {l : Live} {n : Nat} (hr : (l.fioCh n).restartDue = true) (hg : l.sagDefers = false)
    (hh : l.shedDelays = false) (ho : (l.die 0).orphan = false) (hd : l.dieLost 0 = false) (hs : (l.die 0).stale = false)
    (hl : (l.fioCh n).lowest = n) (he : ∀ e ∈ l.plan.edges, e.work.src ≠ .fio n) :
    fioRestartRequest n l = l.sendEdge (.fioRestart n)
      (if (l.fioCh n).uvOff = true ∧ (l.fioCh n).fpend = false then 0 else (l.fioCh n).cfg.prio) (l.fioCh n).cfg.latUs none := by
  unfold fioRestartRequest
  dsimp only
  rw [hr, hg, hh, ho, hd, hs, bne_eq_false_iff_eq.mpr hl, none_src he, if_neg (by simp)]
  cases (l.fioCh n).uvOff <;> cases (l.fioCh n).fpend <;> rfl

/-! ### The wire backstop -/

/-- The margin that is left of a wire in orphan mode. -/
def LoadCh.marginAfter (c : LoadCh) (i dt : Nat) : Int :=
  c.qMargin - ((i : Int) * i * dt / 10000000 - (100 * c.iSafe * c.iSafe : Nat) * (dt : Int) / 10000000)

theorem wireBackstop_counts {l : Live} {k i dt : Nat} (clamps : Bool) (ho : (l.die ((l.ch k).lowest / 24)).orphan = true)
    (hc : (l.ch (l.ch k).lowest).conducts = true) (hi : 10 * (l.ch (l.ch k).lowest).iSafe < i) :
    wireBackstop k i dt clamps l =
      let n := (l.ch k).lowest
      let c := l.ch n
      let h := l.setCh n fun x => { x with
        qMargin := c.marginAfter i dt, i2 := x.i2 + (i : Int) * i * dt / 10000000, i := i }
      if c.iSafe ≠ 0xFFFF ∧ c.marginAfter i dt ≤ 0 then (h.loadOff n clamps (some 10)).latchCh n 10 else h := by
  unfold wireBackstop
  dsimp only
  rw [sourceDie_load, if_neg (by rw [ho]; decide), hc, decide_eq_true hi]
  simp only [Bool.and_self, if_true, Bool.true_and, Bool.and_eq_true, bne_iff_ne, decide_eq_true_eq]
  rfl

end Sys2Proof.Machine

open Sys2Proof Sys2Proof.Machine

/-- Settles O25: each retry row by what is due; in orphan mode the mark of ORPHAN_OFF_S stands through every turn-off. -/
theorem retriesAndOrphans : Obligations.RetriesAndOrphans := by
  refine ⟨fun n t s ht => ⟨fun h => ?_, fun h => ?_, rfl⟩,
    fun n s => ⟨fun hr hh ho hd hs hl he => ?_, fun hr hg hh ho hd hs hl he => ?_, rfl⟩,
    fun c n => ⟨fun h => if_pos h, fun h hu => ?_, fun h hu => ?_⟩, fun n s => ⟨fun h => ?_, fun h => ?_, rfl⟩,
    fun d s hm h => ?_, fun l d h => if_pos h, fun g n s ho => ⟨fun hf => ?_, fun hf hg hn => ?_⟩,
    fun k i dt clamps s hn ho hc hi => ⟨fun hs hq => ?_, fun hq => ?_⟩, fun d cl s ho hd hs ht hl => ?_⟩
  · exact congrArg Host.Outcome.next (congrArg (fun l => { s with live := l }) (if_pos (any_of_some h (decide_eq_true ht))))
  · exact congrArg Host.Outcome.next (congrArg (fun l => { s with live := l }) (if_pos (any_of_some h (decide_eq_true ht))))
  · exact congrArg Host.Outcome.next
      (congrArg (fun l => { s with live := l }) (loadRestartRequest_asks hr hh ho hd hs hl he))
  · exact congrArg Host.Outcome.next
      (congrArg (fun l => { s with live := l }) (fioRestartRequest_asks hr hg hh ho hd hs hl he))
  · exact (if_neg (by rw [h]; decide)).trans (if_pos hu)
  · exact (if_neg (by rw [h]; decide)).trans (if_neg (by rw [hu]; decide))
  · exact congrArg Host.Outcome.next (congrArg (fun l => { s with live := l }) (if_pos h))
  · exact congrArg Host.Outcome.next (congrArg (fun l => { s with live := l }) (if_pos h))
  · refine congrArg Host.Outcome.next (congrArg (fun l => { s with live := l }) ?_)
    refine (if_neg (by simpa using hm)).trans (if_pos ?_)
    rcases h with h | h
    · rw [h, Bool.true_or]
    · rw [decide_eq_true h, Bool.or_true]
  · refine congrArg Host.Outcome.next (congrArg (fun l => { s with live := l }) ?_)
    show orphanTurnOn g s.live = _
    unfold orphanTurnOn loadOrphanTurnOn
    rw [if_neg (by rw [ho]; decide), hf]
  · refine congrArg Host.Outcome.next (congrArg (fun l => { s with live := l }) ?_)
    show orphanTurnOn g s.live = _
    unfold orphanTurnOn loadOrphanTurnOn
    rw [if_neg (by rw [ho]; decide), hf]
    dsimp only
    rw [if_pos hg, hn]
  · refine ⟨s.onLive (wireBackstop k i dt clamps), rfl, rfl, ?_⟩
    have hm : (s.live.ch (s.live.ch k).lowest).marginAfter i dt ≤ 0 := Int.sub_nonpos_of_le hq
    rw [State.onLive_live, wireBackstop_counts clamps ho hc hi]
    dsimp only
    rw [if_pos ⟨hs, hm⟩, Live.latchCh_ch _ (by rw [Live.loadOff_length, Live.setCh_length]; exact hn),
      Live.loadOff_ch _ _ (by rw [Live.setCh_length]; exact hn)]
    exact ⟨rfl, rfl, rfl⟩
  · refine congrArg Host.Outcome.next (congrArg (fun l => { s with live := l }) ?_)
    have hm : ¬ (s.live.ch (s.live.ch k).lowest).marginAfter i dt ≤ 0 := Int.not_le.mpr (Int.sub_pos_of_lt hq)
    refine (wireBackstop_counts clamps ho hc hi).trans ((if_neg fun h => hm h.2).trans ?_)
    exact Live.setCh_congr hn rfl
  · exact ⟨s.onLive (orphanOffExpiry (dieIndex d) cl), rfl, rfl, orphanOffExpiry_offDone cl ho hd hs ht hl⟩
end

section
/-! The BRIDGE commands with legal fields, what a drive does, and the events of the bridges. -/

namespace Sys2Proof.Machine

/-! ### Reading a bridge after an update -/

@[simp] theorem Live.setBr_length (l : Live) (k : Nat) (f : Bridge → Bridge) :
    (l.setBr k f).load.br.length = l.load.br.length := List.length_modify ..

theorem Live.setBr_congr {l : Live} {k : Nat} {f g : Bridge → Bridge} (hk : k < l.load.br.length)
    (h : f (l.bridge k) = g (l.bridge k)) : l.setBr k f = l.setBr k g :=
  congrArg (fun bs => { l with load := { l.load with br := bs } }) (upd_congr hk h)

/-- Only a bridge that there is waits for its voltage. -/
theorem Live.lt_of_uvWait {l : Live} {k : Nat} (h : (l.bridge k).st = .uvWait) : k < l.load.br.length := by
  by_contra hk
  rw [Live.bridge, List.getD_eq_default _ _ (Nat.not_lt.mp hk)] at h
  cases h

/-- A field that an update keeps reads as before, wherever the update goes. -/
theorem Live.setBr_field {β : Type} (g : Bridge → β) (l : Live) (k j : Nat) {f : Bridge → Bridge} (hf : ∀ b, g (f b) = g b) :
    g ((l.setBr k f).bridge j) = g (l.bridge j) := by
  by_cases hj : j = k
  · subst hj
    by_cases hk : j < l.load.br.length
    · rw [Live.setBr_bridge _ hk, hf]
    · simp [Live.bridge, Live.setBr, upd, List.getD_eq_getElem?_getD, hk]
  · rw [Live.setBr_bridge_ne _ hj]

/-! ### BRIDGE.CONFIG and BRIDGE.DRIVE -/

theorem Live.applyBridgeCfg_brc {l : Live} {k : Nat} (c : BridgeCfg) (hk : k / 2 < l.load.brCfg.length) :
    (l.applyBridgeCfg k c).brc k = c := by
  have hset : (l.load.brCfg.set (k / 2) c).getD (k / 2) BridgeCfg.default = c := by
    simp [List.getD_eq_getElem?_getD, hk]
  unfold Live.applyBridgeCfg
  dsimp only
  split
  · exact hset
  · split <;> exact hset

theorem Live.applyBridgeCfg_br {l : Live} {k : Nat} {c : BridgeCfg} (h : (l.brc k).half = c.half) :
    (l.applyBridgeCfg k c).load.br = l.load.br := by
  unfold Live.applyBridgeCfg
  dsimp only
  rw [if_pos (beq_iff_eq.mpr h)]

section
variable {m : MbRef} {b : Mailbox} {l : Live}

/-- The fields of BRIDGE.DRIVE are legal. -/
def Live.driveLegal (l : Live) (p : List Byte) : Prop :=
  byteAt p 0 ≤ 7 ∧ ((l.brc (byteAt p 0)).half = true ∨ byteAt p 0 % 2 = 0) ∧ byteAt p 1 ≤ 4 ∧
    ((l.brc (byteAt p 0)).half = true → byteAt p 1 ≠ 2 ∧ byteAt p 1 ≠ 3) ∧ ((l.brc (byteAt p 0)).half = false → byteAt p 1 ≠ 4) ∧
    (rd p 4 2 ≤ 5000 ∨ rd p 4 2 = 0xFFFF)

/-- A legal drive of a bridge on a die that is reached, outside DRAIN. -/
theorem bridgeDrive_legal (hf : l.driveLegal b.payload) (hr : (resv b 6 2).2 = true)
    (hd : l.dieLost (sourceDie (.leg (byteAt b.payload 0))) = false) (hm : l.pwr.mode ≠ .drain) :
    bridgeDrive m b l =
      let p := b.payload
      let k := byteAt p 0
      let a := byteAt p 1
      let d := rd p 2 2
      let ovr := rd p 4 2
      let starts := decide (2 ≤ a) && !(l.bridge k).runs
      if (l.bridge k).st = .latched ∨ (l.bridge k).st = .thermalOff then (refuse .state, l)
      else if (starts && l.pwr.overvolt) = true then (refuse .state, l)
      else if (starts && (l.die (sourceDie (.leg k))).stale) = true then (refuse .budget, l)
      else if b.staged then
        let r := l.bridgeReserve k a
        if 256 ≤ l.host.staged.length then (refuse .busy 1, l)
        else if (!l.reserveFits (.leg k) r.1 r.2 || !l.driveFits k a d) = true then (refuse .budget, l)
        else (okReply, l.stage b.seq (.bridge k a d (l.rampOf k ovr)) (sourceGroup (.leg k)) r.1 r.2)
      else if ((l.bridge k).st == .uvWait || (decide (2 ≤ a) && l.isDropped (.leg k))) = true then
        (refuse .pending, l.setBr k fun x => { x with action := a, target := d, ramp := l.rampOf k ovr })
      else
        (((l.withdraw (.leg k)).forgetDropped (.leg k)).sendEdge (.bridge k a d (l.rampOf k ovr)) (l.brc k).prio (l.brc k).latUs
          (some (m, 0))).openEntries m .none [none] := by
  obtain ⟨h0, hp, ha, hhalf, hfull, ho⟩ := hf
  have hdr : l.draining = false := beq_eq_false_iff_ne.mpr hm
  unfold bridgeDrive
  dsimp only
  rw [checked_pass, if_neg (by rw [hd]; decide), hdr]
  · simp only [Bool.false_or, Bool.or_eq_true, beq_iff_eq]
  · rw [List.all_cons, List.all_cons, List.all_cons, List.all_cons, hr]
    refine Bool.and_eq_true_iff.mpr ⟨by simpa [h0] using hp, Bool.and_eq_true_iff.mpr ⟨?_, Bool.and_eq_true_iff.mpr ⟨by simpa using ho, rfl⟩⟩⟩
    cases hh : (l.brc (byteAt b.payload 0)).half
    · simpa [ha] using hfull hh
    · simpa [ha] using hhalf hh

end

/-- A drive that starts no motor, or whose start nothing is against. -/
theorem not_starting {a : Nat} {r x : Bool} (h : a < 2 ∨ r = true ∨ x = false) : ¬ ((decide (2 ≤ a) && !r && x) = true) := by
  rcases h with h | h | h
  · simp [Nat.not_le.mpr h]
  · simp [h]
  · simp [h]

theorem Bridge.runs_of_idle {b : Bridge} (h : b.st = .float ∨ b.st = .brake) : b.runs = false := by
  unfold Bridge.runs
  rcases h with h | h <;> rw [h]

/-! ### What a drive does to a bridge -/

theorem Bridge.drive_refused {b : Bridge} (h : b.st = .latched ∨ b.st = .thermalOff) (now a d r : Nat) :
    b.drive now a d r = (.state, b) := by
  unfold Bridge.drive
  rcases h with h | h <;> rw [h]

theorem Bridge.drive_starts {b : Bridge} (h : b.st = .float ∨ b.st = .brake) {a : Nat} (ha : 2 ≤ a) (now d r : Nat) :
    b.drive now a d r = (.ok, ({ b with action := a, target := d, ramp := r, st := actionState a, dirStep := 0 }).rampTo now 0 d r) := by
  have hr := Bridge.runs_of_idle h
  unfold Bridge.drive
  dsimp only
  rw [hr]
  rcases h with h | h <;> rw [h] <;> exact (if_neg (Nat.not_lt.mpr ha)).trans rfl

theorem Bridge.drive_stops {b : Bridge} (h : b.st = .forward ∨ b.st = .reverse ∨ b.st = .level ∨ b.st = .reversing) {a : Nat}
    (ha : a < 2) (now d r : Nat) : b.drive now a d r =
      (.ok, ({ b with action := a, target := d, ramp := r, st := actionState a, dirStep := 0 }).rampTo now 0 0 0) := by
  unfold Bridge.drive
  dsimp only
  rcases h with h | h | h | h <;> rw [h] <;> exact if_pos ha

end Sys2Proof.Machine

open Sys2Proof Sys2Proof.Machine

/-- Settles O26: each command's body with its checks passed, and a drive by the present state of its bridge. -/
theorem bridgeCommands : Obligations.BridgeCommands := by
  refine ⟨fun m b s h hf hd hm hi hj => ?_, fun l k c hk => ⟨Live.applyBridgeCfg_brc c hk, Live.applyBridgeCfg_br⟩,
    fun m b s h h0 hp ha hhalf hfull ho hr hd hm => ?_, fun m b s h hk => ?_, fun m b s h hk hd => ⟨fun hs => ?_, fun hs => ?_⟩,
    fun b now a d r => ⟨fun h => Bridge.drive_refused h _ _ _ _, fun h ha => ?_, fun h ha => ?_, fun h ha => ?_, fun h ha => ?_⟩⟩
  · refine congrArg Host.Outcome.next ((State.command_ends h _).trans (congrArg (s.ends m) ?_))
    obtain ⟨h0, h0', h1, h2, h3, h4, h6, h6', h8, h9, h10, h12, h14, h16, h17, h18⟩ := hf
    unfold bridgeConfig
    dsimp only
    rw [checked_pass (by simp [h0, h0', h1, h2, h3, h4, h6, h6', h8, h9, h10, h12, h14, h16, h17, h18]),
      if_neg (by rw [hd]; decide), if_neg (by rw [hi, hj, Live.draining, beq_eq_false_iff_ne.mpr hm]; decide)]
  · have hbody := bridgeDrive_legal (m := m) ⟨h0, hp, ha, hhalf, hfull, ho⟩ hr hd hm
    refine ⟨fun hs => ?_, fun hs h2 hv => ?_, fun hs h2 hv hst => ?_,
      fun hl ht hgo => ⟨fun hb hq hfit hres => ?_, fun hb hw => ?_, fun hb hw hdr => ?_⟩⟩
    · refine congrArg Host.Outcome.next (State.command_answer h (hbody.trans ?_))
      exact if_pos hs
    · refine congrArg Host.Outcome.next (State.command_answer h (hbody.trans ?_))
      refine (if_neg ?_).trans (if_pos ?_)
      · rcases hs with hs | hs <;> rw [hs] <;> decide
      · rw [decide_eq_true h2, Bridge.runs_of_idle hs, hv]
        rfl
    · refine congrArg Host.Outcome.next (State.command_answer h (hbody.trans ?_))
      refine (if_neg ?_).trans ((if_neg ?_).trans (if_pos ?_))
      · rcases hs with hs | hs <;> rw [hs] <;> decide
      · rw [hv, Bool.and_false]
        decide
      · rw [decide_eq_true h2, Bridge.runs_of_idle hs, hst]
        rfl
    all_goals
      have hno : ¬ ((s.live.bridge (byteAt b.payload 0)).st = .latched ∨ (s.live.bridge (byteAt b.payload 0)).st = .thermalOff) :=
        fun g => g.elim hl ht
      have hov := not_starting (x := s.live.pwr.overvolt) (hgo.imp_right fun g => g.imp_right And.left)
      have hst := not_starting (x := (s.live.die (sourceDie (.leg (byteAt b.payload 0)))).stale)
        (hgo.imp_right fun g => g.imp_right And.right)
      refine congrArg Host.Outcome.next ((State.command_ends h _).trans (congrArg (s.ends m) (hbody.trans ?_)))
      refine (if_neg hno).trans ((if_neg hov).trans ((if_neg hst).trans ?_))
    · exact (if_pos hb).trans ((if_neg (Nat.not_le.mpr hq)).trans (if_neg (by rw [hres, hfit]; decide)))
    · refine (if_neg (by rw [hb]; decide)).trans (if_pos ?_)
      rcases hw with hw | ⟨hw, hdr⟩
      · rw [hw]
        rfl
      · rw [decide_eq_true hw, hdr]
        exact Bool.or_true _
    · refine (if_neg (by rw [hb]; decide)).trans (if_neg ?_)
      rw [beq_eq_false_iff_ne.mpr hw]
      rcases hdr with hdr | hdr
      · rw [decide_eq_false (Nat.not_le.mpr hdr), Bool.false_and]
        decide
      · rw [hdr, Bool.and_false]
        decide
  · refine ⟨_, congrArg Host.Outcome.next (State.command_answer h (checked_pass (by simp [hk]) _ _)), by simp [leInt], ?_, ?_⟩
    · simp only [List.append_assoc]
      exact (byteAt_le_one_append (pre := []) rfl _).trans (Nat.mod_eq_of_lt (BitVec.isLt _))
    · simp only [List.append_assoc]
      exact byteAt_le_one_append (pre := le 1 (byteAt b.payload 0)) (by simp) _
  · refine congrArg Host.Outcome.next ((State.command_ends h _).trans (congrArg (s.ends m) ?_))
    unfold bridgeClear
    dsimp only
    rw [checked_pass (by simp [hk]), if_neg (by rw [hd]; decide), if_neg (by rw [hs]; decide)]
  · refine congrArg Host.Outcome.next (State.command_answer h ?_)
    unfold bridgeClear
    dsimp only
    rw [checked_pass (by simp [hk]), if_neg (by rw [hd]; decide), if_pos (bne_iff_ne.mpr hs)]
    rfl
  · rw [Bridge.drive_starts h ha]
    exact ⟨rfl, rfl, rfl, rfl⟩
  · subst ha
    unfold Bridge.drive Bridge.runs
    rw [h]
    exact ⟨rfl, rfl, rfl, rfl⟩
  · rw [Bridge.drive_stops h ha]
    exact ⟨rfl, rfl, rfl⟩
  · subst ha
    unfold Bridge.drive Bridge.runs
    rw [h]
    exact ⟨rfl, rfl, rfl, rfl⟩
end

section
/-! Direction changes and protection of bridges. -/

namespace Sys2Proof.Machine

/-- A leg within 5 °C of its limit floats a bridge that drives forward. -/
theorem bridgeThermal_trips {l : Live} {leg : Nat} {tj : Int} (ht : 1700 ≤ tj) (hs : (l.bridge (l.bridgeOfLeg leg)).st = .forward) :
    bridgeThermal leg tj l =
      ((l.setBr leg fun b => { b with tj := tj }).bridgeStops (l.bridgeOfLeg leg) .thermalOff).bridgeEvent
        (l.bridgeOfLeg leg) 4 := by
  have hst : ((l.setBr leg fun b => { b with tj := tj }).bridge (l.bridgeOfLeg leg)).st = .forward :=
    (Live.setBr_field (·.st) l leg _ fun _ => by rfl).trans hs
  have hlt : ¬ tj < 1700 := by omega
  unfold bridgeThermal
  dsimp only
  rw [hst, if_neg (by decide), if_neg (by rw [decide_eq_false hlt]; decide)]

/-- Every leg has cooled down. -/
theorem bridgeThermal_releases {l : Live} {leg : Nat} {tj : Int} (hs : (l.bridge (l.bridgeOfLeg leg)).st = .thermalOff)
    (hn : leg < l.load.br.length) (ht : tj < 1500)
    (hj : ∀ j ∈ l.legsOf (l.bridgeOfLeg leg), j ≠ leg → (l.bridge j).tj < 1500) :
    bridgeThermal leg tj l =
      (((l.setBr leg fun b => { b with tj := tj }).changed (.leg (l.bridgeOfLeg leg))).setBr (l.bridgeOfLeg leg) fun b =>
        { b with st := .float, action := 0 }).bridgeEvent (l.bridgeOfLeg leg) 5 := by
  have hst : ((l.setBr leg fun b => { b with tj := tj }).bridge (l.bridgeOfLeg leg)).st = .thermalOff :=
    (Live.setBr_field (·.st) l leg _ fun _ => by rfl).trans hs
  have hall : (((l.setBr leg fun b => { b with tj := tj }).legsOf (l.bridgeOfLeg leg)).all fun j =>
      decide (((l.setBr leg fun b => { b with tj := tj }).bridge j).tj < 1500)) = true := by
    refine List.all_eq_true.mpr fun j hm => decide_eq_true ?_
    by_cases hjl : j = leg
    · rw [hjl, Live.setBr_bridge _ hn]
      exact ht
    · rw [Live.setBr_bridge_ne _ hjl]
      exact hj j hm hjl
  unfold bridgeThermal
  dsimp only
  rw [hst, if_pos (by decide), if_pos hall]

/-- The bridge with its last command reapplied after an undervoltage. -/
def Live.uvReapplied (l : Live) (k : Nat) : Live :=
  (l.changed (.leg k)).setBr k fun b => ({ b with st := actionState b.action }).rampTo l.mt.now 0
    (if 2 ≤ b.action then b.target else 0) b.ramp

theorem bridgeUv_recovers {l : Live} {k : Nat} (hk : l.brOk k = true) (hu : l.pwr.uv.getD (sourceGroup (.leg k)) false = false)
    (hs : (l.bridge k).st = .uvWait) : bridgeUv k l =
      (if ((l.uvReapplied k).bridge k).runs
        then (l.uvReapplied k).askSlot ((l.uvReapplied k).bridgeSlot k (l.bridge k).target) .on false none
        else l.uvReapplied k).bridgeEvent k 6 := by
  unfold bridgeUv
  dsimp only
  rw [if_neg (by rw [hk]; decide), hu, if_neg Bool.false_ne_true, if_pos (by rw [hs]; rfl)]
  rfl

theorem Live.uvReapplied_st {l : Live} {k : Nat} (hs : (l.bridge k).st = .uvWait) :
    ((l.uvReapplied k).bridge k).st = actionState (l.bridge k).action :=
  congrArg Bridge.st (Live.setBr_bridge (l := l.changed (.leg k)) _ (Live.lt_of_uvWait hs))

theorem Live.uvReapplied_stops {l : Live} {k : Nat} (hs : (l.bridge k).st = .uvWait) (ha : (l.bridge k).action < 2) :
    ((l.uvReapplied k).bridge k).runs = false := by
  have h : (l.bridge k).action = 0 ∨ (l.bridge k).action = 1 := by omega
  refine Bridge.runs_of_idle ?_
  rw [Live.uvReapplied_st hs]
  rcases h with h | h <;> rw [h]
  · exact .inl rfl
  · exact .inr rfl

theorem Live.uvReapplied_runs {l : Live} {k : Nat} (hs : (l.bridge k).st = .uvWait) (ha : 2 ≤ (l.bridge k).action) :
    ((l.uvReapplied k).bridge k).runs = true := by
  unfold Bridge.runs
  rw [Live.uvReapplied_st hs]
  match h : (l.bridge k).action with
  | 0 => omega
  | 1 => omega
  | 2 => rfl
  | 3 => rfl
  | _ + 4 => rfl

end Sys2Proof.Machine

open Sys2Proof Sys2Proof.Machine

/-- Settles O27: each row's guard; an update of a leg's temperature leaves the state of its bridge. -/
theorem bridgeEvents : Obligations.BridgeEvents := by
  refine ⟨fun k s hd h0 => ?_, fun k i t s hd hi ht hb => ?_, fun k s hd ht => ?_, fun leg i t s hr hi hl => ⟨fun ht => ?_, fun ht => ?_⟩,
    fun leg i v s hs h => ?_, fun leg tj s ht hs => ?_, fun leg tj s hs hn ht hj => ?_,
    fun k s hk => ⟨fun hu hs => ?_, fun hu hs ha => ?_, fun hu hs ha hl => ?_⟩,
    fun k i t s ht => ⟨fun ho hr hi hd => ?_, fun ho hi => ?_⟩⟩
  · exact congrArg Host.Outcome.next (congrArg (fun l => { s with live := l }) (if_pos (by rw [hd, h0]; rfl)))
  · refine congrArg Host.Outcome.next (congrArg (fun l => { s with live := l }) (if_pos ?_))
    rw [hd, decide_eq_true hi, decide_eq_true ht, decide_eq_true hb]
    rfl
  · exact congrArg Host.Outcome.next
      (congrArg (fun l => { s with live := l }) (if_pos (by rw [hd, decide_eq_true ht]; rfl)))
  · refine congrArg Host.Outcome.next (congrArg (fun l => { s with live := l }) ?_)
    unfold bridgeLimit
    dsimp only
    rw [hr, hl, if_neg (by simpa using hi), decide_eq_false (Nat.not_le.mpr ht)]
    rfl
  · refine congrArg Host.Outcome.next (congrArg (fun l => { s with live := l }) ?_)
    unfold bridgeLimit
    dsimp only
    rw [hr, hl, if_neg (by simpa using hi), decide_eq_true ht]
    rfl
  · refine congrArg Host.Outcome.next (congrArg (fun l => { s with live := l }) (if_neg ?_))
    rw [beq_eq_false_iff_ne.mpr hs]
    rcases h with h | ⟨hv, hc⟩
    · simp [Nat.not_le.mpr h]
    · simp [Nat.not_le.mpr hv, hc]
  · exact congrArg Host.Outcome.next (congrArg (fun l => { s with live := l }) (bridgeThermal_trips ht hs))
  · exact congrArg Host.Outcome.next (congrArg (fun l => { s with live := l }) (bridgeThermal_releases hs hn ht hj))
  · refine congrArg Host.Outcome.next (congrArg (fun l => { s with live := l }) ?_)
    unfold bridgeUv
    dsimp only
    rw [if_neg (by rw [hk]; decide), if_pos hu, if_neg (by rw [hs]; decide)]
  · refine congrArg Host.Outcome.next (congrArg (fun l => { s with live := l }) ((bridgeUv_recovers hk hu hs).trans ?_))
    rw [if_neg (by rw [Live.uvReapplied_stops hs ha]; decide)]
    refine congrArg (fun l : Live => l.bridgeEvent k 6) ?_
    refine Live.setBr_congr (l := s.live.changed (.leg k)) (Live.lt_of_uvWait hs) ?_
    exact congrArg (fun n => Bridge.rampTo _ s.live.mt.now 0 n _) (if_neg (Nat.not_le.mpr ha))
  · refine congrArg Host.Outcome.next (congrArg (fun l => { s with live := l }) ((bridgeUv_recovers hk hu hs).trans ?_))
    have he : s.live.uvReapplied k = (s.live.changed (.leg k)).setBr k fun b =>
        ({ b with st := actionState b.action }).rampTo s.live.mt.now 0 b.target b.ramp := by
      refine Live.setBr_congr (l := s.live.changed (.leg k)) hl ?_
      exact congrArg (fun n => Bridge.rampTo _ s.live.mt.now 0 n _) (if_pos ha)
    rw [if_pos (Live.uvReapplied_runs hs ha), he]
  · refine congrArg Host.Outcome.next (congrArg (fun l => { s with live := l }) ?_)
    refine (if_neg (Nat.not_lt.mpr ht)).trans (if_pos ?_)
    rw [ho, hr, decide_eq_true hi, decide_eq_true hd]
    rfl
  · refine congrArg Host.Outcome.next (congrArg (fun l => { s with live := l }) ?_)
    refine (if_neg (Nat.not_lt.mpr ht)).trans ((if_neg ?_).trans (if_pos ?_))
    · rw [ho]
      simp
    · rw [ho, decide_eq_true hi]
      rfl
end

section
/-! Plan frames and generations, and the PLAN commands with legal fields. -/

namespace Sys2Proof.Machine

/-! ### What a frame and a swap leave: the generation, the frame and its peaks, and MT -/

/-- What of the plan and of MT only a plan frame, a generation swap or a step of MT changes. -/
structure PlanStamp where
  gen : Nat
  received : Bool
  peak : List Nat
  frame : Nat
  mt : MtState

def Live.planStamp (l : Live) : PlanStamp := ⟨l.plan.gen, l.plan.received, l.plan.peak, l.plan.frame, l.mt⟩

theorem Live.planStamp_congr {l l' : Live} (hp : l'.plan = l.plan) (hm : l'.mt = l.mt) : l'.planStamp = l.planStamp := by
  rw [Live.planStamp, hp, hm, Live.planStamp]

/-- A plan replaced: its own stamp, with MT as it was. -/
theorem Live.planStamp_withPlan (l : Live) (p : PlanState) :
    ({ l with plan := p } : Live).planStamp = ⟨p.gen, p.received, p.peak, p.frame, l.mt⟩ := rfl

@[simp] theorem Live.setCh_planStamp (l : Live) (n : Nat) (f : LoadCh → LoadCh) : (l.setCh n f).planStamp = l.planStamp := rfl
@[simp] theorem Live.setBr_planStamp (l : Live) (k : Nat) (f : Bridge → Bridge) : (l.setBr k f).planStamp = l.planStamp := rfl
@[simp] theorem Live.setValve_planStamp (l : Live) (v : Nat) (f : Valve → Valve) : (l.setValve v f).planStamp = l.planStamp := rfl
@[simp] theorem Live.setBank_planStamp (l : Live) (b : Nat) (f : Bank → Bank) : (l.setBank b f).planStamp = l.planStamp := rfl
@[simp] theorem Live.changed_planStamp (l : Live) (src : Source) : (l.changed src).planStamp = l.planStamp := rfl
@[simp] theorem Live.enterPhase_planStamp (l : Live) (v : Nat) (ph : ValvePhase) : (l.enterPhase v ph).planStamp = l.planStamp := rfl
@[simp] theorem Live.endStroke_planStamp (l : Live) (v : Nat) : (l.endStroke v).planStamp = l.planStamp := rfl
@[simp] theorem Live.rebook_planStamp (l : Live) (v t : Nat) (a : Int) : (l.rebook v t a).planStamp = l.planStamp := rfl
@[simp] theorem Live.bookEdge_planStamp (l : Live) (e : Nat) (src : Source) (u : Nat) (steps : Steps) :
    (l.bookEdge e src u steps).planStamp = l.planStamp := rfl
@[simp] theorem Live.sendEdge_planStamp (l : Live) (w : EdgeWork) (p lat : Nat) (o : Option (MbRef × Nat)) :
    (l.sendEdge w p lat o).planStamp = l.planStamp := rfl
@[simp] theorem Live.forgetDropped_planStamp (l : Live) (src : Source) : (l.forgetDropped src).planStamp = l.planStamp := rfl

@[simp] theorem Live.raise_planStamp (l : Live) (id sev c : Nat) (p : List Byte) : (l.raise id sev c p).planStamp = l.planStamp :=
  Live.planStamp_congr (l.raise_plan ..) (l.raise_mt ..)

@[simp] theorem Live.dieRaise_planStamp (l : Live) (d id sev c : Nat) (p : List Byte) :
    (l.dieRaise d id sev c p).planStamp = l.planStamp :=
  Live.planStamp_congr (l.dieRaise_plan ..) (l.dieRaise_mt ..)

@[simp] theorem Live.complete_planStamp (l : Live) (m : MbRef) (st : Status) (d : Nat) (p : List Byte) :
    (l.complete m st d p).planStamp = l.planStamp :=
  Live.planStamp_congr (l.complete_plan ..) (l.complete_mt ..)

@[simp] theorem Live.closeCmd_planStamp (l : Live) (c : OpenCmd) : (l.closeCmd c).planStamp = l.planStamp := by
  unfold Live.closeCmd
  split
  · rfl
  · exact Live.complete_planStamp ..

@[simp] theorem Live.entryDone_planStamp (l : Live) (o : Option (MbRef × Nat)) (st : Status) :
    (l.entryDone o st).planStamp = l.planStamp := by
  unfold Live.entryDone
  split
  · rfl
  · split
    · rfl
    · split
      · rfl
      · exact Live.closeCmd_planStamp ..

@[simp] theorem Live.dropSlot_planStamp (l : Live) (src : Source) : (l.dropSlot src).planStamp = l.planStamp := by
  unfold Live.dropSlot
  dsimp only
  split <;> rfl

@[simp] theorem Live.endSlot_planStamp (l : Live) (src : Source) : (l.endSlot src).planStamp = l.planStamp :=
  l.dropSlot_planStamp src

@[simp] theorem Live.giveBack_planStamp (l : Live) (src : Source) : (l.giveBack src).planStamp = l.planStamp := by
  unfold Live.giveBack
  split <;> rfl

@[simp] theorem Live.bridgeStops_planStamp (l : Live) (k : Nat) (st : BrState) : (l.bridgeStops k st).planStamp = l.planStamp :=
  (l.changed (.leg k)).dropSlot_planStamp (.leg k)

@[simp] theorem Live.driveBridge_planStamp (l : Live) (k a d r : Nat) : (l.driveBridge k a d r).2.planStamp = l.planStamp := by
  unfold Live.driveBridge
  dsimp only
  split
  · rfl
  · exact Live.dropSlot_planStamp ..

/-! Valves -/

@[simp] theorem Live.refuseFire_planStamp (l : Live) (v : Nat) (st : Status) (d n : Nat) :
    (l.refuseFire v st d n).planStamp = l.planStamp := by
  unfold Live.refuseFire
  split
  · rfl
  · dsimp only
    split
    · exact (Live.complete_planStamp ..).trans (Live.dieRaise_planStamp ..)
    · exact Live.dieRaise_planStamp ..

@[simp] theorem Live.tryFire_planStamp (l : Live) (v : Nat) : (l.tryFire v).planStamp = l.planStamp := by
  unfold Live.tryFire
  dsimp only
  split
  · rfl
  · split
    · rfl
    · split
      · rfl
      · exact Live.refuseFire_planStamp ..

@[simp] theorem Live.fireAgain_planStamp (l : Live) (v : Nat) : (l.fireAgain v).planStamp = l.planStamp := by
  unfold Live.fireAgain
  dsimp only
  split <;> rfl

@[simp] theorem Live.refireFrame_planStamp (l : Live) : l.refireFrame.planStamp = l.planStamp :=
  foldl_keeps Live.planStamp (fun l v => by
    dsimp only
    split
    · exact (Live.tryFire_planStamp ..).trans (Live.fireAgain_planStamp ..)
    · exact Live.fireAgain_planStamp ..) _ l

@[simp] theorem Live.bankQuiet_planStamp (l : Live) (b : Nat) : (l.bankQuiet b).planStamp = l.planStamp := by
  unfold Live.bankQuiet
  split <;> rfl

@[simp] theorem Live.releaseValve_planStamp (l : Live) (v : Nat) : (l.releaseValve v).planStamp = l.planStamp := by
  unfold Live.releaseValve Live.endDrive
  dsimp only
  rw [Live.bankQuiet_planStamp, Live.setValve_planStamp, Live.enterPhase_planStamp, Live.rebook_planStamp, Live.endSlot_planStamp]
  split
  · exact Live.endStroke_planStamp ..
  · rfl

/-! Standing slots -/

@[simp] theorem Live.standingEvent_planStamp (l : Live) (c : Nat) (s : Standing) :
    (l.standingEvent c s).planStamp = l.planStamp := Live.raise_planStamp ..

/-- The dropped sources with one more. -/
theorem Live.planStamp_dropped (l : Live) (ds : List Standing) :
    ({ l with plan := { l.plan with dropped := ds } } : Live).planStamp = l.planStamp := rfl

@[simp] theorem Live.dropStanding_planStamp (l : Live) (s : Standing) : (l.dropStanding s).planStamp = l.planStamp := by
  unfold Live.dropStanding
  dsimp only
  split <;> simp [Live.planStamp_dropped]

@[simp] theorem Live.restoreStanding_planStamp (l : Live) (s : Standing) : (l.restoreStanding s).planStamp = l.planStamp := by
  have he : ((l.standingEvent 1 s).forgetDropped s.src).planStamp = l.planStamp := Live.raise_planStamp ..
  unfold Live.restoreStanding
  dsimp only
  generalize (l.standingEvent 1 s).forgetDropped s.src = l1 at he ⊢
  split
  · exact he
  · rw [Live.driveBridge_planStamp]
    exact he
  · split
    · exact he
    · split
      · rw [Live.tryFire_planStamp, Live.setValve_planStamp]
        exact he
      · exact he
  · exact he

@[simp] theorem Live.newBudgets_planStamp (l : Live) : l.newBudgets.planStamp = l.planStamp :=
  foldl_keeps Live.planStamp (fun l g => by
    dsimp only
    split
    · rfl
    · exact Live.raise_planStamp ..) _ l

@[simp] theorem Live.readmit_planStamp (l : Live) : l.readmit.planStamp = l.planStamp := by
  unfold Live.readmit
  dsimp only
  refine (foldl_keeps Live.planStamp (fun l s => ?_) _ _).trans
    ((foldl_keeps Live.planStamp (fun l s => l.dropStanding_planStamp s) _ _).trans rfl)
  split
  · exact Live.restoreStanding_planStamp ..
  · rfl

@[simp] theorem Live.admitChange_planStamp (l : Live) (c : SlotChange) : (l.admitChange c).planStamp = l.planStamp := by
  unfold Live.admitChange
  dsimp only
  split
  · rfl
  · split
    · exact (Live.entryDone_planStamp ..).trans ((Live.driveBridge_planStamp ..).trans rfl)
    · exact (Live.entryDone_planStamp ..).trans rfl
  · exact (Live.entryDone_planStamp ..).trans rfl

@[simp] theorem Live.planRefused_planStamp (l : Live) (src : Source) (c : Nat) : (l.planRefused src c).planStamp = l.planStamp :=
  (Live.raise_planStamp ..).trans rfl

@[simp] theorem Live.refuseChange_planStamp (l : Live) (c : SlotChange) : (l.refuseChange c).planStamp = l.planStamp := by
  unfold Live.refuseChange
  dsimp only
  split
  · rfl
  · split
    · exact (Live.entryDone_planStamp ..).trans ((Live.dropStanding_planStamp ..).trans rfl)
    · exact (Live.entryDone_planStamp ..).trans ((Live.planRefused_planStamp ..).trans rfl)
  · exact (Live.entryDone_planStamp ..).trans ((Live.planRefused_planStamp ..).trans rfl)

/-! The frame -/

@[simp] theorem Live.endFade_planStamp (l : Live) (n c : Nat) : (l.endFade n c).planStamp = l.planStamp := by
  unfold Live.endFade
  split
  · rfl
  · dsimp only
    rw [Live.dieRaise_planStamp]
    exact (foldl_keeps Live.planStamp (fun l (c : SlotChange) => l.entryDone_planStamp c.owner .pending) _ _).trans rfl

@[simp] theorem Live.fadeStep_planStamp (l : Live) (frame : Nat) (f : Fade) : (l.fadeStep frame f).planStamp = l.planStamp := by
  unfold Live.fadeStep
  split
  · rfl
  · extract_lets n d l1 l2 l3
    have h2 : l2.planStamp = l.planStamp := by
      show (if _ then _ else _ : Live).planStamp = _
      split <;> rfl
    have h3 : l3.planStamp = l2.planStamp := by
      show (if _ then _ else if _ then _ else _ : Live).planStamp = _
      split
      · rfl
      · split <;> rfl
    clear_value l2 l3
    split
    · exact h2
    · rw [Live.endFade_planStamp, h3, h2]

@[simp] theorem Live.sagFactor_planStamp (l : Live) : l.sagFactor.planStamp = l.planStamp := by
  unfold Live.sagFactor
  dsimp only
  split
  · rfl
  · split <;> rfl

@[simp] theorem Live.dimLighting_planStamp (l : Live) : l.dimLighting.planStamp = l.planStamp :=
  foldl_keeps Live.planStamp (fun l n => by
    dsimp only
    split <;> rfl) _ l

@[simp] theorem Live.reinitFloats_planStamp (l : Live) : l.reinitFloats.planStamp = l.planStamp := by
  unfold Live.reinitFloats
  dsimp only
  refine (foldl_keeps Live.planStamp (fun l p => ?_) _ _).trans (foldl_keeps Live.planStamp (fun l k => ?_) _ _)
  · split
    · split <;> rfl
    · rfl
  · split
    · exact (Live.bridgeStops_planStamp ..).trans rfl
    · rfl

@[simp] theorem Live.bridgeFrame_planStamp (l : Live) (k : Nat) : (l.bridgeFrame k).planStamp = l.planStamp := by
  unfold Live.bridgeFrame
  dsimp only
  split <;> rfl

@[simp] theorem Live.rephase_planStamp (l : Live) : l.rephase.planStamp = l.planStamp := rfl

theorem Live.askBudgets_planStamp (l : Live) : l.askBudgets.planStamp = { l.planStamp with received := true } := by
  unfold Live.askBudgets
  dsimp only
  split <;> rfl

/-- A plan frame is taken: its number, the peaks of the one that ends. -/
theorem planFrame_planStamp {l : Live} (hp : l.sup.phase = .running) (hf : l.plan.frame < l.mt.now / frameNs) :
    (planFrame l).planStamp = { l.planStamp with
      received := true, peak := (List.range 4).map fun g => l.framePeak g (l.mt.now / frameNs - 1), frame := l.mt.now / frameNs } := by
  have hg : ¬ ((decide (l.mt.now / frameNs ≤ l.plan.frame) || l.sup.phase != .running) = true) := by
    rw [hp, decide_eq_false (Nat.not_le.mpr hf)]
    decide
  unfold planFrame Live.fadeFrame
  dsimp only
  rw [if_neg hg, Live.refireFrame_planStamp, foldl_keeps Live.planStamp (fun l k => l.bridgeFrame_planStamp k),
    Live.rephase_planStamp, Live.reinitFloats_planStamp, Live.dimLighting_planStamp, foldl_keeps Live.planStamp (fun l f => l.fadeStep_planStamp _ f),
    Live.sagFactor_planStamp, Live.askBudgets_planStamp]
  rfl

/-- A generation is put in force: the next number, and the slots that the build admits. -/
theorem generationSwap_swaps {l : Live} {q : Nat} (hp : l.sup.phase = .running) (hd : l.plan.dirty = some q)
    (hq : q + us 200 < l.mt.now / frameNs * frameNs) :
    (generationSwap l).plan.gen = (l.plan.gen + 1) % 2 ^ 32 ∧ (generationSwap l).plan.stand = (generationSwap l).plan.want ∧
      (generationSwap l).mt = l.mt := by
  have hg : ¬ ((!l.plan.dirty.any (fun t => decide (t + us 200 < l.mt.now / frameNs * frameNs)) || l.sup.phase != .running) = true) := by
    rw [any_of_some hd (decide_eq_true hq), hp]
    decide
  unfold generationSwap
  extract_lets boundary timely l1 mine late r _ l2 l3 _ l4
  have h1 : l1.planStamp = l.planStamp := (Live.readmit_planStamp _).trans (Live.newBudgets_planStamp l)
  clear_value l1
  have h3 : l3.planStamp = l2.planStamp := by
    refine foldl_keeps Live.planStamp (fun l c => ?_) _ _
    split
    · exact Live.admitChange_planStamp ..
    · exact Live.refuseChange_planStamp ..
  have hs : l3.planStamp = l.planStamp := h3.trans h1
  clear_value l3
  have hgen : l4.plan.gen = (l.plan.gen + 1) % 2 ^ 32 := congrArg (fun x : PlanStamp => (x.gen + 1) % 2 ^ 32) hs
  have hst : l4.plan.stand = l4.plan.want := rfl
  have hmt : l4.mt = l.mt := congrArg PlanStamp.mt hs
  clear_value l4
  rw [if_neg hg, Live.raise_plan, Live.raise_mt]
  exact ⟨hgen, hst, hmt⟩

/-! ### The PLAN commands -/

theorem planRecord_length (l : Live) : l.planRecord.length = 44 := by
  simp [Live.planRecord, List.range_succ]

theorem planRecord_take (l : Live) : l.planRecord.take 4 = le 4 l.plan.gen := by
  simp only [Live.planRecord, List.append_assoc]
  exact List.take_left' (length_le ..)

/-- The inrush fields of PLAN.CHANNEL: none, or one between the booking and ILIM. -/
theorem inrush_legal {i ilim r t : Nat} (h : r = 0 ∧ t = 0 ∨ r ≠ 0 ∧ inRange i ilim r = true ∧ t ≤ 5000) :
    (r = 0 ∨ inRange i ilim r = true) ∧ (if r = 0 then t = 0 else t ≤ 5000) := by
  rcases h with ⟨hr, ht⟩ | ⟨hr, hi, ht⟩
  · exact ⟨.inl hr, by rw [if_pos hr]; exact ht⟩
  · exact ⟨.inr hi, by rw [if_neg hr]; exact ht⟩

/-- PLAN.CHANNEL of a load channel with legal fields. -/
theorem planChannel_load {m : MbRef} {b : Mailbox} {l : Live} (h0 : byteAt b.payload 0 = 0) (hk : byteAt b.payload 1 ≤ 47)
    (hi : inRange 1 (l.ch (byteAt b.payload 1)).cfg.ilim (rd b.payload 2 2) = true)
    (hx : rd b.payload 4 2 = 0 ∧ rd b.payload 6 2 = 0 ∨ rd b.payload 4 2 ≠ 0 ∧
      inRange (rd b.payload 2 2) (l.ch (byteAt b.payload 1)).cfg.ilim (rd b.payload 4 2) = true ∧ rd b.payload 6 2 ≤ 5000)
    (h8 : byteAt b.payload 8 < 2) (hr : (resv b 9 3).2 = true) : planChannel m b l =
      let k := byteAt b.payload 1
      if l.pwr.mode = .drain ∨ ¬ (l.ch k).lowest = k ∨ (l.ch k).idle = false then (refuse .state, l)
      else (l.applyBook k b.payload).endConfig m (bit (byteAt b.payload 8) 0) 0x1202 k b.payload := by
  unfold planChannel
  dsimp only
  rw [h0, checked_pass (by simpa [hk, hi, h8, hr] using inrush_legal hx)]
  simp [Live.draining]

/-- A list of pieces of one length. -/
theorem length_flatMap_const {α β : Type} {f : α → List β} {k : Nat} (h : ∀ x, (f x).length = k) (xs : List α) :
    (xs.flatMap f).length = k * xs.length := by
  induction xs with
  | nil => rfl
  | cons x xs ih => rw [List.flatMap_cons, List.length_append, h, ih, List.length_cons, Nat.mul_succ, Nat.add_comm]

end Sys2Proof.Machine

open Sys2Proof Sys2Proof.Machine

/-- Settles O28: a frame and a swap keep what no other row of the plan changes; each command's body with its checks passed. -/
theorem planFramesAndCommands : Obligations.PlanFramesAndCommands := by
  refine ⟨fun s hp hf => ?_, fun q s hp hd hq => ?_, fun n s hp hd hn => ?_, fun m b s h ⟨h4, h5, h6, hg, hr⟩ => ?_,
    fun m b s h h0 hk hi hx h8 hr => ⟨fun hs => ?_, fun hm hi' hl => ?_⟩, fun m b s h h1 hk hi hx h8 hr hm hi0 hi1 => ?_,
    fun m b s h => ⟨congrArg Host.Outcome.next (State.command_answer h rfl), planRecord_length _, planRecord_take _⟩,
    fun m b s h hf hn hr => ?_⟩
  · have hs := planFrame_planStamp hp hf
    exact ⟨s.onLive planFrame, rfl, rfl, congrArg PlanStamp.frame hs, congrArg PlanStamp.received hs, congrArg PlanStamp.gen hs,
      congrArg PlanStamp.mt hs, congrArg PlanStamp.peak hs⟩
  · obtain ⟨hgen, hst, hmt⟩ := generationSwap_swaps hp hd hq
    exact ⟨s.onLive generationSwap, rfl, rfl, hgen, hst, hmt⟩
  · refine congrArg Host.Outcome.next ((s.onLogic_running _ hp).trans (congrArg (fun l => { s with live := l }) ?_))
    exact if_pos (by rw [hd, decide_eq_true hn]; rfl)
  · refine congrArg Host.Outcome.next ((State.command_ends h _).trans (congrArg (s.ends m) ?_))
    unfold planConfig
    dsimp only
    rw [checked_pass]
    · rfl
    have hga : ((List.range 4).map (fun g => (8 + g, inRange 1 45 (byteAt b.payload (8 + g))))).all (·.2) = true := by
      simpa using fun g hg' => (hg g hg').1
    have hgd : ((List.range 4).map (fun g => (12 + g, inRange 1 80 (byteAt b.payload (12 + g))))).all (·.2) = true := by
      simpa using fun g hg' => (hg g hg').2
    rw [List.all_append, List.all_append, List.all_append, hga, hgd]
    simp [h4, h5, h6, hr]
  · refine congrArg Host.Outcome.next (State.command_answer h ((planChannel_load h0 hk hi hx h8 hr).trans (if_pos ?_)))
    rcases hs with hs | hs <;> simp [hs]
  · refine congrArg Host.Outcome.next ((State.command_ends h _).trans (congrArg (s.ends m)
      ((planChannel_load h0 hk hi hx h8 hr).trans (if_neg ?_))))
    simp [hm, hi', hl]
  · refine congrArg Host.Outcome.next ((State.command_ends h _).trans (congrArg (s.ends m) ?_))
    have hidle : (s.live.bridge (byteAt b.payload 1)).idle = true := by
      have hk2 : byteAt b.payload 1 = byteAt b.payload 1 / 2 * 2 ∨ byteAt b.payload 1 = byteAt b.payload 1 / 2 * 2 + 1 := by omega
      rcases hk2 with hk2 | hk2
      · exact hk2 ▸ hi0
      · exact hk2 ▸ hi1
    unfold planChannel
    dsimp only
    rw [h1, checked_pass (by simpa [hk, hi, h8, hr] using inrush_legal hx), hi0, hi1, hidle,
      Live.draining, beq_eq_false_iff_ne.mpr hm]
    rfl
  · refine ⟨_, congrArg Host.Outcome.next (State.command_answer h (checked_pass (by simp [hf, hn, hr]) _ _)), ?_, ?_⟩
    · simp only [List.append_assoc]
      exact List.take_left' (length_le ..)
    · rw [List.length_append, List.length_append, List.length_append, length_le, length_le, length_le,
        length_flatMap_const (k := 8) (fun e => by simp [leInt]), List.length_take, List.length_drop]
end

section
/-! The thermal and wire ledger, shedding, and the LEDGER commands with legal fields. -/

namespace Sys2Proof.Machine

/-! ### What an update of the wires leaves: the lid, the module power, MT and the supplies -/

structure LedgerStamp where
  tLid : Int
  pmod : List Nat
  mt : MtState
  pwr : PwrState

def Live.ledgerStamp (l : Live) : LedgerStamp := ⟨l.ledger.tLid, l.ledger.pmod, l.mt, l.pwr⟩

theorem Live.ledgerStamp_congr {l l' : Live} (hg : l'.ledger = l.ledger) (hm : l'.mt = l.mt) (hp : l'.pwr = l.pwr) :
    l'.ledgerStamp = l.ledgerStamp := by
  rw [Live.ledgerStamp, hg, hm, hp, Live.ledgerStamp]

@[simp] theorem Live.dieRaise_pwr (l : Live) (d id sev c : Nat) (p : List Byte) : (l.dieRaise d id sev c p).pwr = l.pwr := by
  unfold Live.dieRaise Live.dieRaiseAt
  split <;> simp

@[simp] theorem Live.dieRaise_ledger (l : Live) (d id sev c : Nat) (p : List Byte) :
    (l.dieRaise d id sev c p).ledger = l.ledger := by
  unfold Live.dieRaise Live.dieRaiseAt
  split <;> simp

@[simp] theorem Live.loadEvent_ledger (l : Live) (n c : Nat) : (l.loadEvent n c).ledger = l.ledger := by
  unfold Live.loadEvent
  split <;> simp

@[simp] theorem Live.setCh_ledgerStamp (l : Live) (n : Nat) (f : LoadCh → LoadCh) : (l.setCh n f).ledgerStamp = l.ledgerStamp := rfl

@[simp] theorem Live.loadOff_ledgerStamp (l : Live) (n : Nat) (cl : Bool) (c : Option Nat) :
    (l.loadOff n cl c).ledgerStamp = l.ledgerStamp := rfl

@[simp] theorem Live.raise_ledgerStamp (l : Live) (id sev c : Nat) (p : List Byte) :
    (l.raise id sev c p).ledgerStamp = l.ledgerStamp :=
  Live.ledgerStamp_congr (l.raise_ledger ..) (l.raise_mt ..) (l.raise_pwr ..)

@[simp] theorem Live.loadEvent_ledgerStamp (l : Live) (n c : Nat) : (l.loadEvent n c).ledgerStamp = l.ledgerStamp := by
  unfold Live.loadEvent
  split
  · rfl
  · exact Live.ledgerStamp_congr (l.dieRaise_ledger ..) (l.dieRaise_mt ..) (l.dieRaise_pwr ..)

@[simp] theorem Live.latchCh_ledgerStamp (l : Live) (n c : Nat) : (l.latchCh n c).ledgerStamp = l.ledgerStamp :=
  (Live.loadEvent_ledgerStamp ..).trans rfl

@[simp] theorem Live.entryDone_ledgerStamp (l : Live) (o : Option (MbRef × Nat)) (st : Status) :
    (l.entryDone o st).ledgerStamp = l.ledgerStamp := by
  unfold Live.entryDone
  split
  · rfl
  · split
    · rfl
    · split
      · rfl
      · unfold Live.closeCmd
        split
        · rfl
        · exact Live.ledgerStamp_congr (Live.complete_ledger ..) (Live.complete_mt ..) (Live.complete_pwr ..)

@[simp] theorem Live.faultOff_ledgerStamp (l : Live) (n c : Nat) (cl : Bool) : (l.faultOff n c cl).ledgerStamp = l.ledgerStamp := by
  unfold Live.faultOff
  extract_lets was l1 l2
  have h1 : l1.ledgerStamp = l.ledgerStamp := by
    show (if _ then _ else _ : Live).ledgerStamp = _
    split <;> rfl
  have h2 : l2.ledgerStamp = l.ledgerStamp := (Live.loadEvent_ledgerStamp ..).trans h1
  clear_value l2
  split
  · rw [Live.setCh_ledgerStamp, Live.entryDone_ledgerStamp]
    exact h2
  · split
    · exact h2
    · unfold Live.faultPend
      dsimp only
      split
      · exact (Live.latchCh_ledgerStamp ..).trans h2
      · exact h2

@[simp] theorem Live.setWire_ledgerStamp (l : Live) (n : Nat) (f : Wire → Wire) : (l.setWire n f).ledgerStamp = l.ledgerStamp := rfl

@[simp] theorem Live.wireTrip_ledgerStamp (l : Live) (n : Nat) (cl : Bool) : (l.wireTrip n cl).ledgerStamp = l.ledgerStamp := by
  unfold Live.wireTrip
  split
  · simp
  · split
    · simp
    · split <;> simp

@[simp] theorem Live.wireUpdate_ledgerStamp (cl : List Nat) (l : Live) (n : Nat) :
    (l.wireUpdate cl n).ledgerStamp = l.ledgerStamp := by
  unfold Live.wireUpdate
  split
  · rfl
  · extract_lets c w tw thr l1 l2 l3
    have h2 : l2.ledgerStamp = l.ledgerStamp := by
      show (if _ then _ else if _ then _ else _ : Live).ledgerStamp = _
      split
      · exact (Live.raise_ledgerStamp ..).trans rfl
      · split
        · exact (Live.raise_ledgerStamp ..).trans rfl
        · rfl
    have h3 : l3.ledgerStamp = l2.ledgerStamp := by
      show (if _ then _ else _ : Live).ledgerStamp = _
      split
      · exact Live.wireTrip_ledgerStamp ..
      · rfl
    clear_value l2 l3
    split
    · exact h3.trans h2
    · exact h3.trans h2

/-! ### LEDGER_UPDATE -/

@[simp] theorem Live.dieFresh_ledgerStamp (l : Live) (d : Nat) : (l.dieFresh d).ledgerStamp = l.ledgerStamp := by
  unfold Live.dieFresh
  dsimp only
  split
  · exact (Live.raise_ledgerStamp ..).trans rfl
  · rfl

theorem Live.lidUpdate_ledgerStamp (l : Live) (lid : List Int) :
    (l.lidUpdate lid).ledgerStamp = { l.ledgerStamp with tLid := lid.foldl max (lid.headD 250) } := by
  unfold Live.lidUpdate
  dsimp only
  split
  · exact (Live.raise_ledgerStamp ..).trans rfl
  · split
    · exact (Live.raise_ledgerStamp ..).trans rfl
    · rfl

theorem Live.saveLedger_record (l : Live) : l.saveLedger.ledgerRecord = l.ledgerRecord := rfl

/-- An update takes the lid temperature, one more module power, and saves its record. -/
theorem ledgerUpdate_takes (d : LedgerData) (l : Live) :
    (∃ p, (ledgerUpdate d l).ledgerStamp =
      { l.ledgerStamp with tLid := d.lid.foldl max (d.lid.headD 250), pmod := (p :: l.ledger.pmod).take 1000 }) ∧
    (ledgerUpdate d l).ledger.saved = some (ledgerUpdate d l).ledgerRecord := by
  unfold ledgerUpdate
  extract_lets l1 l2 l3 l4 p l5 l6
  have h1 : l1.ledgerStamp = l.ledgerStamp := by
    show (if _ then _ else _ : Live).ledgerStamp = _
    split
    · exact Live.dieFresh_ledgerStamp ..
    · rfl
  have h2 : l2.ledgerStamp = l1.ledgerStamp := by
    show (if _ then _ else _ : Live).ledgerStamp = _
    split
    · exact Live.dieFresh_ledgerStamp ..
    · rfl
  have h3 : l3.ledgerStamp = { l.ledgerStamp with tLid := d.lid.foldl max (d.lid.headD 250) } := by
    rw [← h1, ← h2]
    exact Live.lidUpdate_ledgerStamp ..
  clear_value l3
  have h5 : l5.ledgerStamp =
      { l.ledgerStamp with tLid := d.lid.foldl max (d.lid.headD 250), pmod := (p :: l.ledger.pmod).take 1000 } := by
    have h : l5.ledgerStamp = { l3.ledgerStamp with pmod := (p :: l3.ledgerStamp.pmod).take 1000 } := rfl
    rw [h, h3]
    rfl
  have h6 : l6.ledgerStamp = l5.ledgerStamp := foldl_keeps Live.ledgerStamp (Live.wireUpdate_ledgerStamp d.clamping) _ _
  clear_value l6
  exact ⟨⟨p, (show l6.powerTimes.saveLedger.ledgerStamp = l6.ledgerStamp from rfl).trans (h6.trans h5)⟩,
    congrArg some (Live.saveLedger_record _).symm⟩

/-! ### The wire trip -/

theorem Live.setWire_wires (l : Live) (n k : Nat) (f : Wire → Wire) :
    (l.setWire n f).ledger.wires[k]? = if n = k then (l.ledger.wires[k]?).map f else l.ledger.wires[k]? := by
  show (l.ledger.wires.modify n f)[k]? = _
  rw [List.getElem?_modify]
  split
  next h => rfl
  next h => cases l.ledger.wires[k]? <;> rfl

/-- A wire that is as hot as its trip temperature has warned. -/
def Live.wireHot (l : Live) (n : Nat) (w : Wire) (tw : Int) : Live :=
  let l := l.setWire n fun w => { w with tw := tw }
  if w.warned then l else (l.setWire n fun w => { w with warned := true }).raise 0x08A warn 0 (le 1 n ++ leInt 2 (tw01 tw))

theorem Live.wireHot_keeps (l : Live) (n : Nat) (w : Wire) (tw : Int) :
    (l.wireHot n w tw).load = l.load ∧ (l.wireHot n w tw).plan = l.plan ∧ (l.wireHot n w tw).mt = l.mt := by
  unfold Live.wireHot
  dsimp only
  split
  · exact ⟨rfl, rfl, rfl⟩
  · exact ⟨(Live.raise_load ..).trans rfl, (Live.raise_plan ..).trans rfl, (Live.raise_mt ..).trans rfl⟩

theorem Live.wireHot_wire {l : Live} {n : Nat} {w : Wire} (tw : Int) (hw : l.ledger.wires[n]? = some w) :
    (l.wireHot n w tw).ledger.wires[n]? = some { w with tw := tw, warned := true } := by
  unfold Live.wireHot
  dsimp only
  split
  next h =>
    rw [Live.setWire_wires, if_pos rfl, hw, ← h]
    rfl
  · rw [Live.raise_ledger, Live.setWire_wires, if_pos rfl, Live.setWire_wires, if_pos rfl, hw]
    rfl

/-- A wire that reaches its trip temperature trips its channel. -/
theorem Live.wireUpdate_trips {l : Live} {n : Nat} (cl : List Nat) (hl : (l.ch n).lowest = n) (hc : (l.ch n).conducts = true)
    (hoff : (l.wireCfg n).off = false) {w : Wire} (hw : l.ledger.wires.getD n (Wire.init n) = w)
    {tw : Int} (htw : (l.wireCfg n).step w.tw (l.wireCurrent n) = tw) (ht : (l.wireCfg n).tTrip * nano ≤ tw) :
    l.wireUpdate cl n = (l.wireHot n w tw).wireTrip n (cl.contains n) := by
  have hn : (0 : Int) < nano := by decide
  have hy : 0 ≤ ((l.wireCfg n).hyst : Int) * nano := by positivity
  have hthr : ((l.wireCfg n).tTrip - 5) * nano ≤ tw := by nlinarith
  have hcool : ¬ tw < ((l.wireCfg n).tTrip - 5) * nano - (l.wireCfg n).hyst * nano := by omega
  have hhold : ¬ tw < ((l.wireCfg n).tTrip - (l.wireCfg n).hyst) * nano := by nlinarith
  have hcond : (l.wireHot n w tw).wireTrips n = true := by
    have hch : (l.wireHot n w tw).ch n = l.ch n := Live.ch_congr (congrArg LoadState.ch (l.wireHot_keeps n w tw).1) n
    unfold Live.wireTrips
    dsimp only
    rw [hch, hc, Bool.true_or]
  unfold Live.wireUpdate
  rw [if_neg (by rw [hl, bne_self_eq_false]; decide)]
  dsimp only
  rw [hw, htw, hoff, decide_eq_true hthr, decide_eq_false hcool, decide_eq_true ht, decide_eq_false hhold]
  have hhot : (if (!w.warned && true) = true then
      ((l.setWire n fun w => { w with tw := tw }).setWire n fun w => { w with warned := true }).raise 0x08A warn 0
        (le 1 n ++ leInt 2 (tw01 tw))
      else if (w.warned && false) = true then
        ((l.setWire n fun w => { w with tw := tw }).setWire n fun w => { w with warned := false }).raise 0x08A warn 1
          (le 1 n ++ leInt 2 (tw01 tw))
      else l.setWire n fun w => { w with tw := tw }) = l.wireHot n w tw := by
    unfold Live.wireHot
    cases w.warned <;> rfl
  rw [hhot, hcond, Bool.and_false, if_neg Bool.false_ne_true]
  rfl

/-- The trip of a conducting channel that neither retries nor is about to be turned off by command. -/
theorem Live.wireTrip_latches {l : Live} {n : Nat} (clamps : Bool) (hc : (l.ch n).conducts = true)
    (hr : (l.ch n).cfg.wireRetry = false) (ho : l.offThisFrame n = none) :
    l.wireTrip n clamps = ((l.loadOff n clamps (some 10)).loadEvent n 10).latchCh n 10 := by
  unfold Live.wireTrip
  rw [if_neg (by rw [hc]; decide), if_neg (by rw [hr]; decide), if_neg (by rw [ho]; decide)]

/-! ### Shedding -/

theorem shedOne_sheds {l : Live} {n : Nat} (hs : l.shedChoice = some n) (hc : (l.ch n).conducts = true) : l.shedOne =
    ((((l.setLedger fun g => { g with stepAt := l.mt.now }).setCh n fun c => { c with shed := true }).setLedger fun g =>
      { g with shed := n :: g.shed }).sendEdge (.shedOff n) (l.ch n).cfg.prio (l.ch n).cfg.latUs none).raise 0x089 warn 0
        (le 1 n ++ le 1 (l.ch n).cfg.prio) := by
  unfold Live.shedOne
  rw [hs]
  dsimp only
  rw [if_neg (by rw [hc]; decide)]

/-- Level 2 ends after 5 s at or below 0.9 of PD_MAX. -/
theorem shedStepBack_releases {l : Live} {q : Nat} (hf : l.shedFree = true) (hl : l.ledger.level = 2)
    (hs : l.ledger.stepping = false) (hu : l.ledger.underSince = some q) (hq : q + ms 5000 ≤ l.mt.now) :
    shedStepBack l = (l.setLedger fun g => { g with stepping := true }).releaseShed.setLevel 1 := by
  unfold shedStepBack
  dsimp only
  rw [hl, hs, hf, any_of_some hu (decide_eq_true hq)]
  rfl

theorem shedLevelEntry_enters {l : Live} {q : Nat} (hf : l.shedFree = true) (ho : l.ledger.overSince = some q)
    (hq : q ≤ l.mt.now) (hl : l.ledger.level = 0) (hs : l.ledger.stepping = false) :
    shedLevelEntry l = l.factorFalls.setLevel 1 := by
  have hab : (l.ledger.overSince.any fun s => decide (s + 0 ≤ l.mt.now)) = true := any_of_some ho (decide_eq_true hq)
  unfold shedLevelEntry
  dsimp only
  refine (if_neg ?_).trans ((if_neg ?_).trans ?_)
  · rw [hf, hab]
    decide
  · rw [hs]
    simp
  · rw [hl]
    rfl

theorem wireRecord_length (l : Live) (n : Nat) : (l.wireRecord n).length = 8 := by
  simp [Live.wireRecord, leInt]

end Sys2Proof.Machine

open Sys2Proof Sys2Proof.Machine

/-- Settles O29: an update's stamp, the wire trip, and each shedding row by its guard. -/
theorem thermalAndWireLedger : Obligations.ThermalAndWireLedger := by
  refine ⟨fun d s hp => ?_, fun cl l n hn hw hl hc hr hoff ho ht => ?_, fun d s hp hs hf => ?_, fun src i t s hp hs ht hi hx => ?_,
    fun q s hp hf ho hq hl hs => ?_, fun s hp hf hl hs ht => ?_, fun n s hp hf hl hs ht hn hc => ?_,
    fun q s hp hf hl hs hu hq => ?_, fun m b s h hf => ⟨fun hl hi => ?_, fun hx => ?_⟩, fun m b s h h0 h2 h3 h4 h6 => ?_,
    fun m b s h h0 h1 h2 => ?_⟩
  · obtain ⟨⟨p, hst⟩, hsv⟩ := ledgerUpdate_takes d s.live
    generalize hg : ledgerUpdate d s.live = t at hst hsv
    refine ⟨{ s with live := t }, congrArg Host.Outcome.next ((s.onLogic_running _ hp).trans
      (congrArg (fun l => { s with live := l }) hg)), rfl, congrArg LedgerStamp.tLid hst, hsv, ?_, congrArg LedgerStamp.mt hst,
      congrArg LedgerStamp.pwr hst⟩
    rw [show t.ledger.pmod = _ from congrArg LedgerStamp.pmod hst]
    exact List.length_take_le ..
  · have hwn : l.ledger.wires[n]? = some (l.ledger.wires.getD n (Wire.init n)) := by
      simp [List.getD_eq_getElem?_getD, hw]
    obtain ⟨kl, kp, km⟩ := l.wireHot_keeps n (l.ledger.wires.getD n (Wire.init n))
      ((l.wireCfg n).step (l.ledger.wires.getD n (Wire.init n)).tw (l.wireCurrent n))
    have hhw := Live.wireHot_wire ((l.wireCfg n).step (l.ledger.wires.getD n (Wire.init n)).tw (l.wireCurrent n)) hwn
    rw [Live.wireUpdate_trips cl hl hc hoff rfl rfl ht, hwn, Option.map_some]
    generalize l.wireHot n _ _ = h at kl kp km hhw ⊢
    have hch : h.ch n = l.ch n := Live.ch_congr (congrArg LoadState.ch kl) n
    have hlen : n < h.load.ch.length := by
      rw [kl]
      exact hn
    have hoff' : h.offThisFrame n = none := by
      rw [Live.offThisFrame, kp, km]
      exact ho
    rw [Live.wireTrip_latches _ (by rw [hch]; exact hc) (by rw [hch]; exact hr) hoff',
      Live.latchCh_ch _ (by rw [Live.loadEvent_ch, Live.loadOff_length]; exact hlen), Live.ch_congr (Live.loadEvent_ch ..),
      Live.loadOff_ch _ _ hlen]
    refine ⟨rfl, rfl, rfl, ?_⟩
    unfold Live.latchCh
    rw [Live.loadEvent_ledger, Live.setCh_ledger]
    show ((h.loadOff n _ _).loadEvent n 10).ledger.wires[n]? = _
    rw [Live.loadEvent_ledger]
    exact hhw
  · refine congrArg Host.Outcome.next ((s.onLogic_running _ hp).trans (congrArg (fun l => { s with live := l }) ?_))
    exact if_neg (by rw [hs, decide_eq_false (Nat.not_lt.mpr hf)]; decide)
  · refine congrArg Host.Outcome.next ((s.onLogic_running _ hp).trans (congrArg (fun l => { s with live := l }) ?_))
    exact if_neg (by rw [hs, decide_eq_false (Nat.not_lt.mpr ht), decide_eq_false (Nat.not_le.mpr hi), hx]; decide)
  · exact congrArg Host.Outcome.next ((s.onLogic_running _ hp).trans
      (congrArg (fun l => { s with live := l }) (shedLevelEntry_enters hf ho hq hl hs)))
  · refine congrArg Host.Outcome.next ((s.onLogic_running _ hp).trans (congrArg (fun l => { s with live := l }) ?_))
    exact if_pos (by rw [hf, hl, hs, decide_eq_true ht]; rfl)
  · refine congrArg Host.Outcome.next ((s.onLogic_running _ hp).trans (congrArg (fun l => { s with live := l }) ?_))
    exact (if_pos (by rw [hf, hl, hs, decide_eq_true ht]; rfl)).trans (shedOne_sheds hn hc)
  · exact congrArg Host.Outcome.next ((s.onLogic_running _ hp).trans
      (congrArg (fun l => { s with live := l }) (shedStepBack_releases hf hl hs hu hq)))
  · obtain ⟨h0, h1, h2, h4, h5, h6, h7, h7', h8, h10, h11, h12, h6'⟩ := hf
    refine congrArg Host.Outcome.next ((State.command_ends h _).trans (congrArg (s.ends m) ?_))
    unfold ledgerWire
    dsimp only
    rw [checked_pass (by simp [h0, h1, h2, h4, h5, h6, h7, h7', h8, h10, h11, h12, h6']),
      if_neg (by rw [hi, bne_eq_false_iff_eq.mpr hl]; decide)]
    rfl
  · obtain ⟨h0, h1, h2, h4, h5, h6, h7, h7', h8, h10, h11, h12, h6'⟩ := hf
    refine congrArg Host.Outcome.next (State.command_answer h ?_)
    unfold ledgerWire
    dsimp only
    rw [checked_pass (by simp [h0, h1, h2, h4, h5, h6, h7, h7', h8, h10, h11, h12, h6']),
      if_pos (by rcases hx with hx | hx <;> simp [hx])]
    rfl
  · refine congrArg Host.Outcome.next ((State.command_ends h _).trans (congrArg (s.ends m) ?_))
    unfold ledgerConfig
    dsimp only
    rw [checked_pass (by simp [h0, h2, h3, h4, h6])]
    rfl
  · refine ⟨_, congrArg Host.Outcome.next (State.command_answer h (checked_pass (by simp [h0, h1, h2]) _ _)), ?_, ?_, ?_⟩
    · simp only [List.append_assoc]
      rw [← List.append_assoc (le 2 (s.live.p1s / 100)), ← List.append_assoc (_ ++ _) (leInt 2 s.live.ledger.tLid)]
      exact byteAt_le_one_append (pre := le 2 (s.live.p1s / 100) ++ le 2 (s.live.pdMax / 100) ++ leInt 2 s.live.ledger.tLid)
        (by simp [leInt]) _
    · rw [List.length_append, length_flatMap_const (fun i => wireRecord_length s.live _), List.length_range]
      simp [leInt]
    · exact List.drop_left' (by simp [leInt])
end

section
/-! The VALVE commands with legal fields. -/

namespace Sys2Proof.Machine

theorem byteAt_le_one_head (n : Nat) (rest : List Byte) : byteAt (le 1 n ++ rest) 0 = n % 256 :=
  byteAt_le_one_append (pre := []) rfl rest

section
variable {m : MbRef} {b : Mailbox} {l : Live}

/-- A mask of the bits that hold, where only bit `v` can. -/
theorem maskOf_single {v : Nat} (hv : v < 12) {f : Nat → Bool} {c : Bool}
    (h : ∀ i, i < 16 → f i = (decide (i = v) && c)) : maskOf 16 f = if c then 2 ^ v else 0 := by
  have hf : maskOf 16 f = maskOf 16 fun i => decide (i = v) && c := List.foldl_ext _ _ _ fun a i hi => by
    rw [h i (List.mem_range.mp hi)]
  rw [hf]
  clear hf h
  revert c
  revert v
  decide

theorem bitsOf_single : ∀ v, v < 12 → bitsOf 12 (2 ^ v) = [v] := by decide

/-- VALVE.FIRE whose checks pass, with what an accepted one then waits for. -/
theorem valveFire_passed (hv : byteAt b.payload 0 ≤ 11) (h1 : byteAt b.payload 1 ≤ 1)
    (hx : byteAt b.payload 1 = 1 → (l.valve' (byteAt b.payload 0)).cfg.interlock ≠ 1)
    (h2 : byteAt b.payload 1 = 1 ↔ rd b.payload 2 2 ≠ 0) (h4 : rd b.payload 4 4 ≤ 55000) (hd : l.dieLost 1 = false)
    (hm : l.pwr.mode ≠ .drain) (ho : l.pwr.overvolt = false) (hs : (l.die 1).stale = false) {f : FireWait}
    (hf : f = { owner := some m, pulse := if byteAt b.payload 1 = 1 then some (rd b.payload 2 2) else none, arrived := l.mt.now,
                deadline := l.mt.now + us (if rd b.payload 4 4 = 0 then 55000 else rd b.payload 4 4), earliest := 0, tick := none,
                edge := 0, refire := false }) :
    let v := byteAt b.payload 0
    let x := l.valve' v
    valveFire m b l =
      if x.phase == .latched then (refuse .state 4, l)
      else if x.fire.isSome || !(x.phase == .idle || x.phase == .decay || x.phase == .offTime) then (refuse .state 1, l)
      else if x.cfg.interlock == 2 && !l.chimeOk v then l.gated v
      else
        let l := ((l.setValve v fun x => { x with fire := some f }).hold m).forgetDropped (.valve v)
        if x.phase == .idle && !x.decaying then (.wait, l.tryFire v)
        else if x.phase == .offTime && decide (f.deadline < x.offUntil) then (.wait, l.refuseFire v .state 2 0xFFFFFFFF)
        else (.wait, l) := by
  have hp : (if (byteAt b.payload 1 == 1) = true then some (rd b.payload 2 2) else none) =
      if byteAt b.payload 1 = 1 then some (rd b.payload 2 2) else none := by simp
  unfold valveFire
  dsimp only
  rw [checked_pass, if_neg (by rw [hd]; decide), if_neg (by rw [ho, Live.draining, beq_eq_false_iff_ne.mpr hm]; decide),
    if_neg (by rw [hs]; decide), hp, hf]
  by_cases h : byteAt b.payload 1 = 1
  · simp [hv, hx h, h, h2.mp h, h4]
  · simp [hv, h1, h, not_not.mp (mt h2.mpr h), h4]

theorem valveFire_waits {s : State} {l' : Live} (h : Waits s 0x2003 m b) (hf : valveFire m b s.live = (.wait, l')) :
    exec .valveFire s = .next { s with live := l' } := by
  simp only [exec, execValveFire, h.1, State.onLive, hf]

theorem valveFire_answers {s : State} {st : Status} {d : Nat} (h : Waits s 0x2003 m b)
    (hf : valveFire m b s.live = (refuse st d, s.live)) : exec .valveFire s = .next (s.answer m st d []) := by
  simp only [exec, execValveFire, h.1, State.onLive, hf, refuse, State.answer]

/-- VALVE.RELEASE of a valve without a fire that waits or was dropped goes by its phase alone. -/
theorem valveRelease_of_phase {ph : ValvePhase} (hv : byteAt b.payload 0 ≤ 11) (hd : l.dieLost 1 = false)
    (hf : (l.valve' (byteAt b.payload 0)).fire = none) (hdr : l.isDropped (.valve (byteAt b.payload 0)) = false)
    (hx : (l.valve' (byteAt b.payload 0)).phase = ph) :
    let v := byteAt b.payload 0
    let gates := (l.valve' v).cfg.interlock == 1 && !l.chimeOk v
    (ph = .latched → valveRelease b l = (refuse .state 4, l)) ∧
    (ph = .idle ∨ ph = .decay ∨ ph = .offTime → valveRelease b l = (refuse .state 1, l)) ∧
    (ph = .uvWait → valveRelease b l = if gates then l.gated v
      else (okReply, (l.enterPhase v .idle).setValve v fun x => { x with held := false })) ∧
    (ph = .peak ∨ ph = .hold → valveRelease b l = if gates then l.gated v else (okReply, l.releaseValve v)) := by
  have hdrop : l.dropFire (byteAt b.payload 0) = l := by rw [Live.dropFire, hf]
  unfold valveRelease
  dsimp only
  rw [checked_pass (by simp [hv]), if_neg (by rw [hd]; decide), if_neg (by rw [hf]; decide), if_neg (by rw [hdr]; decide),
    hdrop, hx]
  refine ⟨?_, ?_, ?_, ?_⟩
  · rintro rfl; rfl
  · rintro (rfl | rfl | rfl) <;> rfl
  · rintro rfl; rfl
  · rintro (rfl | rfl) <;> rfl

/-- VALVE.CLEAR of one valve. -/
theorem valveClear_single {v : Nat} (hmask : rd b.payload 0 4 = 2 ^ v) (hv : v < 12) (hd : l.dieLost 1 = false) :
    valveClear b l = (.done .ok 0 (le 4 (if (l.valve' v).phase = .latched then 2 ^ v else 0)),
      if (l.valve' v).phase = .latched then l.enterPhase v .idle else l) := by
  have hbit : ∀ i, bit (2 ^ v) i = decide (i = v) := fun i => by
    rw [bit, Nat.testBit_two_pow]
    exact decide_eq_decide.mpr eq_comm
  have hbanks : ((List.range 4).filter fun k => bit (2 ^ v) (12 + k)) = [] := by
    rw [List.filter_eq_nil_iff]
    intro k _
    rw [hbit, decide_eq_true_iff]
    omega
  have hcleared := maskOf_single hv (c := decide ((l.valve' v).phase = .latched))
    (f := fun i => bit (2 ^ v) i && if i < 12 then (l.valve' i).phase == .latched else (l.bank (i - 12)).st == .latched)
    fun i _ => by
      rw [hbit]
      by_cases hi : i = v
      · subst hi
        rw [if_pos hv]
        rfl
      · rw [decide_eq_false hi, Bool.false_and, Bool.false_and]
  have hlt : 2 ^ v < 2 ^ 17 := Nat.pow_lt_pow_right (by decide) (by omega)
  unfold valveClear
  dsimp only
  rw [hmask, checked_pass (by rw [List.all_cons, decide_eq_true hlt]; rfl), if_neg (by rw [hd]; decide), bitsOf_single v hv,
    hbanks, hcleared, hbit, decide_eq_false (Nat.ne_of_gt (by omega))]
  by_cases hx : (l.valve' v).phase = .latched <;> simp [hx]

end

end Sys2Proof.Machine

open Sys2Proof Sys2Proof.Machine

/-- Settles O31: each command's body with its checks passed, by the phase of its valve. -/
theorem valveCommands : Obligations.ValveCommands := by
  refine ⟨fun m b s h hf hd hm => ⟨fun hi => ?_, fun hi => ?_⟩, fun m b s h h0 h1 h2 h4 hr hd hm hi => ?_,
    fun m b s h hv hp hi hpl hdl hd hm ho hs => ⟨fun hx => ?_, fun hx => ?_, fun hx hdec hf hc => ?_, fun hx hf hc => ?_⟩,
    fun m b s h hv hd hf hdr => ⟨fun hx => ?_, fun hx => ?_, fun hx hc => ?_, fun hx hi hc => ?_, fun hx hc => ?_⟩,
    fun m b s h hv => ?_, fun m b s v h hmask hv hd => ?_⟩
  · refine congrArg Host.Outcome.next ((State.command_ends h _).trans (congrArg (s.ends m) ?_))
    unfold valveConfig
    dsimp only
    rw [checked_of_firstBad hf, if_neg (by rw [hd]; decide), if_neg (by rw [hi, Live.draining, beq_eq_false_iff_ne.mpr hm]; decide)]
    rfl
  · refine congrArg Host.Outcome.next (State.command_answer h ?_)
    unfold valveConfig
    dsimp only
    rw [checked_of_firstBad hf, if_neg (by rw [hd]; decide), if_pos (by rw [hi, Bool.not_false, Bool.or_true])]
    rfl
  · refine congrArg Host.Outcome.next ((State.command_ends h _).trans (congrArg (s.ends m) ?_))
    unfold valveBank
    dsimp only
    rw [checked_pass (by simp [h0, h1, h2, h4, hr]), if_neg (by rw [hd]; decide), if_neg]
    · rfl
    · rw [Live.draining, beq_eq_false_iff_ne.mpr hm, Bool.false_or, List.any_eq_true]
      rintro ⟨v, hv, hx⟩
      rw [hi v hv] at hx
      cases hx
  · exact valveFire_answers h ((valveFire_passed hv hp hi hpl hdl hd hm ho hs rfl).trans (if_pos (by rw [hx]; rfl)))
  · refine valveFire_answers h ((valveFire_passed hv hp hi hpl hdl hd hm ho hs rfl).trans ((if_neg ?_).trans (if_pos ?_)))
    all_goals rcases hx with hx | hx <;> simp [hx]
  · refine valveFire_waits h ((valveFire_passed hv hp hi hpl hdl hd hm ho hs rfl).trans ((if_neg ?_).trans
      ((if_neg ?_).trans ((if_neg ?_).trans (if_pos ?_)))))
    · rw [hx]; decide
    · simp [hx, hf]
    · simpa using hc
    · rw [hx, hdec]; rfl
  · refine valveFire_waits h ((valveFire_passed hv hp hi hpl hdl hd hm ho hs rfl).trans ((if_neg ?_).trans
      ((if_neg ?_).trans ((if_neg ?_).trans ((if_neg ?_).trans (if_neg ?_))))))
    · rcases hx with hx | ⟨hx, -⟩ <;> simp [hx]
    · rcases hx with hx | ⟨hx, -⟩ <;> simp [hx, hf]
    · simpa using hc
    · rcases hx with hx | ⟨hx, -⟩ <;> simp [hx]
    · rcases hx with hx | ⟨hx, ht⟩
      · simp [hx]
      · rw [hx, decide_eq_false (by omega)]; decide
  · exact congrArg Host.Outcome.next (State.command_answer h ((valveRelease_of_phase hv hd hf hdr rfl).2.1 hx))
  · exact congrArg Host.Outcome.next (State.command_answer h ((valveRelease_of_phase hv hd hf hdr rfl).1 hx))
  · exact congrArg Host.Outcome.next ((State.command_ends h _).trans (congrArg (s.ends m)
      (((valveRelease_of_phase hv hd hf hdr rfl).2.2.2 hx).trans (if_neg (by simpa using hc)))))
  · exact congrArg Host.Outcome.next ((State.command_ends h _).trans (congrArg (s.ends m)
      (((valveRelease_of_phase hv hd hf hdr rfl).2.2.2 hx).trans (if_pos (by simp [hi, hc])))))
  · exact congrArg Host.Outcome.next ((State.command_ends h _).trans (congrArg (s.ends m)
      (((valveRelease_of_phase hv hd hf hdr rfl).2.2.1 hx).trans (if_neg (by simpa using hc)))))
  · refine ⟨_, congrArg Host.Outcome.next (State.commandK_answer h (checked_pass (by simp [hv]) _ _)), ?_, ?_, ?_, ?_⟩
    · simp [leInt]
    · simp only [List.append_assoc]
      exact (byteAt_le_one_head _ _).trans (Nat.mod_eq_of_lt (Nat.lt_of_le_of_lt hv (by decide)))
    · simp only [List.append_assoc]
      exact byteAt_le_one_append (length_le 1 _) _
    · rw [List.append_assoc, List.append_assoc, List.append_assoc, List.append_assoc, List.append_assoc, List.append_assoc,
        List.drop_left' (by simp [leInt]), List.take_left' (length_le ..)]
  · exact congrArg Host.Outcome.next ((State.command_ends h _).trans (congrArg (s.ends m) (valveClear_single hmask hv hd)))
end

section
/-! The phases of a valve event, movement detection and landing control. -/

namespace Sys2Proof.Machine

@[simp] theorem Live.dieRaiseAt_valve (l : Live) (t d id sev c : Nat) (p : List Byte) :
    (l.dieRaiseAt t d id sev c p).valve = l.valve := by
  unfold Live.dieRaiseAt
  split <;> simp

@[simp] theorem Live.valveEvent_valve (l : Live) (v c : Nat) (p : List Byte) : (l.valveEvent v c p).valve = l.valve :=
  Live.dieRaiseAt_valve ..

@[simp] theorem Live.bankEventAt_valve (l : Live) (t b c : Nat) : (l.bankEventAt t b c).valve = l.valve :=
  Live.dieRaiseAt_valve ..

@[simp] theorem Live.changed_valve (l : Live) (src : Source) : (l.changed src).valve = l.valve := rfl

theorem Live.valve'_congr {l l' : Live} (h : l'.valve = l.valve) (v : Nat) : l'.valve' v = l.valve' v := by
  rw [Live.valve', h, Live.valve']

theorem Live.bank_congr {l l' : Live} (h : l'.valve = l.valve) (b : Nat) : l'.bank b = l.bank b := by
  rw [Live.bank, h, Live.bank]

@[simp] theorem Live.setValve_bank (l : Live) (v b : Nat) (f : Valve → Valve) : (l.setValve v f).bank b = l.bank b := rfl

@[simp] theorem Live.setBank_valve' (l : Live) (v b : Nat) (f : Bank → Bank) : (l.setBank b f).valve' v = l.valve' v := rfl

/-- A valve whose fire edge has executed at tick `u`. -/
def Valve.firedAt (x : Valve) (f : FireWait) (u : Nat) : Valve :=
  { x with phase := .peak, fire := none, fireMt := u * tickNs, phaseAt := u * tickNs, stagger := (u - f.earliest) * tickNs,
           pulse := f.pulse, held := f.pulse.isNone, fast := false, released := false, decaying := false, forcedSlow := false,
           lowOn := true, chopAt := u * tickNs, onNs := 0, det := Detector.init }

/-- The bank of a fire edge is on, and an event and a completion change neither. -/
def Live.bankFires (l : Live) (b at_ : Nat) : Live :=
  if (l.bank b).st == .off then (l.setBank b fun y => { y with st := .on }).bankEventAt at_ b 0 else l

theorem Live.bankFires_bank {l : Live} {b : Nat} (at_ : Nat) (hb : (l.bank b).st = .on ∨ (l.bank b).st = .off)
    (hk : b < l.valve.banks.length) : ((l.bankFires b at_).bank b).st = .on := by
  unfold Live.bankFires
  rcases hb with hb | hb
  · rw [if_neg (by rw [hb]; decide), hb]
  · rw [if_pos (by rw [hb]; rfl), Live.bank_congr (Live.bankEventAt_valve ..), Live.setBank_bank _ hk]

theorem Live.bankFires_valves (l : Live) (b at_ : Nat) : (l.bankFires b at_).valve.valves = l.valve.valves := by
  unfold Live.bankFires
  split
  · rw [Live.bankEventAt_valve]
    rfl
  · rfl

/-- What the fire edge reports, and the command that waited for it. -/
def Live.reportFire (l : Live) (v u : Nat) (f : FireWait) : Live :=
  let l := if f.refire then l.valveEvent v 10 (le 1 1) else l.valveEvent v 0 (le 4 ((u - f.earliest) * tickNs))
  match f.owner with
  | some m => l.complete m .ok 0 (le 8 (u * tickNs) ++ le 4 ((u - f.earliest) * tickNs))
  | none => l

theorem Live.reportFire_valve (l : Live) (v u : Nat) (f : FireWait) : (l.reportFire v u f).valve = l.valve := by
  unfold Live.reportFire
  cases f.owner <;> dsimp only <;> split <;> simp

section
variable {v : Nat} {l : Live}

/-- The fire edge executes at its tick; the bank is on from before it. -/
theorem fired_fires {f : FireWait} {u : Nat} (hv : v < l.valve.valves.length) (hf : (l.valve' v).fire = some f)
    (ht : f.tick = some u) (hu : u * tickNs ≤ l.mt.now) (ha : (l.valve' v).active = false) (hp : (l.valve' v).phase ≠ .latched)
    (hb : (l.bank (v / 3)).st = .on ∨ (l.bank (v / 3)).st = .off) (hk : v / 3 < l.valve.banks.length) :
    ((fired v l).bank (v / 3)).st = .on ∧ (fired v l).valve' v = (l.valve' v).firedAt f u := by
  have hfired : fired v l = (((l.bankFires (v / 3) (u * tickNs - us 2)).changed (.valve v)).setValve v fun x =>
      x.firedAt f u).reportFire v u f := by
    unfold fired
    dsimp only
    rw [hf]
    dsimp only
    rw [ht]
    dsimp only
    rw [if_neg]
    · rfl
    · rw [decide_eq_false (by omega), ha, beq_eq_false_iff_ne.mpr hp]
      rcases hb with hb | hb <;> rw [hb] <;> decide
  have hvalves := l.bankFires_valves (v / 3) (u * tickNs - us 2)
  rw [hfired, Live.bank_congr (Live.reportFire_valve ..), Live.valve'_congr (Live.reportFire_valve ..)]
  refine ⟨Live.bankFires_bank _ hb hk, ?_⟩
  rw [Live.setValve_valve _ (by rw [Live.changed_valve, hvalves]; exact hv), Live.valve'_congr (Live.changed_valve ..),
    Live.valve', hvalves, Live.valve']

/-- The end of a decay after a release or an ending: OFF_TIME, to the configured time. -/
theorem decayEnd_offTime {i : Nat} (hv : v < l.valve.valves.length) (hp : (l.valve' v).phase = .decay) (hi : i < 50) :
    ((decayEnd v i l).valve' v).phase = .offTime ∧
      ((decayEnd v i l).valve' v).offUntil = l.mt.now + (l.valve' v).cfg.offMin * 100000 := by
  have hquiet : ∀ (l : Live) (b : Nat), (l.bankQuiet b).valve' v = l.valve' v := fun l b => by
    unfold Live.bankQuiet
    split
    · rfl
    · exact Live.setBank_valve' ..
  unfold decayEnd
  extract_lets x ends l1 l2
  have hl1 : l1.valve' v = { x with
      phase := .offTime, phaseAt := l.mt.now, decaying := false, forcedSlow := false,
      offUntil := l.mt.now + x.cfg.offMin * 100000, i := i / 10 } := by
    have hlen : v < (l.enterPhase v .offTime).valve.valves.length := by
      rw [Live.enterPhase, Live.setValve, upd, List.length_modify]
      exact hv
    rw [show l1.valve' v = _ from Live.setValve_valve _ hlen,
      show (l.enterPhase v .offTime).valve' v = _ from Live.setValve_valve (l := l.changed (.valve v)) _ hv]
    rfl
  have hl2 : l2.valve' v = l1.valve' v := by
    unfold l2
    split
    · exact Live.valve'_congr (Live.valveEvent_valve ..) v
    · rfl
  rw [if_neg (by omega), if_pos (by rw [hp]; rfl), hquiet, hl2, hl1]
  exact ⟨rfl, rfl⟩

theorem Valve.regulate_det (x : Valve) (now i : Nat) : (x.regulate now i).det = x.det := by
  unfold Valve.regulate
  dsimp only
  split <;> rfl

theorem Valve.regulate_cfg (x : Valve) (now i : Nat) : (x.regulate now i).cfg = x.cfg := by
  unfold Valve.regulate
  dsimp only
  split <;> rfl

theorem Valve.regulate_i (x : Valve) (now i : Nat) : (x.regulate now i).i = x.i := by
  unfold Valve.regulate
  dsimp only
  split <;> rfl

theorem valveSample_unconfirmed {i : Nat} (hv : v < l.valve.valves.length) (hp : (l.valve' v).phase = .peak)
    (hr : (l.valve' v).det.regulated = false) (hl : (l.valve' v).det.land = none)
    (hc : ((l.valve' v).det.sample i).confirms (10 * (l.valve' v).cfg.dipMin) i = false) :
    let d := ((l.valve' v).det.sample i).step (10 * (l.valve' v).cfg.dipMin) (l.valve' v).det.count i
    (valveSample v i l).host = l.host ∧ ((valveSample v i l).valve' v).i = i / 10 ∧
      ((valveSample v i l).valve' v).det = { d with regulated := decide (100 * (l.valve' v).cfg.ipeak ≤ i) } := by
  unfold valveSample
  extract_lets d0 x l1 dip t d1 found d l2
  rw [if_neg (by rw [hp, hr, hl]; decide), if_neg (by rw [show found = false from hc]; decide)]
  have hl1 : l1.valve' v = { x.regulate l.mt.now i with i := i / 10 } := Live.setValve_valve _ hv
  have hlen : v < l1.valve.valves.length := by
    rw [show l1 = l.setValve v _ from rfl, Live.setValve, upd, List.length_modify]
    exact hv
  refine ⟨rfl, ?_⟩
  rw [show l2.valve' v = _ from Live.setValve_valve _ hlen, hl1]
  dsimp only
  split
  · rw [Valve.regulate_det, Valve.regulate_i, Valve.startPeriod]
    exact ⟨rfl, by rw [Valve.regulate_cfg]⟩
  · exact ⟨rfl, by rw [Valve.regulate_cfg]⟩

/-- A chopping period in HOLD: its mean, and the length of the next one. -/
theorem chopPeriod_hold {m r : Nat} (hv : v < l.valve.valves.length) (hp : (l.valve' v).phase = .hold) :
    ((chopPeriod v m r l).valve' v).i = m / 10 ∧ ((chopPeriod v m r l).valve' v).chopNs = (l.nextChop v).2.2 ∧
      ((chopPeriod v m r l).valve' v).det = (l.valve' v).det ∧ (chopPeriod v m r l).host = l.host := by
  have hchops : (l.valve' v).chops = true := by
    rw [Valve.chops, hp]
    rfl
  unfold chopPeriod
  dsimp only
  rw [hp, if_pos hchops]
  dsimp only
  rw [Live.setValve_valve _ (by rw [Live.setValve, upd, List.length_modify]; exact hv), Live.setValve_valve _ hv]
  exact ⟨rfl, rfl, rfl, rfl⟩

/-- The end of OFF_TIME for a fire that waits for it. -/
theorem offTimeWaitEnd_tries {f : FireWait} (hf : (l.valve' v).fire = some f) (ht : f.tick = none)
    (hp : (l.valve' v).phase = .offTime) (ho : (l.valve' v).offUntil ≤ l.mt.now) (hd : (l.valve' v).decaying = false) :
    offTimeWaitEnd v l = ((l.enterPhase v .idle).setValve v Valve.takeNew).tryFire v := by
  unfold offTimeWaitEnd
  dsimp only
  rw [if_pos]
  · exact congrArg (Live.tryFire · v) (if_pos (by rw [hp, hd, decide_eq_true ho]; rfl))
  · rw [any_of_some hf (by rw [ht]; rfl), Valve.active, Valve.inEvent, hp, hd, decide_eq_true ho]
    rfl

end

end Sys2Proof.Machine

open Sys2Proof Sys2Proof.Machine

/-- Settles O32: each row's body with its conditions met, by the phase of its valve. -/
theorem valveMovement : Obligations.ValveMovement := by
  refine ⟨fun v u f s hv hf ht hu ha hp hb hk => ?_, fun v s hp hx => ?_, fun v i s hp hi => ?_, fun v p s hp hx ht => ?_,
    fun v i s hv hp hi => ?_, fun v s hp hd ho => ?_, fun v f s hf ht hp ho hd => ?_, fun b s hb hv hq => ?_,
    fun v i s hv hp hr hl hc => ?_, fun v m r s hv hp => ?_, fun v s hp hl hm hx => ?_,
    fun v p s hc hn hp hl hd ht hm hx => ?_, fun v p s hp ht hx => ?_⟩
  · obtain ⟨hbank, hvalve⟩ := fired_fires hv hf ht hu ha hp hb hk
    refine ⟨s.onLive (fired v), rfl, rfl, hbank, ?_⟩
    rw [show (s.onLive (fired v)).live.valve' v = _ from hvalve]
    exact ⟨rfl, rfl, rfl, rfl, rfl, rfl⟩
  · refine congrArg Host.Outcome.next (congrArg (fun l => { s with live := l }) ?_)
    exact if_neg (by rw [hp, decide_eq_true hx]; exact Bool.false_ne_true)
  · refine congrArg Host.Outcome.next (congrArg (fun l => { s with live := l }) ?_)
    exact if_pos (by rw [hp, decide_eq_true hi]; rfl)
  · refine congrArg Host.Outcome.next (congrArg (fun l => { s with live := l }) ?_)
    exact if_pos (by rw [hx, Valve.driven, Valve.inEvent, hp]; simp [ht])
  · exact ⟨s.onLive (decayEnd v i), rfl, rfl, decayEnd_offTime hv hp hi⟩
  · refine congrArg Host.Outcome.next (congrArg (fun l => { s with live := l }) ?_)
    exact if_pos (by rw [hp, hd, decide_eq_true ho]; rfl)
  · refine congrArg Host.Outcome.next (congrArg (fun l => { s with live := l }) (offTimeWaitEnd_tries hf ht hp ho hd))
  · refine congrArg Host.Outcome.next (congrArg (fun l => { s with live := l }) ?_)
    refine if_pos ?_
    rw [hb, decide_eq_true hq, Bool.and_true, List.any_eq_false.mpr fun w hw => by rw [hv w hw]; decide]
    rfl
  · exact ⟨s.onLive (valveSample v i), rfl, rfl, valveSample_unconfirmed hv hp hr hl hc⟩
  · exact ⟨s.onLive (chopPeriod v m r), rfl, rfl, chopPeriod_hold hv hp⟩
  · refine congrArg Host.Outcome.next (congrArg (fun l => { s with live := l }) ?_)
    exact if_pos (by rw [hp, hl, hm, decide_eq_true hx]; rfl)
  · refine congrArg Host.Outcome.next (congrArg (fun l => { s with live := l }) ?_)
    exact if_pos (by rw [hc, decide_eq_true hn, hp, hl, hd, decide_eq_true hx, ht]; simp [hm])
  · refine congrArg Host.Outcome.next (congrArg (fun l => { s with live := l }) ?_)
    exact if_pos (by rw [hp, ht]; simp [hx])
end

section
/-! Protection of valves and banks. -/

namespace Sys2Proof.Machine

/-- A bank whose valves neither fire nor wait to fire: undervoltage only reports. -/
theorem valveUv_quiet {b : Nat} {l : Live} (hu : l.pwr.uv.getD (sourceGroup (.bank b)) false = true) (hs : (l.bank b).st = .on)
    (hv : ∀ v ∈ bankValves b, (l.valve' v).fire = none ∧ (l.valve' v).active = false) :
    valveUv b l = (l.setBank b fun x => { x with st := .uvWait }).bankEvent b 5 := by
  unfold valveUv
  dsimp only
  rw [if_pos (by rw [hu, hs]; rfl)]
  have hvalve : ((l.setBank b fun x => { x with st := .uvWait }).bankEvent b 5).valve.valves = l.valve.valves :=
    (congrArg ValveState.valves (Live.bankEventAt_valve ..)).trans rfl
  generalize (l.setBank b fun x => { x with st := .uvWait }).bankEvent b 5 = l1 at hvalve
  refine List.foldlRecOn (motive := (· = l1)) _ _ rfl fun l2 h2 v hmem => ?_
  obtain ⟨hf, ha⟩ := hv v hmem
  have hx : l2.valve' v = l.valve' v := by rw [h2, Live.valve', hvalve, Live.valve']
  rw [hx, hf, show (l.valve' v).inEvent = false from (Bool.or_eq_false_iff.mp ha).1]
  exact h2

end Sys2Proof.Machine

open Sys2Proof Sys2Proof.Machine

/-- Settles O33: each row's body with its conditions met. -/
theorem valveProtection : Obligations.ValveProtection := by
  refine ⟨fun v mw s hv => ⟨fun hm => ?_, fun hm hi hf => ?_⟩, fun v i s hi hx => ?_, fun v i s hp hi hx => ?_,
    fun v tj s hi hx => ?_, fun b i vds s hb hx => ?_, fun b tj s hb hx => ?_, fun b i t s he hs hx => ?_,
    fun b s hu hs hv _ => ?_⟩ <;>
    refine congrArg Host.Outcome.next (congrArg (fun l => { s with live := l }) ?_)
  · exact if_neg (by rw [decide_eq_false (by omega), Bool.and_false, Bool.false_and]; decide)
  · exact if_pos (by rw [decide_eq_true hm, hi, hf]; rfl)
  · exact if_pos (by rw [decide_eq_true hx, hi]; rfl)
  · exact if_pos (by rw [hp, decide_eq_true hi, decide_eq_true hx]; rfl)
  · exact if_pos (by rw [decide_eq_true hx, hi]; rfl)
  · exact if_pos (by simpa [hb] using hx)
  · unfold bankThermal
    dsimp only
    rw [if_neg, if_pos]
    · rw [decide_eq_true hx]
      rcases hb with hb | hb <;> rw [hb] <;> rfl
    · rcases hb with hb | hb <;> rw [hb] <;> decide
  · exact (if_neg (by rw [he, Bool.false_and]; decide)).trans (if_pos (by rw [he, hs, decide_eq_true hx]; rfl))
  · exact valveUv_quiet hu hs hv
end

section
/-! Line slots and scan frames of the LED matrix. -/

namespace Sys2Proof.Machine

@[simp] theorem Live.dieRaise_led (l : Live) (d id sev c : Nat) (p : List Byte) : (l.dieRaise d id sev c p).led = l.led := by
  unfold Live.dieRaise Live.dieRaiseAt
  split <;> simp

/-! ### What a line slot's tests leave -/

structure LedSlotStamp where
  slot : Nat
  refreshed : List Nat
  missing : Nat
  lit : Option (Nat × List Nat)
  pSink : Nat

def LedState.slotStamp (s : LedState) : LedSlotStamp := ⟨s.slot, s.refreshed, s.missing, s.lit, s.pSink⟩

/-! ### What a scan frame's work leaves: its own count, the row currents, the shows, and what the dimming is made of -/

structure LedFrameStamp where
  frame : Nat
  frames : Nat
  rowI : Nat
  rowNow : Nat
  shows : List LedShow
  pwr : PwrState
  ledger : LedgerState

def Live.frameStamp (l : Live) : LedFrameStamp :=
  ⟨l.led.frame, l.led.frames, l.led.rowI, l.led.rowNow, l.led.shows, l.pwr, l.ledger⟩

theorem Live.frameStamp_congr {l l' : Live} (hl : l'.led = l.led) (hp : l'.pwr = l.pwr) (hg : l'.ledger = l.ledger) :
    l'.frameStamp = l.frameStamp := by
  rw [Live.frameStamp, hl, hp, hg, Live.frameStamp]

@[simp] theorem Live.raise_frameStamp (l : Live) (id sev c : Nat) (p : List Byte) : (l.raise id sev c p).frameStamp = l.frameStamp :=
  Live.frameStamp_congr (l.raise_led ..) (l.raise_pwr ..) (l.raise_ledger ..)

@[simp] theorem Live.ledDarkEvent_frameStamp (l : Live) (c : Nat) : (l.ledDarkEvent c).frameStamp = l.frameStamp :=
  Live.frameStamp_congr (l.dieRaise_led ..) (l.dieRaise_pwr ..) (l.dieRaise_ledger ..)

@[simp] theorem Live.complete_frameStamp (l : Live) (m : MbRef) (st : Status) (d : Nat) (p : List Byte) :
    (l.complete m st d p).frameStamp = l.frameStamp :=
  Live.frameStamp_congr (l.complete_led ..) (l.complete_pwr ..) (l.complete_ledger ..)

/-- A test's outcome moves its run, and after three its fault. -/
theorem Live.ledTest_stamps (l : Live) (k i : Nat) (b : Bool) :
    (l.ledTest k i b).led.slotStamp = l.led.slotStamp ∧ (l.ledTest k i b).frameStamp = l.frameStamp := by
  unfold Live.ledTest
  dsimp only
  split
  · exact ⟨rfl, rfl⟩
  · split
    · exact ⟨rfl, rfl⟩
    · exact ⟨(congrArg LedState.slotStamp (Live.raise_led ..)).trans rfl, (Live.raise_frameStamp ..).trans rfl⟩

theorem Live.ledTests_slotStamp {α : Type} (f : Live → α → Live) (h : ∀ l x, ∃ k i b, f l x = l.ledTest k i b) (xs : List α)
    (l : Live) : (xs.foldl f l).led.slotStamp = l.led.slotStamp := by
  refine List.foldlRecOn (motive := fun l' : Live => l'.led.slotStamp = l.led.slotStamp) _ _ rfl fun l' hl x _ => ?_
  obtain ⟨k, i, b, hx⟩ := h l' x
  rw [hx, (l'.ledTest_stamps k i b).1, hl]

theorem Live.slotTests_slotStamp (l : Live) (d : SlotData) (row : Nat) : (l.slotTests d row).led.slotStamp = l.led.slotStamp := by
  have hrow : ∀ (l : Live) (f : LedState → LedState) (a b : Bool), (∀ s, (f s).slotStamp = s.slotStamp) →
      (((l.ledTest 5 row a).ledTest 6 row b).setLed f).led.slotStamp = l.led.slotStamp := fun l f a b hf =>
    (hf _).trans (((l.ledTest 5 row a).ledTest_stamps 6 row b).1.trans (l.ledTest_stamps 5 row a).1)
  unfold Live.slotTests
  extract_lets v cfg pre l1 l2 o l3 l4 l5 out
  have h1 : l1.led.slotStamp = l.led.slotStamp := Live.ledTests_slotStamp _ (fun l x => ⟨_, _, _, rfl⟩) _ l
  have h2 : l2.led.slotStamp = l1.led.slotStamp := Live.ledTests_slotStamp _ (fun l x => ⟨_, _, _, rfl⟩) _ l1
  have h5 : l5.led.slotStamp = l.led.slotStamp := (hrow l2 _ _ _ fun _ => rfl).trans (h2.trans h1)
  split
  · exact h5
  · exact h5

/-! ### What a scan frame's work leaves -/

theorem Live.frameStamp_foldl {α : Type} {f : Live → α → Live} (h : ∀ l x, (f l x).frameStamp = l.frameStamp) (xs : List α)
    (l : Live) : (xs.foldl f l).frameStamp = l.frameStamp :=
  List.foldlRecOn (motive := fun l' : Live => l'.frameStamp = l.frameStamp) _ _ rfl fun l' hl x _ => (h l' x).trans hl

theorem Live.judgeProbe_frameStamp (l : Live) : l.judgeProbe.frameStamp = l.frameStamp := by
  unfold Live.judgeProbe
  dsimp only
  refine (Live.frameStamp_foldl (fun l r => Live.frameStamp_foldl (fun l c => ?_) _ _) _ _).trans ?_
  · exact (Live.ledTest_stamps ..).2.trans (Live.ledTest_stamps ..).2
  · split
    · exact Live.frameStamp_foldl (fun l c => (Live.ledTest_stamps ..).2) _ _
    · rfl

theorem Live.headroom_frameStamp (l : Live) : l.headroom.frameStamp = l.frameStamp := by
  unfold Live.headroom
  refine Live.frameStamp_foldl (fun l k => ?_) _ _
  dsimp only
  split
  · rfl
  · exact (Live.raise_frameStamp ..).trans rfl

theorem Live.keepPatina_frameStamp (l : Live) (o : Option MbRef) (r : List Byte) : (l.keepPatina o r).frameStamp = l.frameStamp := by
  unfold Live.keepPatina
  refine Live.frameStamp_foldl (fun l k => ?_) _ _
  split <;> rfl

theorem Live.buildPatina_frameStamp (l : Live) : l.buildPatina.frameStamp = l.frameStamp := by
  unfold Live.buildPatina
  split <;> rfl

theorem Live.endMeasure_frameStamp (l : Live) (vf : List Nat) : (l.endMeasure vf).frameStamp = l.frameStamp := by
  unfold Live.endMeasure
  split
  · rfl
  · extract_lets l1 sweep l2 old l3 l4
    have h1 : l1.frameStamp = l.frameStamp := rfl
    have h4 : l4.frameStamp = l1.frameStamp := rfl
    have hsweep : ∀ (l : Live) (c : Nat), (sweep l c).frameStamp = l.frameStamp := fun l c => l.raise_frameStamp ..
    clear_value sweep l4 l1
    split
    · exact (hsweep ..).trans h1
    · rw [Live.buildPatina_frameStamp, hsweep, Live.keepPatina_frameStamp, Live.headroom_frameStamp, h4, h1]

theorem Live.commitDone_frameStamp (l : Live) (c : LedCommit) : (l.commitDone c).frameStamp = l.frameStamp := by
  unfold Live.commitDone
  split
  · exact Live.complete_frameStamp ..
  · rfl

theorem Live.swapTables_frameStamp (l : Live) (at_ : Nat) : (l.swapTables at_).frameStamp = l.frameStamp := by
  unfold Live.swapTables
  split
  · split
    · refine (Live.buildPatina_frameStamp _).trans ?_
      split
      · exact (Live.commitDone_frameStamp ..).trans ((Live.raise_frameStamp ..).trans rfl)
      · exact (Live.raise_frameStamp ..).trans rfl
    · rfl
  · rfl

theorem Live.rowsStand_frameStamp (l : Live) : l.rowsStand.frameStamp = l.frameStamp := by
  unfold Live.rowsStand
  split
  · split <;> rfl
  · unfold Live.dropSlot
    dsimp only
    split <;> rfl

theorem Live.applyShow_frameStamp (l : Live) (w : LedShow) : (l.applyShow w).frameStamp = l.frameStamp := by
  unfold Live.applyShow
  extract_lets was l1 l2 l3
  have h1 : l1.frameStamp = l.frameStamp := rfl
  have h3 : l3.frameStamp = l.frameStamp := by
    unfold l3
    split
    · exact (Live.rowsStand_frameStamp _).trans h1
    · exact (Live.raise_frameStamp ..).trans ((Live.rowsStand_frameStamp _).trans h1)
  split
  · exact (Live.complete_frameStamp ..).trans h3
  · exact h3

theorem Live.ledVledBack_frameStamp (l : Live) : l.ledVledBack.frameStamp = l.frameStamp := by
  unfold Live.ledVledBack
  split
  · rfl
  · dsimp only
    split
    · rfl
    · exact (Live.ledDarkEvent_frameStamp ..).trans rfl

/-- The dimming is made of the supplies and the ledger alone. -/
theorem Live.ledDim_congr {l l' : Live} (h : l'.frameStamp = l.frameStamp) : l'.ledDim = l.ledDim := by
  rw [Live.ledDim, Live.ledDim, show l'.pwr = l.pwr from congrArg LedFrameStamp.pwr h,
    show l'.ledger = l.ledger from congrArg LedFrameStamp.ledger h]

/-- A scan frame begins: its count, the row currents of the last, the dimming of now, and the shows that are not yet due. -/
theorem scanFrame_begins {l : Live} (vf : List Nat) (hp : l.sup.phase = .running) (hf : l.led.frame < l.mt.now / l.led.period) :
    (scanFrame vf l).frameStamp = ⟨l.mt.now / l.led.period, l.led.frames + 1, l.led.rowNow, 0,
      l.led.shows.filter fun w => decide (l.mt.now / l.led.period * l.led.period < w.at_), l.pwr, l.ledger⟩ ∧
    (scanFrame vf l).led.dim = l.ledDim := by
  unfold scanFrame
  extract_lets f boundary l1 l2 l3 due l4 l5 l6 l7 l8 measures
  rw [if_neg (by rw [hp, decide_eq_false (by omega)]; decide)]
  have h1 : l1.frameStamp = l.frameStamp := Live.judgeProbe_frameStamp l
  have h2 : l2.frameStamp = { l1.frameStamp with
      frame := f, frames := l1.frameStamp.frames + 1, rowI := l1.frameStamp.rowNow, rowNow := 0 } := rfl
  have h3 : l3.frameStamp = l2.frameStamp := (Live.swapTables_frameStamp ..).trans (Live.endMeasure_frameStamp ..)
  have h4 : l4.frameStamp = { l3.frameStamp with
      shows := l3.frameStamp.shows.filter fun w => decide (boundary < w.at_) } := rfl
  have h5 : l5.frameStamp = l4.frameStamp := Live.frameStamp_foldl Live.applyShow_frameStamp _ _
  have h6 : l6.frameStamp = l5.frameStamp := Live.ledVledBack_frameStamp _
  have h8 : l8.frameStamp = l6.frameStamp := by
    unfold l8
    split
    · split
      · rfl
      · exact (Live.ledDarkEvent_frameStamp ..).trans rfl
    · rfl
  clear_value l1 l2 l3 l4 l5 l6 l8
  have hl : l8.frameStamp = { l.frameStamp with
      frame := f, frames := l.led.frames + 1, rowI := l.led.rowNow, rowNow := 0,
      shows := l.led.shows.filter fun w => decide (boundary < w.at_) } := by
    rw [h8, h6, h5, h4, h3, h2, h1]
    rfl
  refine ⟨hl, ?_⟩
  show l8.ledDim = l.ledDim
  rw [Live.ledDim, Live.ledDim, show l8.pwr = l.pwr from congrArg LedFrameStamp.pwr hl,
    show l8.ledger = l.ledger from congrArg LedFrameStamp.ledger hl]

/-- The first slot of a row from `k` on lies within one frame. -/
theorem next_slot (k : Nat) {row n : Nat} (h : row < n) :
    (k + (row + n - k % n) % n) % n = row ∧ k ≤ k + (row + n - k % n) % n ∧ k + (row + n - k % n) % n < k + n := by
  have hn : 0 < n := by omega
  have hlt : k % n < n := Nat.mod_lt k hn
  refine ⟨?_, Nat.le_add_right .., Nat.add_lt_add_left (Nat.mod_lt _ hn) k⟩
  have hk := Nat.div_add_mod k n
  rw [Nat.add_mod_mod, show k + (row + n - k % n) = row + n * (k / n + 1) by rw [Nat.mul_add]; omega, Nat.add_mul_mod_self_left,
    Nat.mod_eq_of_lt h]

/-- A refresh counts for the next slot of its row, if it comes 20 us before it. -/
theorem lineRefresh_next {row : Nat} {l : Live} (ho : (l.die 1).orphan = false) (hp : l.sup.phase = .running)
    (hr : row < max 1 l.led.cfg.rows) :
    ∃ slot, slot % max 1 l.led.cfg.rows = row ∧ l.mt.now / slotNs < slot ∧ slot ≤ l.mt.now / slotNs + max 1 l.led.cfg.rows ∧
      (slot * slotNs < l.mt.now + us 20 → lineRefresh row l = l) ∧
      (l.mt.now + us 20 ≤ slot * slotNs → lineRefresh row l =
        l.setLed fun x => { x with refreshed := x.refreshed.filter (· != slot) ++ [slot] }) := by
  obtain ⟨hmod, hge, hlt⟩ := next_slot (l.mt.now / slotNs + 1) hr
  refine ⟨_, hmod, hge, Nat.lt_succ_iff.mp (by omega), fun h => if_pos (by rw [decide_eq_true h, Bool.or_true]), fun h => if_neg ?_⟩
  rw [ho, hp, decide_eq_false (Nat.not_le.mpr hr), decide_eq_false (Nat.not_lt.mpr h)]
  decide

/-- The measurement interval has been shown: the counting starts anew and a measurement is due. -/
theorem measIntervalExpiry_due {l : Live} (hc : l.led.cfg.patina = true) (hs : l.led.shown = true)
    (hx : l.led.cfg.measInterval * 1000000000 ≤ l.led.shownNs + (l.mt.now - l.led.shownAt)) :
    measIntervalExpiry l = l.countShown.setLed fun s => { s with shownNs := 0, measDue := some (s.measDue.getD l.mt.now) } := by
  have hn : l.countShown.led.shownNs = l.led.shownNs + (l.mt.now - l.led.shownAt) := if_pos hs
  unfold measIntervalExpiry
  dsimp only
  rw [if_pos (by rw [hc, hn, decide_eq_true hx]; rfl)]

theorem mem_filter_lt {xs : List Nat} {n x : Nat} (h : x ∈ xs.filter fun y => decide (n < y)) : n < x :=
  of_decide_eq_true (List.mem_filter.mp h).2

section
variable {d : SlotData} {l : Live}

/-- A new line slot counts itself and drops the refreshes that are over. -/
theorem lineSlot_counts (hs : l.led.slot < l.mt.now / slotNs) : (lineSlot d l).led.slot = l.mt.now / slotNs ∧
    (lineSlot d l).led.refreshed = l.led.refreshed.filter fun x => decide (l.mt.now / slotNs < x) := by
  unfold lineSlot
  extract_lets slot row here l1 l2 l3 l4 l5
  rw [if_neg (by omega)]
  split
  · exact ⟨rfl, rfl⟩
  · split
    · split
      · rw [show ((l2.setLed fun s => { s with darkRefresh := true }).ledDarkEvent 1).led = _ from Live.dieRaise_led ..]
        exact ⟨rfl, rfl⟩
      · exact ⟨rfl, rfl⟩
    · split
      · exact ⟨rfl, rfl⟩
      · have h := Live.slotTests_slotStamp l4 d row
        exact ⟨congrArg LedSlotStamp.slot h, congrArg LedSlotStamp.refreshed h⟩

theorem lineSlot_blank (hs : l.led.slot < l.mt.now / slotNs) (hx : l.led.shown = false) :
    (lineSlot d l).led.lit = none ∧ (lineSlot d l).led.missing = l.led.missing := by
  unfold lineSlot
  extract_lets slot row here l1 l2 l3 l4 l5
  rw [if_neg (by omega), if_pos (by rw [show l1.led.shown = l.led.shown from rfl, hx]; rfl)]
  exact ⟨rfl, rfl⟩

theorem lineSlot_unrefreshed (hs : l.led.slot < l.mt.now / slotNs) (hx : l.led.shown = true)
    (hr : l.mt.now / slotNs ∉ l.led.refreshed) :
    (lineSlot d l).led.lit = none ∧ (lineSlot d l).led.missing = l.led.missing + 1 ∧ (lineSlot d l).led.present = 0 ∧
      (1 ≤ l.led.missing → (lineSlot d l).led.darkRefresh = true) := by
  unfold lineSlot
  extract_lets slot row here l1 l2 l3 l4 l5
  rw [if_neg (by omega), if_neg (by rw [show l1.led.shown = l.led.shown from rfl, hx]; decide),
    if_pos (by rw [show here = false from Bool.eq_false_iff.mpr (mt List.contains_iff_mem.mp hr)]; rfl)]
  have h2 : 1 ≤ l.led.missing → 2 ≤ l2.led.missing := Nat.succ_le_succ
  split
  · rw [show ((l2.setLed fun s => { s with darkRefresh := true }).ledDarkEvent 1).led = _ from Live.dieRaise_led ..]
    exact ⟨rfl, rfl, rfl, fun _ => rfl⟩
  · rename_i h
    refine ⟨rfl, rfl, rfl, fun hm => ?_⟩
    simpa [h2 hm] using h

theorem lineSlot_lit (hs : l.led.slot < l.mt.now / slotNs) (hx : l.led.shown = true) (hr : l.mt.now / slotNs ∈ l.led.refreshed)
    (hd : l.led.dark = false) (ho : ∀ x ∈ l.led.rowOff, x.1 ≠ l.mt.now / slotNs % max 1 l.led.cfg.rows) :
    (lineSlot d l).led.missing = 0 ∧ (lineSlot d l).led.pSink = d.sink10mw ∧ (lineSlot d l).led.lit = if d.limit then none
      else some (l.mt.now / slotNs % max 1 l.led.cfg.rows, l.led.lineTicks (l.mt.now / slotNs % max 1 l.led.cfg.rows)) := by
  unfold lineSlot
  extract_lets slot row here l1 l2 l3 l4 l5
  rw [if_neg (by omega), if_neg (by rw [show l1.led.shown = l.led.shown from rfl, hx]; decide),
    if_neg (by rw [show here = true from List.contains_iff_mem.mpr hr]; decide), if_neg]
  · have h := Live.slotTests_slotStamp l4 d row
    exact ⟨congrArg LedSlotStamp.missing h, congrArg LedSlotStamp.pSink h, congrArg LedSlotStamp.lit h⟩
  · rw [show l3.led.dark = l.led.dark from rfl, hd, Bool.false_or, List.any_eq_true]
    rintro ⟨x, hmem, hrow⟩
    exact ho x hmem (beq_iff_eq.mp hrow)

end

end Sys2Proof.Machine
open Sys2Proof Sys2Proof.Machine

/-- Settles O34: each row's body with its conditions met. -/
theorem ledScan : Obligations.LedScan := by
  refine ⟨fun row s ho hp hr => ?_, fun d s hs => ?_, fun vf s hp hf => ?_, fun row t bad s hx ht hd => ?_,
    fun x xs s hp hb hx => ?_, fun s hp hc hs hx => ?_⟩
  · obtain ⟨slot, hmod, hlt, hle, hlate, hin⟩ := lineRefresh_next ho hp hr
    refine ⟨slot, s.onLive (lineRefresh row), rfl, hmod, hlt, hle, fun h => congrArg (fun l => { s with live := l }) (hlate h),
      fun h => ?_⟩
    have hl := congrArg (fun l => { s with live := l }) (hin h)
    rw [show s.onLive (lineRefresh row) = _ from hl]
    exact ⟨List.mem_append_right _ (List.mem_singleton.mpr rfl), rfl⟩
  · exact ⟨s.onLive (lineSlot d), rfl, rfl, (lineSlot_counts hs).1, fun x hx => mem_filter_lt ((lineSlot_counts hs).2 ▸ hx),
      lineSlot_blank hs, lineSlot_unrefreshed hs, lineSlot_lit hs⟩
  · obtain ⟨hs, hd⟩ := scanFrame_begins vf hp hf
    exact ⟨s.onLive (scanFrame vf), rfl, rfl, congrArg LedFrameStamp.frame hs,
      congrArg LedFrameStamp.frames hs, congrArg LedFrameStamp.rowI hs, congrArg LedFrameStamp.rowNow hs, hd,
      congrArg LedFrameStamp.shows hs⟩
  · refine congrArg Host.Outcome.next (congrArg (fun l => { s with live := l }) ?_)
    unfold rowShortRetry
    rw [hx]
    exact if_neg (by rw [decide_eq_false (by omega), hd]; decide)
  · refine congrArg Host.Outcome.next ((s.onLogic_running _ hp).trans (congrArg (fun l => { s with live := l }) ?_))
    unfold tableBuildDone
    rw [hb]
    exact if_neg (by rw [hx]; decide)
  · have hm := measIntervalExpiry_due hc hs hx
    refine ⟨_, congrArg Host.Outcome.next ((s.onLogic_running _ hp).trans (congrArg (fun l => { s with live := l }) hm)), ?_, ?_,
      ?_, ?_⟩
    all_goals rfl
end

section
/-! LED.LIGHT and the commands of the matrix with legal fields. -/

namespace Sys2Proof.Machine

theorem pass_of_firstBad {cs : List (Nat × Bool)} (h : firstBad cs = none) : ∀ c ∈ cs, c.2 = true := by
  induction cs with
  | nil => exact fun _ hc => nomatch hc
  | cons c cs ih =>
    unfold firstBad at h
    intro x hx
    by_cases hc : c.2 = true
    · rw [if_pos hc] at h
      rcases List.mem_cons.mp hx with rfl | hx
      · exact hc
      · exact ih h x hx
    · rw [if_neg hc] at h
      cases h

theorem rd_le_at {pre : List Byte} {i : Nat} (h : pre.length = i) (k n : Nat) (rest : List Byte) :
    rd (pre ++ (le k n ++ rest)) i k = n % 256 ^ k := by
  rw [← h, rd_append_right, rd_le_append]

/-! ### What a frame writes -/

/-- The part of a rectangle that falls in the tile stays within one page. -/
theorem LedState.tilePart_lt {s : LedState} {x0 y0 w : Nat} {data : List Byte} (hr : s.cfg.rows ≤ 16) {e : Nat × Byte}
    (he : e ∈ s.tilePart x0 y0 w data) : e.1 < 1024 := by
  unfold LedState.tilePart at he
  obtain ⟨d, -, hd⟩ := List.mem_filterMap.mp he
  dsimp only at hd
  split at hd
  · rename_i h
    simp only [Bool.and_eq_true, decide_eq_true_eq] at h
    obtain rfl := Option.some.inj hd
    dsimp only
    omega
  · cases hd

theorem memWrites_wf (base : Nat) (es : List (Nat × Byte)) {pages : Memory} (hw : Memory.wf 0 pages = true) :
    Memory.wf 0 (es.foldl (fun m (x : Nat × Byte) => memWrite 0 m (base + x.1) x.2) pages) = true :=
  List.foldlRecOn (motive := fun m => Memory.wf 0 m = true) _ _ hw fun m hm _ _ => memWrite_wf 0 m _ _ hm

theorem memRead_memWrites (base : Nat) {es : List (Nat × Byte)} {pages : Memory} {a n : Nat} (hw : Memory.wf 0 pages = true)
    (hn : ∀ e ∈ es, e.1 < n) (ha : a < base ∨ base + n ≤ a) :
    memRead 0 (es.foldl (fun m (x : Nat × Byte) => memWrite 0 m (base + x.1) x.2) pages) a = memRead 0 pages a := by
  refine (List.foldlRecOn (motive := fun m => Memory.wf 0 m = true ∧ memRead 0 m a = memRead 0 pages a) _ _ ⟨hw, rfl⟩
    fun m hm e he => ⟨memWrite_wf 0 m _ _ hm.1, ?_⟩).2
  rw [memRead_write 0 m _ _ _ hm.1, if_neg (by have := hn e he; omega), hm.2]

/-- The pages after LED.FRAME. -/
def LedState.framed (s : LedState) (p : List Byte) : Memory :=
  if bit (byteAt p 1) 0 then (s.tilePart (rd p 2 2) (byteAt p 4) (byteAt p 5) (p.drop 8)).foldl
    (fun m (x : Nat × Byte) => memWrite 0 m (1024 * byteAt p 0 + x.1) x.2) s.pages
  else memWriteN 0 s.pages (1024 * byteAt p 0 + rd p 2 2) (p.drop 8)

theorem LedState.framed_wf {s : LedState} (p : List Byte) (hw : Memory.wf 0 s.pages = true) :
    Memory.wf 0 (s.framed p) = true := by
  unfold LedState.framed
  split
  · exact memWrites_wf _ _ hw
  · exact memWriteN_wf _ _ _ _ hw

/-- Codes checked one by one. -/
theorem all_checks_le {n : Nat} {es : List Nat} (h : ∀ e ∈ es, e ≤ n) :
    ((es.zipIdx.map fun x => (4 + 2 * x.2, decide (x.1 ≤ n))).all (·.2)) = true := by
  rw [List.all_eq_true]
  intro c hc
  obtain ⟨x, hx, rfl⟩ := List.mem_map.mp hc
  exact decide_eq_true (h _ (List.fst_mem_of_mem_zipIdx hx))

section
variable {m : MbRef} {b : Mailbox} {l : Live}

/-- The one entry of a legal LED.LIGHT names the lowest channel of its group. -/
theorem lowest_of_lightChecks {n d1 f : Nat} (hc : firstBad (l.lightChecks b.payload) = none)
    (he : lightEntries b.payload = [(n, d1, f)]) : (l.ch n).lowest = n := by
  have h := pass_of_firstBad hc
  unfold Live.lightChecks at h
  rw [he] at h
  have h0 := h (4, decide (n ≤ 47) && loadClass n == 2 && (l.ch n).lowest == n && (l.ch n).lighting && (l.ch n).cfg.freq != 0
    && true) (List.mem_append_right _ (List.mem_cons_self ..))
  simp only [Bool.and_eq_true, beq_iff_eq] at h0
  exact h0.1.1.1.2

/-- LED.LIGHT of one entry at once. -/
theorem ledLight_now {n d1 f : Nat} (hc : firstBad (l.lightChecks b.payload) = none)
    (he : lightEntries b.payload = [(n, d1, f)]) (hs : b.staged = false) :
    ledLight m b l = ((l.lightEntry (m, 0) n d1 f).2.openEntries m .statuses [(l.lightEntry (m, 0) n d1 f).1]) := by
  unfold ledLight
  dsimp only
  rw [checked_of_firstBad hc, if_neg (by rw [hs]; decide), he]
  rfl

/-- LED.LIGHT of one entry for a Strike, with room in the queue. -/
theorem ledLight_staged {n d1 f : Nat} (hc : firstBad (l.lightChecks b.payload) = none)
    (he : lightEntries b.payload = [(n, d1, f)]) (hs : b.staged = true) (hq : l.host.staged.length < 256) :
    ledLight m b l = ((l.lightStage b.seq n d1 f).2.openEntries m .statuses [some (l.lightStage b.seq n d1 f).1]) := by
  unfold ledLight
  dsimp only
  rw [checked_of_firstBad hc, if_pos hs, he, if_neg (by rw [List.length_singleton]; omega)]
  rfl

/-- A staged entry that may stand is a matter of the reservation alone. -/
theorem loadStage_reserves {n seq : Nat} {cmd : LoadCmd} {c : StagedChange} (hd : l.dieLost (sourceDie (.load n)) = false)
    (hm : l.pwr.mode ≠ .drain) (hl : (l.ch n).lowest = n) (hx : (l.ch n).latch = false) (ht : l.turnOnRefused n = none) :
    l.loadStage seq n cmd c = if l.reserveFits (.load n) (l.loadReserve n cmd).1 (l.loadReserve n cmd).2 && l.dutyFits n cmd
      then (.ok, l.stage seq c (n / 12) (l.loadReserve n cmd).1 (l.loadReserve n cmd).2) else (.budget, l) := by
  unfold Live.loadStage
  dsimp only
  rw [if_neg (by rw [hd]; decide), if_neg (by rw [hl, bne_self_eq_false, Live.draining, beq_eq_false_iff_ne.mpr hm]; decide),
    if_neg (by rw [hx, Bool.false_and]; decide), if_neg (by rw [ht, Option.isSome_none, Bool.and_false]; decide)]
  cases l.reserveFits (.load n) (l.loadReserve n cmd).1 (l.loadReserve n cmd).2 <;> cases l.dutyFits n cmd <;> rfl

theorem loadStage_opens {n seq : Nat} {cmd : LoadCmd} {c : StagedChange} (hd : l.dieLost (sourceDie (.load n)) = false)
    (hm : l.pwr.mode ≠ .drain) (hl : (l.ch n).lowest = n) (hx : (l.ch n).latch = false) (ht : l.turnOnRefused n = none) :
    (l.loadStage seq n cmd c).2.openEntries m .statuses [some (l.loadStage seq n cmd c).1] =
      if l.reserveFits (.load n) (l.loadReserve n cmd).1 (l.loadReserve n cmd).2 && l.dutyFits n cmd
      then (l.stage seq c (n / 12) (l.loadReserve n cmd).1 (l.loadReserve n cmd).2).openEntries m .statuses [some .ok]
      else l.openEntries m .statuses [some .budget] := by
  rw [loadStage_reserves hd hm hl hx ht]
  split <;> rfl

end

end Sys2Proof.Machine

open Sys2Proof Sys2Proof.Machine

/-- Settles O35: each command's body with its checks passed; a fade by its entry, a frame by what the memory reads after it. -/
theorem ledCommands : Obligations.LedCommands := by
  refine ⟨fun m b s n d1 f h hc he hs => ⟨fun hf => ?_, fun hf hd hm => ?_⟩,
    fun m b s n d1 f h hc he hs => ⟨fun hq => ?_, fun hq hd hm hx ht => ⟨fun hf => ?_, fun hf h1 => ?_⟩⟩,
    fun m b s h hc hd => ⟨fun hx => ?_, fun hx => ?_⟩, fun m b s h h3 => ⟨fun hx => ?_, fun hx => ?_⟩,
    fun m b s h hc => ⟨fun hx => ?_, fun hx hy => ?_, fun hx hy => ?_⟩,
    fun m b s h h0 hr hd => ⟨fun hm => ?_, fun hm hs hq => ?_, fun hm hs hq => ?_, fun hm hs => ?_⟩,
    fun m b s h h0 h1 h2 hr he => ?_, fun m b s h h0 h1 hr => ?_,
    fun m b s h hr => ⟨fun h0 => ?_, fun h0 hd hx hp => ?_, fun h0 hd hx => ?_, fun h0 => ?_⟩, fun m b s h => ?_,
    fun m b s h => ⟨fun hn => ?_, fun hn => ?_⟩⟩
  · refine congrArg Host.Outcome.next ((State.command_ends h _).trans (congrArg (s.ends m) ?_))
    rw [ledLight_now hc he hs, Live.lightEntry, if_pos hf]
  · refine congrArg Host.Outcome.next ((State.command_ends h _).trans (congrArg (s.ends m) ?_))
    rw [ledLight_now hc he hs, Live.lightEntry, if_neg hf, if_neg (by rw [hd]; decide), if_neg (by simpa [Live.draining] using hm)]
  · refine congrArg Host.Outcome.next (State.command_answer h ?_)
    unfold ledLight
    dsimp only
    rw [checked_of_firstBad hc, if_pos hs, he, if_pos (by rw [List.length_singleton]; omega)]
    rfl
  · refine congrArg Host.Outcome.next ((State.command_ends h _).trans (congrArg (s.ends m) ?_))
    have hl := lowest_of_lightChecks hc he
    rw [ledLight_staged hc he hs hq]
    rw [Live.lightStage]
    by_cases hz : f = 0
    · rw [if_pos hz, loadStage_opens hd hm hl hx ht, if_neg (not_not.mpr hz)]
    · rw [if_neg hz, if_pos (by simpa [hz] using hf), loadStage_opens hd hm hl hx ht, if_pos hz]
  · refine congrArg Host.Outcome.next ((State.command_ends h _).trans (congrArg (s.ends m) ?_))
    rw [ledLight_staged hc he hs hq, Live.lightStage, if_neg hf]
    rw [if_neg (by rw [h1]; decide), if_neg (by rw [hd]; decide), if_neg]
    rw [hx, Bool.or_false, Live.draining, beq_eq_false_iff_ne.mpr hm]
    decide
  · refine congrArg Host.Outcome.next (State.command_answer h ?_)
    unfold ledConfig
    dsimp only
    rw [checked_of_firstBad hc, if_neg (by rw [hd]; decide), if_pos hx]
    rfl
  · refine congrArg Host.Outcome.next ((State.command_ends h _).trans (congrArg (s.ends m) ?_))
    unfold ledConfig
    dsimp only
    rw [checked_of_firstBad hc, if_neg (by rw [hd]; decide), if_neg (by rw [hx]; decide)]
  · refine congrArg Host.Outcome.next (State.command_answer h ?_)
    unfold ledLayout
    dsimp only
    rw [checked_pass (by simp [h3]), if_pos hx]
    rfl
  · refine congrArg Host.Outcome.next ((State.command_ends h _).trans (congrArg (s.ends m) ?_))
    unfold ledLayout
    dsimp only
    rw [checked_pass (by simp [h3]), if_neg (by rw [hx]; decide)]
    rfl
  · refine congrArg Host.Outcome.next (State.command_answer h ?_)
    unfold ledFrame
    dsimp only
    rw [checked_of_firstBad hc, if_pos hx]
    rfl
  · refine congrArg Host.Outcome.next (State.command_answer h ?_)
    unfold ledFrame
    dsimp only
    rw [checked_of_firstBad hc, if_neg hx, if_pos hy]
    rfl
  · refine ⟨s.live.led.framed b.payload, congrArg Host.Outcome.next ((State.command_ends h _).trans (congrArg (s.ends m) ?_)),
      fun hw => ⟨LedState.framed_wf _ hw, fun hv a => ?_, fun hv hr a ha => ?_⟩⟩
    · unfold ledFrame
      dsimp only
      rw [checked_of_firstBad hc, if_neg hx, if_neg (by rw [hy]; decide)]
      rfl
    · rw [LedState.framed, if_neg (by rw [hv]; decide), memRead_writeN _ _ _ _ _ hw]
      refine if_congr (and_congr_right fun hle => ?_) rfl rfl
      omega
    · rw [LedState.framed, if_pos hv]
      exact memRead_memWrites _ hw (fun e he => LedState.tilePart_lt hr he) ha
  · refine congrArg Host.Outcome.next (State.command_answer h ?_)
    unfold ledShow
    dsimp only
    rw [checked_pass (by simp [h0, hr]), if_neg (by rw [hd]; decide), if_pos (by rw [Live.draining, hm]; rfl)]
    rfl
  · refine congrArg Host.Outcome.next ((State.command_ends h _).trans (congrArg (s.ends m) ?_))
    unfold ledShow
    dsimp only
    rw [checked_pass (by simp [h0, hr]), if_neg (by rw [hd]; decide), if_neg (by simpa [Live.draining] using hm), if_pos hs,
      if_neg (by omega)]
  · refine congrArg Host.Outcome.next (State.command_answer h ?_)
    unfold ledShow
    dsimp only
    rw [checked_pass (by simp [h0, hr]), if_neg (by rw [hd]; decide), if_neg (by simpa [Live.draining] using hm), if_pos hs,
      if_pos hq]
    rfl
  · refine congrArg Host.Outcome.next ((State.command_ends h _).trans (congrArg (s.ends m) ?_))
    unfold ledShow
    dsimp only
    rw [checked_pass (by simp [h0, hr]), if_neg (by rw [hd]; decide), if_neg (by simpa [Live.draining] using hm),
      if_neg (by rw [hs]; decide)]
  · refine congrArg Host.Outcome.next ((State.command_ends h _).trans (congrArg (s.ends m) ?_))
    unfold ledGamma
    dsimp only
    rw [checked_pass]
    rw [List.all_append, all_checks_le, Bool.and_true]
    · simp [h0, h1, h2, hr]
    · rintro e hmem
      obtain ⟨i, hi, rfl⟩ := List.mem_map.mp hmem
      exact he i (List.mem_range.mp hi)
  · refine congrArg Host.Outcome.next ((State.command_ends h _).trans (congrArg (s.ends m) ?_))
    unfold ledDotcor
    dsimp only
    rw [checked_pass (by simp [h0, h1, hr])]
  · refine congrArg Host.Outcome.next (State.command_answer h ?_)
    unfold ledPatina
    dsimp only
    rw [checked_pass (by simp [h0, hr]), h0]
    rfl
  · refine congrArg Host.Outcome.next ((State.command_ends h _).trans (congrArg (s.ends m) ?_))
    unfold ledPatina
    dsimp only
    rw [checked_pass (by simp [h0, hr]), h0]
    exact (if_neg (by rw [hd]; decide)).trans (if_neg (by rw [hx, hp]; decide))
  · refine congrArg Host.Outcome.next (State.command_answer h ?_)
    unfold ledPatina
    dsimp only
    rw [checked_pass (by simp [h0, hr]), h0]
    refine (if_neg (by rw [hd]; decide)).trans (if_pos ?_)
    rcases hx with hx | hx <;> rw [hx]
    · rfl
    · rw [Bool.not_false, Bool.or_true]
  · refine congrArg Host.Outcome.next ((State.command_ends h _).trans (congrArg (s.ends m) ?_))
    unfold ledPatina
    dsimp only
    rcases h0 with h0 | h0
    all_goals
      rw [checked_pass (by simp [h0, hr]), h0]
      rfl
  · refine ⟨_, congrArg Host.Outcome.next (State.command_answer h rfl), ?_, fun hx => ?_, ?_, ?_, ?_⟩
    · simp [Live.ledRecord]
    · simp only [Live.ledRecord, hx, List.append_assoc]
      exact byteAt_le_one_head _ _
    · simp only [Live.ledRecord, List.append_assoc]
      exact byteAt_le_one_append (length_le 1 _) _
    · rw [Live.ledRecord, List.append_assoc, List.append_assoc, List.append_assoc]
      exact rd_le_at (by simp) 2 _ _
    · rw [Live.ledRecord, List.append_assoc, List.append_assoc]
      exact rd_le_at (by simp) 2 _ _
  · refine congrArg Host.Outcome.next (State.command_answer h ?_)
    rw [checked, firstBad, decide_eq_false (Nat.not_lt.mpr hn)]
    rfl
  · refine ⟨_, congrArg Host.Outcome.next (State.command_answer h (checked_pass (by simp [hn]) _ _)), ?_, ?_⟩
    · exact rd_le_append 2 _ _
    · rw [List.length_append, length_flatMap_const (k := 4) (fun e => by simp), List.length_take, List.length_drop, length_le]
end

section
/-! Field inputs, their filters and speed; field outputs and their protection. -/

namespace Sys2Proof.Machine

/-! ### Operations that leave the field channels -/

@[simp] theorem Live.dieRaise_fio (l : Live) (d id sev c : Nat) (p : List Byte) : (l.dieRaise d id sev c p).fio = l.fio := by
  unfold Live.dieRaise Live.dieRaiseAt
  split <;> simp

@[simp] theorem Live.fioEvent_fio (l : Live) (n c f : Nat) : (l.fioEvent n c f).fio = l.fio := l.dieRaise_fio ..

@[simp] theorem Live.changed_fio (l : Live) (src : Source) : (l.changed src).fio = l.fio := rfl

@[simp] theorem Live.closeCmd_fio (l : Live) (c : OpenCmd) : (l.closeCmd c).fio = l.fio := by
  unfold Live.closeCmd
  split
  · rfl
  · exact Live.complete_fio ..

@[simp] theorem Live.entryDone_fio (l : Live) (o : Option (MbRef × Nat)) (st : Status) : (l.entryDone o st).fio = l.fio := by
  unfold Live.entryDone
  split
  · rfl
  · split
    · rfl
    · split
      · rfl
      · exact Live.closeCmd_fio ..

/-! ### Reading a field channel after an update -/

theorem Live.fioCh_congr {l l' : Live} (h : l'.fio = l.fio) (n : Nat) : l'.fioCh n = l.fioCh n := by
  rw [Live.fioCh, h, Live.fioCh]

@[simp] theorem Live.setFio_length (l : Live) (n : Nat) (f : FioCh → FioCh) : (l.setFio n f).fio.ch.length = l.fio.ch.length :=
  List.length_modify ..

/-- What an update does not touch in any channel reads as before. -/
theorem Live.setFio_same {β : Type} (g : FioCh → β) {f : FioCh → FioCh} (h : ∀ c, g (f c) = g c) (l : Live) (n k : Nat) :
    g ((l.setFio n f).fioCh k) = g (l.fioCh k) := by
  by_cases hk : k = n
  · subst hk
    by_cases hl : k < l.fio.ch.length
    · rw [Live.setFio_fioCh f hl, h]
    · rw [Live.fioCh, Live.setFio, upd, List.modify_eq_self (by omega), Live.fioCh]
  · rw [Live.setFio_fioCh_ne f hk]

section
variable {l : Live} {n : Nat}

/-- An output that a fault turns off: off, its on-time lost, and what it measures as it was. -/
theorem Live.fioFault_fioCh {k : Nat} (c : Nat) (hn : n < l.fio.ch.length) :
    ((l.fioFault n c).fioCh n).sw = .off ∧ ((l.fioFault n c).fioCh n).onAcc = 0 ∧
      ((l.fioFault n c).fioCh n).thermal = (l.fioCh n).thermal ∧ ((l.fioFault n c).fioCh k).tj = (l.fioCh k).tj := by
  unfold Live.fioFault
  extract_lets l1 c1
  have h1 : (l1.fioCh n).sw = .off ∧ (l1.fioCh n).onAcc = 0 ∧ (l1.fioCh n).thermal = (l.fioCh n).thermal ∧
      (l1.fioCh k).tj = (l.fioCh k).tj := by
    have hlen : n < (l.fioOff n).fio.ch.length := by
      unfold Live.fioOff
      rw [Live.setFio_length]
      exact hn
    rw [show l1.fioCh n = _ from Live.fioCh_congr (Live.fioEvent_fio ..) n,
      show l1.fioCh k = _ from Live.fioCh_congr (Live.fioEvent_fio ..) k, Live.setFio_fioCh _ hlen,
      Live.setFio_same FioCh.tj fun _ => by rfl]
    unfold Live.fioOff
    rw [Live.setFio_fioCh _ (show n < (l.changed (.fio n)).fio.ch.length from hn), Live.setFio_same FioCh.tj fun _ => by rfl]
    exact ⟨rfl, rfl, rfl, rfl⟩
  have hset : ∀ (l2 : Live) (f : FioCh → FioCh), l2.fio = l1.fio → (∀ x, (f x).sw = x.sw) → (∀ x, (f x).onAcc = x.onAcc) →
      (∀ x, (f x).thermal = x.thermal) → (∀ x, (f x).tj = x.tj) → ((l2.setFio n f).fioCh n).sw = .off ∧
        ((l2.setFio n f).fioCh n).onAcc = 0 ∧ ((l2.setFio n f).fioCh n).thermal = (l.fioCh n).thermal ∧
        ((l2.setFio n f).fioCh k).tj = (l.fioCh k).tj := fun l2 f h2 hs ho ht hj => by
    rw [Live.setFio_same FioCh.sw hs, Live.setFio_same FioCh.onAcc ho, Live.setFio_same FioCh.thermal ht,
      Live.setFio_same FioCh.tj hj, Live.fioCh_congr h2, Live.fioCh_congr h2]
    exact h1
  clear_value l1
  split
  · exact hset _ _ (by simp) (fun _ => rfl) (fun _ => rfl) (fun _ => rfl) (fun _ => rfl)
  · split
    · exact h1
    · split
      · unfold Live.fioLatch
        rw [Live.fioCh_congr (Live.fioEvent_fio ..), Live.fioCh_congr (Live.fioEvent_fio ..)]
        exact hset _ _ (by simp) (fun _ => rfl) (fun _ => rfl) (fun _ => rfl) (fun _ => rfl)
      · exact hset _ _ rfl (fun _ => rfl) (fun _ => rfl) (fun _ => rfl) (fun _ => rfl)

/-! ### Inputs -/

@[simp] theorem Live.evalMotion_ch (l : Live) (n : Nat) : (l.evalMotion n).fio.ch = l.fio.ch := by
  unfold Live.evalMotion
  dsimp only
  split
  · rfl
  · exact (congrArg FioState.ch (Live.dieRaise_fio ..)).trans rfl

theorem Live.fioCh_congr_ch {l l' : Live} (h : l'.fio.ch = l.fio.ch) (n : Nat) : l'.fioCh n = l.fioCh n := by
  rw [Live.fioCh, h, Live.fioCh]

/-- A decided edge of an input is at most reported. -/
theorem Live.inputEdge_fioCh (l : Live) (n : Nat) :
    ((l.inputEdge n).fioCh n).count = (l.fioCh n).count ∧ ((l.inputEdge n).fioCh n).high = (l.fioCh n).high := by
  unfold Live.inputEdge
  extract_lets c src l1
  have h1 : (l1.fioCh n).count = (l.fioCh n).count ∧ (l1.fioCh n).high = (l.fioCh n).high := by
    unfold l1
    split
    · exact ⟨rfl, rfl⟩
    · rw [Live.fioCh_congr (Live.fioEvent_fio ..), Live.setFio_same FioCh.count fun _ => by rfl,
        Live.setFio_same FioCh.high fun _ => by rfl]
      exact ⟨rfl, rfl⟩
  split
  · split <;> exact ⟨rfl, rfl⟩
  · split
    · rw [Live.fioCh_congr_ch (Live.evalMotion_ch ..)]
      exact h1
    · exact h1

theorem Live.inputEdge_reports (hn : n < l.fio.ch.length) (hr : (l.fioCh n).cfg.role = 0) (ho : (l.die 0).orphan = false) :
    ((l.inputEdge n).fioCh n).reported = (l.fioCh n).input := by
  have hs : l.inputEdge n = (l.setFio n fun c => { c with reported := c.input }).fioEvent n 0 (b2n (l.fioCh n).input) := by
    unfold Live.inputEdge
    dsimp only
    rw [hr]
    exact (if_neg (by decide)).trans (if_neg (by rw [ho]; decide))
  rw [hs, Live.fioCh_congr (Live.fioEvent_fio ..), Live.setFio_fioCh _ hn]

/-- A sample counts the filter one way, and its ends decide the state. -/
theorem fioSample_counts {raw : Bool} (hn : n < l.fio.ch.length) (hm : (l.fioCh n).cfg.mode = 1) (hp : l.fioPowered = true)
    (hf : (l.fioCh n).fresh = false) :
    let c := l.fioCh n
    let k := if raw then min (c.count + 1) c.cfg.filtN else c.count - 1
    let high := if k = c.cfg.filtN then true else if k = 0 then false else c.high
    ((fioSample n raw l).fioCh n).count = k ∧ ((fioSample n raw l).fioCh n).high = high ∧
      (high = c.high → (fioSample n raw l).host = l.host) ∧
      (high ≠ c.high → c.cfg.role = 0 → (l.die 0).orphan = false →
        ((fioSample n raw l).fioCh n).reported = (high != c.cfg.invert)) := by
  intro c k high
  have hs : fioSample n raw l = if high == c.high then l.setFio n fun c => { c with count := k, high := high }
      else (l.setFio n fun c => { c with count := k, high := high }).inputEdge n := by
    unfold fioSample
    dsimp only
    rw [if_neg (by rw [hm, hp]; decide), if_neg (by rw [hf]; decide)]
  have hset : (l.setFio n fun c => { c with count := k, high := high }).fioCh n = { c with count := k, high := high } :=
    Live.setFio_fioCh _ hn
  rw [hs]
  by_cases hh : high = c.high
  · rw [if_pos (beq_iff_eq.mpr hh), hset]
    exact ⟨rfl, rfl, fun _ => rfl, fun h => absurd hh h⟩
  · rw [if_neg (by simpa using hh), (Live.inputEdge_fioCh ..).1, (Live.inputEdge_fioCh ..).2, hset]
    refine ⟨rfl, rfl, fun h => absurd h hh, fun _ hr ho => ?_⟩
    rw [Live.inputEdge_reports (l := l.setFio n _) (by rw [Live.setFio_length]; exact hn) (by rw [hset]; exact hr) ho, hset]
    rfl

/-- Five equal outcomes in a row change WIRE_BREAK. -/
theorem wireBreakMeasure_counts {i : Nat} (hn : n < l.fio.ch.length) (hm : (l.fioCh n).cfg.mode = 1)
    (hw : (l.fioCh n).cfg.wireBreak = true) (hh : (l.fioCh n).high = false) (hp : l.fioPowered = true) :
    let c := l.fioCh n
    let low := decide (2 * i * (10 * c.cfg.rS + rinTyp c.cfg.type) < 10 * l.groupMv 4)
    (wireBreakMeasure n i l).fioCh n = if low = c.broken then { c with i := i, wbRun := 0 }
      else if c.wbRun < 4 then { c with i := i, wbRun := c.wbRun + 1 } else { c with i := i, wbRun := 0, broken := low } := by
  intro c low
  have hn1 : n < (l.setFio n fun c => { c with i := i }).fio.ch.length := by rw [Live.setFio_length]; exact hn
  unfold wireBreakMeasure
  dsimp only
  rw [if_neg (by rw [hm, hw, hh, hp]; decide)]
  by_cases hl : low = c.broken
  · rw [if_pos (beq_iff_eq.mpr hl), if_pos hl, Live.setFio_fioCh _ hn1, Live.setFio_fioCh _ hn]
  · rw [if_neg (by simpa using hl), if_neg hl]
    by_cases hk : c.wbRun < 4
    · rw [if_pos (show c.wbRun + 1 < 5 by omega), if_pos hk, Live.setFio_fioCh _ hn1, Live.setFio_fioCh _ hn]
    · rw [if_neg (show ¬c.wbRun + 1 < 5 by omega), if_neg hk]
      have hev := Live.fioCh_congr (Live.fioEvent_fio ((l.setFio n fun c => { c with i := (i : Int) }).setFio n fun c =>
        { c with wbRun := 0, broken := low }) n 1 (b2n low)) n
      rw [Live.setFio_fioCh _ hn1, Live.setFio_fioCh _ hn] at hev
      split
      · exact hev
      · exact (Live.fioCh_congr_ch (Live.evalMotion_ch ..) n).trans hev

theorem Live.motionNow_congr {l l' : Live} (hc : l'.fio.ch = l.fio.ch) (hs : l'.fio.speed = l.fio.speed)
    (hd : (l'.die 0).stale = (l.die 0).stale) : l'.motionNow = l.motionNow := by
  have hch : l'.fioCh = l.fioCh := funext (Live.fioCh_congr_ch hc)
  have hr : l'.roleInput = l.roleInput := by
    unfold Live.roleInput
    rw [hch]
  unfold Live.motionNow
  simp only [hr, hch, hs, hd]

theorem Live.dieRaise_stale (l : Live) (d k id sev c : Nat) (p : List Byte) :
    ((l.dieRaise d id sev c p).die k).stale = (l.die k).stale := by
  unfold Live.dieRaise Live.dieRaiseAt
  split
  · by_cases h : k = d
    · subst h
      by_cases hl : k < l.load.dies.length
      · rw [Live.setDie_die _ hl]
      · rw [Live.die, Live.setDie, upd, List.modify_eq_self (by omega), Live.die]
    · exact congrArg DieState.stale (upd_getD_ne _ _ h)
  · rw [Live.die, Live.raiseAt_load, Live.die]

/-- MOTION follows what the inputs and the speed give. -/
theorem Live.evalMotion_motion (l : Live) (n : Nat) : (l.evalMotion n).fio.motion = (l.evalMotion n).motionNow ∧
    (l.evalMotion n).fio.speed = l.fio.speed := by
  unfold Live.evalMotion
  extract_lets m src l1 c
  split
  · rename_i h
    exact ⟨h.symm, rfl⟩
  · rw [Live.dieRaise_fio]
    refine ⟨?_, rfl⟩
    have hm : l1.motionNow = l.motionNow := Live.motionNow_congr rfl rfl rfl
    exact hm.symm.trans (Live.motionNow_congr (congrArg FioState.ch (Live.dieRaise_fio ..))
      (congrArg FioState.speed (Live.dieRaise_fio ..)) (Live.dieRaise_stale ..)).symm

@[simp] theorem speedCompute_ch (l : Live) : (speedCompute l).fio.ch = l.fio.ch := by
  unfold speedCompute
  split
  · rfl
  · split
    · dsimp only
      split
      · exact Live.evalMotion_ch ..
      · rfl
    · exact Live.evalMotion_ch ..

theorem speedCompute_none (hp : l.fioPowered = true) (hr : l.roleInput 1 = none) :
    (speedCompute l).fio.speed = 0 ∧ (l.roleInput 2 = none → (speedCompute l).fio.motion = 0) := by
  unfold speedCompute
  rw [if_neg (by rw [hp]; decide), hr]
  dsimp only
  split
  · rename_i k hk
    exact ⟨(Live.evalMotion_motion ..).2, fun h => absurd (h.symm.trans hk) (by simp)⟩
  · exact ⟨rfl, fun _ => rfl⟩

theorem speedCompute_some (hp : l.fioPowered = true) (hr : l.roleInput 1 = some n) :
    (speedCompute l).fio.motion = (speedCompute l).motionNow ∧
      (speedCompute l).fio.speed = speedOf (max 1 (l.fioCh n).cfg.speedPpk) l.mt.now l.fio.speedEdges := by
  unfold speedCompute
  rw [if_neg (by rw [hp]; decide), hr]
  exact Live.evalMotion_motion ..

/-! ### Outputs -/

theorem Live.fioOff_fioCh (hn : n < l.fio.ch.length) : (l.fioOff n).fioCh n = { l.fioCh n with
    sw := .off, offAt := l.mt.now,
    onAcc := if (l.fioCh n).conducts then (l.fioCh n).onAcc + (l.mt.now - (l.fioCh n).onAt) else (l.fioCh n).onAcc, tests := [],
    testAt := none } :=
  Live.setFio_fioCh (l := l.changed (.fio n)) _ hn

@[simp] theorem Live.fioOff_length (l : Live) (n : Nat) : (l.fioOff n).fio.ch.length = l.fio.ch.length := by
  unfold Live.fioOff
  rw [Live.setFio_length, Live.changed_fio]

theorem Live.fioLatch_fioCh (hn : n < l.fio.ch.length) : (l.fioLatch n).fioCh n = { l.fioCh n with
    latch := true, fpend := false, rdelay := none, uvOff := false } := by
  unfold Live.fioLatch
  rw [Live.fioCh_congr (Live.fioEvent_fio ..), Live.setFio_fioCh _ (show n < (l.changed (.fio n)).fio.ch.length from hn)]
  rfl

section
variable {k i t : Nat}

/-- The current of an output reaches ILIM. -/
theorem fioOutputLimit_limits (hl : (l.fioCh k).lowest = n) (hn : n < l.fio.ch.length) (hk : k < l.fio.ch.length)
    (hs : (l.fioCh n).sw = .on) (hi : 800 ≤ i) : ((fioOutputLimit k i t l).fioCh n).sw = .limit ∧
      ((fioOutputLimit k i t l).fioCh n).limitAt = l.mt.now ∧ ((fioOutputLimit k i t l).fioCh k).i = i := by
  unfold fioOutputLimit
  rw [hl]
  extract_lets n1 l' due l1
  rw [hs]
  dsimp only
  rw [if_pos hi]
  have hn' : n < l'.fio.ch.length := by
    rw [show l' = (l.changed (.fio n)).setFio k _ from rfl, Live.setFio_length]
    exact hn
  have hn1 : l1.fioCh n = { l'.fioCh n with
      sw := .limit, limitAt := l'.mt.now, limitRaised := if due then some l'.mt.now else (l'.fioCh n).limitRaised } :=
    Live.setFio_fioCh _ hn'
  have hk1 : (l1.fioCh k).i = i := by
    rw [show l1 = l'.setFio n _ from rfl, Live.setFio_same FioCh.i fun _ => by rfl]
    exact congrArg FioCh.i (Live.setFio_fioCh (l := l.changed (.fio n)) _ hk)
  have hmt : l'.mt.now = l.mt.now := rfl
  clear_value l1 l'
  split
  · rw [Live.fioCh_congr (Live.fioEvent_fio ..), Live.fioCh_congr (Live.fioEvent_fio ..), hk1, hn1, ← hmt]
    exact ⟨rfl, rfl, rfl⟩
  · rw [hk1, hn1, ← hmt]
    exact ⟨rfl, rfl, rfl⟩

theorem fioOutputLimit_releases (hl : (l.fioCh k).lowest = n) (hn : n < l.fio.ch.length)
    (hs : (l.fioCh n).sw = .limit) (hi : i < 720) (ht : us 100 ≤ t) :
    fioOutputLimit k i t l = ((l.changed (.fio n)).setFio k fun c => { c with i := i }).setFio n fun c => { c with sw := .on } := by
  unfold fioOutputLimit
  rw [hl]
  dsimp only
  rw [hs]
  exact if_pos (by rw [decide_eq_true hi, decide_eq_true ht]; rfl)

theorem fioOverload_faults (hl : (l.fioCh k).lowest = n)
    (hx : (l.fioCh n).sw = .limit ∧ (l.fioCh n).limitAt + ms 5 ≤ l.mt.now ∨ (l.fioCh n).conducts = true ∧ 1200 < i) :
    fioOverload k i l = (l.setFio k fun c => { c with i := i }).fioFault n 5 := by
  unfold fioOverload
  rw [hl]
  refine if_pos ?_
  rcases hx with ⟨hs, ht⟩ | ⟨hc, hi⟩
  · rw [hs, decide_eq_true ht]
    rfl
  · rw [hc, decide_eq_true hi, Bool.and_true, Bool.or_true]

end

section
variable {k : Nat} {tj : Int}

theorem fioThermal_tj (hl : (l.fioCh k).lowest = n) (hn : n < l.fio.ch.length) (hk : k < l.fio.ch.length) :
    ((fioThermal k tj l).fioCh k).tj = tj := by
  have h1 : ((l.setFio k fun c => { c with tj := tj }).fioCh k).tj = tj := congrArg FioCh.tj (Live.setFio_fioCh _ hk)
  unfold fioThermal
  rw [hl]
  extract_lets n1 c l1 l2
  have h2 : (l2.fioCh k).tj = tj := (Live.setFio_same FioCh.tj (fun _ => by rfl) _ _ _).trans h1
  have hlen : n < l2.fio.ch.length := by
    rw [show l2 = (l.setFio k _).setFio n _ from rfl, Live.setFio_length, Live.setFio_length]
    exact hn
  split
  · exact h1
  · split
    · split
      · exact (Live.setFio_same FioCh.tj (fun _ => by rfl) _ _ _).trans h1
      · exact h1
    · split
      · exact h1
      · split
        · exact (Live.fioFault_fioCh 6 hlen).2.2.2.trans h2
        · exact h2

theorem fioThermal_trips (hl : (l.fioCh k).lowest = n) (hn : n < l.fio.ch.length) (hm : (l.fioCh n).cfg.mode = 2)
    (hx : (l.fioCh n).thermal = false) (ht : 1700 ≤ tj) : ((fioThermal k tj l).fioCh n).thermal = true ∧
      ((l.fioCh n).conducts = true → ((fioThermal k tj l).fioCh n).sw = .off) := by
  unfold fioThermal
  rw [hl]
  extract_lets n1 c l1 l2
  have hlen1 : n < l1.fio.ch.length := by
    rw [show l1 = l.setFio k _ from rfl, Live.setFio_length]
    exact hn
  have hlen : n < l2.fio.ch.length := by
    rw [show l2 = l1.setFio n _ from rfl, Live.setFio_length]
    exact hlen1
  have h2 : (l2.fioCh n).thermal = true := congrArg FioCh.thermal (Live.setFio_fioCh _ hlen1)
  rw [if_neg (by rw [hm]; decide), if_neg (by rw [hx]; decide), if_neg (by omega)]
  split
  · obtain ⟨hsw, -, hth, -⟩ := Live.fioFault_fioCh (l := l2) (k := k) 6 hlen
    exact ⟨hth.trans h2, fun _ => hsw⟩
  · rename_i h
    exact ⟨h2, fun hc => absurd hc h⟩

theorem fioThermal_cool (hl : (l.fioCh k).lowest = n) (hm : (l.fioCh n).cfg.mode = 2)
    (hx : (l.fioCh n).thermal = false) (ht : tj < 1700) : ((fioThermal k tj l).fioCh n).thermal = false := by
  unfold fioThermal
  rw [hl]
  dsimp only
  rw [if_neg (by rw [hm]; decide), if_neg (by rw [hx]; decide), if_pos ht, Live.setFio_same FioCh.thermal fun _ => by rfl]
  exact hx

/-- The members of a group are the same after an update that leaves the configurations. -/
theorem Live.setFio_group {f : FioCh → FioCh} (h : ∀ c, (f c).cfg = c.cfg) : (l.setFio k f).fioGroup n = l.fioGroup n := by
  unfold Live.fioGroup FioCh.members
  rw [Live.setFio_same FioCh.cfg h]

theorem fioThermal_ends (hl : (l.fioCh k).lowest = n) (hn : n < l.fio.ch.length) (hk : k < l.fio.ch.length)
    (hm : (l.fioCh n).cfg.mode = 2) (hx : (l.fioCh n).thermal = true) (ht : tj < 1500)
    (hall : ∀ j ∈ l.fioGroup n, j ≠ k → (l.fioCh j).tj < 1500) : ((fioThermal k tj l).fioCh n).thermal = false := by
  unfold fioThermal
  rw [hl]
  extract_lets n1 c l1 l2
  have hlen1 : n < l1.fio.ch.length := by
    rw [show l1 = l.setFio k _ from rfl, Live.setFio_length]
    exact hn
  rw [if_neg (by rw [hm]; decide), if_pos hx, if_pos]
  · exact congrArg FioCh.thermal (Live.setFio_fioCh (l := l1.changed (.fio n)) _ hlen1)
  · rw [List.all_eq_true]
    intro j hj
    rw [show l1.fioGroup n = _ from Live.setFio_group fun _ => by rfl] at hj
    refine decide_eq_true ?_
    by_cases hjk : j = k
    · rw [hjk, show l1.fioCh k = _ from Live.setFio_fioCh _ hk]
      exact ht
    · rw [show l1.fioCh j = _ from Live.setFio_fioCh_ne _ hjk]
      exact hall j hj hjk

theorem fioThermal_holds (hl : (l.fioCh k).lowest = n) (hk : k < l.fio.ch.length)
    (hm : (l.fioCh n).cfg.mode = 2) (hx : (l.fioCh n).thermal = true) (ht : 1500 ≤ tj) (hmem : k ∈ l.fioGroup n) :
    ((fioThermal k tj l).fioCh n).thermal = true := by
  unfold fioThermal
  rw [hl]
  extract_lets n1 c l1 l2
  rw [if_neg (by rw [hm]; decide), if_pos hx, if_neg]
  · exact (Live.setFio_same FioCh.thermal (fun _ => by rfl) l k n).trans hx
  · rw [List.all_eq_true]
    intro h
    have hj := of_decide_eq_true (h k (by rw [show l1.fioGroup n = _ from Live.setFio_group fun _ => by rfl]; exact hmem))
    rw [show l1.fioCh k = _ from Live.setFio_fioCh _ hk] at hj
    exact absurd hj (not_lt.mpr ht)

end

/-- Undervoltage of the group holds its outputs off. -/
theorem fioUv_holds (hn : n < l.fio.ch.length) (hm : (l.fioCh n).cfg.mode = 2) (hl : (l.fioCh n).lowest = n) :
    ((fioUv n l).fioCh n).uvhold = l.pwr.uv.getD (sourceGroup (.fio n)) false := by
  have hset : ((l.setFio n fun c => { c with uvhold := true }).fioCh n).uvhold = true := congrArg FioCh.uvhold (Live.setFio_fioCh _ hn)
  unfold fioUv
  dsimp only
  rw [if_neg (by rw [hm, hl, bne_self_eq_false n]; decide)]
  generalize l.pwr.uv.getD (sourceGroup (.fio n)) false = u
  cases u <;> cases hh : (l.fioCh n).uvhold
  · exact hh
  · exact congrArg FioCh.uvhold (Live.setFio_fioCh (l := l.changed (.fio n)) _ hn)
  · rw [if_pos (by decide)]
    split
    · rw [Live.fioCh_congr (Live.fioEvent_fio ..), Live.setFio_same FioCh.uvhold fun _ => by rfl, Live.fioOff,
        Live.setFio_same FioCh.uvhold fun _ => by rfl]
      exact hset
    · exact hset
  · exact hh

theorem fioUv_off (hn : n < l.fio.ch.length) (hm : (l.fioCh n).cfg.mode = 2) (hl : (l.fioCh n).lowest = n)
    (hu : l.pwr.uv.getD (sourceGroup (.fio n)) false = true) (hh : (l.fioCh n).uvhold = false)
    (hc : (l.fioCh n).conducts = true) : ((fioUv n l).fioCh n).sw = .off ∧ ((fioUv n l).fioCh n).uvOff = true := by
  have hlen : n < (l.setFio n fun c => { c with uvhold := true }).fio.ch.length := by
    rw [Live.setFio_length]
    exact hn
  unfold fioUv
  dsimp only
  rw [if_neg (by rw [hm, hl, bne_self_eq_false n]; decide), if_pos (by rw [hu, hh]; rfl), if_pos hc,
    Live.fioCh_congr (Live.fioEvent_fio ..), Live.setFio_fioCh _ (by rw [Live.fioOff_length]; exact hlen), Live.fioOff_fioCh hlen]
  exact ⟨rfl, rfl⟩

/-- After the silence an output takes its safe value; a safe ON waits for the die's own turn-on. -/
theorem fioSilence_safe (hn : n < l.fio.ch.length) (hm : (l.fioCh n).cfg.mode = 2) (hl : (l.fioCh n).lowest = n)
    (ho : (l.die 0).orphan = true) (hs : (l.fioCh n).safe = false) (ht : (l.die 0).lastHb + ms (l.fioCh n).cfg.silenceMs ≤ l.mt.now) :
    ((fioSilence n l).fioCh n).safe = true ∧
      ((l.fioCh n).cfg.safeOn = true → (l.fioCh n).latch = false → ((fioSilence n l).fioCh n).cmd = true ∧
        ((fioSilence n l).fioCh n).sw = (l.fioCh n).sw) ∧
      ((l.fioCh n).cfg.safeOn = false → ((fioSilence n l).fioCh n).cmd = false ∧ ((fioSilence n l).fioCh n).conducts = false) := by
  have hset : (l.setFio n fun c => { c with safe := true }).fioCh n = { l.fioCh n with safe := true } := Live.setFio_fioCh _ hn
  have hlen : n < (l.setFio n fun c => { c with safe := true }).fio.ch.length := by
    rw [Live.setFio_length]
    exact hn
  unfold fioSilence
  dsimp only
  rw [if_neg]
  · generalize (l.setFio n fun c => { c with safe := true }) = l1 at hset hlen
    split
    · rename_i hon
      rw [Live.setFio_fioCh _ hlen, hset]
      exact ⟨rfl, fun _ hx => ⟨by rw [hx]; rfl, rfl⟩, fun h => absurd (hon.symm.trans h) (by decide)⟩
    · rename_i hon
      split
      · rw [Live.fioCh_congr (Live.fioEvent_fio ..), Live.setFio_fioCh _ (by rw [Live.fioOff_length]; exact hlen),
          Live.fioOff_fioCh hlen, hset]
        exact ⟨rfl, fun h => absurd h hon, fun _ => ⟨rfl, rfl⟩⟩
      · rename_i hc
        rw [Live.setFio_fioCh _ hlen, hset]
        exact ⟨rfl, fun h => absurd h hon, fun _ => ⟨rfl, Bool.eq_false_iff.mpr hc⟩⟩
  · rw [hm, hl, ho, hs, bne_self_eq_false n, decide_eq_false (by omega)]
    decide

end

end Sys2Proof.Machine
open Sys2Proof Sys2Proof.Machine

/-- Settles O36: each row's body with its conditions met, by what it leaves in the channel. -/
theorem fieldIo : Obligations.FieldIo := by
  refine ⟨fun n raw s hn hm hp => ?_, fun n i s hn hm hw hh hp => ?_, fun s hp => ?_, ?_, ?_, ?_, ?_,
    fun n s hn hm hl => ?_, fun n i t s hn ho hs hl ht => ?_, fun n s hn hm hl ho hs ht => ?_⟩
  · refine ⟨s.onLive (fioSample n raw), rfl, rfl, fun hf => ?_, fun hf => fioSample_counts hn hm hp hf⟩
    have hs : fioSample n raw s.live = s.live.setFio n _ := (if_neg (by rw [hm, hp]; decide)).trans (if_pos hf)
    rw [State.onLive, hs, Live.setFio_fioCh _ hn]
    exact ⟨rfl, rfl, rfl⟩
  · have hc := wireBreakMeasure_counts (i := i) hn hm hw hh hp
    refine ⟨s.onLive (wireBreakMeasure n i), rfl, rfl, ?_⟩
    rw [State.onLive, hc]
    refine ⟨?_, fun h => ?_, fun h hk => ?_, fun h hk => ?_⟩
    · split
      · rfl
      · split <;> rfl
    · rw [if_pos h]
      exact ⟨rfl, rfl⟩
    · rw [if_neg h, if_pos hk]
      exact ⟨rfl, rfl⟩
    · rw [if_neg h, if_neg (by omega)]
      exact ⟨rfl, rfl⟩
  · exact ⟨s.onLive speedCompute, rfl, rfl, speedCompute_ch _, fun h => (speedCompute_none hp h).1, fun n h => speedCompute_some hp h,
      fun h => (speedCompute_none hp h).2⟩
  · intro k i t s n c hn hk
    refine ⟨fun hs hi => ⟨s.onLive (fioOutputLimit k i t), rfl, rfl, fioOutputLimit_limits rfl hn hk hs hi⟩, fun hs hi ht => ?_⟩
    have hx := fioOutputLimit_releases rfl hn hs hi ht
    refine ⟨s.onLive (fioOutputLimit k i t), rfl, rfl, ?_⟩
    rw [State.onLive, hx]
    exact ⟨congrArg FioCh.sw (Live.setFio_fioCh (l := (s.live.changed (.fio n)).setFio k _) _
      (by rw [Live.setFio_length]; exact hn)), rfl⟩
  · intro k i s n c hn hx
    have hs := fioOverload_faults (k := k) rfl hx
    refine ⟨⟨s.onLive (fioOverload k i), rfl, rfl, ?_⟩, congrArg Host.Outcome.next (congrArg (fun l => { s with live := l }) hs)⟩
    rw [State.onLive, hs]
    have hlen : n < (s.live.setFio k fun c => { c with i := i }).fio.ch.length := by
      rw [Live.setFio_length]
      exact hn
    exact ⟨(Live.fioFault_fioCh (k := k) 5 hlen).1, (Live.fioFault_fioCh (k := k) 5 hlen).2.1⟩
  · intro k tj s n c hn hk hm
    refine ⟨s.onLive (fioThermal k tj), rfl, rfl, fioThermal_tj rfl hn hk, fun ht hx => fioThermal_trips rfl hn hm hx ht,
      fun ht hx => fioThermal_cool rfl hm hx ht, fun hx ht hall => fioThermal_ends rfl hn hk hm hx ht hall,
      fun hx ht hmem => fioThermal_holds rfl hk hm hx ht hmem⟩
  · intro k e s n hn hm hp he
    have hs : fioClamp k e s.live = ((s.live.fioOff n).fioEvent n 15 1).fioLatch n :=
      if_pos (by rw [decide_eq_true hm, hp, decide_eq_true he]; rfl)
    have hc := Live.fioLatch_fioCh (l := (s.live.fioOff n).fioEvent n 15 1) (n := n)
      (by rw [Live.fioEvent_fio, Live.fioOff_length]; exact hn)
    rw [Live.fioCh_congr (Live.fioEvent_fio ..), Live.fioOff_fioCh hn] at hc
    refine ⟨s.onLive (fioClamp k e), rfl, rfl, ?_⟩
    rw [State.onLive, hs, hc]
    refine ⟨rfl, rfl, ?_⟩
    unfold FioCh.state
    dsimp only
    rw [hm]
    rfl
  · exact ⟨s.onLive (fioUv n), rfl, rfl, fioUv_holds hn hm hl, fun hu hh hc => fioUv_off hn hm hl hu hh hc⟩
  · refine ⟨fun hx => congrArg Host.Outcome.next (congrArg (fun l => { s with live := l }) (if_pos ?_)),
      fun hx => ⟨s.onLive (fioOpenOn n i t), rfl, rfl, ?_⟩⟩
    · rw [hx, beq_self_eq_true, Bool.or_true]
    · have hs : fioOpenOn n i t s.live = (s.live.setFio n fun c => { c with
          openOn := decide (i < 5 * (s.live.fioCh n).members), i := i }).fioEvent n 9 (b2n (decide (i < 5 * (s.live.fioCh n).members))) := by
        unfold fioOpenOn
        dsimp only
        rw [if_neg]
        rw [ho, hs, hl, decide_eq_false (by omega), beq_eq_false_iff_ne.mpr (Ne.symm hx), bne_self_eq_false n]
        decide
      rw [State.onLive, hs, Live.fioCh_congr (Live.fioEvent_fio ..), Live.setFio_fioCh _ hn]
      exact ⟨rfl, rfl⟩
  · exact ⟨s.onLive (fioSilence n), rfl, rfl, fioSilence_safe hn hm hl ho hs ht⟩
end

section
/-! The FIO commands with legal fields. -/

namespace Sys2Proof.Machine

/-- A mask with one bit selects that channel alone. -/
theorem bitsOf_eq_single {k mask n : Nat} (h : bitsOf k mask = [n]) : n < k ∧ ∀ i, i < k → bit mask i = decide (i = n) := by
  have hmem : ∀ i, (i < k ∧ bit mask i = true) ↔ i = n := fun i => by
    rw [← List.mem_singleton (a := i) (b := n), ← h, bitsOf, List.mem_filter, List.mem_range]
  refine ⟨((hmem n).mpr rfl).1, fun i hi => ?_⟩
  by_cases hin : i = n
  · rw [decide_eq_true hin, ((hmem i).mpr hin).2]
  · rw [decide_eq_false hin]
    exact Bool.eq_false_iff.mpr fun hb => hin ((hmem i).mp ⟨hi, hb⟩)

/-- A mask of the bits that hold, where only bit `v` does. -/
theorem maskOf_only {k v : Nat} {f : Nat → Bool} (hv : v < k) (h : ∀ i, i < k → f i = decide (i = v)) : maskOf k f = 2 ^ v := by
  have hlow : ∀ j, j ≤ v → maskOf j f = 0 := fun j hj => by
    induction j with
    | zero => rfl
    | succ j ih =>
      unfold maskOf at ih ⊢
      rw [List.range_succ, List.foldl_concat, ih (by omega), h j (by omega), decide_eq_false (by omega)]
      rfl
  induction k with
  | zero => omega
  | succ k ih =>
    unfold maskOf at ih hlow ⊢
    rw [List.range_succ, List.foldl_concat]
    by_cases hk : v = k
    · rw [hlow k (by omega), h k (by omega), hk, decide_eq_true rfl, if_pos rfl, Nat.zero_add]
    · rw [ih (by omega) (fun i hi => h i (by omega)), h k (by omega), decide_eq_false (by omega)]
      rfl

/-- Bytes of a list of records of the same length. -/
theorem byteAt_flatMap {f : Nat → List Byte} {w : Nat} (hf : ∀ i, (f i).length = w) {j : Nat} (hj : j < w) {k n : Nat} (h : n < k) :
    byteAt ((List.range k).flatMap f) (w * n + j) = byteAt (f n) j := by
  induction k with
  | zero => omega
  | succ k ih =>
    have hlen : ((List.range k).flatMap f).length = w * k := by
      rw [length_flatMap_const hf, List.length_range]
    rw [List.range_succ, List.flatMap_append, List.flatMap_singleton]
    by_cases hk : n = k
    · rw [hk, ← hlen, byteAt_append_right]
    · have hlt : w * n + j < ((List.range k).flatMap f).length := by
        rw [hlen]
        have := Nat.mul_le_mul_left w (show n + 1 ≤ k by omega)
        rw [Nat.mul_succ] at this
        omega
      rw [byteAt, List.getD_append _ _ _ _ hlt]
      exact ih (by omega)

theorem Live.fioRecord_length (l : Live) (n : Nat) : (l.fioRecord n).length = 8 := by
  simp [Live.fioRecord, leInt]

/-- The fields of FIO.STATUS: the speed, MOTION, and the records of the channels. -/
theorem fioStatus_fields (l : Live) : l.fioStatus.length = 276 ∧ rd l.fioStatus 12 2 = l.speedShown % 65536 ∧
    byteAt l.fioStatus 14 = l.fio.motion % 256 ∧ byteAt l.fioStatus 15 = 0 ∧
    ∀ n, n < 32 → byteAt l.fioStatus (20 + 8 * n) = n ∧
      byteAt l.fioStatus (21 + 8 * n) = (l.fioCh (l.fioCh n).lowest).state % 256 := by
  unfold Live.fioStatus
  refine ⟨?_, ?_, ?_, ?_, fun n hn => ?_⟩
  · rw [List.length_append, length_flatMap_const l.fioRecord_length]
    simp
  · rw [List.append_assoc, List.append_assoc, List.append_assoc, List.append_assoc, List.append_assoc]
    exact rd_le_at (by simp) 2 _ _
  · rw [List.append_assoc, List.append_assoc, List.append_assoc, List.append_assoc]
    exact byteAt_le_one_append (by simp) _
  · rw [List.append_assoc, List.append_assoc, List.append_assoc]
    exact byteAt_le_one_append (by simp) _
  · have hat : ∀ (pre : List Byte) (i j : Nat), pre.length = 20 → i = 20 + (8 * n + j) → j < 8 →
        byteAt (pre ++ (List.range 32).flatMap l.fioRecord) i = byteAt (l.fioRecord n) j := fun pre i j hp hi hj => by
      rw [hi, ← hp, byteAt_append_right, byteAt_flatMap l.fioRecord_length hj hn]
    rw [hat _ (20 + 8 * n) 0 (by simp) (by omega) (by omega), hat _ (21 + 8 * n) 1 (by simp) (by omega) (by omega), Live.fioRecord]
    simp only [List.append_assoc]
    exact ⟨(byteAt_le_one_head ..).trans (Nat.mod_eq_of_lt (by omega)), byteAt_le_one_append (length_le 1 _) _⟩

section
variable {m : MbRef} {b : Mailbox} {l : Live} {n : Nat}

theorem fioEntry_conducting {o : MbRef × Nat} {on : Bool} (ho : on = true) (hx : (l.fioCh n).state = 4 ∨ (l.fioCh n).state = 5)
    (hd : l.dieLost 0 = false) (hp : l.pwr.mode ≠ .drain) : l.fioEntry o n on = (some .ok, l.withdraw (.fio n)) := by
  unfold Live.fioEntry
  dsimp only
  rw [if_neg (by rw [hd]; decide), if_neg (by simpa [Live.draining] using hp)]
  rcases hx with hx | hx <;> rw [hx] <;> exact if_pos ho

theorem fioEntry_latched {o : MbRef × Nat} {on : Bool} (ho : on = true) (hx : (l.fioCh n).state = 8)
    (hd : l.dieLost 0 = false) (hp : l.pwr.mode ≠ .drain) : l.fioEntry o n on = (some .state, l.withdraw (.fio n)) := by
  unfold Live.fioEntry
  dsimp only
  rw [if_neg (by rw [hd]; decide), if_neg (by simpa [Live.draining] using hp), hx]
  exact if_pos ho

/-- FIO.SET of one output. -/
theorem fioSet_single (hb : bitsOf 32 (rd b.payload 0 4) = [n]) (hl : (l.fioCh n).lowest = n) (hm : (l.fioCh n).cfg.mode = 2) :
    (b.staged = false → fioSet m b l = ((l.fioEntry (m, 0) n (bit (rd b.payload 4 4) n)).2.openEntries m (.fio [n])
      [(l.fioEntry (m, 0) n (bit (rd b.payload 4 4) n)).1])) ∧
    (b.staged = true → l.host.staged.length < 256 → fioSet m b l =
      ((l.fioStage b.seq n (bit (rd b.payload 4 4) n)).2.openEntries m (.fio [n])
        [some (l.fioStage b.seq n (bit (rd b.payload 4 4) n)).1])) := by
  obtain ⟨hn, hbit⟩ := bitsOf_eq_single hb
  have hnone : ∀ p : Nat → Bool, p n = false → (List.range 32).find? (fun i => p i && bit (rd b.payload 0 4) i) = none := fun p hp => by
    rw [List.find?_eq_none]
    intro i hi
    rw [hbit i (List.mem_range.mp hi)]
    by_cases hin : i = n
    · rw [hin, hp, Bool.false_and]
      decide
    · rw [decide_eq_false hin, Bool.and_false]
      decide
  unfold fioSet
  dsimp only
  rw [hnone (fun i => (l.fioCh (l.fioCh i).lowest).cfg.mode != 2) (by rw [hl, hm]; rfl)]
  dsimp only
  rw [hnone (fun i => (l.fioCh i).lowest != i) (by rw [hl, bne_self_eq_false n]), hb]
  refine ⟨fun hs => ?_, fun hs hq => ?_⟩
  · exact (if_neg (by rw [hs]; decide)).trans rfl
  · exact (if_pos hs).trans ((if_neg (by rw [List.length_singleton]; omega)).trans rfl)

theorem fioSet_input (hb : bitsOf 32 (rd b.payload 0 4) = [n]) (hl : (l.fioCh n).lowest = n) (hm : (l.fioCh n).cfg.mode ≠ 2) :
    fioSet m b l = (refuse .badParam n, l) := by
  obtain ⟨hn, hbit⟩ := bitsOf_eq_single hb
  have hfind : (List.range 32).find? (fun i => (l.fioCh (l.fioCh i).lowest).cfg.mode != 2 && bit (rd b.payload 0 4) i) = some n := by
    cases hf : (List.range 32).find? fun i => (l.fioCh (l.fioCh i).lowest).cfg.mode != 2 && bit (rd b.payload 0 4) i with
    | none =>
      have hx := List.find?_eq_none.mp hf n (List.mem_range.mpr hn)
      rw [hl, bne_iff_ne.mpr hm, hbit n hn, decide_eq_true rfl] at hx
      exact absurd rfl hx
    | some i =>
      have hp := List.find?_some hf
      have hx := (Bool.and_eq_true_iff.mp hp).2
      rw [hbit i (List.mem_range.mp (List.mem_of_find?_eq_some hf))] at hx
      rw [of_decide_eq_true hx]
  unfold fioSet
  dsimp only
  rw [hfind]

/-- FIO.CONFIG of a channel and a group that are idle. -/
theorem fioConfig_takes (hc : firstBad (l.fioCfgChecks b) = none) (hd : l.dieLost 0 = false) (hm : l.pwr.mode ≠ .drain) :
    let n := byteAt b.payload 0
    let after := (List.range (if byteAt b.payload 1 = 2 then parMembers (byteAt b.payload 7) else 1)).map (n + ·)
    (l.fioCh n).lowest = n →
    (∀ k ∈ after ++ (List.range (l.fioCh n).members).map (n + ·), (l.fioCh (l.fioCh k).lowest).idle = true) →
    (byteAt b.payload 1 = 2 → ∀ k ∈ after, (l.fioCh k).cfg.mode = 1 → (l.fioCh k).cfg.role = 0) →
    (∀ k ∈ after, k = n ∨ (l.fioCh k).lowest = n ∨ ((l.fioCh k).lowest = k ∧ (l.fioCh k).cfg.par = 0)) →
    fioConfig m b l = (l.applyFioCfg n b.payload).endConfig m (bit (byteAt b.payload 4) 0) 0x3001 n (b.payload.take 20) := by
  intro n after hl hi ha hn
  have hfind : after.find? (fun k => k != n && (l.fioCh k).lowest != n && ((l.fioCh k).lowest != k || (l.fioCh k).cfg.par != 0)) =
      none := by
    rw [List.find?_eq_none]
    intro k hk hx
    simp only [Bool.and_eq_true, Bool.or_eq_true, bne_iff_ne] at hx
    obtain ⟨⟨hkn, hkl⟩, hx⟩ := hx
    rcases hn k hk with h | h | ⟨h, hpar⟩
    · exact hkn h
    · exact hkl h
    · exact hx.elim (· h) (· hpar)
  unfold fioConfig
  extract_lets p n' cfg after' touched
  rw [checked_of_firstBad hc, if_neg (by rw [hd]; decide), if_neg, if_neg, if_neg]
  · rw [show after' = after from rfl, show n' = n from rfl, hfind]
  · rw [Bool.and_eq_true, List.any_eq_true]
    rintro ⟨hmode, k, hk, hx⟩
    simp only [Bool.and_eq_true, beq_iff_eq, bne_iff_ne] at hx
    exact hx.2 (ha (of_decide_eq_true hmode) k hk hx.1)
  · rw [List.any_eq_true]
    rintro ⟨k, hk, hx⟩
    rw [hi k hk] at hx
    cases hx
  · rw [show n' = n from rfl, hl, bne_self_eq_false n, Live.draining, beq_eq_false_iff_ne.mpr hm]
    decide

/-- FIO.CLEAR of one LATCHED output. -/
theorem fioClear_single (hb : bitsOf 32 (rd b.payload 0 4) = [n]) (hd : l.dieLost 0 = false) (hm : (l.fioCh n).cfg.mode = 2)
    (hx : (l.fioCh n).latch = true) : fioClear b l = (.done .ok 0 (le 4 (2 ^ n)), (l.changed (.fio n)).setFio n fun c => { c with
      latch := false, cmd := false, fpend := false, uvOff := false, rdelay := none, retriesLeft := c.cfg.retries }) := by
  obtain ⟨hn, -⟩ := bitsOf_eq_single hb
  have hsel : [n].filter (fun k => (l.fioCh k).cfg.mode == 2) = [n] := by
    rw [List.filter_singleton, hm]
    rfl
  have hmask : maskOf 32 (fun k => [n].contains k && (l.fioCh k).latch) = 2 ^ n := maskOf_only hn fun i _ => by
    by_cases hi : i = n
    · rw [hi, hx, decide_eq_true rfl, Bool.and_true]
      exact List.contains_iff_mem.mpr (List.mem_singleton.mpr rfl)
    · rw [decide_eq_false hi, Bool.eq_false_iff.mpr (mt List.contains_iff_mem.mp (mt List.mem_singleton.mp hi)), Bool.false_and]
  unfold fioClear
  dsimp only
  rw [hb, hsel, hmask, if_neg (by rw [hd, Bool.false_and]; decide), List.foldl_cons, List.foldl_nil, if_pos hx]

end

end Sys2Proof.Machine

open Sys2Proof Sys2Proof.Machine

/-- Settles O37: each command's body with its checks passed, on the one channel of its mask. -/
theorem fieldCommands : Obligations.FieldCommands := by
  refine ⟨fun m b s h hc => ⟨fun hd => ?_, fun hd hx => ?_, fun hd hm hl hi ha hn => ?_⟩,
    fun m b s n h hb hl => ⟨fun hm => ?_, fun hm hs => ?_, fun hm hs hq => ?_, fun ho hx hd hp => ?_, fun ho hx hd hp => ?_⟩,
    fun m b s h => ?_, fun m b s n h hb hn hd hm hx => ?_, fun m b s h h0 h1 h2 h3 h4 h5 h6 hr => ?_⟩
  · refine congrArg Host.Outcome.next (State.command_answer h ?_)
    unfold fioConfig
    dsimp only
    rw [checked_of_firstBad hc, if_pos hd]
    rfl
  · refine congrArg Host.Outcome.next (State.command_answer h ?_)
    unfold fioConfig
    dsimp only
    rw [checked_of_firstBad hc, if_neg (by rw [hd]; decide), if_pos]
    · rfl
    · rcases hx with hx | hx
      · rw [Live.draining, hx]
        rfl
      · rw [bne_iff_ne.mpr hx, Bool.or_true]
  · refine congrArg Host.Outcome.next ((State.command_ends h _).trans (congrArg (s.ends m) ?_))
    exact fioConfig_takes hc hd hm hl hi ha hn
  · exact congrArg Host.Outcome.next (State.command_answer h (fioSet_input hb hl hm))
  · exact congrArg Host.Outcome.next ((State.command_ends h _).trans (congrArg (s.ends m) ((fioSet_single hb hl hm).1 hs)))
  · exact congrArg Host.Outcome.next ((State.command_ends h _).trans (congrArg (s.ends m) ((fioSet_single hb hl hm).2 hs hq)))
  · exact fioEntry_conducting ho hx hd hp
  · exact fioEntry_latched ho hx hd hp
  · exact ⟨_, congrArg Host.Outcome.next (State.command_answer h rfl), fioStatus_fields _⟩
  · refine ⟨_, congrArg Host.Outcome.next ((State.command_ends h _).trans (congrArg (s.ends m) (fioClear_single hb hd hm hx))), ?_⟩
    rw [Live.setFio_fioCh _ (show n < (s.live.changed (.fio n)).fio.ch.length from hn)]
    exact ⟨rfl, rfl, rfl, fun k hk => Live.setFio_fioCh_ne _ hk, rfl⟩
  · refine congrArg Host.Outcome.next ((State.command_ends h _).trans (congrArg (s.ends m) ?_))
    unfold fioWake
    dsimp only
    rw [checked_pass (by simp [h0, h1, h2, h3, h4, h5, h6, hr])]
    rfl
end

section
/-! Programmes, audio frames, pilot supervision and calibration. -/

namespace Sys2Proof.Machine

/-! ### Reading a zone after an update -/

theorem Live.setZone_zone {l : Live} {n : Nat} (f : Zone → Zone) (h : n < l.audio.zones.length) :
    (l.setZone n f).zone n = f (l.zone n) := upd_getD f _ h

theorem Live.setZone_zone_ne {l : Live} {n k : Nat} (f : Zone → Zone) (h : k ≠ n) : (l.setZone n f).zone k = l.zone k :=
  upd_getD_ne f _ h

theorem Live.zone_congr {l l' : Live} (h : l'.audio.zones = l.audio.zones) (n : Nat) : l'.zone n = l.zone n := by
  rw [Live.zone, h, Live.zone]

@[simp] theorem Live.setZone_length (l : Live) (n : Nat) (f : Zone → Zone) :
    (l.setZone n f).audio.zones.length = l.audio.zones.length := List.length_modify ..

theorem Live.zone_of_length_le {l : Live} {n : Nat} (h : l.audio.zones.length ≤ n) : l.zone n = Zone.init :=
  List.getD_eq_default _ _ h

/-! ### Operations that leave the zones -/

@[simp] theorem Live.zoneEvent_audio (l : Live) (n c : Nat) (p : Option Programme) (f : Bool) :
    (l.zoneEvent n c p f).audio = l.audio := Live.raise_audio ..

@[simp] theorem Live.playSettled_zones (l : Live) (n id : Nat) : (l.playSettled n id).audio.zones = l.audio.zones := by
  unfold Live.playSettled
  split
  · rfl
  · dsimp only
    split
    · exact congrArg AudioState.zones (Live.complete_audio ..) |>.trans rfl
    · rfl

@[simp] theorem Live.playSettled_lost (l : Live) (n id : Nat) : (l.playSettled n id).audio.lost = l.audio.lost := by
  unfold Live.playSettled
  split
  · rfl
  · dsimp only
    split
    · exact congrArg AudioState.lost (Live.complete_audio ..) |>.trans rfl
    · rfl

/-! ### The start and the end of a programme -/

/-- A zone whose programme has ended: the one that waited for its fade, else the front of its queue. -/
def Zone.ended (z : Zone) : Zone :=
  match z.next, z.queue with
  | some x, q => { z with playing := some (startPlaying x), next := none, queue := q }
  | none, x :: q => { z with playing := some (startPlaying x), queue := q }
  | none, [] => { z with playing := none }

section
variable {l : Live} {n : Nat}

/-- The end of a programme, and where a door chime has sounded its MT, change the zone alone. -/
theorem endProgramme_zones (c : Nat) {p : Playing} (hp : (l.zone n).playing = some p) :
    ∃ f : Zone → Zone, (∀ z, (f z).playing = z.playing ∧ (f z).next = z.next ∧ (f z).queue = z.queue) ∧
      (l.endProgramme n c).audio.zones = ((l.setZone n Zone.ended).setZone n f).audio.zones ∧
      (l.endProgramme n c).audio.lost = l.audio.lost := by
  unfold Live.endProgramme
  dsimp only
  rw [hp]
  dsimp only
  rw [Live.playSettled_zones, Live.zoneEvent_audio, Live.playSettled_lost, Live.zoneEvent_audio]
  split
  · rw [Live.zoneEvent_audio]
    exact ⟨fun z => { z with chimeAt := some l.mt.now }, fun _ => ⟨rfl, rfl, rfl⟩, rfl, rfl⟩
  · exact ⟨id, fun _ => ⟨rfl, rfl, rfl⟩, (List.modify_id _ _).symm, rfl⟩

theorem endProgramme_zone (c : Nat) (hn : n < l.audio.zones.length) {p : Playing} (hp : (l.zone n).playing = some p) :
    ((l.endProgramme n c).zone n).playing = (l.zone n).ended.playing ∧ ((l.endProgramme n c).zone n).next = (l.zone n).ended.next ∧
      ((l.endProgramme n c).zone n).queue = (l.zone n).ended.queue := by
  obtain ⟨f, hf, hz, -⟩ := endProgramme_zones c hp
  rw [Live.zone_congr hz, Live.setZone_zone _ (by rw [Live.setZone_length]; exact hn), Live.setZone_zone _ hn]
  exact hf _

theorem endProgramme_zone_ne (c : Nat) {k : Nat} (hk : k ≠ n) : (l.endProgramme n c).zone k = l.zone k := by
  cases hp : (l.zone n).playing with
  | none => rw [Live.endProgramme, hp]
  | some p =>
    obtain ⟨f, -, hz, -⟩ := endProgramme_zones c hp
    rw [Live.zone_congr hz, Live.setZone_zone_ne _ hk, Live.setZone_zone_ne _ hk]

theorem endProgramme_lost (l : Live) (n c : Nat) : (l.endProgramme n c).audio.lost = l.audio.lost := by
  cases hp : (l.zone n).playing with
  | none => rw [Live.endProgramme, hp]
  | some p =>
    obtain ⟨f, -, -, hl⟩ := endProgramme_zones c hp
    exact hl

/-- A programme that plays mutes its zone for no reason but those of the zone. -/
theorem Live.muteLow_of_started {p : Playing} (hp : (l.zone n).playing = some p) (hs : p.started = true) :
    l.muteLow n = (l.zoneMuted n || l.islandDown 4) := by
  unfold Live.muteLow
  dsimp only
  rw [hp, Option.any_some, hs, Bool.or_true, Bool.not_true, Bool.or_false]

/-- A programme starts with what mutes its zone noted. -/
theorem programmeStart_starts {p : Playing} (hn : n < l.audio.zones.length) (hp : (l.zone n).playing = some p)
    (hs : p.started = false) (hf : p.fade = none) (ht : p.prog.startMt ≤ l.mt.now) :
    ((programmeStart n l).zone n).playing = some { p with started := true, void := l.zoneMuted n || l.islandDown 4 } := by
  unfold programmeStart
  rw [hp]
  dsimp only
  rw [if_neg (by rw [hs, hf, decide_eq_false (by omega)]; decide), Live.zone_congr (Live.playSettled_zones ..),
    Live.zone_congr (congrArg AudioState.zones (Live.zoneEvent_audio ..)), Live.setZone_zone _ (by rw [Live.setZone_length]; exact hn)]
  have h1 := Live.setZone_zone (l := l) (fun z => { z with playing := some { p with started := true } }) hn
  rw [Live.muteLow_of_started (p := { p with started := true }) (congrArg Zone.playing h1) rfl, Live.zoneMuted, h1]
  rfl

theorem programmeEnd_played {s : State} {p : Playing} (hp : (s.live.zone n).playing = some p) (hf : p.fade = none)
    (hx : p.finished s.kept.flash = true) : programmeEnd n s = s.onLive fun l => l.endProgramme n 1 := by
  unfold programmeEnd
  rw [hp]
  dsimp only
  rw [hf]
  exact if_pos hx

theorem programmeEnd_faded {s : State} {p : Playing} {f : Nat × Nat} (hp : (s.live.zone n).playing = some p) (hf : p.fade = some f)
    (hx : f.1 + ms 10 ≤ s.live.mt.now) : programmeEnd n s = s.onLive fun l => l.endProgramme n f.2 := by
  unfold programmeEnd
  rw [hp]
  dsimp only
  rw [hf]
  exact if_pos hx


/-! ### The audio frame -/

theorem tdmFrame_tx (rx : List Int) (s : State) : (tdmFrame rx s).live.audio.tx = (List.range 8).map fun n =>
    if (s.live.die 1).orphan || s.live.sup.phase != .running || s.live.islandDown 4 then 0 else s.zoneSample n rx := rfl

theorem tdmFrame_zone {s : State} (rx : List Int) (hn : n < s.live.audio.zones.length) :
    ((tdmFrame rx s).live.zone n).playing = (s.live.zone n).playing.map fun p => p.advance s.kept.flash (s.live.muteLow n) := by
  have hz : (s.live.zone n) = s.live.audio.zones[n] := by
    rw [Live.zone, List.getD_eq_getElem _ _ hn]
  unfold tdmFrame State.onLive
  dsimp only
  rw [Live.zone, List.getD_eq_getElem _ _ (by simpa using hn), List.getElem_map, List.getElem_zipIdx, hz, Nat.zero_add]

theorem tdmFrame_linkOut (rx : List Int) (s : State) :
    (tdmFrame rx s).live.audio.linkOut.length ≤ max 64 s.live.audio.linkOut.length := by
  unfold tdmFrame State.onLive
  dsimp only
  rw [List.length_drop]
  omega

/-! ### Lost link audio -/

/-- What `linkAudioLost` does to one zone. -/
def Live.endLink (l : Live) (c n : Nat) : Live :=
  match (l.zone n).playing with
  | some p => if p.started && p.prog.kind == 2 && p.prog.src == c then l.endProgramme n 6 else l
  | none => l

/-- A zone that plays no live programme of a link channel. -/
def Zone.freeOf (z : Zone) (c : Nat) : Prop :=
  ∀ p, z.playing = some p → p.started = true → p.prog.kind = 2 → p.prog.src ≠ c

theorem Zone.ended_freeOf (z : Zone) (c : Nat) : ∀ p, z.ended.playing = some p → p.started = false := by
  intro p hp
  unfold Zone.ended at hp
  split at hp
  · obtain rfl := Option.some.inj hp
    rfl
  · obtain rfl := Option.some.inj hp
    rfl
  · cases hp

theorem Live.endLink_freeOf (l : Live) (c n : Nat) : ((l.endLink c n).zone n).freeOf c := by
  unfold Live.endLink
  split
  · rename_i p hp
    split
    · intro q hq hs
      by_cases hn : n < l.audio.zones.length
      · rw [(endProgramme_zone 6 hn hp).1] at hq
        rw [Zone.ended_freeOf _ c q hq] at hs
        cases hs
      · rw [Live.zone_of_length_le (by omega)] at hp
        cases hp
    · rename_i h
      intro q hq hs hk hc
      obtain rfl := Option.some.inj (hp.symm.trans hq)
      exact h (by rw [hs, hk, hc]; simp)
  · rename_i hp
    intro q hq
    rw [hp] at hq
    cases hq

theorem Live.endLink_zone_ne {k : Nat} (l : Live) (c : Nat) (hk : k ≠ n) : (l.endLink c n).zone k = l.zone k := by
  unfold Live.endLink
  split
  · split
    · exact endProgramme_zone_ne 6 hk
    · rfl
  · rfl

theorem Live.endLink_lost (l : Live) (c n : Nat) : (l.endLink c n).audio.lost = l.audio.lost := by
  unfold Live.endLink
  split
  · split
    · exact endProgramme_lost l n 6
    · rfl
  · rfl

/-- The live programmes of a channel end in every zone. -/
theorem Live.endLinks_freeOf (l : Live) (c k : Nat) :
    (∀ n, n < k → (((List.range k).foldl (fun l n => l.endLink c n) l).zone n).freeOf c) ∧
      ((List.range k).foldl (fun l n => l.endLink c n) l).audio.lost = l.audio.lost := by
  induction k with
  | zero => exact ⟨fun n hn => absurd hn (by omega), rfl⟩
  | succ k ih =>
    rw [List.range_succ, List.foldl_concat, Live.endLink_lost]
    refine ⟨fun n hn => ?_, ih.2⟩
    by_cases hk : n = k
    · rw [hk]
      exact Live.endLink_freeOf _ c k
    · rw [Live.endLink_zone_ne _ _ hk]
      exact ih.1 n (by omega)

theorem linkAudioLost_ends {c k : Nat} (hk : ms 10 ≤ k) (hc : c < l.audio.lost.length) :
    (l.playsLink c = true → (linkAudioLost c k l).audio.lost.getD c false = true) ∧
      ∀ n, n < 8 → ((linkAudioLost c k l).zone n).freeOf c := by
  have hs : linkAudioLost c k l = (List.range 8).foldl (fun l n => l.endLink c n)
      (if l.audio.lost.getD c false || !l.playsLink c then l
        else ({ l with audio := { l.audio with lost := l.audio.lost.set c true } }).raise 0x0F9 warn 0 (le 1 c)) := if_pos hk
  rw [hs, (Live.endLinks_freeOf ..).2]
  refine ⟨fun hp => ?_, (Live.endLinks_freeOf ..).1⟩
  by_cases hl : l.audio.lost.getD c false = true
  · rw [if_pos (by rw [hl]; rfl)]
    exact hl
  · rw [if_neg (by rw [hp, Bool.eq_false_iff.mpr hl]; decide), Live.raise_audio]
    simp [hc]

theorem linkAudioLost_restores (c : Nat) : (linkAudioLost c 0 l).audio.lost.getD c false = false ∧
    (linkAudioLost c 0 l).audio.zones = l.audio.zones := by
  unfold linkAudioLost
  rw [if_neg (by decide)]
  by_cases hl : l.audio.lost.getD c false = true
  · rw [if_pos (by rw [hl]; rfl), Live.raise_audio]
    refine ⟨?_, rfl⟩
    rw [List.getD_eq_getElem?_getD, List.getElem?_set]
    split
    · split <;> rfl
    · contradiction
  · rw [if_neg (by rw [Bool.eq_false_iff.mpr hl]; decide)]
    exact ⟨Bool.eq_false_iff.mpr hl, rfl⟩

/-! ### Pilot supervision -/

/-- Counting a fault moves its counts, and it stands at once after three windows in a row. -/
theorem countFault_zone (k c : Nat) (hit earlier : Bool) (hn : n < l.audio.zones.length) :
    ∃ ms ns st, (l.countFault n k c hit earlier).zone n = { l.zone n with
        meets := ms, misses := ns, stands := (l.zone n).stands.set k st } ∧
      (l.countFault n k c hit earlier).audio.zones.length = l.audio.zones.length ∧
      (hit = true → earlier = false → 2 ≤ (l.zone n).meets.getD k 0 → st = true) := by
  unfold Live.countFault
  extract_lets z meets misses stands now l1
  refine ⟨z.meets.set k meets, z.misses.set k misses, now, ?_, ?_, fun hh he hm => ?_⟩
  · split
    · exact Live.setZone_zone _ hn
    · exact (Live.zone_congr (congrArg AudioState.zones (Live.zoneEvent_audio ..)) n).trans (Live.setZone_zone _ hn)
  · split
    · exact Live.setZone_length ..
    · rw [Live.zoneEvent_audio]
      exact Live.setZone_length ..
  · have hmeets : 3 ≤ meets := by
      rw [show meets = _ from if_pos hh]
      exact Nat.succ_le_succ hm
    have hmisses : misses = 0 := if_pos hh
    show (if !stands && decide (3 ≤ meets) && !earlier then true else if stands && decide (10 ≤ misses) then false else stands) = true
    rw [decide_eq_true hmeets, he, hmisses]
    cases stands <;> rfl

/-- A window of the pilot: the impedance, the calibration's window, and a short line after three. -/
theorem pilotWindow_measures {v i : Nat} (hn : n < l.audio.zones.length) (hs : (l.zone n).cfg.supervise = true)
    (hm : l.mutedLately n = false) :
    let zed := if i = 0 then 0xFFFF else min 0xFFFF (1000 * v / i)
    ((pilotWindow n v i false l).zone n).z = zed ∧
      ((pilotWindow n v i false l).zone n).cal = (l.zone n).cal.map (· ++ [(v, i)]) ∧
      ∀ r, (l.zone n).vRef = some r → 2 * v < r → 2 < (l.zone n).stands.length → 2 ≤ (l.zone n).meets.getD 0 0 →
        ((pilotWindow n v i false l).zone n).stands.getD 0 false = true := by
  intro zed
  unfold pilotWindow
  rw [if_neg (by rw [hs, hm]; decide)]
  extract_lets l1 hit
  have h1 : l1.zone n = { l.zone n with z := zed, cal := (l.zone n).cal.map fun c => c ++ [(v, i)] } := Live.setZone_zone _ hn
  have hn1 : n < l1.audio.zones.length := by
    rw [show l1 = l.setZone n _ from rfl, Live.setZone_length]
    exact hn
  obtain ⟨_, _, st, h2, hl2, htrip⟩ := countFault_zone 0 8 (hit 0) false hn1
  obtain ⟨_, _, st3, h3, hl3, -⟩ := countFault_zone (l := l1.countFault n 0 8 (hit 0) false) 1 5 (hit 1) (hit 0) (by rw [hl2]; exact hn1)
  obtain ⟨_, _, st4, h4, -, -⟩ := countFault_zone (l := (l1.countFault n 0 8 (hit 0) false).countFault n 1 5 (hit 1) (hit 0))
    2 4 (hit 2) (hit 0) (by rw [hl3, hl2]; exact hn1)
  rw [h4, h3, h2, h1]
  refine ⟨rfl, rfl, fun r hr hv hlen hmeets => ?_⟩
  have hit0 : hit 0 = true := by
    show ((l1.zone n).criteria v zed).getD 0 false = true
    rw [h1]
    unfold Zone.criteria
    dsimp only
    rw [hr]
    exact decide_eq_true hv
  rw [htrip hit0 rfl (by rw [h1]; exact hmeets)]
  have h0 : 0 < (l.zone n).stands.length := by omega
  simp [h0]

/-- A calibration takes the means of its ten windows. -/
theorem calibrationDone_means {ws : List (Nat × Nat)} (hn : n < l.audio.zones.length) (hc : (l.zone n).cal = some ws)
    (hl : 10 ≤ ws.length) :
    let v := ((ws.take 10).foldl (fun a w => a + w.1) 0) / 10
    let i := ((ws.take 10).foldl (fun a w => a + w.2) 0) / 10
    ((calibrationDone n l).zone n).cal = none ∧ ((calibrationDone n l).zone n).vRef =
      if i * Config.shuntMohm n < 100000 then (l.zone n).vRef else some v := by
  intro v i
  unfold calibrationDone
  rw [hc]
  dsimp only
  rw [if_neg (by omega)]
  unfold calibrationDone.sumNatList
  rw [List.foldl_map, List.foldl_map]
  by_cases hi : i * Config.shuntMohm n < 100000
  · rw [if_pos hi, if_pos hi, Live.zone_congr (congrArg AudioState.zones (Live.zoneEvent_audio ..)), Live.setZone_zone _ hn]
    exact ⟨rfl, rfl⟩
  · rw [if_neg hi, if_neg hi, Live.zone_congr (congrArg AudioState.zones (Live.zoneEvent_audio ..))]
    have hz := Live.setZone_zone (l := l) (fun z => { z with
      cal := none, vRef := some v, zRef := ((ws.take 10).map fun w => if w.2 = 0 then 0xFFFF else 1000 * w.1 / w.2).foldl (· + ·) 0 / 10,
      meets := [0, 0, 0], misses := [0, 0, 0] }) hn
    exact ⟨congrArg Zone.cal hz, congrArg Zone.vRef hz⟩

end

end Sys2Proof.Machine

open Sys2Proof Sys2Proof.Machine

/-- Settles O38: each row's body with its conditions met, by what the zone reads after it. -/
theorem audioEvents : Obligations.AudioEvents := by
  refine ⟨fun n p s hn hr hp hs hf ht => ?_, fun n p s hn hp => ⟨fun hf hx => ?_, fun f hf hx => ?_, fun c hx hq => ?_,
    fun c q qs hx hq => ?_, fun q hx => ?_⟩, fun rx s => ?_, fun c k s hp hc => ⟨fun hk => ?_, fun hk => ?_⟩,
    fun n v i s hn hp hs hm => ?_, fun n ws s hn hp hc hl => ?_⟩
  · exact ⟨_, _, congrArg Host.Outcome.next (s.onLogic_running _ hr), rfl, programmeStart_starts hn hp hs hf ht, rfl⟩
  · exact congrArg Host.Outcome.next (programmeEnd_played hp hf hx)
  · exact congrArg Host.Outcome.next (programmeEnd_faded hp hf hx)
  · rw [(endProgramme_zone c hn hp).1, Zone.ended, hx, hq]
  · rw [(endProgramme_zone c hn hp).1, (endProgramme_zone c hn hp).2.2, Zone.ended, hx, hq]
    exact ⟨rfl, rfl⟩
  · rw [(endProgramme_zone 2 hn hp).1, (endProgramme_zone 2 hn hp).2.1, Zone.ended, hx]
    exact ⟨rfl, rfl⟩
  · refine ⟨tdmFrame rx s, rfl, rfl, rfl, ?_, fun h => ?_, fun ho hp hd k hk => ?_, fun n hn => tdmFrame_zone rx hn,
      tdmFrame_linkOut rx s⟩
    · rw [tdmFrame_tx, List.length_map, List.length_range]
    · have hq : ((s.live.die 1).orphan || s.live.sup.phase != .running || s.live.islandDown 4) = true := by
        rcases h with h | h | h
        · rw [h]
          rfl
        · rw [bne_iff_ne.mpr h, Bool.or_true]
          rfl
        · rw [h, Bool.or_true]
      rw [tdmFrame_tx]
      simp [hq, List.eq_replicate_iff]
    · rw [tdmFrame_tx, ho, hp, hd]
      simp [hk]
  · obtain ⟨hlost, hfree⟩ := linkAudioLost_ends hk hc
    exact ⟨_, congrArg Host.Outcome.next (s.onLogic_running _ hp), rfl, hlost, fun n p hn hx => hfree n hn p hx⟩
  · obtain ⟨hlost, hz⟩ := linkAudioLost_restores (l := s.live) c
    rw [hk]
    exact ⟨_, congrArg Host.Outcome.next (s.onLogic_running _ hp), rfl, hlost, hz⟩
  · obtain ⟨hz, hc, ht⟩ := pilotWindow_measures (v := v) (i := i) hn hs hm
    exact ⟨_, congrArg Host.Outcome.next (s.onLogic_running _ hp), rfl, hz, hc, ht,
      congrArg Host.Outcome.next (s.onLogic_running _ hp)⟩
  · obtain ⟨hcal, href⟩ := calibrationDone_means hn hc hl
    exact ⟨_, congrArg Host.Outcome.next (s.onLogic_running _ hp), rfl, hcal, href⟩
end

section
/-! The AUDIO commands with legal fields. -/

namespace Sys2Proof.Machine

section
variable {m : MbRef} {b : Mailbox} {l : Live} {n : Nat}

/-- The programme that AUDIO.PLAY requests. -/
def Live.playProgramme (l : Live) (p : List Byte) (flash : Memory) (start : Nat) : Programme :=
  let chime := byteAt p 1 == 0 && ((clips flash).find? fun c => c.id == rd p 2 2).any (·.chime)
  { id := l.audio.nextId, kind := byteAt p 1, src := rd p 2 2, prio := if chime then 1 else byteAt p 4,
    loop := byteAt p 1 == 0 && bit (byteAt p 5) 1, repeats := byteAt p 6, startMt := start, chime := chime }

/-- The next programme number is used up. -/
def Live.idTaken (l : Live) : Live := { l with audio := { l.audio with nextId := (l.audio.nextId + 1) % 0xFFFF } }

/-- The answer waits for the programme's start. -/
def Live.openPlay (l : Live) (m : MbRef) (id n : Nat) : Live :=
  { l with audio := { l.audio with opens := l.audio.opens ++ [OpenPlay.mk m id [n] [n]] } }

/-- AUDIO.PLAY on one zone where nothing plays: the zone takes the programme. -/
def Live.playOn (l : Live) (n : Nat) (prog : Programme) : Live :=
  l.idTaken.setZone n fun z => { z with playing := some (startPlaying prog) }

/-- The checks of AUDIO.PLAY. -/
def playChecks (flash : Memory) (b : Mailbox) : List (Nat × Bool) :=
  let p := b.payload
  [(0, byteAt p 0 != 0), (1, decide (byteAt p 1 ≤ 2)),
   (2, if byteAt p 1 = 0 then ((clips flash).find? fun c => c.id == rd p 2 2).isSome else decide (rd p 2 2 ≤ 7)),
   (4, decide (byteAt p 4 ≤ 7)), (5, decide (byteAt p 5 < 4)), resv b 7 1]

theorem playChecks_pass {flash : Memory} (h0 : byteAt b.payload 0 ≠ 0) (hk : byteAt b.payload 1 ≤ 2)
    (hc : byteAt b.payload 1 = 0 → ∃ c ∈ clips flash, c.id = rd b.payload 2 2) (hs : byteAt b.payload 1 ≠ 0 → rd b.payload 2 2 ≤ 7)
    (h4 : byteAt b.payload 4 ≤ 7) (h5 : byteAt b.payload 5 < 4) (hr : (resv b 7 1).2 = true) :
    (playChecks flash b).all (·.2) = true := by
  have hsrc : (if byteAt b.payload 1 = 0 then ((clips flash).find? fun c => c.id == rd b.payload 2 2).isSome
      else decide (rd b.payload 2 2 ≤ 7)) = true := by
    split
    · rename_i hk0
      obtain ⟨c, hmem, hid⟩ := hc hk0
      exact List.find?_isSome.mpr ⟨c, hmem, beq_iff_eq.mpr hid⟩
    · rename_i hk0
      exact decide_eq_true (hs hk0)
  unfold playChecks
  dsimp only
  rw [hsrc]
  simp [h0, hk, h4, h5, hr]

theorem audioPlay_single {flash : Memory} {start : Nat} (hc : (playChecks flash b).all (·.2) = true) (hd : l.pwr.mode ≠ .drain)
    (hbad : byteAt b.payload 1 = 0 → rd b.payload 2 2 ∉ l.audio.bad) (hb : bitsOf 8 (byteAt b.payload 0) = [n])
    (hz : (l.zone n).playing = none) (hstart : (if rd b.payload 8 8 = 0 then l.mt.now else rd b.payload 8 8) = start) :
    let prog := l.playProgramme b.payload flash start
    audioPlay m b flash l = if l.mt.now + ms 5 < start
      then (.done .pending 0 (le 2 prog.id ++ List.replicate 6 0), l.playOn n prog)
      else (.wait, (l.playOn n prog).openPlay m prog.id n) := by
  intro prog
  have hreq : ∀ q, l.idTaken.requestPlay n prog q = (.starts, l.playOn n prog) := fun q => by
    unfold Live.requestPlay
    dsimp only
    rw [show l.idTaken.zone n = l.zone n from rfl, hz]
    rfl
  have hst : playStatuses [(n, PlayResult.starts)] = List.replicate 6 0 := by
    unfold playStatuses
    refine List.eq_replicate_iff.mpr ⟨by simp, fun x hx => ?_⟩
    obtain ⟨k, -, rfl⟩ := List.mem_map.mp hx
    rw [List.find?_singleton]
    by_cases hnk : (n == k) = true
    · rw [if_pos hnk]
    · rw [if_neg hnk]
  unfold audioPlay
  extract_lets p kind src clip chime prog' zones src2 l1 r payload
  have hprog : prog' = prog := by
    rw [show prog' = l.playProgramme b.payload flash _ from rfl, hstart]
  have hr : r = ([(n, PlayResult.starts)], l.playOn n prog) := by
    rw [show r = zones.foldl _ _ from rfl, show zones = [n] from hb, List.foldl_cons, List.foldl_nil, hprog,
      show l1 = l.idTaken from rfl, hreq]
    rfl
  have hpay : payload = le 2 prog.id ++ List.replicate 6 0 := by
    rw [show payload = le 2 prog'.id ++ playStatuses r.1 from rfl, hr, hprog, hst]
  have hmt : l1.mt.now = l.mt.now := rfl
  have hzones : zones = [n] := hb
  refine (checked_pass hc _ _).trans ((if_neg (by simpa using hd)).trans ((if_neg ?_).trans ?_))
  · rw [Bool.and_eq_true, decide_eq_true_iff, List.contains_iff_mem]
    exact fun h => hbad h.1 h.2
  · clear_value r payload prog' l1 zones
    subst hr hpay hprog hzones
    rw [hmt]
    show (if (false || decide (l.mt.now + ms 5 < prog.startMt)) = true then _ else _) = _
    rw [Bool.false_or, show prog.startMt = start from rfl]
    by_cases ht : l.mt.now + ms 5 < start
    · rw [if_pos (decide_eq_true ht), if_pos ht]
    · rw [if_neg (by rw [decide_eq_false ht]; decide), if_neg ht]
      rfl

/-- What AUDIO.PLAY of one zone leaves, and what it answers now or when the programme starts. -/
theorem playOn_answers {s : State} {start : Nat} (h : Waits s 0x3802 m b) {prog : Programme}
    (hprog : prog = s.live.playProgramme b.payload s.kept.flash start) (hn : n < s.live.audio.zones.length)
    (hplay : audioPlay m b s.kept.flash s.live = if s.live.mt.now + ms 5 < start
      then (.done .pending 0 (le 2 prog.id ++ List.replicate 6 0), s.live.playOn n prog)
      else (.wait, (s.live.playOn n prog).openPlay m prog.id n)) :
    ∃ prog l', prog.id = s.live.audio.nextId ∧ prog.kind = byteAt b.payload 1 ∧ prog.src = rd b.payload 2 2 ∧ prog.startMt = start ∧
      (prog.chime = false → prog.prio = byteAt b.payload 4) ∧ (prog.chime = true → prog.prio = 1) ∧
      (l'.zone n).playing = some (startPlaying prog) ∧ l'.audio.nextId = (s.live.audio.nextId + 1) % 0xFFFF ∧
      (start ≤ s.live.mt.now + ms 5 → exec .audioPlay s = .next (s.ends m (.wait, l')) ∧
        OpenPlay.mk m prog.id [n] [n] ∈ l'.audio.opens) ∧
      (s.live.mt.now + ms 5 < start → exec .audioPlay s = .next (s.ends m
        (.done .pending 0 (le 2 prog.id ++ List.replicate 6 0), l'))) := by
  have hx : exec .audioPlay s = .next (s.ends m (audioPlay m b s.kept.flash s.live)) :=
    congrArg Host.Outcome.next (State.command_ends h fun m b l => audioPlay m b s.kept.flash l)
  have hz : ((s.live.playOn n prog).zone n).playing = some (startPlaying prog) :=
    congrArg Zone.playing (Live.setZone_zone (l := s.live.idTaken) _ hn)
  have hlow : prog.chime = false → prog.prio = byteAt b.payload 4 := fun hc => by
    rw [hprog] at hc ⊢
    exact if_neg (Bool.eq_false_iff.mp hc)
  have hhigh : prog.chime = true → prog.prio = 1 := fun hc => by
    rw [hprog] at hc ⊢
    exact if_pos hc
  have hid : prog.id = s.live.audio.nextId ∧ prog.kind = byteAt b.payload 1 ∧ prog.src = rd b.payload 2 2 ∧ prog.startMt = start := by
    rw [hprog]
    exact ⟨rfl, rfl, rfl, rfl⟩
  obtain ⟨hi, hk, hs, ht⟩ := hid
  by_cases hlate : s.live.mt.now + ms 5 < start
  · rw [if_pos hlate] at hplay
    exact ⟨prog, _, hi, hk, hs, ht, hlow, hhigh, hz, rfl, fun h => absurd hlate (by omega), fun _ => by rw [hx, hplay]⟩
  · rw [if_neg hlate] at hplay
    exact ⟨prog, (s.live.playOn n prog).openPlay m prog.id n, hi, hk, hs, ht, hlow, hhigh, hz, rfl,
      fun _ => ⟨by rw [hx, hplay], List.mem_append_right _ (List.mem_singleton.mpr rfl)⟩, fun h => absurd h hlate⟩

/-- AUDIO.STOP of one zone. -/
theorem audioStop_single (hb : bitsOf 8 (byteAt b.payload 0) = [n]) (h0 : byteAt b.payload 0 ≠ 0) (h1 : byteAt b.payload 1 ≤ 1)
    (hr : (resv b 2 2).2 = true) : audioStop b l = (okReply,
      (if byteAt b.payload 1 = 1 then l.setZone n fun z => { z with queue := [], next := none } else l).fadeOut n 1) := by
  unfold audioStop
  dsimp only
  rw [checked_pass (by simp [h0, h1, hr]), hb]
  rfl

/-- The present programme of a zone fades from now. -/
theorem fadeOut_zone {p : Playing} (c : Nat) (hn : n < l.audio.zones.length) (hp : (l.zone n).playing = some p) (hf : p.fade = none)
    (hs : p.started = true) : ((l.fadeOut n c).zone n).playing = some { p with fade := some (l.mt.now, c), void := true } := by
  unfold Live.fadeOut
  rw [Live.setZone_zone _ hn]
  dsimp only
  rw [hp, Option.map_some, if_neg (by rw [hf]; decide), hs]
  rfl

theorem fadeOut_queue (c : Nat) (hn : n < l.audio.zones.length) :
    ((l.fadeOut n c).zone n).queue = (l.zone n).queue ∧ ((l.fadeOut n c).zone n).next = (l.zone n).next := by
  unfold Live.fadeOut
  rw [Live.setZone_zone _ hn]
  exact ⟨rfl, rfl⟩

theorem audioStop_leaves (all : Nat) (hn : n < l.audio.zones.length) :
    let l' := (if all = 1 then l.setZone n fun z => { z with queue := [], next := none } else l).fadeOut n 1
    (∀ k, k ≠ n → l'.zone k = l.zone k) ∧ (all = 1 → (l'.zone n).queue = [] ∧ (l'.zone n).next = none) ∧
      (all = 0 → (l'.zone n).queue = (l.zone n).queue) ∧
      (∀ p, (l.zone n).playing = some p → p.fade = none → p.started = true →
        (l'.zone n).playing = some { p with fade := some (l.mt.now, 1), void := true }) ∧ l'.host = l.host := by
  intro l'
  by_cases ha : all = 1
  · have hz : (l.setZone n fun z => { z with queue := [], next := none }).zone n = { l.zone n with queue := [], next := none } :=
      Live.setZone_zone _ hn
    have hlen : n < (l.setZone n fun z => { z with queue := [], next := none }).audio.zones.length := by
      rw [Live.setZone_length]
      exact hn
    rw [show l' = (l.setZone n fun z => { z with queue := [], next := none }).fadeOut n 1 from
      congrArg (fun l => Live.fadeOut l n 1) (if_pos ha)]
    refine ⟨fun k hk => ?_, fun _ => ?_, fun h => absurd h (by omega), fun p hp hf hs => ?_, rfl⟩
    · rw [Live.fadeOut, Live.setZone_zone_ne _ hk, Live.setZone_zone_ne _ hk]
    · rw [(fadeOut_queue 1 hlen).1, (fadeOut_queue 1 hlen).2, hz]
      exact ⟨rfl, rfl⟩
    · exact fadeOut_zone 1 hlen (by rw [hz]; exact hp) hf hs
  · rw [show l' = l.fadeOut n 1 from congrArg (fun l => Live.fadeOut l n 1) (if_neg ha)]
    exact ⟨fun k hk => Live.setZone_zone_ne _ hk, fun h => absurd h ha, fun _ => (fadeOut_queue 1 hn).1,
      fun p hp hf hs => fadeOut_zone 1 hn hp hf hs, rfl⟩

/-- One zone of AUDIO.STATUS. -/
def Live.zoneRecord (l : Live) (n : Nat) : List Byte :=
  let z := l.zone n
  le 1 (l.zoneState n) ++ le 1 z.fault ++ le 2 ((z.playing.map (·.prog.id)).getD 0xFFFF) ++ le 2 z.z ++ le 2 (l.chimeAge n)

theorem zoneRecord_length (l : Live) (n : Nat) : (l.zoneRecord n).length = 8 := by
  simp [Live.zoneRecord]

theorem zoneRecord_fields (l : Live) (n : Nat) : byteAt (l.zoneRecord n) 0 = l.zoneState n % 256 ∧
    byteAt (l.zoneRecord n) 1 = (l.zone n).fault % 256 ∧ rd (l.zoneRecord n) 6 2 = l.chimeAge n % 65536 := by
  unfold Live.zoneRecord
  refine ⟨?_, ?_, ?_⟩
  · simp only [List.append_assoc]
    exact byteAt_le_one_head ..
  · simp only [List.append_assoc]
    exact byteAt_le_one_append (length_le 1 _) _
  · rw [← List.append_nil (le 2 (l.chimeAge n))]
    exact rd_le_at (by simp) 2 _ _

end

end Sys2Proof.Machine

open Sys2Proof Sys2Proof.Machine

/-- Settles O39: each command's body with its checks passed, on the one zone of its mask. -/
theorem audioCommands : Obligations.AudioCommands := by
  refine ⟨fun m b s h h0 h1 h2 h3 h4 h5 h7 => ?_,
    fun m b s h h0 hk hc hs h4 h5 hr => ⟨fun hd => ?_, fun hd hk0 hbad => ?_, fun hd hbad n hb hn hz => ?_⟩,
    fun m b s n h hb h0 h1 hr hn => ?_, fun m b s h h0 h1 hr => ⟨fun hx => ?_, fun hx => ?_⟩,
    fun m b s h h0 hr => ⟨fun hx => ?_, fun hx hm => ?_⟩, fun m b s h => ?_⟩
  · refine congrArg Host.Outcome.next ((State.command_ends h _).trans (congrArg (s.ends m) ?_))
    unfold audioZone
    dsimp only
    rw [checked_pass (by simp [h0, h1, h2, h3, h4, h5, h7])]
  · refine congrArg Host.Outcome.next (State.command_answer h ?_)
    unfold audioPlay
    refine (checked_pass (playChecks_pass h0 hk hc hs h4 h5 hr) _ _).trans (if_pos ?_)
    rw [hd]
    rfl
  · refine congrArg Host.Outcome.next (State.command_answer h ?_)
    unfold audioPlay
    refine (checked_pass (playChecks_pass h0 hk hc hs h4 h5 hr) _ _).trans ((if_neg (by simpa using hd)).trans (if_pos ?_))
    rw [decide_eq_true hk0, List.contains_iff_mem.mpr hbad]
    rfl
  · have hplay := audioPlay_single (m := m) (playChecks_pass h0 hk hc hs h4 h5 hr) hd hbad hb hz rfl
    intro start
    refine playOn_answers h rfl hn hplay
  · refine ⟨_, congrArg Host.Outcome.next ((State.command_ends h _).trans (congrArg (s.ends m) (audioStop_single hb h0 h1 hr))),
      audioStop_leaves _ hn⟩
  · refine congrArg Host.Outcome.next (State.command_answer h ?_)
    unfold audioRoute
    dsimp only
    rw [checked_pass (by simp [h0, h1, hr]), if_pos (by rw [hx]; rfl)]
    rfl
  · refine congrArg Host.Outcome.next ((State.command_ends h _).trans (congrArg (s.ends m) ?_))
    unfold audioRoute
    dsimp only
    rw [checked_pass (by simp [h0, h1, hr]), if_neg (by rw [hx]; decide)]
  · refine congrArg Host.Outcome.next (State.command_answer h ?_)
    unfold audioCalibrate
    dsimp only
    rw [checked_pass (by simp [h0, hr]), if_pos]
    · rfl
    · rcases hx with hx | hx <;> rw [hx]
      · rfl
      · rw [Bool.or_true]
  · refine congrArg Host.Outcome.next ((State.command_ends h _).trans (congrArg (s.ends m) ?_))
    unfold audioCalibrate
    dsimp only
    rw [checked_pass (by simp [h0, hr]), if_neg (by rw [hx, hm]; decide)]
  · refine ⟨_, congrArg Host.Outcome.next (State.command_answer h rfl), ?_, fun n hn => ?_⟩
    · exact length_flatMap_const (zoneRecord_length s.live) _
    · obtain ⟨hst, hfault, hage⟩ := zoneRecord_fields s.live n
      rw [← hst, ← hfault, ← hage]
      refine ⟨byteAt_flatMap (zoneRecord_length s.live) (j := 0) (by decide) hn,
        byteAt_flatMap (zoneRecord_length s.live) (by decide) hn, rd_congr fun x hx => ?_⟩
      rw [Nat.add_assoc]
      exact byteAt_flatMap (zoneRecord_length s.live) (by omega) hn
end

section
/-! Reception, filters, transmission and errors of a CAN channel. -/

namespace Sys2Proof.Machine

/-! ### Reading a channel after an update -/

theorem Live.setChan_chan {l : Live} {n : Nat} (f : CanChan → CanChan) (h : n < l.can.chans.length) :
    (l.setChan n f).chan n = f (l.chan n) := upd_getD f _ h

theorem Live.setChan_chan_ne {l : Live} {n k : Nat} (f : CanChan → CanChan) (h : k ≠ n) : (l.setChan n f).chan k = l.chan k :=
  upd_getD_ne f _ h

theorem Live.chan_congr {l l' : Live} (h : l'.can.chans = l.can.chans) (n : Nat) : l'.chan n = l.chan n := by
  rw [Live.chan, h, Live.chan]

@[simp] theorem Live.setChan_length (l : Live) (n : Nat) (f : CanChan → CanChan) :
    (l.setChan n f).can.chans.length = l.can.chans.length := List.length_modify ..

theorem Live.chan_of_length_le {l : Live} {n : Nat} (h : l.can.chans.length ≤ n) : l.chan n = CanChan.init :=
  List.getD_eq_default _ _ h

/-- A channel that is not as at power-on is one of the channels. -/
theorem Live.chan_lt {β : Type} {l : Live} {n : Nat} (g : CanChan → β) (h : g (l.chan n) ≠ g CanChan.init) :
    n < l.can.chans.length :=
  Nat.lt_of_not_le fun hl => h (congrArg g (Live.chan_of_length_le hl))

/-- What an update does not touch in any channel reads as before. -/
theorem Live.setChan_same {β : Type} (g : CanChan → β) {f : CanChan → CanChan} (h : ∀ c, g (f c) = g c) (l : Live) (n k : Nat) :
    g ((l.setChan n f).chan k) = g (l.chan k) := by
  by_cases hk : k = n
  · subst hk
    by_cases hl : k < l.can.chans.length
    · rw [Live.setChan_chan f hl, h]
    · rw [Live.chan, Live.setChan, Live.setCan]
      dsimp only
      rw [upd, List.modify_eq_self (by omega), Live.chan]
  · rw [Live.setChan_chan_ne f hk]

@[simp] theorem Live.canEvent_can (l : Live) (n k sev c buf : Nat) (bs : List Byte) : (l.canEvent n k sev c buf bs).can = l.can :=
  Live.raise_can ..

@[simp] theorem Live.canEvent_nm (l : Live) (n k sev c buf : Nat) (bs : List Byte) : (l.canEvent n k sev c buf bs).nm = l.nm :=
  Live.raise_nm ..

theorem Live.canEvent_chan (l : Live) (i n k sev c buf : Nat) (bs : List Byte) : (l.canEvent n k sev c buf bs).chan i = l.chan i :=
  Live.chan_congr (congrArg CanState.chans (Live.canEvent_can ..)) i

/-- A row of the running logic, by what it makes of the state. -/
theorem State.onLogic_eq {s : State} {f : Live → Live} {l' : Live} (hp : s.live.sup.phase = .running) (h : f s.live = l') :
    (.next (s.onLogic f) : Result) = .next { s with live := l' } := by
  rw [s.onLogic_running f hp, State.onLive, h]

/-! ### Transmit buffers -/

section
variable {β : Type} {l : Live} {n k : Nat}

theorem Live.txBuf_congr {l l' : Live} (h : l'.can.chans = l.can.chans) (n k : Nat) : l'.txBuf n k = l.txBuf n k := by
  rw [Live.txBuf, Live.chan_congr h, Live.txBuf]

theorem Live.txBuf_lt {b : TxBuf} (h : l.txBuf n k = some b) : n < l.can.chans.length ∧ k < (l.chan n).tx.length := by
  refine ⟨Nat.lt_of_not_le fun hl => ?_, Nat.lt_of_not_le fun hl => ?_⟩
  · rw [Live.txBuf, Live.chan_of_length_le hl] at h
    match k with
    | 0 | 1 | 2 | _ + 3 => cases h
  · rw [Live.txBuf, List.getD_eq_default _ _ hl] at h
    cases h

/-- Loading a buffer touches nothing of a channel but the buffer and the choice. -/
theorem Live.setTx_same (g : CanChan → β) (h : ∀ c tx cur, g { c with tx := tx, cur := cur } = g c) (l : Live) (n k i : Nat)
    (b : Option TxBuf) : g ((l.setTx n k b).chan i) = g (l.chan i) :=
  Live.setChan_same g (fun c => by
    dsimp only
    split
    · exact h c _ c.cur
    · exact h c _ _) l n i

theorem Live.setTx_txBuf {b : Option TxBuf} (hn : n < l.can.chans.length) (hk : k < (l.chan n).tx.length) :
    (l.setTx n k b).txBuf n k = b := by
  rw [Live.txBuf, Live.setTx, Live.setChan_chan _ hn]
  dsimp only
  split <;> simp [hk]

theorem Live.setTx_txBuf_ne {b : Option TxBuf} {i j : Nat} (h : i ≠ n ∨ j ≠ k) : (l.setTx n k b).txBuf i j = l.txBuf i j := by
  rw [Live.txBuf, Live.txBuf]
  by_cases hi : i = n
  · have hj : j ≠ k := h.resolve_left (not_not.mpr hi)
    refine Live.setChan_same (fun c => c.tx.getD j none) (fun c => ?_) l n i
    dsimp only
    split <;> simp [List.getElem?_set, Ne.symm hj]
  · rw [Live.setTx, Live.setChan_chan_ne _ hi]

theorem Live.setTx_txBuf_none : (l.setTx n k none).txBuf n k = none := by
  by_cases hn : n < l.can.chans.length
  · rw [Live.txBuf, Live.setTx, Live.setChan_chan _ hn]
    dsimp only
    split
    all_goals
      rw [List.getD_eq_getElem?_getD, List.getElem?_set, if_pos rfl]
      split <;> rfl
  · cases hx : (l.setTx n k none).txBuf n k with
    | none => rfl
    | some b =>
      have hlt := (Live.txBuf_lt hx).1
      rw [Live.setTx, Live.setChan_length] at hlt
      exact absurd hlt hn

theorem Live.chooseTx_txBuf (l : Live) (n i j : Nat) : (l.chooseTx n).txBuf i j = l.txBuf i j :=
  Live.setChan_same (fun c => c.tx.getD j none) (fun _ => by rfl) l n i

theorem Live.tdcMeasured_same (g : CanChan → β) (h : ∀ c v, g { c with tdcv := v } = g c) (l : Live) (n k v i : Nat) (b : TxBuf) :
    g ((l.tdcMeasured n k v b).chan i) = g (l.chan i) := by
  unfold Live.tdcMeasured
  split
  · rfl
  · dsimp only
    split
    · rw [Live.canEvent_chan]
      exact Live.setChan_same g (fun c => h c _) l n i
    · exact Live.setChan_same g (fun c => h c _) l n i

@[simp] theorem Live.tdcMeasured_nm (l : Live) (n k v : Nat) (b : TxBuf) : (l.tdcMeasured n k v b).nm = l.nm := by
  unfold Live.tdcMeasured
  split
  · rfl
  · dsimp only
    split
    · rw [Live.canEvent_nm]
      rfl
    · rfl

@[simp] theorem Live.abandon_nm (l : Live) (n k c : Nat) : (l.abandon n k c).nm = l.nm := by
  unfold Live.abandon
  split
  · rfl
  · dsimp only
    split
    · rw [Live.canEvent_nm]
      rfl
    · rfl

theorem Live.abandon_same (g : CanChan → β) (h : ∀ c tx cur, g { c with tx := tx, cur := cur } = g c) (l : Live) (n k c i : Nat) :
    g ((l.abandon n k c).chan i) = g (l.chan i) := by
  unfold Live.abandon
  split
  · rfl
  · dsimp only
    split
    · rw [Live.canEvent_chan]
      exact Live.setTx_same g h l n k i none
    · exact Live.setTx_same g h l n k i none

theorem Live.abandon_txBuf (l : Live) (n k c : Nat) : (l.abandon n k c).txBuf n k = none := by
  unfold Live.abandon
  split
  · assumption
  · dsimp only
    split
    · rw [Live.txBuf_congr (congrArg CanState.chans (Live.canEvent_can ..))]
      exact Live.setTx_txBuf_none
    · exact Live.setTx_txBuf_none

/-! ### The ring's message takes a free buffer 0 -/

theorem Live.nmPump_same (g : CanChan → β) (h : ∀ c tx cur, g { c with tx := tx, cur := cur } = g c) (l : Live) (i : Nat) :
    g (l.nmPump.chan i) = g (l.chan i) := by
  unfold Live.nmPump
  split
  · rfl
  · split
    · rfl
    · split
      · rfl
      · dsimp only
        split
        · rfl
        · exact Live.setTx_same g h _ _ _ i _

@[simp] theorem Live.nmPump_host (l : Live) : l.nmPump.host = l.host := by
  unfold Live.nmPump
  split
  · rfl
  · split
    · rfl
    · split
      · rfl
      · dsimp only
        split <;> rfl

theorem Live.nmPump_txBuf (h : k ≠ 0 ∨ l.nm.out = [] ∨ (l.txBuf n k).isSome = true) : l.nmPump.txBuf n k = l.txBuf n k := by
  unfold Live.nmPump
  split
  · rfl
  · rename_i m rest hout
    split
    · rfl
    · split
      · rfl
      · rename_i hfree
        dsimp only
        split
        · rfl
        · refine (Live.setTx_txBuf_ne ?_).trans rfl
          by_cases hk : k = 0
          · subst hk
            refine .inl fun hn => ?_
            rcases h with h | h | h
            · exact h rfl
            · rw [hout] at h
              cases h
            · exact hfree (by rw [show l.nm.cfg.ch = n from hn.symm]; exact h)
          · exact .inr hk

/-! ### The receive ring -/

theorem Live.ringLoss_same (g : CanChan → β) (h : ∀ c o, g { c with overruns := o } = g c) (l : Live) (n c i : Nat) :
    g ((l.ringLoss n c).chan i) = g (l.chan i) := by
  unfold Live.ringLoss
  dsimp only
  split
  · exact Live.setChan_same g (fun c => h c _) l n i
  · rw [Live.canEvent_chan]
    exact Live.setChan_same g (fun c => h c _) l n i

/-- A ring with room takes the entry; a full one drops it while it is read, else loses its oldest. -/
theorem ringWrite_rows (f : CanFrame) (hn : n < l.can.chans.length) :
    ((l.ringWrite n f).chan n).seq = ((l.chan n).seq + 1) % 65536 ∧
    ((l.chan n).ring.length < 256 → ((l.ringWrite n f).chan n).ring = (l.chan n).ring ++ [ringEntry n (l.chan n).seq f] ∧
      (l.ringWrite n f).host = l.host) ∧
    (256 ≤ (l.chan n).ring.length → (l.chan n).locked = true → ((l.ringWrite n f).chan n).ring = (l.chan n).ring ∧
      ((l.ringWrite n f).chan n).overrun = min 0xFFFF ((l.chan n).overrun + 1)) ∧
    (256 ≤ (l.chan n).ring.length → (l.chan n).locked = false →
      ((l.ringWrite n f).chan n).ring = (l.chan n).ring.drop 1 ++ [ringEntry n (l.chan n).seq f] ∧
      ((l.ringWrite n f).chan n).tail = ((l.chan n).tail + 1) % 256 ∧
      ((l.ringWrite n f).chan n).lost = min 0xFFFF ((l.chan n).lost + 1)) := by
  unfold Live.ringWrite
  extract_lets c e l1
  have h1 : l1.chan n = { l.chan n with
      seq := ((l.chan n).seq + 1) % 65536, rxFrames := min (2 ^ 32 - 1) ((l.chan n).rxFrames + 1) } := Live.setChan_chan _ hn
  have hn1 : n < l1.can.chans.length := by
    rw [show l1 = l.setChan n _ from rfl, Live.setChan_length]
    exact hn
  have hhost : l1.host = l.host := rfl
  clear_value l1
  by_cases hr : c.ring.length < 256
  · rw [if_pos hr, Live.setChan_chan _ hn1, h1]
    exact ⟨rfl, fun _ => ⟨rfl, hhost⟩, fun h => absurd hr (Nat.not_lt.mpr h), fun h => absurd hr (Nat.not_lt.mpr h)⟩
  · rw [if_neg hr]
    cases hl : c.locked
    · rw [if_neg (by decide), Live.ringLoss_same CanChan.seq (fun _ _ => rfl), Live.ringLoss_same CanChan.ring (fun _ _ => rfl),
        Live.ringLoss_same CanChan.tail (fun _ _ => rfl), Live.ringLoss_same CanChan.lost (fun _ _ => rfl),
        Live.setChan_chan _ hn1, h1]
      exact ⟨rfl, fun h => absurd h hr, fun _ h => absurd h (by decide), fun _ _ => ⟨rfl, rfl, rfl⟩⟩
    · rw [if_pos rfl, Live.ringLoss_same CanChan.seq (fun _ _ => rfl), Live.ringLoss_same CanChan.ring (fun _ _ => rfl),
        Live.ringLoss_same CanChan.overrun (fun _ _ => rfl), Live.setChan_chan _ hn1, h1]
      exact ⟨rfl, fun h => absurd h hr, fun _ _ => ⟨rfl, rfl⟩, fun _ h => absurd h (by decide)⟩

theorem canFrameReceived_writes {f : CanFrame} (hn3 : n ≤ 3) (hl : (l.chan n).listens = true) (he : f.echo = none)
    (hr : f.res = false) (hfd : keyFdf f.key = true → (l.chan n).cfg.fd = true) : canFrameReceived n f l = l.ringWrite n f := by
  unfold canFrameReceived
  dsimp only
  rw [if_neg (by rw [hl, he, decide_eq_false (by omega)]; decide), if_neg (by simpa using hfd), if_neg (by rw [hr]; decide)]

/-- The tail entry is the one that a read at the tail's index means. -/
theorem tail_index {t : Nat} : (t + 256 - t) % 256 = 0 := by omega

theorem ringLockRead_locks {e : List Byte} {r : List (List Byte)} (hn3 : n ≤ 3) (hring : (l.chan n).ring = e :: r)
    (ht : (l.chan n).tail < 256) : ringLockRead n (l.chan n).tail l = l.setChan n fun c => { c with
      locked := true, filtered := c.locked && c.filtered, readWord := rd e 0 4 + 16384 } := by
  unfold ringLockRead
  dsimp only
  rw [tail_index, hring, if_neg (by rw [decide_eq_false (by omega), decide_eq_false (by omega)]; decide)]
  exact if_pos rfl

theorem ringReleaseRead_frees {e : List Byte} {r : List (List Byte)} (hn : n < l.can.chans.length) (hn3 : n ≤ 3)
    (hring : (l.chan n).ring = e :: r) (ht : (l.chan n).tail < 256) (hlock : (l.chan n).locked = true) :
    ((ringReleaseRead n (l.chan n).tail l).chan n).ring = r ∧
      ((ringReleaseRead n (l.chan n).tail l).chan n).tail = ((l.chan n).tail + 1) % 256 ∧
      ((ringReleaseRead n (l.chan n).tail l).chan n).locked = false ∧ (ringReleaseRead n (l.chan n).tail l).host = l.host := by
  unfold ringReleaseRead
  dsimp only
  rw [tail_index, if_neg (by rw [decide_eq_false (by omega), decide_eq_false (by omega)]; decide), if_pos (by rw [hlock]; rfl),
    Live.setChan_chan _ hn, hring]
  exact ⟨rfl, rfl, rfl, rfl⟩

/-! ### The filter rules -/

/-- What a copy that is dropped or queued leaves of the controllers. -/
theorem Live.fwdDropped_same (g : CanChan → β) (h : ∀ c d, g { c with fwdDrops := d } = g c) (l : Live) (n c i : Nat) :
    g ((l.fwdDropped n c).chan i) = g (l.chan i) := by
  have hset : ∀ (l : Live) (f : CanState → CanState), (∀ c, (f c).chans = c.chans) → ∀ i, (l.setCan f).chan i = l.chan i :=
    fun l f hf => Live.chan_congr (hf _)
  unfold Live.fwdDropped
  extract_lets r l1 l2
  have h2 : g (l2.chan i) = g (l.chan i) :=
    (congrArg g (hset l1 _ (fun _ => by rfl) i)).trans (Live.setChan_same g (fun c => h c _) l n i)
  split
  · exact h2
  · rw [Live.canEvent_chan]
    exact h2

theorem Live.fwdDropped_can (l : Live) (n c : Nat) : (l.fwdDropped n c).can.active = l.can.active ∧
    (l.fwdDropped n c).can.hostQ = l.can.hostQ ∧ (l.fwdDropped n c).can.f1Q = l.can.f1Q ∧
    (l.fwdDropped n c).can.chans.length = l.can.chans.length := by
  unfold Live.fwdDropped
  extract_lets r l1 l2
  have h2 : l2.can.active = l.can.active ∧ l2.can.hostQ = l.can.hostQ ∧ l2.can.f1Q = l.can.f1Q ∧
      l2.can.chans.length = l.can.chans.length := ⟨rfl, rfl, rfl, Live.setChan_length ..⟩
  split
  · exact h2
  · rw [Live.canEvent_can]
    exact h2

theorem Live.toQueue_same (g : CanChan → β) (h : ∀ c d, g { c with fwdDrops := d } = g c) (l : Live) (n i : Nat) (f1 : Bool)
    (e : List Byte) : g ((l.toQueue n f1 e).chan i) = g (l.chan i) := by
  unfold Live.toQueue
  cases f1
  all_goals
    dsimp only
    simp only [Bool.false_eq_true, if_false, if_true]
    split
    · exact Live.fwdDropped_same g h l n _ i
    · split
      · rw [Live.canEvent_chan]
        rfl
      · rfl

theorem Live.toQueue_can (l : Live) (n : Nat) (f1 : Bool) (e : List Byte) : (l.toQueue n f1 e).can.active = l.can.active ∧
    (l.toQueue n f1 e).can.chans.length = l.can.chans.length := by
  unfold Live.toQueue
  cases f1
  all_goals
    dsimp only
    simp only [Bool.false_eq_true, if_false, if_true]
    split
    · obtain ⟨ha, -, -, hl⟩ := l.fwdDropped_can n (b2n _)
      exact ⟨ha, hl⟩
    · split
      · rw [Live.canEvent_can]
        exact ⟨rfl, rfl⟩
      · exact ⟨rfl, rfl⟩

theorem Live.toQueue_host (l : Live) (n : Nat) (e : List Byte) (h : l.can.hostQ.length < 256) :
    (l.toQueue n false e).can.hostQ = l.can.hostQ ++ [e] := by
  unfold Live.toQueue
  dsimp only
  rw [if_neg Bool.false_ne_true, if_neg (Nat.not_le.mpr h)]
  split
  · rw [Live.canEvent_can]
    rfl
  · rfl

theorem Live.toQueue_f1 (l : Live) (n : Nat) (e : List Byte) : (l.toQueue n true e).can.hostQ = l.can.hostQ := by
  unfold Live.toQueue
  dsimp only
  rw [if_pos rfl]
  split
  · exact (l.fwdDropped_can n _).2.1
  · split
    · rw [Live.canEvent_can]
      rfl
    · rfl

theorem Live.toLink_same (g : CanChan → β) (h : ∀ c d, g { c with fwdDrops := d } = g c) (l : Live) (n pos i : Nat) (e : List Byte) :
    g ((l.toLink n pos e).chan i) = g (l.chan i) := by
  unfold Live.toLink
  split
  · exact Live.toQueue_same g h l n i false e
  · split
    · exact Live.fwdDropped_same g h l n 2 i
    · rfl

theorem Live.toLink_can (l : Live) (n pos : Nat) (e : List Byte) : (l.toLink n pos e).can.active = l.can.active ∧
    (l.toLink n pos e).can.chans.length = l.can.chans.length := by
  unfold Live.toLink
  split
  · exact l.toQueue_can n false e
  · split
    · exact ⟨(l.fwdDropped_can n 2).1, (l.fwdDropped_can n 2).2.2.2⟩
    · exact ⟨rfl, rfl⟩

/-- The ring of a channel, the generation in force and the number of channels are as before. -/
def Live.FilterKeeps (n : Nat) (l l' : Live) : Prop :=
  (l'.chan n).ring = (l.chan n).ring ∧ l'.can.active = l.can.active ∧ l'.can.chans.length = l.can.chans.length

theorem Live.FilterKeeps.trans {n : Nat} {l l' l'' : Live} (h : l.FilterKeeps n l') (h' : l'.FilterKeeps n l'') :
    l.FilterKeeps n l'' :=
  ⟨h'.1.trans h.1, h'.2.1.trans h.2.1, h'.2.2.trans h.2.2⟩

theorem Live.toQueue_filterKeeps (l : Live) (n : Nat) (f1 : Bool) (e : List Byte) : l.FilterKeeps n (l.toQueue n f1 e) :=
  ⟨Live.toQueue_same CanChan.ring (fun _ _ => rfl) l n n f1 e, l.toQueue_can n f1 e⟩

theorem Live.toLinks_filterKeeps (ps : List Nat) (l : Live) (n : Nat) (e : List Byte) :
    l.FilterKeeps n (ps.foldl (fun l pos => l.toLink n pos e) l) :=
  List.foldlRecOn (motive := l.FilterKeeps n) _ _ ⟨rfl, rfl, rfl⟩ fun l' hl pos _ =>
    hl.trans ⟨Live.toLink_same CanChan.ring (fun _ _ => rfl) l' n pos n e, l'.toLink_can n pos e⟩

theorem Live.gapHolds_congr {l l' : Live} (h : l'.can.lastFwd = l.can.lastFwd) (r : Nat × List Byte) (sof : Nat) :
    l'.gapHolds r sof = l.gapHolds r sof := by
  rw [Live.gapHolds, h, Live.gapHolds]

/-- One evaluation leaves the ring and the generation; without a match the entry is discarded, a match for the host queues it. -/
theorem filterEntry_rows (e : List Byte) (hn : n < l.can.chans.length) :
    (((l.filterEntry n e).chan n).ring = (l.chan n).ring ∧ (l.filterEntry n e).can.active = l.can.active ∧
      (l.filterEntry n e).can.chans.length = l.can.chans.length) ∧
    (matching n (entryKey e) l.can.active = [] → (l.filterEntry n e).can.hostQ = l.can.hostQ ∧
      (l.filterEntry n e).can.f1Q = l.can.f1Q ∧ ((l.filterEntry n e).chan n).discarded = min 0xFFFF ((l.chan n).discarded + 1)) ∧
    (∀ x, matching n (entryKey e) l.can.active = [x] → l.gapHolds x (rd e 8 8) = false → bit (byteAt x.2 9) 0 = true →
      bit (byteAt x.2 9) 2 = false → l.can.hostQ.length < 256 → (l.filterEntry n e).can.hostQ = l.can.hostQ ++ [e]) := by
  unfold Live.filterEntry
  generalize rd e 8 8 = sof'
  extract_lets key sof ms_ wakes l1 go act l2 l3 l4 l5
  have k1 : l.FilterKeeps n l1 ∧ l1.can.lastFwd = l.can.lastFwd ∧ l1.can.hostQ = l.can.hostQ ∧ l1.can.f1Q = l.can.f1Q ∧
      (l1.chan n).discarded = (l.chan n).discarded := by
    unfold l1
    split
    · exact ⟨⟨Live.setChan_same CanChan.ring (fun _ => by rfl) l n n, rfl, Live.setChan_length ..⟩, rfl, rfl, rfl,
        Live.setChan_same CanChan.discarded (fun _ => by rfl) l n n⟩
    · exact ⟨⟨rfl, rfl, rfl⟩, rfl, rfl, rfl, rfl⟩
  obtain ⟨k1, hlast, hh1, hf1, hd1⟩ := k1
  have hgo : go = ms_.filter fun r => !l.gapHolds r sof := by
    refine congrArg (fun p => List.filter p ms_) (funext fun r => ?_)
    rw [Live.gapHolds_congr hlast]
  clear_value l1
  have k2 : l1.FilterKeeps n l2 ∧ l2.can.hostQ = l1.can.hostQ ∧ l2.can.f1Q = l1.can.f1Q := by
    unfold l2
    split
    · exact ⟨⟨Live.setChan_same CanChan.ring (fun _ => by rfl) l1 n n, rfl, Live.setChan_length ..⟩, rfl, rfl⟩
    · exact ⟨⟨rfl, rfl, rfl⟩, rfl, rfl⟩
  obtain ⟨k2, hh2, hf2⟩ := k2
  have hd2 : ms_ = [] → (l2.chan n).discarded = min 0xFFFF ((l.chan n).discarded + 1) := by
    intro hms
    unfold l2
    rw [hms, if_pos List.isEmpty_nil, Live.setChan_chan _ (by rw [k1.2.2]; exact hn), ← hd1]
  clear_value l2
  have k3 : l2.FilterKeeps n l3 := ⟨rfl, rfl, rfl⟩
  have h3 : l3.can.hostQ = l.can.hostQ ∧ l3.can.f1Q = l.can.f1Q ∧ (l3.chan n).discarded = (l2.chan n).discarded :=
    ⟨hh2.trans hh1, hf2.trans hf1, rfl⟩
  clear_value l3
  have k4 : l3.FilterKeeps n l4 := by
    unfold l4
    split
    · exact l3.toQueue_filterKeeps n false e
    · exact ⟨rfl, rfl, rfl⟩
  have k5 : l4.FilterKeeps n l5 := by
    unfold l5
    split
    · exact l4.toQueue_filterKeeps n true e
    · exact ⟨rfl, rfl, rfl⟩
  refine ⟨k1.trans (k2.trans (k3.trans (k4.trans (k5.trans (l5.toLinks_filterKeeps _ n e))))), fun hms => ?_,
    fun x hms hgap h0 h2 hq => ?_⟩
  · have hnone : go = [] := by rw [hgo, show ms_ = [] from hms, List.filter_nil]
    have h45 : l5 = l3 := by
      unfold l5 l4 act
      rw [hnone]
      rfl
    rw [h45, hnone]
    exact ⟨h3.1, h3.2.1, h3.2.2.trans (hd2 hms)⟩
  · have hone : go = [x] := by rw [hgo, show ms_ = [x] from hms, List.filter_singleton, hgap]; rfl
    have h4 : l4 = l3.toQueue n false e := if_pos (by unfold act; rw [hone, List.any_cons, h0]; rfl)
    have h5 : l5.can.hostQ = l4.can.hostQ := by
      unfold l5
      split
      · exact Live.toQueue_f1 ..
      · rfl
    rw [hone, List.filter_singleton, h2]
    refine (h5.trans (congrArg (fun l => l.can.hostQ) h4)).trans ?_
    rw [Live.toQueue_host _ _ _ (by rw [h3.1]; exact hq), h3.1]

theorem ringEntryFilter_filters {e : List Byte} {r : List (List Byte)} (hring : (l.chan n).ring = e :: r)
    (hlock : (l.chan n).locked = true) (hfil : (l.chan n).filtered = false) (hp : l.sup.phase = .running) :
    ringEntryFilter n l = (l.filterEntry n e).setChan n fun c => { c with filtered := true } := by
  unfold ringEntryFilter
  dsimp only
  rw [hring]
  exact if_neg (by rw [hlock, hfil, hp]; decide)

theorem Live.keepRules_can (l : Live) (m : MbRef) (rules : List (Nat × List Byte)) (ks : List Nat) :
    (l.keepRules m rules ks).can = l.can :=
  List.foldlRecOn (motive := fun l' : Live => l'.can = l.can) _ _ rfl fun _ h _ _ => h

/-- The generation that was built is in force, under the next number. -/
theorem filterSwap_rows {x : FilterBuild} {xs : List FilterBuild} (h : l.can.builds = x :: xs) :
    (filterSwap l).can.active = x.rules ∧ (filterSwap l).can.builds = xs ∧
      (filterSwap l).can.gen = (l.can.gen + 1) % 2 ^ 32 ∧ (filterSwap l).can.lastFwd = [] := by
  unfold filterSwap
  rw [h]
  dsimp only
  generalize hl2 : List.foldl _ (l.setCan _) (List.range 4) = l2
  have h2 : l2.can = { l.can with active := x.rules, builds := xs, gen := (l.can.gen + 1) % 2 ^ 32, lastFwd := [] } := by
    rw [← hl2]
    exact List.foldlRecOn (motive := fun l' : Live => l'.can = _) _ _ rfl fun _ h _ _ => (Live.canEvent_can ..).trans h
  have h1 : l2.can.active = x.rules ∧ l2.can.builds = xs ∧ l2.can.gen = (l.can.gen + 1) % 2 ^ 32 ∧ l2.can.lastFwd = [] := by
    rw [h2]
    exact ⟨rfl, rfl, rfl, rfl⟩
  split
  · rw [Live.complete_can]
    exact h1
  · rw [Live.keepRules_can]
    exact h1

/-! ### Transmission -/

theorem Live.ringWrite_same (g : CanChan → β)
    (h : ∀ c seq rx ring tail lost ov lk fl os, g { c with seq := seq, rxFrames := rx, ring := ring, tail := tail, lost := lost, overrun := ov, locked := lk, filtered := fl, overruns := os } = g c)
    (l : Live) (n i : Nat) (f : CanFrame) : g ((l.ringWrite n f).chan i) = g (l.chan i) := by
  have ho : ∀ c o, g { c with overruns := o } = g c := fun c o => h c c.seq c.rxFrames c.ring c.tail c.lost c.overrun c.locked c.filtered o
  unfold Live.ringWrite
  extract_lets c e l1
  have h1 : g (l1.chan i) = g (l.chan i) :=
    Live.setChan_same g (fun c => h c _ _ c.ring c.tail c.lost c.overrun c.locked c.filtered c.overruns) l n i
  split
  · exact (Live.setChan_same g (fun c => h c c.seq c.rxFrames _ c.tail c.lost c.overrun c.locked c.filtered c.overruns) l1 n i).trans h1
  · split
    · exact ((Live.ringLoss_same g ho ..).trans (Live.setChan_same g (fun c => h c c.seq c.rxFrames c.ring c.tail c.lost _ c.locked c.filtered c.overruns) l1 n i)).trans h1
    · exact ((Live.ringLoss_same g ho ..).trans (Live.setChan_same g (fun c => h c c.seq c.rxFrames _ _ _ c.overrun c.locked c.filtered c.overruns) l1 n i)).trans h1

@[simp] theorem Live.ringWrite_nm (l : Live) (n : Nat) (f : CanFrame) : (l.ringWrite n f).nm = l.nm := by
  have hloss : ∀ (l : Live) (c : Nat), (l.ringLoss n c).nm = l.nm := fun l c => by
    unfold Live.ringLoss
    dsimp only
    split
    · rfl
    · rw [Live.canEvent_nm]
      rfl
  unfold Live.ringWrite
  dsimp only
  split
  · rfl
  · split
    · rw [hloss]
      rfl
    · rw [hloss]
      rfl

/-- A frame that was sent is counted and its buffer is free; the ring's messages stay. -/
theorem canTxDone_sends {tag sof v : Nat} {b : TxBuf} (hb : l.txBuf n k = some b) (ho : b.owner = .send tag)
    (hs : (l.chan n).sends = true) (hm : (l.chan n).mayRun k = true) :
    ((canTxDone n k sof v l).chan n).txFrames = min (2 ^ 32 - 1) ((l.chan n).txFrames + 1) ∧
      (canTxDone n k sof v l).txBuf n k = none ∧ (canTxDone n k sof v l).nm = l.nm := by
  have hn := (Live.txBuf_lt hb).1
  unfold canTxDone
  rw [hb]
  dsimp only
  rw [if_neg (by rw [hs, hm]; decide), ho]
  dsimp only
  generalize hl1 : ((l.setTx n k none).chooseTx n).setChan n _ = l1
  have h1 : (l1.chan n).txFrames = min (2 ^ 32 - 1) ((l.chan n).txFrames + 1) ∧ l1.txBuf n k = none ∧ l1.nm = l.nm := by
    subst hl1
    refine ⟨?_, ?_, rfl⟩
    · rw [Live.setChan_chan _ (by rw [Live.chooseTx, Live.setChan_length, Live.setTx, Live.setChan_length]; exact hn)]
      refine congrArg (fun t => min (2 ^ 32 - 1) (t + 1)) ?_
      exact (Live.setChan_same CanChan.txFrames (fun _ => by rfl) _ n n).trans
        (Live.setTx_same CanChan.txFrames (fun _ _ _ => rfl) l n k n none)
    · exact ((Live.setChan_same (fun c => c.tx.getD k none) (fun _ => by rfl) _ n n).trans (Live.chooseTx_txBuf ..)).trans
        Live.setTx_txBuf_none
  clear hl1
  generalize hl2 : l1.tdcMeasured n k v b = l2
  have h2 : (l2.chan n).txFrames = min (2 ^ 32 - 1) ((l.chan n).txFrames + 1) ∧ l2.txBuf n k = none ∧ l2.nm = l.nm := by
    rw [← hl2, Live.tdcMeasured_same CanChan.txFrames (fun _ _ => rfl), Live.tdcMeasured_nm, Live.txBuf,
      Live.tdcMeasured_same (fun c => c.tx.getD k none) (fun _ _ => rfl)]
    exact h1
  rw [Live.canEvent_nm, Live.canEvent_chan, Live.txBuf, Live.canEvent_chan]
  split
  · rw [Live.ringWrite_same CanChan.txFrames (fun _ _ _ _ _ _ _ _ _ _ => rfl), Live.ringWrite_nm,
      Live.ringWrite_same (fun c => c.tx.getD k none) (fun _ _ _ _ _ _ _ _ _ _ => rfl)]
    exact h2
  · exact h2

theorem canTxDoneNm_rows {tag sof v : Nat} {b : TxBuf} (hb : l.txBuf n k = some b) (ho : b.owner = .send tag)
    (hs : (l.chan n).sends = true) (hm : (l.chan n).mayRun k = true) :
    ((canTxDoneNm n k sof v l).chan n).txFrames = min (2 ^ 32 - 1) ((l.chan n).txFrames + 1) ∧
      (k ≠ 0 ∨ l.nm.out = [] → (canTxDoneNm n k sof v l).txBuf n k = none) := by
  obtain ⟨ht, hfree, hnm⟩ := canTxDone_sends (sof := sof) (v := v) hb ho hs hm
  unfold canTxDoneNm
  dsimp only
  rw [hb]
  dsimp only
  rw [if_neg (by rw [ho]; exact Bool.false_ne_true)]
  refine ⟨(Live.nmPump_same CanChan.txFrames (fun _ _ _ => rfl) _ n).trans ht, fun h => ?_⟩
  rw [Live.nmPump_txBuf (h.imp_right fun h => .inl (by rw [hnm]; exact h)), hfree]

/-- A frame that failed is counted as an attempt while retransmissions are left, else its buffer is free. -/
theorem canTxError_rows {err v : Nat} {b : TxBuf} (hb : l.txBuf n k = some b)
    (hs : (l.chan n).sends = true) (hm : (l.chan n).mayRun k = true) :
    ((canTxError n k err v l).chan n).lastErr = err ∧ (canTxError n k err v l).nm = l.nm ∧
      (b.freeing = none → b.attempts < (l.chan n).cfg.retxMax →
        (canTxError n k err v l).txBuf n k = some { b with attempts := b.attempts + 1 }) ∧
      (b.freeing ≠ none ∨ (l.chan n).cfg.retxMax ≤ b.attempts → (canTxError n k err v l).txBuf n k = none) := by
  obtain ⟨hn, hk⟩ := Live.txBuf_lt hb
  unfold canTxError
  rw [hb]
  dsimp only
  rw [if_neg (by rw [hs, hm]; decide)]
  generalize hl1 : (l.setChan n fun c => { c with lastErr := err }).tdcMeasured n k v b = l1
  have h1 : (l1.chan n).lastErr = err ∧ l1.nm = l.nm ∧ (l1.chan n).cfg = (l.chan n).cfg ∧ (l1.chan n).tx = (l.chan n).tx := by
    rw [← hl1, Live.tdcMeasured_nm, Live.tdcMeasured_same CanChan.lastErr (fun _ _ => rfl),
      Live.tdcMeasured_same CanChan.cfg (fun _ _ => rfl), Live.tdcMeasured_same CanChan.tx (fun _ _ => rfl),
      Live.setChan_chan _ hn]
    exact ⟨rfl, rfl, rfl, rfl⟩
  obtain ⟨herr, hnm, hcfg, htx⟩ := h1
  clear hl1
  have hch : ∀ l : Live, ((l.chooseTx n).chan n).lastErr = (l.chan n).lastErr := fun l =>
    Live.setChan_same CanChan.lastErr (fun _ => by rfl) l n n
  rw [Live.chooseTx_txBuf, hch, hcfg]
  cases hf : b.freeing with
  | some cause =>
    refine ⟨(Live.abandon_same CanChan.lastErr (fun _ _ _ => rfl) ..).trans herr, (Live.abandon_nm ..).trans hnm,
      fun h => (Option.some_ne_none _ h).elim, fun _ => Live.abandon_txBuf ..⟩
  | none =>
    dsimp only
    by_cases hr : (l.chan n).cfg.retxMax < b.attempts + 1
    · rw [if_pos hr]
      exact ⟨(Live.abandon_same CanChan.lastErr (fun _ _ _ => rfl) ..).trans herr, (Live.abandon_nm ..).trans hnm,
        fun _ h => absurd h (by omega), fun _ => Live.abandon_txBuf ..⟩
    · have hn1 : n < l1.can.chans.length := by
        refine Live.chan_lt CanChan.tx ?_
        rw [htx]
        intro h
        rw [Live.txBuf, h] at hb
        match k with
        | 0 | 1 | 2 | _ + 3 => cases hb
      rw [if_neg hr, Live.setTx_same CanChan.lastErr (fun _ _ _ => rfl), Live.setTx_txBuf hn1 (by rw [htx]; exact hk)]
      exact ⟨herr, hnm, fun _ _ => rfl, fun h => absurd h (by rintro (h | h); exacts [h rfl, hr (by omega)])⟩

/-! ### Error states -/

theorem Live.errorState_chan {st c : Nat} (hn : n < l.can.chans.length) :
    (l.errorState n st c).chan n = { l.chan n with
      errState := st, busoffAt := if st = 3 then l.mt.now else (l.chan n).busoffAt } := by
  unfold Live.errorState
  dsimp only
  rw [Live.canEvent_chan, Live.setChan_chan _ hn]

theorem Live.sendAlive_same (g : CanChan → β) (h : ∀ c tx cur, g { c with tx := tx, cur := cur } = g c) (l : Live) (i : Nat) :
    g (l.sendAlive.chan i) = g (l.chan i) := by
  unfold Live.sendAlive
  split
  · rfl
  · have hp : g ((l.nmSend .alive).chan i) = g (l.chan i) :=
      (Live.nmPump_same g h _ i).trans rfl
    unfold Live.restartRounds
    split
    · exact hp
    · exact hp

theorem Live.nmChannel_same (g : CanChan → β) (h : ∀ c tx cur, g { c with tx := tx, cur := cur } = g c) (l : Live) (i : Nat) :
    g (l.nmChannel.chan i) = g (l.chan i) := by
  have hf : l.nmFollow.chan i = l.chan i := by
    unfold Live.nmFollow
    dsimp only
    split
    · rfl
    · exact (Live.chan_congr (congrArg CanState.chans (Live.raise_can ..)) i).trans rfl
  unfold Live.nmChannel
  dsimp only
  split
  · rw [Live.sendAlive_same g h, hf]
  · rw [hf]

/-- The counters are as reported; the error state follows them, but for a bus-off that has not recovered. -/
theorem errorStateChange_rows {tec rec_ : Nat} {off back : Bool} (hn3 : n ≤ 3) (hm : (l.chan n).mode ≠ 0) :
    ((errorStateChange n tec rec_ off back l).chan n).tec = min 255 tec ∧
      ((errorStateChange n tec rec_ off back l).chan n).rec_ = min 255 rec_ ∧
      ((errorStateChange n tec rec_ off back l).chan n).errState = if off then 3
        else if ((l.chan n).errState = 3 ∨ (l.chan n).errState = 4) ∧ back = false
        then (l.chan n).errState else if 128 ≤ max tec rec_ then 2 else if 96 ≤ max tec rec_ then 1 else 0 := by
  have hn : n < l.can.chans.length := Live.chan_lt CanChan.mode hm
  unfold errorStateChange
  extract_lets c held worst st l1
  rw [if_neg (by rw [decide_eq_false hm, decide_eq_false (by omega)]; decide)]
  have hst : st = if off then 3 else if ((l.chan n).errState = 3 ∨ (l.chan n).errState = 4) ∧ back = false
      then (l.chan n).errState else if 128 ≤ max tec rec_ then 2 else if 96 ≤ max tec rec_ then 1 else 0 := by
    refine if_congr Iff.rfl rfl (if_congr ?_ rfl rfl)
    unfold held
    cases back <;> simp [c]
  have h1 : l1.chan n = { l.chan n with tec := min 255 tec, rec_ := min 255 rec_ } := Live.setChan_chan _ hn
  have hn1 : n < l1.can.chans.length := (Live.setChan_length ..).symm ▸ hn
  rw [← hst]
  clear_value l1 st
  split
  · rename_i h
    rw [h1]
    exact ⟨rfl, rfl, h.symm⟩
  · rw [Live.errorState_chan hn1, h1]
    exact ⟨rfl, rfl, rfl⟩

end

end Sys2Proof.Machine

open Sys2Proof Sys2Proof.Machine

/-- Settles O40: each row's body with its conditions met, by what the channel reads after it. -/
theorem canBus : Obligations.CanBus := by
  refine ⟨fun n f s hn hn3 hp hl he hr hfd => ?_, fun n e r s hn hn3 hp hring ht => ⟨?_, fun hlock => ?_, fun hlock hfil => ?_⟩,
    fun x xs s hp hb => ?_, fun n k sof v tag b s hp hb ho hs hm => ?_, fun n k err v tag b s hp hb ho hs hm => ?_,
    fun n k dl b s hp hb hd ht => ⟨?_, fun hm => ?_⟩, fun n tec rec_ off back s hn hp hm => ?_,
    fun n s hp he ha ht => ?_, fun n t dom s hn hp hm ht => ?_⟩
  · have hw := canFrameReceived_writes hn3 hl he hr hfd
    exact ⟨_, State.onLogic_eq hp hw, rfl, ringWrite_rows f hn⟩
  · have hx := ringLockRead_locks hn3 hring ht
    refine ⟨_, State.onLogic_eq hp hx, rfl, ?_⟩
    dsimp only
    rw [Live.setChan_chan _ hn]
    exact ⟨rfl, rfl, rfl, rfl⟩
  · exact ⟨_, congrArg Host.Outcome.next (s.onLogic_running _ hp), rfl, ringReleaseRead_frees hn hn3 hring ht hlock⟩
  · have hx := ringEntryFilter_filters hring hlock hfil hp
    obtain ⟨⟨hr, ha, hlen⟩, hnone, hone⟩ := filterEntry_rows (l := s.live) e hn
    have hc := Live.setChan_chan (l := s.live.filterEntry n e) (n := n) (fun c => { c with filtered := true })
      (hlen.symm ▸ hn)
    refine ⟨s.onLive (ringEntryFilter n), rfl, rfl, ?_⟩
    rw [State.onLive, hx]
    dsimp only
    rw [hc]
    exact ⟨rfl, hr, ha, hnone, hone⟩
  · exact ⟨_, congrArg Host.Outcome.next (s.onLogic_running _ hp), rfl, filterSwap_rows hb⟩
  · exact ⟨_, congrArg Host.Outcome.next (s.onLogic_running _ hp), rfl, canTxDoneNm_rows hb ho hs hm⟩
  · obtain ⟨herr, hnm, hmore, hfree⟩ := canTxError_rows (err := err) (v := v) hb hs hm
    refine ⟨_, congrArg Host.Outcome.next (s.onLogic_running _ hp), rfl,
      (Live.nmPump_same CanChan.lastErr (fun _ _ _ => rfl) _ n).trans herr, fun h1 h2 => ?_, fun h1 h2 => ?_⟩
    · have hx := hmore h1 h2
      exact (Live.nmPump_txBuf (.inr (.inr (by rw [hx]; rfl)))).trans hx
    · exact (Live.nmPump_txBuf (h2.imp_right fun h => .inl (by rw [hnm]; exact h))).trans (hfree h1)
  · have hx : canTxDeadline n k false s.live = s.live.abandon n k 1 := by
      unfold canTxDeadline
      rw [hb]
      dsimp only
      rw [if_neg (by simp [hd, ht]), Bool.false_and, if_neg Bool.false_ne_true]
    refine ⟨_, congrArg Host.Outcome.next (s.onLogic_running _ hp), rfl, fun h => ?_⟩
    refine (congrArg (fun l : Live => l.nmPump.txBuf n k) hx).trans ?_
    rw [Live.nmPump_txBuf (h.imp_right fun h => .inl (by rw [Live.abandon_nm]; exact h)), Live.abandon_txBuf]
  · have hx : canTxDeadline n k true s.live = s.live.setTx n k (some { b with freeing := some (b.freeing.getD 1) }) := by
      unfold canTxDeadline
      rw [hb]
      dsimp only
      rw [if_neg (by simp [hd, ht]), if_pos (by rw [hm]; rfl)]
    obtain ⟨hn, hk⟩ := Live.txBuf_lt hb
    have hset := Live.setTx_txBuf (b := some { b with freeing := some (b.freeing.getD 1) }) hn hk
    refine ⟨_, State.onLogic_eq (l' := (s.live.setTx n k _).nmPump) hp (congrArg Live.nmPump hx), rfl, Live.nmPump_host _, ?_⟩
    exact (Live.nmPump_txBuf (.inr (.inr (by rw [hset]; rfl)))).trans hset
  · obtain ⟨h1, h2, h3⟩ := errorStateChange_rows (l := s.live) (tec := tec) (rec_ := rec_) (off := off) (back := back) hn hm
    exact ⟨_, congrArg Host.Outcome.next (s.onLogic_running _ hp), rfl,
      (Live.nmChannel_same CanChan.tec (fun _ _ _ => rfl) _ n).trans h1,
      (Live.nmChannel_same CanChan.rec_ (fun _ _ _ => rfl) _ n).trans h2,
      (Live.nmChannel_same CanChan.errState (fun _ _ _ => rfl) _ n).trans h3⟩
  · have hx : busoffHoldExpiry n s.live = s.live.errorState n 4 4 := if_pos (by simp [he, ha, ht])
    refine ⟨_, State.onLogic_eq hp hx, rfl, ?_⟩
    dsimp only
    rw [Live.errorState_chan (Live.chan_lt CanChan.errState (by rw [he]; decide))]
  · refine ⟨_, congrArg Host.Outcome.next (s.onLogic_running _ hp), rfl, ?_⟩
    show ((busStuck n dom t s.live).chan n).stuck = dom
    unfold busStuck
    dsimp only
    rw [decide_eq_false hm, decide_eq_false (Nat.not_lt.mpr hn), decide_eq_false (Nat.not_lt.mpr ht)]
    split
    · rename_i h
      exact eq_of_beq (by simpa using h)
    · rw [Live.canEvent_chan, Live.setChan_chan _ (Live.chan_lt CanChan.mode hm)]
end

section
/-! Network time and the speed signal on CAN. -/

namespace Sys2Proof.Machine

section
variable {l : Live}

/-! ### References of a master -/

/-- A reference is loaded under the next number into a free buffer of a channel that transmits. -/
theorem referenceLoad_loads {t0 : TimeMaster} (hmaster : l.can.master = some t0) (hk : t0.period < l.mt.now / ms (max 1 t0.refMs))
    (hmode : (l.chan t0.ch).mode = 1) (he : (l.chan t0.ch).errState < 3) (hp : l.sup.phase = .running)
    (hfree : l.txBuf t0.ch 0 = none) (hw : t0.waits = false) :
    referenceLoad l = (l.setCan fun s => { s with master := some { t0 with
      period := l.mt.now / ms (max 1 t0.refMs), rseq := (t0.rseq + 1) % 16, prev := none, waits := true } }).setTx t0.ch 0
        (some { owner := .ref, key := t0.refId, brs := false, dlc := 8, data := l.refPayload t0, deadline := none,
                attempts := 0, freeing := none }) := by
  unfold referenceLoad
  rw [hmaster]
  dsimp only
  have h3 : (l.chan t0.ch).errState ≠ 3 := by omega
  have h4 : (l.chan t0.ch).errState ≠ 4 := by omega
  rw [if_neg (by rw [hmode, hp, decide_eq_false (by omega)]; decide), decide_eq_false h3, decide_eq_false h4, if_neg (by decide), hw,
    if_neg Bool.false_ne_true, if_neg Bool.false_ne_true, hfree, if_neg (by decide)]
  obtain ⟨ch, refMs, refId, rseq, prev, period, waits⟩ := t0
  obtain rfl : waits = false := hw
  rfl

/-! ### References of a source -/

/-- What a correction of MT makes of a CAN source: the times that it holds move with MT. -/
theorem Live.correctMt_source {t : TimeSource} (h : l.can.source = some t) (cause : Nat) (err : Int) :
    (l.correctMt cause err).can.source = some { t with
      lastRef := t.lastRef + (l.correctMt cause err).mt.now - l.mt.now
      lastSof := t.lastSof + (l.correctMt cause err).mt.now - l.mt.now } := by
  have hstay : l.can.source = some { t with
      lastRef := t.lastRef + l.mt.now - l.mt.now, lastSof := t.lastSof + l.mt.now - l.mt.now } := by
    rw [Nat.add_sub_cancel, Nat.add_sub_cancel]
    exact h
  have hset : ∀ (l : Live) (n : Nat), l.can.source = some t → (l.setMt n).can.source = some { t with
      lastRef := t.lastRef + (l.setMt n).mt.now - l.mt.now, lastSof := t.lastSof + (l.setMt n).mt.now - l.mt.now } :=
    fun l n h => congrArg (Option.map _) h
  unfold Live.correctMt
  dsimp only
  split
  · have hr := hset (l.raise 0x008 notice cause (le 8 ((l.mt.now : Int) + err).toNat)) ((l.mt.now : Int) + err).toNat
      (by rw [Live.raise_can]; exact h)
    rw [Live.raise_mt] at hr
    exact hr
  · split
    · exact hstay
    · split
      · rw [Live.raise_can, Live.raise_mt]
        exact hset l _ h
      · split
        · exact hstay
        · rw [Live.raise_can, Live.raise_mt]
          exact hstay

theorem Live.applyOffset_source (t : TimeSource) (off : Int) : (l.applyOffset t off).can.source = some { t with
    offset := off, good := if off.natAbs < 1000 then t.good + 1 else 0
    lastRef := t.lastRef + (l.applyOffset t off).mt.now - l.mt.now
    lastSof := t.lastSof + (l.applyOffset t off).mt.now - l.mt.now } := by
  unfold Live.applyOffset
  extract_lets good l1 l2 l3
  have h1 : l1.can.source = some { t with offset := off, good := good } ∧ l1.mt = l.mt := ⟨rfl, rfl⟩
  have h2 : l2.can = l1.can ∧ l2.mt = l1.mt := by
    unfold l2
    split
    · exact ⟨Live.canEvent_can .., Live.raise_mt ..⟩
    · exact ⟨rfl, rfl⟩
  have h3 : l3.can = l2.can ∧ l3.mt = l2.mt := by
    unfold l3
    split
    · exact ⟨Live.canEvent_can .., Live.raise_mt ..⟩
    · exact ⟨rfl, rfl⟩
  have hs : l3.can.source = some { t with offset := off, good := good } := by rw [h3.1, h2.1, h1.1]
  have hmt : l3.mt = l.mt := by rw [h3.2, h2.2, h1.2]
  clear_value l3
  split
  · rw [Live.correctMt_source hs, hmt]
  · rw [hs, hmt, Nat.add_sub_cancel, Nat.add_sub_cancel]

/-- A valid reference is the last one; one that follows on the last gives the offset of the last. -/
theorem referenceReceived_rows {f : CanFrame} {t0 : TimeSource} (hp : l.sup.phase = .running) (hs : l.can.source = some t0)
    (hch : t0.ch = f.ch) (hkey : f.key = t0.refId) (hdlc : f.dlc = 8) (hl : (l.chan f.ch).listens = true) :
    ∃ x, (referenceReceived f l).can.source = some x ∧
      x.lastSeq = some (byteAt f.data 0 % 16) ∧ x.lastSof = f.sof + (referenceReceived f l).mt.now - l.mt.now ∧
      x.lastRef = (referenceReceived f l).mt.now ∧
      (t0.lastSeq = none ∨ bit (byteAt f.data 0) 4 = false → x.offset = t0.offset ∧ (referenceReceived f l).mt = l.mt) ∧
      (t0.lastSeq = some ((byteAt f.data 0 % 16 + 15) % 16) → bit (byteAt f.data 0) 4 = true →
        x.offset = (extendMt l.mt.now 1 56 (rd f.data 1 7) : Int) + t0.propNs - t0.lastSof ∧
        x.good = if x.offset.natAbs < 1000 then t0.good + 1 else 0) := by
  unfold referenceReceived
  rw [hs]
  dsimp only
  rw [if_neg (by rw [hch, hkey, hdlc, hl, hp, bne_self_eq_false f.ch, bne_self_eq_false t0.refId]; decide)]
  generalize hg : (t0.lastSeq.isSome && !(t0.lastSeq == some ((byteAt f.data 0 % 16 + 15) % 16))) = gap
  generalize hl2 : (if gap = true then _ else _ : Live) = l2
  have h2 : l2.can.source = some { t0 with lastSeq := some (byteAt f.data 0 % 16), lastSof := f.sof, lastRef := l.mt.now } ∧
      l2.mt = l.mt := by
    rw [← hl2]
    split
    · rw [Live.canEvent_can, show ∀ (l : Live) a b c d e bs, (l.canEvent a b c d e bs).mt = l.mt from
        fun _ _ _ _ _ _ _ => Live.raise_mt ..]
      exact ⟨rfl, rfl⟩
    · exact ⟨rfl, rfl⟩
  obtain ⟨hsrc, hmt⟩ := h2
  clear hl2
  by_cases hf : (t0.lastSeq == some ((byteAt f.data 0 % 16 + 15) % 16) && bit (byteAt f.data 0) 4) = true
  · rw [if_pos hf]
    refine ⟨_, Live.applyOffset_source .., rfl, by rw [hmt], by rw [hmt]; exact Nat.add_sub_cancel_left .., fun h => ?_,
      fun _ _ => ⟨by rw [hmt], rfl⟩⟩
    rcases h with h | h
    · rw [h] at hf
      cases hf
    · rw [h, Bool.and_false] at hf
      cases hf
  · rw [if_neg hf]
    refine ⟨_, hsrc, rfl, by rw [hmt]; exact (Nat.add_sub_cancel ..).symm, by rw [hmt], fun _ => ⟨rfl, hmt⟩, fun h1 h2 => ?_⟩
    exact absurd (by rw [h1, h2, Bool.and_true]; exact beq_self_eq_true _) hf

end

end Sys2Proof.Machine

open Sys2Proof Sys2Proof.Machine

/-- Settles O41: each row's body with its conditions met; a correction of MT moves the times of the source with it. -/
theorem canTimeAndSpeed : Obligations.CanTimeAndSpeed := by
  refine ⟨fun t0 s hp hm hk hmode he hlen hfree hw => ?_, fun f t0 s hp hs hch hkey hdlc hl => ?_, fun f v s hp hv hch hkey hl => ?_,
    fun v s hp hv => ?_, fun m b s h => ?_, fun m b s h => ?_⟩
  · have hx := referenceLoad_loads hm hk hmode he hp hfree hw
    have hn : t0.ch < s.live.can.chans.length := Live.chan_lt CanChan.mode (by rw [hmode]; decide)
    have hb := Live.setTx_txBuf (l := s.live.setCan fun s' => { s' with master := some { t0 with
      period := s.live.mt.now / ms (max 1 t0.refMs), rseq := (t0.rseq + 1) % 16, prev := none, waits := true } }) (k := 0)
      (b := some { owner := .ref, key := t0.refId, brs := false, dlc := 8, data := s.live.refPayload t0, deadline := none,
                   attempts := 0, freeing := none }) hn hlen
    rw [← hx] at hb
    exact ⟨s.onLive referenceLoad, _, rfl, rfl, (congrArg Live.host hx).trans rfl, hb, rfl, rfl, rfl, rfl,
      (congrArg (fun l => l.can.master) hx).trans rfl⟩
  · exact ⟨s.onLive (referenceReceived f), (referenceReceived_rows hp hs hch hkey hdlc hl).choose, rfl, rfl,
      (referenceReceived_rows hp hs hch hkey hdlc hl).choose_spec⟩
  · refine congrArg Host.Outcome.next (congrArg (fun l => { s with live := l }) ?_)
    unfold speedFrame
    rw [hv]
    dsimp only
    rw [if_neg (by rw [hch, hkey, hl, hp, bne_self_eq_false f.ch, bne_self_eq_false f.key]; decide)]
  · have hx : speedTimeout s.live = if v.at_ + ms v.timeoutMs < s.live.mt.now then
        s.live.setCan fun c => { c with speed := some { v with value := none } } else s.live := by
      unfold speedTimeout
      rw [hv]
    refine (State.onLogic_eq hp hx).trans (congrArg Host.Outcome.next ?_)
    split <;> rfl
  · intro p role ch heldM heldS h0 h1 h2 hrtr hfdf hid hlo hhi h10 h11
    have hid' : keyIde (rd p 4 4) = true ∨ rd p 4 4 % 262144 = 0 := hid
    have hc := checked_pass (α := Reply × Live) (cs := [(0, decide (role ≤ 2)), (1, decide (ch ≤ 3)), (2, inRange 10 500 (rd p 2 2)),
      (4, !keyRtr (rd p 4 4) && !keyFdf (rd p 4 4) && (keyIde (rd p 4 4) || rd p 4 4 % 2 ^ 18 == 0)),
      (8, decide (-1000 ≤ rdInt p 8 2) && decide (rdInt p 8 2 ≤ 1000)), (10, decide (byteAt p 10 < 2)), (11, byteAt p 11 == 0)])
      (by simp [h0, h1, h2, hrtr, hfdf, hid', hlo, hhi, h10, h11])
    refine ⟨fun hr hh => ?_, fun hr hh => ?_, fun hr hh => ?_, fun hr => ?_⟩
    · refine congrArg Host.Outcome.next (State.command_answer h ?_)
      unfold canTime
      dsimp only
      refine (hc _ _).trans (if_pos ?_)
      rw [Bool.and_eq_true, Bool.or_eq_true]
      exact ⟨by simpa using hr, hh⟩
    · refine congrArg Host.Outcome.next (State.command_answer h ?_)
      unfold canTime
      dsimp only
      refine (hc _ _).trans ?_
      split
      · rfl
      · exact if_pos (by rw [show byteAt b.payload 0 = 1 from hr, hh]; rfl)
    · refine congrArg Host.Outcome.next (State.command_answer h ?_)
      unfold canTime
      dsimp only
      refine (hc _ _).trans ?_
      rw [show byteAt b.payload 0 = 2 from hr, hh]
      split
      · rfl
      · rfl
    · refine congrArg Host.Outcome.next ((State.command_ends h _).trans (congrArg (s.ends m) ?_))
      unfold canTime
      dsimp only
      refine (hc _ _).trans ?_
      have hobj : (if (decide (role = 1) || (decide (role = 0) && heldM)) = true then 0 else 1) =
          if role = 1 ∨ (role = 0 ∧ heldM = true) then 0 else 1 := by simp
      rw [← hobj]
      rcases hr with hr | ⟨hr, hm, hs, ht⟩ | ⟨hr, hs, hm⟩
      · rw [show byteAt b.payload 0 = 0 from hr, if_neg (by simp), if_neg (by simp), if_neg (by simp)]
        rw [show role = 0 from hr]
      · have hm' : heldM = false := by unfold heldM; rw [hm]; rfl
        have ht' : ((s.live.txBuf ch 0).isSome && !s.live.txb0Reserved ch) = false := by
          cases hx : (s.live.txBuf ch 0).isSome
          · rfl
          · rw [ht hx]; rfl
        rw [show byteAt b.payload 0 = 1 from hr, show Option.any (fun t : TimeMaster => t.ch == byteAt b.payload 1)
          s.live.can.master = false from hm', show Option.any (fun t : TimeSource => t.ch == byteAt b.payload 1)
          s.live.can.source = false from hs, if_neg (by decide), hm, if_neg (by
            rw [show ((s.live.txBuf (byteAt b.payload 1) 0).isSome && !s.live.txb0Reserved (byteAt b.payload 1)) = false from ht']
            decide), if_neg (by simp), show role = 1 from hr, hm']
      · have hs' : heldS = false := by unfold heldS; rw [hs]; rfl
        rw [show byteAt b.payload 0 = 2 from hr, show Option.any (fun t : TimeMaster => t.ch == byteAt b.payload 1)
          s.live.can.master = false from hm, show Option.any (fun t : TimeSource => t.ch == byteAt b.payload 1)
          s.live.can.source = false from hs', if_neg (by decide), if_neg (by simp), hs, if_neg (by decide),
          show role = 2 from hr, hm]
  · intro p h0 h1 h4 h5 h6 h12 h14 hfit hal
    refine congrArg Host.Outcome.next ((State.command_ends h _).trans (congrArg (s.ends m) ?_))
    have hn : 1 ≤ byteAt p 4 := by
      simp only [inRange, Bool.and_eq_true, decide_eq_true_eq] at h4
      exact h4.1
    have hstart : rd p 2 2 ≤ 511 := by omega
    have hbytes : (byteAt p 1 != 1 || (rd p 2 2 % 8 == 0 && byteAt p 4 % 8 == 0)) = true := by
      by_cases hx : byteAt p 1 = 1
      · obtain ⟨ha, hb⟩ := hal hx
        rw [ha, hb]
        exact Bool.or_true _
      · simp [hx]
    unfold canSpeed
    dsimp only
    exact checked_pass (cs := [(0, decide (byteAt p 0 ≤ 3) || byteAt p 0 == 0xFF), (1, decide (byteAt p 1 ≤ 1)),
      (2, decide (rd p 2 2 ≤ 511)), (4, inRange 1 16 (byteAt p 4)), (5, decide (byteAt p 5 < 2)), (6, decide (1 ≤ rd p 6 2)),
      (12, inRange 20 5000 (rd p 12 2)), (14, rd p 14 2 == 0), (2, decide (rd p 2 2 + byteAt p 4 ≤ 512) &&
        (byteAt p 1 != 1 || (rd p 2 2 % 8 == 0 && byteAt p 4 % 8 == 0)))]) (by
      rw [hbytes]
      simp [h0, h1, h4, h5, h6, h12, h14, hfit, hstart]) _ _
end

section
/-! The CAN commands with legal fields. -/

namespace Sys2Proof.Machine

section
variable {l : Live}

/-! ### CAN.MODE -/

/-- What the drive of the transceivers leaves of a channel. -/
theorem Live.driveTrx_same {β : Type} (g : CanChan → β) (h : ∀ c stb on, g { c with stb := stb, txOn := on } = g c) {n : Nat}
    (hn : n < l.can.chans.length) : g (l.driveTrx.chan n) = g (l.chan n) := by
  rw [Live.chan, Live.driveTrx]
  dsimp only
  rw [List.getD_eq_getElem?_getD, List.getElem?_map, List.getElem?_eq_getElem hn, Option.map_some, Option.getD_some, h,
    Live.chan, List.getD_eq_getElem?_getD, List.getElem?_eq_getElem hn, Option.getD_some]

theorem Live.abandon_length (l : Live) (n k c : Nat) : (l.abandon n k c).can.chans.length = l.can.chans.length := by
  unfold Live.abandon
  split
  · rfl
  · dsimp only
    split
    · rw [Live.canEvent_can, Live.setTx, Live.setChan_length]
    · rw [Live.setTx, Live.setChan_length]

/-- The mode is in force; a channel that is disabled is error-active with clear counters. -/
theorem Live.applyMode_chan {n mode : Nat} (hn : n < l.can.chans.length) : ((l.applyMode n mode).chan n).mode = mode ∧
    (mode = 0 → ((l.applyMode n mode).chan n).tec = 0 ∧ ((l.applyMode n mode).chan n).rec_ = 0 ∧
      ((l.applyMode n mode).chan n).errState = 0) := by
  unfold Live.applyMode
  extract_lets c l1 l2 l3
  have h1 : l1.can.chans.length = l.can.chans.length := by
    unfold l1
    split
    · exact List.foldlRecOn (motive := fun l' : Live => l'.can.chans.length = l.can.chans.length) _ _ rfl
        fun l' h _ _ => (Live.abandon_length l' n _ _).trans h
    · rfl
  have hn1 : n < l1.can.chans.length := h1.symm ▸ hn
  clear_value l1
  have h2 : (l2.chan n).mode = mode ∧ (mode = 0 → (l2.chan n).tec = 0 ∧ (l2.chan n).rec_ = 0 ∧ (l2.chan n).errState = 0) := by
    unfold l2
    rw [Live.setChan_chan _ hn1]
    split
    · exact ⟨rfl, fun _ => ⟨rfl, rfl, rfl⟩⟩
    · rename_i h
      refine ⟨rfl, fun hm => absurd ?_ h⟩
      rw [hm]
      exact Bool.or_true _
  have hn2 : n < l2.can.chans.length := (Live.setChan_length ..).symm ▸ hn1
  clear_value l2
  have h3 : (l3.chan n).mode = mode ∧ (mode = 0 → (l3.chan n).tec = 0 ∧ (l3.chan n).rec_ = 0 ∧ (l3.chan n).errState = 0) := by
    unfold l3
    rw [Live.driveTrx_same CanChan.mode (fun _ _ _ => rfl) hn2, Live.driveTrx_same CanChan.tec (fun _ _ _ => rfl) hn2,
      Live.driveTrx_same CanChan.rec_ (fun _ _ _ => rfl) hn2, Live.driveTrx_same CanChan.errState (fun _ _ _ => rfl) hn2]
    exact h2
  have hn3 : n < l3.can.chans.length := by
    show n < (l2.can.chans.map _).length
    rw [List.length_map]
    exact hn2
  clear_value l3
  split
  · rename_i h
    rw [Live.errorState_chan hn3]
    refine ⟨h3.1, fun hm => ?_⟩
    rw [hm] at h
    exact absurd h (by simp)
  · exact h3

/-! ### CAN.SEND -/

/-- CAN.SEND whose length and fields pass. -/
theorem canSend_passed {b : Mailbox} (h0 : byteAt b.payload 0 ≤ 3) (h1 : byteAt b.payload 1 ≤ 2 ∨ byteAt b.payload 1 = 0xFF)
    (h2 : ¬ (keyRtr (rd b.payload 2 4) = true ∧ keyFdf (rd b.payload 2 4) = true))
    (hid : keyIde (rd b.payload 2 4) = true ∨ rd b.payload 2 4 % 2 ^ 18 = 0)
    (hfd : keyFdf (rd b.payload 2 4) = true → (l.chan (byteAt b.payload 0)).cfg.fd = true) (h6 : byteAt b.payload 6 ≤ 15)
    (h7 : byteAt b.payload 7 < 2)
    (hb : byteAt b.payload 7 = 1 → keyFdf (rd b.payload 2 4) = true ∧ (l.chan (byteAt b.payload 0)).cfg.brs = true)
    (h10 : rd b.payload 10 2 = 0) :
    firstBad [(0, decide (byteAt b.payload 0 ≤ 3)), (1, decide (byteAt b.payload 1 ≤ 2) || byteAt b.payload 1 == 0xFF),
      (2, !(keyRtr (rd b.payload 2 4) && keyFdf (rd b.payload 2 4)) &&
        (keyIde (rd b.payload 2 4) || rd b.payload 2 4 % 2 ^ 18 == 0) &&
        (!keyFdf (rd b.payload 2 4) || (l.chan (byteAt b.payload 0)).cfg.fd)),
      (6, decide (byteAt b.payload 6 ≤ 15)), (7, decide (byteAt b.payload 7 < 2) && (!bit (byteAt b.payload 7) 0 ||
        (keyFdf (rd b.payload 2 4) && (l.chan (byteAt b.payload 0)).cfg.brs))), (10, rd b.payload 10 2 == 0)] = none := by
  have hkey : (!(keyRtr (rd b.payload 2 4) && keyFdf (rd b.payload 2 4))) = true := by
    rw [Bool.not_eq_true', Bool.eq_false_iff]
    exact fun h => h2 (by simpa using h)
  have hide : (keyIde (rd b.payload 2 4) || rd b.payload 2 4 % 2 ^ 18 == 0) = true := by
    rcases hid with h | h <;> rw [h]
    · rfl
    · exact Bool.or_true _
  have hfdf : (!keyFdf (rd b.payload 2 4) || (l.chan (byteAt b.payload 0)).cfg.fd) = true := by
    cases hx : keyFdf (rd b.payload 2 4)
    · rfl
    · rw [hfd hx]; rfl
  have hbrs : (!bit (byteAt b.payload 7) 0 ||
      (keyFdf (rd b.payload 2 4) && (l.chan (byteAt b.payload 0)).cfg.brs)) = true := by
    rcases (by omega : byteAt b.payload 7 = 0 ∨ byteAt b.payload 7 = 1) with h | h
    · rw [h]; rfl
    · rw [(hb h).1, (hb h).2]
      exact Bool.or_true _
  rw [hkey, hide, hfdf, hbrs, decide_eq_true h0, decide_eq_true h6, decide_eq_true h7, h10]
  rcases h1 with h | h
  · rw [decide_eq_true h]; rfl
  · rw [h]; rfl

/-! ### CAN.ABORT -/

theorem bitsOf_three : ∀ k, k < 3 → bitsOf 3 (2 ^ k) = [k] := by decide

theorem maskOf_one : ∀ k, k < 3 → maskOf 3 (fun i => [k].contains i) = 2 ^ k := by decide

/-- CAN.ABORT of one buffer that a command loaded. -/
theorem canAbort_one {b : Mailbox} {k tag u : Nat} {x : TxBuf} (h0 : byteAt b.payload 0 ≤ 3) (hk : byteAt b.payload 1 = 2 ^ k)
    (h3 : k < 3) (hx : l.txBuf (byteAt b.payload 0) k = some x) (ho : x.owner = .send tag) :
    canAbort u b l = if (bit u k && (l.chan (byteAt b.payload 0)).mayRun k) = true
      then (.done .ok 0 (le 1 0), l.setTx (byteAt b.payload 0) k (some { x with freeing := some (x.freeing.getD 2) }))
      else (.done .ok 0 (le 1 (2 ^ k)), l.abandon (byteAt b.payload 0) k 2) := by
  have hlt : 2 ^ k < 8 := Nat.pow_lt_pow_right (by decide) h3
  obtain ⟨owner, key, brs, dlc, data, deadline, attempts, freeing⟩ := x
  obtain rfl : owner = .send tag := ho
  unfold canAbort
  dsimp only
  rw [hk, checked_pass (by rw [decide_eq_true h0, decide_eq_true hlt]; rfl), bitsOf_three k h3, List.filter_singleton, hx,
    Option.any_some]
  dsimp only
  rw [cond_true, List.foldl_cons, List.foldl_nil, hx, List.filter_singleton]
  by_cases hr : (bit u k && (l.chan (byteAt b.payload 0)).mayRun k) = true
  · rw [if_pos hr, if_pos hr, hr]
    rfl
  · rw [if_neg hr, if_neg hr, Bool.eq_false_iff.mpr hr]
    exact Prod.ext (congrArg (fun n => Reply.done .ok 0 (le 1 n)) (maskOf_one k h3)) rfl

end

end Sys2Proof.Machine

open Sys2Proof Sys2Proof.Machine

/-- Settles O42: each command's body with its checks passed. -/
theorem canCommands : Obligations.CanCommands := by
  refine ⟨fun m b s h hf => ⟨fun hm => ?_, fun hm => ?_⟩, fun m b s h h0 h1 h2 hn => ?_, fun m b s h => ?_,
    fun m b s k tag x u h h0 h1 hk hx ho => ⟨fun hr => ?_, fun hu hr => ?_⟩, fun m b s h h0 => ⟨fun hf => ?_, fun hf => ?_⟩,
    fun m b s h => ?_, fun m b s h h0 => ?_⟩
  · refine congrArg Host.Outcome.next (State.command_answer h ?_)
    unfold canConfig
    dsimp only
    exact (checked_of_firstBad hf _ _).trans (if_pos hm)
  · refine congrArg Host.Outcome.next ((State.command_ends h _).trans (congrArg (s.ends m) ?_))
    unfold canConfig
    dsimp only
    exact (checked_of_firstBad hf _ _).trans (if_neg (not_not.mpr hm))
  · have hx : canMode b s.live = (okReply, s.live.applyMode (byteAt b.payload 0) (byteAt b.payload 1)) := by
      unfold canMode
      dsimp only
      exact checked_pass (by rw [decide_eq_true h0, decide_eq_true h1]; simpa using h2) _ _
    refine ⟨(s.live.applyMode (byteAt b.payload 0) (byteAt b.payload 1)).nmChannel, ?_, ?_⟩
    · refine congrArg Host.Outcome.next ((State.command_ends h _).trans (congrArg (s.ends m) ?_))
      dsimp only
      rw [hx]
    · rw [Live.nmChannel_same CanChan.mode (fun _ _ _ => rfl), Live.nmChannel_same CanChan.tec (fun _ _ _ => rfl),
        Live.nmChannel_same CanChan.rec_ (fun _ _ _ => rfl), Live.nmChannel_same CanChan.errState (fun _ _ _ => rfl)]
      exact Live.applyMode_chan hn
  · intro p n t key len free h0 h1 h2 hid hfd h6 h7 hb h10
    have hpass : ∀ x, _ := fun x => checked_of_firstBad (canSend_passed (l := s.live) h0 h1 h2 hid hfd h6 h7 hb h10) x
      (fun r => ((r, s.live) : Reply × Live))
    refine ⟨fun hl => ?_, fun hl hm => ?_, fun hl hm0 hm2 ht => ⟨fun h1 h2 => ?_, fun h1 h2 => ?_, fun k hk => ?_⟩⟩
    · refine congrArg Host.Outcome.next (State.command_answer h (if_pos ?_))
      rw [Bool.and_eq_true]
      exact ⟨decide_eq_true h0, bne_iff_ne.mpr hl⟩
    · refine congrArg Host.Outcome.next (State.command_answer h ?_)
      unfold canSend
      dsimp only
      refine (if_neg ?_).trans ((hpass _).trans (if_pos ?_))
      · rw [Bool.and_eq_true, bne_iff_ne]
        exact fun h => h.2 hl
      · simpa [or_assoc] using hm
    all_goals
      have hlen : ¬ (decide (byteAt b.payload 0 ≤ 3) && b.len != 12 + (if keyRtr (rd b.payload 2 4) then 0
          else dlcLen (keyFdf (rd b.payload 2 4)) (byteAt b.payload 6))) = true := by
        rw [Bool.and_eq_true, bne_iff_ne]
        exact fun h => h.2 hl
      have hmode : ¬ ((decide ((s.live.chan (byteAt b.payload 0)).mode = 0) || decide ((s.live.chan (byteAt b.payload 0)).mode = 2) ||
          (decide (byteAt b.payload 1 = 0) && s.live.txb0Reserved (byteAt b.payload 0))) = true) := by
        rw [decide_eq_false hm0, decide_eq_false hm2]
        intro h
        obtain ⟨hz, hres⟩ := (Bool.and_eq_true ..).mp h
        rw [ht (of_decide_eq_true hz)] at hres
        cases hres
    · refine congrArg Host.Outcome.next (State.command_answer h ?_)
      unfold canSend
      dsimp only
      refine (if_neg hlen).trans ((hpass _).trans ((if_neg hmode).trans ?_))
      have hsel : (if t = 0xFF then free.head? else if free.contains t then some t else none) = none := by rw [if_pos h1, h2]; rfl
      rw [show (if byteAt b.payload 1 = 0xFF then _ else _ : Option Nat) = none from hsel]
      rfl
    · refine congrArg Host.Outcome.next (State.command_answer h ?_)
      unfold canSend
      dsimp only
      refine (if_neg hlen).trans ((hpass _).trans ((if_neg hmode).trans ?_))
      have hsel : (if t = 0xFF then free.head? else if free.contains t then some t else none) = none := by
        rw [if_neg h1, if_neg (mt List.contains_iff_mem.mp h2)]
      rw [show (if byteAt b.payload 1 = 0xFF then _ else _ : Option Nat) = none from hsel]
      rfl
    · refine congrArg Host.Outcome.next ((State.command_ends h _).trans (congrArg (s.ends m) ?_))
      unfold canSend
      dsimp only
      refine (if_neg hlen).trans ((hpass _).trans ((if_neg hmode).trans ?_))
      have hsel : (if t = 0xFF then free.head? else if free.contains t then some t else none) = some k := by
        rcases hk with ⟨h1, h2⟩ | ⟨h1, h2⟩
        · rw [if_pos h1, h2]
        · have hlt : t ≠ 0xFF := by
            have hmem := (List.mem_filter.mp h2).1
            split at hmem
            · simp at hmem
              omega
            · simp at hmem
              omega
          rw [if_neg hlt, h1, if_pos (List.contains_iff_mem.mpr h2)]
      rw [show (if byteAt b.payload 1 = 0xFF then _ else _ : Option Nat) = some k from hsel]
  · refine congrArg Host.Outcome.next ((State.command_ends h _).trans (congrArg (s.ends m) ?_))
    dsimp only
    rw [canAbort_one h0 h1 hk hx ho, if_neg]
    rcases hr with hr | hr <;> simp [hr]
  · refine congrArg Host.Outcome.next ((State.command_ends h _).trans (congrArg (s.ends m) ?_))
    dsimp only
    rw [canAbort_one h0 h1 hk hx ho, if_pos (by rw [hu, hr]; rfl)]
  · refine congrArg Host.Outcome.next ((State.command_ends h _).trans (congrArg (s.ends m) ?_))
    dsimp only
    rw [checked_pass (by rw [h0]; rfl), hf, List.flatMap_id]
    rfl
  · refine congrArg Host.Outcome.next ((State.command_ends h _).trans (congrArg (s.ends m) ?_))
    dsimp only
    rw [checked_pass (by rw [h0]; rfl), hf, List.flatMap_id]
    rfl
  · intro p first n rule pend h0 h2 hsum h3 hrule
    have hpass : (([(0, decide (first ≤ 1023)), (2, decide (n ≤ 30) && decide (first + n ≤ 1024)), (3, decide (byteAt p 3 < 8))] ++
        (List.range n).flatMap fun i =>
          [(12 + 16 * i, decide (byteAt (rule i) 8 < 16)), (13 + 16 * i, decide (byteAt (rule i) 9 < 32)),
           (14 + 16 * i, decide (byteAt (rule i) 10 ≤ 63)), (15 + 16 * i, byteAt (rule i) 11 == 0),
           (16 + 16 * i, decide (rd (rule i) 12 2 ≤ 60000)), (18 + 16 * i, rd (rule i) 14 2 == 0)]).all (·.2)) = true := by
      rw [List.all_append, List.all_flatMap, decide_eq_true h0, decide_eq_true h2, decide_eq_true hsum, decide_eq_true h3]
      refine List.all_eq_true.mpr fun i hi => ?_
      obtain ⟨h8, h9, h10, h11, h12, h14⟩ := hrule i (List.mem_range.mp hi)
      rw [decide_eq_true h8, decide_eq_true h9, decide_eq_true h10, decide_eq_true h12, h11, h14]
      rfl
    refine ⟨fun hf0 hf1 => ?_, fun hf0 => ⟨_, congrArg Host.Outcome.next ((State.command_ends h _).trans (congrArg (s.ends m)
      (by unfold canFilter; dsimp only; refine (checked_pass hpass _ _).trans (if_pos hf0)))), fun hf1 => ?_, fun hf1 hf2 => ?_⟩⟩
    · refine congrArg Host.Outcome.next ((State.command_ends h _).trans (congrArg (s.ends m) ?_))
      unfold canFilter
      dsimp only
      refine (checked_pass hpass _ _).trans ((if_neg (by rw [show bit (byteAt b.payload 3) 0 = false from hf0]; decide)).trans ?_)
      rw [show bit (byteAt b.payload 3) 1 = false from hf1]
      rfl
    · rw [show bit (byteAt b.payload 3) 1 = false from hf1]
      rfl
    · rw [show bit (byteAt b.payload 3) 1 = true from hf1, show bit (byteAt b.payload 3) 2 = true from hf2]
      rfl
  · refine ⟨s.live.canRecord (byteAt b.payload 0), congrArg Host.Outcome.next (State.command_answer h ?_), ?_, ?_, ?_, ?_⟩
    · exact checked_pass (by rw [decide_eq_true h0]; rfl) _ _
    all_goals
      unfold Live.canRecord
      dsimp only
    · simp [leInt]
    · simp only [List.append_assoc]
      exact byteAt_le_one_head _ _
    · simp only [List.append_assoc]
      exact byteAt_le_one_append (length_le 1 _) _
    · generalize s.live.speedValue.getD 0xFFFF = v
      rw [List.append_assoc, List.append_assoc]
      exact rd_le_at (by simp) 2 _ _
end

section
/-! What the drain of the outputs and its abort leave of the ring of consent. -/

namespace Sys2Proof.Machine

@[simp] theorem Live.dieRaise_nm (l : Live) (d id sev c : Nat) (p : List Byte) : (l.dieRaise d id sev c p).nm = l.nm := by
  unfold Live.dieRaise Live.dieRaiseAt
  split <;> simp

@[simp] theorem Live.closeCmd_nm (l : Live) (c : OpenCmd) : (l.closeCmd c).nm = l.nm := by
  unfold Live.closeCmd
  split
  · rfl
  · exact Live.complete_nm ..

@[simp] theorem Live.entryDone_nm (l : Live) (o : Option (MbRef × Nat)) (st : Status) : (l.entryDone o st).nm = l.nm := by
  unfold Live.entryDone
  split
  · rfl
  · split
    · rfl
    · split
      · rfl
      · exact Live.closeCmd_nm ..

@[simp] theorem Live.dropEdges_nm (l : Live) (src : Source) (p : EdgeWork → Bool) : (l.dropEdges src p).nm = l.nm :=
  foldl_keeps Live.nm (fun l e => by rw [Live.entryDone_nm, Live.removeEdge_nm, Live.unbookEdge_nm]) _ l

@[simp] theorem Live.cancelHeld_nm (l : Live) (n : Nat) : (l.cancelHeld n).nm = l.nm := by
  show ((l.dropEdges (.load n) fun w => !w.commanded).dropSlot (.load n)).nm = l.nm
  rw [Live.dropSlot_nm, Live.dropEdges_nm]

@[simp] theorem Live.loadEvent_nm (l : Live) (n c : Nat) : (l.loadEvent n c).nm = l.nm := by
  unfold Live.loadEvent
  split
  · rfl
  · exact Live.dieRaise_nm ..

@[simp] theorem Live.drainLoads_nm (l : Live) : l.drainLoads.nm = l.nm := by
  have hch : ∀ (l : Live) (n rank : Nat), (l.drainChannel n rank).nm = l.nm := fun l n rank => by
    unfold Live.drainChannel
    dsimp only
    split
    · rfl
    · split
      · rw [Live.loadEvent_nm, Live.cancelHeld_nm]
      · rw [Live.cancelHeld_nm]
  unfold Live.drainLoads
  exact foldl_keeps Live.nm (fun l k => foldl_keeps Live.nm (fun l (x : Nat × Nat) => hch l x.1 x.2) _ l) _ l

@[simp] theorem Live.fioAllOff_nm (l : Live) : l.fioAllOff.nm = l.nm :=
  foldl_keeps Live.nm (fun l n => by
    dsimp only
    split
    · unfold Live.fioEdge Live.fioEvent
      exact (Live.dieRaise_nm ..).trans rfl
    · split
      · rfl
      · rfl) _ l

@[simp] theorem Live.endSlot_nm (l : Live) (src : Source) : (l.endSlot src).nm = l.nm := Live.dropSlot_nm ..

@[simp] theorem Live.giveBack_nm (l : Live) (src : Source) : (l.giveBack src).nm = l.nm := by
  unfold Live.giveBack
  split
  · rfl
  · exact Live.bookEdge_nm ..

@[simp] theorem Live.bridgesBrake_nm (l : Live) : l.bridgesBrake.nm = l.nm :=
  foldl_keeps Live.nm (fun l k => by
    split
    · rw [Live.giveBack_nm, Live.bridgeStops, Live.setBr_nm, Live.dropSlot_nm]
      exact Live.endSlot_nm ..
    · rfl) _ l

@[simp] theorem Live.audioDrain_nm (l : Live) : l.audioDrain.nm = l.nm :=
  foldl_keeps Live.nm (fun _ _ => by rfl) _ l

@[simp] theorem Live.ledBlank_nm (l : Live) : l.ledBlank.nm = l.nm := by
  have hrows : ∀ l : Live, l.rowsStand.nm = l.nm := fun l => by
    unfold Live.rowsStand
    split
    · split
      · rfl
      · exact Live.planDirty_nm ..
    · exact Live.dropSlot_nm ..
  unfold Live.ledBlank
  split
  · unfold Live.applyShow
    dsimp only
    split
    · exact (hrows _).trans rfl
    · rw [Live.raise_nm]
      exact (hrows _).trans rfl
  · rfl

@[simp] theorem Live.shedEnds_nm (l : Live) : l.shedEnds.nm = l.nm := by
  unfold Live.shedEnds
  dsimp only
  split
  · rfl
  · exact (Live.raise_nm ..).trans rfl

@[simp] theorem Live.valvesDrain_nm (l : Live) : l.valvesDrain.nm = l.nm := by
  have hrel : ∀ (l : Live) (v : Nat), (l.releaseValve v).nm = l.nm := fun l v => by
    unfold Live.releaseValve Live.endDrive Live.bankQuiet
    extract_lets x inPeak l1 now at_ l2
    have h1 : l1.nm = l.nm := by
      unfold l1
      split <;> rfl
    have h2 : l2.nm = l1.nm := (Live.bookEdge_nm ..).trans (Live.endSlot_nm ..)
    clear_value l2
    split
    · exact h2.trans h1
    · exact h2.trans h1
  have hfire : ∀ (l : Live) (v : Nat), (l.dropFire v).nm = l.nm := fun l v => by
    unfold Live.dropFire
    split
    · rfl
    · rw [Live.setValve_nm]
      split
      · rfl
      · exact Live.unbookEdge_nm ..
  exact foldl_keeps Live.nm (fun l v => by
    dsimp only
    split
    · exact hrel l v
    · split
      · exact hfire l v
      · rfl) _ l

@[simp] theorem Live.outputsOff_nm (l : Live) : l.outputsOff.nm = l.nm := by
  unfold Live.outputsOff
  rw [Live.shedEnds_nm, Live.ledBlank_nm, Live.audioDrain_nm, Live.valvesDrain_nm, Live.bridgesBrake_nm, Live.fioAllOff_nm,
    Live.drainLoads_nm]

@[simp] theorem Live.setMode_nm (l : Live) (md : Mode) : (l.setMode md).nm = l.nm := by
  unfold Live.setMode
  split
  · rfl
  · rw [Live.driveTrx_nm]
    exact (Live.raise_nm ..).trans rfl

@[simp] theorem Live.drainAbort_nm (l : Live) (c : Nat) : (l.drainAbort c).nm = l.nm := by
  unfold Live.drainAbort
  dsimp only
  rw [Live.raise_nm]
  show ((_ : Live).setMode .run).nm = l.nm
  rw [Live.setMode_nm]
  show (if l.pwr.drain.step < 2 then l.outputsOff else l).nm = l.nm
  split
  · exact Live.outputsOff_nm l
  · rfl

end Sys2Proof.Machine
end

section
/-! The ring of consent and the NM commands with legal fields. -/

namespace Sys2Proof.Machine

section
variable {β : Type} {l : Live}

/-! ### What the parts of the ring leave of its state -/

theorem Live.nmFollow_same (g : NmState → β) (h : ∀ n st, g { n with st := st } = g n) (l : Live) : g l.nmFollow.nm = g l.nm := by
  unfold Live.nmFollow
  dsimp only
  split
  · rfl
  · rw [Live.raise_nm]
    exact h ..

@[simp] theorem Live.nmFollow_can (l : Live) : l.nmFollow.can = l.can := by
  unfold Live.nmFollow
  dsimp only
  split
  · rfl
  · exact (Live.raise_can ..).trans rfl

theorem Live.keeperEnds_same (g : NmState → β) (h : ∀ n nodes ks, g { n with nodes := nodes, keepers := ks } = g n) (l : Live)
    (k : Nat) : g (l.keeperEnds k).nm = g l.nm := by
  unfold Live.keeperEnds
  extract_lets l1
  have h1 : g l1.nm = g l.nm := h l.nm _ l.nm.keepers
  split
  · exact h1
  · dsimp only
    rw [Live.raise_nm]
    exact (h l1.nm l1.nm.nodes _).trans h1

@[simp] theorem Live.keeperEnds_mt (l : Live) (k : Nat) : (l.keeperEnds k).mt = l.mt := by
  unfold Live.keeperEnds
  dsimp only
  split
  · rfl
  · exact (Live.raise_mt ..).trans rfl

theorem Live.keepersEnd_same (g : NmState → β) (h : ∀ n nodes ks, g { n with nodes := nodes, keepers := ks } = g n) (l : Live) :
    g l.keepersEnd.nm = g l.nm := by
  unfold Live.keepersEnd
  split
  · rfl
  · exact foldl_keeps (fun l : Live => g l.nm) (fun l k => Live.keeperEnds_same g h l k) _ l

theorem Live.nmPump_nm (g : NmState → β) (h : ∀ n out at_, g { n with out := out, sendAt := at_ } = g n) (l : Live) :
    g l.nmPump.nm = g l.nm := by
  unfold Live.nmPump
  split
  · rfl
  · split
    · exact h l.nm [] l.nm.sendAt
    · split
      · rfl
      · dsimp only
        split
        · exact h l.nm _ _
        · exact h l.nm _ l.nm.sendAt

theorem Live.nmSend_nm (g : NmState → β) (h : ∀ n out at_, g { n with out := out, sendAt := at_ } = g n) (l : Live) (m : NmMsg) :
    g (l.nmSend m).nm = g l.nm :=
  (Live.nmPump_nm g h _).trans (h l.nm _ l.nm.sendAt)

@[simp] theorem Live.nmSend_mt (l : Live) (m : NmMsg) : (l.nmSend m).mt = l.mt := by
  unfold Live.nmSend Live.nmPump
  split
  · rfl
  · split
    · rfl
    · split
      · rfl
      · dsimp only
        split
        · rfl
        · rfl

theorem Live.restartRounds_nm (g : NmState → β)
    (h : ∀ n at_ r i v, g { n with sendAt := at_, round := r, ind := i, voided := v } = g n) (l : Live) :
    g l.restartRounds.nm = g l.nm := by
  unfold Live.restartRounds
  split
  · exact h ..
  · rfl

theorem Live.sendAlive_nm (g : NmState → β)
    (h : ∀ n out at_ r i v x, g { n with out := out, sendAt := at_, round := r, ind := i, voided := v, lastRing := x } = g n)
    (l : Live) : g l.sendAlive.nm = g l.nm := by
  unfold Live.sendAlive
  split
  · rfl
  · refine (Live.restartRounds_nm g (fun n at_ r i v => h n n.out at_ r i v n.lastRing) _).trans ?_
    refine (h (l.nmSend .alive).nm _ _ _ _ _ _).trans ?_
    exact Live.nmSend_nm g (fun n out at_ => h n out at_ n.round n.ind n.voided n.lastRing) l .alive

/-! ### The own RING -/

theorem Live.loadOwnRing_nm (g : NmState → β) (h : ∀ n st, g { n with st := st } = g n) (l : Live) (ind : Bool) :
    g (l.loadOwnRing ind).nm = g { l.nm with
      sendAt := none, sentAt := l.mt.now, waitFor := if l.successor = l.nm.cfg.node then none else some l.successor,
      indSent := ind && l.consents, ownSent := l.consents, lastRing := l.mt.now } :=
  Live.nmFollow_same g h _

theorem Live.loadOwnRing_txBuf (ind : Bool) (hn : l.nm.cfg.ch < l.can.chans.length) (hk : 0 < (l.chan l.nm.cfg.ch).tx.length) :
    (l.loadOwnRing ind).txBuf l.nm.cfg.ch 0 = some {
      owner := .ring, key := (l.nm.cfg.base + l.nm.cfg.node) * 2 ^ 18, brs := false, dlc := 8,
      data := ringPayload l.successor 0 (b2n l.consents + 2 * b2n (ind && l.consents)) l.nmReason l.nm.round 0xFF,
      deadline := none, attempts := 0, freeing := none } := by
  unfold Live.loadOwnRing
  rw [Live.txBuf_congr (congrArg CanState.chans (Live.nmFollow_can _))]
  exact (Live.txBuf_congr rfl _ _).trans (Live.setTx_txBuf hn hk)

/-- A channel on which the ring speaks is there. -/
theorem Live.nm_ch_lt (h : l.nmSilent = false) : l.nm.cfg.ch < l.can.chans.length := by
  refine Live.chan_lt CanChan.mode fun hm => ?_
  unfold Live.nmSilent at h
  dsimp only at h
  rw [hm] at h
  cases h

theorem ringSend_rows {at_ : Nat} (hat : l.nm.sendAt = some at_) (hle : at_ ≤ l.mt.now) (hm : l.pwr.mode = .run)
    (hs : l.nmSilent = false) (hon : l.nm.cfg.on = true) (hk : 0 < (l.chan l.nm.cfg.ch).tx.length)
    (hfree : l.txBuf l.nm.cfg.ch 0 = none) :
    let ind := if l.isMaster then !l.nm.voided && !l.nm.refused && !l.nm.ind && l.allConsent else l.nm.ind
    let round := if l.isMaster then (l.nm.round + 1) % 256 else l.nm.round
    ∃ b, (ringSend l).txBuf l.nm.cfg.ch 0 = some b ∧ b.owner = .ring ∧
      b.data = ringPayload l.successor 0 (b2n l.consents + 2 * b2n (ind && l.consents)) l.nmReason round 0xFF ∧
      (ringSend l).nm.round = round ∧ (ringSend l).nm.sendAt = none ∧ (ringSend l).nm.sentAt = l.mt.now ∧
      (ringSend l).nm.lastRing = l.mt.now ∧ (ringSend l).nm.indSent = (ind && l.consents) := by
  intro ind round
  have hn := Live.nm_ch_lt hs
  unfold ringSend
  dsimp only
  rw [if_neg (by simp [hat, hle, hm, hs, hon, hfree])]
  by_cases hmas : l.isMaster = true
  · have hind : ind = (!l.nm.voided && !l.nm.refused && !l.nm.ind && l.allConsent) := if_pos hmas
    have hround : round = (l.nm.round + 1) % 256 := if_pos hmas
    rw [if_pos hmas]
    refine ⟨_, Live.loadOwnRing_txBuf (l := l.setNm _) _ hn hk, rfl, ?_, ?_, ?_, ?_, ?_, ?_⟩
    · rw [hind, hround]
      rfl
    · rw [hround]
      exact Live.loadOwnRing_nm NmState.round (fun _ _ => rfl) _ _
    · exact Live.loadOwnRing_nm NmState.sendAt (fun _ _ => rfl) _ _
    · exact Live.loadOwnRing_nm NmState.sentAt (fun _ _ => rfl) _ _
    · exact Live.loadOwnRing_nm NmState.lastRing (fun _ _ => rfl) _ _
    · rw [hind]
      exact Live.loadOwnRing_nm NmState.indSent (fun _ _ => rfl) _ _
  · have hind : ind = l.nm.ind := if_neg hmas
    have hround : round = l.nm.round := if_neg hmas
    rw [if_neg hmas, hind, hround]
    exact ⟨_, Live.loadOwnRing_txBuf _ hn hk, rfl, rfl, Live.loadOwnRing_nm NmState.round (fun _ _ => rfl) _ _,
      Live.loadOwnRing_nm NmState.sendAt (fun _ _ => rfl) _ _, Live.loadOwnRing_nm NmState.sentAt (fun _ _ => rfl) _ _,
      Live.loadOwnRing_nm NmState.lastRing (fun _ _ => rfl) _ _, Live.loadOwnRing_nm NmState.indSent (fun _ _ => rfl) _ _⟩

/-! ### Nodes -/

theorem Live.nodeSkipped_rows (l : Live) (d : Nat) : (l.nodeSkipped d).mt = l.mt ∧ (∀ x ∈ (l.nodeSkipped d).nm.nodes, x.id ≠ d) ∧
    ((∃ x ∈ l.nm.nodes, x.id = d) → (l.nodeSkipped d).nm.voided = true) := by
  unfold Live.nodeSkipped
  split
  · rename_i h
    rw [Bool.not_eq_true', Bool.eq_false_iff] at h
    have hnone : ∀ x ∈ l.nm.nodes, x.id ≠ d := fun x hx hd => h (List.any_eq_true.mpr ⟨x, hx, by rw [hd]; exact beq_self_eq_true d⟩)
    exact ⟨rfl, hnone, fun ⟨x, hx, hd⟩ => (hnone x hx hd).elim⟩
  · rw [Live.raise_mt, Live.raise_nm]
    refine ⟨Live.keeperEnds_mt .., fun x hx => ?_, fun _ => rfl⟩
    exact bne_iff_ne.mp (List.mem_filter.mp hx).2

theorem ringMaxExpiry_rows {d : Nat} (hw : l.nm.waitFor = some d) (ht : l.nm.sentAt + ms l.nm.cfg.ringMax ≤ l.mt.now)
    (hm : l.pwr.mode = .run) (hs : l.nmSilent = false) (hfree : l.txBuf l.nm.cfg.ch 0 = none) :
    (ringMaxExpiry l).nm.sentAt = l.mt.now ∧ (∀ x ∈ (ringMaxExpiry l).nm.nodes, x.id ≠ d) ∧
      ((∃ x ∈ l.nm.nodes, x.id = d) → (ringMaxExpiry l).nm.voided = true) := by
  have hx : ringMaxExpiry l = (l.nodeSkipped d).loadOwnRing l.nm.indSent := by
    unfold ringMaxExpiry
    rw [hw]
    dsimp only
    rw [if_neg (by rw [decide_eq_false (Nat.not_lt.mpr ht), hm, hs, hfree]; decide)]
  obtain ⟨hmt, hnodes, hvoid⟩ := l.nodeSkipped_rows d
  rw [hx]
  refine ⟨?_, ?_, fun h => (Live.loadOwnRing_nm NmState.voided (fun _ _ => rfl) _ _).trans (hvoid h)⟩
  · rw [Live.loadOwnRing_nm NmState.sentAt (fun _ _ => rfl)]
    dsimp only
    rw [hmt]
  · rw [Live.loadOwnRing_nm NmState.nodes (fun _ _ => rfl)]
    exact hnodes

theorem aliveTimeout_rows (ht : l.nm.lastRing + 3 * ms l.nm.cfg.ringMax ≤ l.mt.now) (hon : l.nm.cfg.on = true)
    (hs : l.nmSilent = false) (hm : l.pwr.mode = .run) : (aliveTimeout l).nm.lastRing = l.mt.now ∧
      (l.isMaster = true → (aliveTimeout l).nm.sendAt = some (l.mt.now + ms l.nm.cfg.ringMs) ∧
        (aliveTimeout l).nm.voided = true) := by
  have hx : aliveTimeout l = ((l.nmSend .alive).setNm fun n => { n with lastRing := l.mt.now }).restartRounds := by
    unfold aliveTimeout Live.sendAlive
    rw [decide_eq_false (Nat.not_lt.mpr ht), if_neg Bool.false_ne_true, if_neg (by rw [hon, hs, hm]; decide)]
  have hmas : ((l.nmSend .alive).setNm fun n => { n with lastRing := l.mt.now }).isMaster = l.isMaster := by
    unfold Live.isMaster Live.present
    rw [Live.setNm_nm]
    dsimp only
    rw [Live.nmSend_nm NmState.cfg (fun _ _ _ => rfl), Live.nmSend_nm NmState.nodes (fun _ _ _ => rfl)]
  rw [hx]
  refine ⟨?_, fun h => ?_⟩
  · exact (Live.restartRounds_nm NmState.lastRing (fun _ _ _ _ _ => rfl) _).trans rfl
  · unfold Live.restartRounds
    rw [if_pos (hmas.trans h)]
    refine ⟨congrArg some ?_, rfl⟩
    show (l.nmSend .alive).mt.now + ms (l.nmSend .alive).nm.cfg.ringMs = _
    rw [Live.nmSend_mt, Live.nmSend_nm NmState.cfg (fun _ _ _ => rfl)]

/-! ### Messages of the ring -/

theorem Live.nodeJoins_mem {node : Nat} (h : node ≠ l.nm.cfg.node) : ∃ x ∈ (l.nodeJoins node).nm.nodes, x.id = node := by
  unfold Live.nodeJoins
  split
  · rename_i hx
    rw [beq_eq_false_iff_ne.mpr h, Bool.false_or] at hx
    obtain ⟨x, hm, hid⟩ := List.any_eq_true.mp hx
    exact ⟨x, hm, eq_of_beq hid⟩
  · rw [Live.raise_nm]
    exact ⟨_, List.mem_append_right _ (List.mem_singleton.mpr rfl), rfl⟩

/-- An ALIVE makes its sender a node. -/
theorem Live.ringInRun_alive {node : Nat} {d : List Byte} (h : byteAt d 1 = 1) (hn : node ≠ l.nm.cfg.node) :
    ∃ x ∈ (l.ringInRun node d).nm.nodes, x.id = node := by
  unfold Live.ringInRun
  rw [h]
  show ∃ x ∈ ((l.setNm fun n => { n with waitFor := if n.waitFor == some node then none else n.waitFor }).nodeJoins
    node).restartRounds.nmFollow.nm.nodes, x.id = node
  rw [Live.nmFollow_same NmState.nodes (fun _ _ => rfl), Live.restartRounds_nm NmState.nodes (fun _ _ _ _ _ => rfl)]
  exact Live.nodeJoins_mem (l := l.setNm _) hn

/-! ### The own consent -/

/-- Consent and reason that the host gave. -/
def NmState.own (n : NmState) : Bool × Nat := (n.consent, n.reason)

theorem Live.ringRestarts_own (l : Live) : l.ringRestarts.nm.own = l.nm.own := by
  unfold Live.ringRestarts
  extract_lets l1
  have h1 : l1.nm.own = l.nm.own :=
    foldl_keeps (fun l : Live => l.nm.own) (fun l k => Live.keeperEnds_same NmState.own (fun _ _ _ => rfl) l k) _ l
  clear_value l1
  rw [Live.sendAlive_nm NmState.own (fun _ _ _ _ _ _ _ => rfl)]
  exact h1

theorem Live.commitAbort_own (l : Live) (c1 c2 node src : Nat) (m : NmMsg) :
    (l.commitAbort c1 c2 node src m).nm.own = l.nm.own := by
  unfold Live.commitAbort
  extract_lets l1 l2 l3
  have h1 : l1.nm = l.nm := Live.drainAbort_nm l c1
  clear_value l1
  have h2 : l3.nm.own = l.nm.own := by
    unfold l3 l2
    rw [Live.raise_nm, Live.nmFollow_same NmState.own (fun _ _ => rfl), ← h1]
    rfl
  clear_value l3
  split
  · exact (Live.sendAlive_nm NmState.own (fun _ _ _ _ _ _ _ => rfl) l3).trans h2
  · exact (Live.ringRestarts_own _).trans ((Live.nmSend_nm NmState.own (fun _ _ _ => rfl) l3 m).trans h2)

theorem NmPhase.code_lt (p : NmPhase) : p.code < 256 := by cases p <;> decide

end

end Sys2Proof.Machine

open Sys2Proof Sys2Proof.Machine

/-- Settles O43: each row's body with its conditions met, by what the parts of the ring leave of its state. -/
theorem sleepRing : Obligations.SleepRing := by
  refine ⟨fun node t0 x s hp hx hsince hk hc ht => ?_, fun at_ s hp hat hle hm hs hon hk hfree => ?_,
    fun d s hp hw ht hm hs hfree => ?_, fun s hp ht hon hs hm => ?_, fun s hp hr ht => ?_,
    fun f node s hsend hl => ⟨fun hm => ?_, fun hm hp hn => ?_, fun hm hp hn => ⟨?_, fun h1 => ?_⟩⟩, fun m b s h => ?_,
    fun m b s h => ?_, fun m b s h => ?_, fun m b s h h0 => ?_, fun m b s h => ⟨fun h0 => ?_, fun h0 => ?_⟩⟩
  · refine ⟨_, congrArg Host.Outcome.next (s.onLogic_running _ hp), rfl, ?_⟩
    show (keeperThreshold node s.live).nm.keepers = _
    have hopen : (s.live.nm.keepers.any fun k => k.node == node && k.closed.isNone) = false := by
      rw [List.any_eq_false]
      intro k hmem hand
      obtain ⟨h1, h2⟩ := (Bool.and_eq_true ..).mp hand
      exact hk k hmem (eq_of_beq h1) (Option.isNone_iff_eq_none.mp h2)
    unfold keeperThreshold
    rw [hx]
    dsimp only
    rw [hsince]
    dsimp only
    rw [if_neg (by rw [hopen, hc, decide_eq_false (Nat.not_lt.mpr ht)]; decide), Live.raise_nm]
    rfl
  · intro ind round
    obtain ⟨b, hb⟩ := ringSend_rows hat hle hm hs hon hk hfree
    obtain ⟨hb1, hb2, hb3, hb4⟩ := hb
    exact ⟨_, b, congrArg Host.Outcome.next (s.onLogic_running _ hp), rfl, hb1, hb2, hb3, hb4⟩
  · exact ⟨_, congrArg Host.Outcome.next (s.onLogic_running _ hp), rfl, ringMaxExpiry_rows hw ht hm hs hfree⟩
  · exact ⟨{ s with live := aliveTimeout s.live }, State.onLogic_eq hp rfl, rfl, aliveTimeout_rows ht hon hs hm⟩
  · refine congrArg Host.Outcome.next ((s.onLogic_running _ hp).trans (congrArg (fun l => { s with live := l }) (if_pos ?_)))
    rw [hr, decide_eq_true ht]
    rfl
  · refine congrArg Host.Outcome.next (congrArg (fun l => { s with live := l }) ?_)
    unfold ringMessageReceived
    rw [hsend]
    dsimp only
    rw [hl, hm, if_neg (by decide), if_pos (by decide)]
  · refine ⟨s.onLive (ringMessageReceived f), rfl, rfl, ?_⟩
    show (ringMessageReceived f s.live).nm.duplicate = true
    unfold ringMessageReceived
    rw [hsend]
    dsimp only
    rw [hl, hm, hp, hn, if_neg (by decide), if_neg (by decide), if_neg (by decide), if_pos (beq_self_eq_true _),
      Live.nmFollow_same NmState.duplicate (fun _ _ => rfl), Live.keepersEnd_same NmState.duplicate (fun _ _ _ => rfl), Live.raise_nm]
    rfl
  · refine congrArg Host.Outcome.next (congrArg (fun l => { s with live := l }) ?_)
    unfold ringMessageReceived
    rw [hsend]
    dsimp only
    rw [hl, hm, hp, if_neg (by decide), if_neg (by decide), if_neg (by decide), if_neg (by simpa using hn), if_pos (by decide)]
  · exact Live.ringInRun_alive h1 hn
  · intro p h0 h1 h2 h4 h4' h6 h8 h8' h10 h12 h14 h16 h17
    have hc := checked_pass (α := Reply × Live) (cs := [(0, decide (byteAt p 0 ≤ 3) || byteAt p 0 == 0xFF), (1, decide (byteAt p 1 ≤ 63)), (2, decide (byteAt p 2 < 2)),
      (4, decide (rd p 4 2 ≤ 0x7C0) && rd p 4 2 % 64 == 0), (6, inRange 20 1000 (rd p 6 2)),
      (8, inRange 50 5000 (rd p 8 2) && decide (2 * rd p 6 2 ≤ rd p 8 2)), (10, inRange 100 10000 (rd p 10 2)),
      (12, decide (10 ≤ rd p 12 2)), resv b 14 2, (16, byteAt p 16 % 128 != 0), (17, decide (byteAt p 17 < 16))])
      (by simp [h0, h1, h2, h4, h4', h6, h8, h8', h10, h12, h14, h16, h17])
    refine ⟨fun hst => ?_, fun hi hcm => ⟨?_, ?_⟩⟩
    · refine congrArg Host.Outcome.next (State.command_answer h ?_)
      unfold nmConfig
      dsimp only
      refine (hc _ _).trans (if_pos ?_)
      rcases hst with hst | hst <;> rw [hst] <;> decide
    · refine congrArg Host.Outcome.next ((State.command_ends h _).trans (congrArg (s.ends m) ?_))
      unfold nmConfig
      dsimp only
      refine (hc _ _).trans (if_neg ?_)
      simp [hi, hcm]
    · unfold Live.applyNmCfg
      dsimp only
      rw [Live.sendAlive_nm NmState.cfg (fun _ _ _ _ _ _ _ => rfl), Live.nmFollow_same NmState.cfg (fun _ _ => rfl)]
      rfl
  · intro c reason hcr hres
    have hc := checked_pass (α := Reply × Live) (cs := [(0, decide (c ≤ 1)), (1, if c = 1 then reason == 0 else inRange 1 239 reason), resv b 2 2])
      (by
        rcases hcr with ⟨h1, h2⟩ | ⟨h1, h2, h3⟩
        · simp [h1, h2, hres]
        · simp [h1, h2, h3, hres, inRange])
    refine ⟨fun hst => ?_, fun hst => ?_⟩
    · refine congrArg Host.Outcome.next (State.command_answer h ?_)
      unfold nmRequest
      dsimp only
      exact (hc _ _).trans (if_pos (by rw [hst]; decide))
    · refine ⟨_, congrArg Host.Outcome.next ((State.command_ends h _).trans (congrArg (s.ends m) (by
        unfold nmRequest
        dsimp only
        exact (hc _ _).trans (if_neg (by simpa using hst))))), ?_⟩
      generalize hl1 : (s.live.setNm fun n => { n with consent := byteAt b.payload 0 == 1, reason := byteAt b.payload 1 }).keepersEnd = l1
      have h1 : l1.nm.own = (c == 1, reason) := by
        rw [← hl1, Live.keepersEnd_same NmState.own (fun _ _ _ => rfl)]
        rfl
      clear hl1
      have h2 : ∀ l' : Live, l'.nm.own = l1.nm.own → l'.nm.consent = (c == 1) ∧ l'.nm.reason = reason := fun l' h =>
        Prod.mk.inj (h.trans h1)
      split
      · exact h2 _ (Live.commitAbort_own ..)
      · exact h2 _ (Live.nmFollow_same NmState.own (fun _ _ => rfl) l1)
  · refine ⟨s.live.nmRecord, congrArg Host.Outcome.next (State.command_answer h rfl), ?_, ?_, ?_, ?_⟩
    all_goals
      unfold Live.nmRecord
      dsimp only
    · simp
    · simp only [List.append_assoc]
      exact (byteAt_le_one_head _ _).trans (Nat.mod_eq_of_lt (NmPhase.code_lt _))
    · simp only [List.append_assoc]
      rw [← List.append_assoc]
      exact byteAt_le_one_append (by simp) _
    · simp only [List.append_assoc]
      rw [← List.append_assoc, ← List.append_assoc]
      exact byteAt_le_one_append (by simp) _
  · refine congrArg Host.Outcome.next ((State.command_ends h _).trans (congrArg (s.ends m) ?_))
    unfold nmKeepers
    dsimp only
    rw [checked_pass (by rw [decide_eq_true h0]; rfl)]
    rcases (by omega : byteAt b.payload 0 = 0 ∨ byteAt b.payload 0 = 1) with hx | hx <;> rw [hx] <;> rfl
  · refine congrArg Host.Outcome.next (State.command_answer h ?_)
    unfold nmWakes
    dsimp only
    rw [checked_pass (by rw [h0]; rfl), h0]
    rfl
  · refine ⟨(s.live.setNm fun n => { n with fwTotal := List.replicate 23 0 }).enqueue (.config 0x4405 0
      ((List.replicate 23 0).flatMap (le 2))) (some m) s.live.wakesRecord true,
      congrArg Host.Outcome.next ((State.command_ends h _).trans (congrArg (s.ends m) ?_)), rfl, rfl, rfl⟩
    unfold nmWakes
    dsimp only
    rw [checked_pass (by rw [h0]; rfl), if_neg (by rw [h0]; decide)]
end

section
/-! What only the link's own rows change: its cycle, its master, the Strike, and MT. -/

namespace Sys2Proof.Machine

/-- What of the link, of the staged changes and of MT the work of the other units leaves. -/
structure LinkStamp where
  cfg : LinkCfg
  st : LinkPhase
  roster : List RosterEntry
  silent : List Nat
  cascaded : Bool
  master : Nat
  position : Nat
  cycle : Nat
  lastSync : Nat
  strike : Option StrikeAnn
  strikeReq : Option StrikeReq
  struckSeq : Nat
  staged : List Staged
  mt : MtState

def Live.linkStamp (l : Live) : LinkStamp :=
  ⟨l.link.cfg, l.link.st, l.link.roster, l.link.silent, l.link.cascaded, l.link.master, l.link.position, l.link.cycle, l.link.lastSync,
    l.link.strike, l.link.strikeReq, l.link.struckSeq, l.host.staged, l.mt⟩

/-! ### Events and completions -/

theorem Live.enter_linkStamp (l : Live) (r : EventRec) : (l.enter r).linkStamp = l.linkStamp := by
  have hh : ∀ l : Live, (l.enterHost r).linkStamp = l.linkStamp := fun l => by
    unfold Live.enterHost
    dsimp only
    split <;> rfl
  have hf : ∀ l : Live, (l.enterF1 r).linkStamp = l.linkStamp := fun l => by
    unfold Live.enterF1
    dsimp only
    split <;> rfl
  unfold Live.enter
  extract_lets l1 l2
  have h1 : l1.linkStamp = l.linkStamp := by
    unfold l1
    split
    · exact hh l
    · rfl
  have h2 : l2.linkStamp = l1.linkStamp := by
    unfold l2
    split
    · exact hf l1
    · rfl
  clear_value l2
  split
  · exact h2.trans h1
  · exact h2.trans h1

theorem Live.enterLink_linkStamp (l : Live) (r : EventRec) : (l.enterLink r).linkStamp = l.linkStamp := by
  unfold Live.enterLink
  split
  · rfl
  · split
    · rfl
    · dsimp only
      split
      · split
        · rfl
        · exact Live.enter_linkStamp ..
      · exact Live.enter_linkStamp ..

@[simp] theorem Live.raise_linkStamp (l : Live) (id sev c : Nat) (p : List Byte) : (l.raise id sev c p).linkStamp = l.linkStamp :=
  (Live.enterLink_linkStamp ..).trans (Live.enter_linkStamp ..)

@[simp] theorem Live.raiseAt_linkStamp (l : Live) (t id sev c : Nat) (p : List Byte) :
    (l.raiseAt t id sev c p).linkStamp = l.linkStamp :=
  (Live.enterLink_linkStamp ..).trans (Live.enter_linkStamp ..)

@[simp] theorem Live.dieRaise_linkStamp (l : Live) (d id sev c : Nat) (p : List Byte) :
    (l.dieRaise d id sev c p).linkStamp = l.linkStamp := by
  unfold Live.dieRaise Live.dieRaiseAt
  split
  · rfl
  · exact Live.raiseAt_linkStamp ..

@[simp] theorem Live.setBox_linkStamp (l : Live) (m : MbRef) (b : Mailbox) : (l.setBox m b).linkStamp = l.linkStamp := by
  cases m <;> rfl

@[simp] theorem Live.deliver_linkStamp (l : Live) (m : MbRef) (r : List Byte) : (l.deliver m r).linkStamp = l.linkStamp := by
  unfold Live.deliver
  split
  · rfl
  · cases m with
    | loc n =>
      dsimp only
      split <;> rfl
    | _ => rfl

@[simp] theorem Live.gatherAnswer_linkStamp (l : Live) (m : MbRef) (p st : Nat) : (l.gatherAnswer m p st).linkStamp = l.linkStamp := by
  have hend : ∀ (l : Live) (g : Gather), (l.endGather g).linkStamp = l.linkStamp := fun l g => by
    unfold Live.endGather
    dsimp only
    split
    · rfl
    · split
      · exact (Live.deliver_linkStamp ..).trans rfl
      · exact (Live.deliver_linkStamp ..).trans rfl
  unfold Live.gatherAnswer
  split
  · rfl
  · dsimp only
    split
    · exact hend ..
    · rfl

@[simp] theorem Live.complete_linkStamp (l : Live) (m : MbRef) (st : Status) (d : Nat) (p : List Byte) :
    (l.complete m st d p).linkStamp = l.linkStamp := by
  unfold Live.complete
  split
  · rfl
  · split
    · rfl
    · split
      · exact Live.gatherAnswer_linkStamp ..
      · exact Live.deliver_linkStamp ..

@[simp] theorem Live.closeCmd_linkStamp (l : Live) (c : OpenCmd) : (l.closeCmd c).linkStamp = l.linkStamp := by
  unfold Live.closeCmd
  split
  · rfl
  · exact (Live.complete_linkStamp ..).trans rfl

@[simp] theorem Live.entryDone_linkStamp (l : Live) (o : Option (MbRef × Nat)) (st : Status) :
    (l.entryDone o st).linkStamp = l.linkStamp := by
  unfold Live.entryDone
  split
  · rfl
  · split
    · rfl
    · split
      · rfl
      · exact Live.closeCmd_linkStamp ..

/-! ### Edges and slots -/

@[simp] theorem Live.dropSlot_linkStamp (l : Live) (src : Source) : (l.dropSlot src).linkStamp = l.linkStamp := by
  unfold Live.dropSlot
  dsimp only
  split <;> rfl

@[simp] theorem Live.endSlot_linkStamp (l : Live) (src : Source) : (l.endSlot src).linkStamp = l.linkStamp :=
  l.dropSlot_linkStamp src

@[simp] theorem Live.giveBack_linkStamp (l : Live) (src : Source) : (l.giveBack src).linkStamp = l.linkStamp := by
  unfold Live.giveBack
  split <;> rfl

@[simp] theorem Live.bridgeStops_linkStamp (l : Live) (k : Nat) (st : BrState) : (l.bridgeStops k st).linkStamp = l.linkStamp :=
  (l.changed (.leg k)).dropSlot_linkStamp (.leg k)

@[simp] theorem Live.driveBridge_linkStamp (l : Live) (k a d r : Nat) : (l.driveBridge k a d r).2.linkStamp = l.linkStamp := by
  unfold Live.driveBridge
  dsimp only
  split
  · rfl
  · exact Live.dropSlot_linkStamp ..

@[simp] theorem Live.releaseValve_linkStamp (l : Live) (v : Nat) : (l.releaseValve v).linkStamp = l.linkStamp := by
  unfold Live.releaseValve Live.endDrive Live.bankQuiet
  extract_lets x inPeak l1 now at_ l2
  have h1 : l1.linkStamp = l.linkStamp := by
    unfold l1
    split <;> rfl
  have h2 : l2.linkStamp = l1.linkStamp := l1.endSlot_linkStamp (.valve v)
  clear_value l2
  split
  · exact h2.trans h1
  · exact h2.trans h1

@[simp] theorem Live.dropEdges_linkStamp (l : Live) (src : Source) (p : EdgeWork → Bool) : (l.dropEdges src p).linkStamp = l.linkStamp :=
  foldl_keeps Live.linkStamp (fun l (e : Edge) =>
    (((l.unbookEdge e.id).removeEdge e.id).entryDone_linkStamp e.owner .ok).trans rfl) _ l

theorem Live.withdraw_linkStamp (l : Live) (src : Source) : (l.withdraw src).linkStamp = l.linkStamp := by
  unfold Live.withdraw Live.dropChanges
  have h1 := l.dropEdges_linkStamp src EdgeWork.commanded
  generalize l.dropEdges src EdgeWork.commanded = l1 at h1 ⊢
  exact (foldl_keeps Live.linkStamp (fun l (c : SlotChange) => l.entryDone_linkStamp c.owner .ok) _ _).trans h1

@[simp] theorem Live.cancelHeld_linkStamp (l : Live) (n : Nat) : (l.cancelHeld n).linkStamp = l.linkStamp :=
  ((l.dropEdges (.load n) fun w => !w.commanded).dropSlot_linkStamp (.load n)).trans (Live.dropEdges_linkStamp ..)

@[simp] theorem Live.endFade_linkStamp (l : Live) (n c : Nat) : (l.endFade n c).linkStamp = l.linkStamp := by
  unfold Live.endFade
  split
  · rfl
  · rw [Live.dieRaise_linkStamp]
    exact (foldl_keeps Live.linkStamp (fun l (c : SlotChange) => l.entryDone_linkStamp c.owner .pending) _ _).trans rfl

@[simp] theorem Live.loadEvent_linkStamp (l : Live) (n c : Nat) : (l.loadEvent n c).linkStamp = l.linkStamp := by
  unfold Live.loadEvent
  split
  · rfl
  · exact Live.dieRaise_linkStamp ..

@[simp] theorem Live.dropStanding_linkStamp (l : Live) (s : Standing) : (l.dropStanding s).linkStamp = l.linkStamp := by
  have h1 : (l.standingEvent 0 s).linkStamp = l.linkStamp := Live.raise_linkStamp ..
  unfold Live.dropStanding
  dsimp only
  generalize l.standingEvent 0 s = l1 at h1 ⊢
  rw [← h1]
  split
  · next n _ => exact (Live.endSlot_linkStamp { l1 with plan := { l1.plan with dropped := l1.plan.dropped ++ [s] } } (.load n)).trans rfl
  · rw [Live.giveBack_linkStamp, Live.bridgeStops_linkStamp, Live.endSlot_linkStamp]
    rfl
  · rw [Live.releaseValve_linkStamp]
    rfl
  · rfl

@[simp] theorem Live.refuseChange_linkStamp (l : Live) (c : SlotChange) : (l.refuseChange c).linkStamp = l.linkStamp := by
  unfold Live.refuseChange
  extract_lets why rest s1 s2 l1 refused
  have h1 : l1.linkStamp = l.linkStamp := rfl
  have h2 : refused.linkStamp = l1.linkStamp := (Live.entryDone_linkStamp ..).trans ((Live.raise_linkStamp ..).trans rfl)
  clear_value l1 refused
  split
  · exact h1
  · split
    · exact (Live.entryDone_linkStamp ..).trans ((Live.dropStanding_linkStamp ..).trans h1)
    · exact h2.trans h1
  · exact h2.trans h1

/-! ### The work of an edge -/

@[simp] theorem Live.loadOn_linkStamp (l : Live) (n : Nat) (cmd : LoadCmd) : (l.loadOn n cmd).linkStamp = l.linkStamp := by
  unfold Live.loadOn
  dsimp only
  split <;> rfl

theorem Live.executeOn_linkStamp (l : Live) (n d : Nat) : (l.executeOn n d).2.linkStamp = l.linkStamp := by
  have hp : ∀ l : Live, (l.pwmRestarted n).linkStamp = l.linkStamp := fun l => by
    unfold Live.pwmRestarted
    split
    · split <;> rfl
    · rfl
  unfold Live.executeOn
  dsimp only
  split
  · rfl
  · split
    · rfl
    · split
      · rfl
      · exact (hp _).trans (Live.loadOn_linkStamp ..)

theorem Live.executeOff_linkStamp (l : Live) (n : Nat) (c : Bool) : (l.executeOff n c).linkStamp = l.linkStamp := by
  have ho : ∀ l : Live, (l.loadOffCommanded n c).linkStamp = l.linkStamp := fun l => by
    unfold Live.loadOffCommanded
    dsimp only
    split
    · exact Live.dropSlot_linkStamp ..
    · exact (Live.loadEvent_linkStamp ..).trans (Live.dropSlot_linkStamp ..)
  unfold Live.executeOff
  dsimp only
  split
  · exact (ho _).trans (Live.endSlot_linkStamp ..)
  · rfl

theorem Live.fioEdge_linkStamp (l : Live) (n : Nat) (on : Bool) : (l.fioEdge n on).linkStamp = l.linkStamp := by
  unfold Live.fioEdge Live.fioEvent
  split
  · exact Live.dieRaise_linkStamp ..
  · exact Live.dieRaise_linkStamp ..

theorem Live.executeWork_linkStamp (l : Live) (w : EdgeWork) (c : Bool) : (l.executeWork w c).2.linkStamp = l.linkStamp := by
  unfold Live.executeWork
  split
  · split
    · exact Live.executeOn_linkStamp ..
    · exact Live.executeOff_linkStamp ..
  · split
    · dsimp only
      split
      · exact l.endSlot_linkStamp _
      · exact (Live.loadEvent_linkStamp ..).trans (l.endSlot_linkStamp _)
    · rfl
  · rw [Live.driveBridge_linkStamp]
    split
    · exact l.endSlot_linkStamp _
    · rfl
  · dsimp only
    split
    · exact Live.fioEdge_linkStamp ..
    · split
      · rfl
      · split
        · rfl
        · split
          · rfl
          · exact Live.fioEdge_linkStamp ..
  · rfl

/-! ### Struck changes -/

theorem Live.strikeEdge_linkStamp (l : Live) (tick : Nat) (w : EdgeWork) (p lat : Nat) (c : Bool) :
    (l.strikeEdge tick w p lat c).linkStamp = l.linkStamp := by
  unfold Live.strikeEdge
  extract_lets id s1 l1 booked s2 r
  have hb : booked.linkStamp = l.linkStamp := by
    unfold booked Live.bookWork
    dsimp only
    split
    · split <;> rfl
    · rfl
  have hr : r.2.linkStamp = booked.linkStamp := Live.executeWork_linkStamp ..
  clear_value r booked
  split
  · exact hb
  · split
    · exact hr.trans hb
    · exact hr.trans hb

theorem Live.admitNow_linkStamp (l : Live) (src : Source) : (l.admitNow src).linkStamp = l.linkStamp := by
  unfold Live.admitNow
  split
  · rfl
  · extract_lets others slot
    clear_value slot
    split
    · exact Live.refuseChange_linkStamp ..
    · split
      · exact (Live.driveBridge_linkStamp ..).trans rfl
      · rfl

theorem Live.strikeLoad_linkStamp (l : Live) (tick n d : Nat) (on c : Bool) : (l.strikeLoad tick n d on c).linkStamp = l.linkStamp := by
  unfold Live.strikeLoad
  extract_lets l1 ch cmd edge held
  have h1 : l1.linkStamp = l.linkStamp := (Live.withdraw_linkStamp ..).trans (Live.endFade_linkStamp ..)
  have he : ∀ l : Live, (edge l).linkStamp = l.linkStamp := fun l => Live.strikeEdge_linkStamp ..
  clear_value l1 edge
  rw [← h1]
  split
  · split <;> rfl
  · split
    · split
      · rfl
      · split
        · exact (he _).trans (Live.cancelHeld_linkStamp ..)
        · exact Live.cancelHeld_linkStamp ..
    · split
      · split
        · exact he _
        · split
          · rfl
          · exact Live.cancelHeld_linkStamp ..
      · split
        · rfl
        · split
          · exact (Live.admitNow_linkStamp ..).trans rfl
          · exact he _

theorem Live.strikeBridge_linkStamp (l : Live) (tick k a d r : Nat) : (l.strikeBridge tick k a d r).linkStamp = l.linkStamp := by
  unfold Live.strikeBridge
  extract_lets l1 edge l2
  have h1 : l1.linkStamp = l.linkStamp := Live.withdraw_linkStamp ..
  have he : ∀ l : Live, (edge l).linkStamp = l.linkStamp := fun l => Live.strikeEdge_linkStamp ..
  have h2 : l2.linkStamp = l1.linkStamp := he l1
  clear_value l2 l1 edge
  rw [← h1]
  split
  · exact (he _).trans rfl
  · split
    · rfl
    · split
      · exact (Live.admitNow_linkStamp ..).trans rfl
      · split
        · exact h2
        · exact h2

theorem Live.startFade_linkStamp (l : Live) (o : Option (MbRef × Nat)) (n d f fr : Nat) :
    (l.startFade o n d f fr).2.linkStamp = l.linkStamp := by
  unfold Live.startFade
  extract_lets c l1 d0 held runs ask
  have h1 : l1.linkStamp = l.linkStamp := (Live.withdraw_linkStamp ..).trans (Live.endFade_linkStamp ..)
  clear_value l1
  have hr : runs.2.linkStamp = l1.linkStamp := rfl
  have ha : ask.2.linkStamp = l1.linkStamp := rfl
  clear_value ask runs
  rw [← h1]
  split
  · rfl
  · split
    · exact hr
    · split
      · split
        · exact hr
        · exact ha
      · split
        · exact hr
        · split
          · rfl
          · split
            · exact hr
            · split
              · rfl
              · exact ha

theorem Live.strikeChange_linkStamp (l : Live) (boundary : Nat) (clamps : List Nat) (s : Staged) :
    (l.strikeChange boundary clamps s).linkStamp = l.linkStamp := by
  unfold Live.strikeChange
  dsimp only
  split
  · exact Live.strikeLoad_linkStamp ..
  · split
    · exact Live.strikeLoad_linkStamp ..
    · exact (Live.admitNow_linkStamp ..).trans (Live.startFade_linkStamp ..)
  · exact Live.strikeBridge_linkStamp ..
  · rfl
  · split
    · exact (Live.strikeEdge_linkStamp ..).trans (Live.withdraw_linkStamp ..)
    · exact Live.withdraw_linkStamp ..

end Sys2Proof.Machine
end

section
/-! What reading and filling a link cycle leave of the link. -/

namespace Sys2Proof.Machine

/-! ### Messages and cells -/

theorem Live.takeFragment_linkStamp (l : Live) (c : List Byte) : (l.takeFragment c).2.linkStamp = l.linkStamp := by
  unfold Live.takeFragment
  extract_lets key idx old rest ok bytes
  clear_value ok bytes
  split
  · rfl
  · split <;> rfl

theorem Live.readMessage_linkStamp (l : Live) (c : List Byte) : (l.readMessage c).linkStamp = l.linkStamp := by
  have h := l.takeFragment_linkStamp c
  unfold Live.readMessage
  dsimp only
  split
  · exact h
  · exact h

theorem Live.answerFor_linkStamp (l : Live) (c : List Byte) : (l.answerFor c).linkStamp = l.linkStamp := by
  have h := l.takeFragment_linkStamp c
  unfold Live.answerFor
  dsimp only
  split
  · split
    · exact h
    · exact h
  · exact h

theorem Live.cellError_linkStamp (l : Live) (p : Nat) : (l.cellError p).linkStamp = l.linkStamp := by
  unfold Live.cellError
  extract_lets l1 n due
  clear_value due
  split
  · exact (Live.raise_linkStamp ..).trans rfl
  · rfl

theorem Live.readCell_linkStamp (l : Live) (p : Nat) (c : List Byte) : (l.readCell p c).linkStamp = l.linkStamp := by
  unfold Live.readCell
  split
  · rfl
  · split
    · exact Live.cellError_linkStamp ..
    · split
      · exact Live.readMessage_linkStamp ..
      · rfl

theorem Live.readCells_linkStamp (l : Live) (p : Nat) (cs : List (List Byte)) :
    (cs.foldl (fun l c => l.readCell p c) l).linkStamp = l.linkStamp :=
  foldl_keeps Live.linkStamp (fun l c => l.readCell_linkStamp p c) cs l

theorem Live.sendReplies_linkStamp (l : Live) : l.sendReplies.linkStamp = l.linkStamp := by
  unfold Live.sendReplies
  exact foldl_keeps Live.linkStamp (fun _ _ => by rfl) _ l

theorem Live.fwdDropped_linkStamp (l : Live) (n c : Nat) : (l.fwdDropped n c).linkStamp = l.linkStamp := by
  unfold Live.fwdDropped
  dsimp only
  split
  · rfl
  · exact (Live.raise_linkStamp ..).trans rfl

theorem Live.toQueue_linkStamp (l : Live) (n : Nat) (f1 : Bool) (e : List Byte) : (l.toQueue n f1 e).linkStamp = l.linkStamp := by
  unfold Live.toQueue
  dsimp only
  generalize (if f1 = true then l.can.f1Q else l.can.hostQ) = q
  split
  · exact Live.fwdDropped_linkStamp ..
  · split
    · exact (Live.raise_linkStamp ..).trans rfl
    · rfl

theorem Live.bulkCells_linkStamp (l : Live) : l.bulkCells.linkStamp = l.linkStamp :=
  foldl_keeps Live.linkStamp (fun l x => by
    dsimp only
    split
    · exact Live.fwdDropped_linkStamp ..
    · rfl) _ l

theorem Live.enterRelayed_linkStamp (l : Live) (r : EventRec) : (l.enterRelayed r).linkStamp = l.linkStamp := by
  have hh : ∀ l : Live, (l.enterHost r).linkStamp = l.linkStamp := fun l => by
    unfold Live.enterHost
    dsimp only
    split <;> rfl
  have hf : ∀ l : Live, (l.enterF1 r).linkStamp = l.linkStamp := fun l => by
    unfold Live.enterF1
    dsimp only
    split <;> rfl
  unfold Live.enterRelayed
  extract_lets l1
  have h1 : l1.linkStamp = l.linkStamp := by
    unfold l1
    split
    · exact hh l
    · rfl
  clear_value l1
  split
  · exact (hf _).trans h1
  · exact h1

theorem Live.readEvents_linkStamp (l : Live) (c : List Byte) : (l.readEvents c).linkStamp = l.linkStamp := by
  unfold Live.readEvents
  split
  · rfl
  · exact foldl_keeps Live.linkStamp (fun l bs => l.enterRelayed_linkStamp _) _ l

/-! ### Audio -/

theorem Live.readAudio_linkStamp (l : Live) (c cap : Nat) (bs : List Byte) : (l.readAudio c cap bs).linkStamp = l.linkStamp := by
  unfold Live.readAudio
  split <;> rfl

theorem Live.hearAudio_linkStamp (l : Live) (cycle : Nat) (bs : List Byte) : (l.hearAudio cycle bs).linkStamp = l.linkStamp :=
  foldl_keeps Live.linkStamp (fun l c => l.readAudio_linkStamp c _ _) _ l

theorem Live.writeAudio_linkStamp (l : Live) (c cycle : Nat) (bs : List Byte) : (l.writeAudio c cycle bs).2.linkStamp = l.linkStamp := by
  unfold Live.writeAudio
  split
  · unfold Live.routeClash
    dsimp only
    split
    · rfl
    · exact (Live.raise_linkStamp ..).trans rfl
  · dsimp only
    split
    · rfl
    · split <;> rfl

theorem Live.fillAudio_linkStamp (l : Live) (cycle : Nat) (bs : List Byte) : (l.fillAudio cycle bs).2.linkStamp = l.linkStamp :=
  List.foldlRecOn (motive := fun a : List Byte × Live => a.2.linkStamp = l.linkStamp) _ _ rfl
    fun a h c _ => (a.2.writeAudio_linkStamp c cycle (audioCell bs c)).trans h

/-! ### Slots -/

theorem Live.fillCell_linkStamp (l : Live) (bulk may : Bool) : (l.fillCell bulk may).2.2.linkStamp = l.linkStamp := by
  unfold Live.fillCell
  split
  · rfl
  · split
    · split <;> rfl
    · split <;> rfl

theorem Live.passCell_linkStamp (l : Live) (p : Nat) (bulk may : Bool) (c : List Byte) :
    (l.passCell p bulk may c).2.2.linkStamp = l.linkStamp := by
  unfold Live.passCell
  extract_lets me bad l1 r
  have h1 : l1.linkStamp = l.linkStamp := by
    unfold l1
    split
    · exact Live.cellError_linkStamp ..
    · rfl
  have hr : r.2.linkStamp = l1.linkStamp := Live.takeFragment_linkStamp ..
  clear_value r l1
  rw [← h1]
  split
  · exact Live.fillCell_linkStamp ..
  · split
    · dsimp only
      split
      · split
        · exact (Live.toQueue_linkStamp ..).trans hr
        · exact hr
      · exact hr
    · split
      · rfl
      · dsimp only
        split
        · exact Live.readEvents_linkStamp ..
        · rfl

theorem Live.overSlot_linkStamp {f : Live → Bool → List Byte → List Byte × Bool × Live}
    (hf : ∀ l may c, (f l may c).2.2.linkStamp = l.linkStamp) (l : Live) (may : Bool) (cs : List (List Byte)) :
    (l.overSlot may cs f).2.linkStamp = l.linkStamp :=
  List.foldlRecOn (motive := fun a : List Byte × Bool × Live => a.2.2.linkStamp = l.linkStamp) _ _ rfl
    fun a h c _ => (hf a.2.2 a.2.1 c).trans h

theorem Live.passSlot_linkStamp (l : Live) (p : Nat) (bulk may : Bool) (cs : List (List Byte)) :
    (l.passSlot p bulk may cs).2.linkStamp = l.linkStamp :=
  Live.overSlot_linkStamp (fun l may c => l.passCell_linkStamp p bulk may c) l may cs

theorem Live.fillSlot_linkStamp (l : Live) (bulk : Bool) (cs : List (List Byte)) : (l.fillSlot bulk cs).2.linkStamp = l.linkStamp :=
  Live.overSlot_linkStamp (fun l may c => by
    split
    · exact Live.fillCell_linkStamp ..
    · rfl) l true cs

theorem Live.passUp_linkStamp (l : Live) (cycle i : Nat) (c : List Byte) : (l.passUp cycle i c).2.linkStamp = l.linkStamp := by
  unfold Live.passUp
  dsimp only
  split
  · split <;> rfl
  · rfl

/-! ### Whole cycles -/

theorem Live.cyclePasses_linkStamp (l : Live) (p cycle : Nat) (bs : List Byte) : (l.cyclePasses p cycle bs).linkStamp = l.linkStamp := by
  unfold Live.cyclePasses
  split
  · rfl
  · extract_lets l1 l2 a u e b
    have h1 : l1.linkStamp = l.linkStamp := (Live.bulkCells_linkStamp _).trans l.sendReplies_linkStamp
    clear_value l1
    have h2 : l2.linkStamp = l1.linkStamp := l1.readCells_linkStamp p _
    clear_value l2
    have ha : a.2.linkStamp = l2.linkStamp := (Live.fillAudio_linkStamp ..).trans (Live.hearAudio_linkStamp ..)
    clear_value a
    have hu : u.2.linkStamp = a.2.linkStamp :=
      List.foldlRecOn (motive := fun r : List Byte × Live => r.2.linkStamp = a.2.linkStamp) _ _ rfl
        fun r h x _ => (r.2.passUp_linkStamp cycle x.2 x.1).trans h
    clear_value u
    have he : e.2.linkStamp = u.2.linkStamp := Live.passSlot_linkStamp ..
    clear_value e
    have hb : b.2.linkStamp = e.2.linkStamp := Live.passSlot_linkStamp ..
    clear_value b
    exact hb.trans (he.trans (hu.trans (ha.trans (h2.trans h1))))

theorem Live.relayTimeout_linkStamp (l : Live) (o : OutMsg) : (l.relayTimeout o).linkStamp = l.linkStamp := by
  unfold Live.relayTimeout
  dsimp only
  split
  · exact (foldl_keeps Live.linkStamp (fun l p => l.gatherAnswer_linkStamp o.owner p _) _ _).trans rfl
  · exact (Live.complete_linkStamp ..).trans rfl

theorem Live.timeoutAll_linkStamp (l : Live) : l.timeoutAll.linkStamp = l.linkStamp :=
  foldl_keeps Live.linkStamp (fun l o => l.relayTimeout_linkStamp o) _ l

end Sys2Proof.Machine
end

section
/-! Cycles and formation of the cascade link, Strike, and the LINK commands with legal fields. -/

namespace Sys2Proof.Machine

section
variable {l : Live}

/-! ### The bytes of a cycle -/

theorem byteAt_padTo {n i : Nat} (h : i < n) (bs : List Byte) : byteAt (padTo n bs) i = byteAt bs i := by
  unfold padTo
  by_cases hi : i < bs.length
  · rw [byteAt_append_left (by rw [List.length_take]; omega)]
    simp [byteAt, List.getD_eq_getElem?_getD, List.getElem?_take, h]
  · have hz : byteAt bs i = 0 := by
      rw [byteAt, List.getD_eq_default _ _ (by omega)]
      rfl
    rw [hz, byteAt, List.getD_eq_getElem?_getD, List.getElem?_append_right (by rw [List.length_take]; omega)]
    rw [List.getElem?_replicate]
    split <;> rfl

/-- SYNC opens with its comma, then kind, master, hop and cycle. -/
theorem syncBytes_opens (kind master hop cycle mtTx acc alive t seq flags : Nat) : ∃ rest,
    syncBytes kind master hop cycle mtTx acc alive t seq flags =
      [0xBC] ++ (le 1 kind ++ (le 1 master ++ (le 1 hop ++ (le 4 cycle ++ rest)))) := by
  unfold syncBytes
  dsimp only
  simp only [List.append_assoc]
  exact ⟨_, rfl⟩

theorem cycleBytes_opens {master hop cycle mtTx acc alive t seq flags : Nat} (a d u e k b : List Byte) :
    let bs := cycleBytes (syncBytes 0 master hop cycle mtTx acc alive t seq flags) a d u e k b
    bs.length = cycleLen ∧ byteAt bs 0 = 0xBC ∧ byteAt bs 1 = 0 ∧ byteAt bs 2 = master % 256 ∧ rd bs 4 4 = cycle % 2 ^ 32 := by
  intro bs
  obtain ⟨rest, hs⟩ := syncBytes_opens 0 master hop cycle mtTx acc alive t seq flags
  have hbs : bs = padTo cycleLen ([0xBC] ++ (le 1 0 ++ (le 1 master ++ (le 1 hop ++ (le 4 cycle ++
      (rest ++ (a ++ (d ++ (u ++ (e ++ (k ++ b))))))))))) := by
    unfold bs cycleBytes
    rw [hs]
    simp only [List.append_assoc]
  have hlen : ∀ i, i < 8 → i < cycleLen := fun i hi => Nat.lt_trans hi (by decide)
  generalize rest ++ (a ++ (d ++ (u ++ (e ++ (k ++ b))))) = tail at hbs
  rw [hbs]
  refine ⟨padTo_length .., ?_, ?_, ?_, ?_⟩
  · exact byteAt_padTo (hlen 0 (by decide)) _
  · rw [byteAt_padTo (hlen 1 (by decide))]
    exact byteAt_le_one_append (pre := [0xBC]) (n := 0) rfl _
  · rw [byteAt_padTo (hlen 2 (by decide)), ← List.append_assoc, byteAt_le_one_append (by simp)]
  · rw [rd_congr (bs := [0xBC] ++ (le 1 0 ++ (le 1 master ++ (le 1 hop ++ (le 4 cycle ++ tail))))) (j := 4)
      (fun x hx => byteAt_padTo (hlen (4 + x) (by omega)) _), ← List.append_assoc, ← List.append_assoc, ← List.append_assoc]
    exact rd_le_at (by simp) 4 _ _

theorem cycleOriginate_rows (ha : l.acting = true) (hr : l.linkRuns = true) (hl : l.listening = false)
    (hc : l.link.cycle < l.cycleNo) : (cycleOriginate l).link.cycle = l.cycleNo ∧ (cycleOriginate l).link.carry = [] ∧
      (cycleOriginate l).link.tx.length = cycleLen ∧ byteAt (cycleOriginate l).link.tx 0 = 0xBC ∧
      byteAt (cycleOriginate l).link.tx 1 = 0 ∧ byteAt (cycleOriginate l).link.tx 2 = l.link.position % 256 ∧
      rd (cycleOriginate l).link.tx 4 4 = l.cycleNo % 2 ^ 32 := by
  unfold cycleOriginate
  extract_lets cycle l1 k a e b valid wrapped sflags sync
  rw [if_neg (by rw [ha, hr, hl, decide_eq_false (Nat.not_le.mpr hc)]; decide)]
  have hl1 : l1.link.position = l.link.position ∧ l1.link.cycle = cycle :=
    ⟨congrArg LinkStamp.position ((Live.bulkCells_linkStamp _).trans l.sendReplies_linkStamp), rfl⟩
  have hk : k.position = l.link.position := hl1.1
  have hb : b.2.link.cycle = cycle :=
    (congrArg LinkStamp.cycle ((Live.fillSlot_linkStamp ..).trans ((Live.fillSlot_linkStamp ..).trans
      (Live.fillAudio_linkStamp ..)))).trans hl1.2
  have hbytes := cycleBytes_opens (master := k.position) (hop := if k.st == .forming then 0 else k.position)
    (cycle := cycle % 2 ^ 32) (mtTx := cycle * cycleNs) (acc := 0) (alive := l1.aliveBit) (t := k.strikeT % 2 ^ 32)
    (seq := k.strikeSeq) (flags := sflags) a.1 (nextCells 16 k.cells) (List.replicate 1024 0) e.1 (nextCells 6 k.ledCells) b.1
  rw [Nat.mod_mod, hk] at hbytes
  unfold sync
  rw [hk]
  have hcycle : cycle = l.cycleNo := rfl
  rw [← hcycle]
  clear_value b cycle sflags
  exact ⟨hb, rfl, hbytes⟩

/-! ### Cycles that come in -/

/-- Whether the module is cascaded, and under which master. -/
def Live.ringOf (l : Live) : Bool × Nat := (l.link.cascaded, l.link.master)

theorem Live.ringOf_eq {l l' : Live} (h : l'.linkStamp = l.linkStamp) : l'.ringOf = l.ringOf :=
  Prod.ext (congrArg LinkStamp.cascaded h) (congrArg LinkStamp.master h)

theorem Live.raise_ringOf (l : Live) (id sev c : Nat) (p : List Byte) : (l.raise id sev c p).ringOf = l.ringOf :=
  Live.ringOf_eq (l.raise_linkStamp id sev c p)

theorem Live.takePosition_ringOf (l : Live) (hop : Nat) (f : Bool) : (l.takePosition hop f).ringOf = l.ringOf := by
  have hg : ∀ id sev bs, (l.becomeGuest id sev bs).ringOf = l.ringOf := fun id sev bs => by
    unfold Live.becomeGuest
    split
    · rfl
    · exact Live.raise_ringOf ..
  unfold Live.takePosition
  dsimp only
  split
  · split <;> rfl
  · split
    · exact hg ..
    · split
      · exact hg ..
      · split <;> rfl

theorem Live.correctMt_ringOf (l : Live) (c : Nat) (err : Int) : (l.correctMt c err).ringOf = l.ringOf := by
  unfold Live.correctMt
  dsimp only
  split
  · exact (Live.raise_ringOf ..).trans rfl
  · split
    · rfl
    · split
      · exact (Live.raise_ringOf ..).trans rfl
      · split
        · rfl
        · exact (Live.raise_ringOf ..).trans rfl

theorem Live.readStrike_ringOf (l : Live) (low seq : Nat) (v : Bool) : (l.readStrike low seq v).ringOf = l.ringOf := by
  have hmiss : ∀ (l : Live) (seq t : Nat) (bs : List Byte),
      ((l.setLink fun k => { k with strikeSeq := seq, strikeT := t }).raise 0x155 warn 1 bs).ringOf = l.ringOf :=
    fun l seq t bs => (Live.raise_ringOf ..).trans rfl
  unfold Live.readStrike
  extract_lets d target
  clear_value d target
  split
  · rfl
  · split
    · rfl
    · exact hmiss l seq target _

/-- A module that follows a cycle is cascaded under its master and has heard it now. -/
theorem Live.followCycle_rows (l : Live) (port : Nat) (bs : List Byte) : (l.followCycle port bs).link.cascaded = true ∧
    (l.followCycle port bs).link.master = byteAt bs 2 ∧ (l.followCycle port bs).link.lastSync = (l.followCycle port bs).mt.now := by
  unfold Live.followCycle
  extract_lets forming l1 l2 l3 l4 l5
  have h2 : l2.ringOf = (true, byteAt bs 2) := rfl
  clear_value l2
  have h3 : l3.ringOf = l2.ringOf := l2.takePosition_ringOf _ _
  clear_value l3
  have h4 : l4.ringOf = l3.ringOf := by
    unfold l4
    split
    · exact (Live.readStrike_ringOf ..).trans (Live.correctMt_ringOf ..)
    · rfl
  clear_value l4
  have h5 : l5.ringOf = l4.ringOf ∧ l5.link.lastSync = l5.mt.now := ⟨rfl, rfl⟩
  clear_value l5
  have h6 := l5.cyclePasses_linkStamp port (rd bs 8 8 / cycleNs) bs
  have hring := Prod.mk.inj ((Live.ringOf_eq h6).trans (h5.1.trans (h4.trans (h3.trans h2))))
  exact ⟨hring.1, hring.2, (congrArg LinkStamp.lastSync h6).trans (h5.2.trans (congrArg (fun t : LinkStamp => t.mt.now) h6).symm)⟩

theorem Live.cycleReturns_rows (l : Live) (port cycle : Nat) (bs : List Byte) :
    (l.cycleReturns port cycle bs).link.cascaded = l.link.cascaded ∧ (l.cycleReturns port cycle bs).link.lastSync = l.mt.now := by
  unfold Live.cycleReturns
  extract_lets up l1 on lost l2 l3 l4 e b
  have h1 : l1.linkStamp = l.linkStamp := l.readCells_linkStamp port up
  clear_value l1
  have h2 : l2.linkStamp = l1.linkStamp := rfl
  clear_value l2
  have h3 : l3.linkStamp = l2.linkStamp := foldl_keeps Live.linkStamp (fun l c => l.answerFor_linkStamp c) _ l2
  clear_value l3
  have h4 : l4.linkStamp = l3.linkStamp := l3.hearAudio_linkStamp cycle bs
  clear_value l4
  have he : e.2.linkStamp = l4.linkStamp := l4.passSlot_linkStamp port false false _
  clear_value e
  have hb : b.2.linkStamp = e.2.linkStamp := e.2.passSlot_linkStamp port true false _
  clear_value b
  have h := h4.trans (h3.trans (h2.trans h1))
  exact ⟨congrArg LinkStamp.cascaded (hb.trans (he.trans h)), congrArg (fun t : LinkStamp => t.mt.now) h⟩

/-- A frame that is not a whole cycle with its CRC, or comes while the link does not run, does nothing. -/
theorem syncReceived_bad {d : Sync} (h : ¬ (d.bytes.length = cycleLen ∧ rd d.bytes 62 2 = (crc16 ((d.bytes.drop 1).take 61)).toNat)) :
    syncReceived d l = l := by
  refine if_pos ?_
  by_cases hl : d.bytes.length = cycleLen
  · have hc : rd d.bytes 62 2 ≠ (crc16 ((d.bytes.drop 1).take 61)).toNat := fun hc => h ⟨hl, hc⟩
    rw [bne_iff_ne.mpr hc, Bool.or_true]
  · rw [bne_iff_ne.mpr hl, Bool.or_true, Bool.true_or]

/-- The receiving port of a good cycle is locked. -/
def Live.lockPort (l : Live) (p : Nat) : Live :=
  l.setPort p fun x => { x with lock := true, brk := false, parked := false, quiet := false }

theorem Live.lockPort_primaryPort (l : Live) (p : Nat) : (l.lockPort p).primaryPort = l.primaryPort := by
  have hw : ((l.lockPort p).port 0).wrapped = (l.port 0).wrapped := by
    unfold Live.lockPort Live.port Live.setPort Live.setLink
    dsimp only
    rw [List.getD_eq_getElem?_getD, List.getElem?_modify, List.getD_eq_getElem?_getD]
    cases l.link.ports[0]? with
    | none => rfl
    | some x =>
      by_cases hp : p = 0
      · simp [hp]
      · simp [hp]
  unfold Live.primaryPort
  rw [hw]

theorem Live.lockPort_lock {p : Nat} (h : p < l.link.ports.length) : ((l.lockPort p).port p).lock = true := by
  unfold Live.lockPort Live.port Live.setPort Live.setLink
  dsimp only
  rw [List.getD_eq_getElem?_getD, List.getElem?_modify, List.getElem?_eq_getElem h]
  simp

/-- WAKE-CHECK notes a cycle that comes in time. -/
def Live.notesLink (l : Live) (bs : List Byte) : Live :=
  if l.pwr.mode == .wakeCheck && byteAt bs 1 == 0 && decide (l.mt.now ≤ l.pwr.wake.checkAt + ms 10)
  then l.setPwr fun x => { x with wake := { x.wake with linkOk := true } } else l

theorem Live.notesLink_link (l : Live) (bs : List Byte) : (l.notesLink bs).link = l.link ∧ (l.notesLink bs).mt = l.mt := by
  unfold Live.notesLink
  split <;> exact ⟨rfl, rfl⟩

section
variable {d : Sync} (hgood : d.bytes.length = cycleLen ∧ rd d.bytes 62 2 = (crc16 ((d.bytes.drop 1).take 61)).toNat)
  (hrun : l.linkRuns = true)
include hgood hrun

theorem syncReceived_guard :
    ¬ (!l.linkRuns || d.bytes.length != cycleLen || rd d.bytes 62 2 != (crc16 ((d.bytes.drop 1).take 61)).toNat) = true := by
  rw [hrun, hgood.1, hgood.2, bne_self_eq_false cycleLen, bne_self_eq_false (crc16 _).toNat]
  decide

theorem syncReceived_idle (hk : byteAt d.bytes 1 = 1) : syncReceived d l = (l.notesLink d.bytes).lockPort (d.port % 2) := by
  refine (if_neg (syncReceived_guard hgood hrun)).trans ?_
  unfold Live.notesLink
  rw [hk]
  rfl

theorem syncReceived_break (hk : byteAt d.bytes 1 = 2) : syncReceived d l = (l.notesLink d.bytes).wrapPort (d.port % 2) 0 warn false := by
  refine (if_neg (syncReceived_guard hgood hrun)).trans ?_
  unfold Live.notesLink
  rw [hk]
  rfl

theorem syncReceived_park (hk : byteAt d.bytes 1 = 3) : syncReceived d l = (l.notesLink d.bytes).wrapPort (d.port % 2) 2 notice true := by
  refine (if_neg (syncReceived_guard hgood hrun)).trans ?_
  unfold Live.notesLink
  rw [hk]
  rfl

omit hgood hrun in
theorem Live.notesLink_of_kind (hk : byteAt d.bytes 1 ≠ 0) : l.notesLink d.bytes = l :=
  if_neg (by simp [hk])

theorem syncReceived_cycle (hk : byteAt d.bytes 1 = 0) (hport : d.port % 2 = l.primaryPort) :
    syncReceived d l = ((l.notesLink d.bytes).lockPort (d.port % 2)).primaryCycle (d.port % 2) d.bytes := by
  have hp : ((l.notesLink d.bytes).lockPort (d.port % 2)).primaryPort = d.port % 2 := by
    rw [Live.lockPort_primaryPort, hport]
    unfold Live.primaryPort Live.port
    rw [(l.notesLink_link d.bytes).1]
  have hx : syncReceived d l = if d.port % 2 = ((l.notesLink d.bytes).lockPort (d.port % 2)).primaryPort
      then ((l.notesLink d.bytes).lockPort (d.port % 2)).primaryCycle (d.port % 2) d.bytes
      else if d.port % 2 = 1 then ((l.notesLink d.bytes).lockPort (d.port % 2)).secondaryCycle d.bytes
      else (l.notesLink d.bytes).lockPort (d.port % 2) := by
    refine (if_neg (syncReceived_guard hgood hrun)).trans ?_
    unfold Live.notesLink
    rw [hk]
    rfl
  rw [hx, if_pos hp.symm]

end

theorem Live.acting_lockPort (l : Live) (bs : List Byte) (p : Nat) :
    ((l.notesLink bs).lockPort p).acting = l.acting ∧ ((l.notesLink bs).lockPort p).link.position = l.link.position := by
  have h := (l.notesLink_link bs).1
  have ha : ((l.notesLink bs).lockPort p).acting = (l.notesLink bs).acting := rfl
  have hp : ((l.notesLink bs).lockPort p).link.position = (l.notesLink bs).link.position := rfl
  refine ⟨ha.trans ?_, hp.trans (congrArg LinkState.position h)⟩
  unfold Live.acting
  rw [h]

/-! ### Formation and Strike -/

theorem formation_forming {ms_ : List Member} (hst : l.link.st = .forming) (hm : l.link.master = l.link.position) :
    ∃ r, (formation ms_ l).link.st = .master ∧ (formation ms_ l).link.roster.head? = some r ∧ r.pos = l.link.position ∧
      r.serial = Config.serial := by
  have hact : l.acting = true := by
    unfold Live.acting
    rw [hst, hm, beq_self_eq_true l.link.position]
    rfl
  unfold formation
  extract_lets fresh done self
  rw [if_pos hact, if_pos (by rw [hst]; rfl)]
  generalize hl1 : (l.setLink fun k => { k with
    st := .master, roster := self :: fresh.filter fun r => r.pos != k.position && decide (r.pos < 64) }).runFree .link = l1
  have h1 : l1.link.st = .master ∧ l1.link.roster.head? = some self := by
    rw [← hl1]
    unfold Live.runFree
    split <;> exact ⟨rfl, rfl⟩
  have hd := fun (id sev c : Nat) (p : List Byte) => l1.raise_linkStamp id sev c p
  exact ⟨self, (congrArg LinkStamp.st (hd ..)).trans h1.1, (congrArg (fun t : LinkStamp => t.roster.head?) (hd ..)).trans h1.2, rfl, rfl⟩

theorem formation_member {ms_ : List Member} (ha : l.acting = false) (hc : l.link.cascaded = true)
    (hauth : l.link.ringAuth = true → l.link.authOk = true) {x : RosterEntry}
    (hx : (ms_.map l.rosterEntry).find? (fun r => r.serial == Config.serial) = some x) :
    (formation ms_ l).link.st = .member ∧ (formation ms_ l).link.position = x.pos ∧
      (formation ms_ l).link.roster = ms_.map l.rosterEntry := by
  have hout : (l.link.ringAuth && !l.link.authOk) = false := by
    cases hr : l.link.ringAuth
    · rfl
    · rw [hauth hr]; rfl
  unfold formation
  extract_lets fresh done self free was l1 out
  rw [if_neg (by rw [ha]; decide), if_neg (by rw [hc]; decide), show fresh.find? (fun r => r.serial == Config.serial) = some x from hx]
  dsimp only
  rw [show out = false from hout]
  split
  · have hd := fun (l : Live) (id sev c : Nat) (p : List Byte) => l.raise_linkStamp id sev c p
    exact ⟨(congrArg LinkStamp.st (hd ..)).trans rfl, (congrArg LinkStamp.position (hd ..)).trans rfl,
      (congrArg LinkStamp.roster (hd ..)).trans rfl⟩
  · exact ⟨rfl, rfl, rfl⟩

theorem Live.applyStrike_rows (l : Live) (clamps : List Nat) (a : StrikeAnn) : (l.applyStrike clamps a).link.strike = none ∧
    (l.applyStrike clamps a).link.struckSeq = a.seq ∧
      (l.applyStrike clamps a).host.staged = l.host.staged.filter fun x => !x.struck := by
  unfold Live.applyStrike
  extract_lets batch boundary src l1 l2 l3 l4
  have h2 : l2.link.strike = none ∧ l2.link.struckSeq = a.seq ∧ l2.host.staged = l.host.staged.filter fun x => !x.struck :=
    ⟨rfl, rfl, rfl⟩
  clear_value l2
  have h3 : l3.linkStamp = l2.linkStamp :=
    foldl_keeps Live.linkStamp (fun l s => l.strikeChange_linkStamp boundary clamps s) _ l2
  clear_value l3
  have h4 : l4.linkStamp = l3.linkStamp := by
    unfold l4
    split <;> rfl
  clear_value l4
  have h := (l4.raise_linkStamp 0x155 info 0 (le 4 a.target ++ le 2 a.seq ++ le 2 (min batch.length 0xFFFF))).trans (h4.trans h3)
  exact ⟨(congrArg LinkStamp.strike h).trans h2.1, (congrArg LinkStamp.struckSeq h).trans h2.2.1,
    (congrArg LinkStamp.staged h).trans h2.2.2⟩

/-- What is as old as STAGE_MAX or older is discarded, the rest stays. -/
theorem stageMaxExpiry_staged (l : Live) : (stageMaxExpiry l).host.staged = l.host.staged.filter fun x =>
    decide (l.mt.now < x.since + ms (1000 * l.link.cfg.stageMax)) := by
  have hnot : (fun x : Staged => !decide (x.since + ms (1000 * l.link.cfg.stageMax) ≤ l.mt.now)) =
      fun x => decide (l.mt.now < x.since + ms (1000 * l.link.cfg.stageMax)) := by
    funext x
    rw [← decide_not]
    exact decide_eq_decide.mpr Nat.not_le
  unfold stageMaxExpiry
  dsimp only
  rw [← hnot]
  split
  · rename_i h
    refine (List.filter_eq_self.mpr fun x hx => ?_).symm
    have hnone := List.filter_eq_nil_iff.mp (List.eq_nil_of_length_eq_zero h) x hx
    rw [Bool.eq_false_iff.mpr hnone]
    rfl
  · exact (congrArg LinkStamp.staged (Live.raise_linkStamp ..)).trans rfl

theorem Live.applyLinkCfg_cfg (l : Live) (p : List Byte) : (l.applyLinkCfg p).link.cfg = LinkCfg.ofBytes p := by
  unfold Live.applyLinkCfg stageMaxExpiry
  dsimp only
  split
  · rfl
  · exact (congrArg LinkStamp.cfg (Live.raise_linkStamp ..)).trans rfl

theorem strikeAnnounce_rows {r : StrikeReq} (hr : l.link.strikeReq = some r) (ha : l.acting = true) (hs : l.link.strike = none) :
    ∃ a, (strikeAnnounce l).link.strike = some a ∧ a.target = max r.target (l.cycleNo + l.link.cfg.lead) ∧
      a.seq = (l.link.strikeSeq + 1) % 65536 ∧ (strikeAnnounce l).link.strikeReq = none ∧
      ∀ x ∈ (strikeAnnounce l).host.staged, x.struck = true := by
  unfold strikeAnnounce
  rw [hr]
  dsimp only
  rw [if_neg (by rw [ha, hs]; decide)]
  generalize max r.target (l.cycleNo + l.link.cfg.lead) = target
  generalize (l.link.strikeSeq + 1) % 65536 = seq
  generalize le 4 target ++ le 2 seq ++ le 2 0 = reply
  generalize hl1 : (l.announce target seq).setLink (fun k => { k with strikeReq := none }) = l1
  have h1 : l1.link.strike = some { target := target, seq := seq } ∧ l1.link.strikeReq = none ∧
      ∀ x ∈ l1.host.staged, x.struck = true := by
    rw [← hl1]
    refine ⟨rfl, rfl, fun x hx => ?_⟩
    obtain ⟨y, -, rfl⟩ := List.mem_map.mp (show x ∈ l.host.staged.map fun y => { y with struck := true } from hx)
    rfl
  have hc := l1.complete_linkStamp r.owner .ok 0 reply
  refine ⟨_, (congrArg LinkStamp.strike hc).trans h1.1, rfl, rfl, (congrArg LinkStamp.strikeReq hc).trans h1.2.1, ?_⟩
  rw [show (l1.complete r.owner .ok 0 reply).host.staged = l1.host.staged from congrArg LinkStamp.staged hc]
  exact h1.2.2

theorem Live.memberRecord_length (l : Live) (r : RosterEntry) : (l.memberRecord r).length = 16 := by
  simp [Live.memberRecord]

/-- The members that LINK.MEMBERS shows from a position on. -/
def Live.shownMembers (l : Live) (first : Nat) : List RosterEntry :=
  (((List.range 64).flatMap fun p => l.link.roster.filter fun (r : RosterEntry) => r.pos == p).filter
    fun r => decide (first ≤ r.pos)).take 30

theorem Live.shownMembers_length (l : Live) (first : Nat) : (l.shownMembers first).length ≤ 30 := List.length_take_le _ _

theorem LinkPhase.code_lt (p : LinkPhase) : p.code < 256 := by cases p <;> decide

end

end Sys2Proof.Machine

open Sys2Proof Sys2Proof.Machine

/-- Settles O44: each row's body with its conditions met; the work of the other units leaves the link as it is. -/
theorem linkCyclesAndStrikes : Obligations.LinkCyclesAndStrikes := by
  refine ⟨fun s ha hr hl hc => ?_, fun d s => ?_, fun port a b s => ⟨fun hp => ?_, fun hp => ?_⟩,
    fun ms_ s hp => ⟨fun hst hm => ?_, fun ha hc hauth x hx => ?_⟩, fun clamps a s hs ht hc => ?_, fun x s hp hx ht => ?_,
    fun s hp => ?_, fun r s hp hr ha hs => ?_, fun m b s h h0 hres => ?_, fun m b s h h0 h1 h2 h4 hres => ⟨?_, ?_⟩,
    fun m b s h => ?_, fun m b s h h0 => ?_, fun m b s h hres => ⟨fun ha hst => ?_, fun ha => ?_⟩, fun m b s h hres => ?_⟩
  · exact ⟨s.onLive cycleOriginate, rfl, rfl, cycleOriginate_rows ha hr hl hc⟩
  · intro p bs good
    refine ⟨fun h => ?_, fun h hr hp hk => ?_, fun h hr hk => ?_, fun h hr hk => ?_, fun h hr hk hp ha => ?_, fun h hr hk hp ha hpos => ?_⟩
    · exact congrArg Host.Outcome.next (congrArg (fun l => { s with live := l }) (syncReceived_bad h))
    · have hx := syncReceived_idle h hr hk
      rw [Live.notesLink_of_kind (by rw [show byteAt d.bytes 1 = 1 from hk]; decide)] at hx
      refine ⟨s.onLive (syncReceived d), rfl, rfl, ?_⟩
      rw [State.onLive, hx]
      exact ⟨Live.lockPort_lock hp, rfl⟩
    · have hx := syncReceived_break h hr hk
      rw [Live.notesLink_of_kind (by rw [show byteAt d.bytes 1 = 2 from hk]; decide)] at hx
      exact congrArg Host.Outcome.next (congrArg (fun l => { s with live := l }) hx)
    · have hx := syncReceived_park h hr hk
      rw [Live.notesLink_of_kind (by rw [show byteAt d.bytes 1 = 3 from hk]; decide)] at hx
      exact congrArg Host.Outcome.next (congrArg (fun l => { s with live := l }) hx)
    · have hx := syncReceived_cycle h hr hk hp
      obtain ⟨hact, -⟩ := s.live.acting_lockPort bs p
      refine ⟨s.onLive (syncReceived d), rfl, rfl, ?_⟩
      rw [State.onLive, hx]
      unfold Live.primaryCycle
      rw [if_pos (by rw [show (((s.live.notesLink d.bytes).lockPort (d.port % 2)).acting) = _ from hact, ha]; rfl)]
      exact Live.followCycle_rows ..
    · have hx := syncReceived_cycle h hr hk hp
      obtain ⟨hact, hposn⟩ := s.live.acting_lockPort bs p
      refine ⟨s.onLive (syncReceived d), rfl, rfl, ?_⟩
      rw [State.onLive, hx]
      unfold Live.primaryCycle
      rw [if_neg (by
        rw [show (((s.live.notesLink d.bytes).lockPort (d.port % 2)).acting) = _ from hact, ha,
          show ((s.live.notesLink d.bytes).lockPort (d.port % 2)).link.position = _ from hposn,
          show byteAt d.bytes 2 = _ from hpos, bne_self_eq_false s.live.link.position]
        simp), if_pos ((show byteAt d.bytes 2 = _ from hpos).trans hposn.symm)]
      obtain ⟨h1, h2⟩ := Live.cycleReturns_rows (((s.live.notesLink d.bytes).lockPort (d.port % 2)).setLink
        fun k => { k with cascaded := true }) (d.port % 2) (rd d.bytes 8 8 / cycleNs) d.bytes
      exact ⟨h1, h2.trans (congrArg (fun t : MtState => t.now) (s.live.notesLink_link d.bytes).2)⟩
  · refine congrArg Host.Outcome.next (congrArg (fun l => { s with live := l }) ?_)
    unfold hopProbe
    dsimp only
    rw [hp]
    rfl
  · refine congrArg Host.Outcome.next (congrArg (fun l => { s with live := l }) ?_)
    unfold hopProbe
    dsimp only
    rw [hp]
    rfl
  · obtain ⟨r, hr⟩ := formation_forming (ms_ := ms_) hst hm
    exact ⟨_, r, congrArg Host.Outcome.next (s.onLogic_running _ hp), rfl, hr⟩
  · exact ⟨_, congrArg Host.Outcome.next (s.onLogic_running _ hp), rfl, formation_member ha hc hauth hx⟩
  · have hx : strikeApply clamps s.live = s.live.applyStrike clamps a := by
      unfold strikeApply
      rw [hs]
      dsimp only
      rw [decide_eq_false (Nat.not_lt.mpr ht), hc]
      rfl
    refine ⟨s.onLive (strikeApply clamps), rfl, rfl, ?_⟩
    rw [State.onLive, hx]
    exact s.live.applyStrike_rows clamps a
  · refine congrArg Host.Outcome.next ((s.onLogic_running _ hp).trans (congrArg (fun l => { s with live := l }) ?_))
    unfold strikeLandRelease
    rw [hx]
    exact if_neg (Nat.not_lt.mpr ht)
  · exact ⟨_, congrArg Host.Outcome.next (s.onLogic_running _ hp), rfl, stageMaxExpiry_staged s.live⟩
  · obtain ⟨a, ha⟩ := strikeAnnounce_rows hr ha hs
    obtain ⟨h1, h2, h3, h4⟩ := ha
    exact ⟨_, a, congrArg Host.Outcome.next (s.onLogic_running _ hp), rfl, h1, h2, h3, h4⟩
  · intro target seq
    have hlead : (rd b.payload 0 2 == 0 || inRange 4 8000 (rd b.payload 0 2)) = true := by
      rcases h0 with h0 | h0 <;> rw [h0]
      · rfl
      · exact Bool.or_true _
    have hc := checked_pass (α := Reply × Live) (cs := [(0, rd b.payload 0 2 == 0 || inRange 4 8000 (rd b.payload 0 2)), resv b 2 2])
      (by rw [hlead]; simpa using hres)
    refine ⟨fun hcas ha hpath hfit => ?_, fun hor hbusy => ?_, fun hcas ha hs hq => ?_, fun hcas hs hq => ?_⟩
    · refine congrArg Host.Outcome.next ((State.command_ends h _).trans (congrArg (s.ends m) ?_))
      unfold linkStrike
      dsimp only
      refine (hc _ _).trans ((if_pos (by rw [hcas, ha]; rfl)).trans ((if_neg (by rw [hpath]; decide)).trans (if_neg ?_)))
      rw [hfit]
      decide
    · refine congrArg Host.Outcome.next (State.command_answer h ?_)
      unfold linkStrike
      dsimp only
      refine (hc _ _).trans ((if_neg ?_).trans (if_pos ?_))
      · rcases hor with hx | hx <;> simp [hx]
      · rcases hbusy with hx | hx
        · rw [Option.isSome_iff_ne_none.mpr hx]; rfl
        · rw [Option.isSome_iff_ne_none.mpr hx]; exact Bool.or_true _
    · refine congrArg Host.Outcome.next ((State.command_ends h _).trans (congrArg (s.ends m) ?_))
      unfold linkStrike
      dsimp only
      refine (hc _ _).trans ((if_neg (by rw [ha, hcas]; decide)).trans ((if_neg (by rw [hs, hq]; decide)).trans (if_pos hcas)))
    · refine congrArg Host.Outcome.next ((State.command_ends h _).trans (congrArg (s.ends m) ?_))
      unfold linkStrike
      dsimp only
      refine (hc _ _).trans ((if_neg (by rw [hcas]; simp)).trans ((if_neg (by rw [hs, hq]; decide)).trans (if_neg (by rw [hcas]; decide))))
  · refine congrArg Host.Outcome.next ((State.command_ends h _).trans (congrArg (s.ends m) ?_))
    unfold linkConfig
    dsimp only
    exact checked_pass (by simp [h0, h1, h2, h4, hres]) _ _
  · exact s.live.applyLinkCfg_cfg b.payload
  · refine ⟨s.live.linkRecord, congrArg Host.Outcome.next (State.command_answer h rfl), ?_, ?_, ?_, ?_, ?_⟩
    all_goals
      unfold Live.linkRecord
      dsimp only
      simp only [List.append_assoc]
    · simp
    · exact (byteAt_le_one_append (length_le 1 _) _).trans (Nat.mod_eq_of_lt (LinkPhase.code_lt _))
    · rw [← List.append_assoc]
      exact byteAt_le_one_append (by simp) _
    · rw [← List.append_assoc, ← List.append_assoc, ← List.append_assoc, ← List.append_assoc, ← List.append_assoc, ← List.append_assoc]
      exact rd_le_at (by simp) 4 _ _
    · rw [← List.append_assoc, ← List.append_assoc, ← List.append_assoc, ← List.append_assoc, ← List.append_assoc,
        ← List.append_assoc, ← List.append_assoc]
      exact rd_le_at (by simp) 2 _ _
  · refine ⟨(s.live.shownMembers (byteAt b.payload 0)).length, _, congrArg Host.Outcome.next (State.command_answer h
      (checked_pass (by rw [decide_eq_true h0]; rfl) _ _)), Live.shownMembers_length .., ?_, ?_⟩
    · rw [List.length_append, length_flatMap_const (k := 16) (fun r => s.live.memberRecord_length r)]
      simp [Live.shownMembers]
    · rw [List.append_assoc, List.append_assoc]
      exact (byteAt_le_one_head _ _).trans
        (Nat.mod_eq_of_lt (Nat.lt_of_le_of_lt (s.live.shownMembers_length (byteAt b.payload 0)) (by decide)))
  · refine congrArg Host.Outcome.next (State.command_answer h ?_)
    exact (checked_pass (by simpa using hres) _ _).trans (if_pos (by simp [ha, hst]))
  · refine ⟨_, congrArg Host.Outcome.next ((State.command_ends h _).trans (congrArg (s.ends m)
      ((checked_pass (by simpa using hres) _ _).trans (if_neg ?_)))), rfl, rfl, rfl, rfl, rfl, rfl⟩
    rcases ha with ha | ha <;> simp [ha]
  · refine congrArg Host.Outcome.next ((State.command_ends h _).trans (congrArg (s.ends m) ?_))
    exact checked_pass (by simpa using hres) _ _
end

section
/-! Breaks, silence, failure of a master, authentication and module time on the link. -/

namespace Sys2Proof.Machine

/-! ### What an event leaves -/

/-- What of the link and of RELAY an event leaves, besides the stamp of the link. -/
structure PortStamp where
  ports : List LinkPort
  sessions : List (Nat × List Byte)
  authOk : Bool
  authNext : Nat
  relay : Bool

def Live.portStamp (l : Live) : PortStamp :=
  ⟨l.link.ports, l.link.sessions, l.link.authOk, l.link.authNext, l.host.relay⟩

theorem Live.enter_portStamp (l : Live) (r : EventRec) : (l.enter r).portStamp = l.portStamp := by
  have hh : ∀ l : Live, (l.enterHost r).portStamp = l.portStamp := fun l => by
    unfold Live.enterHost
    dsimp only
    split <;> rfl
  have hf : ∀ l : Live, (l.enterF1 r).portStamp = l.portStamp := fun l => by
    unfold Live.enterF1
    dsimp only
    split <;> rfl
  unfold Live.enter
  extract_lets l1 l2
  have h1 : l1.portStamp = l.portStamp := by
    unfold l1
    split
    · exact hh l
    · rfl
  have h2 : l2.portStamp = l1.portStamp := by
    unfold l2
    split
    · exact hf l1
    · rfl
  clear_value l2
  split
  · exact h2.trans h1
  · exact h2.trans h1

@[simp] theorem Live.raise_portStamp (l : Live) (id sev c : Nat) (p : List Byte) : (l.raise id sev c p).portStamp = l.portStamp := by
  unfold Live.raise
  dsimp only
  rw [← l.enter_portStamp (l.record id sev c p)]
  generalize l.enter (l.record id sev c p) = l1
  unfold Live.enterLink
  split
  · rfl
  · split
    · rfl
    · dsimp only
      split
      · split
        · rfl
        · exact Live.enter_portStamp ..
      · exact Live.enter_portStamp ..

theorem Live.port_congr {l l' : Live} (h : l'.portStamp = l.portStamp) (p : Nat) : l'.port p = l.port p :=
  congrArg (fun t : PortStamp => t.ports.getD p LinkPort.init) h

/-- The entries of one position after a change of that position's entries. -/
theorem roster_changed {rs : List RosterEntry} {pos : Nat} {f : RosterEntry → RosterEntry} {r : RosterEntry}
    (hr : r ∈ rs.map fun x => if x.pos == pos then f x else x) (hp : r.pos = pos) : ∃ x, r = f x := by
  obtain ⟨x, -, hx⟩ := List.mem_map.mp hr
  by_cases hb : (x.pos == pos) = true
  · exact ⟨x, hx.symm.trans (if_pos hb)⟩
  · rw [if_neg hb] at hx
    rw [hx] at hb
    exact absurd (beq_iff_eq.mpr hp) hb

theorem Live.setPort_port {l : Live} {p : Nat} (f : LinkPort → LinkPort) (h : p < l.link.ports.length) :
    (l.setPort p f).port p = f (l.port p) := upd_getD f _ h

section
variable {l : Live}

/-! ### Silent members -/

theorem Live.timeoutFor_linkStamp (l : Live) (pos : Nat) : (l.timeoutFor pos).linkStamp = l.linkStamp :=
  (foldl_keeps Live.linkStamp (fun l (g : Gather) => l.gatherAnswer_linkStamp g.owner pos _) _ _).trans
    (foldl_keeps Live.linkStamp (fun l o => l.relayTimeout_linkStamp o) _ l)

theorem memberSilent_rows {pos n : Nat} {far : Bool} (hm : l.isMember pos = true) :
    (8 ≤ n → (if far then l.beyondBreak pos else l.acting) = true → pos ∉ l.link.silent →
      (memberSilent pos n far l).link.silent = l.link.silent ++ [pos] ∧
        ∀ r ∈ (memberSilent pos n far l).link.roster, r.pos = pos → r.alive = false) ∧
    (n = 0 → pos ∈ l.link.silent → pos ∉ (memberSilent pos n far l).link.silent ∧
      ∀ r ∈ (memberSilent pos n far l).link.roster, r.pos = pos → r.alive = true) := by
  have hmark : ∀ (b : Bool) (r : RosterEntry), r ∈ (l.markSilent pos b).link.roster → r.pos = pos → r.alive = !b := by
    intro b r hr hp
    obtain ⟨x, rfl⟩ := roster_changed hr hp
    rfl
  unfold memberSilent
  extract_lets known bytes may l1
  refine ⟨fun h8 hmay hnot => ?_, fun h0 hin => ?_⟩
  · have hk : known = false := Bool.eq_false_iff.mpr fun h => hnot (List.contains_iff_mem.mp h)
    rw [if_neg (by rw [hm]; decide), if_pos (by rw [hk, decide_eq_true h8, show may = true from hmay]; rfl)]
    have h1 : l1.linkStamp = (l.markSilent pos true).linkStamp := Live.raise_linkStamp ..
    clear_value l1
    have h2 : (if l1.acting then l1.timeoutFor pos else l1).linkStamp = (l.markSilent pos true).linkStamp := by
      split
      · exact (Live.timeoutFor_linkStamp ..).trans h1
      · exact h1
    refine ⟨congrArg LinkStamp.silent h2, ?_⟩
    rw [show (if l1.acting then l1.timeoutFor pos else l1).link.roster = (l.markSilent pos true).link.roster from
      congrArg LinkStamp.roster h2]
    exact hmark true
  · have hk : known = true := List.contains_iff_mem.mpr hin
    have h2 := (l.markSilent pos false).raise_linkStamp 0x152 notice 2 bytes
    rw [if_neg (by rw [hm]; decide), if_neg (by rw [h0]; simp), if_pos (by rw [hk, h0]; rfl)]
    refine ⟨?_, ?_⟩
    · rw [show ((l.markSilent pos false).raise 0x152 notice 2 bytes).link.silent = (l.markSilent pos false).link.silent from
        congrArg LinkStamp.silent h2]
      intro h
      exact absurd (List.mem_filter.mp h).2 (by rw [bne_self_eq_false pos]; decide)
    · rw [show ((l.markSilent pos false).raise 0x152 notice 2 bytes).link.roster = (l.markSilent pos false).link.roster from
        congrArg LinkStamp.roster h2]
      exact hmark false

/-! ### Ports -/

theorem Live.wrapPort_port {p : Nat} (h : p < l.link.ports.length) (c sev : Nat) (parked : Bool) :
    ((l.wrapPort p c sev parked).port p).lock = false ∧ ((l.wrapPort p c sev parked).port p).wrapped = true := by
  unfold Live.wrapPort
  extract_lets was l1
  have h1 : (l1.port p).lock = false ∧ (l1.port p).wrapped = true := by
    unfold l1
    rw [Live.setPort_port _ h]
    exact ⟨rfl, rfl⟩
  split
  · exact h1
  · rw [Live.port_congr (Live.raise_portStamp ..)]
    exact h1

/-! ### Master failure -/

theorem masterTakeover_rows {k : Nat} (hk : l.altRank = some k) (hst : l.link.st = .member) (hm : l.pwr.mode ≠ .drain)
    (hc : l.commandLayer = true) (ht : l.link.lastSync + 4 * (k + 1) * cycleNs ≤ l.mt.now) :
    (masterTakeover l).link.st = .master ∧ (masterTakeover l).link.master = l.link.position ∧
      (masterTakeover l).host.relay = true ∧ (masterTakeover l).acting = true := by
  unfold masterTakeover
  rw [hk]
  dsimp only
  rw [if_neg (by rw [hst, hc, decide_eq_false (Nat.not_lt.mpr ht)]; simpa using hm)]
  generalize hl1 : (if l.mt.source == .link then l.loseMt 0 0xFF else l).runFree .link = l1
  have h1 : l1.link.position = l.link.position := by
    have hr : ∀ l : Live, (l.runFree .link).link = l.link := fun l => by
      unfold Live.runFree
      split <;> rfl
    rw [← hl1, hr]
    split
    · exact congrArg LinkStamp.position (Live.raise_linkStamp ..)
    · rfl
  clear hl1
  generalize hl2 : l1.setLink (fun x => { x with
    st := .master, master := x.position, cycle := l1.cycleNo, cells := [], frags := [], inbox := [], carry := [] }) = l2
  have h2 : l2.link.st = .master ∧ l2.link.master = l.link.position := by
    rw [← hl2]
    exact ⟨rfl, h1⟩
  clear hl2
  generalize le 1 l2.link.position ++ le 1 l.link.master = bytes
  have hs := ({ l2 with host := { l2.host with relay := true } } : Live).raise_linkStamp 0x153 warn 0 bytes
  have hp := ({ l2 with host := { l2.host with relay := true } } : Live).raise_portStamp 0x153 warn 0 bytes
  have hst : (({ l2 with host := { l2.host with relay := true } } : Live).raise 0x153 warn 0 bytes).link.st = .master :=
    (congrArg LinkStamp.st hs).trans h2.1
  refine ⟨hst, (congrArg LinkStamp.master hs).trans h2.2, congrArg PortStamp.relay hp, ?_⟩
  unfold Live.acting
  rw [hst]
  rfl

end

/-! ### Membership authentication -/

/-- The refusal of a service key leaves what is kept, and the link. -/
theorem State.serviceRefused_rows (s : State) (slot opc : Nat) : (s.serviceRefused slot opc).kept = s.kept ∧
    (s.serviceRefused slot opc).live.linkStamp = s.live.linkStamp := by
  unfold State.serviceRefused
  dsimp only
  split
  · exact ⟨rfl, rfl⟩
  · split
    · exact ⟨rfl, Live.raise_linkStamp ..⟩
    · split
      · exact ⟨rfl, Live.raise_linkStamp ..⟩
      · exact ⟨rfl, rfl⟩

/-- The state in which an exchange of a cascaded module is judged. -/
def State.judges (s : State) : State := s.serviceRefused s.live.link.cfg.keySlot 0x4801

theorem State.judges_kdf (s : State) (label : String) (context : List Byte) :
    s.judges.serviceKdf s.judges.live.link.cfg.keySlot label context = s.serviceKdf s.live.link.cfg.keySlot label context := by
  obtain ⟨hk, hl⟩ := s.serviceRefused_rows s.live.link.cfg.keySlot 0x4801
  have hc : s.judges.live.link.cfg = s.live.link.cfg := congrArg LinkStamp.cfg hl
  rw [hc, State.serviceKdf, State.serviceKdf, show s.judges.kept = s.kept from hk]

theorem State.judges_session (s : State) (o : Nat) (mc cc : List Byte) : s.judges.linkSession o mc cc = s.linkSession o mc cc := by
  unfold State.linkSession
  dsimp only
  rw [State.judges_kdf]

theorem State.judges_acting (s : State) : s.judges.live.acting = s.live.acting := by
  have hl := (s.serviceRefused_rows s.live.link.cfg.keySlot 0x4801).2
  have h1 : s.judges.live.link.st = s.live.link.st := congrArg LinkStamp.st hl
  have h2 : s.judges.live.link.master = s.live.link.master := congrArg LinkStamp.master hl
  have h3 : s.judges.live.link.position = s.live.link.position := congrArg LinkStamp.position hl
  rw [Live.acting, h1, h2, h3, Live.acting]

section
variable {a : AuthData} {s : State}

theorem State.authMember_late (h : a.inTime = false) : (s.authMember a).kept = s.kept ∧
    (∀ r ∈ (s.authMember a).live.link.roster, r.pos ≠ a.pos) ∧ ∀ x ∈ (s.authMember a).live.link.sessions, x.1 ≠ a.pos := by
  unfold State.authMember
  dsimp only
  rw [h, Bool.false_and]
  generalize hl : s.live.setLink (fun k => { k with
    roster := k.roster.filter (fun (r : RosterEntry) => r.pos != a.pos),
    sessions := k.sessions.filter (fun x => x.1 != a.pos) }) = l1
  refine ⟨rfl, fun r hr => ?_, fun x hx => ?_⟩
  · have he : (l1.raise 0x157 sevFault 1 (le 1 a.pos)).link.roster = l1.link.roster := congrArg LinkStamp.roster (Live.raise_linkStamp ..)
    have hm : r ∈ (l1.raise 0x157 sevFault 1 (le 1 a.pos)).link.roster := hl ▸ hr
    rw [he, ← hl] at hm
    exact bne_iff_ne.mp (List.mem_filter.mp hm).2
  · have he : (l1.raise 0x157 sevFault 1 (le 1 a.pos)).link.sessions = l1.link.sessions := congrArg PortStamp.sessions (Live.raise_portStamp ..)
    have hm : x ∈ (l1.raise 0x157 sevFault 1 (le 1 a.pos)).link.sessions := hl ▸ hx
    rw [he, ← hl] at hm
    exact bne_iff_ne.mp (List.mem_filter.mp hm).2

theorem State.authMember_proves {k : List Byte} (h : a.inTime = true)
    (hk : s.serviceKdf s.live.link.cfg.keySlot "ZZ-LKMBR" (le 8 a.serial) = some k)
    (hc : cmac k (a.masterChal ++ le 8 a.serial ++ le 1 a.pos) = a.mac) : (s.authMember a).kept = s.kept ∧
    (a.pos, s.linkSession a.serial a.masterChal a.memberChal) ∈ (s.authMember a).live.link.sessions ∧
      ∀ r ∈ (s.authMember a).live.link.roster, r.pos = a.pos → r.auth = true := by
  unfold State.authMember
  extract_lets good key
  have hgood : good = true := by
    unfold good
    rw [h, Bool.true_and, hk]
    dsimp only
    rw [hc, beq_self_eq_true a.mac]
  clear_value good
  subst hgood
  generalize hl : s.live.setLink (fun k => { k with
    roster := k.roster.map fun (r : RosterEntry) => if r.pos == a.pos then { r with auth := true } else r,
    sessions := k.sessions.filter (fun x => x.1 != a.pos) ++ [(a.pos, key)] }) = l1
  have hses : (l1.raise 0x157 notice 0 (le 1 a.pos)).link.sessions = l1.link.sessions := congrArg PortStamp.sessions (Live.raise_portStamp ..)
  have hros : (l1.raise 0x157 notice 0 (le 1 a.pos)).link.roster = l1.link.roster := congrArg LinkStamp.roster (Live.raise_linkStamp ..)
  refine ⟨rfl, ?_, fun r hr hp => ?_⟩
  · show _ ∈ ((s.live.setLink _).raise 0x157 notice 0 (le 1 a.pos)).link.sessions
    rw [hl, hses, ← hl]
    exact List.mem_append_right _ (List.mem_singleton.mpr rfl)
  · have hm : r ∈ (l1.raise 0x157 notice 0 (le 1 a.pos)).link.roster := hl ▸ hr
    rw [hros, ← hl] at hm
    obtain ⟨x, rfl⟩ := roster_changed hm hp
    rfl

theorem State.authMaster_proves {k : List Byte} (h : a.inTime = true)
    (hk : s.serviceKdf s.live.link.cfg.keySlot "ZZ-LKMBR" (le 8 Config.serial) = some k)
    (hc : cmac k (a.memberChal ++ le 8 a.serial) = a.mac) : (s.authMaster a).kept = s.kept ∧
    (s.authMaster a).live.link.authOk = true ∧
      (s.authMaster a).live.link.sessions = [(a.pos, s.linkSession a.serial a.masterChal a.memberChal)] := by
  unfold State.authMaster
  extract_lets good key
  have hgood : good = true := by
    unfold good
    rw [h, Bool.true_and, hk]
    dsimp only
    rw [hc, beq_self_eq_true a.mac]
  clear_value good
  subst hgood
  exact ⟨rfl, (congrArg PortStamp.authOk (Live.raise_portStamp ..)).trans rfl,
    (congrArg PortStamp.sessions (Live.raise_portStamp ..)).trans rfl⟩

theorem State.authMaster_late (h : a.inTime = false) : (s.authMaster a).kept = s.kept ∧
    (s.authMaster a).live.link.st = .guest ∧ (s.authMaster a).live.link.position = 0xFF ∧
      (s.authMaster a).live.link.authNext = s.live.mt.now + ms 1000 := by
  unfold State.authMaster
  dsimp only
  rw [h, Bool.false_and]
  exact ⟨rfl, (congrArg LinkStamp.st (Live.raise_linkStamp ..)).trans rfl,
    (congrArg LinkStamp.position (Live.raise_linkStamp ..)).trans rfl,
    (congrArg PortStamp.authNext (Live.raise_portStamp ..)).trans rfl⟩

end

end Sys2Proof.Machine

open Sys2Proof Sys2Proof.Machine

/-- Settles O45: each row's body with its conditions met, by what the events leave of the link. -/
theorem linkFailures : Obligations.LinkFailures := by
  refine ⟨fun pos n far s hp hm => ⟨fun h8 hmay hnot => ?_, fun h0 hin => ?_⟩,
    fun port v s hlen => ⟨fun hl => ?_, fun hw hv hc => ?_, fun hl hv hw => ?_⟩, fun w s hw => ?_, fun s hp hl hm ht => ?_,
    fun k s hk hst hm hc ht => ?_, fun a s hc => ⟨fun ha ht => ?_, fun ha ht k hk hmac => ?_, fun ha ht k hk hmac => ?_, fun ha ht => ?_⟩,
    fun s hp hst hn ht => ?_, fun s => ⟨fun hs ht => ?_, fun c hs hsrc ht => ?_⟩⟩
  · exact ⟨_, congrArg Host.Outcome.next (s.onLogic_running _ hp), rfl, (memberSilent_rows hm).1 h8 hmay hnot⟩
  · exact ⟨_, congrArg Host.Outcome.next (s.onLogic_running _ hp), rfl, (memberSilent_rows hm).2 h0 hin⟩
  · have hx : lossOfLock port s.live = s.live.wrapPort (port % 2) 0 warn false := if_neg (by rw [hl]; decide)
    refine ⟨s.onLive (lossOfLock port), rfl, rfl, ?_⟩
    rw [State.onLive, hx]
    exact Live.wrapPort_port hlen ..
  · refine ⟨s.onLive (unwrap port v), rfl, rfl, ?_⟩
    show ((unwrap port v s.live).port (port % 2)).lock = true ∧ ((unwrap port v s.live).port (port % 2)).wrapped = false
    unfold unwrap
    dsimp only
    rw [if_neg (by rw [hw, hc, decide_eq_false (Nat.not_lt.mpr hv)]; decide), Live.port_congr (Live.raise_portStamp ..),
      Live.setPort_port _ hlen]
    exact ⟨rfl, rfl⟩
  · have hx : portQuiet port v s.live = s.live.setPort (port % 2) fun x => { x with quiet := true, brk := false } :=
      if_neg (by rw [hl, hw, decide_eq_false (Nat.not_lt.mpr hv)]; decide)
    refine ⟨s.onLive (portQuiet port v), rfl, rfl, ?_⟩
    rw [State.onLive, hx]
    dsimp only
    rw [Live.setPort_port _ hlen]
    exact ⟨rfl, rfl⟩
  · refine ⟨s.onLive linkWakeTransmit, rfl, rfl, ?_⟩
    show (_ → (linkWakeTransmit s.live).link.wakeTx = _ ∧ ∀ x ∈ (linkWakeTransmit s.live).link.ports, _) ∧
      (_ → (linkWakeTransmit s.live).link.wakeTx = _ ∧ ∀ x ∈ (linkWakeTransmit s.live).link.ports, _)
    unfold linkWakeTransmit
    rw [hw]
    dsimp only
    refine ⟨fun hlt => ?_, fun hle => ?_⟩
    · rw [if_pos hlt]
      refine ⟨hw, fun x hx => ?_⟩
      obtain ⟨y, -, rfl⟩ := List.mem_map.mp hx
      rfl
    · rw [if_neg (Nat.not_lt.mpr hle)]
      refine ⟨rfl, fun x hx => ?_⟩
      obtain ⟨y, -, rfl⟩ := List.mem_map.mp hx
      rfl
  · refine congrArg Host.Outcome.next ((s.onLogic_running _ hp).trans (congrArg (fun l => { s with live := l }) (if_neg ?_)))
    rw [hl, hm, decide_eq_false (Nat.not_lt.mpr ht)]
    decide
  · exact ⟨s.onLive masterTakeover, rfl, rfl, masterTakeover_rows hk hst hm hc ht⟩
  · obtain ⟨hkept, hrows⟩ := State.authMember_late (s := s.judges) ht
    refine ⟨s.judges.authMember a, congrArg Host.Outcome.next ?_, hkept.trans (s.serviceRefused_rows ..).1, hrows⟩
    exact (if_neg (by rw [hc]; decide)).trans (if_pos (s.judges_acting.trans ha))
  · obtain ⟨hkept, hrows⟩ := State.authMember_proves (s := s.judges) ht ((s.judges_kdf ..).trans hk) hmac
    rw [State.judges_session] at hrows
    refine ⟨s.judges.authMember a, congrArg Host.Outcome.next ?_, hkept.trans (s.serviceRefused_rows ..).1, hrows⟩
    exact (if_neg (by rw [hc]; decide)).trans (if_pos (s.judges_acting.trans ha))
  · obtain ⟨hkept, hrows⟩ := State.authMaster_proves (s := s.judges) ht ((s.judges_kdf ..).trans hk) hmac
    rw [State.judges_session] at hrows
    refine ⟨s.judges.authMaster a, congrArg Host.Outcome.next ?_, hkept.trans (s.serviceRefused_rows ..).1, hrows⟩
    exact (if_neg (by rw [hc]; decide)).trans (if_neg (Bool.eq_false_iff.mp (s.judges_acting.trans ha)))
  · obtain ⟨hkept, hst, hpos, hnext⟩ := State.authMaster_late (s := s.judges) ht
    have hmt : s.judges.live.mt = s.live.mt := congrArg LinkStamp.mt (s.serviceRefused_rows ..).2
    refine ⟨s.judges.authMaster a, congrArg Host.Outcome.next ?_, hkept.trans (s.serviceRefused_rows ..).1, hst, hpos,
      hnext.trans (congrArg (fun t : MtState => t.now + ms 1000) hmt)⟩
    exact (if_neg (by rw [hc]; decide)).trans (if_neg (Bool.eq_false_iff.mp (s.judges_acting.trans ha)))
  · refine congrArg Host.Outcome.next ((s.onLogic_running _ hp).trans (congrArg (fun l => { s with live := l }) (if_pos ?_)))
    rw [hst, decide_eq_true ht, Bool.and_true]
    simpa using hn
  · have hx : mtSourceLost s.live = s.live.loseMt 0 0xFF := by
      unfold mtSourceLost
      rw [hs]
      exact if_neg (Nat.not_lt.mpr ht)
    refine ⟨s.onLive mtSourceLost, rfl, rfl, ?_⟩
    rw [State.onLive, hx]
    dsimp only
    rw [Live.loseMt, Live.raise_mt]
    exact ⟨rfl, rfl, rfl⟩
  · have hx : mtSourceLost s.live = (s.live.setCan fun x => { x with source := some { c with good := 0 } }).loseMt 1 c.ch := by
      unfold mtSourceLost
      rw [hs]
      dsimp only
      rw [hsrc]
      exact if_neg (Nat.not_lt.mpr ht)
    refine ⟨s.onLive mtSourceLost, rfl, rfl, ?_⟩
    rw [State.onLive, hx]
    dsimp only
    rw [Live.loseMt, Live.raise_mt, Live.raise_can]
    exact ⟨rfl, rfl, rfl⟩
end

section
/-! Token searches, rounds and tracking, and the TOKEN commands with legal fields. -/

namespace Sys2Proof.Machine

/-! ### Reading an antenna after an update -/

section
variable {l l' : Live} {a k : Nat}

theorem Live.setAnt_ant (f : TokenAnt → TokenAnt) (h : a < l.token.ants.length) : (l.setAnt a f).ant a = f (l.ant a) :=
  upd_getD f _ h

theorem Live.ant_congr (h : l'.token.ants = l.token.ants) (k : Nat) : l'.ant k = l.ant k := by
  rw [Live.ant, h, Live.ant]

@[simp] theorem Live.setAnt_length (l : Live) (a : Nat) (f : TokenAnt → TokenAnt) :
    (l.setAnt a f).token.ants.length = l.token.ants.length := List.length_modify ..

@[simp] theorem Live.setAnt_cfg (l : Live) (a : Nat) (f : TokenAnt → TokenAnt) : (l.setAnt a f).token.cfg = l.token.cfg := rfl

theorem Live.ant_of_length_le (h : l.token.ants.length ≤ a) : l.ant a = TokenAnt.init := List.getD_eq_default _ _ h

/-- An antenna that is not as at power-on is one of the antennas. -/
theorem Live.ant_lt {β : Type} (g : TokenAnt → β) (h : g (l.ant a) ≠ g TokenAnt.init) : a < l.token.ants.length :=
  Nat.lt_of_not_le fun hl => h (congrArg g (Live.ant_of_length_le hl))

/-- What an update does not touch in any antenna reads as before. -/
theorem Live.setAnt_same {β : Type} (g : TokenAnt → β) {f : TokenAnt → TokenAnt} (h : ∀ x, g (f x) = g x) (l : Live)
    (a k : Nat) : g ((l.setAnt a f).ant k) = g (l.ant k) := by
  by_cases hl : a < l.token.ants.length
  · by_cases hk : k = a
    · rw [hk, Live.setAnt_ant f hl, h]
    · exact congrArg g (upd_getD_ne f TokenAnt.init hk)
  · rw [Live.ant, Live.setAnt, Live.setToken_token]
    dsimp only
    rw [List.modify_eq_self (by omega), Live.ant]

@[simp] theorem Live.tokenEvent_token (l : Live) (id sev c a r : Nat) (bs : List Byte) :
    (l.tokenEvent id sev c a r bs).token = l.token := Live.raise_token ..

@[simp] theorem Live.tokenEvent_pwr (l : Live) (id sev c a r : Nat) (bs : List Byte) :
    (l.tokenEvent id sev c a r bs).pwr = l.pwr := Live.raise_pwr ..

@[simp] theorem Live.tokenEvent_ant (l : Live) (id sev c a r : Nat) (bs : List Byte) (k : Nat) :
    (l.tokenEvent id sev c a r bs).ant k = l.ant k := Live.ant_congr (congrArg TokenState.ants (Live.tokenEvent_token ..)) k

@[simp] theorem Live.endEnrol_token (l : Live) (x : TokenAttempt) (st : Status) : (l.endEnrol x st).token = l.token := by
  unfold Live.endEnrol
  split
  · rfl
  · exact Live.complete_token ..

/-- What an antenna's attempt has become, where it has one. -/
theorem Live.setAttempt_some {x : Option TokenAttempt} {y : TokenAttempt} (h : ((l.setAttempt a x).ant a).attempt = some y) :
    x = some y := by
  have hl : a < (l.setAttempt a x).token.ants.length := Live.ant_lt TokenAnt.attempt (by rw [h]; exact Option.some_ne_none y)
  rw [Live.setAttempt, Live.setAnt_length] at hl
  rw [Live.setAttempt, Live.setAnt_ant _ hl] at h
  exact h

theorem Live.setAttempt_none (l : Live) (a : Nat) : ((l.setAttempt a none).ant a).attempt = none :=
  Option.eq_none_iff_forall_ne_some.mpr fun _ h => Option.some_ne_none _ (Live.setAttempt_some h).symm

theorem Live.setAttempt_grants (l : Live) (a k : Nat) (x : Option TokenAttempt) :
    ((l.setAttempt a x).ant k).grants = (l.ant k).grants :=
  Live.setAnt_same TokenAnt.grants (f := fun t => { t with attempt := x }) (fun _ => rfl) l a k

/-! ### Search -/

/-- What the reflected pulse changes: the antenna's runs and its fault. -/
theorem Live.antennaCheck_ant (l : Live) (v : Nat) (h : a < l.token.ants.length) : ∃ b g f,
    (l.antennaCheck a v).ant a = { l.ant a with badRun := b, goodRun := g, faulted := f } ∧
    (30 < v → 1 ≤ (l.ant a).badRun → f = true) := by
  unfold Live.antennaCheck
  extract_lets bad x b g f l1
  have h1 : l1.ant a = { l.ant a with badRun := b, goodRun := g, faulted := f } := Live.setAnt_ant _ h
  refine ⟨b, g, f, ?_, fun hv hr => ?_⟩
  · split
    · exact h1
    · rw [Live.tokenEvent_ant, h1]
  · have hbad : bad = true := decide_eq_true hv
    unfold f b g
    rw [hbad]
    cases (x.faulted : Bool)
    · exact decide_eq_true (Nat.succ_le_succ hr)
    · rfl

@[simp] theorem Live.antennaCheck_length (l : Live) (a v : Nat) :
    (l.antennaCheck a v).token.ants.length = l.token.ants.length := by
  unfold Live.antennaCheck
  extract_lets bad x b g f l1
  split
  · exact Live.setAnt_length ..
  · rw [Live.tokenEvent_token]
    exact Live.setAnt_length ..

@[simp] theorem Live.antennaCheck_pwr (l : Live) (a v : Nat) : (l.antennaCheck a v).pwr = l.pwr := by
  unfold Live.antennaCheck
  extract_lets bad x b g f l1
  split
  · rfl
  · exact Live.tokenEvent_pwr ..

/-- A search that is due on an antenna without an attempt. -/
theorem tokenSearch_due {v : Nat} {hit : Bool} {t : Live} (ht : tokenSearch a hit v l = t) (h1 : a ≤ 1) (hd : l.searchDue a = true) (hn : (l.ant a).attempt = none)
    (h0 : a = 1 → (l.ant 0).attempt = none) (ha : a < l.token.ants.length) :
    (t.ant a).asked = false ∧ (t.ant a).searched = l.mt.now ∧ (t.ant a).grants = (l.ant a).grants ∧
    ((t.ant a).attempt.isSome = true ↔ hit = true ∧ l.pwr.mode = .run) ∧
    (30 < v → 1 ≤ (l.ant a).badRun → (t.ant a).faulted = true) := by
  have hheld : (decide (a = 1) && (l.ant 0).attempt.isSome) = false := by
    rw [Bool.and_eq_false_iff]
    by_cases h : a = 1
    · exact .inr (by rw [h0 h]; rfl)
    · exact .inl (decide_eq_false h)
  unfold tokenSearch at ht
  extract_lets held l1 l2 at ht
  have hgo : ¬ (decide (1 < a) || !l.searchDue a || (l.ant a).attempt.isSome || held) = true := by
    rw [hd, hn, show held = false from hheld, decide_eq_false (by omega)]
    exact Bool.false_ne_true
  rw [if_neg hgo] at ht
  have hl1 : (l.setAnt a fun x => { x with asked := false, searched := l.mt.now }).ant a =
      { l.ant a with asked := false, searched := l.mt.now } := Live.setAnt_ant _ ha
  obtain ⟨b, g, f, h2, hf⟩ := Live.antennaCheck_ant (l.setAnt a fun x => { x with asked := false, searched := l.mt.now }) v
    ((Live.setAnt_length ..).symm ▸ ha)
  have hl2 : l1.ant a = { l.ant a with asked := false, searched := l.mt.now, badRun := b, goodRun := g, faulted := f } :=
    h2.trans (by rw [hl1])
  have hf2 : 30 < v → 1 ≤ (l.ant a).badRun → f = true := fun hv hr => hf hv (by rw [hl1]; exact hr)
  have hlen : a < l1.token.ants.length := by
    unfold l1
    rw [Live.antennaCheck_length, Live.setAnt_length]
    exact ha
  have hmode : l1.pwr = l.pwr := (Live.antennaCheck_pwr ..).trans (Live.setAnt_pwr ..)
  clear_value l1
  have hl3 : l2.ant a = l1.ant a := Live.tokenEvent_ant ..
  have hlen2 : a < l2.token.ants.length := by
    unfold l2
    rw [Live.tokenEvent_token]
    exact hlen
  have hmode2 : l2.pwr = l.pwr := (Live.tokenEvent_pwr ..).trans hmode
  clear_value l2
  cases hit
  · rw [if_pos Bool.not_false] at ht
    rw [← ht, hl2]
    exact ⟨rfl, rfl, rfl, by simp [hn], hf2⟩
  · rw [if_neg (by decide), hmode2] at ht
    by_cases hr : l.pwr.mode = .run
    · rw [if_pos (by rw [hr]; rfl)] at ht
      rw [← ht, Live.startAttempt, Live.setAnt_ant _ hlen2, hl3, hl2]
      exact ⟨rfl, rfl, rfl, by simp [hr], hf2⟩
    · rw [if_neg (mt beq_iff_eq.mp hr)] at ht
      rw [← ht, hl3, hl2]
      exact ⟨rfl, rfl, rfl, by simp [hn, hr], hf2⟩

end

/-! ### Rounds -/

/-- Drawing from the DRBG changes no antenna and no configuration, and the DRBG runs as it ran. -/
theorem Live.random_frame (l : Live) (n : Nat) : (l.random n).2.token = l.token ∧ (l.random n).2.mt = l.mt ∧
    (l.random n).2.key.drbgRunning = l.key.drbgRunning := by
  unfold Live.random
  split <;> exact ⟨rfl, rfl, rfl⟩

theorem Live.random_stopped {l : Live} (h : l.key.drbgRunning = false) (n : Nat) : l.random n = (none, l) := by
  rw [Live.random, h]
  rfl

theorem Live.random_running {l : Live} (h : l.key.drbgRunning = true) (n : Nat) : ∃ bs, (l.random n).1 = some bs := by
  rw [Live.random, h]
  exact ⟨_, rfl⟩

theorem Live.drawRound_frame (l : Live) (a round : Nat) (listed : List Nat) : let t := (l.drawRound a round listed).2
    t.token.ants = l.token.ants ∧ t.token.cfg = l.token.cfg := by
  intro t
  have h1 := l.random_frame 16
  unfold t Live.drawRound
  rcases hx : l.random 16 with ⟨_ | c, l1⟩
  · rw [hx] at h1
    exact ⟨congrArg TokenState.ants h1.1, congrArg TokenState.cfg h1.1⟩
  · rw [hx] at h1
    have h2 := l1.random_frame (2 * listed.length)
    dsimp only
    rcases hy : l1.random (2 * listed.length) with ⟨_ | r, l2⟩
    all_goals
      rw [hy] at h2
      have h := h2.1.trans h1.1
      exact ⟨(congrArg TokenState.ants h :), (congrArg TokenState.cfg h :)⟩

theorem Live.drawRound_stopped {l : Live} (h : l.key.drbgRunning = false) (a round : Nat) (listed : List Nat) :
    (l.drawRound a round listed).1 = none := by
  rw [Live.drawRound, Live.random_stopped h]

theorem Live.drawRound_running {l : Live} (h : l.key.drbgRunning = true) (a round : Nat) (listed : List Nat) :
    ∃ c, (l.drawRound a round listed).1 = some c := by
  obtain ⟨c, hc⟩ := Live.random_running h 16
  have h1 := (l.random_frame 16).2.2.trans h
  rw [Live.drawRound]
  generalize l.random 16 = x at hc h1
  obtain ⟨x, l1⟩ := x
  obtain rfl : x = some c := hc
  obtain ⟨r, hr⟩ := Live.random_running h1 (2 * listed.length)
  dsimp only at hr ⊢
  generalize l1.random (2 * listed.length) = y at hr
  obtain ⟨y, l2⟩ := y
  obtain rfl : y = some r := hr
  exact ⟨_, rfl⟩

/-- What could not be judged is only reported. -/
theorem State.unjudged_frame (s : State) (res : List (Nat × Nat × SlotOutcome)) :
    (s.unjudged res).kept = s.kept ∧ (s.unjudged res).live.token = s.live.token := by
  unfold State.unjudged
  extract_lets keyless
  clear_value keyless
  split
  · unfold State.serviceRefused
    dsimp only
    split
    · exact ⟨rfl, rfl⟩
    · split
      · exact ⟨rfl, Live.raise_token ..⟩
      · split
        · exact ⟨rfl, Live.raise_token ..⟩
        · exact ⟨rfl, rfl⟩
  · exact ⟨rfl, rfl⟩

/-- A VALID slot changes neither the number of an attempt's rounds nor the time of the next. -/
theorem Live.attemptValid_time (l : Live) (a r tstat cm : Nat) (x : TokenAttempt) :
    (l.attemptValid a r tstat cm x).1.rounds = x.rounds ∧ (l.attemptValid a r tstat cm x).1.nextAt = x.nextAt := by
  unfold Live.attemptValid
  extract_lets old rest put stationary held
  split
  · exact ⟨rfl, rfl⟩
  · split
    · exact ⟨rfl, rfl⟩
    · split
      · exact ⟨rfl, rfl⟩
      · split
        · exact ⟨rfl, rfl⟩
        · split <;> exact ⟨rfl, rfl⟩

theorem Live.enrolValid_time (l : Live) (a tstat cm : Nat) (x : TokenAttempt) :
    (l.enrolValid a tstat cm x).1.rounds = x.rounds ∧ (l.enrolValid a tstat cm x).1.nextAt = x.nextAt := by
  unfold Live.enrolValid
  split
  · exact ⟨rfl, rfl⟩
  · extract_lets old rest pair
    split <;> exact ⟨rfl, rfl⟩

theorem Live.roundStands_time (l : Live) (a : Nat) (x : TokenAttempt) (res : List (Nat × Nat × SlotOutcome)) :
    (l.roundStands a x res).1.rounds = x.rounds ∧ (l.roundStands a x res).1.nextAt = x.nextAt := by
  unfold Live.roundStands
  refine List.foldlRecOn (motive := fun p : TokenAttempt × Live => p.1.rounds = x.rounds ∧ p.1.nextAt = x.nextAt) _ _ ⟨rfl, rfl⟩
    fun p hp y _ => ?_
  split
  · split
    · exact ⟨(Live.enrolValid_time ..).1.trans hp.1, (Live.enrolValid_time ..).2.trans hp.2⟩
    · exact ⟨(Live.attemptValid_time ..).1.trans hp.1, (Live.attemptValid_time ..).2.trans hp.2⟩
  · exact hp

/-- An attempt that goes on after a round is the one that had it. -/
theorem Live.afterRound_some {l : Live} {a : Nat} {x y : TokenAttempt} (h : ((l.afterRound a x).ant a).attempt = some y) :
    x = y := by
  unfold Live.afterRound at h
  dsimp only at h
  split at h
  · exact nomatch Live.setAttempt_some h
  · split at h
    · exact Option.some.inj (Live.setAttempt_some h)
    · exact nomatch Live.setAttempt_some h

theorem Live.afterRound_grants (l : Live) (a : Nat) (x : TokenAttempt) (k : Nat) :
    ((l.afterRound a x).ant k).grants = (l.ant k).grants := by
  unfold Live.afterRound
  dsimp only
  split
  · exact Live.setAttempt_grants ..
  · split
    · exact Live.setAttempt_grants ..
    · refine (Live.setAttempt_grants ..).trans (congrArg TokenAnt.grants (Live.ant_congr (congrArg TokenState.ants ?_) k))
      rw [Live.endEnrol_token]
      exact List.foldlRecOn (motive := fun l' : Live => l'.token = l.token) _ _ rfl
        fun l' h y _ => (Live.tokenEvent_token ..).trans h

theorem Live.afterRound_max {l : Live} {a : Nat} {x : TokenAttempt} (h : l.token.cfg.roundMax ≤ x.rounds) :
    ((l.afterRound a x).ant a).attempt = none := by
  unfold Live.afterRound
  dsimp only
  split
  · exact Live.setAttempt_none ..
  · rw [if_neg (by omega)]
    exact Live.setAttempt_none ..

/-- A round whose time has come. -/
theorem tokenRound_due {s : State} {a : Nat} {x : TokenAttempt} (hx : (s.live.ant a).attempt = some x)
    (ht : x.nextAt ≤ s.live.mt.now) (hc : s.live.commandLayer = true) (rs : List SlotResp) : ∀ t, tokenRound a rs s = t →
    t.kept = s.kept ∧
    (∀ y, (t.live.ant a).attempt = some y → y.rounds = x.rounds + 1 ∧ y.nextAt = x.nextAt + ms s.live.token.cfg.gapMs) ∧
    (rs = [] → (∀ k, (t.live.ant k).grants = (s.live.ant k).grants) ∧
      (s.live.token.cfg.roundMax ≤ x.rounds + 1 → (t.live.ant a).attempt = none)) := by
  intro t h
  unfold tokenRound at h
  rw [hx] at h
  dsimp -zeta only at h
  rw [if_neg (by rw [hc, decide_eq_false (by omega)]; exact Bool.false_ne_true)] at h
  extract_lets d s1 round res x1 ok at h
  obtain ⟨hants, hcfg⟩ : d.2.token.ants = s.live.token.ants ∧ d.2.token.cfg = s.live.token.cfg := Live.drawRound_frame ..
  clear_value d ok
  have hres : rs = [] → res = [] := by
    rintro rfl
    unfold res
    split <;> rfl
  have hx1 : x1.rounds = x.rounds + 1 ∧ x1.nextAt = x.nextAt + ms s.live.token.cfg.gapMs :=
    ⟨rfl, congrArg (fun c : TokenCfg => x.nextAt + ms c.gapMs) hcfg⟩
  obtain ⟨hk, hu⟩ := s1.unjudged_frame res
  have hants1 : (s1.unjudged res).live.token.ants = s.live.token.ants := (congrArg TokenState.ants hu).trans hants
  have hcfg1 : (s1.unjudged res).live.token.cfg = s.live.token.cfg := (congrArg TokenState.cfg hu).trans hcfg
  have hk1 : (s1.unjudged res).kept = s.kept := hk
  generalize s1.unjudged res = s2 at h hants1 hcfg1 hk1
  clear_value res x1
  subst h
  refine ⟨hk1, fun y hy => ?_, fun hr => ?_⟩
  · rw [State.onLive] at hy
    dsimp -zeta only at hy
    extract_lets l1 l2 p at hy
    split at hy
    · extract_lets x2 at hy
      split at hy
      · rw [← Live.afterRound_some hy]
        exact hx1
      · exact nomatch Live.setAttempt_some hy
    · obtain ⟨hrounds, hnext⟩ := l2.roundStands_time a x1 res
      rw [← Live.afterRound_some hy]
      exact ⟨hrounds.trans hx1.1, hnext.trans hx1.2⟩
  · obtain rfl := hres hr
    have hants2 : ∀ b : Bool, (if b then s2.live.setToken fun t => { t with wakeOk := true } else s2.live).token.ants =
        s.live.token.ants ∧ (if b then s2.live.setToken fun t => { t with wakeOk := true } else s2.live).token.cfg =
        s.live.token.cfg := fun b => by cases b <;> exact ⟨hants1, hcfg1⟩
    obtain ⟨hants2, hcfg2⟩ := hants2 (ok && s2.live.pwr.mode == .wakeCheck)
    refine ⟨fun k => (Live.afterRound_grants ..).trans (congrArg TokenAnt.grants (Live.ant_congr hants2 k)), fun hm =>
      Live.afterRound_max ?_⟩
    refine (congrArg TokenCfg.roundMax hcfg2).trans_le (hm.trans_eq ?_)
    exact hx1.1.symm

/-! ### Tracking -/

@[simp] theorem Live.setRec_ants (l : Live) (r : Nat) (x : Option TokenRec) : (l.setRec r x).token.ants = l.token.ants := rfl

/-- What a response tells of its token changes no antenna. -/
theorem Live.tokenHeard_ants (l : Live) (a r tstat cm : Nat) : (l.tokenHeard a r tstat cm).token.ants = l.token.ants := by
  unfold Live.tokenHeard
  split
  · rfl
  · extract_lets low still t' l1 l2
    have h2 : l2.token.ants = l.token.ants := by
      unfold l2
      split
      · rw [Live.tokenEvent_token]
        rfl
      · rfl
    clear_value l2
    split
    · rw [Live.tokenEvent_token]
      exact h2
    · exact h2

theorem Live.trackGrant_ants (l : Live) (a : Nat) (res : List (Nat × Nat × SlotOutcome)) (g : TokenGrant) :
    (l.trackGrant a res g).2.token.ants = l.token.ants := by
  unfold Live.trackGrant
  extract_lets hit l1
  clear_value hit
  have h1 : l1.token.ants = l.token.ants := by
    obtain _ | ⟨tstat, cm⟩ := hit
    · rfl
    · exact Live.tokenHeard_ants ..
  clear_value l1
  split
  · extract_lets keep
    split
    · exact h1
    · rw [Live.tokenEvent_token]
      exact h1
  · split
    · exact h1
    · rw [Live.tokenEvent_token]
      exact h1

/-- A granted token that no slot names: its first miss is counted, its second ends the grant. -/
theorem Live.trackGrant_missed (l : Live) (a : Nat) (g : TokenGrant) :
    (l.trackGrant a [] g).1.toList = ([g].filter fun g => g.misses == 0).map fun g => { g with misses := 1 } := by
  unfold Live.trackGrant
  dsimp only [List.findSome?_nil, Option.bind_none]
  by_cases h : g.misses = 0
  · rw [if_pos h, List.filter_singleton, h]
    rfl
  · rw [if_neg h, List.filter_singleton, beq_eq_false_iff_ne.mpr h]
    rfl

/-- The tokens of a tracking round one after the other: the grants that go on, and the state. -/
def Live.trackGrants (l : Live) (a : Nat) (res : List (Nat × Nat × SlotOutcome)) (gs : List TokenGrant) : List TokenGrant × Live :=
  gs.foldl (fun p g => (p.1 ++ (p.2.trackGrant a res g).1.toList, (p.2.trackGrant a res g).2)) ([], l)

theorem Live.trackGrants_ants (l : Live) (a : Nat) (res : List (Nat × Nat × SlotOutcome)) (gs : List TokenGrant) :
    (l.trackGrants a res gs).2.token.ants = l.token.ants :=
  List.foldlRecOn (motive := fun p : List TokenGrant × Live => p.2.token.ants = l.token.ants) gs _ rfl
    fun p h g _ => (p.2.trackGrant_ants a res g).trans h

theorem Live.trackGrants_missed (l : Live) (a : Nat) (gs : List TokenGrant) :
    (l.trackGrants a [] gs).1 = (gs.filter fun g => g.misses == 0).map fun g => { g with misses := 1 } := by
  have hall : ∀ (gs : List TokenGrant) (p : List TokenGrant × Live),
      (gs.foldl (fun p g => (p.1 ++ (p.2.trackGrant a [] g).1.toList, (p.2.trackGrant a [] g).2)) p).1 =
        p.1 ++ (gs.filter fun g => g.misses == 0).map fun g => { g with misses := 1 } := by
    intro gs
    induction gs with
    | nil => exact fun p => (List.append_nil _).symm
    | cons g gs ih =>
      intro p
      rw [List.foldl_cons, ih, Live.trackGrant_missed, List.append_assoc, ← List.map_append, ← List.filter_append]
      rfl
  exact hall gs ([], l)

/-- A slot of a round changes only what an antenna waits for. -/
theorem Live.noteSlot_same {β : Type} (g : TokenAnt → β) (h : ∀ x w, g { x with waits := w } = g x) (l : Live) (a : Nat)
    (x : Nat × Nat × SlotOutcome) (k : Nat) : g ((l.noteSlot a x).ant k) = g (l.ant k) := by
  unfold Live.noteSlot
  split
  · rw [Live.tokenEvent_ant]
  · exact Live.setAnt_same g (fun _ => h _ _) ..
  · rfl

theorem Live.noteSlot_length (l : Live) (a : Nat) (x : Nat × Nat × SlotOutcome) :
    (l.noteSlot a x).token.ants.length = l.token.ants.length := by
  unfold Live.noteSlot
  split
  · rw [Live.tokenEvent_token]
  · exact Live.setAnt_length ..
  · rfl

/-- A tracking round that is due. -/
theorem trackingRound_due {s : State} {a : Nat} (hg : (s.live.ant a).grants ≠ []) (ht : (s.live.ant a).trackAt ≤ s.live.mt.now)
    (hm : s.live.pwr.mode = .run) (hc : s.live.commandLayer = true) (rs : List SlotResp) : ∀ t, trackingRound a rs s = t →
    t.kept = s.kept ∧ (t.live.ant a).trackAt = (s.live.ant a).trackAt + ms s.live.token.cfg.trackMs ∧
    (s.live.key.drbgRunning = false → (t.live.ant a).grants = (s.live.ant a).grants) ∧
    (s.live.key.drbgRunning = true → rs = [] → (t.live.ant a).grants =
      ((s.live.ant a).grants.filter fun g => g.misses == 0).map fun g => { g with misses := 1 }) := by
  intro t h
  have ha : a < s.live.token.ants.length := Live.ant_lt TokenAnt.grants hg
  unfold trackingRound at h
  extract_lets x d s1 at h
  rw [if_neg (by rw [hc, hm, decide_eq_false ht.not_gt, List.isEmpty_eq_false_iff.mpr hg]; exact Bool.false_ne_true)] at h
  obtain ⟨hants, hcfg⟩ : d.2.token.ants = s.live.token.ants ∧ d.2.token.cfg = s.live.token.cfg := Live.drawRound_frame ..
  have hs1 : s1.live.ant a = { s.live.ant a with trackAt := (s.live.ant a).trackAt + ms s.live.token.cfg.trackMs } := by
    unfold s1
    dsimp only
    rw [Live.setAnt_ant _ (hants.symm ▸ ha), Live.ant_congr hants, hcfg]
  have hlen : s1.live.token.ants.length = s.live.token.ants.length :=
    (Live.setAnt_length ..).trans (congrArg List.length hants)
  have hk : s1.kept = s.kept := rfl
  clear_value s1
  split at h
  case h_1 hd =>
    subst h
    rw [hs1]
    refine ⟨hk, rfl, fun _ => rfl, fun hr => ?_⟩
    obtain ⟨c, hc⟩ := Live.drawRound_running hr a 0 (x.grants.map (·.rec_))
    exact nomatch hd.symm.trans hc
  case h_2 c map hd =>
    have hrun : s.live.key.drbgRunning ≠ false := fun hr => nomatch hd.symm.trans (Live.drawRound_stopped hr ..)
    clear_value d
    extract_lets res at h
    have hres : rs = [] → res = [] := by rintro rfl; rfl
    obtain ⟨hk2, hu⟩ := s1.unjudged_frame res
    have hant : (s1.unjudged res).live.ant a = s1.live.ant a := Live.ant_congr (congrArg TokenState.ants hu) a
    have hl : (s1.unjudged res).live.token.ants.length = s.live.token.ants.length :=
      (congrArg (fun t : TokenState => t.ants.length) hu).trans hlen
    generalize s1.unjudged res = s2 at h hk2 hant hl
    clear_value res
    subst h
    rw [State.onLive]
    dsimp -zeta only
    extract_lets l1 p
    have hlen1 : a < l1.token.ants.length := by
      refine ha.trans_eq (hl.symm.trans (Eq.symm ?_))
      exact List.foldlRecOn (motive := fun l' : Live => l'.token.ants.length = s2.live.token.ants.length) _ _ rfl
        fun l' h x _ => (Live.noteSlot_length ..).trans h
    have htrack : (l1.ant a).trackAt = (s.live.ant a).trackAt + ms s.live.token.cfg.trackMs := by
      refine Eq.trans ?_ ((congrArg TokenAnt.trackAt (hant.trans hs1)).trans rfl)
      exact List.foldlRecOn (motive := fun l' : Live => (l'.ant a).trackAt = (s2.live.ant a).trackAt) _ _ rfl
        fun l' h x _ => (Live.noteSlot_same TokenAnt.trackAt (fun _ _ => rfl) ..).trans h
    refine ⟨hk2.trans hk, ?_, fun hr => absurd hr hrun, fun _ hr => ?_⟩
    · split
      · exact htrack
      · refine (Live.setAnt_same TokenAnt.trackAt (f := fun t => { t with grants := p.1 }) (fun _ => rfl) ..).trans ?_
        exact (congrArg TokenAnt.trackAt (Live.ant_congr (l1.trackGrants_ants a res x.grants) a)).trans htrack
    · obtain rfl := hres hr
      have hlen2 : a < p.2.token.ants.length :=
        hlen1.trans_eq (congrArg List.length (l1.trackGrants_ants a [] x.grants)).symm
      exact (congrArg TokenAnt.grants (Live.setAnt_ant _ hlen2)).trans (l1.trackGrants_missed a x.grants)

/-! ### Enrolment, revocation and the lists -/

/-- An enrolment joins the attempt that runs on its antenna, or starts one. -/
def Live.joinEnrol (l : Live) (a : Nat) (j : EnrolJob) : Live :=
  match (l.ant a).attempt with
  | some x => l.setAttempt a (some { x with enrol := some j, rounds := 0, contended := 0 })
  | none => l.startAttempt a (some j)

theorem Live.joinEnrol_ant {l : Live} {a : Nat} (ha : a < l.token.ants.length) (j : EnrolJob) :
    ∃ x, ((l.joinEnrol a j).ant a).attempt = some x ∧ x.rounds = 0 ∧ x.enrol = some j := by
  unfold Live.joinEnrol
  split
  · exact ⟨_, congrArg TokenAnt.attempt (Live.setAnt_ant _ ha), rfl, rfl⟩
  · exact ⟨_, congrArg TokenAnt.attempt (Live.setAnt_ant _ ha), rfl, rfl⟩

theorem Live.setRec_none (l : Live) (r : Nat) : (l.setRec r none).tokenRec r = none := by
  rw [Live.tokenRec, Live.setRec, Live.setToken_token]
  dsimp only
  rw [List.getD_eq_getElem?_getD, List.getElem?_set_self']
  cases l.token.recs[r]? <;> rfl

theorem Live.persist_token (l : Live) (m : MbRef) (opc obj : Nat) (p : List Byte) : (l.persist m opc obj p).2.token = l.token :=
  rfl

/-- A token that is revoked has no record and no grant left. -/
theorem tokenRevoke_known {m : MbRef} {b : Mailbox} {l : Live} {r : Nat} (h : l.recOf (rd b.payload 0 4) = some r) :
    ∀ t, tokenRevoke m b l = t → t.2.tokenRec r = none ∧ ∀ x ∈ t.2.token.ants, ∀ g ∈ x.grants, g.rec_ ≠ r := by
  intro t ht
  unfold tokenRevoke at ht
  extract_lets id at ht
  rw [show l.recOf id = some r from h] at ht
  dsimp -zeta only at ht
  extract_lets cm l1 l2 at ht
  have hpersist : t.2.token = l2.token := by
    rw [← ht]
    rw [Live.persist_token, Live.tokenEvent_token]
  rw [Live.tokenRec, hpersist]
  refine ⟨l1.setRec_none r, fun x hx g hg => ?_⟩
  obtain ⟨y, -, rfl⟩ := List.mem_map.mp hx
  exact bne_iff_ne.mp (List.mem_filter.mp hg).2

theorem Live.listRecord_length {l : Live} {r : Nat} (h : (l.tokenRec r).isSome = true) : (l.listRecord r).length = 16 := by
  unfold Live.listRecord
  obtain ⟨t, ht⟩ := Option.isSome_iff_exists.mp h
  rw [ht]
  simp

/-- The records that TOKEN.LIST shows from one on. -/
def Live.shownRecs (l : Live) (first : Nat) : List Nat :=
  (((List.range 32).filter fun r => (l.tokenRec r).isSome).filter fun r => decide (first ≤ r)).take 30

theorem Live.shownRecs_enrolled {l : Live} {first r : Nat} (h : r ∈ l.shownRecs first) : (l.tokenRec r).isSome = true :=
  (List.mem_filter.mp (List.mem_filter.mp (List.mem_of_mem_take h)).1).2

/-- What TOKEN.STATUS gives of an antenna. -/
def Live.antRecord (l : Live) (a : Nat) : List Byte :=
  le 1 (l.antState a) ++ (le 1 (b2n (l.ant a).faulted) ++ (le 1 (l.ant a).grants.length ++
    (le 1 (((l.ant a).attempt.map (·.contended)).getD 0) ++ le 4 (l.ant a).attempts)))

theorem Live.antRecord_length (l : Live) (a : Nat) : (l.antRecord a).length = 8 := by
  simp [Live.antRecord]

theorem Live.antState_lt (l : Live) (a : Nat) : l.antState a < 256 := by
  unfold Live.antState
  dsimp only
  split
  · decide
  · split
    · decide
    · split
      · decide
      · cases bit l.token.cfg.antEn a <;> decide

end Sys2Proof.Machine

open Sys2Proof Sys2Proof.Machine

/-- Settles O46: each row by what its step makes of the antenna it concerns. -/
theorem tokens : Obligations.Tokens := by
  refine ⟨fun a v hit s ha h1 hd hn h0 => ?_, fun a x rs s hx ht hc => ?_, fun a rs s hg ht hm hc => ?_,
    fun a slot w s hp hw => ?_, fun m b s h => ?_, fun m b s h => ?_, fun m b s h => ?_, fun m b s h => ?_, fun m b s h h0 h1 => ?_,
    fun m b s h h0 => ?_, fun m b s h => ?_⟩
  · exact ⟨s.onLive (tokenSearch a hit v), rfl, rfl, tokenSearch_due rfl h1 hd hn h0 ha⟩
  · exact ⟨tokenRound a rs s, rfl, tokenRound_due hx ht hc rs _ rfl⟩
  · exact ⟨trackingRound a rs s, rfl, trackingRound_due hg ht hm hc rs _ rfl⟩
  · refine ⟨{ s with live := verifyTimeout a slot s.live }, State.onLogic_eq hp rfl, rfl, ?_⟩
    have ha : a < s.live.token.ants.length := by
      refine Live.ant_lt TokenAnt.waits fun hn => ?_
      rw [hn] at hw
      exact nomatch hw
    unfold verifyTimeout
    rw [hw]
    dsimp only
    rw [Live.tokenEvent_ant, Live.setAnt_ant _ ha]
  · intro p k h0 h1 h2 h3 h4 h5 h6 h12 h14 h16 h18 h20 hr
    have hc : ([(0, decide (byteAt p 0 < 4)), (1, decide (byteAt p 1 ≤ 3)), (2, decide (byteAt p 2 ≤ 3)), (3, inRange 1 3 (byteAt p 3)),
      (4, decide (byteAt p 4 ≤ 63)), (5, inRange 2 16 (byteAt p 5)), (6, inRange 10 200 (rd p 6 2)),
      (12, rd p 12 2 == 0 || inRange 100 10000 (rd p 12 2)), (14, inRange 250 8000 (rd p 14 2)),
      (16, rd p 16 2 == 0 || decide (rd p 16 2 < rd p 12 2)), (18, inRange 100 5000 (rd p 18 2)),
      (20, inRange 10 100 (byteAt p 20)), resv b 21 3].all (·.2)) = true := by
      have h12' : (rd p 12 2 == 0 || inRange 100 10000 (rd p 12 2)) = true := by simpa using h12
      have h16' : (rd p 16 2 == 0 || decide (rd p 16 2 < rd p 12 2)) = true := by simpa using h16
      simp only [List.all_cons, List.all_nil, h3, h5, h6, h12', h14, h16', h18, h20, hr, decide_eq_true h0, decide_eq_true h1,
        decide_eq_true h2, decide_eq_true h4, Bool.and_true]
    refine ⟨fun hf ha => congrArg Host.Outcome.next (State.commandK_answer h ?_), fun hk => congrArg Host.Outcome.next
      ((State.commandK_endsK h _).trans ?_)⟩
    · unfold tokenConfig
      dsimp only
      refine (checked_pass (α := Reply × State) hc _ _).trans (if_pos ?_)
      rw [Bool.and_eq_true]
      exact ⟨hf, bne_iff_ne.mpr ha⟩
    · have hx : tokenConfig m b s = ((s.live.applyTokenCfg p).endConfig m (bit (byteAt p 0) 0) 0x5001 0 p |>.1,
          { s with live := ((s.live.applyTokenCfg p).endConfig m (bit (byteAt p 0) 0) 0x5001 0 p).2 }) := by
        unfold tokenConfig
        dsimp only
        refine (checked_pass (α := Reply × State) hc _ _).trans (if_neg ?_)
        rw [Bool.and_eq_true, bne_iff_ne]
        rintro ⟨hf, ha⟩
        rcases hk with hk | hk
        · exact nomatch hf.symm.trans hk
        · exact ha hk
      rw [hx]
      rfl
  · intro p h0 h1 h2 hz
    refine ⟨congrArg Host.Outcome.next ((State.command_ends h _).trans (congrArg (s.ends m) ?_)), fun ha z hz => ?_⟩
    · unfold tokenZones
      dsimp only
      refine checked_pass ?_ _ _
      rw [List.all_append, List.all_flatMap, decide_eq_true h0, decide_eq_true h1, decide_eq_true h2]
      refine List.all_eq_true.mpr fun z hm => ?_
      obtain ⟨hn, hf⟩ := hz z (List.mem_range.mp hm)
      rw [decide_eq_true hn, decide_eq_true hf, decide_eq_true (hn.trans hf)]
      rfl
    · rw [Live.applyTokenZones, Live.setAnt_ant _ ha]
      dsimp only
      rw [List.getD_eq_getElem?_getD, List.getElem?_map, List.getElem?_range hz]
      rfl
  · intro id a busy ha hr hm
    have hc : ([(6, decide (byteAt b.payload 6 ≤ 1)), resv b 7 5].all (·.2)) = true := by
      rw [List.all_cons, List.all_cons, hr, decide_eq_true ha]
      rfl
    have hd : ¬ s.live.draining = true := mt beq_iff_eq.mp hm
    refine ⟨fun hk => congrArg Host.Outcome.next (State.commandK_answer h ?_), fun hk hb => congrArg Host.Outcome.next
      (State.commandK_answer h ?_), fun hk hf hb => ⟨fun hl => congrArg Host.Outcome.next (State.commandK_answer h ?_),
      fun hl hlen => ?_⟩⟩
    · unfold tokenEnrol
      dsimp only
      exact (checked_pass (α := Reply × State) hc _ _).trans ((if_neg hd).trans (if_pos hk))
    all_goals
      have hk' : ¬ (s.live.recOf (rd b.payload 0 4)).isSome = true := by
        rw [show s.live.recOf (rd b.payload 0 4) = none from hk]
        exact Bool.false_ne_true
    · unfold tokenEnrol
      dsimp only
      exact (checked_pass (α := Reply × State) hc _ _).trans ((if_neg hd).trans ((if_neg hk').trans
        (if_pos ((Bool.or_eq_true ..).mpr hb))))
    all_goals
      have hf' : ¬ (s.live.token.recs.all Option.isSome || busy) = true := by
        rw [hf, hb]
        exact Bool.false_ne_true
    · unfold tokenEnrol
      dsimp only
      exact (checked_pass (α := Reply × State) hc _ _).trans ((if_neg hd).trans ((if_neg hk').trans ((if_neg hf').trans
        (if_pos (bne_iff_ne.mpr hl)))))
    · let job : EnrolJob := { owner := m, id := id, rights := [byteAt b.payload 4, byteAt b.payload 5] }
      have hx : tokenEnrol m b s = (.wait, { s with live := s.live.joinEnrol a job }) := by
        unfold tokenEnrol
        dsimp only
        exact (checked_pass (α := Reply × State) hc _ _).trans ((if_neg hd).trans ((if_neg hk').trans ((if_neg hf').trans
          (if_neg (by rw [hl]; exact Bool.false_ne_true)))))
      obtain ⟨x, hx1, hx2, hx3⟩ := Live.joinEnrol_ant hlen job
      refine ⟨s.live.joinEnrol a job, x, congrArg Host.Outcome.next ((State.commandK_endsK h _).trans ?_), hx1, hx2, hx3⟩
      rw [hx]
      rfl
  · refine ⟨fun hn => congrArg Host.Outcome.next (State.command_answer h ?_), fun r hr => ⟨(tokenRevoke m b s.live).1,
      (tokenRevoke m b s.live).2, congrArg Host.Outcome.next (State.command_ends h _), tokenRevoke_known hr _ rfl⟩⟩
    unfold tokenRevoke
    dsimp only
    rw [hn]
    rfl
  · have hc : ([(0, decide (byteAt b.payload 0 ≤ 1)), resv b 1 1].all (·.2)) = true := by
      rw [List.all_cons, List.all_cons, h1, decide_eq_true h0]
      rfl
    intro a
    refine ⟨fun hd => congrArg Host.Outcome.next (State.command_answer h ?_), fun hd he => ⟨fun hx => congrArg Host.Outcome.next
      (State.command_answer h ?_), fun hx => congrArg Host.Outcome.next ((State.command_ends h _).trans (congrArg (s.ends m) ?_))⟩⟩
    · refine (checked_pass hc _ _).trans (if_pos ?_)
      rw [Bool.or_eq_true, Bool.not_eq_true', Live.draining, beq_iff_eq]
      exact hd
    all_goals
      have hgo : ¬ (s.live.draining || !bit s.live.token.cfg.antEn a) = true := by
        rw [he, Live.draining, beq_eq_false_iff_ne.mpr hd]
        exact Bool.false_ne_true
    · exact (checked_pass hc _ _).trans ((if_neg hgo).trans (if_pos hx))
    · exact (checked_pass hc _ _).trans ((if_neg hgo).trans (if_neg (by rw [hx]; exact Bool.false_ne_true)))
  · let all := (List.range 32).filter fun r => (s.live.tokenRec r).isSome
    have hn : (s.live.shownRecs (byteAt b.payload 0)).length ≤ 30 := List.length_take_le ..
    refine ⟨(s.live.shownRecs (byteAt b.payload 0)).length, le 1 (s.live.shownRecs (byteAt b.payload 0)).length ++
        le 1 all.length ++ le 2 0 ++ (s.live.shownRecs (byteAt b.payload 0)).flatMap s.live.listRecord,
      congrArg Host.Outcome.next (State.command_answer h ?_), hn, ?_, ?_⟩
    · exact checked_pass (by rw [decide_eq_true h0]; rfl) _ _
    · rw [List.append_assoc, List.append_assoc, byteAt_le_one_head]
      omega
    · rw [List.length_append, List.length_flatMap, List.map_congr_left (g := fun _ => 16) fun r hr =>
        Live.listRecord_length (Live.shownRecs_enrolled hr), List.map_const', List.sum_replicate]
      simp
      omega
  · refine ⟨(List.range 2).flatMap s.live.antRecord, congrArg Host.Outcome.next (State.command_answer h rfl), ?_,
      fun a ha => ⟨?_, ?_, ?_⟩⟩
    · rw [length_flatMap_const s.live.antRecord_length]
      rfl
    · rw [show 8 * a = 8 * a + 0 from rfl, byteAt_flatMap s.live.antRecord_length (by decide) ha, Live.antRecord, byteAt_le_one_head]
      exact Nat.mod_eq_of_lt (s.live.antState_lt a)
    · rw [byteAt_flatMap s.live.antRecord_length (by decide) ha, Live.antRecord, ← List.append_assoc]
      exact byteAt_le_one_append (by simp) _
    · have hrd : rd ((List.range 2).flatMap s.live.antRecord) (8 * a + 4) 4 = rd (s.live.antRecord a) 4 4 :=
        rd_congr fun x hx => by
          rw [Nat.add_assoc, byteAt_flatMap s.live.antRecord_length (by omega) ha]
      rw [hrd]
      exact rd_le_at (pre := le 1 (s.live.antState a) ++ (le 1 (b2n (s.live.ant a).faulted) ++ (le 1 (s.live.ant a).grants.length ++
        le 1 (((s.live.ant a).attempt.map (·.contended)).getD 0)))) (by simp) 4 _ []
end

section
/-! The commands on key slots. -/

namespace Sys2Proof.Machine

/-- Checks of which none fails are all passed. -/
theorem all_of_firstBad {cs : List (Nat × Bool)} (h : firstBad cs = none) : cs.all (·.2) = true :=
  List.all_eq_true.mpr (pass_of_firstBad h)

/-! ### Reading a slot after an update -/

section
variable {s : State} {i j : Nat}

theorem State.setSlot_slot (k : KeySlot) (h : i < s.kept.cells.slots.length) : (s.setSlot i k).kept.cells.slot i = k := by
  rw [SecureCells.slot, State.setSlot]
  dsimp only
  rw [List.getD_eq_getElem?_getD, List.getElem?_set_self h, Option.getD_some]

theorem State.setSlot_slot_ne (k : KeySlot) (h : j ≠ i) : (s.setSlot i k).kept.cells.slot j = s.kept.cells.slot j := by
  rw [SecureCells.slot, State.setSlot]
  dsimp only
  rw [List.getD_eq_getElem?_getD, List.getElem?_set_ne h.symm, ← List.getD_eq_getElem?_getD, SecureCells.slot]

@[simp] theorem State.setSlot_length (s : State) (i : Nat) (k : KeySlot) :
    (s.setSlot i k).kept.cells.slots.length = s.kept.cells.slots.length := List.length_set

@[simp] theorem State.useSlot_length (s : State) (i : Nat) :
    (s.useSlot i).kept.cells.slots.length = s.kept.cells.slots.length := List.length_set

@[simp] theorem State.slotEvent_kept (s : State) (c i : Nat) : (s.slotEvent c i).kept = s.kept := rfl

@[simp] theorem State.usageEvent_kept (s : State) (c i opc src : Nat) : (s.usageEvent c i opc src).kept = s.kept := rfl

/-! ### The checks of an operation -/

/-- The slot of an operation whose checks pass holds a key. -/
theorem State.useCheck_filled {m : MbRef} {opc off attr : Nat} {types : List Nat} (h : s.useCheck m opc i off types attr = none) :
    (s.kept.cells.slot i).filled = true := by
  unfold State.useCheck at h
  dsimp only at h
  split at h
  · cases h
  · split at h
    · cases h
    · split at h
      · cases h
      · split at h
        · cases h
        · split at h
          · cases h
          · rename_i hf
            simpa using hf

theorem State.not_barred {i : Nat} (h : (s.kept.cells.slot i).domain = s.kept.cells.liveDomain) : s.barred i = false := by
  rw [State.barred, h, bne_self_eq_false', Bool.and_false]

theorem State.not_manageBarred {u : Nat} {managed : List Nat} (h : ∀ i ∈ managed, s.barred i = false) :
    ¬ s.manageBarred u managed = true := by
  rw [State.manageBarred, List.any_eq_false.mpr fun i hi => by rw [h i hi]; exact Bool.false_ne_true, Bool.and_false]
  exact Bool.false_ne_true

/-! ### The bodies with their checks passed -/

variable {m : MbRef} {b : Mailbox}

theorem keyGenerate_passed {bs : List Byte} {l : Live} (hi : byteAt b.payload 0 ≤ 63)
    (hf : firstBad (fillChecks 1 (byteAt b.payload 1) (byteAt b.payload 2) (byteAt b.payload 3) 3) = none)
    (hk : s.fillCheck (byteAt b.payload 0) true = none)
    (hr : s.live.random (if byteAt b.payload 1 = 3 then 40 else materialLen (byteAt b.payload 1)) = (some bs, l)) :
    ∀ s', (({ s with live := l }).setSlot (byteAt b.payload 0) (newSlot s.kept.cells (byteAt b.payload 1) (byteAt b.payload 2)
      (byteAt b.payload 3) (if byteAt b.payload 1 = 3 then be 32 (scalarOf bs) else bs))).slotEvent 0 (byteAt b.payload 0) = s' →
    keyGenerate b s = (.done .ok 0 (s'.kept.cells.descriptor (byteAt b.payload 0) ++ (if byteAt b.payload 1 = 3 then
      (s'.kept.cells.slot (byteAt b.payload 0)).pub else [])), s') := by
  rintro _ rfl
  unfold keyGenerate
  dsimp only
  refine (checked_pass (α := Reply × State) ?_ _ _).trans ?_
  · rw [List.all_cons, all_of_firstBad hf, decide_eq_true hi]
    rfl
  · rw [hk]
    dsimp only
    rw [hr]

theorem keyImport_plain (hform : byteAt b.payload 1 = 0) (hi : byteAt b.payload 0 ≤ 63)
    (hf : firstBad (fillChecks 3 (byteAt b.payload 3) (byteAt b.payload 4) (byteAt b.payload 5) 4) = none)
    (hz : (resv b 6 2).2 = true) (hk : s.fillCheck (byteAt b.payload 0) false = none) : ∀ s',
    (s.setSlot (byteAt b.payload 0) (newSlot s.kept.cells (byteAt b.payload 3) (byteAt b.payload 4) (byteAt b.payload 5 ||| 2)
      (b.payload.drop 8))).slotEvent 1 (byteAt b.payload 0) = s' →
    keyImport m b s = (.done .ok 0 (s'.kept.cells.descriptor (byteAt b.payload 0)), s') := by
  rintro _ rfl
  unfold keyImport
  dsimp only
  rw [if_pos hform]
  refine (checked_pass (α := Reply × State) ?_ _ _).trans ?_
  · rw [List.all_append, List.all_cons, List.all_cons, all_of_firstBad hf, decide_eq_true hi, hz]
    rfl
  · rw [hk]

/-- A blob that unwraps to a key of the live domain fills the slot. -/
theorem importBlob_unwrapped {blob key pt : List Byte} (hu : kwUnwrap key blob = some pt) (ht : byteAt pt 0 ≤ 4)
    (hl : materialLen (byteAt pt 0) + 8 = pt.length) (ha : byteAt pt 1 ≤ 3) (hd : byteAt pt 2 = s.kept.cells.liveDomain) : ∀ s',
    (s.setSlot i (newSlot s.kept.cells (byteAt pt 0) (byteAt pt 1) ((byteAt pt 3 &&& 9) ||| 2) (pt.drop 8))).slotEvent 1 i = s' →
    importBlob s i blob key = (.done .ok 0 (s'.kept.cells.descriptor i), s') := by
  rintro _ rfl
  unfold importBlob
  rw [hu]
  dsimp only
  rw [if_neg, if_neg]
  · rw [hd, bne_self_eq_false']
    exact Bool.false_ne_true
  · rw [hl, bne_self_eq_false', decide_eq_false ht.not_gt, decide_eq_false ha.not_gt]
    exact Bool.false_ne_true

theorem keyImport_wrapped (hform : byteAt b.payload 1 = 1) (hi : byteAt b.payload 0 ≤ 63) (hw : byteAt b.payload 2 ≤ 63)
    (hz : (resv b 3 5).2 = true) (hc : s.useCheck m 0x5804 (byteAt b.payload 2) 2 [0, 1] 2 = none)
    (hd : (s.kept.cells.slot (byteAt b.payload 2)).domain = s.kept.cells.liveDomain) (hb : s.barred (byteAt b.payload 0) = false)
    (hk : s.fillCheck (byteAt b.payload 0) false = none) :
    keyImport m b s = importBlob (s.useSlot (byteAt b.payload 2)) (byteAt b.payload 0) (b.payload.drop 8)
      (s.kept.cells.slot (byteAt b.payload 2)).material := by
  have hbar : ∀ x ∈ [byteAt b.payload 2, byteAt b.payload 0], s.barred x = false := by
    intro x hx
    rcases List.mem_pair.mp hx with rfl | rfl
    · exact State.not_barred hd
    · exact hb
  unfold keyImport
  dsimp only
  rw [if_neg (by rw [hform]; decide)]
  refine (checked_pass (α := Reply × State) ?_ _ _).trans ((if_neg (State.not_manageBarred hbar)).trans ?_)
  · rw [List.all_cons, List.all_cons, List.all_cons, List.all_cons, decide_eq_true hi, decide_eq_true hw, hz, hform]
    rfl
  · rw [hc, hk]

theorem keyExport_passed {w : Nat} (hi : byteAt b.payload 0 = i) (hw : byteAt b.payload 1 = w) (hi6 : i ≤ 63) (hw6 : w ≤ 63)
    (hc : s.useCheck m 0x5805 w 1 [0, 1] 2 = none)
    (hf : (s.kept.cells.slot i).filled = true) (hd : (s.kept.cells.slot i).domain = s.kept.cells.liveDomain)
    (hdw : (s.kept.cells.slot w).domain = (s.kept.cells.slot i).domain) :
    keyExport m b s = if bit (s.kept.cells.slot i).flags 0 = false then (refuse .state, s)
      else (.done .ok 0 (kwWrap (s.kept.cells.slot w).material (le 1 (s.kept.cells.slot i).type ++ le 1 (s.kept.cells.slot i).attr ++
        le 1 (s.kept.cells.slot i).domain ++ le 1 (s.kept.cells.slot i).flags ++ le 4 0 ++ (s.kept.cells.slot i).material)),
        (s.useSlot w).slotEvent 3 i) := by
  subst hi hw
  have hbar : ∀ x ∈ [byteAt b.payload 1, byteAt b.payload 0], s.barred x = false := by
    intro x hx
    rcases List.mem_pair.mp hx with rfl | rfl
    · exact State.not_barred (hdw.trans hd)
    · exact State.not_barred hd
  unfold keyExport
  dsimp only
  refine (checked_pass (α := Reply × State) ?_ _ _).trans ((if_neg (State.not_manageBarred hbar)).trans ?_)
  · rw [List.all_cons, List.all_cons, decide_eq_true hi6, decide_eq_true hw6]
    rfl
  · rw [hc]
    dsimp only
    rw [hf]
    cases bit (s.kept.cells.slot (byteAt b.payload 0)).flags 0 <;> rfl

theorem keyDelete_passed (hi : byteAt b.payload 0 ≤ 63) (h0 : s.kept.cells.liveDomain ≠ 0)
    (hf : (s.kept.cells.slot (byteAt b.payload 0)).filled = true)
    (hd : (s.kept.cells.slot (byteAt b.payload 0)).domain = s.kept.cells.liveDomain) :
    keyDelete b s = if s.live.slotNamed (byteAt b.payload 0) = true then (refuse .state 1, s)
      else (okReply, (s.slotEvent 4 (byteAt b.payload 0)).setSlot (byteAt b.payload 0) KeySlot.empty) := by
  unfold keyDelete
  dsimp only
  refine (checked_pass (α := Reply × State) (by rw [decide_eq_true hi]; rfl) _ _).trans ((if_neg h0).trans ?_)
  rw [if_neg (by rw [hd, bne_self_eq_false', Bool.and_false]; exact Bool.false_ne_true), hf]
  rfl

theorem keyDerive_passed (hpar : byteAt b.payload 0 ≤ 63) (hi : byteAt b.payload 1 ≤ 63)
    (hf : firstBad (fillChecks 2 (byteAt b.payload 2) (byteAt b.payload 3) (byteAt b.payload 4) 2) = none)
    (hz : (resv b 7 1).2 = true) (hb : s.barred (byteAt b.payload 1) = false)
    (hc : s.useCheck m 0x5807 (byteAt b.payload 0) 0 [0, 1, 2] 3 = none) (hk : s.fillCheck (byteAt b.payload 1) true = none) : ∀ s',
    ((s.useSlot (byteAt b.payload 0)).setSlot (byteAt b.payload 1) (newSlot s.kept.cells (byteAt b.payload 2) (byteAt b.payload 3)
      (byteAt b.payload 4 ||| 4) (kdf (prfOf (s.kept.cells.slot (byteAt b.payload 0)))
        ((b.payload.drop 8).take (byteAt b.payload 5)) ((b.payload.drop (8 + byteAt b.payload 5)).take (byteAt b.payload 6))
        (8 * materialLen (byteAt b.payload 2))))).slotEvent 2 (byteAt b.payload 1) = s' →
    keyDerive m b s = (.done .ok 0 (s'.kept.cells.descriptor (byteAt b.payload 1)), s') := by
  rintro _ rfl
  unfold keyDerive
  dsimp only
  refine (checked_pass (α := Reply × State) ?_ _ _).trans ((if_neg (State.not_manageBarred
    (List.forall_mem_singleton.mpr hb))).trans ((if_neg ?_).trans ?_))
  · rw [List.all_append, List.all_append, List.all_cons, List.all_cons, List.all_cons, all_of_firstBad hf, decide_eq_true hpar,
      decide_eq_true hi, hz]
    rfl
  · rw [State.useCheck_filled hc, Bool.not_true, Bool.and_false, Bool.false_and]
    exact Bool.false_ne_true
  · rw [hc, hk]

end

end Sys2Proof.Machine

open Sys2Proof Sys2Proof.Machine

/-- Settles O47: each command's body with its checks passed, and the slots after its updates. -/
theorem keySlots : Obligations.KeySlots := by
  refine ⟨fun s hs => ?_, fun m b s h h0 => ?_, fun m b s bs l h hs => ?_, fun m b s h hs h1 => ?_, fun m b s pt h hs h1 => ?_,
    fun m b s h => ?_, fun m b s h hs hi h0 => ?_, fun m b s h hs => ?_⟩
  · refine ⟨?_, ?_, ?_, ?_, ?_⟩ <;> exact congrArg Host.Outcome.next (if_pos hs)
  · refine congrArg Host.Outcome.next (State.commandK_answer h ?_)
    exact checked_pass (α := Reply × State) (by rw [decide_eq_true h0]; rfl) _ _
  · intro i type hi hf hk hr hl
    refine ⟨(({ s with live := l }).setSlot i (newSlot s.kept.cells type (byteAt b.payload 2) (byteAt b.payload 3)
      (if type = 3 then be 32 (scalarOf bs) else bs))).slotEvent 0 i, _, congrArg Host.Outcome.next
      ((if_neg (Bool.eq_false_iff.mp hs)).trans ((State.commandK_endsK h _).trans (congrArg (s.endsK m)
        (keyGenerate_passed hi hf hk hr _ rfl)))), ?_, fun j hj => ?_, rfl⟩
    · rw [State.slotEvent_kept]
      exact State.setSlot_slot _ (by rw [hl]; omega)
    · rw [State.slotEvent_kept]
      exact State.setSlot_slot_ne _ hj
  · intro i p hi hf hz hk hl
    refine ⟨(s.setSlot i (newSlot s.kept.cells (byteAt p 3) (byteAt p 4) (byteAt p 5 ||| 2) (p.drop 8))).slotEvent 1 i,
      congrArg Host.Outcome.next ((if_neg (Bool.eq_false_iff.mp hs)).trans ((State.commandK_endsK h _).trans (congrArg (s.endsK m)
        (keyImport_plain h1 hi hf hz hk _ rfl)))), ?_⟩
    rw [State.slotEvent_kept]
    exact State.setSlot_slot _ (by rw [hl]; omega)
  · intro i w hi hw hz hc hd hb hk hu ht hlen ha hdom hl hne
    refine ⟨((s.useSlot w).setSlot i (newSlot (s.useSlot w).kept.cells (byteAt pt 0) (byteAt pt 1) ((byteAt pt 3 &&& 9) ||| 2)
      (pt.drop 8))).slotEvent 1 i, congrArg Host.Outcome.next ((if_neg (Bool.eq_false_iff.mp hs)).trans
      ((State.commandK_endsK h _).trans (congrArg (s.endsK m) ((keyImport_wrapped h1 hi hw hz hc hd hb hk).trans
        (importBlob_unwrapped (s := s.useSlot w) (i := i) hu ht hlen ha hdom _ rfl))))), ?_, ?_⟩
    · rw [State.slotEvent_kept, State.setSlot_slot _ (by rw [State.useSlot_length, hl]; omega)]
      rfl
    · rw [State.slotEvent_kept, State.setSlot_slot_ne _ hne.symm, State.useSlot, State.setSlot_slot _ (by rw [hl]; omega)]
  · intro i w k hi hw hc hf hd hdw
    have hx := keyExport_passed (b := b) rfl rfl hi hw hc hf hd hdw
    refine ⟨fun hb => congrArg Host.Outcome.next (State.commandK_answer h (hx.trans (if_pos hb))), fun hb =>
      congrArg Host.Outcome.next ((State.commandK_endsK h _).trans (congrArg (s.endsK m) (hx.trans (if_neg ?_))))⟩
    rw [show bit (s.kept.cells.slot i).flags 0 = true from hb]
    exact Bool.true_eq_false.mp
  · intro i hf hd
    have hx := keyDelete_passed hi h0 hf hd
    exact ⟨fun hn => congrArg Host.Outcome.next ((if_neg (Bool.eq_false_iff.mp hs)).trans
        (State.commandK_answer h (hx.trans (if_pos hn)))),
      fun hn => congrArg Host.Outcome.next ((if_neg (Bool.eq_false_iff.mp hs)).trans ((State.commandK_endsK h _).trans
        (congrArg (s.endsK m) (hx.trans (if_neg (Bool.eq_false_iff.mp hn))))))⟩
  · intro p par i hpar hi hf hz hb hc hk hl
    refine ⟨((s.useSlot par).setSlot i (newSlot s.kept.cells (byteAt p 2) (byteAt p 3) (byteAt p 4 ||| 4)
      (kdf (prfOf (s.kept.cells.slot par)) ((p.drop 8).take (byteAt p 5)) ((p.drop (8 + byteAt p 5)).take (byteAt p 6))
        (8 * materialLen (byteAt p 2))))).slotEvent 2 i, congrArg Host.Outcome.next ((if_neg (Bool.eq_false_iff.mp hs)).trans
      ((State.commandK_endsK h _).trans (congrArg (s.endsK m) (keyDerive_passed hpar hi hf hz hb hc hk _ rfl)))), ?_⟩
    rw [State.slotEvent_kept]
    exact State.setSlot_slot _ (by rw [State.useSlot_length, hl]; omega)
end

section
/-! The operations with keys, the hashes, the challenges and the DRBG. -/

namespace Sys2Proof.Machine

section
variable {s : State} {m : MbRef} {b : Mailbox}

/-! ### The bodies with their checks passed -/

/-- The checks of KEY.CIPHER, as its body writes them. -/
theorem keyCipher_checks (hi : byteAt b.payload 0 ≤ 63) (hm : byteAt b.payload 1 ≤ 2) (hd : byteAt b.payload 2 ≤ 1)
    (ha : byteAt b.payload 3 ≤ 64) (hn : byteAt b.payload 1 = 0 → rd b.payload 4 2 % 16 = 0) (hz : (resv b 6 2).2 = true)
    (hc : s.useCheck m 0x5808 (byteAt b.payload 0) 0 [0, 1] (if byteAt b.payload 2 = 1 then 1 else 0) = none) :
    [(0, decide (byteAt b.payload 0 ≤ 63)), (1, decide (byteAt b.payload 1 ≤ 2)), (2, decide (byteAt b.payload 2 ≤ 1)),
      (3, decide (byteAt b.payload 3 ≤ 64)), (4, byteAt b.payload 1 != 0 || rd b.payload 4 2 % 16 == 0), resv b 6 2].all (·.2) = true ∧
    s.useCheck m 0x5808 (byteAt b.payload 0) 0 [0, 1] (if (byteAt b.payload 2 == 1) = true then 1 else 0) = none := by
  refine ⟨?_, ?_⟩
  · have h4 : (byteAt b.payload 1 != 0 || rd b.payload 4 2 % 16 == 0) = true := by
      by_cases h0 : byteAt b.payload 1 = 0
      · rw [hn h0]
        exact Bool.or_true _
      · rw [bne_iff_ne.mpr h0]
        rfl
    simp only [List.all_cons, List.all_nil, decide_eq_true hi, decide_eq_true hm, decide_eq_true hd, decide_eq_true ha, h4, hz,
      Bool.and_true]
  · rw [← hc]
    simp only [beq_iff_eq]

theorem keyMac_passed (hi : byteAt b.payload 0 ≤ 63) (hv : byteAt b.payload 1 ≤ 1) (hz3 : (resv b 3 1).2 = true)
    (hn : rd b.payload 4 2 ≤ 448) (hz6 : (resv b 6 2).2 = true)
    (hc : s.useCheck m 0x5809 (byteAt b.payload 0) 0 [0, 1, 2] 0 = none) :
    keyMac m b s =
      if (!(byteAt b.payload 1 == 1)) = true then
        (.done .ok 0 ((s.kept.cells.slot (byteAt b.payload 0)).mac ((b.payload.drop 24).take (rd b.payload 4 2))),
          s.useSlot (byteAt b.payload 0))
      else if (byteAt b.payload 2 != 0xFF && !s.live.challenge (byteAt b.payload 2)) = true then
        (refuse .state, s.onLive fun l => l.dropChallenge (byteAt b.payload 2))
      else (if (s.kept.cells.slot (byteAt b.payload 0)).mac ((b.payload.drop 24).take (rd b.payload 4 2)) =
            (b.payload.drop 8).take 16 then okReply else refuse .crc,
        (s.useSlot (byteAt b.payload 0)).onLive fun l => l.dropChallenge (byteAt b.payload 2)) := by
  unfold keyMac
  dsimp only
  refine (checked_pass (α := Reply × State) ?_ _ _).trans ?_
  · simp only [List.all_cons, List.all_nil, decide_eq_true hi, decide_eq_true hv, decide_eq_true hn, hz3, hz6, Bool.and_true]
  · rw [hc]
    dsimp only
    by_cases ht : (s.kept.cells.slot (byteAt b.payload 0)).mac ((b.payload.drop 24).take (rd b.payload 4 2)) =
        (b.payload.drop 8).take 16
    · rw [if_pos ht, if_pos (beq_iff_eq.mpr ht)]
    · rw [if_neg ht, if_neg (mt beq_iff_eq.mp ht)]

theorem keyHash_passed {l : Live} (hf : byteAt b.payload 0 ≤ 3) (hz : (resv b 1 3).2 = true) :
    let old := l.key.hashes.find? fun h => h.source == hashSource m
    let rest := l.key.hashes.filter fun h => h.source != hashSource m
    let fed := (if bit (byteAt b.payload 0) 0 then [] else (old.map (·.fed)).getD []) ++ b.payload.drop 4
    keyHash m b l =
      if (!bit (byteAt b.payload 0) 0 && old.isNone) = true then (refuse .state, l)
      else if bit (byteAt b.payload 0) 1 = true then (.done .ok 0 (sha256 fed), { l with key := { l.key with hashes := rest } })
      else (okReply, { l with key := { l.key with hashes := { source := hashSource m, fed := fed } :: rest } }) := by
  intro old rest fed
  unfold keyHash
  dsimp only
  exact checked_pass (by rw [List.all_cons, List.all_cons, hz, decide_eq_true hf]; rfl) _ _

/-! ### The DRBG -/

theorem Live.random_drawn (l : Live) (n : Nat) (h : l.key.drbgRunning = true) : ∃ bs l', l.random n = (some bs, l') ∧
    l'.key.drbgRequests = l.key.drbgRequests + 1 ∧ l'.key.nextHandle = l.key.nextHandle ∧ l'.mt = l.mt := by
  rw [Live.random, h]
  exact ⟨_, _, rfl, rfl, rfl, rfl⟩

theorem mem_pushDrop {α : Type} (n : Nat) (q : List α) (x : α) : x ∈ pushDrop n q x := by
  unfold pushDrop
  split <;> exact List.mem_append_right _ (List.mem_singleton_self x)

end

end Sys2Proof.Machine

open Sys2Proof Sys2Proof.Machine

/-- Settles O48: each command's body with its checks passed, and the steps of the DRBG. -/
theorem keyOperations : Obligations.KeyOperations := by
  refine ⟨fun m b s h => ?_, fun m b s h => ?_, fun m b s h => ?_, fun m b s h h0 hz => ?_, fun m b s h h1 => ⟨fun hd => ?_, fun hd => ?_⟩,
    fun m b s h hd => ?_, fun m b s h ho => ?_, fun m b s h => ?_, fun kind n s hp => ⟨?_, fun hd hn => ?_, fun hd hn => ?_, ?_⟩⟩
  · intro p i key iv data hi hdir ha hz hc
    have hrun : ∀ {r : Reply × State}, keyCipher m b s = r → exec .keyCipher s = .next (s.endsK m r) := fun hx =>
      congrArg Host.Outcome.next ((State.commandK_endsK h _).trans (congrArg (s.endsK m) hx))
    refine ⟨fun hm hn => hrun ?_, fun hm => hrun ?_, fun hm hd => hrun ?_, fun hm hd ht => hrun ?_⟩
    · obtain ⟨hc1, hc2⟩ := keyCipher_checks hi (hm.trans_le (by decide)) hdir ha (fun _ => hn) hz hc
      unfold keyCipher
      dsimp only
      refine (checked_pass (α := Reply × State) hc1 _ _).trans ?_
      rw [hc2, show byteAt b.payload 1 = 0 from hm]
      by_cases hd : byteAt b.payload 2 = 1
      · rw [show byteAt p 2 = 1 from hd]
        rfl
      · rw [if_neg (show ¬ byteAt p 2 = 1 from hd)]
        dsimp only
        rw [if_neg (mt beq_iff_eq.mp hd)]
        rfl
    all_goals
      have hn : byteAt b.payload 1 = 0 → rd b.payload 4 2 % 16 = 0 := fun h0 => nomatch h0.symm.trans hm
      obtain ⟨hc1, hc2⟩ := keyCipher_checks hi (hm.trans_le (by decide)) hdir ha hn hz hc
      unfold keyCipher
      dsimp only
      refine (checked_pass (α := Reply × State) hc1 _ _).trans ?_
      rw [hc2, show byteAt b.payload 1 = _ from hm]
    · rfl
    · dsimp only
      rw [show byteAt b.payload 2 = 0 from hd]
      rfl
    · dsimp only
      rw [show byteAt b.payload 2 = 1 from hd]
      exact (if_pos rfl).trans (if_neg (mt beq_iff_eq.mp ht))
  · intro p i h1 tag hi hv hz3 hn hz6 hc
    have hx := keyMac_passed hi hv hz3 hn hz6 hc
    have hrun : ∀ {r : Reply × State}, keyMac m b s = r → exec .keyMac s = .next (s.endsK m r) := fun hx =>
      congrArg Host.Outcome.next ((State.commandK_endsK h _).trans (congrArg (s.endsK m) hx))
    refine ⟨fun h0 => hrun (hx.trans (if_pos ?_)), fun hver hh => hrun (hx.trans ((if_neg ?_).trans (if_neg ?_))),
      fun hver hne hch => hrun (hx.trans ((if_neg ?_).trans (if_pos ?_)))⟩
    · rw [show byteAt b.payload 1 = 0 from h0]; rfl
    · rw [show byteAt b.payload 1 = 1 from hver]; decide
    · rw [Bool.and_eq_true, bne_iff_ne, Bool.not_eq_true']
      rintro ⟨hne, hch⟩
      rcases hh with hh | hh
      · exact hne hh
      · exact nomatch hch.symm.trans hh
    · rw [show byteAt b.payload 1 = 1 from hver]; decide
    · rw [Bool.and_eq_true, bne_iff_ne, Bool.not_eq_true']
      exact ⟨hne, hch⟩
  · intro p i k hi hz
    refine ⟨fun hv hc => congrArg Host.Outcome.next ((State.commandK_endsK h _).trans (congrArg (s.endsK m) ?_)),
      fun bs l hv hc hr => congrArg Host.Outcome.next ((State.commandK_endsK h _).trans (congrArg (s.endsK m) ?_))⟩
    all_goals
      unfold keySign
      dsimp only
      refine (checked_pass (α := Reply × State) ?_ _ _).trans ?_
      · rw [List.all_cons, List.all_cons, List.all_cons, hz, decide_eq_true hi, show byteAt b.payload 1 = _ from hv]
        rfl
      rw [show byteAt b.payload 1 = _ from hv]
    · rw [show s.useCheck m 0x580A (byteAt b.payload 0) 0 (if ((1 : Nat) == 1) = true then [3, 4] else [3])
        (if ((1 : Nat) == 1) = true then 1 else 0) = none from hc]
      dsimp only
      refine (if_pos rfl).trans ?_
      split <;> rfl
    · rw [show s.useCheck m 0x580A (byteAt b.payload 0) 0 (if ((0 : Nat) == 1) = true then [3, 4] else [3])
        (if ((0 : Nat) == 1) = true then 1 else 0) = none from hc]
      dsimp only
      rw [if_neg (by decide), hr]
  · intro old rest
    have hx := keyHash_passed (m := m) (l := s.live) h0 hz
    have hrun : ∀ {r : Reply × Live}, keyHash m b s.live = r → exec .keyHash s = .next (s.ends m r) := fun hx =>
      congrArg Host.Outcome.next ((State.command_ends h _).trans (congrArg (s.ends m) hx))
    refine ⟨fun hf => hrun ?_, fun hf => hrun ?_, fun hf hn => congrArg Host.Outcome.next (State.command_answer h ?_),
      fun x hf ho => hrun ?_⟩
    · refine hx.trans ((if_neg ?_).trans ((if_pos ?_).trans ?_)) <;> rw [hf]
      · exact Bool.false_ne_true
      · rfl
      · rfl
    · refine hx.trans ((if_neg ?_).trans ((if_neg ?_).trans ?_)) <;> rw [hf]
      · exact Bool.false_ne_true
      · decide
      · rfl
    · refine hx.trans (if_pos ?_)
      rw [show s.live.key.hashes.find? (fun h => h.source == hashSource m) = none from hn]
      rcases hf with hf | hf <;> rw [hf] <;> rfl
    · refine hx.trans ((if_neg ?_).trans ((if_pos ?_).trans ?_)) <;> rw [hf]
      · rw [show s.live.key.hashes.find? (fun h => h.source == hashSource m) = some x from ho]
        exact Bool.false_ne_true
      · rfl
      · rw [show s.live.key.hashes.find? (fun h => h.source == hashSource m) = some x from ho]
        rfl
  · refine congrArg Host.Outcome.next (State.command_answer h ?_)
    unfold keyRandom
    dsimp only
    rw [checked_pass (by rw [decide_eq_true h1]; rfl), Live.random_stopped hd]
    rfl
  · obtain ⟨bs, l, hr, hq, -, -⟩ := s.live.random_drawn (byteAt b.payload 0) hd
    refine ⟨bs, l, congrArg Host.Outcome.next ((State.command_ends h _).trans (congrArg (s.ends m) ?_)), hr, hq⟩
    unfold keyRandom
    dsimp only
    rw [checked_pass (by rw [decide_eq_true h1]; rfl), hr]
  · obtain ⟨bs, l, hr, -, hh, ht⟩ := s.live.random_drawn 16 hd
    refine ⟨bs, { l with key := { l.key with
      challenges := pushDrop 16 l.key.challenges { handle := l.key.nextHandle, value := bs, issued := l.mt.now },
      nextHandle := (l.key.nextHandle + 1) % 255 } },
      congrArg Host.Outcome.next ((State.command_ends h _).trans (congrArg (s.ends m) ?_)), ?_, ?_⟩
    · unfold keyChallenge
      rw [hr, ← hh]
    · rw [← hh, ← ht]
      exact mem_pushDrop ..
    · rw [← hh]
  · refine congrArg Host.Outcome.next (State.command_answer h ?_)
    exact checked_pass (by rw [decide_eq_true ho]; rfl) _ _
  · refine ⟨_, congrArg Host.Outcome.next (State.commandK_answer h rfl), ?_, ?_, ?_, ?_⟩
    · simp only [List.append_assoc]
      exact byteAt_le_one_head _ _
    · rw [List.append_assoc, List.append_assoc, List.append_assoc, List.append_assoc]
      refine (byteAt_le_one_append (by simp) _).trans ?_
      cases s.live.key.drbgRunning <;> rfl
    · rw [List.append_assoc, List.append_assoc, List.append_assoc]
      exact rd_le_at (by simp) 2 _ _
    · rw [List.append_assoc, List.drop_left' (by simp), List.take_left]
  · refine ⟨{ s with live := entropyTestFail kind n s.live }, State.onLogic_eq hp rfl, rfl, ?_, ?_⟩ <;> unfold entropyTestFail <;>
      rw [Live.raise_key]
  · refine ⟨{ s with live := drbgRestart n s.live }, State.onLogic_eq hp rfl, rfl, ?_⟩
    have hgo : ¬ (s.live.key.drbgRunning || decide (n < s.live.key.samples + 1024)) = true := by
      rw [hd, decide_eq_false (by omega)]
      exact Bool.false_ne_true
    unfold drbgRestart
    rw [if_neg hgo]
    dsimp only
    rw [Live.raise_key]
    exact ⟨rfl, rfl, rfl⟩
  · refine ⟨{ s with live := drbgReseed s.live }, State.onLogic_eq hp rfl, rfl, ?_⟩
    have hgo : ¬ (!s.live.key.drbgRunning || (decide (s.live.key.drbgRequests < 1024) &&
        decide (s.live.mt.now < s.live.key.drbgSeeded + ms 10000))) = true := by
      rw [hd, Bool.not_true, Bool.false_or, Bool.and_eq_true, decide_eq_true_iff, decide_eq_true_iff]
      omega
    unfold drbgReseed
    rw [if_neg hgo]
    exact ⟨rfl, rfl, rfl, rfl⟩
  · exact congrArg Host.Outcome.next (s.onLogic_running _ hp)
end

section
/-! Life cycle, Hallmark and peer authentication. -/

namespace Sys2Proof.Machine

section
variable {s : State} {l : Live} {m : MbRef} {b : Mailbox}

/-! ### Transitions -/

theorem Live.newTnonce_stopped (h : l.key.drbgRunning = false) : l.newTnonce = l := by
  rw [Live.newTnonce, Live.random_stopped h]

/-- What a permitted transition leaves in the secure cells. -/
theorem transitionCells_lcs (c : SecureCells) (old target : Nat) (ra rb : List Byte) :
    (transitionCells c old target ra rb).lcs = target := by
  unfold transitionCells
  dsimp only
  split
  · rfl
  · split
    · rfl
    · split <;> rfl

theorem transitionCells_decommissioned (c : SecureCells) (old : Nat) (ra rb : List Byte) :
    transitionCells c old 4 ra rb = { c with
      lcs := 4, journal := none, foundry := Root.absent, owner := Root.absent, service := Root.absent, imageKeys := false,
      slots := List.replicate 64 KeySlot.empty } := by
  unfold transitionCells
  dsimp only
  rw [if_neg (by rw [decide_eq_false (by decide : ¬ (4 : Nat) = 1), Bool.and_false]; exact Bool.false_ne_true)]
  rfl

/-- The body of KEY.TRANSITION before its new nonce: refused, or the transition. -/
def State.transits (s : State) (target : Nat) (auth : List Byte) : Reply × State :=
  if !transitionOk s.kept.cells.lcs target then (refuse .state, s)
  else if target == 3 && !ecdsaVerify Config.returnKey auth (authDigest "ZZ-RETURN" s.live.key.tnonce []) then (refuse .crc, s)
  else if transitionDraws s.kept.cells.lcs target && !s.live.key.drbgRunning then (refuse .internal, s)
  else (okReply, s.transition s.kept.cells.lcs target 0)

theorem keyTransition_passed (ht : byteAt b.payload 0 ≤ 4) (hz : (resv b 1 3).2 = true)
    (ha : byteAt b.payload 0 ≠ 3 → allZero ((b.payload.drop 4).take 64) = true) :
    keyTransition b s = ((s.transits (byteAt b.payload 0) ((b.payload.drop 4).take 64)).1,
      (s.transits (byteAt b.payload 0) ((b.payload.drop 4).take 64)).2.onLive Live.newTnonce) := by
  have hc : [(0, decide (byteAt b.payload 0 ≤ 4)), resv b 1 3,
      (4, byteAt b.payload 0 == 3 || allZero ((b.payload.drop 4).take 64))].all (·.2) = true := by
    have h4 : (byteAt b.payload 0 == 3 || allZero ((b.payload.drop 4).take 64)) = true := by
      by_cases h3 : byteAt b.payload 0 = 3
      · rw [h3]; rfl
      · rw [ha h3, Bool.or_true]
    rw [List.all_cons, List.all_cons, List.all_cons, hz, decide_eq_true ht, h4]
    rfl
  unfold keyTransition
  dsimp only
  rw [checked_pass (α := Reply × State) hc]
  rfl

/-- A transition draws from a DRBG that runs, or leaves it as it is. -/
theorem State.transits_stopped (target : Nat) (auth : List Byte) (h : s.live.key.drbgRunning = false) :
    (s.transits target auth).2.live.key = s.live.key := by
  unfold State.transits
  split
  · rfl
  · split
    · rfl
    · split
      · rfl
      · rename_i hd
        rw [h, Bool.not_false, Bool.and_true] at hd
        unfold State.transition
        dsimp only
        rw [if_neg hd, Live.raise_key]

theorem State.transits_done {target : Nat} (auth : List Byte) (hok : transitionOk s.kept.cells.lcs target = true) (h3 : target ≠ 3)
    (hd : transitionDraws s.kept.cells.lcs target = true → s.live.key.drbgRunning = true) :
    s.transits target auth = (okReply, s.transition s.kept.cells.lcs target 0) := by
  unfold State.transits
  rw [if_neg (by rw [hok]; exact Bool.false_ne_true), if_neg (by rw [beq_eq_false_iff_ne.mpr h3]; exact Bool.false_ne_true), if_neg]
  cases h : transitionDraws s.kept.cells.lcs target
  · exact Bool.false_ne_true
  · rw [hd h]
    exact Bool.false_ne_true

/-! ### Peer exchanges -/

theorem Live.dropExchange_exchange (l : Live) (peer : Nat) : (l.dropExchange peer).exchange peer = none := by
  rw [Live.exchange, Live.dropExchange, Live.setKey]
  dsimp only
  rw [List.find?_eq_none]
  intro e he
  simpa using (List.mem_filter.mp he).2

/-- An exchange that fails is over, and its peer is not authenticated. -/
theorem Live.peerFails_ends (l : Live) (c : PeerConfig) (cause peer : Nat) (i : Bool) :
    (l.peerFails c cause peer i).exchange peer = none ∧ peer ∉ (l.peerFails c cause peer i).key.authenticated := by
  have hk : (l.peerFails c cause peer i).key =
      ((l.dropExchange peer).setKey fun k => { k with authenticated := k.authenticated.filter (· != peer) }).key :=
    Live.raise_key ..
  rw [Live.exchange, hk]
  refine ⟨l.dropExchange_exchange peer, fun hm => ?_⟩
  exact bne_iff_ne.mp (List.mem_filter.mp hm).2 rfl

/-- An exchange that succeeds is over, and its peer is authenticated. -/
theorem Live.peerProven_ends (l : Live) (c : PeerConfig) (peer : Nat) (i : Bool) :
    (l.peerProven c peer i).exchange peer = none ∧ peer ∈ (l.peerProven c peer i).key.authenticated := by
  have hk : (l.peerProven c peer i).key =
      ((l.dropExchange peer).setKey fun k => { k with authenticated := k.authenticated.filter (· != peer) ++ [peer] }).key :=
    Live.raise_key ..
  rw [Live.exchange, hk]
  exact ⟨l.dropExchange_exchange peer, List.mem_append_right _ (List.mem_singleton_self peer)⟩

variable {f : CanFrame} {c : PeerConfig} {peer : Nat} {e : PeerExchange}

/-- A peer's frame that this module takes, by its kind. -/
theorem peerFrame_taken (hc : s.live.key.peer = some c) (hcl : s.live.commandLayer = true) (hm : s.live.pwr.mode ≠ .drain)
    (hl : (s.live.chan c.ch).listens = true) (ho : byteAt f.data 1 = c.ownId) (hs : c.sender f = some peer)
    (he : s.live.exchange peer = some e) :
    (byteAt f.data 0 = 2 → e.initiator = true →
      peerFrame f s = s.peerResponds c peer e ((f.data.drop 20).take 16) ((f.data.drop 36).take 16)) ∧
    (byteAt f.data 0 = 3 → e.initiator = false → peerFrame f s = s.peerConfirms c peer e ((f.data.drop 36).take 16)) := by
  have hgo : ¬ (!s.live.commandLayer || s.live.draining || !(s.live.chan c.ch).listens || byteAt f.data 1 != c.ownId) = true := by
    rw [hcl, hl, ho, bne_self_eq_false', Live.draining, beq_eq_false_iff_ne.mpr hm]
    exact Bool.false_ne_true
  refine ⟨fun hk hi => ?_, fun hk hi => ?_⟩
  all_goals
    unfold peerFrame
    rw [hc]
    dsimp only
    rw [if_neg hgo, hs]
    dsimp only
    rw [hk, he]
  · exact if_pos hi
  · exact if_neg (Bool.eq_false_iff.mp hi)

/-! ### The bodies with their checks passed -/

theorem keyHallmark_passed (h0 : byteAt b.payload 0 ≤ 1) (h1 : byteAt b.payload 0 = 1 → byteAt b.payload 1 ≤ 63)
    (hz : (resv b 2 2).2 = true) :
    let slot := byteAt b.payload 1
    let nonce := (b.payload.drop 4).take 32
    let k := s.kept.cells.slot slot
    keyHallmark m b s =
      if (decide (s.kept.cells.lcs = 4) || !s.kept.cells.rootOk 0) = true then (refuse .locked, s)
      else if byteAt b.payload 0 = 0 then s.hallmark 0 0xFF nonce
      else if s.kept.cells.liveDomain = 0 then (refuse .locked, s)
      else if s.kept.cells.slotState slot = 2 then (refuse .locked, s.usageEvent 1 slot 0x5810 (MbRef_source m))
      else if (!k.filled || !bit k.flags 3) = true then (refuse .keyUsage, s)
      else if (b.payload.drop 36).take 16 ≠ hallmarkTag k nonce then
        (refuse .crc, (s.useSlot slot).onLive fun l => l.raise 0x1A5 warn 2 (le 1 slot ++ nonce.take 4))
      else (s.useSlot slot).hallmark 1 slot nonce := by
  intro slot nonce k
  have hslot : (byteAt b.payload 0 == 0 || decide (byteAt b.payload 1 ≤ 63)) = true := by
    by_cases hp : byteAt b.payload 0 = 0
    · rw [hp]; rfl
    · rw [decide_eq_true (h1 (Nat.le_antisymm h0 (Nat.pos_of_ne_zero hp))), Bool.or_true]
  unfold keyHallmark
  dsimp only
  refine checked_pass (α := Reply × State) ?_ _ _
  rw [List.all_cons, List.all_cons, List.all_cons, hslot, hz, decide_eq_true h0]
  rfl

/-- KEY.PEER that ends the configuration. -/
theorem keyPeer_gone (h0 : byteAt b.payload 0 = 0xFF) (h3 : byteAt b.payload 3 < 2) (hz : (resv b 7 1).2 = true) :
    let r := (s.live.applyPeer b.payload).endConfig m (bit (byteAt b.payload 3) 0) 0x580E 0 b.payload
    keyPeer m b s = (r.1, { s with live := r.2 }) := by
  intro r
  unfold keyPeer
  dsimp only
  rw [show (byteAt b.payload 0 == 0xFF) = true from beq_iff_eq.mpr h0]
  refine (checked_pass (α := Reply × State) ?_ _ _).trans ((if_neg Bool.false_ne_true).trans ((if_neg Bool.false_ne_true).trans
    ((if_neg Bool.false_ne_true).trans (if_neg Bool.false_ne_true))))
  simp only [List.all_cons, List.all_nil, Bool.or_true, Bool.true_or, decide_eq_true h3, hz, Bool.and_true]

/-- KEY.PEER that sets one. -/
theorem keyPeer_set (h0 : byteAt b.payload 0 ≤ 3) (h1 : byteAt b.payload 1 ≤ 63) (h2 : byteAt b.payload 2 ≤ 63)
    (h3 : byteAt b.payload 3 < 2) (h4 : rd b.payload 4 2 ≤ 0x7C0) (h6 : inRange 1 100 (byteAt b.payload 6) = true)
    (hz : (resv b 7 1).2 = true) (hd : s.kept.cells.liveDomain ≠ 0) (hs : s.kept.cells.slotState (byteAt b.payload 2) ≠ 2)
    (hk : (s.kept.cells.slot (byteAt b.payload 2)).filled = true →
      (s.kept.cells.slot (byteAt b.payload 2)).type ≤ 2 ∧ (s.kept.cells.slot (byteAt b.payload 2)).attr = 3)
    (hfd : (s.live.chan (byteAt b.payload 0)).cfg.fd = true) :
    let r := (s.live.applyPeer b.payload).endConfig m (bit (byteAt b.payload 3) 0) 0x580E 0 b.payload
    keyPeer m b s = (r.1, { s with live := r.2 }) := by
  intro r
  have hgone : (byteAt b.payload 0 == 0xFF) = false := beq_eq_false_iff_ne.mpr (by omega)
  unfold keyPeer
  dsimp only
  rw [hgone]
  refine (checked_pass (α := Reply × State) ?_ _ _).trans ((if_neg ?_).trans ((if_neg ?_).trans ((if_neg ?_).trans (if_neg ?_))))
  · simp only [List.all_cons, List.all_nil, Bool.or_false, Bool.false_or, decide_eq_true h0, decide_eq_true h1, decide_eq_true h2,
      decide_eq_true h3, decide_eq_true h4, h6, hz, Bool.and_true]
  · rw [beq_eq_false_iff_ne.mpr hd, beq_eq_false_iff_ne.mpr hs]
    exact Bool.false_ne_true
  · cases hf : (s.kept.cells.slot (byteAt b.payload 2)).filled
    · exact Bool.false_ne_true
    · rw [decide_eq_false (hk hf).1.not_gt]
      exact Bool.false_ne_true
  · cases hf : (s.kept.cells.slot (byteAt b.payload 2)).filled
    · exact Bool.false_ne_true
    · rw [(hk hf).2]
      decide
  · rw [hfd]
    exact Bool.false_ne_true

/-- KEY.PEER_AUTH outside DRAIN with a configuration in force. -/
theorem keyPeerAuth_configured (hi : byteAt b.payload 0 ≤ 63) (hc : s.live.key.peer = some c) (hm : s.live.pwr.mode ≠ .drain) :
    ((s.live.exchange (byteAt b.payload 0)).isSome = true → keyPeerAuth b s = (refuse .busy, s)) ∧
    (s.live.exchange (byteAt b.payload 0) = none → (s.pairKey c (byteAt b.payload 0)).isSome = true →
      ∀ ca l, s.live.random 16 = (some ca, l) → keyPeerAuth b s = (refuse .pending, { s with
        live := (l.addExchange (byteAt b.payload 0) true ca []).sendPeer c (byteAt b.payload 0)
          (peerPayload 1 (byteAt b.payload 0) ca [] []) })) := by
  have hpass : [(0, decide (byteAt b.payload 0 ≤ 63))].all (·.2) = true := by rw [decide_eq_true hi]; rfl
  have hgo : ¬ s.live.draining = true := mt beq_iff_eq.mp hm
  refine ⟨fun he => ?_, fun he hk ca l hr => ?_⟩
  all_goals
    unfold keyPeerAuth
    dsimp only
    refine (checked_pass (α := Reply × State) hpass _ _).trans ?_
    rw [hc]
    dsimp only
    rw [if_neg hgo]
  · exact if_pos he
  · obtain ⟨key, hkey⟩ := Option.isSome_iff_exists.mp hk
    rw [if_neg (by rw [he]; exact Bool.false_ne_true), hkey]
    dsimp only
    rw [hr]

end

end Sys2Proof.Machine

open Sys2Proof Sys2Proof.Machine

/-- Settles O49: the transition, the Hallmark's guards, and how an exchange with a peer ends. -/
theorem lifeCycleAndPeers : Obligations.LifeCycleAndPeers := by
  refine ⟨fun m b s h hs => ?_, fun m b s h => ?_, fun m b s h => ?_, fun m b s c h hi hc hm => ?_,
    fun f c peer e key s hc hcl hm hl ho hs he hk => ⟨fun hkind hini => ?_, fun hkind hini => ?_⟩, fun peer c e s hp hc he ht => ?_⟩
  · intro target ht hz ha
    refine ⟨(s.transits target ((b.payload.drop 4).take 64)).1,
      (s.transits target ((b.payload.drop 4).take 64)).2.onLive Live.newTnonce,
      congrArg Host.Outcome.next ((if_neg (Bool.eq_false_iff.mp hs)).trans ((State.commandK_endsK h _).trans
        (congrArg (s.endsK m) (keyTransition_passed ht hz ha)))), fun hno => ?_, fun hok h3 hv => ?_, fun hok h3 hd => ?_, fun hd => ?_⟩
    · rw [State.transits, if_pos (by rw [hno]; rfl)]
      exact ⟨rfl, rfl⟩
    · rw [State.transits, if_neg (by rw [hok]; exact Bool.false_ne_true), if_pos (by rw [h3, hv]; rfl)]
      exact ⟨rfl, rfl⟩
    · rw [State.transits_done _ hok h3 hd]
      refine ⟨rfl, transitionCells_lcs .., fun h4 => ?_⟩
      have hcells := transitionCells_decommissioned s.kept.cells s.kept.cells.lcs ((s.live.random 32).1.getD [])
        (((s.live.random 32).2.random 32).1.getD [])
      rw [h4]
      refine ⟨congrArg SecureCells.foundry hcells, congrArg SecureCells.owner hcells, congrArg SecureCells.service hcells,
        congrArg SecureCells.slots hcells⟩
    · have hk := State.transits_stopped target ((b.payload.drop 4).take 64) hd
      rw [State.onLive, Live.newTnonce_stopped (by rw [hk, hd]), hk]
  · intro proof slot nonce h0 h1 hz
    have hx := keyHallmark_passed (s := s) (m := m) h0 h1 hz
    refine ⟨fun hl => congrArg Host.Outcome.next (State.commandK_answer h (hx.trans (if_pos ?_))), fun hl hr => ?_⟩
    · simpa using hl
    have hgo : ¬ (decide (s.kept.cells.lcs = 4) || !s.kept.cells.rootOk 0) = true := by
      rw [decide_eq_false hl, hr]
      exact Bool.false_ne_true
    refine ⟨fun hp => congrArg Host.Outcome.next ((State.commandK_endsK h _).trans (congrArg (s.endsK m)
      (hx.trans ((if_neg hgo).trans (if_pos hp))))), fun hp hd hss => ?_⟩
    have hx := hx.trans ((if_neg hgo).trans ((if_neg (by rw [show byteAt b.payload 0 = 1 from hp]; decide)).trans ((if_neg hd).trans (if_neg hss))))
    refine ⟨fun hf => congrArg Host.Outcome.next (State.commandK_answer h (hx.trans (if_pos ?_))), fun hf hb ht =>
      congrArg Host.Outcome.next ((State.commandK_endsK h _).trans (congrArg (s.endsK m) (hx.trans ((if_neg ?_).trans (if_neg ?_)))))⟩
    · simpa using hf
    · rw [hf, hb]
      exact Bool.false_ne_true
    · exact not_not.mpr ht
  · intro p k h3 hz
    refine ⟨fun h0 => congrArg Host.Outcome.next ((State.commandK_endsK h _).trans ?_), fun h0 h1 h2 h4 h6 hd hss hk hfd =>
      ⟨congrArg Host.Outcome.next ((State.commandK_endsK h _).trans ?_), rfl⟩⟩
    · rw [keyPeer_gone h0 h3 hz]
      rfl
    · rw [keyPeer_set h0 h1 h2 h3 h4 h6 hz hd hss hk hfd]
      rfl
  · obtain ⟨h1, h2⟩ := keyPeerAuth_configured hi hc hm
    intro peer
    refine ⟨fun he => congrArg Host.Outcome.next (State.commandK_answer h (h1 he)), fun he hk ca l hr =>
      congrArg Host.Outcome.next ((State.commandK_endsK h _).trans ?_)⟩
    rw [h2 he hk ca l hr]
    rfl
  · have hx := (peerFrame_taken hc hcl hm hl ho hs he).2 hkind hini
    by_cases ht : peerTag key 3 c.ownId peer e.cb e.ca = (f.data.drop 36).take 16
    · refine ⟨s.onLive fun l => l.peerProven c peer false, congrArg Host.Outcome.next (hx.trans ?_), rfl, ?_⟩
      · unfold State.peerConfirms
        rw [hk]
        exact if_pos (beq_iff_eq.mpr ht)
      · obtain ⟨h1, h2⟩ := s.live.peerProven_ends c peer false
        exact ⟨h1, iff_of_true h2 ht⟩
    · refine ⟨s.onLive fun l => l.peerFails c 1 peer false, congrArg Host.Outcome.next (hx.trans ?_), rfl, ?_⟩
      · unfold State.peerConfirms
        rw [hk]
        exact if_neg (mt beq_iff_eq.mp ht)
      · obtain ⟨h1, h2⟩ := s.live.peerFails_ends c 1 peer false
        exact ⟨h1, iff_of_false h2 ht⟩
  · have hx := (peerFrame_taken hc hcl hm hl ho hs he).1 hkind hini
    by_cases ht : peerTag key 2 c.ownId peer e.ca ((f.data.drop 20).take 16) = (f.data.drop 36).take 16
    · refine ⟨s.onLive fun l => (l.sendPeer c peer (peerPayload 3 peer e.ca ((f.data.drop 20).take 16)
        (peerTag key 3 peer c.ownId ((f.data.drop 20).take 16) e.ca))).peerProven c peer true,
        congrArg Host.Outcome.next (hx.trans ?_), rfl, ?_⟩
      · unfold State.peerResponds
        rw [hk]
        exact if_pos (beq_iff_eq.mpr ht)
      · obtain ⟨h1, h2⟩ := (s.live.sendPeer c peer (peerPayload 3 peer e.ca ((f.data.drop 20).take 16)
          (peerTag key 3 peer c.ownId ((f.data.drop 20).take 16) e.ca))).peerProven_ends c peer true
        exact ⟨h1, iff_of_true h2 ht⟩
    · refine ⟨s.onLive fun l => l.peerFails c 1 peer true, congrArg Host.Outcome.next (hx.trans ?_), rfl, ?_⟩
      · unfold State.peerResponds
        rw [hk]
        exact if_neg (mt beq_iff_eq.mp ht)
      · obtain ⟨h1, h2⟩ := s.live.peerFails_ends c 1 peer true
        exact ⟨h1, iff_of_false h2 ht⟩
  · refine ⟨{ s with live := peerTimeout peer s.live }, State.onLogic_eq hp rfl, rfl, ?_⟩
    have hx : peerTimeout peer s.live = s.live.peerFails c 2 peer e.initiator := by
      unfold peerTimeout
      rw [hc, he]
      exact if_neg (by omega)
    rw [hx]
    exact s.live.peerFails_ends c 2 peer e.initiator
end

section
/-! Write units of the parameter store. -/

namespace Sys2Proof.Machine

/-- A finished unit is counted, and none is active; the queue stays. -/
theorem Live.unitDone_param (l : Live) (u : WriteUnit) (resp : List Byte) :
    (l.unitDone u resp).param = { l.param with active := none, writes := l.param.writes + 1 } := by
  unfold Live.unitDone
  dsimp only
  split
  · split
    · rw [Live.complete_param]
    · rfl
  · rfl

theorem Live.unitDone_mt (l : Live) (u : WriteUnit) (resp : List Byte) : (l.unitDone u resp).mt = l.mt := by
  unfold Live.unitDone
  dsimp only
  split
  · split
    · exact Live.complete_mt ..
    · rfl
  · rfl

theorem Live.unitEvents_param (l : Live) (k : Kept) (u : WriteUnit) : (l.unitEvents k u).param = l.param := by
  unfold Live.unitEvents
  split
  · split
    · rfl
    · split
      · exact Live.raise_param ..
      · rfl
  · exact Live.raise_param ..
  · exact (Live.raise_param ..).trans (Live.raise_param ..)
  · rfl

/-- A deferral counts; it changes no unit. -/
theorem Live.deferral_param (l : Live) (c : Nat) : (l.deferral c).param.queue = l.param.queue ∧
    (l.deferral c).param.deferrals = l.param.deferrals + 1 := by
  unfold Live.deferral
  extract_lets n l1
  split
  · exact ⟨rfl, rfl⟩
  · rw [Live.raise_param]
    exact ⟨rfl, rfl⟩

theorem Live.completeAll_frame (ms : List MbRef) (l : Live) :
    (ms.foldl (fun l m => l.complete m .ok 0 []) l).param = l.param ∧ (ms.foldl (fun l m => l.complete m .ok 0 []) l).mt = l.mt :=
  List.foldlRecOn (motive := fun l' : Live => l'.param = l.param ∧ l'.mt = l.mt) ms _ ⟨rfl, rfl⟩
    fun _ h _ _ => ⟨(Live.complete_param ..).trans h.1, (Live.complete_mt ..).trans h.2⟩

section
variable {s : State} {u : WriteUnit}

/-- The unit that is durable, unless it is a repair or a shadow save. -/
theorem recordWriteDone_active (h : s.live.param.active = some u) (hr : ∀ n b, u.kind ≠ .repair n b) (hs : u.kind ≠ .shadow) :
    recordWriteDone s = { s with
      kept := u.kind.apply [] s.kept
      live := (s.live.unitEvents s.kept u).unitDone u (unitReply (u.kind.apply [] s.kept) u) } := by
  unfold recordWriteDone
  rw [h]
  dsimp only
  split
  · rename_i hk
    exact absurd hk hs
  · rename_i n b hk
    exact absurd hk (hr n b)
  · rfl

theorem repairDone_active {n : Nat} {b : Bool} (h : s.live.param.active = some u) (hk : u.kind = .repair n b) :
    (repairDone s).kept = u.kind.apply [] s.kept ∧ (repairDone s).live.param.active = none ∧
    (repairDone s).live.param.repairs = s.live.param.repairs + 1 := by
  obtain ⟨kind, owner, resp, last, force, since⟩ := u
  obtain rfl : kind = .repair n b := hk
  unfold repairDone
  rw [h]
  dsimp only
  rw [Live.raise_param, Live.unitDone_param]
  exact ⟨rfl, rfl, rfl⟩

theorem shadowSave_active (h : s.live.param.active = some u) (hk : u.kind = .shadow) :
    (shadowSave s).kept = u.kind.apply (shadowImage s.live s.live.window s.live.f1.dmem) s.kept ∧
    (shadowSave s).live.param.active = none ∧ (shadowSave s).live.param.joined = [] ∧
    (shadowSave s).live.param.lastSaveMt = s.live.mt.now := by
  obtain ⟨kind, owner, resp, last, force, since⟩ := u
  obtain rfl : kind = .shadow := hk
  obtain ⟨hp, ht⟩ := Live.completeAll_frame s.live.param.joined (s.live.unitDone
    { kind := .shadow, owner := owner, resp := resp, last := last, force := force, since := since } [])
  unfold shadowSave
  rw [h]
  dsimp only
  rw [Live.raise_param, hp, ht, Live.unitDone_param, Live.unitDone_mt]
  exact ⟨rfl, rfl, rfl, rfl⟩

end

end Sys2Proof.Machine

open Sys2Proof Sys2Proof.Machine

/-- Settles O50: the unit at the front, the unit that waits too long, and what a finished unit leaves. -/
theorem writeUnits : Obligations.WriteUnits := by
  refine ⟨fun u us s hp ha hq => ⟨fun hb => State.onLogic_eq hp ?_, fun hf hb => State.onLogic_eq hp ?_⟩, fun u m s hp ho hq => ?_,
    fun u s ha hr hs => ?_, fun u n b s ha hk => ⟨repairDone s, rfl, repairDone_active ha hk⟩, fun u s ha hk => ?_⟩
  · unfold admitUnit
    rw [ha, hq]
    refine if_pos ?_
    rw [Bool.or_eq_true, Option.isNone_iff_eq_none]
    exact hb
  · unfold admitUnit
    rw [ha, hq]
    refine if_neg ?_
    rw [hf, Bool.false_or, Option.isNone_iff_eq_none]
    exact hb
  · refine ⟨{ s with live := admissionExpiry s.live }, State.onLogic_eq hp rfl, rfl, ?_⟩
    unfold admissionExpiry
    rw [hq]
    dsimp only
    rw [ho]
    dsimp only
    rw [(Live.deferral_param ..).1, (Live.deferral_param ..).2, Live.complete_param]
    exact ⟨fun x hx => bne_iff_ne.mp (List.mem_filter.mp hx).2, rfl⟩
  · refine ⟨recordWriteDone s, rfl, ?_⟩
    rw [recordWriteDone_active ha hr hs]
    dsimp only
    rw [Live.unitDone_param, Live.unitEvents_param]
    exact ⟨rfl, rfl, rfl, rfl⟩
  · refine ⟨shadowSave s, rfl, ?_⟩
    have hx := shadowSave_active ha hk
    rw [hk] at hx
    exact hx
end

section
/-! The PARAM commands with legal fields. -/

namespace Sys2Proof.Machine

section
variable {s : State} {m : MbRef} {b : Mailbox}

/-! ### PARAM.READ -/

/-- The answer of a read from a winning copy. -/
def readAnswer (st : Nat) (w : List Byte) : List Byte :=
  le 1 st ++ (w.drop 4).take 1 ++ (w.drop 6).take 1 ++ (w.drop 5).take 1 ++ (w.drop 2).take 2 ++ le 2 0 ++ (w.drop 8).take 4 ++
    le 4 0 ++ (w.drop 12).take (byteAt w 6)

theorem byteAt_take_drop (w : List Byte) (i n j : Nat) (h : j < n) : byteAt ((w.drop i).take n) j = byteAt w (i + j) := by
  rw [byteAt, byteAt, List.getD_eq_getElem?_getD, List.getElem?_take_of_lt h, List.getElem?_drop, ← List.getD_eq_getElem?_getD]

theorem readAnswer_fields {w : List Byte} (st : Nat) (h : 12 ≤ w.length) : byteAt (readAnswer st w) 0 = st % 256 ∧
    rd (readAnswer st w) 4 2 = rd w 2 2 ∧ (readAnswer st w).drop 16 = (w.drop 12).take (byteAt w 6) := by
  refine ⟨?_, ?_, ?_⟩
  · simp only [readAnswer, List.append_assoc]
    exact byteAt_le_one_head _ _
  · unfold readAnswer
    refine rd_congr fun x hx => ?_
    rw [List.append_assoc, List.append_assoc, List.append_assoc, List.append_assoc]
    have hpre : (le 1 st ++ (w.drop 4).take 1 ++ (w.drop 6).take 1 ++ (w.drop 5).take 1).length = 4 := by simp; omega
    have hlt : x < ((w.drop 2).take 2).length := by simp; omega
    generalize le 1 st ++ (w.drop 4).take 1 ++ (w.drop 6).take 1 ++ (w.drop 5).take 1 = pre at hpre
    rw [← hpre, byteAt_append_right, byteAt_append_left hlt, byteAt_take_drop w 2 2 x hx]
  · unfold readAnswer
    exact List.drop_left' (by simp; omega)

theorem paramRead_passed (hn : rd b.payload 0 2 ≤ 639) (hz : (resv b 2 2).2 = true) {st : RecState} {w : List Byte}
    {a : Option Bool} (hr : recState s.kept.store (rd b.payload 0 2) = (st, w, a)) :
    let s' := s.onLive fun l => l.checkRecord s.kept.store (rd b.payload 0 2)
    (st = .empty → paramRead b s = (refuse .state 1, s')) ∧ (st = .lost → paramRead b s = (refuse .state 2, s')) ∧
    (st = .valid → paramRead b s = (.done .ok 0 (readAnswer 0 w), s')) := by
  intro s'
  have hc : [(0, decide (rd b.payload 0 2 ≤ 639)), resv b 2 2].all (·.2) = true := by
    rw [List.all_cons, List.all_cons, hz, decide_eq_true hn]
    rfl
  refine ⟨?_, ?_, ?_⟩
  all_goals
    rintro rfl
    unfold paramRead
    dsimp only
    refine (checked_pass (α := Reply × State) hc _ _).trans ?_
    rw [State.onLive_kept, hr]
  rfl

/-! ### PARAM.WRITE and PARAM.DELETE -/

theorem paramWrite_passed (hn : rd b.payload 0 2 ≤ 639) (hl : byteAt b.payload 5 ≤ 240) (hf : byteAt b.payload 6 < 4)
    (hz : (resv b 7 1).2 = true) :
    let n := rd b.payload 0 2
    let keep := bit (byteAt b.payload 6) 1
    paramWrite m b s =
      if (keep && !ledgerOpen s.kept.store) = true then (refuse .state 0x03, s)
      else if n < 256 then (refuse .locked 0x01, s)
      else if (keep && (ledgerEntries s.kept.store).all (fun e => e.2.1 != n) &&
        decide (256 ≤ (ledgerEntries s.kept.store).length)) = true then (refuse .busy 0x04, s)
      else (.wait, { s with
        live := (if keep = true then s.live.enqueue (.keep n) (some m) [] false else s.live).enqueue
          (.record n (rd b.payload 2 2) (byteAt b.payload 4) (bit (byteAt b.payload 6) 0)
            ((b.payload.drop 8).take (byteAt b.payload 5))) (some m) [] true }) := by
  intro n keep
  unfold paramWrite
  dsimp only
  refine checked_pass (α := Reply × State) ?_ _ _
  rw [List.all_cons, List.all_cons, List.all_cons, List.all_cons, decide_eq_true hn, decide_eq_true hl, decide_eq_true hf, hz]
  rfl

/-! ### PARAM.COUNTER -/

/-- The checks of PARAM.COUNTER pass with the fields that its operation asks for. -/
theorem paramCounter_checks (ho : byteAt b.payload 0 ≤ 4) (hz : (resv b 3 1).2 = true)
    (hn : byteAt b.payload 0 = 3 → inRange 4 64 (byteAt b.payload 2) = true) (hn0 : byteAt b.payload 0 ≠ 3 → byteAt b.payload 2 = 0)
    (hd : byteAt b.payload 0 = 1 → inRange 1 65535 (rd b.payload 4 4) = true) (hd0 : byteAt b.payload 0 ≠ 1 → rd b.payload 4 4 = 0) :
    [(0, decide (byteAt b.payload 0 ≤ 4)),
      (2, if byteAt b.payload 0 = 3 then inRange 4 64 (byteAt b.payload 2) else byteAt b.payload 2 == 0), resv b 3 1,
      (4, if byteAt b.payload 0 = 1 then inRange 1 65535 (rd b.payload 4 4) else rd b.payload 4 4 == 0)].all (·.2) = true := by
  have h2 : (if byteAt b.payload 0 = 3 then inRange 4 64 (byteAt b.payload 2) else byteAt b.payload 2 == 0) = true := by
    split
    · exact hn ‹_›
    · exact beq_iff_eq.mpr (hn0 ‹_›)
  have h4 : (if byteAt b.payload 0 = 1 then inRange 1 65535 (rd b.payload 4 4) else rd b.payload 4 4 == 0) = true := by
    split
    · exact hd ‹_›
    · exact beq_iff_eq.mpr (hd0 ‹_›)
  simp only [List.all_cons, List.all_nil, decide_eq_true ho, h2, hz, h4, Bool.and_true]

/-- PARAM.COUNTER on a counter that is defined. -/
theorem paramCounter_defined {cd : CounterDef} (hc : counterDef (s.live.counterDefs s.kept.counters) (byteAt b.payload 1) = some cd)
    (ho : byteAt b.payload 0 ≤ 4) (h3 : byteAt b.payload 0 ≠ 3) (hz : (resv b 3 1).2 = true) (hn : byteAt b.payload 2 = 0)
    (hd : byteAt b.payload 0 = 1 → inRange 1 65535 (rd b.payload 4 4) = true) (hd0 : byteAt b.payload 0 ≠ 1 → rd b.payload 4 4 = 0) :
    let op := byteAt b.payload 0
    let c := byteAt b.payload 1
    paramCounter m b s =
      if op = 0 then (.done .ok 0 (counterReply s.kept.store cd),
        if (counterCells s.kept.store cd).isEmpty = true then s.onLive fun l => l.raise 0x1B5 warn 1 (le 1 c) else s)
      else if c < 64 then (refuse .locked 0x01, s)
      else (.wait, { s with
        live := s.live.enqueue (if op = 1 then UnitKind.add c (rd b.payload 4 4) else if op = 2 then .clear c else .remove c) (some m) [] true }) := by
  intro op c
  unfold paramCounter
  dsimp only
  refine (checked_pass (α := Reply × State) (paramCounter_checks ho hz (fun h => absurd h h3) (fun _ => hn) hd hd0) _ _).trans ?_
  rw [hc]
  refine (if_neg h3).trans ?_
  by_cases h0 : byteAt b.payload 0 = 0
  · refine (if_pos h0).trans (Eq.trans ?_ (if_pos h0).symm)
    split <;> rfl
  · exact (if_neg h0).trans (if_neg h0).symm

/-- PARAM.COUNTER that defines one: its cells, and then the definition. -/
theorem paramCounter_new {first : Nat} (hc : counterDef (s.live.counterDefs s.kept.counters) (byteAt b.payload 1) = none)
    (ho : byteAt b.payload 0 = 3) (hz : (resv b 3 1).2 = true) (hn : inRange 4 64 (byteAt b.payload 2) = true)
    (hd : rd b.payload 4 4 = 0) (hge : 64 ≤ byteAt b.payload 1)
    (hf : freeRun (s.live.counterDefs s.kept.counters) (byteAt b.payload 2) = some first) :
    ∃ l', paramCounter m b s = (.wait, { s with live := l' }) ∧
      (l'.param.queue.getLast?).map (·.kind) = some (.define (byteAt b.payload 1) first (byteAt b.payload 2)) := by
  refine ⟨((List.range (byteAt b.payload 2)).foldl (fun l k => l.enqueue (.cell (first + k) (cellBytes 0 k (byteAt b.payload 1)))
    (some m) [] false) s.live).enqueue (.define (byteAt b.payload 1) first (byteAt b.payload 2)) (some m) [] true, ?_, ?_⟩
  · unfold paramCounter
    dsimp only
    refine (checked_pass (α := Reply × State) (paramCounter_checks (by omega) hz (fun _ => hn) (fun h => absurd ho h)
      (fun h1 => nomatch ho.symm.trans h1) (fun _ => hd)) _ _).trans ?_
    rw [hc]
    refine (if_neg (not_not.mpr ho)).trans ((if_neg hge.not_gt).trans ?_)
    rw [hf]
  · rw [Live.enqueue]
    dsimp only
    rw [List.getLast?_concat]
    rfl

/-! ### PARAM.SHADOW -/

/-- The checks of PARAM.SHADOW: an access within the application window, or a size for it. -/
theorem paramShadow_checks (hz1 : (resv b 1 1).2 = true) (hz6 : (resv b 6 2).2 = true) {k : Nat} (hk : byteAt b.payload 0 = k)
    (ho : k ≤ 4) (hrw : k = 1 ∨ k = 2 →
      inRange 1 480 (rd b.payload 4 2) = true ∧ rd b.payload 2 2 + rd b.payload 4 2 ≤ s.live.param.shadowApp)
    (h4 : k = 4 → rd b.payload 4 2 ≤ 112) :
    [(0, decide (byteAt b.payload 0 ≤ 4)), resv b 1 1,
      (2, !((byteAt b.payload 0 == 1 || byteAt b.payload 0 == 2) && inRange 1 480 (rd b.payload 4 2)) ||
        decide (rd b.payload 2 2 + rd b.payload 4 2 ≤ s.live.param.shadowApp)),
      (4, if (byteAt b.payload 0 == 1 || byteAt b.payload 0 == 2) = true then inRange 1 480 (rd b.payload 4 2)
        else byteAt b.payload 0 != 4 || decide (rd b.payload 4 2 ≤ 112)), resv b 6 2].all (·.2) = true := by
  subst hk
  cases hr : (byteAt b.payload 0 == 1 || byteAt b.payload 0 == 2)
  · have hx : (byteAt b.payload 0 != 4 || decide (rd b.payload 4 2 ≤ 112)) = true := by
      by_cases h : byteAt b.payload 0 = 4
      · rw [decide_eq_true (h4 h), Bool.or_true]
      · rw [bne_iff_ne.mpr h]; rfl
    simp only [List.all_cons, List.all_nil, decide_eq_true ho, hz1, hz6, hx, if_neg Bool.false_ne_true, Bool.and_true,
      Bool.false_and, Bool.not_false, Bool.true_or]
  · obtain ⟨hn, happ⟩ := hrw (by simpa using hr)
    simp only [List.all_cons, List.all_nil, decide_eq_true ho, hz1, hz6, hn, decide_eq_true happ, if_true, Bool.and_true, Bool.or_true]

end

/-- The units put at the end of the queue one after the other. -/
theorem Live.enqueueAll_kinds {α : Type} (xs : List α) (kind : α → UnitKind) (owner : Option MbRef) (resp : List Byte) (last : Bool)
    (l : Live) : ((xs.foldl (fun l x => l.enqueue (kind x) owner resp last) l).param.queue).map (·.kind) =
    l.param.queue.map (·.kind) ++ xs.map kind := by
  induction xs generalizing l with
  | nil => exact (List.append_nil _).symm
  | cons x xs ih =>
    rw [List.foldl_cons, ih, Live.enqueue]
    dsimp only
    rw [List.map_append, List.append_assoc]
    rfl

end Sys2Proof.Machine

open Sys2Proof Sys2Proof.Machine

/-- Settles O51: each command's body with its checks passed. -/
theorem paramCommands : Obligations.ParamCommands := by
  refine ⟨fun m b s h hn hz => ?_, fun m b s h => ?_, fun m b s h hn hz => ?_, fun m b s h hz => ?_, fun m b s h hz1 hz6 => ?_,
    fun m b s h => congrArg Host.Outcome.next (State.commandK_endsK h _), fun m b s h hs hz => ?_⟩
  · intro s'
    rcases hr : recState s.kept.store (rd b.payload 0 2) with ⟨st, w, a⟩
    obtain ⟨he, hl, hv⟩ := paramRead_passed hn hz hr
    refine ⟨fun hst => congrArg Host.Outcome.next ((State.commandK_endsK h _).trans (congrArg (s.endsK m) (he hst))),
      fun hst => congrArg Host.Outcome.next ((State.commandK_endsK h _).trans (congrArg (s.endsK m) (hl hst))), fun w' a' hx hw => ?_⟩
    obtain ⟨rfl, rfl, rfl⟩ : st = .valid ∧ w = w' ∧ a = a' := by simpa using hx
    exact ⟨readAnswer 0 w, congrArg Host.Outcome.next ((State.commandK_endsK h _).trans (congrArg (s.endsK m) (hv rfl))),
      readAnswer_fields 0 hw⟩
  · intro n unit hn hl hf hz
    have hx := paramWrite_passed (s := s) (m := m) hn hl hf hz
    refine ⟨fun hk ho => congrArg Host.Outcome.next (State.commandK_answer h (hx.trans (if_pos ?_))),
      fun hk hlt => congrArg Host.Outcome.next (State.commandK_answer h (hx.trans ((if_neg ?_).trans (if_pos hlt)))),
      fun hk hge => congrArg Host.Outcome.next ((State.commandK_endsK h _).trans ((congrArg (s.endsK m)
        (hx.trans ((if_neg ?_).trans ((if_neg hge.not_gt).trans (if_neg ?_))))).trans ?_)),
      fun hk ho hge hlen => congrArg Host.Outcome.next ((State.commandK_endsK h _).trans ((congrArg (s.endsK m)
        (hx.trans ((if_neg ?_).trans ((if_neg hge.not_gt).trans (if_neg ?_))))).trans ?_))⟩
    · rw [hk, ho]; rfl
    · rw [hk]; exact Bool.false_ne_true
    · rw [hk]; exact Bool.false_ne_true
    · rw [hk]; exact Bool.false_ne_true
    · rw [hk]; rfl
    · rw [hk, ho]; exact Bool.false_ne_true
    · rw [decide_eq_false hlen.not_ge, Bool.and_false]; exact Bool.false_ne_true
    · rw [hk]; rfl
  · have hc : [(0, decide (rd b.payload 0 2 ≤ 639)), resv b 2 2].all (·.2) = true := by
      rw [List.all_cons, List.all_cons, hz, decide_eq_true hn]
      rfl
    refine ⟨fun hlt => congrArg Host.Outcome.next (State.command_answer h ?_), fun hge =>
      congrArg Host.Outcome.next ((State.command_ends h _).trans (congrArg (s.ends m) ?_))⟩
    all_goals
      unfold paramDelete
      dsimp only
    · exact (checked_pass hc _ _).trans (if_pos hlt)
    · exact (checked_pass hc _ _).trans (if_neg hge.not_gt)
  · intro op c
    have hrun : ∀ {r : Reply} {l : Live}, paramCounter m b s = (r, { s with live := l }) →
        exec .paramCounter s = .next (s.ends m (r, l)) := fun hx => congrArg Host.Outcome.next
      ((State.commandK_endsK h _).trans (by rw [hx]; rfl))
    refine ⟨fun cd hcd hn hge => ⟨fun ho hd => ?_, fun ho hd => ?_, fun ho hd => ?_, fun ho hd he => ?_⟩,
      fun first hcd ho hn hd hge hf => ?_, fun hcd ho hn hd => ?_⟩
    · have hx := paramCounter_defined (m := m) hcd (ho.trans_le (by decide)) (fun h3 => nomatch ho.symm.trans h3) hz hn (fun _ => hd)
        (fun hne => absurd ho hne)
      dsimp only at hx
      rw [show byteAt b.payload 0 = 1 from ho] at hx
      exact hrun (hx.trans ((if_neg (by decide)).trans (if_neg hge.not_gt)))
    · have hx := paramCounter_defined (m := m) hcd (ho.trans_le (by decide)) (fun h3 => nomatch ho.symm.trans h3) hz hn
        (fun h1 => nomatch ho.symm.trans h1) (fun _ => hd)
      dsimp only at hx
      rw [show byteAt b.payload 0 = 2 from ho] at hx
      exact hrun (hx.trans ((if_neg (by decide)).trans (if_neg hge.not_gt)))
    · have hx := paramCounter_defined (m := m) hcd ho.le (fun h3 => nomatch ho.symm.trans h3) hz hn
        (fun h1 => nomatch ho.symm.trans h1) (fun _ => hd)
      dsimp only at hx
      rw [show byteAt b.payload 0 = 4 from ho] at hx
      exact hrun (hx.trans ((if_neg (by decide)).trans (if_neg hge.not_gt)))
    · have hx := paramCounter_defined (m := m) hcd (ho.trans_le (by decide)) (fun h3 => nomatch ho.symm.trans h3) hz hn
        (fun h1 => nomatch ho.symm.trans h1) (fun _ => hd)
      dsimp only at hx
      rw [show byteAt b.payload 0 = 0 from ho, he] at hx
      exact congrArg Host.Outcome.next (State.commandK_answer h hx)
    · obtain ⟨l, hx, hk⟩ := paramCounter_new (m := m) hcd ho hz hn hd hge hf
      exact ⟨l, hrun hx, hk⟩
    · refine congrArg Host.Outcome.next (State.commandK_answer h ?_)
      unfold paramCounter
      dsimp only
      refine (checked_pass (α := Reply × State) (paramCounter_checks (ho.trans_le (by decide)) hz (fun h3 => nomatch ho.symm.trans h3)
        (fun _ => hn) (fun _ => hd) (fun hne => absurd ho hne)) _ _).trans ?_
      rw [show counterDef (s.live.counterDefs s.kept.counters) (byteAt b.payload 1) = none from hcd]
      exact if_pos (fun h3 => nomatch ho.symm.trans h3)
  · intro op off n saving
    have hrun : ∀ {r : Reply} {l : Live}, paramShadow m b s = (r, { s with live := l }) →
        exec .paramShadow s = .next (s.ends m (r, l)) := fun hx => congrArg Host.Outcome.next
      ((State.commandK_endsK h _).trans (by rw [hx]; rfl))
    refine ⟨fun ho => ?_, fun ho hn ha => ?_, fun ho hn ha => hrun ?_, fun ho hs => hrun ?_, fun ho hs => hrun ?_,
      fun ho hn hs => ?_, fun ho hn hs => hrun ?_⟩
    · refine ⟨le 4 (hdrEpoch s.kept.store) ++ le 2 (hdrPages s.kept.store) ++ le 1 s.live.param.lastLoad ++
        le 1 s.live.param.lastSave ++ le 4 (s.live.param.lastSaveMt / 1000),
        congrArg Host.Outcome.next (State.commandK_answer h ?_), ?_, ?_⟩
      · unfold paramShadow
        dsimp only
        refine (checked_pass (α := Reply × State) (paramShadow_checks hz1 hz6 ho (by decide) (fun h => absurd h (by decide))
          (fun h => absurd h (by decide))) _ _).trans ?_
        rw [show byteAt b.payload 0 = 0 from ho]
        rfl
      · simp
      · simp only [List.append_assoc]
        exact rd_le_append 4 _ _
    · refine congrArg Host.Outcome.next (State.commandK_answer h ?_)
      unfold paramShadow
      dsimp only
      refine (checked_pass (α := Reply × State) (paramShadow_checks hz1 hz6 ho (by decide) (fun _ => ⟨hn, ha⟩)
        (fun h => absurd h (by decide))) _ _).trans ?_
      rw [show byteAt b.payload 0 = 1 from ho]
      rfl
    · unfold paramShadow
      dsimp only
      refine (checked_pass (α := Reply × State) (paramShadow_checks hz1 hz6 ho (by decide) (fun _ => ⟨hn, ha⟩)
        (fun h => absurd h (by decide))) _ _).trans ?_
      rw [show byteAt b.payload 0 = 2 from ho]
      rfl
    · unfold paramShadow
      dsimp only
      refine (checked_pass (α := Reply × State) (paramShadow_checks hz1 hz6 ho (by decide) (fun h => absurd h (by decide))
        (fun h => absurd h (by decide))) _ _).trans ?_
      rw [show byteAt b.payload 0 = 3 from ho]
      exact if_neg (Bool.eq_false_iff.mp hs)
    · unfold paramShadow
      dsimp only
      refine (checked_pass (α := Reply × State) (paramShadow_checks hz1 hz6 ho (by decide) (fun h => absurd h (by decide))
        (fun h => absurd h (by decide))) _ _).trans ?_
      rw [show byteAt b.payload 0 = 3 from ho]
      exact if_pos hs
    · refine congrArg Host.Outcome.next (State.commandK_answer h ?_)
      unfold paramShadow
      dsimp only
      refine (checked_pass (α := Reply × State) (paramShadow_checks hz1 hz6 ho (by decide) (fun h => absurd h (by decide))
        (fun _ => hn)) _ _).trans ?_
      rw [show byteAt b.payload 0 = 4 from ho]
      exact if_pos hs
    · unfold paramShadow
      dsimp only
      refine (checked_pass (α := Reply × State) (paramShadow_checks hz1 hz6 ho (by decide) (fun h => absurd h (by decide))
        (fun _ => hn)) _ _).trans ?_
      rw [show byteAt b.payload 0 = 4 from ho]
      exact if_neg (Bool.eq_false_iff.mp hs)
  · refine ⟨((erasePages (byteAt b.payload 0) s.live.param.shadowApp).foldl
      (fun l off => l.enqueue (.zero off) (some m) [] false) s.live).enqueue (.erased (byteAt b.payload 0)) (some m) [] true,
      congrArg Host.Outcome.next ((State.command_ends h _).trans (congrArg (s.ends m) ?_)), ?_⟩
    · unfold paramErase
      dsimp only
      exact checked_pass (by rw [List.all_cons, List.all_cons, hz, decide_eq_true hs]; rfl) _ _
    · rw [Live.enqueue]
      dsimp only
      rw [List.map_append, Live.enqueueAll_kinds]
      rfl
end

section
/-! The UPD commands, SYS.ASSAY, and what time does to a session, a gate record and an Assay. -/

namespace Sys2Proof.Machine

/-- Bytes read where they were written. -/
theorem memReadN_memWriteN {d : Byte} {m : Memory} (hw : Memory.wf d m = true) (a : Nat) (bs : List Byte) :
    memReadN d (memWriteN d m a bs) a bs.length = bs := by
  refine List.ext_getElem (by simp [memReadN]) fun i h1 h2 => ?_
  simp only [memReadN, List.getElem_map, List.getElem_range]
  rw [memRead_writeN d bs m a _ hw, if_pos ⟨Nat.le_add_right .., by omega⟩,
    Nat.add_sub_cancel_left, List.getD_eq_getElem _ _ h2]

/-! ### A block in one segment -/

theorem splice_whole {n : Nat} {bs : List Byte} (h : bs.length = n) : splice (List.replicate n 0) 0 bs = bs := by
  rw [splice, List.take_zero, List.nil_append, Nat.zero_add, h, List.drop_replicate, Nat.sub_self, List.replicate_zero,
    List.append_nil, List.length_replicate, ← h, List.take_length]

/-- A segment that is its whole block. -/
theorem UpdBuf.whole_single {off len crc : Nat} {data : List Byte} (h : data.length = len) :
    UpdBuf.whole { off := off, len := len, crc := crc, segs := [(0, data)] } = some data := by
  unfold UpdBuf.whole
  dsimp only
  rw [if_pos, List.foldl_cons, List.foldl_nil, splice_whole h]
  refine List.all_eq_true.mpr fun i hi => ?_
  have hlt := List.mem_range.mp hi
  rw [List.any_cons, decide_eq_true (Nat.zero_le _), decide_eq_true (by rw [h]; omega)]
  rfl

section
variable {s : State} {m : MbRef} {b : Mailbox} {u : UpdSession}

theorem takeSegment_whole {off len crc : Nat} {data : List Byte} (hb : u.buf = none) (hl : data.length = len)
    (hc : (crc32 data).toNat = crc) : ∀ r, stageBlock s.kept u off data = r →
    takeSegment s u off len crc 0 data =
      (.done .ok 0 (le 4 ({ r.2 with
          buf := none, written := r.2.written ++ [(off, len, crc)], lastBlock := s.live.mt.now } : UpdSession).bytes),
        { s with
          kept := r.1
          live := s.live.setSession { r.2 with
            buf := none, written := r.2.written ++ [(off, len, crc)], lastBlock := s.live.mt.now } }) := by
  rintro _ rfl
  unfold takeSegment
  rw [hb]
  dsimp only
  rw [if_neg (by rw [decide_eq_false (not_not.mpr rfl), decide_eq_false (not_not.mpr rfl)]; exact Bool.false_ne_true),
    List.nil_append, UpdBuf.whole_single hl]
  dsimp only
  rw [if_neg (not_not.mpr hc)]

theorem Live.endUpdate_session (l : Live) (c : Nat) : (l.endUpdate c).fwu.session = none := by
  unfold Live.endUpdate
  split
  · assumption
  · rw [Live.raise_fwu]
    rfl

/-! ### The bodies with their checks passed -/

theorem updBegin_passed (hk : byteAt b.payload 0 ≤ 2) (hz1 : (resv b 1 3).2 = true)
    (ht : inRange 528 (largestLen (byteAt b.payload 0)) (rd b.payload 4 4) = true) (h16 : rd b.payload 4 4 % 16 = 0)
    (hz12 : (resv b 12 4).2 = true) :
    (∀ r, s.beginRefusal (byteAt b.payload 0) = some r → updBegin b s = (r, s)) ∧
    (s.beginRefusal (byteAt b.payload 0) = none → updBegin b s = (okReply, { s with
      kept := s.kept.stagingEmpty
      live := (s.live.setFwu fun f => { f with
        session := some { kind := byteAt b.payload 0, total := rd b.payload 4 4, crc := rd b.payload 8 4, written := [], erased := [],
                          buf := none, lastBlock := s.live.mt.now },
        restart := none }).raise 0x1C0 notice 0 (le 1 (byteAt b.payload 0) ++ le 4 0) })) := by
  have hc : [(0, decide (byteAt b.payload 0 ≤ 2)), resv b 1 3,
      (4, inRange 528 (largestLen (byteAt b.payload 0)) (rd b.payload 4 4) && rd b.payload 4 4 % 16 == 0), resv b 12 4].all (·.2) =
      true := by
    simp only [List.all_cons, List.all_nil, decide_eq_true hk, hz1, ht, beq_iff_eq.mpr h16, hz12, Bool.and_true]
  refine ⟨fun r hr => ?_, fun hr => ?_⟩
  all_goals
    unfold updBegin
    dsimp only
    refine (checked_pass (α := Reply × State) hc _ _).trans ?_
    rw [hr]

theorem updBlock_checks {off len segOff segLen : Nat} (ho : off % 16 = 0) (hl : inRange 16 4096 len = true) (hl16 : len % 16 = 0)
    (hs : segOff + 16 ≤ len) (hs16 : segOff % 16 = 0) (hg : inRange 16 480 segLen = true) (hg16 : segLen % 16 = 0)
    (hsg : segOff + segLen ≤ len) (hz : (resv b 10 2).2 = true) :
    [(0, off % 16 == 0), (4, inRange 16 4096 len && len % 16 == 0), (6, decide (segOff + 16 ≤ len) && segOff % 16 == 0),
      (8, inRange 16 480 segLen && segLen % 16 == 0 && decide (segOff + segLen ≤ len)), resv b 10 2].all (·.2) = true := by
  simp only [List.all_cons, List.all_nil, beq_iff_eq.mpr ho, hl, beq_iff_eq.mpr hl16, decide_eq_true hs, beq_iff_eq.mpr hs16, hg,
    beq_iff_eq.mpr hg16, decide_eq_true hsg, hz, Bool.and_true]

/-! ### An Assay in RUN -/

theorem assayRunStep_due {kind : Nat} (ha : s.kept.assay = some kind) (hm : s.live.pwr.mode = .run)
    (ht : ms 10000 ≤ s.live.countTime.fwu.runPart) : ∀ t, assayRunStep s = t → t.kept = s.kept ∧
    t.live.fwu.runPart = s.live.countTime.fwu.runPart - ms 10000 ∧
    (t.live.param.queue.getLast?).map (·.kind) = some (.add 13 10) ∧ (600 ≤ s.kept.counter 13 + 10 → t.live.fwu.expired = true) := by
  intro t h
  unfold assayRunStep at h
  rw [ha] at h
  dsimp -zeta only at h
  extract_lets l l1 n l2 at h
  have hm' : l.pwr.mode = .run := hm
  rw [if_neg (by rw [hm', decide_eq_false (show ¬ l.fwu.runPart < ms 10000 from ht.not_gt)]; decide)] at h
  subst h
  have hq : (l1.param.queue.getLast?).map (·.kind) = some (.add 13 10) := by
    unfold l1
    rw [Live.enqueue]
    dsimp only
    rw [List.getLast?_concat]
    rfl
  have hr : l1.fwu.runPart = s.live.countTime.fwu.runPart - ms 10000 := rfl
  clear_value l1
  have h2 : l2.fwu.runPart = l1.fwu.runPart ∧ l2.param = l1.param ∧ (600 ≤ n → l2.fwu.expired = true) := by
    unfold l2
    split
    · rw [Live.raise_fwu, Live.raise_param]
      exact ⟨rfl, rfl, fun _ => rfl⟩
    · rename_i hn
      refine ⟨rfl, rfl, fun h600 => ?_⟩
      rw [decide_eq_true h600] at hn
      simpa using hn
  obtain ⟨h2, h3, h4⟩ := h2
  exact ⟨rfl, h2.trans hr, h3 ▸ hq, h4⟩

end

end Sys2Proof.Machine

open Sys2Proof Sys2Proof.Machine

/-- Settles O52: each command's body with its checks passed, a block in one segment, and the rows of time. -/
theorem updateCommands : Obligations.UpdateCommands := by
  refine ⟨fun m b s h => ?_, fun m b s h => ?_, fun u off len crc data s hb hl h16 hc => ?_, fun m b s h hf hz => ?_,
    fun m b s h hz => ?_, fun m b s h => ?_, fun m b s h => ?_, fun m b s h hk hz => ?_, fun s hm hp hg => ?_,
    fun u s hp hu ht => ?_, fun kind s ha hm ht => ⟨assayRunStep s, rfl, assayRunStep_due ha hm ht _ rfl⟩⟩
  · intro kind total hk hz1 ht h16 hz12
    obtain ⟨hrefused, hbegun⟩ := updBegin_passed (s := s) hk hz1 ht h16 hz12
    refine ⟨fun r hr => congrArg Host.Outcome.next ((State.commandK_endsK h _).trans (congrArg (s.endsK m) (hrefused r hr))),
      fun hr => ⟨_, _, congrArg Host.Outcome.next ((State.commandK_endsK h _).trans (congrArg (s.endsK m) (hbegun hr))),
        rfl, congrArg UpdState.session (Live.raise_fwu ..), rfl, rfl, rfl, rfl, rfl⟩⟩
  · intro p off len segOff segLen crc ho hl hl16 hs hs16 hg hg16 hsg hz
    have hrun : ∀ {r : Reply × State}, updBlock b s = r → exec .updBlock s = .next (s.endsK m r) := fun hx =>
      congrArg Host.Outcome.next ((State.commandK_endsK h _).trans (congrArg (s.endsK m) hx))
    have hlive : ∀ {r : Reply} {l : Live}, updBlock b s = (r, { s with live := l }) → exec .updBlock s = .next (s.ends m (r, l)) :=
      fun hx => (hrun hx).trans rfl
    have hcs := updBlock_checks ho hl hl16 hs hs16 hg hg16 hsg hz
    refine ⟨fun hn => congrArg Host.Outcome.next (State.commandK_answer h ?_), fun u hu => ⟨fun hlt =>
      congrArg Host.Outcome.next (State.commandK_answer h ?_), fun hle hw => hlive ?_, fun hle hw ho => hlive ?_, fun hle hw ho => hrun ?_⟩⟩
    · unfold updBlock
      dsimp only
      refine (checked_pass (α := Reply × State) hcs _ _).trans ?_
      rw [hn]
      rfl
    all_goals
      unfold updBlock
      dsimp only
      refine (checked_pass (α := Reply × State) hcs _ _).trans ?_
      rw [hu]
      dsimp only
    · exact if_pos hlt
    · exact (if_neg hle.not_gt).trans (if_pos (List.contains_iff_mem.mpr hw))
    · refine (if_neg hle.not_gt).trans ((if_neg (mt List.contains_iff_mem.mp hw)).trans (if_pos ?_))
      obtain ⟨w, hm, h1, h2⟩ := ho
      exact List.any_eq_true.mpr ⟨w, hm, by rw [decide_eq_true h1, decide_eq_true h2]; rfl⟩
    · refine (if_neg hle.not_gt).trans ((if_neg (mt List.contains_iff_mem.mp hw)).trans (if_neg ?_))
      rw [Bool.not_eq_true, List.any_eq_false]
      intro w hm
      rw [Bool.and_eq_true, decide_eq_true_iff, decide_eq_true_iff]
      have hout : rd b.payload 0 4 + rd b.payload 4 2 ≤ w.1 ∨ w.1 + w.2.1 ≤ rd b.payload 0 4 := ho w hm
      omega
  · refine ⟨_, _, takeSegment_whole hb hl hc _ rfl, ⟨_, rfl, rfl, rfl⟩, fun hw => ?_⟩
    rw [← hl]
    exact memReadN_memWriteN (Memory.wf_filter hw) _ data
  · have hcs : [(0, decide (byteAt b.payload 0 ≤ 1)), resv b 1 3].all (·.2) = true := by
      rw [List.all_cons, List.all_cons, hz, decide_eq_true hf]
      rfl
    refine ⟨fun hn => congrArg Host.Outcome.next (State.commandK_answer h ?_), fun u hu => ⟨fun d hd =>
      congrArg Host.Outcome.next (State.commandK_answer h ?_), fun hd => ⟨{ s with
        kept := { s.kept with updPending := some u.kind }
        live := (s.live.endUpdate 1).setFwu fun f => { f with
          restart := if byteAt b.payload 0 = 1 then some (s.live.mt.now, s.live.mt.now) else none } },
        congrArg Host.Outcome.next ((State.commandK_endsK h _).trans (congrArg (s.endsK m) ?_)), rfl,
        s.live.endUpdate_session 1, rfl⟩⟩⟩
    · unfold updEnd
      dsimp only
      refine (checked_pass (α := Reply × State) hcs _ _).trans ?_
      rw [hn]
      rfl
    all_goals
      unfold updEnd
      dsimp only
      refine (checked_pass (α := Reply × State) hcs _ _).trans ?_
      rw [hu]
      dsimp only
      rw [hd]
    · rfl
  · have hcs : [resv b 0 4].all (·.2) = true := by
      rw [List.all_cons, hz]
      rfl
    refine ⟨fun hn hp => congrArg Host.Outcome.next (State.commandK_answer h ?_), fun hx => ⟨{ s with
        kept := s.kept.stagingEmpty, live := (s.live.endUpdate 2).setFwu fun f => { f with restart := none } },
        congrArg Host.Outcome.next ((State.commandK_endsK h _).trans (congrArg (s.endsK m) ?_)), rfl,
        s.live.endUpdate_session 2, rfl⟩⟩
    · refine (checked_pass (α := Reply × State) hcs _ _).trans (if_pos ?_)
      rw [hn, hp]
      rfl
    · refine (checked_pass (α := Reply × State) hcs _ _).trans (if_neg ?_)
      rw [Bool.and_eq_true, Option.isNone_iff_eq_none, Option.isNone_iff_eq_none]
      rintro ⟨h1, h2⟩
      rcases hx with hx | hx
      · exact hx h1
      · exact hx h2
  · refine ⟨s.updRecord, congrArg Host.Outcome.next (State.commandK_answer h rfl), ?_, ?_, ?_⟩
    · simp [State.updRecord]
    · simp only [State.updRecord, List.append_assoc]
      refine (byteAt_le_one_head _ _).trans ?_
      cases s.live.fwu.session <;> rfl
    · simp only [State.updRecord, List.append_assoc]
      exact byteAt_le_one_append (length_le 1 _) _
  · intro p h0 h2 h3 hz hs
    refine congrArg Host.Outcome.next ((State.commandK_endsK h _).trans ?_)
    have hslot : (decide (byteAt b.payload 3 ≤ 63) || byteAt b.payload 3 == 0xFF) = true := by simpa using h3
    have hcheck : (if byteAt b.payload 3 = 0xFF then none else s.ownerSlotCheck m (byteAt b.payload 3)) = none := by
      split
      · rfl
      · exact hs ‹_›
    have hx : updConfig m b s = (((s.live.applyUpdCfg p).persist m 0x6806 0 p).1, { s with
        live := ((s.live.applyUpdCfg p).persist m 0x6806 0 p).2 }) := by
      unfold updConfig
      dsimp only
      refine (checked_pass (α := Reply × State) ?_ _ _).trans ?_
      · simp only [List.all_cons, List.all_nil, hslot, decide_eq_true (show byteAt b.payload 2 ≤ 3 from h2), hz, Bool.and_true]
        exact h0
      · rw [hcheck]
    rw [hx]
    rfl
  · have hcs : [(0, decide (byteAt b.payload 0 ≤ 1)), resv b 1 3].all (·.2) = true := by
      rw [List.all_cons, List.all_cons, hz, decide_eq_true hk]
      rfl
    intro kind
    have hlive : ∀ {r : Reply} {l : Live}, sysAssay m b s = (r, { s with live := l }) → exec .sysAssay s = .next (s.ends m (r, l)) :=
      fun hx => (congrArg Host.Outcome.next ((State.commandK_endsK h _).trans (congrArg (s.endsK m) hx))).trans rfl
    refine ⟨fun ha => congrArg Host.Outcome.next (State.commandK_answer h ?_), fun ha he => congrArg Host.Outcome.next
      (State.commandK_answer h ?_), fun ha he hs => ⟨if (decide (kind = 0) && s.kept.factoryFw) = true then 0
        else imgEpoch (imgHdr s.kept.flash (activeHdr kind)), hlive ?_⟩⟩
    all_goals
      unfold sysAssay
      dsimp only
    · exact (checked_pass (α := Reply × State) hcs _ _).trans (if_pos ha)
    · exact (checked_pass (α := Reply × State) hcs _ _).trans ((if_neg (not_not.mpr ha)).trans (if_pos he))
    · refine (checked_pass (α := Reply × State) hcs _ _).trans ((if_neg (not_not.mpr ha)).trans ((if_neg (by rw [he]; exact
        Bool.false_ne_true)).trans (if_neg ?_)))
      rw [Bool.and_eq_true, decide_eq_true_iff, Bool.not_eq_true']
      exact fun hx => nomatch hx.2.symm.trans (hs hx.1)
  · have hgo : ¬ (s.live.pwr.mode != .run || s.live.sup.phase != .running ||
        s.live.fwu.gate.any (fun g => decide (s.live.mt.now < g.mt + ms 10))) = true := by
      rw [hm, hp]
      cases hx : s.live.fwu.gate with
      | none => exact Bool.false_ne_true
      | some g =>
        rw [Option.any_some, decide_eq_false (hg g hx).not_gt]
        decide
    refine congrArg Host.Outcome.next (congrArg (fun l => { s with live := l }) ?_)
    unfold gateRecordWrite
    exact if_neg hgo
  · refine ⟨{ s with live := sessionIdle s.live }, State.onLogic_eq hp rfl, rfl, ?_⟩
    unfold sessionIdle
    rw [hu]
    dsimp only
    rw [if_neg ht.not_gt]
    exact Live.endUpdate_session ..
end

section
/-! The ALU instructions of F1 and their frame. -/

namespace Sys2Proof.Machine

section
variable {s : State} {p : Prefixes} {al : PfxAllow} {u : PfxUse} {next v : Nat}

/-- A fetched comparison writes its flags only. -/
theorem f1Alu_compares {b : AluOperand} {ext : ImmExt} (h : Fetches s p b.len al u next)
    (hv : aluValue s.live.f1.k u.bits ext b = some v) (a : KReg) (op : Flags → PfxUse → Nat → Nat → AluResult) :
    f1Alu s p a b al ext false op =
      s.f1Then next fun c => { c with flags := (op s.live.f1.flags u ((s.live.f1.reg a).toNat % 2 ^ u.bits) v).2 } := by
  have hawake : aluValue s.awake.live.f1.k u.bits ext b = some v := hv
  rw [f1Alu, f1Exec_of_fetches h (aluOperand_len_pos b)]
  simp only [hawake]
  rfl

/-- A fetched division by a register that is not 0. -/
theorem f1Divide_of_fetches {a b : KReg} (h : Fetches s p 2 allowNone u next) (hb : s.live.f1.reg b ≠ 0)
    (op : Flags → Nat → Nat → AluResult) :
    f1Divide s p a b op = s.f1Writes next a (op s.live.f1.flags (s.live.f1.reg a).toNat (s.live.f1.reg b).toNat) := by
  rw [f1Divide, f1Exec_of_fetches h two_pos]
  exact if_neg hb

end

/-! ### Registers -/

theorem F1State.setReg_reg (c : F1State) (r : KReg) (v : Nat) (h : r.val < c.k.length) : (c.setReg r v).reg r = BitVec.ofNat 32 v := by
  rw [F1State.reg, F1State.setReg]
  dsimp only
  rw [List.getD_eq_getElem?_getD, List.getElem?_set_self h, Option.getD_some]

theorem F1State.setReg_reg_ne (c : F1State) {r j : KReg} (v : Nat) (h : j ≠ r) : (c.setReg r v).reg j = c.reg j := by
  rw [F1State.reg, F1State.setReg]
  dsimp only
  rw [List.getD_eq_getElem?_getD, List.getElem?_set_ne fun hv => h (Fin.ext hv.symm), ← List.getD_eq_getElem?_getD, F1State.reg]

end Sys2Proof.Machine

open Sys2Proof Sys2Proof.Machine

/-- Settles O53: each instruction is an ALU operation, an operation of one register, or a division, that F1 fetches. -/
theorem dvorgilAlu : Obligations.DvorgilAlu := by
  refine ⟨fun p a b s u next v => ⟨fun h hv => ?_, fun h hv => ?_, fun h hv => ?_, fun h hv => ?_⟩,
    fun p a b s u next => ⟨fun h => ?_, fun h => ?_, fun h => ?_, fun h hb => ?_, fun h => ?_⟩, fun s next a r => ?_⟩
  · have halu := f1Alu_of_fetches h hv a
    exact ⟨congrArg Host.Outcome.next (halu _), congrArg Host.Outcome.next (halu _), congrArg Host.Outcome.next (halu _), congrArg Host.Outcome.next (halu _), congrArg Host.Outcome.next (halu _)⟩
  · have halu := f1Alu_of_fetches h hv a
    exact ⟨congrArg Host.Outcome.next (halu _), congrArg Host.Outcome.next (f1Alu_compares h hv a _), congrArg Host.Outcome.next (halu _)⟩
  · have halu := f1Alu_of_fetches h hv a
    exact ⟨congrArg Host.Outcome.next (halu _), congrArg Host.Outcome.next (halu _), congrArg Host.Outcome.next (halu _), congrArg Host.Outcome.next (f1Alu_compares h hv a _)⟩
  · have halu := f1Alu_of_fetches h hv a
    exact ⟨congrArg Host.Outcome.next (halu _), congrArg Host.Outcome.next (halu _), congrArg Host.Outcome.next (halu _), congrArg Host.Outcome.next (halu _)⟩
  · have hone := f1Unary_of_fetches h a b
    exact ⟨congrArg Host.Outcome.next (hone _), congrArg Host.Outcome.next (hone _), congrArg Host.Outcome.next (hone _), congrArg Host.Outcome.next (hone _), congrArg Host.Outcome.next (hone _), congrArg Host.Outcome.next (hone _)⟩
  · exact congrArg Host.Outcome.next (f1Unary_of_fetches h a b _)
  · exact ⟨congrArg Host.Outcome.next (f1Unary_of_fetches h a b _), congrArg Host.Outcome.next (f1Unary_of_fetches h a b _)⟩
  · have hdiv := f1Divide_of_fetches (a := a) h hb
    exact ⟨congrArg Host.Outcome.next (hdiv _), congrArg Host.Outcome.next (hdiv _), congrArg Host.Outcome.next (hdiv _), congrArg Host.Outcome.next (hdiv _)⟩
  · exact ⟨congrArg Host.Outcome.next ((f1Exec_of_fetches h two_pos _).trans (if_neg (not_not.mpr rfl))),
      congrArg Host.Outcome.next ((f1Exec_of_fetches h two_pos _).trans (if_neg (not_not.mpr rfl)))⟩
  · exact ⟨rfl, rfl, rfl, rfl, rfl, rfl, fun ha => F1State.setReg_reg _ a r.1 ha, fun j hj => F1State.setReg_reg_ne _ r.1 hj⟩
end

section
/-! What the ALU operations of F1 compute, with their flags. -/

namespace Sys2Proof.Machine

/-! ### Signed values modulo the size -/

theorem signedAt_modEq (n v : Nat) : signedAt n v ≡ v [ZMOD (2 ^ n : Nat)] := by
  have hmod : ((v % 2 ^ n : Nat) : Int) ≡ v [ZMOD (2 ^ n : Nat)] := by
    rw [Int.natCast_mod]
    exact Int.mod_modEq ..
  unfold signedAt
  split
  · exact hmod
  · exact (Int.modEq_sub_modulus_iff.mpr hmod.symm).symm

/-- The low bits depend on the residue only. -/
theorem lowBits_of_modEq {n m : Nat} {i : Int} (h : i ≡ m [ZMOD (2 ^ n : Nat)]) : lowBits n i = m % 2 ^ n := by
  rw [lowBits, h, ← Int.natCast_mod, Int.toNat_natCast]

theorem signedAt_bounds {n : Nat} (hn : 0 < n) (v : Nat) :
    -(2 ^ (n - 1) : Int) ≤ signedAt n v ∧ signedAt n v < (2 ^ (n - 1) : Int) := by
  have hhalf : 2 ^ n = 2 * 2 ^ (n - 1) := (Nat.two_pow_pred_mul_two hn).symm.trans (Nat.mul_comm _ _)
  have hlt : v % 2 ^ n < 2 ^ n := Nat.mod_lt _ (Nat.two_pow_pos n)
  have hcast : ((2 ^ (n - 1) : Nat) : Int) = 2 ^ (n - 1) := by push_cast; rfl
  rw [← hcast]
  unfold signedAt
  split <;> omega

/-! ### Sums, differences and products -/

section
variable (f : Flags) (n x v cin : Nat)

theorem aluAdd_value : (aluAdd f n false x v cin).1 = (x + v + cin) % 2 ^ n :=
  lowBits_of_modEq (by push_cast; exact ((signedAt_modEq n x).add (signedAt_modEq n v)).add_right _)

theorem aluMul_value : (aluMul f n false x v).1 = x * v % 2 ^ n :=
  lowBits_of_modEq (by rw [Nat.cast_mul]; exact (signedAt_modEq n x).mul (signedAt_modEq n v))

variable {n x v cin}

theorem aluSub_value (hv : v < 2 ^ n) (hc : cin ≤ 1) :
    (aluSub f n false x v cin).1 = (2 ^ n + 2 ^ n + x - v - cin) % 2 ^ n := by
  refine lowBits_of_modEq ?_
  have hpos := Nat.two_pow_pos n
  have hcast : ((2 ^ n + 2 ^ n + x - v - cin : Nat) : Int) = x - v - cin + (2 ^ n : Nat) * 2 := by omega
  rw [hcast]
  exact (((signedAt_modEq n x).sub (signedAt_modEq n v)).sub_right _).trans (Int.modEq_add_fac_self ..).symm

theorem aluAdd_overflow : (aluAdd f n false x v cin).2.v = true ↔
    ¬ (-(2 ^ (n - 1) : Int) ≤ signedAt n x + signedAt n v + cin ∧ signedAt n x + signedAt n v + cin < 2 ^ (n - 1)) := by
  rw [← fitsSigned_iff, Bool.not_eq_true, ← Bool.not_eq_true']
  rfl

end

/-! ### Division toward zero -/

theorem signedAt_minusOne {y : Nat} (hy : y < 2 ^ 32) (h : signedAt 32 y = -1) : y = 2 ^ 32 - 1 := by
  rw [signedAt, Nat.mod_eq_of_lt hy] at h
  split at h <;> omega

theorem signedAt_minimum {x : Nat} (hx : x < 2 ^ 32) (h : signedAt 32 x = -2 ^ 31) : x = 2 ^ 31 := by
  rw [signedAt, Nat.mod_eq_of_lt hx] at h
  split at h <;> omega

/-- A quotient leaves the signed range only where -2^31 is divided by -1. -/
theorem fitsSigned_tdiv {x y : Nat} (hx : x < 2 ^ 32) (hy : y < 2 ^ 32) (h : x ≠ 2 ^ 31 ∨ y ≠ 2 ^ 32 - 1) :
    fitsSigned 32 ((signedAt 32 x).tdiv (signedAt 32 y)) = true := by
  obtain ⟨hlo, hhi⟩ := signedAt_bounds (n := 32) (by decide) x
  rw [fitsSigned_iff]
  have hmin : signedAt 32 y = -1 → signedAt 32 x ≠ -2 ^ 31 := fun h1 h2 =>
    h.elim (fun hn => hn (signedAt_minimum hx h2)) (fun hn => hn (signedAt_minusOne hy h1))
  generalize signedAt 32 x = a at *
  generalize signedAt 32 y = b at *
  by_cases h1 : b = 1
  · rw [h1, Int.tdiv_one]
    exact ⟨hlo, hhi⟩
  by_cases h2 : b = -1
  · have := hmin h2
    rw [h2, Int.tdiv_neg, Int.tdiv_one]
    omega
  · have hq : (a.tdiv b).natAbs = a.natAbs / b.natAbs := Int.natAbs_tdiv a b
    have hle : a.natAbs / b.natAbs ≤ 2 ^ 31 / 2 := by
      rcases Nat.eq_zero_or_pos b.natAbs with h0 | h0
      · rw [h0, Nat.div_zero]
        exact Nat.zero_le _
      · exact (Nat.div_le_div_left (by omega) (by decide)).trans (Nat.div_le_div_right (by omega))
    omega

/-- A remainder is smaller than the divisor. -/
theorem fitsSigned_tmod {x y : Nat} (hy : y < 2 ^ 32) (h0 : y ≠ 0) :
    fitsSigned 32 ((signedAt 32 x).tmod (signedAt 32 y)) = true := by
  obtain ⟨hlo, hhi⟩ := signedAt_bounds (n := 32) (by decide) y
  have hne : signedAt 32 y ≠ 0 := by
    rw [signedAt, Nat.mod_eq_of_lt hy]
    split <;> omega
  rw [fitsSigned_iff]
  generalize signedAt 32 x = a
  generalize signedAt 32 y = b at *
  have hq := Int.natAbs_tmod a b
  have hlt := Nat.mod_lt a.natAbs (Int.natAbs_pos.mpr hne)
  omega

end Sys2Proof.Machine

open Sys2Proof Sys2Proof.Machine

/-- Settles O54: the residue of the exact result, the bits shifted out, and the quotients that fit. -/
theorem dvorgilArithmetic : Obligations.DvorgilArithmetic := by
  refine ⟨fun f n x v cin hn hx hv hc => ?_, fun f n x k hn hx hk => ⟨rfl, rfl, fun h0 => ?_, fun h1 hkn => ?_, fun h0 => ?_⟩,
    fun f x y hx hy h0 => ⟨rfl, rfl, fun h => ⟨?_, ?_⟩, ?_, ?_, ?_⟩⟩
  · have hpos : 0 < n := by omega
    have hadd := aluAdd_value f n x v cin
    have hlt : (x + v + cin) % 2 ^ n < 2 ^ n := Nat.mod_lt _ (Nat.two_pow_pos n)
    refine ⟨hadd, decide_eq_true_iff, aluSub_value f hv hc, decide_eq_true_iff, aluMul_value f n x v, ?_, ?_, aluAdd_overflow f,
      (aluAdd_saturates hpos rfl f x v cin).2.1, rfl⟩
    · rw [← hadd]
      exact beq_iff_eq
    · rw [← hadd] at hlt ⊢
      exact bit_top_iff hpos hlt
  · subst h0
    exact ⟨rfl, rfl, rfl⟩
  · refine ⟨(if_neg (by omega)).trans ?_, if_neg (by omega)⟩
    rw [decide_eq_true hkn, Bool.true_and]
  · unfold aluRor shiftResult
    dsimp only
    rw [h0, pow_zero, Nat.div_one, Nat.mod_one, Nat.zero_mul, Nat.zero_mod, Nat.add_zero]
  · exact signedAt_lowBits (by decide) (fitsSigned_tdiv hx hy h)
  · rcases h with h | h
    · exact (congrArg (· && _) (decide_eq_false h)).trans rfl
    · exact (congrArg (_ && ·) (decide_eq_false h)).trans (Bool.and_false _)
  · exact signedAt_lowBits (by decide) (fitsSigned_tmod hy h0)
  · exact (by decide : lowBits 32 ((signedAt 32 (2 ^ 31)).tdiv (signedAt 32 (2 ^ 32 - 1))) = 2 ^ 31)
  · rfl
end

section
/-! Loads, stores, copies and the stacks of F1. -/

namespace Sys2Proof.Machine

section
variable {s : State} {ad n : Nat} {go : State → State}

/-! ### Accesses and repetitions that go on -/

theorem f1Access_done (isStore : Bool) (ha : ad % n = 0) (hd : inDataSpace ad = true) : f1Access s ad n isStore go = go s := by
  unfold f1Access
  dsimp only
  rw [if_neg (not_not.mpr ha), hd]
  rfl

theorem f1CodeRead_aligned (ha : ad % n = 0) (hd : inLdcSpace ad = true) (hl : inLdcSpace (ad + n - 1) = true) :
    f1CodeRead s ad n true go = go s := by
  unfold f1CodeRead
  dsimp only
  rw [if_neg (by rw [ha]; decide), hd, hl]
  rfl

theorem f1CodeRead_done (hd : inLdcSpace ad = true) (hl : inLdcSpace (ad + n - 1) = true) :
    f1CodeRead s ad n false go = go s := by
  unfold f1CodeRead
  dsimp only
  rw [if_neg (by rw [Bool.false_and]; exact Bool.false_ne_true), hd, hl]
  rfl

theorem f1Repeat_once {next : Nat} {one : State → (State → State) → State} {adv : F1State → F1State} {rep : Bool} (hr : rep = false) :
    f1Repeat s rep next one adv = one s fun s => f1Next s next id := by
  rw [f1Repeat, hr]
  rfl

theorem f1Repeat_over {next : Nat} {one : State → (State → State) → State} {adv : F1State → F1State} {rep : Bool} (hr : rep = true)
    (h : s.live.f1.reg 2 = 0) : f1Repeat s rep next one adv = f1Next s next id := by
  rw [f1Repeat, hr, if_neg (by decide), if_pos h]

theorem State.onF1_congr {f g : F1State → F1State} (h : f s.live.f1 = g s.live.f1) : s.onF1 f = s.onF1 g := by
  rw [State.onF1, State.onLive, Live.onF1, h]
  rfl

theorem State.f1Then_congr {next : Nat} {f g : F1State → F1State}
    (h : f { s.live.f1 with waiting := false } = g { s.live.f1 with waiting := false }) : s.f1Then next f = s.f1Then next g :=
  State.onF1_congr (congrArg (fun c : F1State => { c with pc := next }) h)

theorem State.f1Next_awake (s : State) (next : Nat) (f : F1State → F1State) : f1Next s.awake next f = s.f1Then next f := rfl

/-- The count of a repetition under REP: K2 goes down (up by m modulo 2^32), and PC passes the instruction at 0. -/
def F1State.counted (m next : Nat) (c : F1State) : F1State :=
  let c := c.setReg 2 ((c.reg 2).toNat + m)
  if c.reg 2 = 0 then { c with pc := next } else c

theorem State.onF1_counted (s : State) (m next : Nat) (f adv : F1State → F1State) :
    ((s.awake.onF1 f).onF1 fun c => F1State.counted m next (adv c)) =
      s.onF1 fun c => F1State.counted m next (adv (f { c with waiting := false })) := rfl

theorem f1Repeat_again {next : Nat} {one : State → (State → State) → State} {adv : F1State → F1State} {rep : Bool} (hr : rep = true)
    (h : s.live.f1.reg 2 ≠ 0) : f1Repeat s rep next one adv = one s fun s => s.onF1 fun c => F1State.counted 0xFFFFFFFF next (adv c) := by
  rw [f1Repeat, hr, if_neg (by decide), if_neg h]
  rfl

/-- A repetition: its own update, the advance, and the count in K2. -/
theorem State.f1Repeated_eq (s : State) (next : Nat) (f adv : F1State → F1State) :
    ((s.awake.onF1 f).onF1 fun c => F1State.counted 0xFFFFFFFF next (adv c)) = s.f1Repeated next fun c => adv (f c) :=
  State.onF1_counted ..

theorem State.f1Repeated_congr {next : Nat} {f g : F1State → F1State}
    (h : f { s.live.f1 with waiting := false } = g { s.live.f1 with waiting := false }) : s.f1Repeated next f = s.f1Repeated next g := by
  refine State.onF1_congr ?_
  dsimp only
  rw [h]

/-! ### Memory -/

theorem F1State.load_store {c : F1State} (hw : Memory.wf 0 c.dmem = true) (a n v : Nat) : (c.store a n v).load a n = v % 2 ^ (8 * n) := by
  have hread := memReadN_memWriteN hw a (le n v)
  rw [length_le] at hread
  rw [F1State.load, F1State.store, hread, pow_mul]
  exact (congrArg (rd · 0 n) (List.append_nil _).symm).trans (rd_le_append n v [])

/-- A store leaves the flags, so that LOCK ST sets Z over those of before. -/
theorem lockStore_eq (c : F1State) (held : Bool) (a v : Nat) :
    { (if held = true then c.store a 4 v else c) with
      reservation := none, flags := { (if held = true then c.store a 4 v else c).flags with z := held } } =
    { (if held = true then c.store a 4 v else c) with reservation := none, flags := { c.flags with z := held } } := by
  cases held <;> rfl

/-- A displacement of four bytes is the signed value of its word. -/
theorem dispAddr_d4 (base disp : Word) : dispAddr base .d4 disp = lowBits 32 (base.toNat + disp.toInt) := by
  have hext : extend 4 disp = disp.toInt := by
    rw [extend, if_neg (by decide), signedAt, BitVec.toInt, Nat.mod_eq_of_lt disp.isLt]
    split <;> split <;> omega
  rw [dispAddr, DispSize.len, hext]

end

end Sys2Proof.Machine

open Sys2Proof Sys2Proof.Machine

/-- Settles O55: each instruction's body where F1 fetches it and its accesses are good. -/
theorem dvorgilMemory : Obligations.DvorgilMemory := by
  refine ⟨fun p a b dsz disp s u next => ?_, fun p b dsz disp isz imm s u next => ?_, fun p a b disp s u next h => ?_,
    fun p a b s u next => ?_, fun p a s u next => ?_, fun p a imm s u next w tag h hw => ?_,
    fun c a n v hw => ⟨F1State.load_store hw a n v, fun k hk => ?_⟩⟩
  · intro c ad
    have hlen : 0 < 2 + dsz.len := by omega
    refine ⟨fun h ha hd => ⟨fun hl => ?_, fun hl => ?_⟩, fun h ha hd => ?_, fun h ha hd he => ?_, fun h => ⟨fun hl ha hd => ?_,
      fun hl hr ha hd => ?_, fun hl hr h2 => ?_, fun hl hr h2 ha hd => ?_⟩⟩
    · refine congrArg Host.Outcome.next ((f1Exec_of_fetches h hlen _).trans ((f1Access_done false ha hd).trans ?_))
      rw [hl]
      rfl
    · refine congrArg Host.Outcome.next ((f1Exec_of_fetches h hlen _).trans ((f1Access_done false ha hd).trans ?_))
      rw [hl]
      rfl
    · exact congrArg Host.Outcome.next ((f1Exec_of_fetches h hlen _).trans (f1Access_done false ha hd))
    · exact congrArg Host.Outcome.next ((f1Exec_of_fetches h hlen _).trans (f1CodeRead_aligned ha hd he))
    · refine congrArg Host.Outcome.next ((f1Exec_of_fetches h hlen _).trans ((if_pos hl).trans ((f1Access_done (s := s.awake) true ha hd).trans ?_)))
      rw [State.f1Next_awake]
      exact State.f1Then_congr (lockStore_eq ..)
    · exact congrArg Host.Outcome.next ((f1Exec_of_fetches h hlen _).trans ((if_neg (by rw [hl]; exact Bool.false_ne_true)).trans
        ((f1Repeat_once hr).trans (f1Access_done (s := s.awake) true ha hd))))
    · exact congrArg Host.Outcome.next ((f1Exec_of_fetches h hlen _).trans ((if_neg (by rw [hl]; exact Bool.false_ne_true)).trans
        (f1Repeat_over hr h2)))
    · refine congrArg Host.Outcome.next ((f1Exec_of_fetches h hlen _).trans ((if_neg (by rw [hl]; exact Bool.false_ne_true)).trans
        ((f1Repeat_again (s := s.awake) hr h2).trans ((f1Access_done (s := s.awake) true ha hd).trans ?_))))
      exact State.f1Repeated_eq s next _ _
  · intro ad v h hsz
    have hlen : 0 < 2 + dsz.len + isz.len := by omega
    have hwide : ¬ u.bits / 8 < isz.len := by omega
    refine ⟨fun hr h2 => ?_, fun ha hd => ⟨fun hr => ?_, fun hr h2 => ?_⟩⟩
    · exact congrArg Host.Outcome.next ((f1Exec_of_fetches h hlen _).trans ((if_neg hwide).trans (f1Repeat_over hr h2)))
    · exact congrArg Host.Outcome.next ((f1Exec_of_fetches h hlen _).trans ((if_neg hwide).trans
        ((f1Repeat_once hr).trans (f1Access_done (s := s.awake) true ha hd))))
    · refine congrArg Host.Outcome.next ((f1Exec_of_fetches h hlen _).trans ((if_neg hwide).trans
        ((f1Repeat_again (s := s.awake) hr h2).trans ((f1Access_done (s := s.awake) true ha hd).trans ?_))))
      exact State.f1Repeated_eq s next _ _
  · refine congrArg Host.Outcome.next ((f1Exec_of_fetches h (by decide) _).trans ?_)
    rw [State.f1Next_awake]
    refine State.f1Then_congr ?_
    rw [dispAddr_d4]
  · intro c src dst n
    refine ⟨fun h ha hd => ?_, fun h hda hdd => ⟨fun hsa hsd => ⟨fun hr => ?_, fun hr h2 => ?_⟩,
      fun hsd hse => ⟨fun hr => ?_, fun hr h2 => ?_⟩⟩, fun imm slot hi hslot h => ⟨fun hr => ?_, fun hr h2 ha hd => ?_⟩⟩
    · exact congrArg Host.Outcome.next ((f1Exec_of_fetches h two_pos _).trans (f1Access_done (s := s.awake) false ha hd))
    · exact congrArg Host.Outcome.next ((f1Exec_of_fetches h two_pos _).trans ((f1Repeat_once hr).trans
        ((f1Access_done (s := s.awake) false hsa hsd).trans (f1Access_done (s := s.awake) true hda hdd))))
    · refine congrArg Host.Outcome.next ((f1Exec_of_fetches h two_pos _).trans ((f1Repeat_again (s := s.awake) hr h2).trans
        ((f1Access_done (s := s.awake) false hsa hsd).trans ((f1Access_done (s := s.awake) true hda hdd).trans ?_))))
      exact State.f1Repeated_eq s next _ _
    · exact congrArg Host.Outcome.next ((f1Exec_of_fetches h two_pos _).trans ((f1Repeat_once hr).trans
        ((f1CodeRead_done (s := s.awake) hsd hse).trans (f1Access_done (s := s.awake) true hda hdd))))
    · refine congrArg Host.Outcome.next ((f1Exec_of_fetches h two_pos _).trans ((f1Repeat_again (s := s.awake) hr h2).trans
        ((f1CodeRead_done (s := s.awake) hsd hse).trans ((f1Access_done (s := s.awake) true hda hdd).trans ?_))))
      exact State.f1Repeated_eq s next _ _
    · refine congrArg Host.Outcome.next ((f1Exec_of_fetches h (by decide) _).trans ((if_neg (by omega)).trans
        ((if_neg (by rw [hr]; exact Bool.false_ne_true)).trans ?_)))
      rw [State.f1Next_awake]
      refine State.f1Then_congr ?_
      dsimp only
      rw [hslot]
    · refine congrArg Host.Outcome.next ((f1Exec_of_fetches h (by decide) _).trans ((if_neg (by omega)).trans
        ((if_pos hr).trans ((f1Repeat_again (s := s.awake) rfl h2).trans ((f1Access_done (s := s.awake) false ha hd).trans ?_)))))
      refine (State.f1Repeated_eq s next _ fun c => c.advance b (u.bits / 8)).trans (State.f1Repeated_congr ?_)
      dsimp only
      rw [hslot]
      rfl
  · intro c sp h
    refine ⟨fun ha h4 hlo hd => ?_, fun ha hhi hd => ?_, fun hlim => ?_, fun w rest hrs => ?_, ?_⟩
    · have hlt : sp < 2 ^ 32 := (c.reg 0).isLt
      have hsp : ((s.awake.live.f1.reg 0).toNat + 0xFFFFFFFC) % 2 ^ 32 = sp - 4 := by
        show (sp + 0xFFFFFFFC) % 2 ^ 32 = sp - 4
        omega
      have halign : (sp - 4) % 4 = 0 := by omega
      refine congrArg Host.Outcome.next ((f1Exec_of_fetches h two_pos _).trans ((if_neg (not_not.mpr rfl)).trans
        ((if_neg (not_not.mpr ha)).trans ?_)))
      rw [hsp, if_neg (show ¬ sp - 4 < s.awake.live.f1.dsLo from hlo.not_gt)]
      exact f1Access_done (s := s.awake) true halign hd
    · exact congrArg Host.Outcome.next ((f1Exec_of_fetches h two_pos _).trans ((if_neg (not_not.mpr rfl)).trans
        ((if_neg (not_not.mpr ha)).trans ((if_neg hhi.not_gt).trans (f1Access_done (s := s.awake) false ha hd)))))
    · exact congrArg Host.Outcome.next ((f1Exec_of_fetches h two_pos _).trans ((if_neg (not_not.mpr rfl)).trans
        (if_neg hlim.not_gt)))
    · refine congrArg Host.Outcome.next ((f1Exec_of_fetches h two_pos _).trans ((if_neg (not_not.mpr rfl)).trans ?_))
      rw [show s.awake.live.f1.rs = (w, false) :: rest from hrs]
      rfl
    · exact congrArg Host.Outcome.next ((f1Exec_of_fetches h two_pos _).trans (if_neg (not_not.mpr rfl)))
  · refine congrArg Host.Outcome.next ((f1Exec_of_fetches h (by decide) _).trans ((if_neg (not_not.mpr rfl)).trans ?_))
    rw [show s.awake.live.f1.rs[imm.toNat]? = some (w, tag) from hw]
    rfl
  · rw [F1State.store]
    dsimp only
    rw [memRead_writeN 0 _ _ _ _ hw, if_neg (by rw [length_le]; omega)]
end

section
/-! Control flow, entries, returns and traps of F1. -/

namespace Sys2Proof.Machine

section
variable {s : State}

/-! ### What a frame gives back -/

theorem bit_of_b2n {w i : Nat} {b : Bool} (h : w / 2 ^ i % 2 = b2n b) : bit w i = b := by
  rw [bit, Nat.testBit_eq_decide_div_mod_eq, h]
  cases b <;> rfl

theorem b2n_le_one (b : Bool) : b2n b ≤ 1 := by
  cases b
  · exact Nat.zero_le 1
  · exact Nat.le_refl 1

theorem Flags.toNat_lt (f : Flags) : f.toNat < 32 := by
  have hc := b2n_le_one f.c
  have hz := b2n_le_one f.z
  have hn := b2n_le_one f.n
  have hv := b2n_le_one f.v
  have hp := b2n_le_one f.p
  rw [Flags.toNat]
  omega

/-- The flags are the low bits of a header. -/
theorem Flags.ofNat_header (f : Flags) (x : Nat) : Flags.ofNat (x * 1024 + f.toNat) = f := by
  have hc := b2n_le_one f.c
  have hz := b2n_le_one f.z
  have hn := b2n_le_one f.n
  have hv := b2n_le_one f.v
  have hp := b2n_le_one f.p
  rw [Flags.ofNat, Flags.toNat, bit_of_b2n (b := f.p) (by omega), bit_of_b2n (b := f.v) (by omega), bit_of_b2n (b := f.n) (by omega),
    bit_of_b2n (b := f.z) (by omega), bit_of_b2n (b := f.c) (by omega)]

/-- The fields of an entry's header. -/
theorem frameHeader_fields {kind rpl : Nat} {ie : Bool} {f : Flags} {h : Nat} (hk : kind < 4) (hr : rpl < 8)
    (hh : h = frameHeader 0xFFFF kind ie rpl f.toNat) :
    h < 2 ^ 32 ∧ h / 2 ^ 16 = 0xFFFF ∧ h / 2 ^ 14 % 4 = kind ∧ bit h 13 = ie ∧ h / 2 ^ 10 % 8 = rpl ∧ Flags.ofNat h = f := by
  have hie := b2n_le_one ie
  have hf := f.toNat_lt
  rw [frameHeader] at hh
  have h13 : h / 2 ^ 13 % 2 = b2n ie := by omega
  have hlow : h % 1024 = f.toNat := by omega
  have hsplit : h = h / 1024 * 1024 + f.toNat := hlow ▸ (Nat.div_add_mod' h 1024).symm
  refine ⟨by omega, by omega, by omega, bit_of_b2n h13, by omega, ?_⟩
  exact (congrArg Flags.ofNat hsplit).trans (f.ofNat_header _)

theorem mem_maskRegs {m j : Nat} : j ∈ maskRegs m ↔ j < 16 ∧ bit m j = true := by
  rw [maskRegs, bitsOf, List.mem_filter, List.mem_range]

/-- The registers k with those of a list set to what f gives. -/
def setAll (f : Nat → Word) (rs : List Nat) (k : List Word) : List Word := rs.foldl (fun k r => k.set r (f r)) k

theorem popRegs_map (f : Nat → Word) (rest : List (Word × Bool)) :
    ∀ (rs : List Nat) (k : List Word), popRegs rs ((rs.map fun r => (f r, true)) ++ rest) k = some (rest, setAll f rs k)
  | [], _ => rfl
  | r :: rs, k => popRegs_map f rest rs (k.set r (f r))

theorem getElem?_setAll (f : Nat → Word) (j : Nat) :
    ∀ (rs : List Nat) (k : List Word), (setAll f rs k)[j]? = if j ∈ rs then k[j]?.map fun _ => f j else k[j]?
  | [], _ => by simp [setAll]
  | r :: rs, k => by
    rw [show setAll f (r :: rs) k = setAll f rs (k.set r (f r)) from rfl, getElem?_setAll f j rs]
    by_cases hr : r = j
    · subst hr
      by_cases hmem : r ∈ rs
      · simp [hmem, List.getElem?_set]
        split <;> simp_all
      · simp [hmem, List.getElem?_set]
        split <;> simp_all
    · have hj : ¬ j = r := fun h => hr h.symm
      simp [hr, hj, List.mem_cons]

theorem getD_setAll {f : Nat → Word} {j : Nat} {k : List Word} (hj : j < k.length) (rs : List Nat) :
    (setAll f rs k).getD j 0 = if j ∈ rs then f j else k.getD j 0 := by
  rw [List.getD_eq_getElem?_getD, getElem?_setAll, List.getD_eq_getElem?_getD, List.getElem?_eq_getElem hj]
  split <;> rfl

/-- A frame of all sixteen registers gives every register back. -/
theorem popRegs_all {k k0 : List Word} (hk : k.length = 16) (h0 : k0.length = 16) (rest : List (Word × Bool)) :
    popRegs (maskRegs 0xFFFF) ((k0.map fun w => (w, true)) ++ rest) k = some (rest, k0) := by
  have hregs : maskRegs 0xFFFF = List.range 16 := by decide
  have hmap : (k0.map fun w => (w, true)) = (List.range 16).map fun r => (k0.getD r 0, true) := by
    refine List.ext_getElem (by simp [h0]) fun i hi _ => ?_
    have hi0 : i < k0.length := by simpa using hi
    simp [List.getD_eq_getElem?_getD, List.getElem?_eq_getElem hi0]
  have hset : setAll (fun r => k0.getD r 0) (List.range 16) k = k0 := by
    refine List.ext_getElem? fun i => ?_
    rw [getElem?_setAll]
    by_cases hi : i < 16
    · rw [if_pos (List.mem_range.mpr hi), List.getElem?_eq_getElem (hk ▸ hi), List.getElem?_eq_getElem (h0 ▸ hi)]
      simp [List.getD_eq_getElem?_getD, List.getElem?_eq_getElem (h0 ▸ hi)]
    · rw [if_neg (by simpa using hi), List.getElem?_eq_none (by omega), List.getElem?_eq_none (by omega)]
  rw [hregs, hmap, popRegs_map, hset]

/-- A return from a frame of an accepted kind. -/
theorem f1Return_frame {ok : Nat → Bool} {fin : Nat → F1State → F1State} {h ra : Word} {rest st : List (Word × Bool)} {k : List Word}
    (hrs : s.live.f1.rs = (h, true) :: (ra, true) :: rest) (hok : ok (h.toNat / 2 ^ 14 % 4) = true)
    (hpop : popRegs (maskRegs (h.toNat / 2 ^ 16)) rest s.live.f1.k = some (st, k)) :
    f1Return s ok fin = s.onF1 fun c => fin h.toNat { c with rs := st, k := k, pc := ra.toNat % 2 ^ 24 } := by
  simp only [f1Return, hrs, hok, hpop]
  rfl

/-! ### CALL and RET -/

/-- The frame that CALL pushes. -/
def F1State.callFrame (c : F1State) (mask next : Nat) : List (Word × Bool) :=
  (BitVec.ofNat 32 (mask * 2 ^ 16), true) :: (BitVec.ofNat 32 next, true) :: (maskRegs mask).map fun r => (c.k.getD r 0, true)

/-- RET on CALL's frame, the registers in between having any values. -/
theorem ret_callFrame {p : Prefixes} {u : PfxUse} {next next' : Nat} {c0 : F1State} {mask : BitVec 16} {rest : List (Word × Bool)}
    (h : Fetches s p 1 allowNone u next') (hk : s.live.f1.k.length = 16) (hnext : next < 2 ^ 24)
    (hrs : s.live.f1.rs = c0.callFrame mask.toNat next ++ rest) :
    exec (.ret p) s = .next (s.awake.onF1 fun c =>
      { c with rs := rest, k := setAll (c0.k.getD · 0) (maskRegs mask.toNat) s.live.f1.k, pc := next }) := by
  have hm : mask.toNat < 2 ^ 16 := mask.isLt
  have hhead : (BitVec.ofNat 32 (mask.toNat * 2 ^ 16)).toNat = mask.toNat * 2 ^ 16 :=
    (BitVec.toNat_ofNat ..).trans (Nat.mod_eq_of_lt (by omega))
  have hra : (BitVec.ofNat 32 next).toNat % 2 ^ 24 = next := by
    rw [BitVec.toNat_ofNat]
    omega
  refine congrArg Host.Outcome.next ((f1Exec_of_fetches h Nat.one_pos _).trans ?_)
  refine (f1Return_frame (s := s.awake) hrs (by rw [hhead]; exact beq_iff_eq.mpr (by omega))
    (st := rest) (k := setAll (c0.k.getD · 0) (maskRegs mask.toNat) s.live.f1.k) ?_).trans ?_
  · rw [hhead, Nat.mul_div_cancel _ (by decide)]
    exact popRegs_map _ _ _ _
  · rw [hra]

theorem callTarget_len_pos (t : CallTarget) : 0 < t.len := by
  cases t <;> exact Nat.succ_pos _

theorem jumpTarget_len_pos (t : JumpTarget) : 0 < t.len := by
  cases t <;> exact Nat.succ_pos _

theorem Fetches.next_lt {p : Prefixes} {len : Nat} {al : PfxAllow} {u : PfxUse} {next : Nat} (h : Fetches s p len al u next) :
    next < 2 ^ 24 := by
  obtain ⟨-, -, -, -, -, rfl⟩ := h
  exact Nat.mod_lt _ (by decide)

/-- A CALL leaves its frame, and RET from it gives back the masked registers, the return address and the stack. -/
theorem call_ret {p : Prefixes} {t : CallTarget} {mask : BitVec 16} {next target : Nat} (hnext : next < 2 ^ 24)
    (hx : exec (.call p t mask) s = .next (s.f1Then target fun c => { c with rs := s.live.f1.callFrame mask.toNat next ++ c.rs })) :
    ∃ t', exec (.call p t mask) s = .next t' ∧ t'.kept = s.kept ∧ t'.live.f1.k = s.live.f1.k ∧ t'.live.f1.pc = target ∧
      ∀ p' k u' next' r, r = t'.onF1 (fun c => { c with k := k }) → k.length = 16 → Fetches r p' 1 allowNone u' next' →
        ∃ e, exec (.ret p') r = .next e ∧ e.live.f1.pc = next ∧ e.live.f1.rs = s.live.f1.rs ∧
          ∀ j : KReg, e.live.f1.reg j = if bit mask.toNat j.val then s.live.f1.reg j else k.getD j.val 0 := by
  refine ⟨_, hx, rfl, rfl, rfl, fun p' k u' next' r hr hk hf => ?_⟩
  subst hr
  refine ⟨_, ret_callFrame hf hk hnext (c0 := s.live.f1) (rest := s.live.f1.rs) rfl, rfl, rfl, fun j => ?_⟩
  refine (getD_setAll (lt_of_lt_of_eq j.isLt hk.symm) _).trans ?_
  simp only [mem_maskRegs, j.isLt, true_and]
  rfl

/-! ### Entries and stops -/

theorem Live.f1Stop_run (l : Live) (cause : Nat) : (l.f1Stop cause).f1.run = .stopped := by
  unfold Live.f1Stop
  dsimp only
  split
  · rw [Live.raise_f1_run]
  · rw [Live.raise_f1_run]
    exact Live.raise_f1_run ..

theorem Live.f1Halt_run (l : Live) (cause vector info : Nat) : (l.f1Halt cause vector info).f1.run = .stopped :=
  Live.f1Stop_run ..

theorem f1Exception_unhandled {vector cause addr ret : Nat} (h : s.live.f1.vbar = 0) :
    (f1Exception s vector cause addr ret).live.f1.run = .stopped := by
  simp only [f1Exception, h]
  exact Live.f1Halt_run ..

theorem f1Exception_entry {vector cause addr ret target : Nat} (hv : s.live.f1.vbar ≠ 0) (hroom : s.live.f1.rsLim + 72 ≤ s.live.f1.rsp)
    (ht : vectorTarget s.kept.flash s.live.f1.vbar vector = some target) :
    f1Exception s vector cause addr ret = s.onF1 fun c =>
      { c with
        excInfo := cause * 256 + vector, excAddr := addr, rs := c.entryFrame 2 ret ++ c.rs, ie := false, reservation := none,
        waiting := false, pc := target } := by
  have hroom' : ({ s.live.f1 with excInfo := cause * 256 + vector, excAddr := addr } : F1State).rsLim + 72 ≤
    ({ s.live.f1 with excInfo := cause * 256 + vector, excAddr := addr } : F1State).rsp := hroom
  unfold f1Exception
  dsimp only
  rw [if_neg hv, decide_eq_true hroom', Bool.not_true, Bool.false_and, if_neg Bool.false_ne_true]
  simp only [reduceIte, ht]
  rfl

theorem vectorTarget_iff {flash : Memory} {vbar vec target : Nat} : vectorTarget flash vbar vec = some target ↔
    inLdcSpace (vbar + 4 * vec) = true ∧ inLdcSpace (vbar + 4 * vec + 3) = true ∧ target = codeWord flash (vbar + 4 * vec) 3 ∧
      inAppSlot target = true := by
  simp only [vectorTarget, Option.ite_none_right_eq_some, Bool.and_eq_true, Option.some.injEq]
  constructor
  · rintro ⟨⟨⟨hlo, hhi⟩, happ⟩, rfl⟩
    exact ⟨hlo, hhi, rfl, happ⟩
  · rintro ⟨hlo, hhi, rfl, happ⟩
    exact ⟨⟨⟨hlo, hhi⟩, happ⟩, rfl⟩

theorem interruptEntry_entry {line target : Nat} (hrun : s.live.f1.run = .running) (hie : s.live.f1.ie = true)
    (hline : s.live.nextLine = some line) (hroom : s.live.f1.rsLim + 72 ≤ s.live.f1.rsp)
    (ht : vectorTarget s.kept.flash s.live.f1.vbar (16 + line) = some target) :
    interruptEntry s = s.onF1 fun c =>
      { c with
        rs := c.entryFrame 1 c.pc ++ c.rs, ie := false, reservation := none, waiting := false,
        pc := target, rpl := c.linePrio line } := by
  simp only [interruptEntry, hline, hrun, hie, ht, hroom.not_gt]
  rfl

/-! ### Instructions that trap -/

/-- The state in which F1 fetches: it runs, and no WFI waits. -/
theorem f1_goes (hrun : s.live.f1.run = .running) (hwait : s.live.f1.waiting = true → s.live.irqWakes = true) :
    (s.live.f1.run != .running || (s.live.f1.waiting && !s.live.irqWakes)) = false := by
  cases hw : s.live.f1.waiting <;> simp_all

theorem f1Exec_outside {p : Prefixes} {len : Nat} {al : PfxAllow} {body : PfxUse → Nat → State → State}
    (hrun : s.live.f1.run = .running) (hwait : s.live.f1.waiting = true → s.live.irqWakes = true)
    (h : inAppSlot s.live.f1.pc = false) :
    f1Exec s p len al body = f1Exception (s.awake.accessEvent 2 s.live.f1.pc) 2 0 s.live.f1.pc s.live.f1.pc := by
  simp only [f1Exec, f1_goes hrun hwait, State.onF1_live, Live.onF1_f1, h]
  rfl

theorem f1Exec_illegalPrefix {p : Prefixes} {len : Nat} {al : PfxAllow} {body : PfxUse → Nat → State → State}
    (hrun : s.live.f1.run = .running) (hwait : s.live.f1.waiting = true → s.live.irqWakes = true)
    (h : inAppSlot s.live.f1.pc = true) (hl : inAppSlot (s.live.f1.pc + p.length + len - 1) = true) (hu : usePrefixes al p = none) :
    f1Exec s p len al body = f1Illegal s.awake 1 := by
  simp only [f1Exec, f1_goes hrun hwait, State.onF1_live, Live.onF1_f1, h, hl, hu]
  rfl

theorem f1Alu_illegal {p : Prefixes} {b : AluOperand} {al : PfxAllow} {u : PfxUse} {next : Nat} {ext : ImmExt} {a : KReg}
    {writes : Bool} {op : Flags → PfxUse → Nat → Nat → AluResult} (h : Fetches s p b.len al u next)
    (hv : aluValue s.live.f1.k u.bits ext b = none) : f1Alu s p a b al ext writes op = f1Illegal s.awake 2 := by
  have hawake : aluValue s.awake.live.f1.k u.bits ext b = none := hv
  rw [f1Alu, f1Exec_of_fetches h (aluOperand_len_pos b)]
  simp only [hawake]

theorem f1Divide_zero {p : Prefixes} {u : PfxUse} {next : Nat} {a b : KReg} {op : Flags → Nat → Nat → AluResult}
    (h : Fetches s p 2 allowNone u next) (hb : s.live.f1.reg b = 0) :
    f1Divide s p a b op = f1Exception s.awake 7 0 0 s.live.f1.pc :=
  (f1Exec_of_fetches h two_pos _).trans (if_pos hb)

theorem f1Access_unaligned {ad n : Nat} {isStore : Bool} {go : State → State} (h : ad % n ≠ 0) :
    f1Access s ad n isStore go = f1Exception s 5 0 ad s.live.f1.pc :=
  if_pos h

theorem f1Access_outside {ad n : Nat} {isStore : Bool} {go : State → State} (h : ad % n = 0) (hd : inDataSpace ad = false) :
    f1Access s ad n isStore go = f1Exception (s.accessEvent (b2n isStore) ad) 3 0 ad s.live.f1.pc := by
  unfold f1Access
  dsimp only
  rw [if_neg (not_not.mpr h), hd]
  rfl

end

end Sys2Proof.Machine

open Sys2Proof Sys2Proof.Machine

/-- Settles O56: each instruction's body where F1 fetches it; RET and RETI take apart the frame that CALL or the entry has
pushed; each trap is the branch its condition selects. -/
theorem dvorgilControl : Obligations.DvorgilControl := by
  refine ⟨fun p s u next h => ?_, fun p n s u next h hn => ?_, fun p cc wide disp s u next h => ?_, fun p t s u next h => ?_,
    fun p t mask s u next h hroom => ?_, fun p s u next c0 kind ret rest h hkind h0 hk hrpl hret hrs => ?_,
    fun s vector cause addr ret => ⟨fun target hv hroom ht => f1Exception_entry hv hroom ht, f1Exception_unhandled⟩,
    fun line target s hrun hie hline hroom ht => congrArg Host.Outcome.next (interruptEntry_entry hrun hie hline hroom ht),
    fun _ _ _ _ => vectorTarget_iff, fun p a b s hrun hwait => ⟨fun h => ?_, fun h hl hu => ?_⟩, fun p a b s u next h hv => ?_,
    fun p a b s u next h hb => ⟨?_, ?_, ?_, ?_⟩, fun p a b dsz disp s u next h => ⟨fun ha => ?_, fun ha hd => ?_⟩,
    fun p a s u next h => ⟨fun hroom => ?_, fun hrs => ?_, fun w rest hrs => ?_⟩, fun p n s u next h hn => ?_⟩
  · exact ⟨congrArg Host.Outcome.next (f1Exec_of_fetches h Nat.one_pos _), congrArg Host.Outcome.next (f1Exec_of_fetches h Nat.one_pos _),
      congrArg Host.Outcome.next (f1Exec_of_fetches h Nat.one_pos _), congrArg Host.Outcome.next (f1Exec_of_fetches h Nat.one_pos _),
      congrArg Host.Outcome.next (f1Exec_of_fetches h Nat.one_pos _), congrArg Host.Outcome.next (f1Exec_of_fetches h Nat.one_pos _)⟩
  · exact congrArg Host.Outcome.next ((f1Exec_of_fetches h two_pos _).trans (if_neg hn.not_gt))
  · exact congrArg Host.Outcome.next (f1Exec_of_fetches h (by cases wide <;> decide) _)
  · cases t with
    | rel d => exact congrArg Host.Outcome.next (f1Exec_of_fetches h (jumpTarget_len_pos _) _)
    | reg b => exact congrArg Host.Outcome.next (f1Exec_of_fetches h (jumpTarget_len_pos _) _)
  · have hbody : ¬ s.live.f1.rsp < s.live.f1.rsLim + (8 + 4 * popcount 16 mask.toNat) := by omega
    cases t with
    | rel4 d => exact call_ret h.next_lt (congrArg Host.Outcome.next ((f1Exec_of_fetches h (callTarget_len_pos _) _).trans (if_neg hbody)))
    | rel2 d => exact call_ret h.next_lt (congrArg Host.Outcome.next ((f1Exec_of_fetches h (callTarget_len_pos _) _).trans (if_neg hbody)))
    | reg b => exact call_ret h.next_lt (congrArg Host.Outcome.next ((f1Exec_of_fetches h (callTarget_len_pos _) _).trans (if_neg hbody)))
  · have hkind' : kind < 4 := by omega
    have hok : (kind == 1 || kind == 2) = true := by
      rcases hkind with rfl | rfl <;> rfl
    obtain ⟨hlt, hmask, hk', hie, hrpl', hflags⟩ := frameHeader_fields (ie := c0.ie) (f := c0.flags) hkind' hrpl rfl
    have hhead : (BitVec.ofNat 32 (frameHeader 0xFFFF kind c0.ie c0.rpl c0.flags.toNat)).toNat =
      frameHeader 0xFFFF kind c0.ie c0.rpl c0.flags.toNat := (BitVec.toNat_ofNat ..).trans (Nat.mod_eq_of_lt hlt)
    have hra : (BitVec.ofNat 32 ret).toNat % 2 ^ 24 = ret := by
      rw [BitVec.toNat_ofNat]
      omega
    refine ⟨_, congrArg Host.Outcome.next ((f1Exec_of_fetches h Nat.one_pos _).trans
      (f1Return_frame (s := s.awake) hrs (by rw [hhead, hk', hok]) (by rw [hhead, hmask]; exact popRegs_all hk h0 rest))),
      rfl, hra, rfl, rfl, ?_, ?_, ?_⟩
    · exact (congrArg Flags.ofNat hhead).trans hflags
    · exact (congrArg (bit · 13) hhead).trans hie
    · exact (congrArg (· / 2 ^ 10 % 8) hhead).trans hrpl'
  · exact congrArg Host.Outcome.next (f1Exec_outside hrun hwait h)
  · exact congrArg Host.Outcome.next (f1Exec_illegalPrefix hrun hwait h hl hu)
  · exact congrArg Host.Outcome.next (f1Alu_illegal h hv)
  · exact congrArg Host.Outcome.next (f1Divide_zero h hb)
  · exact congrArg Host.Outcome.next (f1Divide_zero h hb)
  · exact congrArg Host.Outcome.next (f1Divide_zero h hb)
  · exact congrArg Host.Outcome.next (f1Divide_zero h hb)
  · exact congrArg Host.Outcome.next ((f1Exec_of_fetches h (by omega) _).trans (f1Access_unaligned (s := s.awake) ha))
  · exact congrArg Host.Outcome.next ((f1Exec_of_fetches h (by omega) _).trans (f1Access_outside (s := s.awake) ha hd))
  · exact congrArg Host.Outcome.next ((f1Exec_of_fetches h two_pos _).trans ((if_neg (not_not.mpr rfl)).trans (if_pos hroom)))
  · refine congrArg Host.Outcome.next ((f1Exec_of_fetches h two_pos _).trans ((if_neg (not_not.mpr rfl)).trans ?_))
    rw [show s.awake.live.f1.rs = [] from hrs]
    rfl
  · refine congrArg Host.Outcome.next ((f1Exec_of_fetches h two_pos _).trans ((if_neg (not_not.mpr rfl)).trans ?_))
    rw [show s.awake.live.f1.rs = (w, true) :: rest from hrs]
    rfl
  · exact congrArg Host.Outcome.next ((f1Exec_of_fetches h two_pos _).trans (if_pos hn))
end

section
/-! F1's I/O ports and its timers. -/

namespace Sys2Proof.Machine

section
variable {s : State}

theorem bit_or_two_pow (n i : Nat) : bit (n ||| 2 ^ i) i = true := by
  rw [bit, Nat.testBit_or, Nat.testBit_two_pow_self, Bool.or_true]

theorem maskOf_succ (k : Nat) (f : Nat → Bool) : maskOf (k + 1) f = if f k then maskOf k f + 2 ^ k else maskOf k f := by
  rw [maskOf, List.range_succ, List.foldl_append]
  rfl

theorem maskOf_lt (k : Nat) (f : Nat → Bool) : maskOf k f < 2 ^ k := by
  induction k with
  | zero => exact Nat.one_pos
  | succ k ih =>
    rw [maskOf_succ, pow_succ]
    split <;> omega

theorem bit_maskOf (k : Nat) (f : Nat → Bool) (n : Nat) : bit (maskOf k f) n = (decide (n < k) && f n) := by
  induction k with
  | zero => exact Nat.zero_testBit n
  | succ k ih =>
    rw [bit] at ih ⊢
    rw [maskOf_succ]
    by_cases hk : n = k
    · subst hk
      cases hf : f n
      · rw [if_neg Bool.false_ne_true, ih, hf]
        simp
      · rw [if_pos rfl, Nat.add_comm, Nat.testBit_two_pow_add_eq, Nat.testBit_lt_two_pow (maskOf_lt n f)]
        simp
    · have hlt : decide (n < k + 1) = decide (n < k) := decide_eq_decide.mpr (by omega)
      rw [hlt, ← ih]
      split
      · rw [Nat.add_comm, ← Nat.mul_one (2 ^ k), Nat.testBit_two_pow_mul_add _ (maskOf_lt k f)]
        split
        · rfl
        · next h =>
          rw [Nat.testBit_lt_two_pow (lt_of_lt_of_le (maskOf_lt k f) (Nat.pow_le_pow_right two_pos (by omega)))]
          exact Nat.testBit_lt_two_pow (lt_of_lt_of_le (by decide : 1 < 2 ^ 1) (Nat.pow_le_pow_right two_pos (by omega)))
      · rfl

theorem portOperand_len_pos (port : PortOperand) : 0 < port.len := by
  cases port <;> exact Nat.succ_pos _

theorem State.byF1_running (h : s.live.f1.run = .running) (f : State → State) : s.byF1 f = f s := by
  rw [State.byF1, h]
  rfl

/-! ### The ports -/

theorem Live.lmbAck_length (l : Live) (v : Nat) : (l.lmbAck v).host.lmb.length = l.host.lmb.length := by
  simp [Live.lmbAck]

theorem Live.lmbAck_mailbox {l : Live} {v n : Nat} {b : Mailbox} (hn : n < 8) (hb : l.host.lmb[n]? = some b) :
    (l.lmbAck v).host.lmb[n]? = some (if bit v n = true ∧ b.st = .done then Mailbox.empty else b) := by
  simp [Live.lmbAck, List.getElem?_map, List.getElem?_zipIdx, hb, hn]

theorem Live.popF1_queue (l : Live) : l.popF1.host.f1q = l.host.f1q.drop 1 ∧
    l.popF1.f1.evHold = ((l.host.f1q.head?).map (·.bytes)).getD (List.replicate 16 0xFF) := by
  unfold Live.popF1
  split
  next h => exact ⟨by rw [Live.onF1, h, List.drop_nil], by rw [h]; rfl⟩
  next r rs h => exact ⟨by rw [h]; rfl, by rw [h]; rfl⟩

theorem F1State.clearPend_bit {c : F1State} {v n : Nat} (hn : n < 15) :
    bit (c.clearPend v).edgePend n = (bit c.edgePend n && !bit v n) := by
  rw [F1State.clearPend, bit_maskOf, decide_eq_true hn, Bool.true_and]

theorem F1State.writeCtl_timer {c : F1State} {n : Nat} (hn : n < c.timers.length) (v : Nat) :
    (c.writeCtl n v).timer n = { c.timer n with missed := 0, periodic := bit v 1, en := bit v 0 } := by
  rw [F1State.timer, F1State.writeCtl]
  simp [List.getD_eq_getElem?_getD, hn]

theorem execInPort_done {p : Prefixes} {a : KReg} {port : PortOperand} {u : PfxUse} {next v : Nat} {l : Live}
    (h : Fetches s p port.len allowNone u next) (hr : portRead (s.live.f1.portOf port) s.awake.live = some (v, l)) :
    exec (.inPort p a port) s = .next (f1Next { s.awake with live := l } next fun c => c.setReg a v) := by
  have hr' : portRead (s.awake.live.f1.portOf port) s.awake.live = some (v, l) := hr
  refine congrArg Host.Outcome.next ((f1Exec_of_fetches h (portOperand_len_pos port) _).trans ?_)
  simp only [hr']

theorem execInPort_fault {p : Prefixes} {a : KReg} {port : PortOperand} {u : PfxUse} {next : Nat}
    (h : Fetches s p port.len allowNone u next) (hr : portRead (s.live.f1.portOf port) s.awake.live = none) :
    exec (.inPort p a port) s = .next (ioFault s.awake 0 (s.live.f1.portOf port)) := by
  have hr' : portRead (s.awake.live.f1.portOf port) s.awake.live = none := hr
  refine congrArg Host.Outcome.next ((f1Exec_of_fetches h (portOperand_len_pos port) _).trans ?_)
  simp only [hr']
  rfl

theorem execOutPort_done {p : Prefixes} {a : KReg} {port : PortOperand} {u : PfxUse} {next : Nat} {t : State}
    (h : Fetches s p port.len allowNone u next)
    (hw : portWrite (s.live.f1.portOf port) (s.live.f1.reg a).toNat s.awake = .done t) :
    exec (.outPort p a port) s = .next (f1Next t next id) := by
  have hw' : portWrite (s.awake.live.f1.portOf port) (s.awake.live.f1.reg a).toNat s.awake = .done t := hw
  refine congrArg Host.Outcome.next ((f1Exec_of_fetches h (portOperand_len_pos port) _).trans ?_)
  simp only [hw']

theorem execOutPort_fault {p : Prefixes} {a : KReg} {port : PortOperand} {u : PfxUse} {next c : Nat}
    (h : Fetches s p port.len allowNone u next)
    (hw : portWrite (s.live.f1.portOf port) (s.live.f1.reg a).toNat s.awake = .fault c) :
    exec (.outPort p a port) s = .next (ioFault s.awake c (s.live.f1.portOf port)) := by
  have hw' : portWrite (s.awake.live.f1.portOf port) (s.awake.live.f1.reg a).toNat s.awake = .fault c := hw
  refine congrArg Host.Outcome.next ((f1Exec_of_fetches h (portOperand_len_pos port) _).trans ?_)
  simp only [hw']
  rfl

theorem f1PortWrite_done {port v : Nat} {t : State} (h : portWrite port v s = .done t) : f1PortWrite port v s = t := by
  rw [f1PortWrite, h]

theorem f1PortWrite_fault {port v c : Nat} (h : portWrite port v s = .fault c) : f1PortWrite port v s = ioFault s c port := by
  rw [f1PortWrite, h]

theorem f1PortWrite_running {port : Nat} {v : Word} (hrun : s.live.f1.run = .running) (hp : port < 2 ^ 16) :
    exec (.f1PortWrite port v) s = .next (f1PortWrite port v.toNat s) := by
  refine congrArg Host.Outcome.next ((State.byF1_running hrun _).trans ?_)
  rw [Nat.mod_eq_of_lt hp]

/-! ### The timers -/

/-- A reload takes the compare value beyond now. -/
theorem timerReload_cmp {x : F1Timer} {now : Nat} (h : x.cmp ≤ now) : now < (timerReload x now).cmp := by
  have hpos : 0 < max 1000 x.period := lt_of_lt_of_le (by decide) (Nat.le_max_left ..)
  have hlt := Nat.lt_mul_div_succ (now - x.cmp) hpos
  rw [Nat.mul_comm] at hlt
  show now < x.cmp + ((now - x.cmp) / max 1000 x.period + 1) * max 1000 x.period
  omega

theorem timerFire_due {n : Nat} {x : F1Timer} {l : Live} (hx : l.f1.timers[n]? = some x) (hen : x.en = true) (hdue : x.cmp ≤ l.mt.now) :
    timerFire n l = l.onF1 fun c => { c with
      timers := c.timers.set n (if x.periodic then timerReload x l.mt.now else { x with en := false })
      edgePend := c.edgePend ||| 2 ^ (10 + n) } := by
  rw [timerFire, hx]
  dsimp only
  rw [hen, decide_eq_false hdue.not_gt]
  rfl

end

end Sys2Proof.Machine

open Sys2Proof Sys2Proof.Machine

/-- Settles O58: IN and OUT by what the port map answers; each port with a row by what it does while F1 runs; a timer that is
due by its reload. -/
theorem f1Ports : Obligations.F1Ports := by
  refine ⟨fun p a port s u next h => ⟨fun v l hr => execInPort_done h hr, execInPort_fault h, fun t hw => execOutPort_done h hw,
    fun c hw => execOutPort_fault h hw⟩, fun v s hrun => ?_, fun n x s hphase hx hen hdue => ?_⟩
  · have hby : ∀ f, Host.Outcome.next (s.byF1 f) = (.next (f s) : Result) := fun f => congrArg _ (State.byF1_running hrun f)
    refine ⟨hby _, ⟨_, hby _, rfl, Live.lmbAck_length .., fun n b hn hb => Live.lmbAck_mailbox hn hb⟩,
      ⟨_, hby _, rfl, Live.popF1_queue _⟩, hby _, hby _, ⟨_, hby _, rfl, fun n hn => ?_⟩, ⟨_, hby _, rfl, fun h => ?_, fun h => ?_⟩,
      fun n hn => ⟨_, hby _, rfl, ?_⟩, fun port hp => ⟨fun t hw => ?_, fun c hw => ?_⟩, rfl, rfl, rfl, rfl⟩
    · exact F1State.clearPend_bit hn
    · exact (congrArg (fun c : F1State => bit c.edgePend 14) (if_pos h)).trans (bit_or_two_pow ..)
    · exact congrArg (fun c => s.onF1 fun _ => c) (if_neg (by rw [h]; exact Bool.false_ne_true))
    · have ht := F1State.writeCtl_timer hn v.toNat
      exact ⟨congrArg F1Timer.en ht, congrArg F1Timer.periodic ht, congrArg F1Timer.missed ht, (congrArg F1Timer.cmp ht).trans rfl⟩
    · exact (f1PortWrite_running hrun hp).trans (congrArg _ (f1PortWrite_done hw))
    · exact (f1PortWrite_running hrun hp).trans (congrArg _ (f1PortWrite_fault hw))
  · have hn : n < s.live.f1.timers.length := (List.getElem?_eq_some_iff.mp hx).1
    refine ⟨_, if x.periodic then timerReload x s.live.mt.now else { x with en := false },
      State.onLogic_eq hphase (timerFire_due hx hen hdue),
      rfl, List.getElem?_set_self hn, bit_or_two_pow .., fun hp => ?_, fun hp => ?_⟩
    · rw [if_neg (by rw [hp]; exact Bool.false_ne_true)]
    · rw [if_pos hp]
      exact ⟨hen, timerReload_cmp hdue⟩
end
